-- ==== Sys2Proof/Word.lean ====
section
/-! DEFINITION. The word types of the part and the shape of its sparse tables. -/

namespace Sys2Proof

/-- A register, a slot word, a mailbox word: 32 bits (R29, R482). -/
abbrev Word := BitVec 32

/-- A byte of a line (a line is 256 of them, 00_scope.md). -/
abbrev Byte := BitVec 8

/-- A sparse table: entries by rising key, none equal to what an unlisted key reads as. -/
abbrev Tab (α : Type) := List (Nat × α)

/-- Bits `[hi:lo]` of a word as a number. -/
def Word.bits (w : Word) (hi lo : Nat) : Nat := (w.toNat >>> lo) % 2 ^ (hi + 1 - lo)

/-- Bit `[n]` of a word. -/
def Word.bit (w : Word) (n : Nat) : Bool := w.getLsbD n

/-- The word with bits `[hi:lo]` replaced by the low bits of `v`. -/
def Word.put (w : Word) (hi lo v : Nat) : Word :=
  let m := (2 ^ (hi + 1 - lo) - 1) <<< lo
  BitVec.ofNat 32 ((w.toNat - (w.toNat &&& m)) ||| ((v <<< lo) &&& m))

end Sys2Proof
end

