-- ==== Sys2Proof/Syntax.lean ====
section
/-! DEFINITION. The commands of the part: one constructor per row of spec/opcode_table.json, and the
operand types they carry. A command names a moment and what the outside world brings to it: the writer
and the word of a register write, the packet or flit that arrives, the value a sensor shows. -/

namespace Sys2Proof

/-- Who accesses a register: the codes of PAGE_REJ.FUNC (Table RG-2). -/
inductive Func where
  | pf
  | vf (p : Fin 8)
  | mgmt
  | firmware
  /-- the belfry that does not hold (R381) -/
  | otherBelfry
  deriving DecidableEq, Repr

/-- The two mirrored halves (R10). -/
inductive Side where
  | east
  | west
  deriving DecidableEq, Repr

/-- The unit classes of a cell's tasks (Table SP-5). -/
inductive UnitClass where
  | m
  | v
  | x
  deriving DecidableEq, Repr

/-- The relay directions of a cell (Table SP-1). -/
inductive Dir where
  | eastward
  | southward
  deriving DecidableEq, Repr

/-- Where a task runs: a unit of a cell, or the dispatch unit. -/
inductive Place where
  | cell (c : Fin 64) (u : UnitClass)
  | du
  deriving DecidableEq, Repr

/-- A packet of the fabric: the header of Table FT-5 and the bytes of the flits after it, in order. -/
structure Pkt where
  op : BitVec 6 := 0
  hops : BitVec 3 := 0
  dstDev : BitVec 16 := 0
  srcDev : BitVec 16 := 0
  unit : BitVec 4 := 0
  srcAgent : BitVec 6 := 0
  seq : BitVec 16 := 0
  jobTag : BitVec 12 := 0
  addr : BitVec 48 := 0
  len : BitVec 8 := 0
  nflit : BitVec 3 := 0
  maskf : Bool := false
  tagf : Bool := false
  cslot : BitVec 8 := 0
  csEn : Bool := false
  status : BitVec 8 := 0
  opt : BitVec 24 := 0
  adapt : Bool := false
  mcTgt : BitVec 6 := 0
  rsv : BitVec 35 := 0
  data : List Byte := []
  deriving DecidableEq, Repr

/-- A transaction inside the plinths: the header of Table PL-4 and its mask and data flits. -/
structure Hdr where
  op : BitVec 6 := 0
  tid : BitVec 12 := 0
  line : BitVec 32 := 0
  nflit : BitVec 3 := 0
  maskf : Bool := false
  jobTag : BitVec 12 := 0
  cslot : BitVec 8 := 0
  csEn : Bool := false
  status : BitVec 8 := 0
  det : Bool := false
  final : BitVec 6 := 0
  orig : BitVec 6 := 0
  arg : BitVec 16 := 0
  data : List Byte := []
  deriving DecidableEq, Repr

/-- A training flit (Table FT-3). -/
structure TrainFlit where
  dev : BitVec 16 := 0
  port : BitVec 8 := 0
  ack : Bool := false
  mgr : Bool := false
  switch : Bool := false
  idValid : Bool := false
  txTime : Word := 0
  echoTime : Word := 0
  holdNs : Word := 0
  res : List Nat := []
  shared : Nat := 0
  version : Nat := 1
  deriving DecidableEq, Repr

/-- One part of a message, with the descriptor of Table PL-14 and the fields of its header (R85, R206). -/
structure MsgPart where
  srcDev : BitVec 16 := 0
  srcSpire : Fin 16 := 0
  inside : Bool := false
  msgId : BitVec 16 := 0
  part : Nat := 0
  partsM1 : Nat := 0
  token : BitVec 16 := 0
  ksel : BitVec 3 := 0
  rzone : BitVec 8 := 0
  zone : BitVec 8 := 0
  index : BitVec 20 := 0
  jobTag : BitVec 12 := 0
  data : List Byte := []
  deriving DecidableEq, Repr

/-- The key of a message record: source device, origin, source spire, message number (R85). -/
structure MsgKey where
  srcDev : BitVec 16 := 0
  inside : Bool := false
  srcSpire : Fin 16 := 0
  msgId : BitVec 16 := 0
  deriving DecidableEq, Repr

/-- Activity of a region over one governor window, in thousandths of one cell at full rate (R151, R152). -/
structure Activity where
  arr : Nat := 0
  well : Nat := 0
  vec : Nat := 0
  rel : Nat := 0
  deriving DecidableEq, Repr

/-- What the start-time test of a spire finds, by physical cell (R73, R141, R147): cells whose array, vector unit, scratch, row
port or relay links failed; bank rows and symbol columns of a bank that need a spare beyond those of the fuse map (columns
0 to 271 lie in die 0, 272 to 543 in die 1); failed lanes of bond groups. -/
structure SpireTest where
  badCells : List (Fin 72) := []
  rows : List (Fin 72 × Fin 16 × List (Fin 3072)) := []
  cols : List (Fin 72 × Fin 16 × List (Fin 544)) := []
  lanes : List (Fin 72 × Fin 37 × List (Fin 68)) := []
  deriving DecidableEq, Repr

/-- What a sextant sweep measures of a row (R250, R251, R254): base codes that are not those in force, by ring; rings with too
little extinction or drop; the row's temperature in 1/64 °C; the drive levels that space a transmit row's PAM4 levels
equally. -/
structure SweptRow where
  base : List (Fin 50 × Nat) := []
  weak : List (Fin 50) := []
  temp : Int := 0
  drive : BitVec 24 := 0
  deriving DecidableEq, Repr

/-- A sweep of a port row: its transmit and receive rows, and whether its links train after it. -/
structure Sweep where
  tx : SweptRow := {}
  rx : SweptRow := {}
  linksUp : Bool := true
  deriving DecidableEq, Repr

/-- The means of the four PAM4 levels that the receiver of a link measured over a frame (R245). -/
structure LinkLevels where
  src : Fin 48 := 0
  dst : Fin 48 := 0
  plane : Fin 4 := 0
  m0 : Nat := 0
  m1 : Nat := 0
  m2 : Nat := 0
  m3 : Nat := 0
  deriving DecidableEq, Repr

/-- The record that a lantern holds in its module (Table LN-5). -/
structure LanternRecord where
  serial : Nat := 0
  powers : List Int := []
  grid : Int := 0
  deriving DecidableEq, Repr

/-- A lantern module that is fitted in a bay, with its record. -/
structure LanternModule where
  bay : Fin 3
  record : LanternRecord := {}
  deriving DecidableEq, Repr

/-- What the receivers and tracking engines measured over the frame that ends at a tick (R233, R245), and what
the belfries' circuits hold at it (R388). -/
structure FrameObs where
  levels : List LinkLevels := []
  /-- regions whose margin was not clear in every cycle since the previous cutoff -/
  notClear : List (Fin 40) := []
  /-- cycles of the frame in which a region held an entry for a full crossing (R336) -/
  crossStalls : List (Fin 40 × Nat) := []
  /-- cycles of the frame in which a well's request met a busy bank, and grants of its far class (R128, R129) -/
  bankConflicts : List (Fin 16 × Fin 64 × Nat) := []
  farGrants : List (Fin 16 × Fin 64 × Nat) := []
  /-- tests of stations' control groups in the frame, and whether every lane passed (R223) -/
  ctlTests : List (Fin 48 × Bool) := []
  /-- stored bits that radiation upset in the frame: spire, cell, code word of the scratch, mask -/
  scratchUpset : List (Fin 16 × Fin 64 × Fin 32768 × Nat) := []
  /-- temperature and supply voltage words that the standby's health report carries -/
  health : Word := 0
  reportMissing : Bool := false
  /-- the INTLK_A pulses of the frame: whether each appeared at the module's own pin (R379, R390) -/
  intlkSeen : List Bool := []
  deriving DecidableEq, Repr

/-- A hold pulse as the two pins of the interlock line see it (R377): how long the line is low at the driver's own pin and at
the other belfry's, in ns. -/
structure PulseSeen where
  own : Nat := 1000
  other : Nat := 1000
  deriving DecidableEq, Repr

/-- A register of a function's configuration space, by what the host reads or writes there (R453, R455, R479): identity words,
the capability map, the power state, the words of the BARs, of SR-IOV and of its VF BARs, the MSI-X control and table, the link,
AER. -/
inductive CfgReg where
  | identity (i : Fin 4)
  | capabilities
  | power
  | bar (k : Fin 4)
  | sriov
  | vfBar (k : Fin 4)
  | msixControl
  | msix (vector : Fin 2048) (word : Fin 4)
  | link
  | aer
  | aerHeader (i : Fin 2)
  deriving DecidableEq, Repr

/-- A configuration request: the function, the register, and the word when it writes. -/
structure ConfigAccess where
  f : Func
  reg : CfgReg := .capabilities
  val : Option (BitVec 32) := .none
  deriving DecidableEq, Repr

/-- Consecutive registers that a host read covers (R485): the first word of the page, and how many. -/
structure RegSpan where
  off : Fin 1024
  words : Nat := 1
  deriving DecidableEq, Repr

/-- What a two-way exchange of stations 22 and 25 measures on one plane (R343): the East's count minus the West's and the
delay, in 1/256 ns. -/
structure WestExchange where
  plane : Nat := 0
  offset : Int := 0
  delay : Nat := 0
  deriving DecidableEq, Repr

/-- The fields of a time packet that the time engine uses (Table CK-3); stamps in 1/256 ns. -/
structure TimeMsg where
  t1 : Nat := 0
  t2 : Nat := 0
  t3 : Nat := 0
  mode : Nat := 2
  hopsRoot : Nat := 0
  rootDev : BitVec 16 := 0
  periodUs : Nat := 10
  state : Nat := 2
  exch : BitVec 16 := 0
  ring : Bool := false
  arcCcw : Bool := false
  srcDev : BitVec 16 := 0
  deriving DecidableEq, Repr

/-- What an MR4 readout of a die reports: refresh at twice the rate, and a temperature above the range (R181, R183). -/
structure Mr4 where
  double : Bool := false
  above : Bool := false
  deriving DecidableEq, Repr

/-- Blocks of an internal link: the plane, and for each block the bits that arrive wrong. -/
structure LinkBlocks where
  plane : Fin 4
  errs : List (BitVec 560) := []
  deriving DecidableEq, Repr

/-- Code words that arrive at a fabric port. -/
structure PortWords where
  port : Fin 32
  words : List (BitVec 5440) := []
  deriving DecidableEq, Repr

/-- Offline tests of a lane group (R223): the lane exchanged before passes, and how many spares are found bad. -/
structure LaneTest where
  oldOk : Bool := true
  sparesBad : Fin 5 := 0
  deriving DecidableEq, Repr

/-- Results a start-up step ends with (Table HS-11). -/
structure StepResult where
  pass : Bool := true
  eastPass : Bool := true
  westPass : Bool := true
  imagesOk : Bool := true
  imageType : Nat := 0
  imageCheck : Nat := 0
  fuseBlock : Nat := 0
  spireTests : List (Fin 16 × SpireTest) := []
  stationsOut : List (Fin 48) := []
  /-- dies whose generator has not locked within 1 ms, numbered as their sensors (R326, R366) -/
  unlocked : List (Fin 30) := []
  /-- vertical bundle groups: station, group, failed lanes -/
  lanes : List (Fin 48 × Fin 9 × Nat) := []
  /-- bundle groups whose spare choice differs from the fuses: station, group -/
  lanesDiff : List (Fin 48 × Fin 9) := []
  /-- seam bundles: plane, failed lanes; rows left without a lane: plane, station, receive row -/
  seams : List (Fin 4 × Nat) := []
  seamRows : List (Fin 4 × Fin 48 × Bool) := []
  seamDiff : List (Fin 4) := []
  /-- sweeps of step 5, of port rows that are not as fused: station, plane -/
  sweeps : List (Fin 48 × Fin 4 × Sweep) := []
  chansFailed : List (Fin 8 × Fin 48) := []
  /-- pages of a gatehouse's repair record whose hPPR succeeded: gatehouse, place in the record -/
  hpprOk : List (Fin 8 × Nat) := []
  deriving DecidableEq, Repr

/-- The commands: one constructor per row of spec/opcode_table.json. Register writes carry the writer and the
word written; the field that the row names (GO, CMD, ARM, ...) is what the row says it is. -/
inductive Instr where
  -- frames
  | tick (o : FrameObs)
  | partitionStart (f : Func) (p : Fin 8) (v : Word)
  | partitionStop (f : Func) (p : Fin 8) (v : Word)
  | partitionResume (f : Func) (p : Fin 8) (v : Word)
  | ephCommit (f : Func) (n : Fin 16) (v : Word)
  | ephLoad (f : Func) (n : Fin 16) (v : Word)
  | ephLoadSlotCommit (n : Fin 16)
  | slotStartTime (n : Fin 16) (slot : Fin 1024)
  | descriptorDispatch (n : Fin 16) (slot : Fin 1024)
  | slotOverBudget (n : Fin 16) (slot : Fin 1024) (south : Bool)
  | slotLate (n : Fin 16) (slot : Fin 1024)
  -- tasks
  | taskCommit (f : Func) (n : Fin 16) (v : Word)
  | tskLoad (f : Func) (n : Fin 16) (v : Word)
  | tskLoadEntryCommit (n : Fin 16)
  | taskStart (n : Fin 16) (c : Option (Fin 64))
  | mma (n : Fin 16) (c : Fin 64)
  | vop (n : Fin 16) (c : Fin 64)
  | move (n : Fin 16) (c : Fin 64)
  | load (n : Fin 16) (c : Fin 64)
  | store (n : Fin 16) (c : Fin 64)
  | send (n : Fin 16) (c : Fin 64)
  | fop (n : Fin 16) (c : Fin 64)
  | relay (n : Fin 16) (c : Fin 64)
  | ticket (n : Fin 16) (c : Fin 64)
  | zclr (n : Fin 16) (c : Fin 64)
  | dispatch (n : Fin 16)
  | returnRows (n : Fin 16)
  | dispatchRowRefused (n : Fin 16) (msg : Nat) (status : BitVec 8)
  | taskRetire (n : Fin 16) (at_ : Place)
  | relayStripArrival (n : Fin 16) (c : Fin 64) (d : Dir)
  | steal (n : Fin 16) (thief : Fin 64)
  | stolenTaskArrival (n : Fin 16) (thief : Fin 64)
  | cellFail (n : Fin 16) (c : Fin 64)
  -- landing
  | zoneCommit (f : Func) (n : Fin 16) (v : Word)
  | xmapWrite (f : Func) (n : Fin 16) (v : Word)
  | xmapLoad (f : Func) (n : Fin 16) (v : Word)
  | xmapLoadEntry (n : Fin 16)
  | messagePartArrival (n : Fin 16) (m : MsgPart)
  | tallyLanding (n : Fin 16) (zone : BitVec 8) (tag : BitVec 12) (count : BitVec 16)
  | messageRecordTimeout (n : Fin 16) (k : MsgKey)
  | closedRecordExpiry (n : Fin 16) (k : MsgKey)
  | messagePartResend (n : Fin 16) (msg : Nat) (part : Nat)
  -- stacked SRAM
  | mergeAgeEvict (n : Fin 16) (c : Fin 64) (row : Nat) (cw : Fin 8)
  | sramDrain (f : Func) (n : Fin 16) (v : Word)
  | sramRemap (f : Func) (n : Fin 16) (v : Word)
  | sramRemapCopyDone (n : Fin 16)
  | flipArm (f : Func) (n : Fin 16) (v : Word)
  | flipDisarm (f : Func) (n : Fin 16) (v : Word)
  | bondSelfTest (n : Fin 16) (c : Fin 64) (g : Fin 37) (lanes : List (Fin 68))
  | bondRotationOverdue (n : Fin 16) (c : Fin 64)
  | governorWindow (n : Fin 16) (north south : Activity)
  | governorCorrection (n : Fin 16) (measured : BitVec 10)
  | arrayPowerCycleDone (n : Fin 16) (t : SpireTest)
  -- gatehouses
  | memCfgWrite (f : Func) (g : Fin 8) (v : Word)
  | lineFillDone (g : Fin 8) (line : BitVec 32) (upset : List (Fin 4 × Nat))
  | lineIdleWriteback (g : Fin 8) (line : BitVec 32)
  | gatehouseDrain (f : Func) (g : Fin 8) (v : Word)
  | perBankRefresh (g : Fin 8) (ch : Fin 48) (rank : Fin 2) (idle : Bool)
  | oscillatorMeasurement (g : Fin 8) (ch : Fin 48) (idle : Bool) (drift : Option Int)
  | mr4Readout (g : Fin 8) (pkg : Fin 12) (die : Fin 6) (idle : Bool) (value : BitVec 8) (r : Mr4)
  | retrainDone (g : Fin 8) (ch : Fin 48) (ok : Bool)
  | mr4LimitRelease (g : Fin 8) (pkg : Fin 12)
  | patrolRead (g : Fin 8) (line : BitVec 32) (upset : List (Fin 4 × Nat))
  | patrolLate (g : Fin 8)
  | memoryRemap (f : Func) (g : Fin 8) (v : Word)
  | memoryRemapCopyDone (g : Fin 8)
  | gateFlipArm (f : Func) (g : Fin 8) (v : Word)
  | gateFlipDisarm (f : Func) (g : Fin 8) (v : Word)
  -- plinths
  | bundleReceive (s d : Fin 48) (p : Fin 4) (errs : List (BitVec 560))
  | idleFlitReceive (s d : Fin 48) (p : Fin 4) (errs : List (BitVec 560))
  | linkRetryTimeout (s d : Fin 48) (p : Fin 4)
  | blockLockGain (s d : Fin 48) (b : LinkBlocks)
  | blockLockLoss (s d : Fin 48) (b : LinkBlocks)
  | linkFail (s d : Fin 48) (p : Fin 4)
  | linkQuery (s d : Fin 48) (p : Fin 4)
  | linkReply (s d : Fin 48) (p : Fin 4) (seq : BitVec 10)
  | linkBackgroundRetrain (s d : Fin 48) (p : Fin 4) (up : Bool)
  | detourRelay (r : Fin 48)
  | pairViaWrite (f : Func) (e : Side) (v : Word)
  | laneErrorWindow (s d : Fin 48) (p : Fin 4) (rx : Bool) (t : LaneTest)
  -- lanterns and calibration
  | lanternFit (m : LanternModule)
  | lanternLock (bay : Fin 3)
  | lanternFault (bay : Fin 3)
  | emergencySwap (e : Side)
  | swapEast (f : Func) (v : Word)
  | swapWest (f : Func) (v : Word)
  | lanternReturn (f : Func) (v : Word)
  | anomRecord (e : Side) (amps : List (Fin 48 × Fin 48 × Fin 4 × Nat))
  | recalBuffersEmpty (s : Fin 48) (p : Fin 4)
  | recalAbandon (s : Fin 48) (p : Fin 4)
  | sweepDone (s : Fin 48) (p : Fin 4) (r : Sweep)
  | recalGo (f : Func) (e : Side) (v : Word)
  -- fabric transport
  | lightDetect (port : Fin 32)
  | codewordLockGain (w : PortWords)
  | codewordLockLoss (w : PortWords)
  | trainingFlitReceive (port : Fin 32) (words : List (BitVec 5440))
  | portTrainRetry (port : Fin 32)
  | fabricBundleReceive (port : Fin 32) (words : List (BitVec 5440))
  | fabricIdleFlit (port : Fin 32) (words : List (BitVec 5440))
  | fabricRetryTimeout (port : Fin 32)
  | symbolErrorWindow (port : Fin 32) (words : List (BitVec 5440))
  | portFail (port : Fin 32) (cause : Fin 3)
  | flinkQuery (k : Pkt)
  | flinkReply (k : Pkt)
  | flinkReplyTimeout (port : Fin 32)
  | portRetrain (f : Func) (e : Side) (v : Word)
  | routeLoad (f : Func) (e : Side) (v : Word)
  | routeLoadEntry (e : Side)
  | mcgLoad (f : Func) (e : Side) (v : Word)
  | mcgLoadEntry (e : Side)
  | ringCtlWrite (f : Func) (e : Side) (v : Word)
  | cmap (k : Pkt)
  -- memory semantics
  | fabLoad (e : Side) (k : Pkt)
  | fabStore (e : Side) (k : Pkt)
  | storeMasked (e : Side) (k : Pkt)
  | atomic (e : Side) (k : Pkt)
  | reduce (e : Side) (k : Pkt)
  | mcStore (e : Side) (k : Pkt)
  | mcStoreCopy (e : Side) (k : Pkt)
  | msg (e : Side) (k : Pkt)
  | tally (e : Side) (k : Pkt)
  | signal (e : Side) (k : Pkt)
  | awaitNotify (n : Fin 16) (slot : Fin 1024) (second : Bool)
  | combEntryClose (e : Side) (tag : BitVec 12) (line : Nat)
  | comp (e : Side) (k : Pkt)
  | compData (e : Side) (k : Pkt)
  | mcRetryResend (e : Side) (seq : BitVec 16)
  | mcTimeout (e : Side) (seq : BitVec 16)
  | dupFilterExpiry (srcDev seq : BitVec 16)
  | windowCommit (f : Func) (e : Side) (v : Word)
  | winLoad (f : Func) (e : Side) (v : Word)
  | winLoadEntry (e : Side)
  | csValueWrite (f : Func) (e : Side) (v : Word)
  -- clocks and time
  | refCtlWrite (f : Func) (v : Word)
  | downStep (r : Fin 40) (deep : Bool)
  | clkModeWrite (f : Func) (v : Word)
  | meshEmergency (r : Fin 40)
  | westTransitExchange (l : List WestExchange)
  | timeSync (port : Fin 32) (m : TimeMsg)
  | timeSyncResp (port : Fin 32) (m : TimeMsg) (frac : Fin 256)
  | ringTimeMessage (port : Fin 2) (m : TimeMsg) (frac : Fin 256)
  | exchangeTimeout (exch : BitVec 16)
  | rejoin (f : Func) (v : Word)
  | timeSetWrite (f : Func) (v : Word)
  -- power and temperature
  | railFail (rail : Fin 85) (mv : BitVec 32)
  | busConverterFail (b : Bool)
  | stackOverrun (n : Fin 16)
  | inputMonitorSample (v i : Nat)
  | sensorSample (t : List (Option Int))
  | gatehouseTripResume (g : Fin 8)
  | plinthTripFence (e : Side)
  -- belfries and management
  | holdPulse (e : Side) (seen : PulseSeen)
  | pulseAbsence (e : Side)
  | takeoverQuery (e : Side)
  | takeover (e : Side)
  | belfryRestart (e : Side) (romOk : Bool)
  | belfryRestartCmd (f : Func) (e : Side) (v : Word)
  | handover (f : Func) (e : Side) (v : Word)
  | selfTestRotation (failed : BitVec 8)
  | heartbeat (k : Pkt)
  | regWrite (k : Pkt)
  | regRead (k : Pkt)
  | admitAt (k : Pkt)
  | pairTakeoverQuery (k : Pkt)
  | mgmtResp (k : Pkt)
  -- security
  | layoutCommit (f : Func) (v : Word)
  | layoutDiscard (f : Func) (v : Word)
  | entropyFail (test : BitVec 8)
  | seClaim (f : Func) (v : Word)
  | seRelease (f : Func) (v : Word)
  | kxOffer (f : Func) (v : Word)
  | kxAccept (f : Func) (v : Word) (bytes : Nat)
  | kxFinish (f : Func) (v : Word) (bytes : Nat)
  | kxActivate (f : Func) (v : Word)
  | keyDrop (f : Func) (v : Word)
  | sessionEnd (f : Func) (v : Word)
  | oldKeyExpiry (entry : Fin 4096)
  | attReport (f : Func) (v : Word)
  | spdmGetVersion (f : Func)
  | spdmGetCapabilities (f : Func)
  | spdmNegotiateAlgorithms (f : Func)
  | spdmVendorDefined (f : Func) (nonce : List Byte)
  | spdmKeyExchange (f : Func)
  | ideKm (f : Func) (key : BitVec 256)
  -- faults and resets
  | logAck (f : Func) (v : Word)
  | logClear (f : Func) (v : Word)
  | completionTimeout (txn : Nat)
  | resetCold (f : Func) (v : Word)
  | resetModule (f : Func) (v : Word)
  | resetPlinth (f : Func) (v : Word)
  | resetSpire (f : Func) (v : Word)
  | resetGatehouse (f : Func) (v : Word)
  | resetPartition (f : Func) (v : Word)
  | resetPort (f : Func) (v : Word)
  | resetReturn (tests : List (Fin 16 × SpireTest)) (ok : Bool)
  -- start-up and host
  | startStepEnd (r : StepResult)
  | startStepLimit (r : StepResult)
  | continue_ (f : Func) (v : Word)
  | save (f : Func) (v : Word)
  | fabIdWrite (f : Func) (v : Word)
  | hostLinkTrain (rate : BitVec 3) (width : BitVec 4) (flit : Bool)
  | configRequest (a : ConfigAccess)
  | flr (f : Func)
  | windowRead (f : Func) (offset len : Nat)
  | windowWrite (f : Func) (offset : Nat) (bytes : List Byte)
  | mbTxData (f : Func) (m : Fin 25) (toBelfry : Bool) (w : Word) (bytes : Nat)
  | mbRxPop (f : Func) (m : Fin 9) (v : Word)
  | doorbell (f : Func) (m : Fin 25) (toBelfry : Bool)
  | flushTx (f : Func) (m : Fin 25) (fromBelfry : Bool)
  | flushRx (f : Func) (m : Fin 25) (atBelfry : Bool)
  | status (m : Fin 9) (mid : BitVec 16)
  | imageWrite (m : Fin 9) (mid : BitVec 16) (type : Nat) (offset : Nat) (words : List Word)
  | imageCommit (m : Fin 9) (mid : BitVec 16) (type length : Nat)
  | svnRaise (m : Fin 9) (mid : BitVec 16) (type svn : Nat)
  | wellRemap (m : Fin 9) (mid : BitVec 16) (spire cell row : Nat)
  | logRead (m : Fin 9) (mid : BitVec 16) (seq : Word) (count : Nat)
  | setDevId (m : Fin 9) (mid : BitVec 16) (id : Word)
  | sidebandInputEdge (i : Fin 10) (high : Bool)
  | inputChatter (i : Fin 10) (edges : Nat)
  | chatterClear (i : Fin 10)
  | inputStuck (i : Fin 10)
  -- registers
  | registerWrite (f : Func) (page : Fin 16384) (off : Fin 1024) (v : List Word) (bytes : Nat)
  | unmappedWrite (f : Func) (page : Fin 16384) (off : Fin 1024) (v : Word)
  | pageLock (f : Func) (page : Fin 16384) (v : Word)
  | evcClr (f : Func) (page : Fin 16384) (v : Word)
  | evcCntWrite (f : Func) (page : Fin 16384) (k : Fin 8) (high : Bool) (v : Word)
  | stretch (r : Fin 40) (depth : Fin 5)
  | takeoverRefusal (e : Side)
  | registerRead (f : Func) (page : Fin 16384) (at_ : RegSpan)
  -- commands without operands
  | tickCutoff
  | selectorSettled
  | rotationRowStart
  | thermalMapPublish
  | mapEpochEnd
  | timeRefLoss
  | refReturn
  | modeChangeComplete
  | timeSyncSend
  | arcChange
  | arcReturn
  | joinTimeout
  | holdover
  | hotSwapClose
  | inputUndervoltage
  | inputOvervoltageWarn
  | inputCurrentLimit
  | powerFail
  | guardRecoveryStep
  | throttleRecoveryStep
  | stuckHold
  | stuckHolderStopped
  | stateLogRecord
  | heartbeatSend
  | engineLapse
  | heartbeatLoss
  | claimLapse
  | seCommandDone
  | attReportDone
  | errorHandle
  | plinthResetAssert
  | recoveryAutoReset
  | resetNAssert
  | resetNRelease
  | smbusSensorRead
  | smbusPowerRead
  | smbusBootRead
  | smbusSidebandRead
  | smbusIdentityRead
  | inputVoltageReturn
  | stuckHoldRelease
  deriving DecidableEq, Repr

end Sys2Proof
end

