-- ==== Sys2Proof/Decode.lean ====
section
/-! DEFINITION. The command that a word of the table spells. No row of spec/opcode_table.json gives bits: a command of
the part is a register access, an arrival or an event, and no word stands for one. -/

namespace Sys2Proof

/-- The command that the bits of a table row spell: the table gives bits to no row, so no word spells one. -/
def decodeTableWord (_nbits _w : Nat) : Option Instr := none

end Sys2Proof
end

