-- ==== Sys2Proof/Config.lean ====
section
/-! DEFINITION. What an implementation fixes and the spec leaves open: free values. None has a body, so no proof can
see what it is; each is applied to the counter `State.free` or to the data it depends on (assumption log). -/

namespace Sys2Proof

/-- A free value of 64 bits, drawn by the model's counter. -/
opaque Config.freeNat : Nat → BitVec 64

/-- The bits of a session key pair of device memory, by key number (R170): the data key below the tweak key. -/
opaque Config.linePair : Nat → BitVec 512

/-- Start of an internal link's scrambler, exchanged at its training (R200): link and number of its trainings. -/
opaque Config.scrambleStart : Nat → Nat → BitVec 31

/-- Which of the results within the bound of Table NF-7 the vector unit gives (R120): function, working format, operand
code and random number. The same operands give the same result (R123). -/
opaque Config.funcPick : Nat → Nat → Nat → Nat → Nat

/-- What the code makes of an error in three or more symbols (R132) or four or more (R163): bits of the code word,
and the mask. -/
opaque Config.eccEscape : Nat → Nat → Nat

/-- The correction of the governor's weights (R151): measured power and the correction in force. -/
opaque Config.govCorrection : Nat → Nat → Nat

/-- Calibration data in the fuses (Table LN-5), by row and ring: base code of a ring; the ring that they mark unusable, none
from 50 on, and whether a row with such a ring has reference offset 1; reference temperature in 0.5 °C; drift slope in
0.1 GHz/°C; tilt slope in codes per unit of tilt; drive levels; detector trim of a receive ring; code of a reference receiver's
ring. -/
opaque Config.fuseBase : Nat → Nat → BitVec 12
opaque Config.fuseBad : Nat → BitVec 6
opaque Config.fuseRef : Nat → Bool
opaque Config.fuseTemp : Nat → BitVec 8
opaque Config.fuseSlope : Nat → BitVec 8
opaque Config.fuseTilt : Nat → BitVec 8
opaque Config.fuseDrive : Nat → BitVec 24
opaque Config.fuseDetector : Nat → Nat → BitVec 6
opaque Config.fuseReceiver : Nat → Nat → BitVec 12

/-- By how many codes, less one, a drop ring steps towards the side of the larger amplitude (R245): the tracking engine's. -/
opaque Config.dropStep : BitVec 5

/-- What the fuses and the seed of the module hold (R417, R419, Table SE-5): field and index of a byte. Fields: 0 serial
number, 1 the 64-byte seed of the device's keys, 4 digests of the images in use at delivery, 5 digests of the vendor key
slots. -/
opaque Config.deviceByte : Nat → Nat → BitVec 8

/-- The device's keys, derived from its seed (R419): a byte of the Falcon-1024 public key and of the ECDSA public key on secp384r1;
a byte of an ECDSA signature made for SPDM with what was drawn for it. -/
opaque Config.falconPublic : List (BitVec 8) → Nat → BitVec 8
opaque Config.ecdsaPublic : List (BitVec 8) → Nat → BitVec 8
opaque Config.ecdsaSign : List (BitVec 8) → Nat → Nat → BitVec 8

/-- A vendor key slot is revoked (R417). -/
opaque Config.slotRevoked : Nat → Bool

/-- Falcon-1024, uninterpreted: a byte of the signature made with the identity key over bytes, with what was drawn for it; and
whether a signature over bytes verifies under a public key (R412, R417, R420). -/
opaque Config.signByte : List (BitVec 8) → Nat → Nat → BitVec 8
opaque Config.falconOk : List (BitVec 8) → List (BitVec 8) → List (BitVec 8) → Bool

/-- ML-KEM-1024, uninterpreted (R411): a byte of the encapsulation key made from what was drawn; a byte of the ciphertext and the
shared secret of an encapsulation to a key with what was drawn; the secret that a ciphertext gives to the maker of a key. -/
opaque Config.kemKey : Nat → Nat → BitVec 8
opaque Config.kemCipher : List (BitVec 8) → Nat → Nat → BitVec 8
opaque Config.kemShared : List (BitVec 8) → Nat → BitVec 256
opaque Config.kemOpen : Nat → List (BitVec 8) → BitVec 256

/-- Identity words of configuration space (vendor, device, revision and class), which the spec does not give. -/
opaque Config.configId : Nat → BitVec 32

/-- Code of the record that tells of a plane mask (0) or a detour (1) for which Table FA-5 has no code (R13). -/
opaque Config.stateCode : Nat → BitVec 8

/-- Security version of the image in use at delivery, by TYPE. -/
opaque Config.factorySvn : Nat → Nat

end Sys2Proof
end

