-- ==== Sys2Proof/Machine/Pages.lean ====
section
/-! DEFINITION. The register map (R482, R499): the pages, and for each register its fields with access, reset
value, tick-synchronisation and stated range, as the tables of the chapters give them. A bit that no field of a
table names is reserved. -/

namespace Sys2Proof.Machine

/-- Access types of the register tables (R7, R8). -/
inductive Acc where
  | ro | rw | wo | w1c | w1s | rc
  deriving DecidableEq, Repr

/-- A field: low bit, width, access, reset value, tick-synchronised, least and greatest legal value. -/
structure Fd where
  lo : Nat
  w : Nat
  acc : Acc
  rst : Nat
  ts : Bool := false
  mn : Nat := 0
  mx : Nat := 0xFFFFFFFF
  deriving DecidableEq, Repr

/-- A register, or `cnt` of them at consecutive offsets. -/
structure Rd where
  off : Nat
  cnt : Nat
  fs : List Fd
  deriving DecidableEq, Repr

/-- The blocks of Table RG-1, with the partition pages of GLOBAL and the two kinds of mailbox page apart. -/
inductive Blk where
  | global | part | belfry | mbox | mbsts | spire | gate | plinth | oculus | lantern | security | monitor
  deriving DecidableEq, Repr

/-- A register's place: page times 4,096 plus offset. -/
abbrev Loc := Nat

/-- FRAME_CFG (Table FR-5). -/
abbrev Loc.glFrameCfg : Loc := (0x0002) * 4096 + 0x040
/-- FRAME_NEXT (Table FR-5). -/
abbrev Loc.glFrameNext : Loc := (0x0002) * 4096 + 0x044
/-- TICK_APPLY (Table FR-6). -/
abbrev Loc.glTickApply : Loc := (0x0002) * 4096 + 0x048
/-- PFp_CTL (Table FR-8). -/
abbrev Loc.ptPfCtl (p : Nat) : Loc := (0x0010 + p) * 4096 + 0x040
/-- PFp_STS (Table FR-8). -/
abbrev Loc.ptPfSts (p : Nat) : Loc := (0x0010 + p) * 4096 + 0x044
/-- EPH_SEL (Table FR-9). -/
abbrev Loc.spEphSel (n : Nat) : Loc := (0x0402 + 0x40 * n) * 4096 + 0x040
/-- EPH_NEXT (Table FR-9). -/
abbrev Loc.spEphNext (n : Nat) : Loc := (0x0402 + 0x40 * n) * 4096 + 0x044
/-- EPH_CUR (Table FR-9). -/
abbrev Loc.spEphCur (n : Nat) : Loc := (0x0402 + 0x40 * n) * 4096 + 0x048
/-- EPH_LOAD_ADDR_LO (Table FR-9). -/
abbrev Loc.spEphLoadAddrLo (n : Nat) : Loc := (0x0402 + 0x40 * n) * 4096 + 0x050
/-- EPH_LOAD_ADDR_HI (Table FR-9). -/
abbrev Loc.spEphLoadAddrHi (n : Nat) : Loc := (0x0402 + 0x40 * n) * 4096 + 0x054
/-- EPH_LOAD (Table FR-9). -/
abbrev Loc.spEphLoad (n : Nat) : Loc := (0x0402 + 0x40 * n) * 4096 + 0x058
/-- EPH_FRAME_END (Table FR-9). -/
abbrev Loc.spEphFrameEnd (n : Nat) : Loc := (0x0402 + 0x40 * n) * 4096 + 0x060
/-- EPH_MIN_SLACK (Table FR-9). -/
abbrev Loc.spEphMinSlack (n : Nat) : Loc := (0x0402 + 0x40 * n) * 4096 + 0x064
/-- EPH_LATE (Table FR-9). -/
abbrev Loc.spEphLate (n : Nat) : Loc := (0x0402 + 0x40 * n) * 4096 + 0x068
/-- EPH_DATA (Table FR-9). -/
abbrev Loc.spEphData (n k : Nat) : Loc := (0x0402 + 0x40 * n) * 4096 + 0x080 + 4 * k
/-- SEQ_CTL (Table SP-13). -/
abbrev Loc.spSeqCtl (n : Nat) : Loc := (0x0400 + 0x40 * n) * 4096 + 0x040
/-- SEQ_STS (Table SP-13). -/
abbrev Loc.spSeqSts (n : Nat) : Loc := (0x0400 + 0x40 * n) * 4096 + 0x044
/-- SEQ_ERR_LO (Table SP-13). -/
abbrev Loc.spSeqErrLo (n : Nat) : Loc := (0x0400 + 0x40 * n) * 4096 + 0x048
/-- SEQ_ERR_HI (Table SP-13). -/
abbrev Loc.spSeqErrHi (n : Nat) : Loc := (0x0400 + 0x40 * n) * 4096 + 0x04C
/-- TICKET (Table SP-13). -/
abbrev Loc.spTicket (n k : Nat) : Loc := (0x0400 + 0x40 * n) * 4096 + 0x080 + 4 * k
/-- CELLMAP (Table SP-14). -/
abbrev Loc.spCellmap (n : Nat) : Loc := (0x0401 + 0x40 * n) * 4096 + 0x040
/-- PHYS_BAD (Table SP-14). -/
abbrev Loc.spPhysBad (n k : Nat) : Loc := (0x0401 + 0x40 * n) * 4096 + 0x044 + 4 * k
/-- LMAP (Table SP-14). -/
abbrev Loc.spLmap (n k : Nat) : Loc := (0x0401 + 0x40 * n) * 4096 + 0x080 + 4 * k
/-- TSK_SEL (Table SP-15). -/
abbrev Loc.spTskSel (n : Nat) : Loc := (0x0403 + 0x40 * n) * 4096 + 0x040
/-- TSK_LOAD_ADDR_LO (Table SP-15). -/
abbrev Loc.spTskLoadAddrLo (n : Nat) : Loc := (0x0403 + 0x40 * n) * 4096 + 0x050
/-- TSK_LOAD_ADDR_HI (Table SP-15). -/
abbrev Loc.spTskLoadAddrHi (n : Nat) : Loc := (0x0403 + 0x40 * n) * 4096 + 0x054
/-- TSK_LOAD (Table SP-15). -/
abbrev Loc.spTskLoad (n : Nat) : Loc := (0x0403 + 0x40 * n) * 4096 + 0x058
/-- TSK_DATA (Table SP-15). -/
abbrev Loc.spTskData (n k : Nat) : Loc := (0x0403 + 0x40 * n) * 4096 + 0x080 + 4 * k
/-- DU_STS (Table SP-16). -/
abbrev Loc.spDuSts (n : Nat) : Loc := (0x0404 + 0x40 * n) * 4096 + 0x040
/-- DU_DROPS (Table SP-16). -/
abbrev Loc.spDuDrops (n : Nat) : Loc := (0x0404 + 0x40 * n) * 4096 + 0x044
/-- DU_REFUSED (Table SP-16). -/
abbrev Loc.spDuRefused (n : Nat) : Loc := (0x0404 + 0x40 * n) * 4096 + 0x048
/-- XMAP_SEL (Table SP-16). -/
abbrev Loc.spXmapSel (n : Nat) : Loc := (0x0404 + 0x40 * n) * 4096 + 0x050
/-- XMAP_DATA (Table SP-16). -/
abbrev Loc.spXmapData (n : Nat) : Loc := (0x0404 + 0x40 * n) * 4096 + 0x054
/-- XMAP_LOAD_ADDR_LO (Table SP-16). -/
abbrev Loc.spXmapLoadAddrLo (n : Nat) : Loc := (0x0404 + 0x40 * n) * 4096 + 0x058
/-- XMAP_LOAD_ADDR_HI (Table SP-16). -/
abbrev Loc.spXmapLoadAddrHi (n : Nat) : Loc := (0x0404 + 0x40 * n) * 4096 + 0x05C
/-- XMAP_LOAD (Table SP-16). -/
abbrev Loc.spXmapLoad (n : Nat) : Loc := (0x0404 + 0x40 * n) * 4096 + 0x060
/-- ZONE_SEL (Table SP-17). -/
abbrev Loc.spZoneSel (n : Nat) : Loc := (0x0405 + 0x40 * n) * 4096 + 0x040
/-- ZONE_FILL (Table SP-17). -/
abbrev Loc.spZoneFill (n : Nat) : Loc := (0x0405 + 0x40 * n) * 4096 + 0x044
/-- LAND_REFUSED (Table SP-17). -/
abbrev Loc.spLandRefused (n : Nat) : Loc := (0x0405 + 0x40 * n) * 4096 + 0x048
/-- ZONE_DATA (Table SP-17). -/
abbrev Loc.spZoneData (n k : Nat) : Loc := (0x0405 + 0x40 * n) * 4096 + 0x080 + 4 * k
/-- RNG_CTL (Table NF-9). -/
abbrev Loc.spRngCtl (n : Nat) : Loc := (0x0400 + 0x40 * n) * 4096 + 0x050
/-- RNG_SEED_LO (Table NF-9). -/
abbrev Loc.spRngSeedLo (n : Nat) : Loc := (0x0400 + 0x40 * n) * 4096 + 0x054
/-- RNG_SEED_HI (Table NF-9). -/
abbrev Loc.spRngSeedHi (n : Nat) : Loc := (0x0400 + 0x40 * n) * 4096 + 0x058
/-- ARITH_STS (Table NF-9). -/
abbrev Loc.spArithSts (n : Nat) : Loc := (0x0400 + 0x40 * n) * 4096 + 0x05C
/-- SRAM_CTL (Table SM-5). -/
abbrev Loc.spSramCtl (n : Nat) : Loc := (0x0406 + 0x40 * n) * 4096 + 0x040
/-- SRAM_STS (Table SM-5). -/
abbrev Loc.spSramSts (n : Nat) : Loc := (0x0406 + 0x40 * n) * 4096 + 0x044
/-- BANK_SEL (Table SM-5). -/
abbrev Loc.spBankSel (n : Nat) : Loc := (0x0406 + 0x40 * n) * 4096 + 0x048
/-- BANK_CE (Table SM-5). -/
abbrev Loc.spBankCe (n : Nat) : Loc := (0x0406 + 0x40 * n) * 4096 + 0x04C
/-- BANK_SPARE (Table SM-5). -/
abbrev Loc.spBankSpare (n : Nat) : Loc := (0x0406 + 0x40 * n) * 4096 + 0x050
/-- CE_LAST (Table SM-5). -/
abbrev Loc.spCeLast (n : Nat) : Loc := (0x0406 + 0x40 * n) * 4096 + 0x054
/-- REMAP (Table SM-5). -/
abbrev Loc.spRemap (n : Nat) : Loc := (0x0406 + 0x40 * n) * 4096 + 0x060
/-- REMAP_STS (Table SM-5). -/
abbrev Loc.spRemapSts (n : Nat) : Loc := (0x0406 + 0x40 * n) * 4096 + 0x064
/-- FLIP_SEL (Table SM-5). -/
abbrev Loc.spFlipSel (n : Nat) : Loc := (0x0406 + 0x40 * n) * 4096 + 0x080
/-- FLIP_D (Table SM-5). -/
abbrev Loc.spFlipD (n k : Nat) : Loc := (0x0406 + 0x40 * n) * 4096 + 0x084 + 4 * k
/-- FLIP_C (Table SM-5). -/
abbrev Loc.spFlipC (n : Nat) : Loc := (0x0406 + 0x40 * n) * 4096 + 0x0A4
/-- BOND_CTL (Table SM-6). -/
abbrev Loc.spBondCtl (n : Nat) : Loc := (0x0407 + 0x40 * n) * 4096 + 0x040
/-- BOND_STS (Table SM-6). -/
abbrev Loc.spBondSts (n : Nat) : Loc := (0x0407 + 0x40 * n) * 4096 + 0x044
/-- BOND_SEL (Table SM-6). -/
abbrev Loc.spBondSel (n : Nat) : Loc := (0x0407 + 0x40 * n) * 4096 + 0x048
/-- BOND_GRP (Table SM-6). -/
abbrev Loc.spBondGrp (n : Nat) : Loc := (0x0407 + 0x40 * n) * 4096 + 0x04C
/-- STACK_CAP (Table SM-7). -/
abbrev Loc.spStackCap (n : Nat) : Loc := (0x0408 + 0x40 * n) * 4096 + 0x040
/-- STACK_LIMIT (Table SM-7). -/
abbrev Loc.spStackLimit (n : Nat) : Loc := (0x0408 + 0x40 * n) * 4096 + 0x044
/-- STACK_PWR (Table SM-7). -/
abbrev Loc.spStackPwr (n : Nat) : Loc := (0x0408 + 0x40 * n) * 4096 + 0x048
/-- GOV_CTL (Table SM-7). -/
abbrev Loc.spGovCtl (n : Nat) : Loc := (0x0408 + 0x40 * n) * 4096 + 0x04C
/-- GOV_STS (Table SM-7). -/
abbrev Loc.spGovSts (n : Nat) : Loc := (0x0408 + 0x40 * n) * 4096 + 0x050
/-- MEM_CFG (Table GH-8). -/
abbrev Loc.gtMemCfg (g : Nat) : Loc := (0x0800 + 0x20 * g) * 4096 + 0x040
/-- MEM_STS (Table GH-8). -/
abbrev Loc.gtMemSts (g : Nat) : Loc := (0x0800 + 0x20 * g) * 4096 + 0x044
/-- CH_FAIL_LO (Table GH-8). -/
abbrev Loc.gtChFailLo (g : Nat) : Loc := (0x0800 + 0x20 * g) * 4096 + 0x048
/-- CH_FAIL_HI (Table GH-8). -/
abbrev Loc.gtChFailHi (g : Nat) : Loc := (0x0800 + 0x20 * g) * 4096 + 0x04C
/-- GCTL (Table GH-8). -/
abbrev Loc.gtGctl (g : Nat) : Loc := (0x0800 + 0x20 * g) * 4096 + 0x050
/-- LBUF_STS (Table GH-8). -/
abbrev Loc.gtLbufSts (g : Nat) : Loc := (0x0800 + 0x20 * g) * 4096 + 0x054
/-- CH_SEL (Table GH-9). -/
abbrev Loc.gtChSel (g : Nat) : Loc := (0x0801 + 0x20 * g) * 4096 + 0x040
/-- CH_CE (Table GH-9). -/
abbrev Loc.gtChCe (g : Nat) : Loc := (0x0801 + 0x20 * g) * 4096 + 0x044
/-- CE_LAST_LO (Table GH-9). -/
abbrev Loc.gtCeLastLo (g : Nat) : Loc := (0x0801 + 0x20 * g) * 4096 + 0x048
/-- CE_LAST_HI (Table GH-9). -/
abbrev Loc.gtCeLastHi (g : Nat) : Loc := (0x0801 + 0x20 * g) * 4096 + 0x04C
/-- UE_LAST_LO (Table GH-9). -/
abbrev Loc.gtUeLastLo (g : Nat) : Loc := (0x0801 + 0x20 * g) * 4096 + 0x050
/-- UE_LAST_HI (Table GH-9). -/
abbrev Loc.gtUeLastHi (g : Nat) : Loc := (0x0801 + 0x20 * g) * 4096 + 0x054
/-- FLIP_SEL (Table GH-9). -/
abbrev Loc.gtFlipSel (g : Nat) : Loc := (0x0801 + 0x20 * g) * 4096 + 0x080
/-- FLIP_D (Table GH-9). -/
abbrev Loc.gtFlipD (g k : Nat) : Loc := (0x0801 + 0x20 * g) * 4096 + 0x084 + 4 * k
/-- FLIP_C (Table GH-9). -/
abbrev Loc.gtFlipC (g k : Nat) : Loc := (0x0801 + 0x20 * g) * 4096 + 0x0C4 + 4 * k
/-- PATROL_CTL (Table GH-10). -/
abbrev Loc.gtPatrolCtl (g : Nat) : Loc := (0x0802 + 0x20 * g) * 4096 + 0x040
/-- PATROL_STS (Table GH-10). -/
abbrev Loc.gtPatrolSts (g : Nat) : Loc := (0x0802 + 0x20 * g) * 4096 + 0x044
/-- PATROL_CE (Table GH-10). -/
abbrev Loc.gtPatrolCe (g : Nat) : Loc := (0x0802 + 0x20 * g) * 4096 + 0x048
/-- PATROL_UE (Table GH-10). -/
abbrev Loc.gtPatrolUe (g : Nat) : Loc := (0x0802 + 0x20 * g) * 4096 + 0x04C
/-- REF_FORCED (Table GH-10). -/
abbrev Loc.gtRefForced (g : Nat) : Loc := (0x0802 + 0x20 * g) * 4096 + 0x050
/-- TRAIN_CTL (Table GH-10). -/
abbrev Loc.gtTrainCtl (g : Nat) : Loc := (0x0802 + 0x20 * g) * 4096 + 0x058
/-- TRAIN_STS (Table GH-10). -/
abbrev Loc.gtTrainSts (g : Nat) : Loc := (0x0802 + 0x20 * g) * 4096 + 0x05C
/-- REMAP (Table GH-11). -/
abbrev Loc.gtRemap (g : Nat) : Loc := (0x0803 + 0x20 * g) * 4096 + 0x040
/-- REMAP_STS (Table GH-11). -/
abbrev Loc.gtRemapSts (g : Nat) : Loc := (0x0803 + 0x20 * g) * 4096 + 0x044
/-- REMAP_USE (Table GH-11). -/
abbrev Loc.gtRemapUse (g : Nat) : Loc := (0x0803 + 0x20 * g) * 4096 + 0x048
/-- PL_CTL (Table PL-9). -/
abbrev Loc.plPlCtl (e : Nat) : Loc := (0x0900 + 0x100 * e) * 4096 + 0x040
/-- PL_STS (Table PL-9). -/
abbrev Loc.plPlSts (e : Nat) : Loc := (0x0900 + 0x100 * e) * 4096 + 0x044
/-- STATION_OUT (Table PL-9). -/
abbrev Loc.plStationOut (e : Nat) : Loc := (0x0900 + 0x100 * e) * 4096 + 0x048
/-- PAIR_SEL (Table PL-10). -/
abbrev Loc.plPairSel (e : Nat) : Loc := (0x0901 + 0x100 * e) * 4096 + 0x040
/-- PAIR_MASK (Table PL-10). -/
abbrev Loc.plPairMask (e : Nat) : Loc := (0x0901 + 0x100 * e) * 4096 + 0x044
/-- PAIR_STS (Table PL-10). -/
abbrev Loc.plPairSts (e : Nat) : Loc := (0x0901 + 0x100 * e) * 4096 + 0x048
/-- PAIR_VIA (Table PL-10). -/
abbrev Loc.plPairVia (e : Nat) : Loc := (0x0901 + 0x100 * e) * 4096 + 0x04C
/-- LINK_SEL (Table PL-11). -/
abbrev Loc.plLinkSel (e : Nat) : Loc := (0x0902 + 0x100 * e) * 4096 + 0x040
/-- LINK_STS (Table PL-11). -/
abbrev Loc.plLinkSts (e : Nat) : Loc := (0x0902 + 0x100 * e) * 4096 + 0x044
/-- LINK_CORR (Table PL-11). -/
abbrev Loc.plLinkCorr (e : Nat) : Loc := (0x0902 + 0x100 * e) * 4096 + 0x048
/-- LINK_UNC (Table PL-11). -/
abbrev Loc.plLinkUnc (e : Nat) : Loc := (0x0902 + 0x100 * e) * 4096 + 0x04C
/-- LINK_CRC (Table PL-11). -/
abbrev Loc.plLinkCrc (e : Nat) : Loc := (0x0902 + 0x100 * e) * 4096 + 0x050
/-- LINK_RETRY (Table PL-11). -/
abbrev Loc.plLinkRetry (e : Nat) : Loc := (0x0902 + 0x100 * e) * 4096 + 0x054
/-- LINK_BITERR (Table PL-11). -/
abbrev Loc.plLinkBiterr (e : Nat) : Loc := (0x0902 + 0x100 * e) * 4096 + 0x058
/-- BUN_SEL (Table PL-12). -/
abbrev Loc.plBunSel (e : Nat) : Loc := (0x0903 + 0x100 * e) * 4096 + 0x040
/-- BUN_STS (Table PL-12). -/
abbrev Loc.plBunSts (e : Nat) : Loc := (0x0903 + 0x100 * e) * 4096 + 0x044
/-- BUN_CTL (Table PL-12). -/
abbrev Loc.plBunCtl (e : Nat) : Loc := (0x0903 + 0x100 * e) * 4096 + 0x048
/-- SEAM_SEL (Table PL-13). -/
abbrev Loc.plSeamSel (e : Nat) : Loc := (0x0904 + 0x100 * e) * 4096 + 0x040
/-- SEAM_STS (Table PL-13). -/
abbrev Loc.plSeamSts (e : Nat) : Loc := (0x0904 + 0x100 * e) * 4096 + 0x044
/-- LN_CTL (Table LN-7). -/
abbrev Loc.lnLnCtl : Loc := (0x0D00) * 4096 + 0x040
/-- LN_STS (Table LN-7). -/
abbrev Loc.lnLnSts : Loc := (0x0D00) * 4096 + 0x044
/-- LN_THRESH (Table LN-7). -/
abbrev Loc.lnLnThresh : Loc := (0x0D00) * 4096 + 0x048
/-- LN_SEL (Table LN-7). -/
abbrev Loc.lnLnSel : Loc := (0x0D00) * 4096 + 0x04C
/-- LN_LINE (Table LN-7). -/
abbrev Loc.lnLnLine : Loc := (0x0D00) * 4096 + 0x050
/-- LN_SWAPS (Table LN-7). -/
abbrev Loc.lnLnSwaps : Loc := (0x0D00) * 4096 + 0x054
/-- CAL_CTL (Table LN-8). -/
abbrev Loc.plCalCtl (e : Nat) : Loc := (0x0910 + 0x100 * e) * 4096 + 0x040
/-- CAL_STS (Table LN-8). -/
abbrev Loc.plCalSts (e : Nat) : Loc := (0x0910 + 0x100 * e) * 4096 + 0x044
/-- ROW_SEL (Table LN-8). -/
abbrev Loc.plRowSel (e : Nat) : Loc := (0x0910 + 0x100 * e) * 4096 + 0x048
/-- ROW_STS (Table LN-8). -/
abbrev Loc.plRowSts (e : Nat) : Loc := (0x0910 + 0x100 * e) * 4096 + 0x04C
/-- ROW_WIN (Table LN-8). -/
abbrev Loc.plRowWin (e : Nat) : Loc := (0x0910 + 0x100 * e) * 4096 + 0x050
/-- RING_SEL (Table LN-8). -/
abbrev Loc.plRingSel (e : Nat) : Loc := (0x0910 + 0x100 * e) * 4096 + 0x054
/-- RING (Table LN-8). -/
abbrev Loc.plRing (e : Nat) : Loc := (0x0910 + 0x100 * e) * 4096 + 0x058
/-- RECAL (Table LN-8). -/
abbrev Loc.plRecal (e : Nat) : Loc := (0x0910 + 0x100 * e) * 4096 + 0x05C
/-- TMAP_OFS (Table LN-9). -/
abbrev Loc.plTmapOfs (e : Nat) : Loc := (0x0911 + 0x100 * e) * 4096 + 0x040
/-- TMAP (Table LN-9). -/
abbrev Loc.plTmap (e k : Nat) : Loc := (0x0911 + 0x100 * e) * 4096 + 0x080 + 4 * k
/-- OC_STS (Table FT-13). -/
abbrev Loc.ocOcSts (e : Nat) : Loc := (0x0B00 + 0x100 * e) * 4096 + 0x040
/-- RING_CTL (Table FT-13). -/
abbrev Loc.ocRingCtl (e : Nat) : Loc := (0x0B00 + 0x100 * e) * 4096 + 0x044
/-- RING_STS (Table FT-13). -/
abbrev Loc.ocRingSts (e : Nat) : Loc := (0x0B00 + 0x100 * e) * 4096 + 0x048
/-- PORT_SEL (Table FT-14). -/
abbrev Loc.ocPortSel (e : Nat) : Loc := (0x0B01 + 0x100 * e) * 4096 + 0x040
/-- PORT_CTL (Table FT-14). -/
abbrev Loc.ocPortCtl (e : Nat) : Loc := (0x0B01 + 0x100 * e) * 4096 + 0x044
/-- PORT_STS (Table FT-14). -/
abbrev Loc.ocPortSts (e : Nat) : Loc := (0x0B01 + 0x100 * e) * 4096 + 0x048
/-- PORT_PEER (Table FT-14). -/
abbrev Loc.ocPortPeer (e : Nat) : Loc := (0x0B01 + 0x100 * e) * 4096 + 0x04C
/-- PORT_RTT (Table FT-14). -/
abbrev Loc.ocPortRtt (e : Nat) : Loc := (0x0B01 + 0x100 * e) * 4096 + 0x050
/-- PORT_CORR (Table FT-14). -/
abbrev Loc.ocPortCorr (e : Nat) : Loc := (0x0B01 + 0x100 * e) * 4096 + 0x054
/-- PORT_UNC (Table FT-14). -/
abbrev Loc.ocPortUnc (e : Nat) : Loc := (0x0B01 + 0x100 * e) * 4096 + 0x058
/-- PORT_CRC (Table FT-14). -/
abbrev Loc.ocPortCrc (e : Nat) : Loc := (0x0B01 + 0x100 * e) * 4096 + 0x05C
/-- PORT_RETRY (Table FT-14). -/
abbrev Loc.ocPortRetry (e : Nat) : Loc := (0x0B01 + 0x100 * e) * 4096 + 0x060
/-- PORT_STALL (Table FT-14). -/
abbrev Loc.ocPortStall (e : Nat) : Loc := (0x0B01 + 0x100 * e) * 4096 + 0x064
/-- TX_FLITS_LO (Table FT-14). -/
abbrev Loc.ocTxFlitsLo (e : Nat) : Loc := (0x0B01 + 0x100 * e) * 4096 + 0x068
/-- TX_FLITS_HI (Table FT-14). -/
abbrev Loc.ocTxFlitsHi (e : Nat) : Loc := (0x0B01 + 0x100 * e) * 4096 + 0x06C
/-- RX_FLITS_LO (Table FT-14). -/
abbrev Loc.ocRxFlitsLo (e : Nat) : Loc := (0x0B01 + 0x100 * e) * 4096 + 0x070
/-- RX_FLITS_HI (Table FT-14). -/
abbrev Loc.ocRxFlitsHi (e : Nat) : Loc := (0x0B01 + 0x100 * e) * 4096 + 0x074
/-- PORT_QUEUE (Table FT-14). -/
abbrev Loc.ocPortQueue (e : Nat) : Loc := (0x0B01 + 0x100 * e) * 4096 + 0x078
/-- ROUTE_SEL (Table FT-15). -/
abbrev Loc.ocRouteSel (e : Nat) : Loc := (0x0B02 + 0x100 * e) * 4096 + 0x040
/-- ROUTE_DATA (Table FT-15). -/
abbrev Loc.ocRouteData (e : Nat) : Loc := (0x0B02 + 0x100 * e) * 4096 + 0x044
/-- ROUTE_BASE_LO (Table FT-15). -/
abbrev Loc.ocRouteBaseLo (e : Nat) : Loc := (0x0B02 + 0x100 * e) * 4096 + 0x048
/-- ROUTE_BASE_HI (Table FT-15). -/
abbrev Loc.ocRouteBaseHi (e : Nat) : Loc := (0x0B02 + 0x100 * e) * 4096 + 0x04C
/-- ROUTE_FIRST (Table FT-15). -/
abbrev Loc.ocRouteFirst (e : Nat) : Loc := (0x0B02 + 0x100 * e) * 4096 + 0x050
/-- ROUTE_LOAD (Table FT-15). -/
abbrev Loc.ocRouteLoad (e : Nat) : Loc := (0x0B02 + 0x100 * e) * 4096 + 0x054
/-- MCG_SEL (Table FT-15). -/
abbrev Loc.ocMcgSel (e : Nat) : Loc := (0x0B03 + 0x100 * e) * 4096 + 0x040
/-- MCG_HDR (Table FT-15). -/
abbrev Loc.ocMcgHdr (e : Nat) : Loc := (0x0B03 + 0x100 * e) * 4096 + 0x044
/-- MCG_TGT (Table FT-15). -/
abbrev Loc.ocMcgTgt (e : Nat) : Loc := (0x0B03 + 0x100 * e) * 4096 + 0x048
/-- MCG_BASE_LO (Table FT-15). -/
abbrev Loc.ocMcgBaseLo (e : Nat) : Loc := (0x0B03 + 0x100 * e) * 4096 + 0x050
/-- MCG_BASE_HI (Table FT-15). -/
abbrev Loc.ocMcgBaseHi (e : Nat) : Loc := (0x0B03 + 0x100 * e) * 4096 + 0x054
/-- MCG_LOAD (Table FT-15). -/
abbrev Loc.ocMcgLoad (e : Nat) : Loc := (0x0B03 + 0x100 * e) * 4096 + 0x058
/-- POOL_RES (Table FT-15). -/
abbrev Loc.ocPoolRes (e k : Nat) : Loc := (0x0B04 + 0x100 * e) * 4096 + 0x040 + 4 * k
/-- POOL_SHARED (Table FT-15). -/
abbrev Loc.ocPoolShared (e : Nat) : Loc := (0x0B04 + 0x100 * e) * 4096 + 0x06C
/-- MAP_CTL (Table FT-15). -/
abbrev Loc.ocMapCtl (e : Nat) : Loc := (0x0B05 + 0x100 * e) * 4096 + 0x040
/-- MAP_DST (Table FT-15). -/
abbrev Loc.ocMapDst (e : Nat) : Loc := (0x0B05 + 0x100 * e) * 4096 + 0x044
/-- MAP_EPOCH (Table FT-15). -/
abbrev Loc.ocMapEpoch (e : Nat) : Loc := (0x0B05 + 0x100 * e) * 4096 + 0x048
/-- TAG_SEL (Table FM-5). -/
abbrev Loc.ocTagSel (e : Nat) : Loc := (0x0B08 + 0x100 * e) * 4096 + 0x040
/-- TAG_DIR (Table FM-5). -/
abbrev Loc.ocTagDir (e : Nat) : Loc := (0x0B08 + 0x100 * e) * 4096 + 0x044
/-- WIN_SEL (Table FM-5). -/
abbrev Loc.ocWinSel (e : Nat) : Loc := (0x0B09 + 0x100 * e) * 4096 + 0x040
/-- WIN_DATA (Table FM-5). -/
abbrev Loc.ocWinData (e k : Nat) : Loc := (0x0B09 + 0x100 * e) * 4096 + 0x044 + 4 * k
/-- WIN_BASE_LO (Table FM-5). -/
abbrev Loc.ocWinBaseLo (e : Nat) : Loc := (0x0B09 + 0x100 * e) * 4096 + 0x058
/-- WIN_BASE_HI (Table FM-5). -/
abbrev Loc.ocWinBaseHi (e : Nat) : Loc := (0x0B09 + 0x100 * e) * 4096 + 0x05C
/-- WIN_FIRST (Table FM-5). -/
abbrev Loc.ocWinFirst (e : Nat) : Loc := (0x0B09 + 0x100 * e) * 4096 + 0x060
/-- WIN_LOAD (Table FM-5). -/
abbrev Loc.ocWinLoad (e : Nat) : Loc := (0x0B09 + 0x100 * e) * 4096 + 0x064
/-- CS_SEL (Table FM-9). -/
abbrev Loc.ocCsSel (e : Nat) : Loc := (0x0B0A + 0x100 * e) * 4096 + 0x040
/-- CS_VALUE (Table FM-9). -/
abbrev Loc.ocCsValue (e : Nat) : Loc := (0x0B0A + 0x100 * e) * 4096 + 0x044
/-- COMB_CTL (Table FM-9). -/
abbrev Loc.ocCombCtl (e : Nat) : Loc := (0x0B0B + 0x100 * e) * 4096 + 0x040
/-- MC_CTL (Table FM-9). -/
abbrev Loc.ocMcCtl (e : Nat) : Loc := (0x0B0B + 0x100 * e) * 4096 + 0x044
/-- COMB_STS (Table FM-9). -/
abbrev Loc.ocCombSts (e : Nat) : Loc := (0x0B0B + 0x100 * e) * 4096 + 0x048
/-- DUP_STS (Table FM-9). -/
abbrev Loc.ocDupSts (e : Nat) : Loc := (0x0B0B + 0x100 * e) * 4096 + 0x04C
/-- WIN_REJ_LO (Table FM-9). -/
abbrev Loc.ocWinRejLo (e : Nat) : Loc := (0x0B0C + 0x100 * e) * 4096 + 0x040
/-- WIN_REJ_HI (Table FM-9). -/
abbrev Loc.ocWinRejHi (e : Nat) : Loc := (0x0B0C + 0x100 * e) * 4096 + 0x044
/-- WIN_REJ_ADDR_LO (Table FM-9). -/
abbrev Loc.ocWinRejAddrLo (e : Nat) : Loc := (0x0B0C + 0x100 * e) * 4096 + 0x048
/-- WIN_REJ_ADDR_HI (Table FM-9). -/
abbrev Loc.ocWinRejAddrHi (e : Nat) : Loc := (0x0B0C + 0x100 * e) * 4096 + 0x04C
/-- CLK_CTL (Table CK-6). -/
abbrev Loc.glClkCtl : Loc := (0x0003) * 4096 + 0x040
/-- CLK_VANE (Table CK-6). -/
abbrev Loc.glClkVane : Loc := (0x0003) * 4096 + 0x044
/-- CLK_STS (Table CK-6). -/
abbrev Loc.glClkSts : Loc := (0x0003) * 4096 + 0x048
/-- REF_CTL (Table CK-6). -/
abbrev Loc.glRefCtl : Loc := (0x0003) * 4096 + 0x04C
/-- REG_SEL (Table CK-6). -/
abbrev Loc.glRegSel : Loc := (0x0003) * 4096 + 0x050
/-- REG_STS (Table CK-6). -/
abbrev Loc.glRegSts : Loc := (0x0003) * 4096 + 0x054
/-- REG_STRETCH (Table CK-6). -/
abbrev Loc.glRegStretch : Loc := (0x0003) * 4096 + 0x058
/-- REG_STEPS (Table CK-6). -/
abbrev Loc.glRegSteps : Loc := (0x0003) * 4096 + 0x05C
/-- TIME_CTL (Table CK-7). -/
abbrev Loc.glTimeCtl : Loc := (0x0004) * 4096 + 0x040
/-- TIME_PARENT (Table CK-7). -/
abbrev Loc.glTimeParent : Loc := (0x0004) * 4096 + 0x044
/-- TIME_STS (Table CK-7). -/
abbrev Loc.glTimeSts : Loc := (0x0004) * 4096 + 0x048
/-- TIME_OFS (Table CK-7). -/
abbrev Loc.glTimeOfs : Loc := (0x0004) * 4096 + 0x04C
/-- TIME_FREQ (Table CK-7). -/
abbrev Loc.glTimeFreq : Loc := (0x0004) * 4096 + 0x050
/-- TIME_DELAY (Table CK-7). -/
abbrev Loc.glTimeDelay : Loc := (0x0004) * 4096 + 0x054
/-- TIME_NOW_LO (Table CK-7). -/
abbrev Loc.glTimeNowLo : Loc := (0x0004) * 4096 + 0x058
/-- TIME_NOW_HI (Table CK-7). -/
abbrev Loc.glTimeNowHi : Loc := (0x0004) * 4096 + 0x05C
/-- TIME_SET_LO (Table CK-7). -/
abbrev Loc.glTimeSetLo : Loc := (0x0004) * 4096 + 0x060
/-- TIME_SET_HI (Table CK-7). -/
abbrev Loc.glTimeSetHi : Loc := (0x0004) * 4096 + 0x064
/-- TICK_OUT_CTL (Table CK-7). -/
abbrev Loc.glTickOutCtl : Loc := (0x0004) * 4096 + 0x068
/-- PWR_CFG (Table PW-8). -/
abbrev Loc.glPwrCfg : Loc := (0x0006) * 4096 + 0x040
/-- PWR_GUARD (Table PW-8). -/
abbrev Loc.glPwrGuard : Loc := (0x0006) * 4096 + 0x044
/-- PWR_STS (Table PW-8). -/
abbrev Loc.glPwrSts : Loc := (0x0006) * 4096 + 0x048
/-- VIN (Table PW-8). -/
abbrev Loc.glVin : Loc := (0x0006) * 4096 + 0x04C
/-- IIN (Table PW-8). -/
abbrev Loc.glIin : Loc := (0x0006) * 4096 + 0x050
/-- PIN (Table PW-8). -/
abbrev Loc.glPin : Loc := (0x0006) * 4096 + 0x054
/-- STACK_SEL (Table PW-8). -/
abbrev Loc.glStackSel : Loc := (0x0006) * 4096 + 0x058
/-- STACK_RED (Table PW-8). -/
abbrev Loc.glStackRed : Loc := (0x0006) * 4096 + 0x05C
/-- TS_SEL (Table PW-9). -/
abbrev Loc.glTsSel : Loc := (0x0007) * 4096 + 0x040
/-- TS_VAL (Table PW-9). -/
abbrev Loc.glTsVal : Loc := (0x0007) * 4096 + 0x044
/-- TS_RATE (Table PW-9). -/
abbrev Loc.glTsRate : Loc := (0x0007) * 4096 + 0x048
/-- TS_STS (Table PW-9). -/
abbrev Loc.glTsSts : Loc := (0x0007) * 4096 + 0x04C
/-- TH_CTL (Table PW-9). -/
abbrev Loc.glThCtl : Loc := (0x0007) * 4096 + 0x050
/-- TH_TRIPS (Table PW-9). -/
abbrev Loc.glThTrips : Loc := (0x0007) * 4096 + 0x054
/-- BF_STS (Table BF-8). -/
abbrev Loc.bfBfSts (e : Nat) : Loc := (0x0100 + 0x40 * e) * 4096 + 0x040
/-- BF_CTL (Table BF-8). -/
abbrev Loc.bfBfCtl (e : Nat) : Loc := (0x0100 + 0x40 * e) * 4096 + 0x044
/-- BF_FAILOVERS (Table BF-8). -/
abbrev Loc.bfBfFailovers (e : Nat) : Loc := (0x0100 + 0x40 * e) * 4096 + 0x048
/-- MGMT_CFG (Table BF-9). -/
abbrev Loc.glMgmtCfg : Loc := (0x0005) * 4096 + 0x040
/-- MGMT_PAIR (Table BF-9). -/
abbrev Loc.glMgmtPair : Loc := (0x0005) * 4096 + 0x044
/-- MGMT_UP_A (Table BF-9). -/
abbrev Loc.glMgmtUpA : Loc := (0x0005) * 4096 + 0x048
/-- MGMT_UP_B (Table BF-9). -/
abbrev Loc.glMgmtUpB : Loc := (0x0005) * 4096 + 0x04C
/-- MGMT_HB (Table BF-9). -/
abbrev Loc.glMgmtHb : Loc := (0x0005) * 4096 + 0x050
/-- MGMT_SURV (Table BF-9). -/
abbrev Loc.glMgmtSurv : Loc := (0x0005) * 4096 + 0x054
/-- MGMT_STS (Table BF-9). -/
abbrev Loc.glMgmtSts : Loc := (0x0005) * 4096 + 0x058
/-- MGMT_HOLDER (Table BF-9). -/
abbrev Loc.glMgmtHolder : Loc := (0x0005) * 4096 + 0x05C
/-- SEC_STS (Table SE-6). -/
abbrev Loc.seSecSts : Loc := (0x0E00) * 4096 + 0x040
/-- LAY_SEL (Table SE-6). -/
abbrev Loc.seLaySel : Loc := (0x0E00) * 4096 + 0x044
/-- LAY_SPIRES (Table SE-6). -/
abbrev Loc.seLaySpires : Loc := (0x0E00) * 4096 + 0x048
/-- LAY_TAGS (Table SE-6). -/
abbrev Loc.seLayTags : Loc := (0x0E00) * 4096 + 0x04C
/-- LAY_FLAGS (Table SE-6). -/
abbrev Loc.seLayFlags : Loc := (0x0E00) * 4096 + 0x050
/-- GRAN_SEL (Table SE-6). -/
abbrev Loc.seGranSel : Loc := (0x0E00) * 4096 + 0x054
/-- GRAN_OWNER (Table SE-6). -/
abbrev Loc.seGranOwner : Loc := (0x0E00) * 4096 + 0x058
/-- LAY_CTL (Table SE-6). -/
abbrev Loc.seLayCtl : Loc := (0x0E00) * 4096 + 0x05C
/-- SESS_ID_LO (Table SE-6). -/
abbrev Loc.seSessIdLo : Loc := (0x0E00) * 4096 + 0x060
/-- SESS_ID_HI (Table SE-6). -/
abbrev Loc.seSessIdHi : Loc := (0x0E00) * 4096 + 0x064
/-- SE_CMD (Table SE-6). -/
abbrev Loc.seSeCmd : Loc := (0x0E00) * 4096 + 0x070
/-- SE_ARG (Table SE-6). -/
abbrev Loc.seSeArg : Loc := (0x0E00) * 4096 + 0x074
/-- SE_STS (Table SE-6). -/
abbrev Loc.seSeSts : Loc := (0x0E00) * 4096 + 0x078
/-- SE_CLAIM (Table SE-6). -/
abbrev Loc.seSeClaim : Loc := (0x0E00) * 4096 + 0x07C
/-- DEBUG_STS (Table SE-6). -/
abbrev Loc.seDebugSts : Loc := (0x0E00) * 4096 + 0x080
/-- DEBUG_CTL (Table SE-6). -/
abbrev Loc.seDebugCtl : Loc := (0x0E00) * 4096 + 0x084
/-- ATT_NONCE (Table SE-6). -/
abbrev Loc.seAttNonce (k : Nat) : Loc := (0x0E00) * 4096 + 0x090 + 4 * k
/-- ATT_CMD (Table SE-6). -/
abbrev Loc.seAttCmd : Loc := (0x0E00) * 4096 + 0x0B0
/-- ATT_STS (Table SE-6). -/
abbrev Loc.seAttSts : Loc := (0x0E00) * 4096 + 0x0B4
/-- MGR_TRUST_SEL (Table SE-6). -/
abbrev Loc.seMgrTrustSel : Loc := (0x0E00) * 4096 + 0x0C0
/-- MGR_TRUST (Table SE-6). -/
abbrev Loc.seMgrTrust (k : Nat) : Loc := (0x0E00) * 4096 + 0x0C4 + 4 * k
/-- FAULT_CTL (Table FA-11). -/
abbrev Loc.glFaultCtl : Loc := (0x0000) * 4096 + 0x040
/-- FAULT_STS (Table FA-11). -/
abbrev Loc.glFaultSts : Loc := (0x0000) * 4096 + 0x044
/-- RESET_CTL (Table FA-11). -/
abbrev Loc.glResetCtl : Loc := (0x0000) * 4096 + 0x048
/-- RESET_STS (Table FA-11). -/
abbrev Loc.glResetSts : Loc := (0x0000) * 4096 + 0x04C
/-- LOG_STS (Table FA-11). -/
abbrev Loc.glLogSts : Loc := (0x0000) * 4096 + 0x050
/-- LOG_SEL (Table FA-11). -/
abbrev Loc.glLogSel : Loc := (0x0000) * 4096 + 0x054
/-- LOG_ACK (Table FA-11). -/
abbrev Loc.glLogAck : Loc := (0x0000) * 4096 + 0x058
/-- LOG_DROPS (Table FA-11). -/
abbrev Loc.glLogDrops : Loc := (0x0000) * 4096 + 0x05C
/-- LOG_DATA (Table FA-11). -/
abbrev Loc.glLogData (k : Nat) : Loc := (0x0000) * 4096 + 0x060 + 4 * k
/-- BOOT_STS (Table HS-13). -/
abbrev Loc.glBootSts : Loc := (0x0001) * 4096 + 0x040
/-- START_CFG (Table HS-13). -/
abbrev Loc.glStartCfg : Loc := (0x0001) * 4096 + 0x044
/-- START_CTL (Table HS-13). -/
abbrev Loc.glStartCtl : Loc := (0x0001) * 4096 + 0x048
/-- FAB_ID (Table HS-13). -/
abbrev Loc.glFabId : Loc := (0x0001) * 4096 + 0x04C
/-- HOST_STS (Table HS-13). -/
abbrev Loc.glHostSts : Loc := (0x0001) * 4096 + 0x050
/-- SB_SEL (Table HS-14). -/
abbrev Loc.glSbSel : Loc := (0x0008) * 4096 + 0x040
/-- SB_CFG (Table HS-14). -/
abbrev Loc.glSbCfg : Loc := (0x0008) * 4096 + 0x044
/-- SB_STS (Table HS-14). -/
abbrev Loc.glSbSts : Loc := (0x0008) * 4096 + 0x048
/-- MB_TX_DATA (Table HS-15). -/
abbrev Loc.mbMbTxData (m : Nat) : Loc := (0x0180 + m) * 4096 + 0x040
/-- MB_TX_CNT (Table HS-15). -/
abbrev Loc.mbMbTxCnt (m : Nat) : Loc := (0x0180 + m) * 4096 + 0x044
/-- MB_RX_DATA (Table HS-15). -/
abbrev Loc.mbMbRxData (m : Nat) : Loc := (0x0180 + m) * 4096 + 0x048
/-- MB_RX_CNT (Table HS-15). -/
abbrev Loc.mbMbRxCnt (m : Nat) : Loc := (0x0180 + m) * 4096 + 0x04C
/-- MB_RX_POP (Table HS-15). -/
abbrev Loc.mbMbRxPop (m : Nat) : Loc := (0x0180 + m) * 4096 + 0x050
/-- MB_CTL (Table HS-15). -/
abbrev Loc.mbMbCtl (m : Nat) : Loc := (0x0180 + m) * 4096 + 0x054
/-- MB_STS (Table HS-15). -/
abbrev Loc.mbMbSts (m : Nat) : Loc := (0x0180 + m) * 4096 + 0x058
/-- WIN2_BASE (Table HS-15). -/
abbrev Loc.mbWin2Base (m : Nat) : Loc := (0x0180 + m) * 4096 + 0x05C
/-- MBS_CNT (Table HS-15). -/
abbrev Loc.msMbsCnt (n : Nat) : Loc := (0x0190 + n) * 4096 + 0x040
/-- MON_CTL (Table RG-7). -/
abbrev Loc.moMonCtl : Loc := (0x0F00) * 4096 + 0x040
/-- EVT_PAGE (Table RG-7). -/
abbrev Loc.moEvtPage : Loc := (0x0F00) * 4096 + 0x044
/-- EVT_COUNT (Table RG-7). -/
abbrev Loc.moEvtCount : Loc := (0x0F00) * 4096 + 0x048
/-- REJ_TOTAL (Table RG-7). -/
abbrev Loc.moRejTotal : Loc := (0x0F00) * 4096 + 0x04C
/-- UNMAPPED (Table RG-7). -/
abbrev Loc.moUnmapped : Loc := (0x0F00) * 4096 + 0x050
/-- UNMAPPED_LAST (Table RG-7). -/
abbrev Loc.moUnmappedLast : Loc := (0x0F00) * 4096 + 0x054
/-- APPLY_AT_LO (Table FR-4). -/
abbrev Loc.glApplyAtLo : Loc := (0x0002) * 4096 + 0x050
/-- APPLY_AT_HI (Table FR-4). -/
abbrev Loc.glApplyAtHi : Loc := (0x0002) * 4096 + 0x054
/-- TICK_COUNT_LO (Table FR-4). -/
abbrev Loc.glTickCountLo : Loc := (0x0002) * 4096 + 0x058
/-- TICK_COUNT_HI (Table FR-4). -/
abbrev Loc.glTickCountHi : Loc := (0x0002) * 4096 + 0x05C
/-- PFp_FRAMES (Table FR-7). -/
abbrev Loc.ptPfFrames (p : Nat) : Loc := (0x0010 + p) * 4096 + 0x048
/-- PFp_LATES (Table FR-7). -/
abbrev Loc.ptPfLates (p : Nat) : Loc := (0x0010 + p) * 4096 + 0x04C
/-- HEALTH (Table BF-3). -/
abbrev Loc.bfHealth (e k : Nat) : Loc := (0x0101 + 0x40 * e) * 4096 + 0x040 + 4 * k

/-- Registers of GLOBAL page offset 0x02. -/
def regsGlobal02 : List Rd :=
  [⟨0x040, 1, [⟨0, 10, .ro, 10, false, 0, 0xFFFFFFFF⟩, ⟨16, 10, .ro, 50, false, 0, 0xFFFFFFFF⟩]⟩,
   ⟨0x044, 1, [⟨0, 10, .rw, 10, false, 1, 1000⟩, ⟨16, 10, .rw, 50, false, 0, 500⟩]⟩,
   ⟨0x048, 1, [⟨0, 1, .rw, 0, false, 0, 0xFFFFFFFF⟩, ⟨1, 1, .ro, 0, false, 0, 0xFFFFFFFF⟩, ⟨2, 1, .ro, 0, false, 0, 0xFFFFFFFF⟩]⟩,
   ⟨0x050, 1, [⟨0, 32, .rw, 0, false, 0, 0xFFFFFFFF⟩]⟩,
   ⟨0x054, 1, [⟨0, 32, .rw, 0, false, 0, 0xFFFFFFFF⟩]⟩,
   ⟨0x058, 1, [⟨0, 32, .ro, 0, false, 0, 0xFFFFFFFF⟩]⟩,
   ⟨0x05C, 1, [⟨0, 32, .ro, 0, false, 0, 0xFFFFFFFF⟩]⟩]

/-- Registers of PART page offset 0x00. -/
def regsPart00 : List Rd :=
  [⟨0x040, 1, [⟨0, 2, .wo, 0, true, 0, 0xFFFFFFFF⟩, ⟨4, 1, .rw, 0, true, 0, 0xFFFFFFFF⟩, ⟨8, 4, .rw, 3, true, 1, 15⟩]⟩,
   ⟨0x044, 1, [⟨0, 3, .ro, 0, false, 0, 0xFFFFFFFF⟩, ⟨8, 4, .ro, 0, false, 0, 0xFFFFFFFF⟩]⟩,
   ⟨0x048, 1, [⟨0, 32, .ro, 0, false, 0, 0xFFFFFFFF⟩]⟩,
   ⟨0x04C, 1, [⟨0, 32, .ro, 0, false, 0, 0xFFFFFFFF⟩]⟩]

/-- Registers of SPIRE page offset 0x02. -/
def regsSpire02 : List Rd :=
  [⟨0x040, 1, [⟨0, 10, .rw, 0, false, 0, 0xFFFFFFFF⟩, ⟨16, 1, .rw, 0, false, 0, 0xFFFFFFFF⟩]⟩,
   ⟨0x044, 1, [⟨0, 10, .rw, 0, true, 0, 0xFFFFFFFF⟩]⟩,
   ⟨0x048, 1, [⟨0, 10, .ro, 0, false, 0, 0xFFFFFFFF⟩, ⟨16, 10, .ro, 0, false, 0, 0xFFFFFFFF⟩]⟩,
   ⟨0x050, 1, [⟨0, 32, .rw, 0, false, 0, 0xFFFFFFFF⟩]⟩,
   ⟨0x054, 1, [⟨0, 32, .rw, 0, false, 0, 0xFFFFFFFF⟩]⟩,
   ⟨0x058, 1, [⟨0, 10, .rw, 0, false, 0, 0xFFFFFFFF⟩, ⟨10, 11, .rw, 0, false, 0, 0xFFFFFFFF⟩, ⟨30, 1, .ro, 0, false, 0, 0xFFFFFFFF⟩, ⟨31, 1, .wo, 0, false, 0, 0xFFFFFFFF⟩]⟩,
   ⟨0x060, 1, [⟨0, 32, .ro, 0, false, 0, 0xFFFFFFFF⟩]⟩,
   ⟨0x064, 1, [⟨0, 32, .ro, 0, false, 0, 0xFFFFFFFF⟩]⟩,
   ⟨0x068, 1, [⟨0, 10, .ro, 0, false, 0, 0xFFFFFFFF⟩, ⟨31, 1, .ro, 0, false, 0, 0xFFFFFFFF⟩]⟩,
   ⟨0x080, 16, [⟨0, 32, .rw, 0, false, 0, 0xFFFFFFFF⟩]⟩]

/-- Registers of SPIRE page offset 0x00. -/
def regsSpire00 : List Rd :=
  [⟨0x040, 1, [⟨0, 1, .rw, 1, true, 0, 0xFFFFFFFF⟩, ⟨1, 1, .rw, 0, false, 0, 0xFFFFFFFF⟩]⟩,
   ⟨0x044, 1, [⟨0, 7, .ro, 0, false, 0, 0xFFFFFFFF⟩, ⟨8, 5, .ro, 0, false, 0, 0xFFFFFFFF⟩, ⟨13, 1, .ro, 0, false, 0, 0xFFFFFFFF⟩]⟩,
   ⟨0x048, 1, [⟨0, 10, .ro, 0, false, 0, 0xFFFFFFFF⟩, ⟨10, 14, .ro, 0, false, 0, 0xFFFFFFFF⟩, ⟨24, 6, .ro, 0, false, 0, 0xFFFFFFFF⟩, ⟨30, 1, .ro, 0, false, 0, 0xFFFFFFFF⟩]⟩,
   ⟨0x04C, 1, [⟨0, 8, .ro, 0, false, 0, 0xFFFFFFFF⟩, ⟨31, 1, .w1c, 0, false, 0, 0xFFFFFFFF⟩]⟩,
   ⟨0x080, 16, [⟨0, 16, .rw, 0, false, 0, 0xFFFFFFFF⟩]⟩,
   ⟨0x050, 1, [⟨0, 1, .rw, 0, false, 0, 0xFFFFFFFF⟩]⟩,
   ⟨0x054, 1, [⟨0, 32, .rw, 0, false, 0, 0xFFFFFFFF⟩]⟩,
   ⟨0x058, 1, [⟨0, 32, .rw, 0, false, 0, 0xFFFFFFFF⟩]⟩,
   ⟨0x05C, 1, [⟨0, 1, .w1c, 0, false, 0, 0xFFFFFFFF⟩, ⟨1, 1, .w1c, 0, false, 0, 0xFFFFFFFF⟩, ⟨2, 1, .w1c, 0, false, 0, 0xFFFFFFFF⟩, ⟨3, 1, .w1c, 0, false, 0, 0xFFFFFFFF⟩, ⟨4, 1, .w1c, 0, false, 0, 0xFFFFFFFF⟩]⟩]

/-- Registers of SPIRE page offset 0x01. -/
def regsSpire01 : List Rd :=
  [⟨0x040, 1, [⟨0, 1, .ro, 0, false, 0, 0xFFFFFFFF⟩, ⟨1, 7, .ro, 0, false, 0, 0xFFFFFFFF⟩, ⟨8, 4, .ro, 0, false, 0, 0xFFFFFFFF⟩, ⟨12, 4, .ro, 0, false, 0, 0xFFFFFFFF⟩, ⟨16, 1, .ro, 0, false, 0, 0xFFFFFFFF⟩]⟩,
   ⟨0x044, 3, [⟨0, 32, .ro, 0, false, 0, 0xFFFFFFFF⟩]⟩,
   ⟨0x080, 32, [⟨0, 7, .ro, 0, false, 0, 0xFFFFFFFF⟩, ⟨16, 7, .ro, 0, false, 0, 0xFFFFFFFF⟩, ⟨7, 1, .ro, 0, false, 0, 0xFFFFFFFF⟩, ⟨23, 1, .ro, 0, false, 0, 0xFFFFFFFF⟩, ⟨8, 3, .ro, 0, false, 0, 0xFFFFFFFF⟩, ⟨24, 3, .ro, 0, false, 0, 0xFFFFFFFF⟩, ⟨11, 3, .ro, 0, false, 0, 0xFFFFFFFF⟩, ⟨27, 3, .ro, 0, false, 0, 0xFFFFFFFF⟩]⟩]

/-- Registers of SPIRE page offset 0x03. -/
def regsSpire03 : List Rd :=
  [⟨0x040, 1, [⟨0, 14, .rw, 0, false, 0, 0xFFFFFFFF⟩, ⟨16, 1, .rw, 0, false, 0, 0xFFFFFFFF⟩]⟩,
   ⟨0x050, 1, [⟨0, 32, .rw, 0, false, 0, 0xFFFFFFFF⟩]⟩,
   ⟨0x054, 1, [⟨0, 32, .rw, 0, false, 0, 0xFFFFFFFF⟩]⟩,
   ⟨0x058, 1, [⟨0, 14, .rw, 0, false, 0, 0xFFFFFFFF⟩, ⟨14, 15, .rw, 0, false, 0, 0xFFFFFFFF⟩, ⟨30, 1, .ro, 0, false, 0, 0xFFFFFFFF⟩, ⟨31, 1, .wo, 0, false, 0, 0xFFFFFFFF⟩]⟩,
   ⟨0x080, 8, [⟨0, 32, .rw, 0, false, 0, 0xFFFFFFFF⟩]⟩]

/-- Registers of SPIRE page offset 0x04. -/
def regsSpire04 : List Rd :=
  [⟨0x040, 1, [⟨0, 5, .ro, 0, false, 0, 0xFFFFFFFF⟩, ⟨5, 1, .ro, 0, false, 0, 0xFFFFFFFF⟩, ⟨6, 7, .ro, 0, false, 0, 0xFFFFFFFF⟩]⟩,
   ⟨0x044, 1, [⟨0, 32, .rc, 0, false, 0, 0xFFFFFFFF⟩]⟩,
   ⟨0x048, 1, [⟨0, 32, .rc, 0, false, 0, 0xFFFFFFFF⟩]⟩,
   ⟨0x050, 1, [⟨0, 12, .rw, 0, false, 0, 0xFFFFFFFF⟩, ⟨16, 1, .rw, 0, false, 0, 0xFFFFFFFF⟩]⟩,
   ⟨0x054, 1, [⟨0, 32, .rw, 0, true, 0, 0xFFFFFFFF⟩]⟩,
   ⟨0x058, 1, [⟨0, 32, .rw, 0, false, 0, 0xFFFFFFFF⟩]⟩,
   ⟨0x05C, 1, [⟨0, 32, .rw, 0, false, 0, 0xFFFFFFFF⟩]⟩,
   ⟨0x060, 1, [⟨0, 12, .rw, 0, false, 0, 0xFFFFFFFF⟩, ⟨12, 13, .rw, 0, false, 0, 0xFFFFFFFF⟩, ⟨30, 1, .ro, 0, false, 0, 0xFFFFFFFF⟩, ⟨31, 1, .wo, 0, false, 0, 0xFFFFFFFF⟩]⟩]

/-- Registers of SPIRE page offset 0x05. -/
def regsSpire05 : List Rd :=
  [⟨0x040, 1, [⟨0, 8, .rw, 0, false, 0, 0xFFFFFFFF⟩]⟩,
   ⟨0x044, 1, [⟨0, 32, .ro, 0, false, 0, 0xFFFFFFFF⟩]⟩,
   ⟨0x048, 1, [⟨0, 32, .rc, 0, false, 0, 0xFFFFFFFF⟩]⟩,
   ⟨0x080, 4, [⟨0, 32, .rw, 0, true, 0, 0xFFFFFFFF⟩]⟩]

/-- Registers of SPIRE page offset 0x06. -/
def regsSpire06 : List Rd :=
  [⟨0x040, 1, [⟨0, 1, .wo, 0, false, 0, 0xFFFFFFFF⟩]⟩,
   ⟨0x044, 1, [⟨0, 1, .ro, 0, false, 0, 0xFFFFFFFF⟩]⟩,
   ⟨0x048, 1, [⟨0, 6, .rw, 0, false, 0, 63⟩, ⟨6, 4, .rw, 0, false, 0, 0xFFFFFFFF⟩]⟩,
   ⟨0x04C, 1, [⟨0, 16, .rc, 0, false, 0, 0xFFFFFFFF⟩]⟩,
   ⟨0x050, 1, [⟨0, 4, .ro, 0, false, 0, 0xFFFFFFFF⟩, ⟨4, 4, .ro, 0, false, 0, 0xFFFFFFFF⟩, ⟨8, 4, .ro, 0, false, 0, 0xFFFFFFFF⟩, ⟨12, 3, .ro, 0, false, 0, 0xFFFFFFFF⟩, ⟨15, 3, .ro, 0, false, 0, 0xFFFFFFFF⟩]⟩,
   ⟨0x054, 1, [⟨0, 6, .ro, 0, false, 0, 0xFFFFFFFF⟩, ⟨6, 4, .ro, 0, false, 0, 0xFFFFFFFF⟩, ⟨10, 12, .ro, 0, false, 0, 0xFFFFFFFF⟩, ⟨22, 3, .ro, 0, false, 0, 0xFFFFFFFF⟩, ⟨25, 7, .ro, 0, false, 0, 0xFFFFFFFF⟩]⟩,
   ⟨0x060, 1, [⟨0, 6, .rw, 0, false, 0, 0xFFFFFFFF⟩, ⟨6, 16, .rw, 0, false, 0, 49151⟩, ⟨31, 1, .wo, 0, false, 0, 0xFFFFFFFF⟩]⟩,
   ⟨0x064, 1, [⟨0, 1, .ro, 0, false, 0, 0xFFFFFFFF⟩, ⟨1, 1, .w1c, 0, false, 0, 0xFFFFFFFF⟩, ⟨2, 1, .w1c, 0, false, 0, 0xFFFFFFFF⟩, ⟨3, 1, .w1c, 0, false, 0, 0xFFFFFFFF⟩]⟩,
   ⟨0x080, 1, [⟨0, 6, .rw, 0, false, 0, 0xFFFFFFFF⟩, ⟨6, 4, .rw, 0, false, 0, 0xFFFFFFFF⟩, ⟨16, 1, .rw, 0, false, 0, 0xFFFFFFFF⟩]⟩,
   ⟨0x084, 8, [⟨0, 32, .rw, 0, false, 0, 0xFFFFFFFF⟩]⟩,
   ⟨0x0A4, 1, [⟨0, 16, .rw, 0, false, 0, 0xFFFFFFFF⟩]⟩]

/-- Registers of SPIRE page offset 0x07. -/
def regsSpire07 : List Rd :=
  [⟨0x040, 1, [⟨0, 8, .rw, 10, false, 1, 255⟩, ⟨8, 1, .rw, 1, false, 0, 0xFFFFFFFF⟩]⟩,
   ⟨0x044, 1, [⟨0, 1, .ro, 0, false, 0, 0xFFFFFFFF⟩, ⟨1, 1, .ro, 0, false, 0, 0xFFFFFFFF⟩, ⟨2, 1, .ro, 0, false, 0, 0xFFFFFFFF⟩, ⟨8, 3, .ro, 4, false, 0, 0xFFFFFFFF⟩]⟩,
   ⟨0x048, 1, [⟨0, 6, .rw, 0, false, 0, 0xFFFFFFFF⟩, ⟨6, 6, .rw, 0, false, 0, 36⟩]⟩,
   ⟨0x04C, 1, [⟨0, 3, .ro, 4, false, 0, 0xFFFFFFFF⟩, ⟨3, 1, .ro, 0, false, 0, 0xFFFFFFFF⟩, ⟨8, 8, .ro, 0, false, 0, 0xFFFFFFFF⟩]⟩]

/-- Registers of SPIRE page offset 0x08. -/
def regsSpire08 : List Rd :=
  [⟨0x040, 1, [⟨0, 10, .ro, 220, false, 0, 0xFFFFFFFF⟩]⟩,
   ⟨0x044, 1, [⟨0, 10, .ro, 220, false, 0, 0xFFFFFFFF⟩]⟩,
   ⟨0x048, 1, [⟨0, 10, .ro, 0, false, 0, 0xFFFFFFFF⟩]⟩,
   ⟨0x04C, 1, [⟨0, 2, .rw, 0, true, 0, 2⟩]⟩,
   ⟨0x050, 1, [⟨0, 5, .ro, 16, false, 0, 0xFFFFFFFF⟩, ⟨8, 5, .ro, 16, false, 0, 0xFFFFFFFF⟩, ⟨16, 5, .ro, 16, false, 0, 0xFFFFFFFF⟩, ⟨24, 5, .ro, 16, false, 0, 0xFFFFFFFF⟩]⟩]

/-- Registers of GATE page offset 0x00. -/
def regsGate00 : List Rd :=
  [⟨0x040, 1, [⟨0, 2, .rw, 0, false, 0, 0xFFFFFFFF⟩]⟩,
   ⟨0x044, 1, [⟨0, 2, .ro, 0, false, 0, 0xFFFFFFFF⟩, ⟨2, 1, .ro, 0, false, 0, 0xFFFFFFFF⟩, ⟨3, 6, .ro, 0, false, 0, 0xFFFFFFFF⟩]⟩,
   ⟨0x048, 1, [⟨0, 32, .ro, 0, false, 0, 0xFFFFFFFF⟩]⟩,
   ⟨0x04C, 1, [⟨0, 16, .ro, 0, false, 0, 0xFFFFFFFF⟩]⟩,
   ⟨0x050, 1, [⟨0, 1, .wo, 0, false, 0, 0xFFFFFFFF⟩]⟩,
   ⟨0x054, 1, [⟨0, 9, .ro, 0, false, 0, 0xFFFFFFFF⟩, ⟨9, 1, .ro, 0, false, 0, 0xFFFFFFFF⟩]⟩]

/-- Registers of GATE page offset 0x01. -/
def regsGate01 : List Rd :=
  [⟨0x040, 1, [⟨0, 6, .rw, 0, false, 0, 47⟩]⟩,
   ⟨0x044, 1, [⟨0, 16, .rc, 0, false, 0, 0xFFFFFFFF⟩]⟩,
   ⟨0x048, 1, [⟨0, 32, .ro, 0, false, 0, 0xFFFFFFFF⟩]⟩,
   ⟨0x04C, 1, [⟨0, 2, .ro, 0, false, 0, 0xFFFFFFFF⟩, ⟨2, 6, .ro, 0, false, 0, 0xFFFFFFFF⟩, ⟨8, 1, .ro, 0, false, 0, 0xFFFFFFFF⟩, ⟨31, 1, .w1c, 0, false, 0, 0xFFFFFFFF⟩]⟩,
   ⟨0x050, 1, [⟨0, 32, .ro, 0, false, 0, 0xFFFFFFFF⟩]⟩,
   ⟨0x054, 1, [⟨0, 2, .ro, 0, false, 0, 0xFFFFFFFF⟩, ⟨2, 1, .ro, 0, false, 0, 0xFFFFFFFF⟩, ⟨31, 1, .w1c, 0, false, 0, 0xFFFFFFFF⟩]⟩,
   ⟨0x080, 1, [⟨0, 6, .rw, 0, false, 0, 47⟩, ⟨16, 1, .rw, 0, false, 0, 0xFFFFFFFF⟩]⟩,
   ⟨0x084, 16, [⟨0, 32, .rw, 0, false, 0, 0xFFFFFFFF⟩]⟩,
   ⟨0x0C4, 2, [⟨0, 32, .rw, 0, false, 0, 0xFFFFFFFF⟩]⟩]

/-- Registers of GATE page offset 0x02. -/
def regsGate02 : List Rd :=
  [⟨0x040, 1, [⟨0, 8, .rw, 12, false, 1, 255⟩, ⟨8, 1, .rw, 1, false, 0, 0xFFFFFFFF⟩]⟩,
   ⟨0x044, 1, [⟨0, 16, .ro, 0, false, 0, 0xFFFFFFFF⟩, ⟨16, 7, .ro, 0, false, 0, 0xFFFFFFFF⟩, ⟨23, 1, .ro, 0, false, 0, 0xFFFFFFFF⟩]⟩,
   ⟨0x048, 1, [⟨0, 32, .rc, 0, false, 0, 0xFFFFFFFF⟩]⟩,
   ⟨0x04C, 1, [⟨0, 32, .rc, 0, false, 0, 0xFFFFFFFF⟩]⟩,
   ⟨0x050, 1, [⟨0, 32, .rc, 0, false, 0, 0xFFFFFFFF⟩]⟩,
   ⟨0x058, 1, [⟨0, 8, .rw, 1, false, 1, 255⟩, ⟨8, 8, .rw, 4, false, 0, 0xFFFFFFFF⟩]⟩,
   ⟨0x05C, 1, [⟨0, 16, .ro, 0, false, 0, 0xFFFFFFFF⟩, ⟨16, 6, .ro, 0, false, 0, 0xFFFFFFFF⟩]⟩]

/-- Registers of GATE page offset 0x03. -/
def regsGate03 : List Rd :=
  [⟨0x040, 1, [⟨0, 6, .rw, 0, false, 0, 47⟩, ⟨6, 1, .rw, 0, false, 0, 0xFFFFFFFF⟩, ⟨7, 4, .rw, 0, false, 0, 0xFFFFFFFF⟩, ⟨11, 16, .rw, 0, false, 0, 0xFFFFFFFF⟩, ⟨31, 1, .wo, 0, false, 0, 0xFFFFFFFF⟩]⟩,
   ⟨0x044, 1, [⟨0, 1, .ro, 0, false, 0, 0xFFFFFFFF⟩, ⟨1, 1, .w1c, 0, false, 0, 0xFFFFFFFF⟩, ⟨2, 1, .w1c, 0, false, 0, 0xFFFFFFFF⟩, ⟨3, 1, .w1c, 0, false, 0, 0xFFFFFFFF⟩]⟩,
   ⟨0x048, 1, [⟨0, 7, .ro, 0, false, 0, 0xFFFFFFFF⟩, ⟨8, 7, .ro, 0, false, 0, 0xFFFFFFFF⟩, ⟨16, 7, .ro, 0, false, 0, 0xFFFFFFFF⟩, ⟨24, 7, .ro, 64, false, 0, 0xFFFFFFFF⟩]⟩]

/-- Registers of PLINTH page offset 0x00. -/
def regsPlinth00 : List Rd :=
  [⟨0x040, 1, [⟨0, 1, .rw, 1, false, 0, 0xFFFFFFFF⟩, ⟨4, 5, .rw, 16, false, 1, 31⟩, ⟨12, 8, .rw, 200, false, 25, 255⟩, ⟨20, 8, .rw, 10, false, 2, 255⟩]⟩,
   ⟨0x044, 1, [⟨0, 5, .ro, 0, false, 0, 0xFFFFFFFF⟩, ⟨5, 1, .ro, 0, false, 0, 0xFFFFFFFF⟩, ⟨6, 1, .ro, 0, false, 0, 0xFFFFFFFF⟩, ⟨8, 11, .ro, 0, false, 0, 0xFFFFFFFF⟩, ⟨19, 11, .ro, 0, false, 0, 0xFFFFFFFF⟩]⟩,
   ⟨0x048, 1, [⟨0, 24, .ro, 0, false, 0, 0xFFFFFFFF⟩]⟩]

/-- Registers of PLINTH page offset 0x01. -/
def regsPlinth01 : List Rd :=
  [⟨0x040, 1, [⟨0, 5, .rw, 0, false, 0, 23⟩, ⟨8, 6, .rw, 0, false, 0, 47⟩]⟩,
   ⟨0x044, 1, [⟨0, 4, .rw, 0, true, 0, 0xFFFFFFFF⟩, ⟨4, 4, .ro, 0, false, 0, 0xFFFFFFFF⟩]⟩,
   ⟨0x048, 1, [⟨0, 4, .ro, 0, false, 0, 0xFFFFFFFF⟩, ⟨4, 1, .ro, 0, false, 0, 0xFFFFFFFF⟩, ⟨5, 1, .ro, 0, false, 0, 0xFFFFFFFF⟩, ⟨6, 6, .ro, 0, false, 0, 0xFFFFFFFF⟩]⟩,
   ⟨0x04C, 1, [⟨0, 6, .rw, 0, true, 0, 0xFFFFFFFF⟩, ⟨6, 1, .rw, 0, true, 0, 0xFFFFFFFF⟩]⟩]

/-- Registers of PLINTH page offset 0x02. -/
def regsPlinth02 : List Rd :=
  [⟨0x040, 1, [⟨0, 5, .rw, 0, false, 0, 23⟩, ⟨8, 6, .rw, 0, false, 0, 47⟩, ⟨14, 2, .rw, 0, false, 0, 0xFFFFFFFF⟩, ⟨16, 1, .rw, 0, false, 0, 0xFFFFFFFF⟩]⟩,
   ⟨0x044, 1, [⟨0, 2, .ro, 0, false, 0, 0xFFFFFFFF⟩, ⟨2, 1, .ro, 0, false, 0, 0xFFFFFFFF⟩, ⟨4, 10, .ro, 0, false, 0, 0xFFFFFFFF⟩, ⟨14, 6, .ro, 0, false, 0, 0xFFFFFFFF⟩]⟩,
   ⟨0x048, 1, [⟨0, 32, .rc, 0, false, 0, 0xFFFFFFFF⟩]⟩,
   ⟨0x04C, 1, [⟨0, 32, .rc, 0, false, 0, 0xFFFFFFFF⟩]⟩,
   ⟨0x050, 1, [⟨0, 32, .rc, 0, false, 0, 0xFFFFFFFF⟩]⟩,
   ⟨0x054, 1, [⟨0, 32, .rc, 0, false, 0, 0xFFFFFFFF⟩]⟩,
   ⟨0x058, 1, [⟨0, 32, .ro, 0, false, 0, 0xFFFFFFFF⟩]⟩]

/-- Registers of PLINTH page offset 0x03. -/
def regsPlinth03 : List Rd :=
  [⟨0x040, 1, [⟨0, 5, .rw, 0, false, 0, 23⟩, ⟨8, 4, .rw, 0, false, 0, 8⟩]⟩,
   ⟨0x044, 1, [⟨0, 3, .ro, 4, false, 0, 0xFFFFFFFF⟩, ⟨3, 1, .ro, 0, false, 0, 0xFFFFFFFF⟩, ⟨4, 8, .ro, 0, false, 0, 0xFFFFFFFF⟩, ⟨12, 6, .ro, 0, false, 0, 0xFFFFFFFF⟩]⟩,
   ⟨0x048, 1, [⟨0, 8, .rw, 10, false, 1, 255⟩, ⟨8, 1, .rw, 1, false, 0, 0xFFFFFFFF⟩]⟩]

/-- Registers of PLINTH page offset 0x04. -/
def regsPlinth04 : List Rd :=
  [⟨0x040, 1, [⟨0, 1, .rw, 0, false, 0, 0xFFFFFFFF⟩]⟩,
   ⟨0x044, 1, [⟨0, 3, .ro, 6, false, 0, 0xFFFFFFFF⟩, ⟨3, 1, .ro, 0, false, 0, 0xFFFFFFFF⟩, ⟨4, 6, .ro, 0, false, 0, 0xFFFFFFFF⟩, ⟨10, 6, .ro, 0, false, 0, 0xFFFFFFFF⟩]⟩]

/-- Registers of LANTERN page offset 0x00. -/
def regsLantern00 : List Rd :=
  [⟨0x040, 1, [⟨0, 1, .rw, 1, false, 0, 0xFFFFFFFF⟩, ⟨1, 1, .rw, 1, false, 0, 0xFFFFFFFF⟩, ⟨2, 2, .wo, 0, false, 0, 0xFFFFFFFF⟩]⟩,
   ⟨0x044, 1, [⟨0, 3, .ro, 0, false, 0, 0xFFFFFFFF⟩, ⟨3, 3, .ro, 0, false, 0, 0xFFFFFFFF⟩, ⟨6, 3, .ro, 0, false, 0, 0xFFFFFFFF⟩, ⟨9, 2, .ro, 0, false, 0, 0xFFFFFFFF⟩, ⟨11, 1, .ro, 0, false, 0, 0xFFFFFFFF⟩]⟩,
   ⟨0x048, 1, [⟨0, 8, .rw, 15, true, 0, 0xFFFFFFFF⟩, ⟨8, 8, .rw, 30, true, 0, 0xFFFFFFFF⟩, ⟨16, 8, .rw, 60, true, 0, 0xFFFFFFFF⟩]⟩,
   ⟨0x04C, 1, [⟨0, 1, .rw, 0, false, 0, 0xFFFFFFFF⟩, ⟨8, 6, .rw, 0, false, 0, 47⟩]⟩,
   ⟨0x050, 1, [⟨0, 10, .ro, 0, false, 0, 0xFFFFFFFF⟩, ⟨10, 10, .ro, 0, false, 0, 0xFFFFFFFF⟩, ⟨20, 2, .ro, 0, false, 0, 0xFFFFFFFF⟩, ⟨22, 7, .ro, 0, false, 0, 0xFFFFFFFF⟩]⟩,
   ⟨0x054, 1, [⟨0, 16, .ro, 0, false, 0, 0xFFFFFFFF⟩, ⟨16, 16, .ro, 0, false, 0, 0xFFFFFFFF⟩]⟩]

/-- Registers of PLINTH page offset 0x10. -/
def regsPlinth10 : List Rd :=
  [⟨0x040, 1, [⟨0, 8, .rw, 100, false, 1, 255⟩, ⟨8, 1, .rw, 1, false, 0, 0xFFFFFFFF⟩, ⟨9, 1, .rw, 1, false, 0, 0xFFFFFFFF⟩, ⟨10, 1, .rw, 1, true, 0, 0xFFFFFFFF⟩]⟩,
   ⟨0x044, 1, [⟨0, 8, .ro, 0, false, 0, 0xFFFFFFFF⟩, ⟨8, 2, .ro, 0, false, 0, 0xFFFFFFFF⟩, ⟨16, 16, .ro, 0, false, 0, 0xFFFFFFFF⟩]⟩,
   ⟨0x048, 1, [⟨0, 5, .rw, 0, false, 0, 23⟩, ⟨8, 2, .rw, 0, false, 0, 0xFFFFFFFF⟩, ⟨10, 1, .rw, 0, false, 0, 0xFFFFFFFF⟩]⟩,
   ⟨0x04C, 1, [⟨0, 2, .ro, 1, false, 0, 0xFFFFFFFF⟩, ⟨2, 1, .ro, 0, false, 0, 0xFFFFFFFF⟩, ⟨3, 1, .ro, 0, false, 0, 0xFFFFFFFF⟩, ⟨4, 1, .ro, 0, false, 0, 0xFFFFFFFF⟩, ⟨6, 13, .ro, 0, false, 0, 0xFFFFFFFF⟩]⟩,
   ⟨0x050, 1, [⟨0, 16, .ro, 0, false, 0, 0xFFFFFFFF⟩, ⟨16, 16, .ro, 0, false, 0, 0xFFFFFFFF⟩]⟩,
   ⟨0x054, 1, [⟨0, 6, .rw, 0, false, 0, 49⟩]⟩,
   ⟨0x058, 1, [⟨0, 12, .ro, 0, false, 0, 0xFFFFFFFF⟩, ⟨12, 6, .ro, 63, false, 0, 0xFFFFFFFF⟩, ⟨18, 2, .ro, 0, false, 0, 0xFFFFFFFF⟩]⟩,
   ⟨0x05C, 1, [⟨0, 1, .wo, 0, false, 0, 0xFFFFFFFF⟩]⟩]

/-- Registers of PLINTH page offset 0x11. -/
def regsPlinth11 : List Rd :=
  [⟨0x040, 1, [⟨0, 16, .ro, 0, false, 0, 0xFFFFFFFF⟩]⟩,
   ⟨0x080, 96, [⟨0, 16, .ro, 32768, false, 0, 0xFFFFFFFF⟩, ⟨16, 16, .ro, 32768, false, 0, 0xFFFFFFFF⟩]⟩]

/-- Registers of OCULUS page offset 0x00. -/
def regsOculus00 : List Rd :=
  [⟨0x040, 1, [⟨0, 16, .ro, 0, false, 0, 0xFFFFFFFF⟩, ⟨16, 1, .ro, 0, false, 0, 0xFFFFFFFF⟩, ⟨17, 5, .ro, 0, false, 0, 0xFFFFFFFF⟩]⟩,
   ⟨0x044, 1, [⟨0, 1, .rw, 0, false, 0, 0xFFFFFFFF⟩, ⟨1, 1, .rw, 1, false, 0, 0xFFFFFFFF⟩]⟩,
   ⟨0x048, 1, [⟨0, 1, .ro, 1, false, 0, 0xFFFFFFFF⟩, ⟨1, 1, .ro, 0, false, 0, 0xFFFFFFFF⟩]⟩]

/-- Registers of OCULUS page offset 0x01. -/
def regsOculus01 : List Rd :=
  [⟨0x040, 1, [⟨0, 4, .rw, 0, false, 0, 0xFFFFFFFF⟩]⟩,
   ⟨0x044, 1, [⟨0, 1, .rw, 1, false, 0, 0xFFFFFFFF⟩, ⟨1, 1, .wo, 0, false, 0, 0xFFFFFFFF⟩, ⟨8, 8, .rw, 100, false, 25, 255⟩, ⟨16, 5, .rw, 16, false, 1, 31⟩, ⟨21, 8, .rw, 40, false, 10, 255⟩]⟩,
   ⟨0x048, 1, [⟨0, 3, .ro, 0, false, 0, 0xFFFFFFFF⟩, ⟨3, 8, .ro, 0, false, 0, 0xFFFFFFFF⟩]⟩,
   ⟨0x04C, 1, [⟨0, 16, .ro, 0, false, 0, 0xFFFFFFFF⟩, ⟨16, 5, .ro, 0, false, 0, 0xFFFFFFFF⟩, ⟨21, 4, .ro, 0, false, 0, 0xFFFFFFFF⟩]⟩,
   ⟨0x050, 1, [⟨0, 16, .ro, 0, false, 0, 0xFFFFFFFF⟩]⟩,
   ⟨0x054, 1, [⟨0, 32, .rc, 0, false, 0, 0xFFFFFFFF⟩]⟩,
   ⟨0x058, 1, [⟨0, 32, .rc, 0, false, 0, 0xFFFFFFFF⟩]⟩,
   ⟨0x05C, 1, [⟨0, 32, .rc, 0, false, 0, 0xFFFFFFFF⟩]⟩,
   ⟨0x060, 1, [⟨0, 32, .rc, 0, false, 0, 0xFFFFFFFF⟩]⟩,
   ⟨0x064, 1, [⟨0, 32, .rc, 0, false, 0, 0xFFFFFFFF⟩]⟩,
   ⟨0x068, 1, [⟨0, 32, .ro, 0, false, 0, 0xFFFFFFFF⟩]⟩,
   ⟨0x06C, 1, [⟨0, 16, .ro, 0, false, 0, 0xFFFFFFFF⟩]⟩,
   ⟨0x070, 1, [⟨0, 32, .ro, 0, false, 0, 0xFFFFFFFF⟩]⟩,
   ⟨0x074, 1, [⟨0, 16, .ro, 0, false, 0, 0xFFFFFFFF⟩]⟩,
   ⟨0x078, 1, [⟨0, 13, .ro, 0, false, 0, 0xFFFFFFFF⟩, ⟨16, 13, .rc, 0, false, 0, 0xFFFFFFFF⟩]⟩]

/-- Registers of OCULUS page offset 0x02. -/
def regsOculus02 : List Rd :=
  [⟨0x040, 1, [⟨0, 16, .rw, 0, false, 0, 0xFFFFFFFF⟩, ⟨16, 1, .rw, 0, false, 0, 0xFFFFFFFF⟩]⟩,
   ⟨0x044, 1, [⟨0, 32, .rw, 0, true, 0, 0xFFFFFFFF⟩]⟩,
   ⟨0x048, 1, [⟨0, 32, .rw, 0, false, 0, 0xFFFFFFFF⟩]⟩,
   ⟨0x04C, 1, [⟨0, 32, .rw, 0, false, 0, 0xFFFFFFFF⟩]⟩,
   ⟨0x050, 1, [⟨0, 16, .rw, 0, false, 0, 0xFFFFFFFF⟩]⟩,
   ⟨0x054, 1, [⟨0, 17, .rw, 0, false, 0, 0xFFFFFFFF⟩, ⟨30, 1, .ro, 0, false, 0, 0xFFFFFFFF⟩, ⟨31, 1, .wo, 0, false, 0, 0xFFFFFFFF⟩]⟩]

/-- Registers of OCULUS page offset 0x03. -/
def regsOculus03 : List Rd :=
  [⟨0x040, 1, [⟨0, 12, .rw, 0, false, 0, 0xFFFFFFFF⟩, ⟨12, 6, .rw, 0, false, 0, 0xFFFFFFFF⟩]⟩,
   ⟨0x044, 1, [⟨0, 7, .rw, 0, true, 0, 64⟩, ⟨8, 12, .rw, 0, true, 0, 0xFFFFFFFF⟩]⟩,
   ⟨0x048, 1, [⟨0, 16, .rw, 0, true, 0, 0xFFFFFFFF⟩]⟩,
   ⟨0x050, 1, [⟨0, 32, .rw, 0, false, 0, 0xFFFFFFFF⟩]⟩,
   ⟨0x054, 1, [⟨0, 32, .rw, 0, false, 0, 0xFFFFFFFF⟩]⟩,
   ⟨0x058, 1, [⟨0, 12, .rw, 0, false, 0, 0xFFFFFFFF⟩, ⟨12, 13, .rw, 0, false, 0, 0xFFFFFFFF⟩, ⟨30, 1, .ro, 0, false, 0, 0xFFFFFFFF⟩, ⟨31, 1, .wo, 0, false, 0, 0xFFFFFFFF⟩]⟩]

/-- Registers of OCULUS page offset 0x04. -/
def regsOculus04 : List Rd :=
  [⟨0x040, 11, [⟨0, 11, .rw, 64, false, 16, 1024⟩]⟩,
   ⟨0x06C, 1, [⟨0, 13, .ro, 3392, false, 0, 0xFFFFFFFF⟩]⟩]

/-- Registers of OCULUS page offset 0x05. -/
def regsOculus05 : List Rd :=
  [⟨0x040, 1, [⟨0, 8, .rw, 64, false, 1, 255⟩, ⟨8, 1, .rw, 1, false, 0, 0xFFFFFFFF⟩]⟩,
   ⟨0x044, 1, [⟨0, 16, .rw, 0, false, 0, 0xFFFFFFFF⟩, ⟨16, 1, .rw, 0, false, 0, 0xFFFFFFFF⟩]⟩,
   ⟨0x048, 1, [⟨0, 32, .ro, 0, false, 0, 0xFFFFFFFF⟩]⟩]

/-- Registers of OCULUS page offset 0x08. -/
def regsOculus08 : List Rd :=
  [⟨0x040, 1, [⟨0, 12, .rw, 0, false, 0, 0xFFFFFFFF⟩]⟩,
   ⟨0x044, 1, [⟨0, 1, .ro, 0, false, 0, 0xFFFFFFFF⟩, ⟨1, 3, .ro, 0, false, 0, 0xFFFFFFFF⟩, ⟨4, 1, .rw, 0, true, 0, 0xFFFFFFFF⟩, ⟨5, 1, .rw, 0, true, 0, 0xFFFFFFFF⟩, ⟨6, 4, .ro, 0, false, 0, 0xFFFFFFFF⟩, ⟨10, 1, .ro, 0, false, 0, 0xFFFFFFFF⟩]⟩]

/-- Registers of OCULUS page offset 0x09. -/
def regsOculus09 : List Rd :=
  [⟨0x040, 1, [⟨0, 12, .rw, 0, false, 0, 0xFFFFFFFF⟩, ⟨12, 4, .rw, 0, false, 0, 0xFFFFFFFF⟩, ⟨16, 1, .rw, 0, false, 0, 0xFFFFFFFF⟩]⟩,
   ⟨0x044, 4, [⟨0, 32, .rw, 0, false, 0, 0xFFFFFFFF⟩]⟩,
   ⟨0x058, 1, [⟨0, 32, .rw, 0, false, 0, 0xFFFFFFFF⟩]⟩,
   ⟨0x05C, 1, [⟨0, 32, .rw, 0, false, 0, 0xFFFFFFFF⟩]⟩,
   ⟨0x060, 1, [⟨0, 16, .rw, 0, false, 0, 0xFFFFFFFF⟩]⟩,
   ⟨0x064, 1, [⟨0, 17, .rw, 0, false, 0, 0xFFFFFFFF⟩, ⟨30, 1, .ro, 0, false, 0, 0xFFFFFFFF⟩, ⟨31, 1, .wo, 0, false, 0, 0xFFFFFFFF⟩]⟩]

/-- Registers of OCULUS page offset 0x0A. -/
def regsOculus0A : List Rd :=
  [⟨0x040, 1, [⟨0, 12, .rw, 0, false, 0, 0xFFFFFFFF⟩, ⟨12, 8, .rw, 0, false, 0, 0xFFFFFFFF⟩]⟩,
   ⟨0x044, 1, [⟨0, 32, .rw, 0, false, 0, 0xFFFFFFFF⟩]⟩]

/-- Registers of OCULUS page offset 0x0B. -/
def regsOculus0B : List Rd :=
  [⟨0x040, 1, [⟨0, 1, .rw, 1, false, 0, 0xFFFFFFFF⟩, ⟨1, 1, .rw, 1, false, 0, 0xFFFFFFFF⟩, ⟨2, 6, .rw, 16, false, 1, 63⟩, ⟨8, 13, .rw, 4096, false, 1, 4096⟩]⟩,
   ⟨0x044, 1, [⟨0, 8, .rw, 100, false, 10, 255⟩, ⟨8, 8, .rw, 20, false, 1, 255⟩, ⟨16, 4, .rw, 4, true, 1, 15⟩]⟩,
   ⟨0x048, 1, [⟨0, 10, .ro, 0, false, 0, 0xFFFFFFFF⟩, ⟨10, 17, .ro, 0, false, 0, 0xFFFFFFFF⟩]⟩,
   ⟨0x04C, 1, [⟨0, 15, .ro, 0, false, 0, 0xFFFFFFFF⟩]⟩]

/-- Registers of OCULUS page offset 0x0C. -/
def regsOculus0C : List Rd :=
  [⟨0x040, 1, [⟨0, 16, .ro, 0, false, 0, 0xFFFFFFFF⟩, ⟨16, 12, .ro, 0, false, 0, 0xFFFFFFFF⟩]⟩,
   ⟨0x044, 1, [⟨0, 8, .ro, 0, false, 0, 0xFFFFFFFF⟩, ⟨8, 6, .ro, 0, false, 0, 0xFFFFFFFF⟩, ⟨31, 1, .w1c, 0, false, 0, 0xFFFFFFFF⟩]⟩,
   ⟨0x048, 1, [⟨0, 32, .ro, 0, false, 0, 0xFFFFFFFF⟩]⟩,
   ⟨0x04C, 1, [⟨0, 16, .ro, 0, false, 0, 0xFFFFFFFF⟩]⟩]

/-- Registers of GLOBAL page offset 0x03. -/
def regsGlobal03 : List Rd :=
  [⟨0x040, 1, [⟨0, 1, .rw, 0, true, 0, 0xFFFFFFFF⟩, ⟨1, 7, .rw, 80, false, 64, 96⟩, ⟨8, 8, .rw, 112, true, 64, 128⟩, ⟨16, 4, .rw, 4, false, 1, 15⟩]⟩,
   ⟨0x044, 1, [⟨0, 11, .rw, 256, false, 1, 1024⟩]⟩,
   ⟨0x048, 1, [⟨0, 1, .ro, 0, false, 0, 0xFFFFFFFF⟩, ⟨1, 1, .ro, 0, false, 0, 0xFFFFFFFF⟩, ⟨2, 1, .ro, 0, false, 0, 0xFFFFFFFF⟩, ⟨3, 1, .w1c, 0, false, 0, 0xFFFFFFFF⟩]⟩,
   ⟨0x04C, 1, [⟨0, 2, .rw, 0, false, 0, 2⟩]⟩,
   ⟨0x050, 1, [⟨0, 6, .rw, 0, false, 0, 39⟩]⟩,
   ⟨0x054, 1, [⟨0, 8, .ro, 112, false, 0, 0xFFFFFFFF⟩, ⟨8, 1, .ro, 0, false, 0, 0xFFFFFFFF⟩, ⟨9, 3, .ro, 0, false, 0, 0xFFFFFFFF⟩, ⟨12, 1, .ro, 0, false, 0, 0xFFFFFFFF⟩]⟩,
   ⟨0x058, 1, [⟨0, 32, .rc, 0, false, 0, 0xFFFFFFFF⟩]⟩,
   ⟨0x05C, 1, [⟨0, 16, .ro, 0, false, 0, 0xFFFFFFFF⟩, ⟨16, 16, .ro, 0, false, 0, 0xFFFFFFFF⟩]⟩]

/-- Registers of GLOBAL page offset 0x04. -/
def regsGlobal04 : List Rd :=
  [⟨0x040, 1, [⟨0, 2, .rw, 0, false, 0, 2⟩, ⟨2, 1, .rw, 0, false, 0, 0xFFFFFFFF⟩, ⟨3, 1, .wo, 0, false, 0, 0xFFFFFFFF⟩, ⟨4, 8, .rw, 100, false, 10, 200⟩, ⟨12, 8, .rw, 16, false, 4, 255⟩, ⟨20, 8, .rw, 20, false, 1, 255⟩]⟩,
   ⟨0x044, 1, [⟨0, 16, .rw, 0, false, 0, 0xFFFFFFFF⟩, ⟨16, 1, .rw, 0, false, 0, 0xFFFFFFFF⟩]⟩,
   ⟨0x048, 1, [⟨0, 3, .ro, 0, false, 0, 0xFFFFFFFF⟩, ⟨3, 1, .ro, 0, false, 0, 0xFFFFFFFF⟩, ⟨4, 10, .ro, 0, false, 0, 0xFFFFFFFF⟩]⟩,
   ⟨0x04C, 1, [⟨0, 32, .ro, 0, false, 0, 0xFFFFFFFF⟩]⟩,
   ⟨0x050, 1, [⟨0, 32, .ro, 0, false, 0, 0xFFFFFFFF⟩]⟩,
   ⟨0x054, 1, [⟨0, 24, .ro, 0, false, 0, 0xFFFFFFFF⟩]⟩,
   ⟨0x058, 1, [⟨0, 32, .ro, 0, false, 0, 0xFFFFFFFF⟩]⟩,
   ⟨0x05C, 1, [⟨0, 32, .ro, 0, false, 0, 0xFFFFFFFF⟩]⟩,
   ⟨0x060, 1, [⟨0, 32, .rw, 0, false, 0, 0xFFFFFFFF⟩]⟩,
   ⟨0x064, 1, [⟨0, 32, .rw, 0, false, 0, 0xFFFFFFFF⟩]⟩,
   ⟨0x068, 1, [⟨0, 1, .rw, 1, false, 0, 0xFFFFFFFF⟩, ⟨8, 8, .rw, 1, false, 1, 255⟩, ⟨16, 8, .rw, 10, false, 1, 255⟩]⟩]

/-- Registers of GLOBAL page offset 0x06. -/
def regsGlobal06 : List Rd :=
  [⟨0x040, 1, [⟨0, 11, .rw, 1600, true, 900, 1700⟩]⟩,
   ⟨0x044, 1, [⟨0, 11, .rw, 1760, false, 1500, 1800⟩]⟩,
   ⟨0x048, 1, [⟨0, 1, .ro, 1, false, 0, 0xFFFFFFFF⟩, ⟨1, 1, .ro, 1, false, 0, 0xFFFFFFFF⟩, ⟨2, 1, .ro, 0, false, 0, 0xFFFFFFFF⟩, ⟨3, 1, .ro, 0, false, 0, 0xFFFFFFFF⟩, ⟨4, 1, .ro, 0, false, 0, 0xFFFFFFFF⟩, ⟨5, 1, .ro, 0, false, 0, 0xFFFFFFFF⟩]⟩,
   ⟨0x04C, 1, [⟨0, 14, .ro, 0, false, 0, 0xFFFFFFFF⟩]⟩,
   ⟨0x050, 1, [⟨0, 14, .ro, 0, false, 0, 0xFFFFFFFF⟩]⟩,
   ⟨0x054, 1, [⟨0, 12, .ro, 0, false, 0, 0xFFFFFFFF⟩, ⟨16, 12, .rc, 0, false, 0, 0xFFFFFFFF⟩]⟩,
   ⟨0x058, 1, [⟨0, 4, .rw, 0, false, 0, 0xFFFFFFFF⟩]⟩,
   ⟨0x05C, 1, [⟨0, 7, .ro, 0, false, 0, 0xFFFFFFFF⟩, ⟨8, 1, .w1c, 0, false, 0, 0xFFFFFFFF⟩]⟩]

/-- Registers of GLOBAL page offset 0x07. -/
def regsGlobal07 : List Rd :=
  [⟨0x040, 1, [⟨0, 5, .rw, 0, false, 0, 29⟩]⟩,
   ⟨0x044, 1, [⟨0, 16, .ro, 0, false, 0, 0xFFFFFFFF⟩, ⟨16, 1, .ro, 0, false, 0, 0xFFFFFFFF⟩]⟩,
   ⟨0x048, 1, [⟨0, 16, .ro, 0, false, 0, 0xFFFFFFFF⟩]⟩,
   ⟨0x04C, 1, [⟨0, 2, .ro, 0, false, 0, 0xFFFFFFFF⟩, ⟨2, 2, .ro, 0, false, 0, 0xFFFFFFFF⟩, ⟨8, 8, .rc, 0, false, 0, 0xFFFFFFFF⟩, ⟨16, 7, .ro, 0, false, 0, 0xFFFFFFFF⟩]⟩,
   ⟨0x050, 1, [⟨0, 1, .rw, 1, false, 0, 0xFFFFFFFF⟩, ⟨8, 8, .rw, 10, false, 1, 10⟩, ⟨16, 8, .rw, 20, false, 2, 20⟩]⟩,
   ⟨0x054, 1, [⟨0, 16, .ro, 0, false, 0, 0xFFFFFFFF⟩]⟩]

/-- Registers of BELFRY page offset 0x00. -/
def regsBelfry00 : List Rd :=
  [⟨0x040, 1, [⟨0, 2, .ro, 0, false, 0, 0xFFFFFFFF⟩, ⟨2, 1, .ro, 0, false, 0, 0xFFFFFFFF⟩, ⟨3, 1, .ro, 0, false, 0, 0xFFFFFFFF⟩, ⟨4, 1, .ro, 0, false, 0, 0xFFFFFFFF⟩, ⟨5, 1, .w1c, 0, false, 0, 0xFFFFFFFF⟩, ⟨8, 8, .ro, 0, false, 0, 0xFFFFFFFF⟩, ⟨16, 16, .ro, 0, false, 0, 0xFFFFFFFF⟩]⟩,
   ⟨0x044, 1, [⟨0, 1, .wo, 0, false, 0, 0xFFFFFFFF⟩, ⟨1, 1, .wo, 0, false, 0, 0xFFFFFFFF⟩]⟩,
   ⟨0x048, 1, [⟨0, 16, .ro, 0, false, 0, 0xFFFFFFFF⟩]⟩]

/-- Registers of GLOBAL page offset 0x05. -/
def regsGlobal05 : List Rd :=
  [⟨0x040, 1, [⟨0, 2, .rw, 0, false, 0, 2⟩, ⟨2, 1, .rw, 0, false, 0, 0xFFFFFFFF⟩]⟩,
   ⟨0x044, 1, [⟨0, 16, .rw, 0, false, 0, 0xFFFFFFFF⟩, ⟨16, 1, .rw, 0, false, 0, 0xFFFFFFFF⟩]⟩,
   ⟨0x048, 1, [⟨0, 16, .rw, 0, false, 0, 0xFFFFFFFF⟩, ⟨16, 1, .rw, 0, false, 0, 0xFFFFFFFF⟩]⟩,
   ⟨0x04C, 1, [⟨0, 17, .rw, 0, false, 0, 0xFFFFFFFF⟩]⟩,
   ⟨0x050, 1, [⟨0, 8, .rw, 100, false, 20, 250⟩, ⟨8, 8, .rw, 50, false, 20, 100⟩, ⟨16, 12, .rw, 0, false, 0, 0xFFFFFFFF⟩, ⟨28, 4, .rw, 0, false, 0, 0xFFFFFFFF⟩]⟩,
   ⟨0x054, 1, [⟨0, 8, .rw, 0, true, 0, 0xFFFFFFFF⟩]⟩,
   ⟨0x058, 1, [⟨0, 2, .ro, 0, false, 0, 0xFFFFFFFF⟩, ⟨2, 1, .ro, 0, false, 0, 0xFFFFFFFF⟩, ⟨3, 1, .ro, 0, false, 0, 0xFFFFFFFF⟩, ⟨4, 1, .ro, 0, false, 0, 0xFFFFFFFF⟩, ⟨5, 1, .ro, 0, false, 0, 0xFFFFFFFF⟩, ⟨6, 1, .ro, 0, false, 0, 0xFFFFFFFF⟩, ⟨7, 1, .ro, 0, false, 0, 0xFFFFFFFF⟩]⟩,
   ⟨0x05C, 1, [⟨0, 16, .ro, 0, false, 0, 0xFFFFFFFF⟩]⟩]

/-- Registers of SECURITY page offset 0x00. -/
def regsSecurity00 : List Rd :=
  [⟨0x040, 1, [⟨0, 8, .ro, 0, false, 0, 0xFFFFFFFF⟩, ⟨8, 1, .ro, 0, false, 0, 0xFFFFFFFF⟩, ⟨10, 16, .ro, 0, false, 0, 0xFFFFFFFF⟩]⟩,
   ⟨0x044, 1, [⟨0, 3, .rw, 0, false, 0, 0xFFFFFFFF⟩]⟩,
   ⟨0x048, 1, [⟨0, 16, .rw, 0, false, 0, 0xFFFFFFFF⟩]⟩,
   ⟨0x04C, 1, [⟨0, 12, .rw, 0, false, 0, 0xFFFFFFFF⟩, ⟨12, 13, .rw, 0, false, 0, 4096⟩]⟩,
   ⟨0x050, 1, [⟨0, 1, .rw, 0, true, 0, 0xFFFFFFFF⟩]⟩,
   ⟨0x054, 1, [⟨0, 10, .rw, 0, false, 0, 767⟩, ⟨16, 1, .rw, 0, false, 0, 0xFFFFFFFF⟩]⟩,
   ⟨0x058, 1, [⟨0, 4, .rw, 15, false, 0, 0xFFFFFFFF⟩]⟩,
   ⟨0x05C, 1, [⟨0, 1, .wo, 0, false, 0, 0xFFFFFFFF⟩, ⟨1, 1, .wo, 0, false, 0, 0xFFFFFFFF⟩]⟩,
   ⟨0x060, 1, [⟨0, 32, .ro, 0, false, 0, 0xFFFFFFFF⟩]⟩,
   ⟨0x064, 1, [⟨0, 32, .ro, 0, false, 0, 0xFFFFFFFF⟩]⟩,
   ⟨0x070, 1, [⟨0, 4, .wo, 0, false, 1, 6⟩, ⟨4, 1, .wo, 0, false, 0, 0xFFFFFFFF⟩, ⟨8, 12, .wo, 0, false, 0, 0xFFFFFFFF⟩]⟩,
   ⟨0x074, 1, [⟨0, 16, .rw, 0, false, 0, 0xFFFFFFFF⟩]⟩,
   ⟨0x078, 1, [⟨0, 1, .ro, 0, false, 0, 0xFFFFFFFF⟩, ⟨1, 1, .w1c, 0, false, 0, 0xFFFFFFFF⟩, ⟨2, 1, .ro, 1, false, 0, 0xFFFFFFFF⟩, ⟨4, 4, .ro, 0, false, 0, 0xFFFFFFFF⟩, ⟨8, 4, .ro, 15, false, 0, 0xFFFFFFFF⟩, ⟨12, 13, .ro, 0, false, 0, 0xFFFFFFFF⟩]⟩,
   ⟨0x07C, 1, [⟨0, 1, .wo, 0, false, 0, 0xFFFFFFFF⟩, ⟨1, 1, .wo, 0, false, 0, 0xFFFFFFFF⟩]⟩,
   ⟨0x080, 1, [⟨0, 6, .ro, 17, false, 0, 0xFFFFFFFF⟩]⟩,
   ⟨0x084, 1, [⟨0, 1, .rw, 0, true, 0, 0xFFFFFFFF⟩, ⟨1, 1, .rw, 0, true, 0, 0xFFFFFFFF⟩, ⟨2, 1, .rw, 1, true, 0, 0xFFFFFFFF⟩, ⟨3, 1, .rw, 0, true, 0, 0xFFFFFFFF⟩]⟩,
   ⟨0x090, 8, [⟨0, 32, .rw, 0, false, 0, 0xFFFFFFFF⟩]⟩,
   ⟨0x0B0, 1, [⟨0, 1, .wo, 0, false, 0, 0xFFFFFFFF⟩]⟩,
   ⟨0x0B4, 1, [⟨0, 16, .ro, 0, false, 0, 0xFFFFFFFF⟩, ⟨16, 1, .ro, 0, false, 0, 0xFFFFFFFF⟩]⟩,
   ⟨0x0C0, 1, [⟨0, 2, .rw, 0, false, 0, 0xFFFFFFFF⟩, ⟨2, 1, .rw, 0, false, 0, 0xFFFFFFFF⟩]⟩,
   ⟨0x0C4, 16, [⟨0, 32, .rw, 0, false, 0, 0xFFFFFFFF⟩]⟩]

/-- Registers of GLOBAL page offset 0x00. -/
def regsGlobal00 : List Rd :=
  [⟨0x040, 1, [⟨0, 10, .rw, 100, false, 10, 1000⟩, ⟨10, 8, .rw, 10, false, 1, 255⟩, ⟨18, 1, .rw, 0, false, 0, 0xFFFFFFFF⟩, ⟨19, 1, .rw, 0, false, 0, 0xFFFFFFFF⟩]⟩,
   ⟨0x044, 1, [⟨0, 1, .ro, 0, false, 0, 0xFFFFFFFF⟩, ⟨1, 1, .ro, 0, false, 0, 0xFFFFFFFF⟩]⟩,
   ⟨0x048, 1, [⟨0, 3, .wo, 0, false, 0, 7⟩, ⟨3, 5, .wo, 0, false, 0, 0xFFFFFFFF⟩, ⟨31, 1, .wo, 0, false, 0, 0xFFFFFFFF⟩]⟩,
   ⟨0x04C, 1, [⟨0, 1, .ro, 0, false, 0, 0xFFFFFFFF⟩, ⟨1, 3, .ro, 0, false, 0, 0xFFFFFFFF⟩, ⟨4, 5, .ro, 0, false, 0, 0xFFFFFFFF⟩, ⟨9, 3, .ro, 0, false, 0, 0xFFFFFFFF⟩, ⟨12, 1, .ro, 0, false, 0, 0xFFFFFFFF⟩]⟩,
   ⟨0x050, 1, [⟨0, 9, .ro, 0, false, 0, 0xFFFFFFFF⟩]⟩,
   ⟨0x054, 1, [⟨0, 8, .rw, 0, false, 0, 0xFFFFFFFF⟩]⟩,
   ⟨0x058, 1, [⟨0, 1, .wo, 0, false, 0, 0xFFFFFFFF⟩, ⟨1, 1, .wo, 0, false, 0, 0xFFFFFFFF⟩]⟩,
   ⟨0x05C, 1, [⟨0, 8, .ro, 0, false, 0, 0xFFFFFFFF⟩, ⟨8, 8, .ro, 0, false, 0, 0xFFFFFFFF⟩, ⟨16, 8, .ro, 0, false, 0, 0xFFFFFFFF⟩]⟩,
   ⟨0x060, 8, [⟨0, 32, .ro, 0, false, 0, 0xFFFFFFFF⟩]⟩]

/-- Registers of GLOBAL page offset 0x01. -/
def regsGlobal01 : List Rd :=
  [⟨0x040, 1, [⟨0, 4, .ro, 0, false, 0, 0xFFFFFFFF⟩, ⟨4, 2, .ro, 0, false, 0, 0xFFFFFFFF⟩, ⟨6, 1, .ro, 0, false, 0, 0xFFFFFFFF⟩, ⟨8, 8, .ro, 0, false, 0, 0xFFFFFFFF⟩, ⟨16, 16, .ro, 0, false, 0, 0xFFFFFFFF⟩]⟩,
   ⟨0x044, 1, [⟨0, 1, .rw, 1, false, 0, 0xFFFFFFFF⟩]⟩,
   ⟨0x048, 1, [⟨0, 1, .wo, 0, false, 0, 0xFFFFFFFF⟩, ⟨1, 1, .wo, 0, false, 0, 0xFFFFFFFF⟩]⟩,
   ⟨0x04C, 1, [⟨0, 16, .rw, 0, false, 0, 0xFFFFFFFF⟩, ⟨16, 1, .rw, 0, false, 0, 0xFFFFFFFF⟩]⟩,
   ⟨0x050, 1, [⟨0, 3, .ro, 0, false, 0, 0xFFFFFFFF⟩, ⟨3, 4, .ro, 0, false, 0, 0xFFFFFFFF⟩, ⟨7, 1, .ro, 0, false, 0, 0xFFFFFFFF⟩, ⟨8, 1, .ro, 0, false, 0, 0xFFFFFFFF⟩, ⟨9, 1, .ro, 0, false, 0, 0xFFFFFFFF⟩]⟩]

/-- Registers of GLOBAL page offset 0x08. -/
def regsGlobal08 : List Rd :=
  [⟨0x040, 1, [⟨0, 4, .rw, 0, false, 0, 9⟩]⟩,
   ⟨0x044, 1, [⟨0, 8, .rw, 0, false, 0, 0xFFFFFFFF⟩, ⟨8, 8, .rw, 0, false, 1, 255⟩, ⟨16, 8, .rw, 0, false, 0, 0xFFFFFFFF⟩]⟩,
   ⟨0x048, 1, [⟨0, 1, .ro, 0, false, 0, 0xFFFFFFFF⟩, ⟨1, 1, .ro, 0, false, 0, 0xFFFFFFFF⟩, ⟨2, 1, .ro, 0, false, 0, 0xFFFFFFFF⟩, ⟨3, 1, .ro, 0, false, 0, 0xFFFFFFFF⟩, ⟨16, 16, .rc, 0, false, 0, 0xFFFFFFFF⟩]⟩]

/-- Registers of MBOX page offset 0x00. -/
def regsMbox00 : List Rd :=
  [⟨0x040, 1, [⟨0, 32, .wo, 0, false, 0, 0xFFFFFFFF⟩]⟩,
   ⟨0x044, 1, [⟨0, 5, .ro, 0, false, 0, 0xFFFFFFFF⟩]⟩,
   ⟨0x048, 1, [⟨0, 32, .ro, 0, false, 0, 0xFFFFFFFF⟩]⟩,
   ⟨0x04C, 1, [⟨0, 5, .ro, 0, false, 0, 0xFFFFFFFF⟩]⟩,
   ⟨0x050, 1, [⟨0, 1, .wo, 0, false, 0, 0xFFFFFFFF⟩]⟩,
   ⟨0x054, 1, [⟨0, 1, .wo, 0, false, 0, 0xFFFFFFFF⟩, ⟨1, 1, .wo, 0, false, 0, 0xFFFFFFFF⟩, ⟨2, 1, .wo, 0, false, 0, 0xFFFFFFFF⟩]⟩,
   ⟨0x058, 1, [⟨0, 1, .w1c, 0, false, 0, 0xFFFFFFFF⟩, ⟨1, 1, .w1c, 0, false, 0, 0xFFFFFFFF⟩, ⟨2, 1, .w1c, 0, false, 0, 0xFFFFFFFF⟩, ⟨3, 1, .w1c, 0, false, 0, 0xFFFFFFFF⟩]⟩,
   ⟨0x05C, 1, [⟨0, 10, .rw, 0, false, 0, 704⟩]⟩]

/-- Registers of MBSTS page offset 0x00. -/
def regsMbsts00 : List Rd :=
  [⟨0x040, 1, [⟨0, 5, .ro, 0, false, 0, 0xFFFFFFFF⟩, ⟨8, 5, .ro, 0, false, 0, 0xFFFFFFFF⟩]⟩]

/-- Registers of MONITOR page offset 0x00. -/
def regsMonitor00 : List Rd :=
  [⟨0x040, 1, [⟨0, 1, .rw, 0, true, 0, 0xFFFFFFFF⟩, ⟨1, 1, .rw, 0, false, 0, 0xFFFFFFFF⟩]⟩,
   ⟨0x044, 1, [⟨0, 14, .ro, 0, false, 0, 0xFFFFFFFF⟩, ⟨31, 1, .ro, 0, false, 0, 0xFFFFFFFF⟩]⟩,
   ⟨0x048, 1, [⟨0, 14, .ro, 0, false, 0, 0xFFFFFFFF⟩]⟩,
   ⟨0x04C, 1, [⟨0, 32, .rc, 0, false, 0, 0xFFFFFFFF⟩]⟩,
   ⟨0x050, 1, [⟨0, 32, .rc, 0, false, 0, 0xFFFFFFFF⟩]⟩,
   ⟨0x054, 1, [⟨0, 14, .ro, 0, false, 0, 0xFFFFFFFF⟩, ⟨14, 4, .ro, 0, false, 0, 0xFFFFFFFF⟩, ⟨31, 1, .w1c, 0, false, 0, 0xFFFFFFFF⟩]⟩]

/-- Registers of BELFRY page offset 0x01. -/
def regsBelfry01 : List Rd :=
  [⟨0x040, 8, [⟨0, 32, .ro, 0, false, 0, 0xFFFFFFFF⟩]⟩]

/-- The registers that the tables of the chapters put on a page offset of a block (R499). -/
def regsOf : Blk → Nat → List Rd
  | .global, 2 => regsGlobal02
  | .part, 0 => regsPart00
  | .spire, 2 => regsSpire02
  | .spire, 0 => regsSpire00
  | .spire, 1 => regsSpire01
  | .spire, 3 => regsSpire03
  | .spire, 4 => regsSpire04
  | .spire, 5 => regsSpire05
  | .spire, 6 => regsSpire06
  | .spire, 7 => regsSpire07
  | .spire, 8 => regsSpire08
  | .gate, 0 => regsGate00
  | .gate, 1 => regsGate01
  | .gate, 2 => regsGate02
  | .gate, 3 => regsGate03
  | .plinth, 0 => regsPlinth00
  | .plinth, 1 => regsPlinth01
  | .plinth, 2 => regsPlinth02
  | .plinth, 3 => regsPlinth03
  | .plinth, 4 => regsPlinth04
  | .lantern, 0 => regsLantern00
  | .plinth, 16 => regsPlinth10
  | .plinth, 17 => regsPlinth11
  | .oculus, 0 => regsOculus00
  | .oculus, 1 => regsOculus01
  | .oculus, 2 => regsOculus02
  | .oculus, 3 => regsOculus03
  | .oculus, 4 => regsOculus04
  | .oculus, 5 => regsOculus05
  | .oculus, 8 => regsOculus08
  | .oculus, 9 => regsOculus09
  | .oculus, 10 => regsOculus0A
  | .oculus, 11 => regsOculus0B
  | .oculus, 12 => regsOculus0C
  | .global, 3 => regsGlobal03
  | .global, 4 => regsGlobal04
  | .global, 6 => regsGlobal06
  | .global, 7 => regsGlobal07
  | .belfry, 0 => regsBelfry00
  | .global, 5 => regsGlobal05
  | .security, 0 => regsSecurity00
  | .global, 0 => regsGlobal00
  | .global, 1 => regsGlobal01
  | .global, 8 => regsGlobal08
  | .mbox, 0 => regsMbox00
  | .mbsts, 0 => regsMbsts00
  | .monitor, 0 => regsMonitor00
  | .belfry, 1 => regsBelfry01
  | _, _ => []

/-- The implemented pages (Table RG-1): block, instance and page offset within the instance. -/
def pageInfo (p : Nat) : Option (Blk × Nat × Nat) :=
  if p ≤ 0x08 then some (.global, 0, p)
  else if 0x10 ≤ p ∧ p ≤ 0x17 then some (.part, p - 0x10, 0)
  else if p = 0x100 ∨ p = 0x101 then some (.belfry, 0, p - 0x100)
  else if p = 0x140 ∨ p = 0x141 then some (.belfry, 1, p - 0x140)
  else if 0x180 ≤ p ∧ p ≤ 0x188 then some (.mbox, p - 0x180, 0)
  else if 0x190 ≤ p ∧ p ≤ 0x19F then some (.mbsts, p - 0x190, 0)
  else if 0x400 ≤ p ∧ p ≤ 0x7FF then
    if (p - 0x400) % 0x40 ≤ 8 then some (.spire, (p - 0x400) / 0x40, (p - 0x400) % 0x40) else none
  else if 0x800 ≤ p ∧ p ≤ 0x8FF then
    if (p - 0x800) % 0x20 ≤ 3 then some (.gate, (p - 0x800) / 0x20, (p - 0x800) % 0x20) else none
  else if 0x900 ≤ p ∧ p ≤ 0xAFF then
    let o := (p - 0x900) % 0x100
    if o ≤ 4 ∨ o = 0x10 ∨ o = 0x11 then some (.plinth, (p - 0x900) / 0x100, o) else none
  else if 0xB00 ≤ p ∧ p ≤ 0xCFF then
    let o := (p - 0xB00) % 0x100
    if o ≤ 5 ∨ (8 ≤ o ∧ o ≤ 0xC) then some (.oculus, (p - 0xB00) / 0x100, o) else none
  else if p = 0xD00 then some (.lantern, 0, 0)
  else if 0xE00 ≤ p ∧ p ≤ 0xE06 then some (.security, 0, p - 0xE00)
  else if p = 0xF00 then some (.monitor, 0, 0)
  else none

/-- Pages with an error queue (Table FA-2). -/
def hasErrq (p : Nat) : Bool :=
  match pageInfo p with
  | some (.global, _, 0) => true
  | some (.spire, _, o) => o == 0 || o == 6 || o == 7
  | some (.gate, _, o) => o ≤ 2
  | some (.plinth, _, o) => o == 0 || o == 2 || o == 0x10
  | some (.oculus, _, o) => o == 0 || o == 1 || o == 8
  | some (.lantern, _, _) => true
  | some (.security, _, 0) => true
  | some (.belfry, _, 0) => true
  | _ => false

/-- Number of units of an event of a page (Table RG-6), 0 where the event has no unit; `none` where the page does
not list the event. Codes 0x00 and 0x01 are common to every counter page (R493). -/
def evUnits (p code : Nat) : Option Nat :=
  if (pageInfo p).isSome ∧ code ≤ 1 then some 0 else
  match pageInfo p with
  | some (.spire, _, 0) =>
    if code = 5 ∨ code = 6 ∨ code = 7 ∨ code = 8 ∨ code = 0xF then some 0 else if code = 9 then some 2
    else if code ≤ 0xE then some 64 else none
  | some (.spire, _, 6) => if code ≤ 8 then some 64 else none
  | some (.spire, _, 7) => if code ≤ 3 then some 64 else none
  | some (.spire, _, 8) => if code = 4 then some 0 else if code ≤ 3 then some 2 else none
  | some (.gate, _, 1) => if code ≤ 3 then some 48 else if code ≤ 6 then some 0 else none
  | some (.gate, _, 2) => if code = 4 then some 0 else if code ≤ 5 then some 48 else none
  | some (.plinth, _, 2) => if code ≤ 9 then some 24 else none
  | some (.plinth, _, 0x10) => if code ≤ 7 then some 24 else none
  | some (.lantern, _, _) => if code ≤ 5 then some 2 else none
  | some (.oculus, _, 5) =>
    if code = 9 ∨ code = 0xA ∨ code = 0xC ∨ code = 0xD then some 0 else if code ≤ 0xB then some 16 else none
  | some (.oculus, _, 0xB) => if code = 4 then some 4 else if code ≤ 8 then some 0 else none
  | some (.global, _, 3) => if code ≤ 0xA then some 40 else none
  | some (.global, _, 4) => if code ≤ 7 then some 0 else none
  | some (.global, _, 6) =>
    if code = 2 ∨ code = 5 then some 0 else if code = 3 then some 24 else if code = 4 then some 16 else none
  | some (.global, _, 7) => if code ≤ 4 then some 30 else none
  | some (.belfry, _, 0) => if code ≤ 9 then some 0 else none
  | some (.security, _, 0) => if code ≤ 7 then some 0 else none
  | some (.monitor, _, _) => if code = 2 then some 8 else if code ≤ 4 then some 0 else none
  | _ => none

/-- Pages with event counters (Table RG-6). -/
def hasEvc (p : Nat) : Bool :=
  match pageInfo p with
  | some (.spire, _, o) => o == 0 || o == 6 || o == 7 || o == 8
  | some (.gate, _, o) => o == 1 || o == 2
  | some (.plinth, _, o) => o == 2 || o == 0x10
  | some (.oculus, _, o) => o == 5 || o == 0xB
  | some (.global, _, o) => o == 3 || o == 4 || o == 6 || o == 7
  | some (.belfry, _, 0) => true
  | some (.security, _, 0) => true
  | some (.lantern, _, _) => true
  | some (.monitor, _, _) => true
  | _ => false

/-- Every implemented page, in rising order. -/
def allPages : List Nat := (List.range 0xF01).filter fun p => (pageInfo p).isSome

/-- Pages whose table gives a tick-synchronised field, counters included (PAGE_CAP.TSYNC). -/
def hasTsync (p : Nat) : Bool :=
  hasEvc p || match pageInfo p with
  | some (b, _, o) => (regsOf b o).any fun r => r.fs.any fun f => f.ts
  | none => false

/-- The fields of the common header and of the counters (Tables RG-2 and RG-5), for the page. -/
def headerFields (p off : Nat) : Option (List Fd) :=
  let evc := hasEvc p
  match off with
  | 0x000 => some [⟨0, 24, .ro, 0, false, 0, 0xFFFFFFFF⟩]
  | 0x004 => some [⟨0, 16, .ro, 0x0100, false, 0, 0xFFFFFFFF⟩]
  | 0x008 => some [⟨0, 4, .ro, 0, false, 0, 0xFFFFFFFF⟩]
  | 0x00C => some (if evc then [⟨0, 1, .rw, 0, true, 0, 1⟩, ⟨1, 1, .wo, 0, false, 0, 1⟩] else [])
  | 0x010 => some [⟨0, 5, .ro, 0, false, 0, 0xFFFFFFFF⟩]
  | 0x014 => some [⟨0, 24, .ro, 0, false, 0, 0xFFFFFFFF⟩, ⟨31, 1, .w1c, 0, false, 0, 1⟩]
  | 0x018 => some [⟨0, 4, .w1c, 0, false, 0, 15⟩]
  | 0x01C => some [⟨0, 4, .rw, 0, false, 0, 15⟩]
  | 0x020 => some [⟨0, 4, .ro, 0, false, 0, 15⟩]
  | 0x024 => some [⟨0, 1, .w1s, 0, false, 0, 1⟩]
  | _ =>
    if 0xF00 ≤ off ∧ off < 0x1000 ∧ evc then
      match off % 0x20 with
      | 0x00 => some [⟨0, 32, .rw, 0, false, 0, 0xFFFFFFFF⟩]
      | 0x04 => some [⟨0, 16, .rw, 0, false, 0, 0xFFFF⟩]
      | 0x08 => some [⟨0, 12, .rw, 0, true, 0, 0xFFF⟩, ⟨12, 4, .rw, 15, true, 0, 15⟩, ⟨16, 2, .rw, 0, true, 0, 3⟩,
          ⟨18, 1, .rw, 0, true, 0, 1⟩, ⟨19, 1, .rw, 0, true, 0, 1⟩, ⟨20, 1, .w1c, 0, false, 0, 1⟩]
      | 0x0C => some [⟨0, 32, .ro, 0, false, 0, 0xFFFFFFFF⟩]
      | 0x10 => some [⟨0, 16, .ro, 0, false, 0, 0xFFFFFFFF⟩]
      | 0x14 => some [⟨0, 32, .ro, 0, false, 0, 0xFFFFFFFF⟩]
      | _ => none
    else if off = 0xE80 ∧ hasErrq p then some [⟨0, 5, .ro, 0, false, 0, 31⟩, ⟨8, 8, .rc, 0, false, 0, 255⟩]
    else if 0xE00 ≤ off ∧ off < 0xE80 ∧ hasErrq p then some [⟨0, 32, .ro, 0, false, 0, 0xFFFFFFFF⟩]
    else none

/-- The fields of the register at an offset of a page; `none` for a reserved register (R483). -/
def fieldsAt (p off : Nat) : Option (List Fd) :=
  match headerFields p off with
  | some fs => some fs
  | none =>
    match pageInfo p with
    | none => none
    | some (b, _, o) =>
      match (regsOf b o).find? fun r => r.off ≤ off ∧ off < r.off + 4 * r.cnt with
      | some r => some r.fs
      | none => none

/-- The cold reset value of SB_CFG of an input: FILTER_US, CHATTER and STUCK_S of Table HS-10. -/
def sbReset : Nat → Nat
  | 0 => 0x0A080A
  | 2 => 0x004000
  | 3 | 4 | 5 => 0x000864
  | 6 | 7 | 8 => 0x0A080A
  | _ => 0x00080A

/-- The word that the register at `loc`, selection `idx`, holds after reset. -/
def resetAt (loc idx : Nat) : Nat :=
  if loc = Loc.glSbCfg then sbReset idx else
  match fieldsAt (loc / 4096) (loc % 4096) with
  | none => 0
  | some fs => fs.foldl (fun a f => a + f.rst * 2 ^ f.lo) 0

end Sys2Proof.Machine
end

