-- ==== Sys2Proof/Machine/State.lean ====
section
/-! DEFINITION. The state of the part as plain data, chapter by chapter, and the state after reset. Every register of
Table RG-8 has its home in `rf` (keyed by place and selection) unless a docstring here names another home; the tables
that windows open (slots, descriptors, zones, routes, windows, ...) live in `rf` under the window's own registers. -/

namespace Sys2Proof.Machine

/-- What a read answers its reader with. -/
inductive Resp where
  | none
  | word (w : Word)
  | bytes (b : List Byte)
  /-- Completer Abort (R455, R458) -/
  | abort
  /-- Configuration Request Retry Status, DOE Busy (R479) -/
  | retry
  /-- an answer whose words the spec does not give (R421, R479) -/
  | done
  deriving DecidableEq, Repr

/-! ### Frames and clock (R21 to R28, R340, R500) -/

structure Clock where
  /-- the transit count, whole ns (R340) -/
  count : Nat := 0
  /-- the duration clock, ns since power-up (R500) -/
  elapsed : Nat := 0
  /-- the device has joined the transit (R22) -/
  joined : Bool := false
  /-- a tick has occurred since the join -/
  ticked : Bool := false
  /-- count of the latest tick, or of the join -/
  lastTick : Nat := 0
  /-- the cutoff of the next tick has been taken (R26) -/
  cutoff : Bool := false
  /-- TICK_COUNT: ticks since join (Table FR-4) -/
  ticks : Nat := 0
  /-- offset still to slew out, and the fraction of the count, in 10^-9 ns (R341) -/
  slew : Int := 0
  frac : Int := 0
  /-- how far slewing has moved the count since power-up, in 10^-9 ns: an offset found before a slew is taken against the
  count after it (R347) -/
  slewed : Int := 0
  /-- duration clock up to which TICK_OUT is high (R353) -/
  tickOut : Nat := 0
  deriving DecidableEq, Repr

/-- A pending value of a tick-synchronised field (R25, R26): its register key, the bits and their value, and the
partition when the value can apply to one partition only (R28). -/
structure Pend where
  key : Nat
  mask : Nat
  val : Nat
  part : Option Nat := .none
  deriving DecidableEq, Repr

/-- A partition's frame bookkeeping (R42 to R50). PFp_STS, PFp_FRAMES and PFp_LATES hold the rest. -/
structure Part where
  /-- count of the tick at which the partition's current frame began -/
  t0 : Nat := 0
  /-- a late event occurred since the last tick, first spire and slot -/
  late : Bool := false
  lateSpire : Nat := 0
  lateSlot : Nat := 0
  /-- an invalid slot or a missing end slot fails the frame (R51) -/
  invalid : Bool := false
  /-- latched at the cutoff: slip (R44), fail (R46) -/
  slip : Bool := false
  fail : Bool := false
  deriving DecidableEq, Repr

/-- A clock region beside its registers (R327 to R333). Its cycles are counted in 1/80 of a cycle: N of them pass in a
nanosecond, and a stretch of d/8 of a period holds back 10 d. -/
structure Region where
  /-- duration clock at the latest change of N or stretch, and the cycles counted up to it -/
  base : Nat := 0
  cyc : Int := 0
  /-- cycles at the start of the window of 1,024; periods stretched in it; cycles at which a decided down-step acts -/
  winU : Int := 0
  cnt : Nat := 0
  stepU : Option Int := .none
  /-- cycles at which a down-step for depth 4 in four cycles acts (R331) -/
  deepU : Option Int := .none
  /-- stretched or stepped down, and the deepest report, since the latest tick (REG_STS) -/
  busy : Bool := false
  depth : Nat := 0
  floor : Bool := false
  /-- stretched, stepped down or warned since the latest cutoff; not so between the last two (R333) -/
  stirred : Bool := false
  quiet : Bool := true
  /-- mesh emergency logged in this frame (R339) -/
  emerg : Bool := false
  deriving DecidableEq, Repr

/-- A time exchange without an answer (R346): its number, t1 in 1/256 ns, duration clock, the peer, and the ring port when
it measures a hop. -/
structure Exchange where
  num : Nat := 0
  t1 : Nat := 0
  at_ : Nat := 0
  dev : Nat := 0
  ring : Option Nat := .none
  deriving DecidableEq, Repr

/-- An arc of the management ring (R344, R345): offsets of its latest messages in 1/256 ns, each with what slewing had moved
the count, the latest first; when the latest arrived and when they resumed (duration clock plus one); it is still to be sent
on; hops from the root; delay of the hop in 1/256 ns. -/
structure Arc where
  offs : List Int := []
  last : Nat := 0
  resumed : Nat := 0
  fresh : Bool := false
  hops : Nat := 0
  delay : Nat := 0
  root : Nat := 0
  deriving DecidableEq, Repr

/-- The time engine and the reference (R324, R325, R343 to R351). TIME_STS holds its state. -/
structure TimeEng where
  exch : Nat := 0
  out : List Exchange := []
  /-- θ, with what slewing had moved the count, and δ of the last 16 exchanges in 1/256 ns, the latest first -/
  hist : List (Int × Int) := []
  sentAt : Option Nat := .none
  valid : Nat := 0
  bad : Nat := 0
  /-- joining since; the failure to join is logged -/
  joinAt : Nat := 0
  late : Bool := false
  arcs : List Arc := [{}, {}]
  /-- period of a sender that differs and is logged (R348) -/
  period : Nat := 0
  /-- counted mode: own level below the root, and the root, as the parent's answers tell (Table CK-3) -/
  level : Nat := 0
  root : Nat := 0
  /-- TIME_REF_IN is present and in range; the move that the next tick makes -/
  refIn : Bool := false
  refLost : Bool := false
  refBack : Bool := false
  /-- West: held; the East's count minus its own in 1/256 ns, as its latest exchange gave it; TICK_COUNT of the frame in
  which it last exchanged, plus one (R343) -/
  westHeld : Bool := false
  westOfs : Int := 0
  westAt : Nat := 0
  deriving DecidableEq, Repr

/-! ### Spires (chapters "Frames" and "Spires and their cells") -/

/-- A slot in the evaluation window (R34 to R38). -/
structure SlotRun where
  slot : Nat := 0
  /-- tick at which its frame began -/
  t0 : Nat := 0
  /-- awaits found satisfied (R35), and awaits registered at a remote home whose notification is on its way -/
  a0 : Bool := false
  a1 : Bool := false
  elig : Bool := false
  /-- descriptors moved to queues, tasks retired -/
  sent : Nat := 0
  retired : Nat := 0
  /-- a task of the slot failed (R92) -/
  err : Bool := false
  /-- signals issued: bit i for signal i (R38); those of them that another spire has not counted yet -/
  sig : Nat := 0
  away : Nat := 0
  /-- budget event counted (R39) -/
  overB : Bool := false
  /-- cycles of the north and south region, in 1/80 of a cycle, when its first descriptor was dispatched (R39, R79) -/
  cycN : Int := 0
  cycS : Int := 0
  /-- it has had its turn in the present round of dispatch (R37) -/
  turn : Bool := false
  /-- its frame failed after it was dispatched (R46) -/
  fading : Bool := false
  /-- PFp_FRAMES in the frame of its dispatch (R116) -/
  frames : Nat := 0
  deriving DecidableEq, Repr

/-- The running programme of a spire (R34, R41). -/
structure Run where
  first : Nat := 0
  /-- tick at which its frame began -/
  t0 : Nat := 0
  /-- next slot to enter the window, slots entered, end slot (or an invalid slot) reached -/
  next : Nat := 0
  entered : Nat := 0
  ended : Bool := false
  /-- first slot of the next frame's programme, from the end slot -/
  chain : Nat := 0
  /-- slots late at their present deadline (R43, R44) -/
  lates : List Nat := []
  deriving DecidableEq, Repr

/-- The frame record that is being gathered (R41): shown at the tick at which the partition advances. -/
structure FrameRec where
  /-- tick at which the frame began, ns by which slips have moved its deadlines, and its late horizon (R42, R44) -/
  t0 : Nat := 0
  moved : Nat := 0
  horizon : Nat := 0
  fin : Nat := 0
  slack : Option Int := .none
  late : Option Nat := .none
  deriving DecidableEq, Repr

/-- A task descriptor in a queue (R37, R60). -/
structure QTask where
  words : List Nat := []
  slot : Nat := 0
  desc : Nat := 0
  /-- tick of the frame of its slot -/
  t0 : Nat := 0
  /-- moved by a steal; pinned at the thief (R70) -/
  stolen : Bool := false
  /-- PFp_FRAMES in the frame of the slot's dispatch (R116) -/
  frames : Nat := 0
  /-- duration clock at which it is through the crossing to a south cell (R78, R334) -/
  due : Nat := 0
  deriving DecidableEq, Repr

/-- A task in progress at a unit of a cell. -/
structure ATask where
  q : QTask := {}
  /-- the action is complete -/
  done : Bool := false
  /-- cause of Table SP-11, 0 for none, and the completion status -/
  cause : Nat := 0
  status : Nat := 0
  /-- a transaction or message was issued and its completion has not returned (R65): its number plus one -/
  wait : Nat := 0
  /-- LOAD and STORE: lines issued, lines answered, the first line that failed with its status, an unclean read of SRC_A -/
  next : Nat := 0
  got : Nat := 0
  failed : Option (Nat × Nat) := .none
  unclean : Bool := false
  deriving DecidableEq, Repr

/-- The array of a cell (R100 to R112): how its accumulators were cleared, and the 1,024 accumulators. -/
structure Arr where
  /-- 0 never cleared, 1 fixed point, 2 FW48 -/
  mode : Nat := 0
  fmtA : Nat := 0
  fmtB : Nat := 0
  mx : Bool := false
  /-- fixed: the integer in units of the least significant bit; FW48: the code word -/
  acc : Tab Int := []
  /-- sticky flags per element: 1 overflow up, 2 overflow down, 4 NaN, 8 +inf, 16 -inf -/
  flags : Tab Nat := []
  deriving DecidableEq, Repr

/-- An entry of a cell's merge buffer (R134): code word (row * 8 + index), data, bytes held, writer and age. -/
structure Merge where
  cw : Nat := 0
  data : List Byte := []
  mask : Nat := 0
  writer : Nat := 0
  /-- cycles of its region at the last merge, in 1/80 of a cycle -/
  last : Int := 0
  deriving DecidableEq, Repr

structure Cell where
  queue : List QTask := []
  m : Option ATask := .none
  v : Option ATask := .none
  x : Option ATask := .none
  arr : Arr := {}
  /-- failed in service (R77) -/
  failed : Bool := false
  /-- relay: entries of 64 B in the receive buffers, in the intake of the running task, and waiting for a credit -/
  inW : List (List Byte) := []
  inN : List (List Byte) := []
  takeW : List (List Byte) := []
  takeN : List (List Byte) := []
  outE : List (List Byte) := []
  outS : List (List Byte) := []
  merge : List Merge := []
  /-- bond rotation (R148): duration clock at its beginning, groups tested in it, its lateness logged -/
  rotAt : Nat := 0
  rotDone : Nat := 0
  rotLate : Bool := false
  deriving DecidableEq, Repr

/-- A stolen task on its way to the thief (R70). -/
structure Stolen where
  thief : Nat := 0
  q : QTask := {}
  /-- the cell it was taken from, the cycle of the thief's region in which, and the cells that tried for the same tail in
  that cycle (R70) -/
  src : Nat := 0
  cycle : Int := 0
  losers : List Nat := []
  /-- cycles of the thief's region at which it arrives, in 1/80 of a cycle -/
  due : Int := 0
  deriving DecidableEq, Repr

/-- A landing record (R85). -/
structure Landing where
  key : MsgKey := {}
  n : Nat := 1
  got : List Nat := []
  /-- status of a refused message, 0 for an accepted one; its parts answered -/
  refused : Nat := 0
  answered : Nat := 0
  /-- the zone's four words at the opening (R81) -/
  cfg : List Nat := []
  zone : Nat := 0
  entry : Nat := 0
  /-- the tag word of an append entry -/
  tag : Nat := 0
  tagged : Bool := false
  opened : Nat := 0
  closed : Bool := false
  deriving DecidableEq, Repr

/-- A message sent by this spire and not yet completed (R85). -/
structure OutMsg where
  id : Nat := 0
  /-- parts; a tally counts as one -/
  n : Nat := 1
  /-- parts answered: number and status; parts whose latest answer was RETRY, and when -/
  got : List (Nat × Nat) := []
  again : List (Nat × Nat) := []
  /-- the sender: cell (0 to 63) or the dispatch unit (64) -/
  cell : Nat := 0
  /-- 0 SEND, 1 token row of a DISPATCH, 2 return, 3 tally -/
  kind : Nat := 0
  /-- of a token row: place of its DROP byte (cell * 2^24 + byte of the well), choice, return zone -/
  txt : Nat := 0
  choice : Nat := 0
  retZone : Nat := 0
  /-- destination: another device, or inside; spire -/
  dev : Option Nat := .none
  dst : Nat := 0
  /-- transaction number at the source oculus, of a fabric message -/
  seq : Nat := 0
  count : Nat := 0
  sent : Nat := 0
  /-- the parts as they left -/
  parts : List MsgPart := []
  deriving DecidableEq, Repr

/-- A message that the dispatch unit has still to send (R88 to R90). -/
structure DuItem where
  /-- 1 token row, 2 return, 3 tally -/
  kind : Nat := 1
  /-- entry of the source or result zone -/
  entry : Nat := 0
  /-- expert map entry of the owner (Table SP-10), or the tag word of a return (Table SP-8) -/
  word : Nat := 0
  choice : Nat := 0
  /-- place of the DROP byte: cell * 2^24 + byte of the well -/
  txt : Nat := 0
  count : Nat := 0
  deriving DecidableEq, Repr

/-- The dispatch unit's task in progress (R86 to R91): the expert map entries in force at its start, the source or result
zone as it was when the table was walked, and the messages not yet sent. -/
structure DuTask where
  a : ATask := {}
  map : List Nat := []
  src : List Nat := []
  walked : Bool := false
  items : List DuItem := []
  deriving DecidableEq, Repr

structure Du where
  queue : List QTask := []
  cur : Option DuTask := .none
  deriving DecidableEq, Repr

/-- A bulk load in progress (R31): next target, entries left, device address of the next entry. -/
structure BulkLoad where
  next : Nat := 0
  left : Nat := 0
  addr : Nat := 0
  /-- who started it -/
  f : Func := .pf
  /-- entries read, of a load whose entries become pending when it ends -/
  got : List (Nat × List Nat) := []
  /-- the line of the next entry has been asked for; the latest line that came, with its bytes unless it could not be read -/
  asked : Bool := false
  here : Option (Nat × Option (List Byte)) := .none
  deriving DecidableEq, Repr

/-- A field remap of a row in progress (R142). -/
structure Mirror where
  cell : Nat := 0
  row : Nat := 0
  /-- copied and waiting for the tick -/
  copied : Bool := false
  /-- the spare row, once copied: code words that the copier delivered otherwise than the old row holds them; errors stored
  by writes since: code word to mask -/
  data : List (Nat × List Byte) := []
  flips : Tab Nat := []
  deriving DecidableEq, Repr

/-- The stack governor of a spire (R151 to R154). -/
structure Gov where
  /-- duties of the vector units north and south, in sixteenths (R153); GOV_STS holds the others -/
  vecN : Nat := 16
  vecS : Nat := 16
  /-- correction of the estimate, in 1/1024 (R151) -/
  corr : Nat := 1024
  /-- duration clock at the latest window, and at the latest correction -/
  winAt : Option Nat := none
  corrAt : Option Nat := none
  deriving DecidableEq, Repr

structure Spire where
  run : Option Run := .none
  window : List SlotRun := []
  rec_ : FrameRec := {}
  /-- the frame that EPH_FRAME_END and EPH_MIN_SLACK show (R41) -/
  prev : FrameRec := {}
  cells : List Cell := List.replicate 64 {}
  du : Du := {}
  flight : List Stolen := []
  /-- the crossing FIFOs to the south and to the north region: duration clock at which each entry leaves, the oldest first,
  at most 8 that have not left (R78, R334) -/
  crossS : List Nat := []
  crossN : List Nat := []
  landings : List Landing := []
  msgs : List OutMsg := []
  msgId : Nat := 0
  ephLoad : Option BulkLoad := .none
  tskLoad : Option BulkLoad := .none
  xmapLoad : Option BulkLoad := .none
  /-- await notifications on their way: slot, tick of its frame, second await -/
  notes : List (Nat × Nat × Bool) := []
  /-- wells: logical cell * 12582912 + row * 256 + byte; scratch: cell * 2^20 + offset -/
  well : Tab Byte := []
  scratch : Tab Byte := []
  /-- stored-bit errors of well code words: (cell * 49152 + row) * 8 + code word to a mask of 272 bits (R144); of scratch
  code words: cell * 32768 + code word (R54) -/
  flips : Tab Nat := []
  scrFlips : Tab Nat := []
  mirror : Option Mirror := .none
  /-- corrections of a row since the start of the spire; rows whose remap the firmware requests in turn (R143) -/
  rowCe : Tab Nat := []
  remapWant : List (Nat × Nat) := []
  /-- rows in a field spare: cell * 49152 + row to spare bank row + 1 -/
  fieldMap : Tab Nat := []
  /-- failed lanes without a spare, and those to be replaced at the next tick: cell, group, lane (R149, R150); cells out at
  the tick -/
  bondCov : List (Nat × Nat × Nat) := []
  bondPend : List (Nat × Nat × Nat) := []
  bondOut : List Nat := []
  gov : Gov := {}
  /-- 0 in service, 1 in reset or power cycle, 2 failed, lost or fenced, 3 cell map failed, 4 not started -/
  out : Nat := 4
  /-- physical cells that the fuses mark bad, and those bad as fused or tested at start (R73, R76) -/
  fuseBad : List Nat := []
  bad : List Nat := []
  /-- fuse maps and the start-time choices by physical cell: bank rows and symbol columns in spares (cell * 16 + bank), lanes
  in spares (cell * 64 + group) (R140, R147) -/
  fuseRows : Tab (List Nat) := []
  fuseCols : Tab (List Nat) := []
  fuseLanes : Tab (List Nat) := []
  softRows : Tab (List Nat) := []
  softCols : Tab (List Nat) := []
  lanes : Tab (List Nat) := []
  /-- duration clock at the beginning of its array power cycle (R155) -/
  cycleAt : Nat := 0
  deriving DecidableEq, Repr

/-! ### Faults (R427 to R450) -/

/-- A queue entry (Table FA-3), with the whole time and the posting page. -/
structure ErrEntry where
  cls : Nat := 0
  code : Nat := 0
  part : Nat := 15
  unit : Nat := 0
  rep : Nat := 0
  time : Nat := 0
  last : Nat := 0
  info : Nat := 0
  page : Nat := 0
  deriving DecidableEq, Repr

/-- A device-log record (R430). -/
structure LogRec where
  e : ErrEntry := {}
  prior : Bool := false
  ack : Bool := false
  seq : Nat := 0
  deriving DecidableEq, Repr

/-- A reset in progress (R446 to R449): phases as RESET_STS.PHASE. -/
structure Reset where
  scope : Nat := 0
  target : Nat := 0
  phase : Nat := 1
  /-- a cutoff has followed the write (R446) -/
  ready : Bool := false
  /-- duration clock at the tick of its effect; its parts are up again (R449) -/
  since : Nat := 0
  up : Bool := false
  /-- of a plinth reset: its stations that were out before it -/
  outs : Nat := 0
  deriving DecidableEq, Repr

structure Faults where
  /-- error queues by page -/
  queues : Tab (List ErrEntry) := []
  log : List LogRec := []
  nextSeq : Nat := 1
  resets : List Reset := []
  /-- the last 16 records in the non-volatile store (R358, R450) -/
  saved : List LogRec := []
  /-- duration clock at which recovery was entered -/
  recoveryAt : Nat := 0
  deriving DecidableEq, Repr

/-- A counter of a counter page (R492 to R497); EVC_SHD_TICK is the number of the latest tick. -/
structure Evc where
  cnt : Nat := 0
  shd : Nat := 0
  /-- duration clock of each unit's latest occurrence, plus one; 0 for none (R493, rising edge) -/
  last : Tab Nat := []
  seen : Bool := false
  deriving DecidableEq, Repr

/-! ### Partition layout (R404 to R407) -/

structure Layout where
  /-- owner of each spire and of each granule: 0 to 7, or 15 for none -/
  spires : List Nat := List.replicate 16 15
  gran : Tab Nat := []
  /-- first tag and number of tags of each partition -/
  tags : List (Nat × Nat) := List.replicate 8 (0, 0)
  deriving DecidableEq, Repr


/-! ### Gatehouses -/

/-- A request accepted by a gatehouse (R171, R175): the header, the station that sent it, the station it reached and the
key in force at its acceptance. -/
structure GOp where
  h : Hdr := {}
  src : Nat := 0
  at_ : Nat := 0
  key : Nat := 0
  deriving DecidableEq, Repr

/-- A line-buffer entry (R174): plaintext, key, changed bytes, and the operations that wait for the fill. -/
structure LEntry where
  line : Nat := 0
  key : Nat := 0
  data : List Byte := []
  changed : Nat := 0
  filling : Bool := false
  queue : List GOp := []
  /-- a drain under way has to write it back (R178) -/
  drain : Bool := false
  /-- cycles of the gatehouse's region at the latest operation, in 1/80 of a cycle -/
  last : Int := 0
  deriving DecidableEq, Repr

/-- Refresh of a rank (Table GH-5): commands due less commands issued at `base`, and the doubled rate. -/
structure Refresh where
  base : Nat := 0
  debt : Int := 0
  dbl : Bool := false
  deriving DecidableEq, Repr

/-- Training of a channel (R181, R182): correction in force and the one that waits for the tick. -/
structure Chan where
  corr : Int := 0
  corrPend : Option Int := .none
  retraining : Bool := false
  fails : Nat := 0
  /-- duration clock at the latest oscillator measurement, and when a request last used the channel (R180) -/
  osc : Nat := 0
  used : Nat := 0
  deriving DecidableEq, Repr

/-- A page of a channel: channel, rank, bank, row. -/
structure MPage where
  ch : Nat := 0
  rank : Nat := 0
  bank : Nat := 0
  row : Nat := 0
  deriving DecidableEq, Repr

/-- A field remap in progress (R185): the page; once it is copied, the stored-bit errors of its code words in the entry. -/
structure GMirror where
  page : MPage := {}
  copied : Bool := false
  entry : Tab Nat := []
  deriving DecidableEq, Repr

structure Gate where
  /-- a thermal trip holds its requests (Table PW-5) -/
  trip : Bool := false
  /-- 0 in service, 1 in reset, 2 out of service, 4 not started -/
  out : Nat := 4
  /-- line buffer (R174 to R179); LBUF_STS is read from it -/
  lbuf : List LEntry := []
  /-- requests that wait for an entry or for their channel (R175, R182) -/
  waitq : List GOp := []
  chans : Tab Chan := []
  /-- channel * 2 + rank; duration clock since which its ranks owe refreshes -/
  refresh : Tab Refresh := []
  since : Nat := 0
  mirror : Option GMirror := .none
  /-- pages in the remap store: 1 fused, 2 soft, 3 field (R184) -/
  store : List (MPage × Nat) := []
  /-- the belfry's repair record (R187), non-volatile -/
  record : List MPage := []
  /-- corrections since start by page, and pages whose remap firmware will request (R186) -/
  pageCe : List (MPage × Nat) := []
  remapWant : List MPage := []
  /-- lines read in the patrol pass, duration clock at its beginning, the overrun reported (R188) -/
  patrol : List Nat := []
  passAt : Nat := 0
  passLate : Bool := false
  /-- duration clock at the latest MR4 readout of a die, package * 6 + die -/
  mr4 : Tab Nat := []
  /-- dies whose temperature limits their package (R183, R371): package * 6 + die, and the duration clock plus one since which MR4
  reports the die within range; 0 while it does not -/
  hot : List (Nat × Nat) := []
  deriving DecidableEq, Repr

/-! ### Plinths -/

/-- What a link sends: an idle flit, or a bundle with its headers, and the fields of the link word (Table PL-3). -/
structure LUnit where
  idle : Bool := false
  seq : Nat := 0
  ackSeq : Nat := 0
  ackV : Bool := false
  nak : Bool := false
  credit : Nat := 0
  hdrs : List Hdr := []
  deriving DecidableEq, Repr

/-- A bundle in a link's retry buffer (R210). -/
structure LSent where
  seq : Nat := 0
  hdrs : List Hdr := []
  flits : Nat := 0
  deriving DecidableEq, Repr

/-- The link of an ordered pair of stations on a plane, both its ends (R195, R201 to R217). -/
structure Link where
  /-- 0 down, 1 training, 2 up, 3 failed; nothing while as the start of the plinths left it -/
  st : Option Nat := .none
  fenced : Bool := false
  /-- block lock lost at (duration clock) -/
  lost : Option Nat := .none
  /-- line: units sent and not wholly received, bits of the first that have arrived, as decoded, and whether one of their
  blocks was uncorrectable; scrambler register at the next block, nothing at the start value of the link's training; number
  of its trainings (R198 to R202) -/
  flight : List LUnit := []
  cut : Nat := 0
  arrived : Nat := 0
  spoiled : Bool := false
  scr : Option Nat := .none
  trains : Nat := 0
  /-- correctable and uncorrectable blocks in a row (R201); bits corrected in the window that began at `winAt` (R223) -/
  okRun : Nat := 0
  badRun : Nat := 0
  errs : Nat := 0
  winAt : Nat := 0
  /-- flits that the receiving die has freed and not yet returned as credits (R208) -/
  freed : Nat := 0
  /-- receiver: expected bundle, one delivered yet, discarding until the expected one, closed by LINK_QUERY (R217) -/
  expect : Nat := 0
  any : Bool := false
  skip : Bool := false
  closed : Bool := false
  /-- sender: next bundle, retry buffer, resends of the oldest in a row, latest progress, credits, waiting headers -/
  next : Nat := 0
  retry : List LSent := []
  /-- bundles of the retry buffer that have to leave again, as credits allow (R208, R210) -/
  again : List LSent := []
  resent : Nat := 0
  ackAt : Nat := 0
  credit : Nat := 32
  q : List Hdr := []
  /-- recovery (R217), each failure under the number of the training that it ended: queries not answered, whether one still has
  to be sent, the bundles left unacknowledged; and at the receiver, the last sequence delivered plus one -/
  asked : List Nat := []
  unsent : Bool := false
  doubt : List (Nat × LSent) := []
  heard : Tab Nat := []
  /-- failed at; background retraining due from (R215) -/
  failedAt : Nat := 0
  /-- retrained: the mask clears at the next tick -/
  retrained : Bool := false
  /-- the mask is set at the next tick: 0 no, 1 yes, 2 yes and the error is logged (R215) -/
  maskDue : Nat := 0
  /-- the receiver's latest answer is a NAK (R209) -/
  nak : Bool := false
  /-- masked for lack of a transmit lane, of a receive lane (R225) -/
  noTx : Bool := false
  noRx : Bool := false
  /-- the lane that was exchanged and whose errors are watched, and the one whose exchange waits for the tick (R223): 0 none,
  1 the transmit lane at the source, 2 the receive lane at the destination -/
  lane : Nat := 0
  lanePend : Nat := 0
  deriving DecidableEq, Repr

/-- A plinth beside its registers and links. -/
structure Plinth where
  /-- 0 in service, 1 in reset, 2 fenced or failed, 4 not started -/
  out : Nat := 4
  /-- the plinth's links have trained since its latest start or reset -/
  trained : Bool := false
  /-- duration clock at the latest test of a local station's control group (R223) -/
  ctlAt : Tab Nat := []
  /-- port rows whose seam lane is being replaced (R226): plane, station, receive row -/
  seam : List (Nat × Nat × Bool) := []
  deriving DecidableEq, Repr

/-! ### Lanterns and calibration -/

/-- A comb line of a side (R233 to R239): qualifying links, frame margin in 0.1 dB rounded up, the margins of the last 64
frames, consecutive frames at or below the swap threshold and above it, LN_LINE.STATE, pairs masked for the loss. -/
structure LineSt where
  links : Nat := 0
  margin : Int := 0
  hist : List Int := []
  low : Nat := 0
  high : Nat := 0
  st : Nat := 0
  advised : Bool := false
  masked : Bool := false
  /-- masks set or cleared at the next tick (R239) -/
  lossDue : Bool := false
  clearDue : Bool := false
  deriving DecidableEq, Repr

/-- The tracking of a ring (R245, R246): the latest code error, codes moved since it was measured, frames since (0 for never
measured), drift per frame, amplitude of a drop ring on the upper side of its dither. -/
structure RingTrack where
  err : Int := 0
  moved : Int := 0
  n : Nat := 0
  slope : Int := 0
  up : Nat := 0
  deriving DecidableEq, Repr

/-- A transmit or receive row (R243 to R254): offset and unusable rings, nothing while as fused; residual, trims that are not 0,
base codes that a sweep wrote (plus one), drive levels that a sweep set, tracking of its rings, and what keeps the row out. -/
structure Row where
  off : Option Nat := .none
  resid : Int := 0
  trims : Tab Int := []
  base : Tab Nat := []
  bad : Option (List Nat) := .none
  drive : Option (BitVec 24) := .none
  track : Tab RingTrack := []
  edge : Bool := false
  /-- masked because the row is outside its window (R249); to be masked at the next tick -/
  outside : Bool := false
  outDue : Bool := false
  /-- lost until the next start (R227, R254) -/
  lost : Bool := false
  /-- R - 1600 * (o - o_ref) summed over the frames of the thermal map, and out in one of them (R257) -/
  sum : Int := 0
  gap : Bool := false
  deriving DecidableEq, Repr

/-- A recalibration of a port row (R250): 0 masked at the next tick, 1 emptying its retry buffers, 2 swept, 3 its masks
clear at the next tick. `since` is the duration clock at the masking tick. -/
structure Sweeping where
  st : Nat := 0
  plane : Nat := 0
  phase : Nat := 0
  rescue : Bool := false
  since : Nat := 0
  deriving DecidableEq, Repr

/-- A port row that waits for a rescue (R253): for a seam lane, whatever RESCUE_EN says (R226); masked while it waits. -/
structure Rescue where
  st : Nat := 0
  plane : Nat := 0
  seam : Bool := false
  masked : Bool := false
  deriving DecidableEq, Repr

/-- Lanterns and rings of both sides. LN_STS holds the bays and the selector. -/
structure Optics where
  /-- lines by side * 48 + line; A_nom of a link by its key -/
  lines : Tab LineSt := []
  anom : Tab Nat := []
  /-- A_nom of a side may be recorded; ticks since the latest swap or return of the side plus one, 0 for none -/
  anomDue : List Bool := [false, false]
  sinceSwap : List Nat := [0, 0]
  /-- the side that L2's selector moves to, settled, latched at the cutoff (R236) -/
  swapTo : Option Nat := .none
  swapLine : Nat := 0
  settled : Bool := false
  swapNow : Bool := false
  /-- a return is due at the next tick (R241) -/
  ret : Bool := false
  /-- duration clock until which a side's links are held (R237, R238) -/
  hold : List Nat := [0, 0]
  /-- rows by station * 8 + 4 for receive + plane -/
  rows : Tab Row := []
  sweeps : List Sweeping := []
  /-- port rows that wait for a rescue (R253) -/
  rescue : List Rescue := []
  /-- codes by which every active receive ring stands off its line: 4 up or down at successive ticks (R245) -/
  dither : Int := 0
  /-- decision thresholds of receivers by link (R245) -/
  eyes : Tab (Nat × Nat × Nat) := []
  /-- records of the lanterns in the bays (R255) -/
  lanterns : Tab LanternRecord := []
  /-- duration clock of the latest row start of the rotation -/
  rotAt : Nat := 0
  /-- duration clock plus one since which a side has no light (R240) -/
  dark : List Nat := [0, 0]
  /-- frames of the thermal map, and a map to publish -/
  mapTicks : Nat := 0
  mapDue : Bool := false
  deriving DecidableEq, Repr

/-! ### Oculi -/

/-- A bundle in a port's retry buffer (R274): packets, the pool charged, its flits. -/
structure Sent where
  seq : Nat := 0
  pkts : List Pkt := []
  pool : Nat := 0
  flits : Nat := 0
  deriving DecidableEq, Repr

/-- Training of a port (R273): equal flits received in a row, the latest, and the round trips summed. -/
structure Train where
  run : Nat := 0
  last : Option TrainFlit := .none
  rtt : Nat := 0
  /-- duration clock at which training began, and at which its own flits first had ACK set -/
  since : Nat := 0
  acked : Option Nat := .none
  /-- duration clock at which training failed -/
  failed : Option Nat := .none
  deriving DecidableEq, Repr

/-- A fibre port beside its registers (R264 to R278). PORT_STS holds its state. -/
structure Port where
  locked : Bool := false
  /-- receiver: scrambler register at the next code word; the unit that has begun to arrive, with its flits so far; code words
  decoded and uncorrectable ones in a row (R266 to R268) -/
  rxScr : Nat := 2 ^ 31 - 1
  part : Option (Nat × Nat) := .none
  okRun : Nat := 0
  badRun : Nat := 0
  /-- CW_SEQ of the latest code word, when that decoded (R266, R268) -/
  cwSeq : Option Nat := .none
  /-- symbols corrected in the window of 1 ms that began at `winAt`; a second retrain within 1 s is needed (R269) -/
  syms : Nat := 0
  winAt : Nat := 0
  tooMany : Bool := false
  /-- duration clock at the loss of lock, and at the latest retrain for errors -/
  lostAt : Nat := 0
  retrained : Option Nat := .none
  /-- error-rate crossing under way (R269) -/
  crossed : Bool := false
  train : Train := {}
  /-- expected bundle, one received since link-up, discarding until it arrives (R209, R274) -/
  expect : Nat := 0
  any : Bool := false
  skip : Bool := false
  /-- its latest answer is a NAK (R209); sizes of its own pools in force since its training (R299) -/
  nak : Bool := false
  pools : List Nat := []
  /-- next bundle number, retry buffer, resends of the oldest in a row, duration clock at the latest progress -/
  next : Nat := 0
  retry : List Sent := []
  /-- bundles of the retry buffer that are due to be sent again (R210) -/
  again : List Sent := []
  resent : Nat := 0
  ackAt : Nat := 0
  /-- packets waiting for credit, with their arrival level -/
  q : List Pkt := []
  /-- credits of the partner's pools 0 to 11 -/
  credit : List Nat := List.replicate 12 0
  /-- input buffer: packets for this device that wait, with the pool charged -/
  held : List (Pkt × Nat) := []
  /-- flits of its pools that are free again and not yet returned, and the credits returned so far, in units of 8 flits (R276) -/
  freed : List Nat := List.replicate 12 0
  returned : List Nat := List.replicate 12 0
  /-- bundles whose delivery FLINK_QUERY asks for, and the duration clock at the query (R291) -/
  asked : List Sent := []
  askedAt : Option Nat := .none
  /-- duration clock since which a bundle waits for credit (R296) -/
  stalled : Option Nat := .none
  /-- queue samples of the map epoch and the duration clock up to which they are taken (R296, R297) -/
  qSum : Nat := 0
  qN : Nat := 0
  qPeak : Nat := 0
  qAt : Nat := 0
  /-- TX_FLITS at the start of the epoch, stall time in it -/
  txAt : Nat := 0
  stallNs : Nat := 0
  deriving DecidableEq, Repr

/-- Who waits for a transaction of an oculus. -/
inductive Sender where
  /-- the FOP task in progress at a cell -/
  | fop (n c : Nat)
  /-- a message of a spire (R85) -/
  | msg (n id : Nat)
  /-- a remote slot signal (R38) -/
  | signal (n tag slot : Nat)
  /-- the requests absorbed in transit (R313) -/
  | absorbed (l : List Pkt)
  /-- a transaction of an internal link: oculus station, source station, header (R204) -/
  | link (st src : Nat) (h : Hdr)
  deriving DecidableEq, Repr

/-- A copy of an MC_STORE (R317 to R319): target, status answered, resent at. -/
structure Copy where
  dev : Nat := 0
  status : Option Nat := .none
  sentAt : Nat := 0
  /-- the latest answer was RETRY -/
  again : Bool := false
  deriving DecidableEq, Repr

/-- An outstanding transaction of an oculus (R284): its number with the oculus in bit 15. -/
structure Txn where
  seq : Nat := 0
  who : Sender := .fop 0 0
  pkt : Pkt := {}
  copies : List Copy := []
  opened : Nat := 0
  /-- the key and counter it was sealed under (R320) -/
  key : Nat := 0
  deriving DecidableEq, Repr

/-- A bulk load (R31): of a spire's ephemeris, task store or expert map, of an oculus's routes or groups, of the windows. -/
inductive LoadAt where
  | eph (n : Nat)
  | tsk (n : Nat)
  | xmap (n : Nat)
  | route (e : Nat)
  | mcg (e : Nat)
  | win
  deriving DecidableEq, Repr

/-- Where an increment arose: a spire, or the fabric at an oculus (R309). -/
inductive Issuer where
  | spire (n : Nat)
  | fabric (e : Nat)
  deriving DecidableEq, Repr

/-- A line entry of the combining buffer (R312 to R315): requests absorbed, in order of arrival, and when the latest for
the line arrived. `win` holds the words of the window that admitted them (R307). -/
structure Comb where
  tag : Nat := 0
  line : Nat := 0
  win : List Word := []
  cls : Nat := 0
  pkts : List Pkt := []
  last : Nat := 0
  deriving DecidableEq, Repr

/-- What a transaction inside the device is for, at the station that has it open (R204, R285, R439). -/
inductive Caller where
  /-- line `i` of the LOAD or STORE at a cell of a spire -/
  | line (n c i : Nat)
  /-- part `k` of a message of a spire -/
  | part (n id k : Nat)
  /-- signal `i` of a slot of a spire, for a count homed on another spire (R38, R309) -/
  | signal (n slot t0 i : Nat)
  /-- the next line of a bulk load -/
  | load (w : LoadAt)
  /-- a request that an oculus admitted, with the own transaction that it belongs to -/
  | req (e : Nat) (k : Pkt) (own : Option Nat)
  /-- a combined generation of an oculus, with the headers of its survivor that have not left yet (R314, R315) -/
  | comb (e : Nat) (c : Comb) (rest : List Hdr)
  /-- a copy in the multicast buffer of an oculus (R317) -/
  | copy (e : Nat) (b : Pkt × Pkt × Nat)
  /-- line `i` of an access of the host to device memory (R457) -/
  | host (id i : Nat)
  deriving DecidableEq, Repr

/-- A transaction that a station has open inside the device (R204, R439): its identifier, its destination, the duration clock
when it was sent. -/
structure Call where
  st : Nat := 0
  tid : Nat := 0
  dst : Nat := 0
  sent : Nat := 0
  who : Caller := .load .win
  deriving DecidableEq, Repr

/-- An access of a host function to device memory that is not complete (R457): function, window offset, first byte in its first
line, length; the lines that have not left, with destination and header; those not answered; the lines that came; the first status
other than 0. -/
structure HostOp where
  id : Nat := 0
  read : Bool := true
  m : Nat := 0
  offset : Nat := 0
  skip : Nat := 0
  len : Nat := 0
  todo : List (Nat × Nat × Hdr) := []
  left : Nat := 0
  got : Tab (List Byte) := []
  status : Nat := 0
  deriving DecidableEq, Repr

structure Oculus where
  /-- 0 in service, 1 in reset, 2 out of service or fatal, 4 not started -/
  out : Nat := 4
  ports : List Port := List.replicate 16 {}
  nextSeq : Nat := 0
  txns : List Txn := []
  /-- numbers of completed MC_STOREs and the duration clock until which they are not used again (R318) -/
  parked : List (Nat × Nat) := []
  comb : List Comb := []
  /-- multicast buffer: copies accepted and not yet applied, as received and as read, with the line; its size in units of 256 KiB,
  in force (R317) -/
  mcBuf : List (Pkt × Pkt × Nat) := []
  mcCap : Nat := 4
  routeLoad : Option BulkLoad := .none
  mcgLoad : Option BulkLoad := .none
  winLoad : Option BulkLoad := .none
  /-- port records of the map epoch that ended, whose CMAP packet is due (R297) -/
  mapDue : Option (List Nat) := .none
  /-- East: duration clock plus one at which the bypass began its latest move (R294) -/
  bypassAt : Nat := 0
  /-- detoured transactions at a relay station of the oculus (R219); fabric-bound transactions that wait at a station -/
  detour : List (Nat × Hdr) := []
  fabWait : List (Nat × Hdr) := []
  deriving DecidableEq, Repr

/-- A duplicate-filter entry (R318): source, number, duration clock at which it expires. -/
structure Dup where
  src : Nat := 0
  seq : Nat := 0
  until_ : Nat := 0
  deriving DecidableEq, Repr

/-! ### Security -/

/-- A receive half with its replay windows, one for each sending oculus: highest counter plus one, and the 32,768
counters below it (R321). -/
structure RxHalf where
  key : BitVec 256 := 0
  hi0 : Nat := 0
  map0 : Nat := 0
  hi1 : Nat := 0
  map1 : Nat := 0
  deriving DecidableEq, Repr

/-- A pair-key entry (R411 to R416). -/
structure PairKey where
  mgmt : Bool := false
  tag : Nat := 0
  peer : Nat := 0
  tx : BitVec 256 := 0
  rx : RxHalf := {}
  /-- sealing with the transmit half: in force, due at the next tick, or waiting for the peer (R413) -/
  sealing : Bool := false
  due : Bool := false
  /-- counters of the packets sealed by East and West (R414) -/
  sent0 : Nat := 0
  sent1 : Nat := 0
  exhausted : Bool := false
  /-- the older receive half and transmit half of a replaced key, and the duration clock at which it ends -/
  oldRx : Option RxHalf := .none
  oldTx : Option (BitVec 256) := .none
  oldEnd : Option Nat := .none
  /-- KEY_DROP accepted (R415) -/
  drop : Bool := false
  deriving DecidableEq, Repr

/-! ### Belfries -/

/-- A belfry and its interlock circuit beside its registers (R377 to R389). BF_STS.ROLE is its role: 3 holds. -/
structure Belfry where
  /-- hands over at the next tick; has handed over: its circuit holds no more (R381, R386) -/
  handDue : Bool := false
  handing : Bool := false
  /-- duration clock at its takeover query; the query found no path; a refusal is on its way; at the latest refusal -/
  asked : Option Nat := .none
  noPath : Bool := false
  refusal : Bool := false
  refused : Option Nat := .none
  /-- duration clock at the latest hold pulse that its pin has seen, and at the latest it drove; own pulses missing in a row
  (R377, R379) -/
  seenAt : Nat := 0
  drove : Option Nat := .none
  missed : Nat := 0
  /-- duration clock at failed restarts; left off (R383) -/
  fails : List Nat := []
  left : Bool := false
  /-- result of its boot ROM in the present start -/
  rom : Option Bool := .none
  /-- self-test (R387, Table BF-3) -/
  selfOk : Bool := true
  keysOk : Bool := true
  fwMatch : Bool := true
  /-- duration clock at the end of its latest rotation -/
  rotAt : Option Nat := .none
  lastFail : Nat := 0
  failCount : Nat := 0
  deriving DecidableEq, Repr

/-- Interlock line, management state and the pair interlock (R376 to R402). -/
structure Mgmt where
  /-- duration clock since which the line is stuck, and at which the holder stopped -/
  stuckAt : Option Nat := .none
  stoppedAt : Option Nat := .none
  /-- ticks in a row without the standby's report; READY = 0 since; logged (R389) -/
  missing : Nat := 0
  notReady : Option Nat := .none
  notReadyLogged : Bool := false
  /-- latest kick of the heartbeat engine and the INTLK_A circuit while they run (R394); heartbeats sent -/
  kickAt : Option Nat := .none
  hbSeq : Nat := 0
  hbSent : Option Nat := .none
  /-- duration clock and TOP_OK of the latest accepted heartbeat; isolation is due at the next tick (R396) -/
  hbAt : Nat := 0
  topOk : Bool := false
  isolateDue : Bool := false
  /-- count of the admission tick (R399) -/
  admitAt : Option Nat := .none
  /-- INTLK_B: low since, latest pulse seen; takeover query to the partner, latest refusal, its MID (R390) -/
  lowAt : Option Nat := .none
  senseAt : Option Nat := .none
  pairAsked : Option Nat := .none
  pairRefused : Option Nat := .none
  /-- own INTLK_A pulses missing in a row (R379, R390) -/
  pairMissed : Nat := 0
  /-- records of the state log, as duration clocks of the changes, the oldest first: held by the holder, and received by the
  standby and not yet applied (R382) -/
  logHeld : List Nat := []
  logWait : List Nat := []
  mid : Nat := 0
  /-- plinths to be fenced at the next tick and their cause codes (R400) -/
  halveDue : List (Nat × Nat) := []
  /-- recovery: every partition fails at the next tick (R450) -/
  failDue : Bool := false
  deriving DecidableEq, Repr

/-! ### Power and temperature (R356 to R374) -/

structure Power where
  /-- the hot-swap is closed -/
  closed : Bool := false
  /-- steps of Table PW-2 whose rails are up; lantern bays whose rail is on; rails that have failed since (R359, R360) -/
  rails : Nat := 0
  lnOn : List Nat := []
  railFailed : List Nat := []
  /-- latest samples of the input, the latest first: 10 mV, 10 mA (R502) -/
  samples : List (Nat × Nat) := []
  /-- duration clock at the latest sample of the input, and of the sensors (R366, R502) -/
  sampledAt : Option Nat := .none
  sensedAt : Option Nat := .none
  /-- duration clock at the latest guard step while the excess lasts, and since which the input is below the guard band or RED_G
  last fell (R365) -/
  guard : Option Nat := .none
  lowAt : Option Nat := .none
  /-- latest readings of each sensor, the latest first, in 1/64 °C (R366) -/
  readings : List (List Int) := List.replicate 30 []
  /-- stacks, then gatehouses: duration clock at the latest rise of RED_T while at act, and since which every feeding sensor is
  below caution or RED_T last fell (R370) -/
  rise : List (Option Nat) := List.replicate 24 .none
  cool : List (Option Nat) := List.replicate 24 .none
  /-- duration clock since which a gatehouse is below act (Table PW-5) -/
  below : List (Option Nat) := List.replicate 8 .none
  /-- spires tripped and not below act since (R446); plinths tripped whose second judgement is due, with the duration clock at the
  trip -/
  tripped : List Nat := []
  plTrip : List (Nat × Nat) := []
  /-- spires whose overrun is logged in this frame (R364) -/
  overLog : List Nat := []
  deriving DecidableEq, Repr

/-! ### The host and start-up (R453 to R481) -/

/-- A mailbox (R460): host mailboxes 0 to 8, then spire mailboxes. Queues towards the belfry and from it, oldest first;
notices of the belfry and, for a spire mailbox, of the sequencer. The host's notices are MB_STS. `skip` words of a
refused message are still to come (R466). -/
structure Mbox where
  up : List Word := []
  /-- words of an unfinished message that the belfry has removed from the queue (R466) -/
  part : List Word := []
  down : List Word := []
  skip : Nat := 0
  bellUp : Bool := false
  abortUp : Bool := false
  flushUp : Bool := false
  bellDown : Bool := false
  abortDown : Bool := false
  flushDown : Bool := false
  deriving DecidableEq, Repr

/-- A PCIe function: AER record of a Completer Abort with its header, offset and length (R461), SPDM state (1 version,
2 capabilities, 3 algorithms, 4 session) and IDE key (R421, R422); its configuration space: D3hot, the addresses of BAR 0 and
BAR 2, for the PF the SR-IOV control and the VF BARs, the MSI-X control and table (R453, R455, R465). -/
structure HostFn where
  aer : Bool := false
  aerAt : Nat := 0
  aerLen : Nat := 0
  d3 : Bool := false
  bars : List Nat := [0, 0]
  sriov : Word := 0
  vfBars : List Nat := [0, 0]
  msixCtl : Word := 0
  msix : Tab Word := []
  spdm : Nat := 0
  ide : Option (BitVec 256) := .none
  deriving DecidableEq, Repr

/-- The start in progress (R475). BOOT_STS holds its step and state. -/
structure Start where
  /-- RESET_N is held -/
  resetN : Bool := false
  /-- duration clock at its beginning and at the beginning of its step -/
  since : Nat := 0
  stepAt : Nat := 0
  /-- the part of step 9 that the transit needs has been done (R476) -/
  fabric : Bool := false
  /-- duration clock at the latest edge of each sideband input (R472, R473) -/
  edgeAt : List Nat := List.replicate 10 0
  deriving DecidableEq, Repr

/-- The non-volatile store and fuses beside the saved records and repair records (R418, R477): staged and committed
images by TYPE, minimum SVNs, the join set by register key. -/
structure Store where
  staged : Tab (Tab Word) := []
  images : Tab (Tab Word) := []
  svn : Tab Nat := []
  join : List (Nat × Word) := []
  deriving DecidableEq, Repr

/-! ### The security engine (R404 to R426) -/

/-- A command of the engine in progress (Table SE-4): a job or management key, and the function that issued it. -/
structure SeRun where
  cmd : Nat := 0
  mgmt : Bool := false
  tag : Nat := 0
  peer : Nat := 0
  func : Nat := 0
  /-- the bytes of the KX_IN window at the command -/
  input : List Byte := []
  /-- result found at the command (Table SE-4) -/
  res : Nat := 0
  /-- KX_ACTIVATE: the key was due already -/
  wasDue : Bool := false
  deriving DecidableEq, Repr

/-- An exchange that KX_OFFER began (R411): management or job, tag, peer, what was drawn for its encapsulation key, its offer; the
tag has left the partition meanwhile (Table SE-8). -/
structure KxOffer where
  mgmt : Bool := false
  tag : Nat := 0
  peer : Nat := 0
  seed : Nat := 0
  blob : List Byte := []
  lost : Bool := false
  deriving DecidableEq, Repr

structure Sec where
  /-- staged layout (R405); a committed layout that waits, latched at the cutoff -/
  spires : List Nat := List.replicate 8 0
  tags : List (Nat × Nat) := List.replicate 8 (0, 0)
  gran : Tab Nat := []
  layPend : Option Layout := .none
  layNow : Bool := false
  /-- session identifiers; partitions whose SESSION_END is due (R407) -/
  sess : List Nat := List.replicate 8 0
  endDue : List Nat := []
  run : Option SeRun := .none
  offers : List KxOffer := []
  /-- duration clock at the claim or the latest command (R424) -/
  cmdAt : Nat := 0
  /-- a command of the present claim is done (R424) -/
  claimDone : Bool := false
  /-- what the report shows as of the latest tick and that changes between ticks (R420): the MGR_TRUST entries, minimum SVNs, a
  fail-over since the start -/
  tickTrust : List Byte := List.replicate 272 0
  tickSvn : List Nat := [0, 0, 0, 0]
  tickFailed : Bool := false
  /-- the KX_OUT window's bytes (Table SE-2) -/
  kxOut : List Byte := []
  /-- who asked for the report in progress; the report window's words (R420) -/
  attBy : Nat := 0
  report : List Word := []
  deriving DecidableEq, Repr

/-- The state of the part. -/
structure State where
  /-- commands that wait, first in first out -/
  pending : List Instr := []
  /-- the MODEL's own counter: which free value the step reads next -/
  free : Nat := 0
  clk : Clock := {}
  time : TimeEng := {}
  regions : List Region := List.replicate 40 {}
  rf : Tab Word := []
  /-- pending values, those latched at the cutoff -/
  pend : List Pend := []
  latched : List Pend := []
  /-- low words staged (place to value + 1) and high words latched (function * 2^26 + place to value + 1) (R488) -/
  lowStage : Tab Nat := []
  hiLatch : Tab Nat := []
  resp : Resp := .none
  evc : Tab Evc := []
  /-- words of the pages of a unit that a reset takes out, as the belfry recorded them, plus one (R489) -/
  recorded : Tab Nat := []
  faults : Faults := {}
  lay : Layout := {}
  parts : List Part := List.replicate 8 {}
  spires : List Spire := List.replicate 16 {}
  gates : List Gate := List.replicate 8 {}
  /-- lines sent by a spire to a station, or to a device (spire * 2^17 + station, or + 2^16 + device) (R213) -/
  sentTo : Tab Nat := []
  /-- transactions that stations have open inside the device, and the next identifier (R204) -/
  calls : List Call := []
  nextTid : Nat := 0
  /-- accesses of the host to device memory under way, and the next one's number (R457) -/
  hostOps : List HostOp := []
  nextHost : Nat := 0
  /-- increments that wait for a home spire in reset (R448): tag, slot, amount, where they arose -/
  incs : List (Nat × Nat × Nat × Issuer) := []
  /-- device memory (R161): plaintext bytes by device address; unlisted bytes read as 0 -/
  mem : List Host.Cell := []
  /-- key number plus one under which a code word (line * 4 + index) was written; 0 for the zero ciphertext (R173) -/
  memKey : Tab Nat := []
  /-- stored-bit errors of a code word: mask of 576 bits (R164, R169) -/
  memFlip : Tab Nat := []
  /-- key numbers of the partitions and, last, of the administrative function; the next number (R170, R407) -/
  keys : List Nat := List.replicate 9 0
  nextKey : Nat := 1
  /-- key pairs no longer in force that a gatehouse still uses (R171) -/
  dying : List Nat := []
  plinths : List Plinth := List.replicate 2 {}
  /-- links by (source * 48 + destination) * 4 + plane -/
  links : Tab Link := []
  /-- planes of a pair (source * 48 + destination) without an available link at the latest tick (R218) -/
  viaBad : Tab Nat := []
  /-- a tick has computed the standby relays (R218) -/
  relays : Bool := false
  /-- bits of PAIR_MASK that software set: pair, planes (Table PL-7) -/
  swMask : Tab Nat := []
  optics : Optics := {}
  oculi : List Oculus := List.replicate 2 {}
  /-- the duplicate filter, home and mirror alike (R318) -/
  dups : List Dup := []
  /-- pair-key table: 4,096 entries (R410) -/
  pairKeys : Tab (Option PairKey) := []
  sec : Sec := {}
  belfries : List Belfry := List.replicate 2 {}
  mgmt : Mgmt := {}
  power : Power := {}
  mboxes : List Mbox := List.replicate 25 {}
  fns : List HostFn := List.replicate 9 {}
  /-- MSI-X vectors fired: function * 2048 + vector (R459) -/
  irqs : Tab Nat := []
  start : Start := {}
  store : Store := {}
  deriving DecidableEq, Repr

/-- Faults of the model. No meaning raises one: every command of the part has an effect the spec states. -/
inductive Fault where
  /-- reserved for a step outside the spec; raised by nobody; safe -/
  | outsideSpec
  deriving DecidableEq, Repr

/-- Refusals of the model. -/
inductive Refusal where
  /-- the dispatch has no meaning for the command; raised by `exec` only; safe -/
  | notModelled (mnemonic : String)
  deriving DecidableEq, Repr

/-- The part before its start: the hot-swap open, RESET_N not yet released, every register at its reset value (the
unlisted value of `rf`), memory unlisted, no command waiting. -/
def State.reset : State := {}

end Sys2Proof.Machine
end

