-- ==== Sys2Proof/Machine/Tab.lean ====
section
/-! DEFINITION. Reading and writing the sparse tables, in their one canonical form: keys strictly rising, no entry
equal to what an unlisted key reads as. -/

namespace Sys2Proof.Machine

/-- The value at a key; `d` is what an unlisted key reads as. -/
def tget {α : Type} (d : α) : Tab α → Nat → α
  | [], _ => d
  | (k, v) :: t, n => if n = k then v else if n < k then d else tget d t n

/-- The table with the value at a key replaced. Writing `d` removes the entry. -/
def tset {α : Type} [DecidableEq α] (d : α) : Tab α → Nat → α → Tab α
  | [], n, v => if v = d then [] else [(n, v)]
  | (k, w) :: t, n, v =>
    if n < k then (if v = d then (k, w) :: t else (n, v) :: (k, w) :: t)
    else if n = k then (if v = d then t else (n, v) :: t)
    else (k, w) :: tset d t n v

/-- Every key above `lo`, rising, and no entry equal to its default. -/
def twfFrom {α : Type} [DecidableEq α] (d : Nat → α) : Nat → Tab α → Bool
  | _, [] => true
  | lo, (k, v) :: t => decide (lo ≤ k) && !decide (v = d k) && twfFrom d (k + 1) t

/-- The canonical form of a table whose unlisted key `k` reads as `d k`. -/
def twf {α : Type} [DecidableEq α] (d : Nat → α) (t : Tab α) : Bool := twfFrom d 0 t

/-- Each number of a list once, in the order of its first place. -/
def uniq (l : List Nat) : List Nat := l.foldl (fun a x => if a.contains x then a else a ++ [x]) []

/-- Bytes written at consecutive keys. -/
def tputs {α : Type} [DecidableEq α] (d : α) (t : Tab α) (a : Nat) : List α → Tab α
  | [] => t
  | v :: vs => tputs d (tset d t a v) (a + 1) vs

/-- Values at `n` consecutive keys. -/
def tgets {α : Type} (d : α) (t : Tab α) (a : Nat) : Nat → List α
  | 0 => []
  | n + 1 => tget d t a :: tgets d t (a + 1) n

/-- Keys of a table in a half-open range set back to the default. -/
def tclear {α : Type} (t : Tab α) (lo hi : Nat) : Tab α :=
  t.filter fun e => !(decide (lo ≤ e.1) && decide (e.1 < hi))

/-- The element at an index of a table of fixed length. -/
def lget {α : Type} (d : α) (l : List α) (i : Nat) : α := l.getD i d

/-- An element of a table of fixed length changed. -/
def lmod {α : Type} (l : List α) (i : Nat) (f : α → α) : List α := l.modify i f

/-- A number as `n` little-endian bytes. -/
def leBytes : Nat → Nat → List Byte
  | 0, _ => []
  | n + 1, v => BitVec.ofNat 8 v :: leBytes n (v / 256)

/-- The number that little-endian bytes hold. -/
def leNat : List Byte → Nat
  | [] => 0
  | b :: bs => b.toNat + 256 * leNat bs

/-- Bits `[hi:lo]` of a number. -/
def bitsOf (v hi lo : Nat) : Nat := (v >>> lo) % 2 ^ (hi + 1 - lo)

/-- Bit `n` of a number. -/
def bitOf (v n : Nat) : Bool := v.testBit n

/-- One as a bit. -/
def b2n (b : Bool) : Nat := if b then 1 else 0

/-- Two's complement value of the low `w` bits. -/
def sext (w v : Nat) : Int :=
  let m := v % 2 ^ w
  if m < 2 ^ (w - 1) then (m : Int) else (m : Int) - (2 : Int) ^ w

/-- The low `w` bits of an integer in two's complement. -/
def wrapNat (w : Nat) (i : Int) : Nat := (i % (2 ^ w : Int)).toNat

end Sys2Proof.Machine
end

