-- ==== Sys2Proof/Machine/Ops.lean ====
section
/-! DEFINITION. Named operations over the register file, the clock, the event counters and the error queues. -/

namespace Sys2Proof.Machine

/-! ### Register file -/

/-- Key of a register: its place and its selection. -/
def rkey (loc : Loc) (idx : Nat) : Nat := loc * 1048576 + idx

/-- What an unlisted key of the register file reads as: the register's reset value. -/
def rfDefault (key : Nat) : Word := BitVec.ofNat 32 (resetAt (key / 1048576) (key % 1048576))

/-- The word that the register file holds at a place and selection. -/
def State.get (s : State) (loc : Loc) (idx : Nat := 0) : Word :=
  tget (rfDefault (rkey loc idx)) s.rf (rkey loc idx)

/-- The register file with a word replaced. -/
def State.put (s : State) (loc : Loc) (w : Word) (idx : Nat := 0) : State :=
  { s with rf := tset (rfDefault (rkey loc idx)) s.rf (rkey loc idx) w }

/-- A field of a register as a number. -/
def State.fld (s : State) (loc : Loc) (hi lo : Nat) (idx : Nat := 0) : Nat := (s.get loc idx).bits hi lo

/-- A field of a register replaced. -/
def State.setFld (s : State) (loc : Loc) (hi lo v : Nat) (idx : Nat := 0) : State :=
  s.put loc ((s.get loc idx).put hi lo v) idx

/-- A bit of a register. -/
def State.flag (s : State) (loc : Loc) (b : Nat) (idx : Nat := 0) : Bool := (s.get loc idx).bit b

/-- A bit of a register set or cleared. -/
def State.setFlag (s : State) (loc : Loc) (b : Nat) (v : Bool) (idx : Nat := 0) : State :=
  s.setFld loc b b (b2n v) idx

/-- A number added to a field, up to its greatest value. -/
def State.addSat (s : State) (loc : Loc) (hi lo v : Nat) (idx : Nat := 0) : State :=
  s.setFld loc hi lo (min (s.fld loc hi lo idx + v) (2 ^ (hi + 1 - lo) - 1)) idx

/-- A number added to a field, modulo its width. -/
def State.addWrap (s : State) (loc : Loc) (hi lo v : Nat) (idx : Nat := 0) : State :=
  s.setFld loc hi lo (s.fld loc hi lo idx + v) idx

/-- One register, every selection of it, back at its reset value. -/
def State.clearReg (s : State) (loc : Loc) : State :=
  { s with rf := tclear s.rf (rkey loc 0) (rkey (loc + 1) 0) }

/-- A 64-bit register as a number (R488). -/
def State.get64 (s : State) (lo : Loc) (idx : Nat := 0) : Nat :=
  (s.get lo idx).toNat + (s.get (lo + 4) idx).toNat * 2 ^ 32

/-- A 64-bit register replaced. -/
def State.put64 (s : State) (lo : Loc) (v : Nat) (idx : Nat := 0) : State :=
  (s.put lo (BitVec.ofNat 32 v) idx).put (lo + 4) (BitVec.ofNat 32 (v / 2 ^ 32)) idx

/-! ### Free values -/

/-- A free value of 64 bits; the counter moves on. -/
def State.draw (s : State) : Nat × State :=
  ((Config.freeNat s.free).toNat, { s with free := s.free + 1 })

/-! ### Parts by number -/

def State.part (s : State) (p : Nat) : Part := lget {} s.parts p
def State.spire (s : State) (n : Nat) : Spire := lget {} s.spires n
def State.gate (s : State) (g : Nat) : Gate := lget {} s.gates g
def State.plinth (s : State) (e : Nat) : Plinth := lget {} s.plinths e
def State.oculus (s : State) (e : Nat) : Oculus := lget {} s.oculi e
def State.belfry (s : State) (e : Nat) : Belfry := lget {} s.belfries e

def State.modPart (s : State) (p : Nat) (f : Part → Part) : State := { s with parts := lmod s.parts p f }
def State.modSpire (s : State) (n : Nat) (f : Spire → Spire) : State := { s with spires := lmod s.spires n f }
def State.modGate (s : State) (g : Nat) (f : Gate → Gate) : State := { s with gates := lmod s.gates g f }
def State.modPlinth (s : State) (e : Nat) (f : Plinth → Plinth) : State := { s with plinths := lmod s.plinths e f }
def State.modOculus (s : State) (e : Nat) (f : Oculus → Oculus) : State := { s with oculi := lmod s.oculi e f }
def State.modBelfry (s : State) (e : Nat) (f : Belfry → Belfry) : State := { s with belfries := lmod s.belfries e f }

def Spire.cell (sp : Spire) (c : Nat) : Cell := lget {} sp.cells c
def Spire.modCell (sp : Spire) (c : Nat) (f : Cell → Cell) : Spire := { sp with cells := lmod sp.cells c f }
def State.cell (s : State) (n c : Nat) : Cell := (s.spire n).cell c
def State.modCell (s : State) (n c : Nat) (f : Cell → Cell) : State := s.modSpire n fun sp => sp.modCell c f

/-- East 0, West 1. -/
def sideNat : Side → Nat
  | .east => 0
  | .west => 1

/-- The plinth of a station, and its local index there (R229). -/
def stPlinth (st : Nat) : Nat := if st < 24 then 0 else 1
def stLocal (st : Nat) : Nat := if st < 24 then st else 47 - st

/-- A plinth reset has begun to act on a plinth and is not over (R449). -/
def State.plReset (s : State) (e : Nat) : Bool :=
  s.faults.resets.any fun r => r.scope == 3 && r.target == e && decide (2 ≤ r.phase)

/-- Step of the start (BOOT_STS). -/
def State.step_ (s : State) : Nat := s.fld Loc.glBootSts 3 0

/-- A station is out of service (STATION_OUT). -/
def State.stationOut (s : State) (st : Nat) : Bool := s.flag (Loc.plStationOut (stPlinth st)) (stLocal st)

/-! ### Ownership -/

/-- Owner of a spire: a partition, or 15. -/
def State.spireOwner (s : State) (n : Nat) : Nat := lget 15 s.lay.spires n

/-- A partition is defined when it owns a spire (R404). -/
def State.defined (s : State) (p : Nat) : Bool := s.lay.spires.contains p

/-- The spires of a partition, in rising order. -/
def State.spiresOf (s : State) (p : Nat) : List Nat :=
  (List.range 16).filter fun n => s.spireOwner n == p

/-- Owner of a page: a partition, or 15 for the administrative function (R484). -/
def State.pageOwner (s : State) (page : Nat) : Nat :=
  match pageInfo page with
  | some (.spire, n, _) => s.spireOwner n
  | some (.part, p, _) => p
  | some (.mbox, m, _) => if m = 0 then 15 else m - 1
  | _ => 15

/-- Partition that owns a job tag, or 15 (R404). -/
def State.tagOwner (s : State) (tag : Nat) : Nat :=
  match (List.range 8).find? fun p =>
      let r := lget (0, 0) s.lay.tags p
      decide (r.1 ≤ tag ∧ tag < r.1 + r.2) with
  | some p => p
  | none => 15

/-- A job tag lies in the range of a partition (R33, R62, R80). -/
def State.tagOf (s : State) (p tag : Nat) : Bool :=
  let r := lget (0, 0) s.lay.tags p
  decide (p < 8 ∧ r.1 ≤ tag ∧ tag < r.1 + r.2)

/-- Code of a function in PAGE_REJ.FUNC (Table RG-2). -/
def fcode : Func → Nat
  | .pf => 0
  | .vf p => p.val + 1
  | .mgmt => 9
  | .firmware => 10
  | .otherBelfry => 10

/-- The function owns a page with this owner. -/
def fowns (f : Func) (owner : Nat) : Bool :=
  match f with
  | .pf => owner == 15
  | .vf p => owner == p.val
  | _ => false

/-! ### Event counters (R493 to R497) -/

/-- The clock, in units of 12.5 MHz, in which the edges of a page's sources are found (R493). -/
def State.edgeClock (s : State) (page unit : Nat) : Nat :=
  match pageInfo page with
  | some (.spire, n, o) =>
    let r := if o = 8 then unit % 2 else if unit < 32 then 0 else 1
    s.fld Loc.glRegSts 7 0 (2 * n + r)
  | some (.gate, g, _) => s.fld Loc.glRegSts 7 0 (32 + g)
  | some (.belfry, _, _) => 64
  | some (.security, _, _) => 64
  | some (.global, _, 3) => s.fld Loc.glRegSts 7 0 unit
  | _ => 80

/-- A counter of the page is frozen (R495, R497). -/
def State.evcFrozen (s : State) (page k : Nat) : Bool :=
  s.flag (page * 4096 + 0xF08 + 0x20 * k) 19 || s.flag (page * 4096 + 0x00C) 0 || s.flag Loc.moMonCtl 0 ||
    (!s.flag Loc.seDebugCtl 2 && s.pageOwner page == 15)

/-- A counter with an amount added, and its overflow marks (R496). -/
def State.evcAdd (s : State) (page k amt : Nat) : State :=
  let e := tget {} s.evc (page * 8 + k)
  let v := e.cnt + amt
  let s := { s with evc := tset {} s.evc (page * 8 + k) { e with cnt := v % 2 ^ 48 } }
  if v < 2 ^ 48 then s else
    (s.setFlag (page * 4096 + 0xF08 + 0x20 * k) 20 true).setFlag (page * 4096 + 0x018) 2 true

/-- One counter meets an occurrence of an event of its page. -/
def State.evcHit (s : State) (page code unit amt part k : Nat) : State :=
  let w := s.get (page * 4096 + 0xF08 + 0x20 * k)
  let src := w.bits 11 0
  let ev := src % 32
  let takes := w.bit 18 && ev == code && !s.evcFrozen page k &&
    (code ≤ 1 || ((evUnits page code == some 0 || src / 2048 == 1 || (src / 32) % 64 == unit) &&
      (w.bits 15 12 == 15 || (w.bits 15 12 == 14 && part == 15) || w.bits 15 12 == part)))
  if !takes then s else
  let e := tget {} s.evc (page * 8 + k)
  let f := s.edgeClock page unit
  let cyc (t : Nat) := t * f * 125 / 10000
  let last := tget 0 e.last unit
  let edge := last == 0 || cyc s.clk.elapsed ≥ cyc (last - 1) + 2
  let n := match w.bits 17 16 with
    | 0 => amt
    | 1 => 1
    | 2 => b2n edge
    | _ => b2n (!e.seen)
  let s := { s with evc := tset {} s.evc (page * 8 + k) { e with last := tset 0 e.last unit (s.clk.elapsed + 1), seen := true } }
  s.evcAdd page k n

/-- An event occurs: every counter of the page that selects it takes it (R493). -/
def State.bump (s : State) (page code unit : Nat) (amt : Nat := 1) (part : Nat := 15) : State :=
  (List.range 8).foldl (fun s k => s.evcHit page code unit amt part k) s

/-- Places of the counters whose EVC_SEL the register file lists: page and number. -/
def State.evcListed (s : State) : List (Nat × Nat) :=
  s.rf.filterMap fun e =>
    let loc := e.1 / 1048576
    let off := loc % 4096
    if off ≥ 0xF00 ∧ off % 0x20 = 8 ∧ hasEvc (loc / 4096) then some (loc / 4096, (off - 0xF00) / 0x20) else none

/-! ### Time -/

/-- What slewing and the frequency term make of the count over `d` ns, within SLEW_PPM (R341): whole ns, the offset that
remains, the fraction that remains. -/
def State.slewOver (s : State) (d : Nat) : Int × Int × Int :=
  let lim : Int := s.fld Loc.glTimeCtl 11 4 * 1000 * d
  let freq : Int := sext 32 (s.fld Loc.glTimeFreq 31 0) * d
  let move := max (-lim) (min lim (s.clk.slew + freq))
  let acc := s.clk.frac + move
  (acc / 1000000000, s.clk.slew + freq - move, acc % 1000000000)

/-- Transit count after `d` ns. -/
def State.countAfter (s : State) (d : Nat) : Nat := ((s.clk.count : Int) + d + (s.slewOver d).1).toNat

/-- `d` ns pass: the transit count, the duration clock and the counters of transit ns move on (R340, R493, R500). -/
def State.pass (s : State) (d : Nat) : State :=
  if d = 0 then s else
  let l := s.evcListed
  let r := s.slewOver d
  let c := s.countAfter d
  let n := c - s.clk.count
  let s := { s with clk := { s.clk with
    count := c % 2 ^ 64, elapsed := s.clk.elapsed + d, slew := r.2.1, frac := r.2.2
    slewed := s.clk.slewed + s.clk.slew - r.2.1 } }
  l.foldl (fun s e => s.evcHit e.1 1 0 n 15 e.2) s

/-- ns until the transit count reaches `c`. -/
def State.nsTo (s : State) (c : Nat) : Nat :=
  let d := c - s.clk.count
  let m := if s.clk.slew = 0 ∧ s.get Loc.glTimeFreq = 0 then 0 else d / 4000 + 2
  (((List.range (2 * m + 1)).map fun i => d + i - m).find? fun x => decide (c ≤ s.countAfter x)).getD (d + m)

/-- Time passes until the transit count reaches `c`, if it is still ahead. -/
def State.passTo (s : State) (c : Nat) : State := if c ≤ s.clk.count then s else s.pass (s.nsTo c)

/-- One period of the transit clock passes on an idle queue. -/
def State.idle (s : State) : State := s.pass 1

/-- Own count in 1/256 ns. -/
def State.now256 (s : State) : Nat := s.clk.count * 256 + (s.clk.frac * 256 / 1000000000).toNat

/-- The East plinth leaves service: the West's count goes on as the device's (R343). DESIGN CHOICE: the device's count comes to
it by slewing, since it steps at a join only (R341, log entry 242). -/
def State.westKeeps (s : State) : State :=
  { s with time := { s.time with westOfs := 0 }
           clk := { s.clk with slew := s.clk.slew - s.time.westOfs * 1000000000 / 256 } }

/-- The active frame period in ns (R21). -/
def State.period (s : State) : Nat := 1000 * s.fld Loc.glFrameCfg 9 0

/-- The guard in ns (R23). -/
def State.guardNs (s : State) : Nat := max 100 (s.period * s.fld Loc.glFrameCfg 25 16 / 1000)

/-- Count of the next tick (R21, R22). -/
def State.nextTick (s : State) : Nat := (s.clk.lastTick / s.period + 1) * s.period

/-- Time passes until the duration clock reads `t`, unless a tick comes first. -/
def State.waitUntil (s : State) (t : Nat) : Option State :=
  let d := t - s.clk.elapsed
  if s.clk.joined && decide (d > 0) && decide (s.nextTick ≤ s.countAfter d) then none else some (s.pass d)

/-- When something that comes every `step` ns is due again: at once, when it has not come yet. -/
def State.nextOf (s : State) (last : Option Nat) (step : Nat) : Nat :=
  match last with
  | some t => t + step
  | none => s.clk.elapsed

/-! ### Cycles of the regions (R327 to R330) -/

def State.region (s : State) (r : Nat) : Region := lget {} s.regions r
def State.modRegion (s : State) (r : Nat) (f : Region → Region) : State := { s with regions := lmod s.regions r f }

/-- Mesh mode is in force (R337). -/
def State.meshOn (s : State) : Bool := s.flag Loc.glClkSts 0

/-- N of a region: its clock is N × 12.5 MHz (R327). -/
def State.regN (s : State) (r : Nat) : Nat := s.fld Loc.glRegSts 7 0 r

/-- Cycles that a region has counted, in 1/80 of a cycle: N of them pass in a nanosecond (R327). -/
def State.cycles (s : State) (r : Nat) : Int :=
  let x := s.region r
  x.cyc + ((s.clk.elapsed - x.base : Nat) : Int) * s.regN r

/-- A number of whole cycles in the unit of `State.cycles`. -/
def inCycles (n : Nat) : Int := 80 * (n : Int)

/-- The count of a region's cycles held back by `d`/8 of a period, and continued from here (R330). -/
def State.holdCycles (s : State) (r d : Nat) : State :=
  let c := s.cycles r
  let now := s.clk.elapsed
  s.modRegion r fun x => { x with base := now, cyc := c - 10 * (d : Int) }

/-- N of a region set: the cycles from here on have the new period (R40, R327). -/
def State.setRegN (s : State) (r n : Nat) : State := (s.holdCycles r 0).setFld Loc.glRegSts 7 0 n r

/-- Time passes until a region has counted `c`, unless a tick comes first. -/
def State.waitCycles (s : State) (r : Nat) (c : Int) : Option State :=
  let n := max 1 (s.regN r)
  s.waitUntil (s.clk.elapsed + ((c - s.cycles r).toNat + n - 1) / n)

/-- The active belfry: 0 East, 1 West, if one holds the interlock. -/
def State.holder (s : State) : Option Nat :=
  (List.range 2).find? fun e => s.fld (Loc.bfBfSts e) 1 0 == 3

/-- An MSI-X vector of a function fires (R459): 0 PF, p + 1 VF p + 1. -/
def State.irq (s : State) (f v : Nat) : State :=
  { s with irqs := tset 0 s.irqs (f * 2048 + v) (tget 0 s.irqs (f * 2048 + v) + 1) }

/-! ### Error queues and log (R427 to R438) -/

def State.queue (s : State) (page : Nat) : List ErrEntry := tget [] s.faults.queues page
def State.setQueue (s : State) (page : Nat) (q : List ErrEntry) : State :=
  { s with faults := { s.faults with queues := tset [] s.faults.queues page q } }

/-- Two entries merge (R434). -/
def ErrEntry.same (a b : ErrEntry) : Bool := a.cls == b.cls && a.code == b.code && a.unit == b.unit

/-- An entry placed in its queue: a fatal one behind the fatal entries, any other at the end (R433, R435). -/
def placeEntry (q : List ErrEntry) (e : ErrEntry) : List ErrEntry :=
  if e.cls = 3 then q.takeWhile (fun x => x.cls == 3) ++ e :: q.dropWhile (fun x => x.cls == 3) else q ++ [e]

/-- The lowest class present in a list of classes. -/
def lowestClass (l : List Nat) : Nat := l.foldl min 4

/-- The first element of a class removed. -/
def dropClass {α : Type} (cls : α → Nat) (c : Nat) : List α → List α
  | [] => []
  | a :: l => if cls a = c then l else a :: dropClass cls c l

/-- Of two heads, the one that the fault service handles first: a fatal one, then the one that occurred first (R432, R435). -/
def ErrEntry.before (a b : ErrEntry) : Bool :=
  if (a.cls == 3) != (b.cls == 3) then a.cls == 3 else decide (a.time < b.time)

/-- The entry that is handled next (R432). -/
def State.nextEntry (s : State) : Option ErrEntry :=
  (s.faults.queues.filterMap fun q => q.2.head?).foldl (fun o e => match o with
    | none => some e
    | some x => if e.before x then some e else some x) none

/-- The head of a page's queue is being handled (R432): the fault service of an active belfry is never idle while an entry
waits. -/
def State.handling (s : State) (page : Nat) : Bool :=
  s.holder.isSome && (s.nextEntry.map fun e => e.page) == some page

/-- An error is posted: it merges, takes a place, drops an older entry of no higher class, or is dropped
(R429, R433 to R436). -/
def State.post (s : State) (page cls code unit info : Nat) (part : Option Nat := none) : State :=
  let p := match part with | some p => p | none => s.pageOwner page
  let t := s.clk.count
  let e : ErrEntry :=
    { cls := cls, code := code, part := p, unit := unit, info := info % 2 ^ 64, page := page, time := t, last := t }
  let q := s.queue page
  if q.any (fun x => x.same e) then
    s.setQueue page (q.map fun x =>
      if x.same e then { x with rep := min 255 (x.rep + 1), last := s.clk.count } else x)
  else if q.length < 8 then
    (s.setQueue page (placeEntry q e)).setFlag (page * 4096 + 0x018) 1 true
  else
    let keep := if s.handling page then 1 else 0
    let rest := q.drop keep
    let c := lowestClass (rest.map (·.cls))
    let s := s.addSat (page * 4096 + 0xE80) 15 8 1
    if c ≤ cls then
      (s.setQueue page (placeEntry (q.take keep ++ dropClass (·.cls) c rest) e)).setFlag (page * 4096 + 0x018) 1 true
    else s

/-- Partition of a host function or mailbox (PART of Table FA-3): that of its VF, 15 for the PF. -/
def fnPart (m : Nat) : Nat := if 1 ≤ m ∧ m ≤ 8 then m - 1 else 15

/-- Code on the fault page GLOBAL 0x0000. -/
def State.postGlobal (s : State) (cls code unit info : Nat) (part : Option Nat := none) : State :=
  s.post 0 cls code unit info part

/-! ### Rejected writes (R486, R487) -/

/-- PAGE_REJ of a rejected write (Table RG-2): CODE, OFFSET, FUNC and VALID. -/
def rejWord (f : Func) (off code : Nat) : Word := BitVec.ofNat 32 (code + off * 256 + fcode f * 2 ^ 20 + 2 ^ 31)

/-- A rejected write is recorded on its page and counted (R487). -/
def State.reject (s : State) (f : Func) (page off code : Nat) : State :=
  if f = .otherBelfry then s.bump (if s.holder = some 0 then 0x140 else 0x100) 5 0 else
  let s := s.put (page * 4096 + 0x014) (rejWord f off code)
  let s := s.setFlag (page * 4096 + 0x018) 0 true
  let s := s.addWrap Loc.moRejTotal 31 0 1
  s.bump 0x0F00 2 code

/-- The outcome of a write: accepted with the new state, or rejected with a code of Table RG-4. -/
abbrev WR := Except Nat State

/-- A belfry stands by while the other holds. -/
def State.standby (s : State) : Option Nat :=
  (List.range 2).find? fun e => s.fld (Loc.bfBfSts e) 1 0 == 2 && !(lget {} s.belfries e).handing

/-- The holder records a change of managed state for the standby (R382). -/
def State.managed (s : State) : State :=
  if s.holder.isNone ∨ s.standby.isNone then s
  else { s with mgmt := { s.mgmt with logHeld := s.mgmt.logHeld ++ [s.clk.elapsed] } }

/-- The state after a write, with its rejection recorded. -/
def State.settle (s : State) (f : Func) (loc : Loc) (r : WR) : State :=
  match r with
  | .ok t => t.managed
  | .error c => s.reject f (loc / 4096) (loc % 4096) c

/-- A value waits for the tick (R25, R26). -/
def State.pendField (s : State) (loc : Loc) (hi lo v : Nat) (idx : Nat := 0) (part : Option Nat := none) : State :=
  let m := (2 ^ (hi + 1 - lo) - 1) * 2 ^ lo
  { s with pend := s.pend ++ [{ key := rkey loc idx, mask := m, val := (v * 2 ^ lo) % 2 ^ (hi + 1), part := part }] }

/-- A whole word waits for the tick. -/
def State.pendWord (s : State) (loc : Loc) (w : Word) (idx : Nat := 0) (part : Option Nat := none) : State :=
  { s with pend := s.pend ++ [{ key := rkey loc idx, mask := 0xFFFFFFFF, val := w.toNat, part := part }] }

end Sys2Proof.Machine
end

