-- ==== Sys2Proof/Machine/Flags.lean ====
section
/-! DEFINITION. Status that is computed from the state: who may write a page, whether its unit is out, the common
header of every page (R484 to R491). -/

namespace Sys2Proof.Machine

/-- BAR 0 is open: start-up step 2 has ended (R479). -/
def State.barOpen (s : State) : Bool := decide (3 ≤ s.fld Loc.glBootSts 3 0)

/-- Mailbox 0 is served in recovery boot and in a start halted at step 2, before BAR 0 opens (R475, R478). -/
def State.bootMail (s : State) : Bool :=
  s.flag Loc.glBootSts 6 || (s.fld Loc.glBootSts 3 0 == 2 && s.fld Loc.glBootSts 5 4 == 3)

/-- The BARs of the function are open: it is in D0 (Table HS-1). -/
def State.fnAwake (s : State) (f : Func) : Bool :=
  match f with
  | .pf => !(lget {} s.fns 0).d3
  | .vf p => !(lget {} s.fns (p.val + 1)).d3
  | _ => true

/-- A page of BAR 0 is open to a writer or reader. -/
def State.pageOpen (s : State) (f : Func) (page : Nat) : Bool :=
  s.fnAwake f && (s.barOpen || (page == 0x0180 && s.bootMail))

/-- Step of the start at whose end the parts of a block are up (R479, Table HS-11). -/
def upAfter (page : Nat) : Nat :=
  match pageInfo page with
  | some (.plinth, _, _) => 3
  | some (.lantern, _, _) => 4
  | some (.oculus, _, _) => 5
  | some (.gate, _, _) => 6
  | some (.spire, _, _) => 7
  | _ => 2

/-- Pages whose writes are accepted while their parts come up: start, transit, management, identity and routes
(R477, R479). -/
def startPage (page : Nat) : Bool :=
  page == 0x0001 || page == 0x0004 || page == 0x0005 || page == 0x0B02 || page == 0x0C02

/-- The page's unit is out of service, in reset or fenced (PAGE_STS.OUT). -/
def State.pageOut (s : State) (page : Nat) : Bool :=
  match pageInfo page with
  | some (.spire, n, _) => (s.spire n).out != 0
  | some (.gate, g, _) => (s.gate g).out != 0
  | some (.plinth, e, _) => (s.plinth e).out != 0
  | some (.oculus, e, _) => (s.oculus e).out != 0
  | some (.belfry, e, _) => s.fld (Loc.bfBfSts e) 1 0 == 0 || s.flag (Loc.bfBfSts e) 3
  | some (.mbsts, n, _) => (s.spire n).out != 0
  | _ => false

/-- Writes to the page meet a unit that is not up (R489); during the start R479 decides which are taken. -/
def State.pageClosed (s : State) (page : Nat) : Bool :=
  !(startPage page && decide (s.fld Loc.glBootSts 3 0 < 10)) && !(page == 0x0180 && s.bootMail) &&
    (s.pageOut page || decide (s.fld Loc.glBootSts 3 0 ≤ upAfter page))

/-- The page implements PAGE_LOCK (R490). -/
def State.lockable (s : State) (page : Nat) : Bool :=
  decide (page ≤ 8) || page == 0x0E00 || s.pageOwner page != 15 ||
    match pageInfo page with
    | some (.oculus, _, _) => true
    | _ => false

/-- A write that a locked page rejects (R490). -/
def lockCovers (off : Nat) : Bool :=
  (decide (0x40 ≤ off) && decide (off ≤ 0xEFF)) || off == 0x00C || decide (0xF00 ≤ off)

/-- A management key with the upper holder is installed (R416). -/
def State.hasMgmtKey (s : State) : Bool :=
  s.pairKeys.any fun e => match e.2 with
    | some k => k.mgmt && k.peer == s.fld Loc.glMgmtHolder 15 0
    | none => false

/-- The exceptions to page ownership that the chapters grant (R52, R145, R300, R323, R355, R403, R426, R445). -/
def State.writeException (s : State) (f : Func) (page off : Nat) (v : Word) : Bool :=
  match f, pageInfo page with
  | .mgmt, some (.part, _, _) => off == 0x40
  | .mgmt, some (.global, _, 4) => true
  | .mgmt, some (.global, _, 5) => true
  | .mgmt, some (.oculus, _, _) => true
  | .firmware, some (.gate, _, 3) => off == 0x40
  | .firmware, some (.spire, _, 6) => off == 0x60 || decide (0x80 ≤ off ∧ off ≤ 0xA4)
  | .vf p, some (.global, _, 0) =>
    off == 0x48 && ((v.bits 2 0 == 4 && s.spireOwner (v.bits 7 3) == p.val) ||
      (v.bits 2 0 == 6 && v.bits 7 3 == p.val))
  | .vf p, some (.oculus, _, 9) =>
    let own (t : Nat) := s.tagOf p.val t
    if off = 0x40 then own (v.bits 11 0)
    else if 0x44 ≤ off ∧ off ≤ 0x50 then own (s.fld (Loc.ocWinSel 0) 11 0)
    else if off = 0x60 then own (v.bits 15 4)
    else if off = 0x64 then
      let a := s.fld (Loc.ocWinFirst 0) 15 0
      own (a / 16) && own ((a + v.bits 16 0 - 1) / 16)
    else false
  | .vf p, some (.oculus, e, 0xA) =>
    if off = 0x40 then s.tagOf p.val (v.bits 11 0)
    else off == 0x44 && s.tagOf p.val (s.fld (Loc.ocCsSel e) 11 0)
  | f, some (.security, _, o) =>
    let open_ := (o == 0 && (off == 0x70 || off == 0x74 || off == 0x7C || (decide (0x90 ≤ off) && decide (off ≤ 0xB0)))) ||
      o == 3 || o == 4
    let layout := o == 0 && ((decide (0x44 ≤ off) && decide (off ≤ 0x4C)) || off == 0x54 || off == 0x58 || off == 0x5C)
    match f with
    | .vf _ => open_
    | .mgmt => open_ || (layout && s.hasMgmtKey)
    | _ => false
  | _, _ => false

/-- The writer may write the register (R486, first check); nobody writes an error queue (R428). -/
def State.mayWrite (s : State) (f : Func) (page off : Nat) (v : Word) : Bool :=
  !(hasErrq page && decide (0xE00 ≤ off) && decide (off < 0xE84)) &&
    (fowns f (s.pageOwner page) || s.writeException f page off v)

/-- The checks of R486 that come before the register's own rule: the reject code, if one fails. -/
def State.accessCheck (s : State) (f : Func) (page off : Nat) (v : Word) : Option Nat :=
  if !s.mayWrite f page off v then some 4
  else if s.flag (page * 4096 + 0x024) 0 && lockCovers off then some 3
  else if s.pageClosed page && !(off == 0x014 || off == 0x018 || off == 0x01C) then some 6
  else none

/-- A write that reaches a page: the checks of R486, the register's own rule, and the record of a rejection. A closed
BAR 0 takes no write (R453, R479). -/
def State.write (s : State) (f : Func) (loc : Loc) (v : Word) (op : State → WR) : State :=
  if !s.pageOpen f (loc / 4096) then s else
  match s.accessCheck f (loc / 4096) (loc % 4096) v with
  | some c => s.reject f (loc / 4096) (loc % 4096) c
  | none => s.settle f loc (op s)

/-! ### Generic register rules (R7, R8, R25, R486) -/

/-- The bits that the fields of a register cover. -/
def coverMask (fs : List Fd) : Nat := fs.foldl (fun a f => a ||| ((2 ^ f.w - 1) * 2 ^ f.lo)) 0

/-- A written value of a field lies in its stated range. -/
def Fd.inRange (f : Fd) (v : Nat) : Bool :=
  let x := bitsOf v (f.lo + f.w - 1) f.lo
  match f.acc with
  | .rw | .wo => decide (f.mn ≤ x ∧ x ≤ f.mx)
  | _ => true

/-- Reserved bits (0x01). -/
def rsvCheck (fs : List Fd) (v : Word) : Option Nat :=
  if v.toNat &&& coverMask fs ≠ v.toNat then some 1 else none

/-- Reserved bits (0x01), then ranges (0x02). -/
def formCheck (fs : List Fd) (v : Word) : Option Nat :=
  if v.toNat &&& coverMask fs ≠ v.toNat then some 1
  else if !fs.all (·.inRange v.toNat) then some 2
  else none

/-- The effect of a write on one field: a pending value, a stored value, or cleared or set bits (R7, R25). -/
def State.writeField (s : State) (loc idx : Nat) (v : Nat) (part : Option Nat) (f : Fd) : State :=
  let hi := f.lo + f.w - 1
  let x := bitsOf v hi f.lo
  match f.acc with
  | .rw => if f.ts then s.pendField loc hi f.lo x idx part else s.setFld loc hi f.lo x idx
  | .w1c => s.setFld loc hi f.lo (s.fld loc hi f.lo idx &&& (2 ^ f.w - 1 - x)) idx
  | .w1s => s.setFld loc hi f.lo (s.fld loc hi f.lo idx ||| x) idx
  | _ => s

/-- Every field of a register written. -/
def State.writeFields (s : State) (loc idx : Nat) (v : Nat) (part : Option Nat) (fs : List Fd) : State :=
  fs.foldl (fun s f => s.writeField loc idx v part f) s

/-- Fields of a place in the register map; a reserved register has none. -/
def locFields (loc : Loc) : List Fd := (fieldsAt (loc / 4096) (loc % 4096)).getD []

/-- The partition whose slip makes a pending value of a page wait (R28): the owner of a partition's page. -/
def State.pendPart (s : State) (page : Nat) : Option Nat :=
  let o := s.pageOwner page
  if o = 15 then none else some o

/-- A write of a register whose rule is that of its table. -/
def State.plainWrite (s : State) (loc idx : Nat) (v : Word) : WR :=
  let fs := locFields loc
  match formCheck fs v with
  | some c => .error c
  | none => .ok (s.writeFields loc idx v.toNat (s.pendPart (loc / 4096)) fs)

/-! ### Header views (Table RG-2) -/

/-- Block code (Table RG-3). -/
def blockCode : Blk → Nat
  | .global | .part => 1
  | .belfry | .mbox | .mbsts => 2
  | .spire => 3
  | .gate => 4
  | .plinth => 5
  | .oculus => 6
  | .lantern => 7
  | .security => 8
  | .monitor => 9

/-- PAGE_ID. -/
def pageId (page : Nat) : Nat :=
  match pageInfo page with
  | some (b, i, o) =>
    let inst := match b with
      | .mbox => 0x10 + i
      | .mbsts => 0x20 + i
      | .part => 0
      | _ => i
    let sub := match b with
      | .part => 0x10 + i
      | _ => o
    blockCode b + 256 * inst + 65536 * sub
  | none => 0

/-- A pending value of the page waits (PAGE_STS.PENDING). -/
def State.pagePending (s : State) (page : Nat) : Bool :=
  (s.pend ++ s.latched).any fun p => p.key / 1048576 / 4096 == page

/-- The page's counters are frozen now (PAGE_STS.FROZEN). -/
def State.pageFrozen (s : State) (page : Nat) : Bool :=
  hasEvc page && (s.flag (page * 4096 + 0x00C) 0 || s.flag Loc.moMonCtl 0 ||
    (!s.flag Loc.seDebugCtl 2 && s.pageOwner page == 15))

/-- A page is flagged (R491). -/
def State.pageFlagged (s : State) (page : Nat) : Bool :=
  (s.get (page * 4096 + 0x018) &&& s.get (page * 4096 + 0x01C)) != 0

end Sys2Proof.Machine
end

