-- ==== Sys2Proof/Machine/Aes.lean ====
section
/-! DEFINITION. AES-256 (FIPS 197) with the XTS mode of IEEE 1619 for lines of device memory (R170) and the Galois/Counter
mode for packets of the fabric (R320). -/

namespace Sys2Proof.Machine

/-- Product in the field of AES bytes. -/
def aesMul (a b : Nat) : Nat :=
  ((List.range 8).foldl (fun (r : Nat × Nat) i =>
    (if b.testBit i then r.1 ^^^ r.2 else r.1, if r.2.testBit 7 then (2 * r.2) ^^^ 0x11B else 2 * r.2)) (0, a)).1

/-- Inverse in the field of AES bytes, as the power 254; 0 for 0. -/
def aesInv (a : Nat) : Nat :=
  ((List.range 7).foldl (fun (r : Nat × Nat) _ => let q := aesMul r.2 r.2; (aesMul r.1 q, q)) (1, a)).1

/-- A byte rotated left. -/
def rotl8 (a k : Nat) : Nat := (a * 2 ^ k + a / 2 ^ (8 - k)) % 256

/-- The substitution of a byte, and its inverse. -/
def aesSub (a : Nat) : Nat :=
  let b := aesInv a
  b ^^^ rotl8 b 1 ^^^ rotl8 b 2 ^^^ rotl8 b 3 ^^^ rotl8 b 4 ^^^ 0x63
def aesUnsub (a : Nat) : Nat := aesInv (rotl8 a 1 ^^^ rotl8 a 3 ^^^ rotl8 a 6 ^^^ 0x05)

/-- Exclusive or of byte lists. -/
def xorBytes (a b : List Nat) : List Nat := List.zipWith (· ^^^ ·) a b

/-- Rows shifted left; byte `i` of the block is row `i % 4` of column `i / 4`. -/
def aesShift (b : List Nat) : List Nat := (List.range 16).map fun i => b.getD ((i + 4 * (i % 4)) % 16) 0
/-- Rows shifted right. -/
def aesUnshift (b : List Nat) : List Nat := (List.range 16).map fun i => b.getD ((i + 12 * (i % 4)) % 16) 0

/-- Columns multiplied by a circulant matrix, given by its first row. -/
def aesMix (m b : List Nat) : List Nat :=
  (List.range 16).map fun i => (List.range 4).foldl (fun a k =>
    a ^^^ aesMul (m.getD ((k + 4 - i % 4) % 4) 0) (b.getD (i / 4 * 4 + k) 0)) 0

/-- The key schedule: words in order, from the latest back. -/
def aesWords (key : List Nat) : Nat → List (List Nat)
  | 0 => (List.range 8).reverse.map fun i => (key.drop (4 * i)).take 4
  | n + 1 =>
    let l := aesWords key n
    let i := n + 8
    let t := l.headD []
    let t := if i % 8 = 0 then
        xorBytes ((t.drop 1 ++ t.take 1).map aesSub) [2 ^ (i / 8 - 1), 0, 0, 0]
      else if i % 8 = 4 then t.map aesSub else t
    xorBytes t (l.getD 7 []) :: l

/-- The fifteen round keys of a 256-bit key. -/
def aesKeys (key : List Nat) : List (List Nat) :=
  let w := (aesWords key 52).reverse
  (List.range 15).map fun r => ((w.drop (4 * r)).take 4).flatten

/-- A block of 16 bytes enciphered. -/
def aesEnc (key b : List Nat) : List Nat :=
  let ks := aesKeys key
  let b := (List.range 13).foldl (fun b r =>
    xorBytes (aesMix [2, 3, 1, 1] (aesShift (b.map aesSub))) (ks.getD (r + 1) [])) (xorBytes b (ks.headD []))
  xorBytes (aesShift (b.map aesSub)) (ks.getD 14 [])

/-- A block of 16 bytes deciphered. -/
def aesDec (key b : List Nat) : List Nat :=
  let ks := aesKeys key
  let b := (List.range 13).foldl (fun b r =>
    aesMix [14, 11, 13, 9] (xorBytes ((aesUnshift b).map aesUnsub) (ks.getD (13 - r) []))) (xorBytes b (ks.getD 14 []))
  xorBytes ((aesUnshift b).map aesUnsub) (ks.headD [])

/-- A number's bytes, the lowest first; and the number that bytes make. -/
def natBytes (n v : Nat) : List Nat := (List.range n).map fun i => v / 2 ^ (8 * i) % 256
def bytesNat (b : List Nat) : Nat := b.foldr (fun x a => x + 256 * a) 0

/-- The tweak of block `j` of data unit `l` (IEEE 1619): the enciphered unit number times 2^j. -/
def xtsTweak (key2 : List Nat) (l j : Nat) : List Nat :=
  natBytes 16 ((List.range j).foldl (fun t _ =>
    (2 * t % 2 ^ 128) ^^^ (if t.testBit 127 then 0x87 else 0)) (bytesNat (aesEnc key2 (natBytes 16 l))))

/-- Block `j` of line `l` enciphered or deciphered under a key pair (R170). -/
def xtsBlock (dec : Bool) (pair : BitVec 512) (l j : Nat) (b : List Nat) : List Nat :=
  let k := natBytes 64 pair.toNat
  let t := xtsTweak (k.drop 32) l j
  xorBytes t ((if dec then aesDec else aesEnc) (k.take 32) (xorBytes t b))

/-- Bytes from byte `16 * j` of a line on, block by block. -/
def xtsBytes (dec : Bool) (pair : BitVec 512) (l j : Nat) (b : List Byte) : List Byte :=
  (List.range (b.length / 16)).flatMap fun i =>
    (xtsBlock dec pair l (j + i) (((b.drop (16 * i)).take 16).map (·.toNat))).map (BitVec.ofNat 8)

/-! ### Galois/Counter mode -/

/-- Product in the field of GHASH; bit 127 is the coefficient of 1. -/
def ghashMul (x y : Nat) : Nat :=
  ((List.range 128).foldl (fun (r : Nat × Nat) i =>
    (if y.testBit (127 - i) then r.1 ^^^ r.2 else r.1,
     if r.2.testBit 0 then r.2 / 2 ^^^ (0xE1 * 2 ^ 120) else r.2 / 2)) (0, x)).1

/-- Bytes as a number, the first byte highest; and back. -/
def bigNat (b : List Nat) : Nat := b.foldl (fun a x => 256 * a + x) 0
def bigBytes (n v : Nat) : List Nat := (natBytes n v).reverse

/-- Blocks of 16 bytes, the last filled with zeros. -/
def blocks16 (b : List Nat) : List (List Nat) :=
  (List.range ((b.length + 15) / 16)).map fun i =>
    let x := (b.drop (16 * i)).take 16
    x ++ List.replicate (16 - x.length) 0

/-- GHASH of the authenticated and the enciphered bytes. -/
def ghash (h : Nat) (aad c : List Nat) : Nat :=
  let y := (blocks16 aad ++ blocks16 c).foldl (fun y b => ghashMul (y ^^^ bigNat b) h) 0
  ghashMul (y ^^^ (8 * aad.length * 2 ^ 64 + 8 * c.length)) h

/-- Bytes combined with the key stream of a 96-bit IV: enciphered or deciphered. -/
def gcmCtr (key : BitVec 256) (iv : Nat) (b : List Nat) : List Nat :=
  ((List.range ((b.length + 15) / 16)).flatMap fun i =>
    xorBytes (aesEnc (natBytes 32 key.toNat) (bigBytes 16 (iv * 2 ^ 32 + i + 2))) ((b.drop (16 * i)).take 16 ++
      List.replicate 16 0)).take b.length

/-- The 16-byte tag over authenticated and enciphered bytes. -/
def gcmTag (key : BitVec 256) (iv : Nat) (aad c : List Nat) : List Nat :=
  let k := natBytes 32 key.toNat
  xorBytes (bigBytes 16 (ghash (bigNat (aesEnc k (List.replicate 16 0))) aad c)) (aesEnc k (bigBytes 16 (iv * 2 ^ 32 + 1)))

end Sys2Proof.Machine
end

