-- ==== Sys2Proof/Machine/Count.lean ====
section
/-! DEFINITION. Job tags, counting slots and their increments (R35, R36, R308, R309). -/

namespace Sys2Proof.Machine

/-- A tag has counting slots on this device (TAG_DIR.SLOTS). -/
def State.tagSlots (s : State) (tag : Nat) : Bool := s.flag (Loc.ocTagDir 0) 10 tag

/-- Home spire of a tag (TAG_DIR.HOME). -/
def State.tagHome (s : State) (tag : Nat) : Nat := s.fld (Loc.ocTagDir 0) 9 6 tag

/-- A count. -/
def State.count (s : State) (tag slot : Nat) : Nat := (s.get (Loc.ocCsValue 0) (tag * 256 + slot)).toNat

/-- A count set, modulo 2^32. -/
def State.setCount (s : State) (tag slot v : Nat) : State :=
  s.put (Loc.ocCsValue 0) (BitVec.ofNat 32 v) (tag * 256 + slot)

/-- An increment at a released slot is dropped and counted by the unit that drops it (R309). -/
def State.dropIncr (s : State) (tag : Nat) : Issuer → State
  | .spire n => s.bump (0x400 + 0x40 * n) 0xF 0 1 (s.spireOwner n)
  | .fabric e => s.bump (0xB0B + 0x100 * e) 8 0 1 (s.tagOwner tag)

/-- An increment (R309): applied modulo 2^32, held while the home spire is in reset (R448), or dropped. One whose home has left
service is dropped before the tick of the release too (DESIGN CHOICE, log entry 206). -/
def State.incr (s : State) (tag slot amt : Nat) (by_ : Issuer) : State :=
  if !s.tagSlots tag then s.dropIncr tag by_
  else if (s.spire (s.tagHome tag)).out = 1 then { s with incs := s.incs ++ [(tag, slot, amt, by_)] }
  else if 2 ≤ (s.spire (s.tagHome tag)).out then s.dropIncr tag by_
  else s.setCount tag slot (s.count tag slot + amt)

/-- Increments held for homes that are back, or that do not come back, are applied or dropped (R309, R448). -/
def State.applyHeld (s : State) : State :=
  let l := s.incs
  l.foldl (fun s e => s.incr e.1 e.2.1 e.2.2.1 e.2.2.2) { s with incs := [] }

/-- R35: count `c` satisfies threshold `t`. -/
def awaitMet (c t : Nat) : Bool := decide ((c + 2 ^ 32 - t % 2 ^ 32) % 2 ^ 32 < 2 ^ 31)

/-- A tag's 256 counts set to 0 (R309). -/
def State.clearTag (s : State) (tag : Nat) : State :=
  { s with rf := tclear s.rf (rkey (Loc.ocCsValue 0) (tag * 256)) (rkey (Loc.ocCsValue 0) (tag * 256 + 256)) }

end Sys2Proof.Machine
end

