-- ==== Sys2Proof/Machine/PairOps.lean ====
section
/-! DEFINITION. Stations, links and the planes open to a pair (R10, R195, R214 to R220). -/

namespace Sys2Proof.Machine

/-- The device has an ID in force: FAB_ID, valid, from step 9 of the start on (R476). -/
def State.hasId (s : State) : Bool := s.start.fabric && s.flag Loc.glFabId 16

/-- The device's own ID, 0 while it has none (Table PL-14). -/
def State.ownDev (s : State) : Nat := if s.hasId then s.fld Loc.glFabId 15 0 else 0

/-- Key of an ordered pair, and of its link on a plane. -/
def pairKey (s d : Nat) : Nat := s * 48 + d
def linkKey (s d p : Nat) : Nat := pairKey s d * 4 + p

/-- Station of a spire (Table AR-2). -/
def spStation (n : Nat) : Nat := if n < 8 then n else 32 + n

/-- Spire on a station, if it holds one. -/
def stationSpire (st : Nat) : Option Nat := if st < 8 then some st else if 40 ≤ st ∧ st < 48 then some (st - 32) else none

/-- Gatehouse on a station, and whether it is the station of its odd channels (R157). -/
def stationGate (st : Nat) : Option (Nat × Bool) :=
  if 8 ≤ st ∧ st < 16 then some ((st - 8) / 2, (st - 8) % 2 == 1)
  else if 32 ≤ st ∧ st < 40 then some (7 - (39 - st) / 2, (39 - st) % 2 == 1)
  else none

/-- Oculus on a station: East on 16 to 21, West on 26 to 31. -/
def stationOculus (st : Nat) : Option Nat :=
  if 16 ≤ st ∧ st < 22 then some 0 else if 26 ≤ st ∧ st < 32 then some 1 else none

/-- Sextant stations (R12): East 23, West 24. -/
def isSextant (st : Nat) : Bool := st == 23 || st == 24

/-- First page of a plinth and of an oculus. -/
def plPage (e sub : Nat) : Nat := 0x900 + 0x100 * e + sub
def ocPage (e sub : Nat) : Nat := 0xB00 + 0x100 * e + sub

def State.link (s : State) (a b p : Nat) : Link := tget {} s.links (linkKey a b p)
def State.modLink (s : State) (a b p : Nat) (f : Link → Link) : State :=
  { s with links := tset {} s.links (linkKey a b p) (f (s.link a b p)) }

/-- A station takes part in nothing: lost, or on a plinth whose reset is asserted. From the tick of a plinth reset until then its
stations are marked out, and its links only empty their retry buffers (R449). -/
def State.stationOff (s : State) (a : Nat) : Bool :=
  s.stationOut a && !(s.plReset (stPlinth a) && (s.plinth (stPlinth a)).out == 0)

/-- State of a link as LINK_STS shows it: 0 down, 1 training, 2 up, 3 failed. A station has no link to itself, and a sextant
station's transmit rows are unpowered (R193, R195); links train in step 5 of the start (R256). -/
def State.linkSt (s : State) (a b p : Nat) : Nat :=
  if a = b || isSextant a || (s.plinth (p / 2)).out != 0 || s.stationOff a || s.stationOff b then 0 else
  match (s.link a b p).st with
  | some x => x
  | none => if s.step_ = 5 then 1 else if (s.plinth 0).trained && (s.plinth 1).trained || (s.plinth (p / 2)).trained &&
      stPlinth a == p / 2 && stPlinth b == p / 2 then 2 else 0

/-- What a line of a plane carries. -/
inductive LineUse where
  /-- no light that is used -/
  | dark
  /-- the station's own light, back to its receive row -/
  | loopback
  /-- calibration probes -/
  | probes
  | traffic
  deriving DecidableEq, Repr

/-- Use of the line from a station to a station on a plane: line 0 carries loopback patterns while the rows train, and never
traffic (R193); a sextant station sends nothing and receives calibration probes only (R195). -/
def State.lineUse (s : State) (a b p : Nat) : LineUse :=
  if isSextant a || s.stationOut a || s.stationOut b then .dark
  else if a = b then (if s.step_ = 5 || (s.plinth (p / 2)).out == 1 then .loopback else .dark)
  else if isSextant b then .probes else .traffic

/-- Selection of a pair in PAIR_MASK and PAIR_VIA: local source and destination. -/
def pairIdx (a b : Nat) : Nat := stLocal a * 64 + b

/-- Mask of a pair in force (R214). -/
def State.pairMask (s : State) (a b : Nat) : Nat := s.fld (Loc.plPairMask (stPlinth a)) 3 0 (pairIdx a b)

/-- A plane is available for a pair (R214); a link to a sextant station carries no traffic (R195). -/
def State.planeOk (s : State) (a b p : Nat) : Bool :=
  s.lineUse a b p == .traffic && !(s.pairMask a b).testBit p && !(s.link a b p).fenced && s.linkSt a b p == 2

/-- Planes available for a pair, A to D. -/
def State.planes (s : State) (a b : Nat) : List Nat := (List.range 4).filter fun p => s.planeOk a b p

/-- Candidates for the standby relay of a pair, in order (R218). -/
def relayOrder (a b : Nat) : List Nat :=
  let east := (List.range 6).map fun i => 16 + ((a + b) + i) % 6
  let west := (List.range 6).map fun i => 26 + ((a + b) + i) % 6
  if stPlinth a = 0 then west ++ east else east ++ west

/-- Planes of a pair at the latest tick (R218). -/
def State.tickPlanes (s : State) (a b : Nat) : Nat := 15 - tget 0 s.viaBad (pairKey a b)

/-- The standby relay of a pair: forced, or the first candidate sound at the latest tick (R218). -/
def State.via (s : State) (a b : Nat) : Option Nat :=
  let w := s.get (Loc.plPairVia (stPlinth a)) (pairIdx a b)
  if w.bit 6 then some (w.bits 5 0) else
  if !s.relays then none else
  (relayOrder a b).find? fun r =>
    r != a && r != b && s.tickPlanes a r != 0 && s.tickPlanes r b != 0

/-- What a transaction from one station to another meets: 0, or PATH_UNAVAILABLE (R219, R220). -/
def State.pathStatus (s : State) (a b : Nat) : Nat :=
  if s.plReset (stPlinth b) then 0x34
  else if a = b ∨ s.planes a b ≠ [] then 0
  else if !s.flag (Loc.plPlCtl (stPlinth a)) 0 then 0x33
  else match s.via a b with
    | some r => if s.planes a r ≠ [] ∧ s.planes r b ≠ [] then 0 else 0x33
    | none => 0x33

/-- H of R213. -/
def hashH (l : Nat) : Nat := (l * 0x9E3779B1) % 2 ^ 32 / 65536

/-- The plane that a transaction takes among those available (R214). -/
def State.planeFor (s : State) (a b l : Nat) : Option Nat :=
  let ps := s.planes a b
  ps[hashH l * ps.length / 65536]?

end Sys2Proof.Machine
end

