-- ==== Sys2Proof/Machine/SramOps.lean ====
section
/-! DEFINITION. Wells, scratch and merge buffers: code words, reads, narrow writes, evictions, the start-time test and
the cell map (R73 to R76, R126 to R150). -/

namespace Sys2Proof.Machine

/-- What a read of a stored code word finds: clean, corrected with the symbol, or uncorrectable; and the error mask that
remains in the delivered bits. -/
inductive Ecc where
  | clean
  | corrected (sym : Nat) (left : Nat)
  | silent (left : Nat)
  | uncorrectable
  deriving DecidableEq, Repr

/-- Symbols of `sb` bits that a mask of `n` symbols touches, lowest first. -/
def maskSymbols (sb n mask : Nat) : List Nat :=
  (List.range n).filter fun k => bitsOf mask (sb * k + sb - 1) (sb * k) ≠ 0

/-- The code of wells: any error in one symbol corrected, in two detected (R132); `safe` is the greatest number of
symbols that is surely detected. -/
def eccRead (sb n safe mask : Nat) : Ecc :=
  match maskSymbols sb n mask with
  | [] => .clean
  | [k] => .corrected k 0
  | l =>
    if l.length ≤ safe then .uncorrectable else
    let x := Config.eccEscape (sb * n) mask
    match x % 3 with
    | 0 => .uncorrectable
    | 1 => .corrected (x / 3 % n) (mask ^^^ ((1 + x / 3 / n % (2 ^ sb - 1)) * 2 ^ (sb * (x / 3 % n))))
    | _ => .silent mask

/-- Data bytes with the error bits that a read leaves in them. -/
def flipBytes (mask : Nat) : List Byte → List Byte
  | [] => []
  | b :: bs => (b ^^^ BitVec.ofNat 8 mask) :: flipBytes (mask / 256) bs

/-- First page of a spire. -/
def spPage (n sub : Nat) : Nat := 0x400 + 0x40 * n + sub

/-- Bytes of a well. -/
def wellSize : Nat := 12582912

/-- Selection of a bank in BANK_CE and BANK_SPARE. -/
def bankIdx (cell row : Nat) : Nat := cell + 64 * (row % 16)

/-- Key of a code word of a well, by its number row * 8 + index. -/
def cwKey (cell cw : Nat) : Nat := cell * 393216 + cw

/-- The stored bytes of a code word. -/
def Spire.cwBytes (sp : Spire) (cell cw : Nat) : List Byte := tgets 0 sp.well (cell * wellSize + cw * 32) 32

/-- The merge entry that holds a code word. -/
def Cell.mergeOf (c : Cell) (cw : Nat) : Option Merge := c.merge.find? fun e => e.cw == cw

/-- Bytes with those of a masked write laid over them. -/
def overlay (mask : Nat) : List Byte → List Byte → List Byte
  | a :: as, b :: bs => (if mask % 2 = 1 then b else a) :: overlay (mask / 2) as bs
  | as, _ => as

/-- Physical cell of a logical one, as LMAP shows it. -/
def State.physCell (s : State) (n c : Nat) : Nat := s.fld (Loc.spLmap n (c / 2)) (6 + 16 * (c % 2)) (16 * (c % 2))

/-- Logical cell of a physical one, if it is in the map. -/
def State.logicalCell (s : State) (n p : Nat) : Option Nat := (List.range 64).find? fun k => s.physCell n k == p

/-- The spare row of its bank that holds a row: the fuse map's first, then the soft map's, then field remaps (R140). -/
def State.spareOf (s : State) (n cell row : Nat) : Option Nat :=
  let sp := s.spire n
  let m := tget 0 sp.fieldMap (cell * 49152 + row)
  if m ≠ 0 then some (m - 1) else
  let k := s.physCell n cell * 16 + row % 16
  let l := tget [] sp.fuseRows k ++ tget [] sp.softRows k
  if l.idxOf (row / 16) < l.length then some (l.idxOf (row / 16)) else none

/-- Spare rows of a bank that the three maps have taken, and those free (R140). -/
def State.usedSpares (s : State) (n cell row : Nat) : Nat :=
  let i := bankIdx cell row
  s.fld (Loc.spBankSpare n) 3 0 i + s.fld (Loc.spBankSpare n) 7 4 i + s.fld (Loc.spBankSpare n) 11 8 i
def State.freeSpares (s : State) (n cell row : Nat) : Nat := 8 - s.usedSpares n cell row

/-- A field remap begins: the row enters the mirror state (R142, R143). -/
def State.startRemap (s : State) (n cell row : Nat) : State :=
  if s.freeSpares n cell row = 0 then s.setFlag (Loc.spRemapSts n) 2 true
  else (s.setFlag (Loc.spRemapSts n) 0 true).modSpire n fun sp => { sp with mirror := some { cell := cell, row := row } }

/-- Belfry firmware requests the remaps that wait, one at a time (R143): REMAP holds the request. -/
def State.askRemap (s : State) (n : Nat) : State :=
  (s.spire n).remapWant.foldl (fun s e =>
    if s.flag (Loc.spRemapSts n) 0 then s else
    let s := s.modSpire n fun sp => { sp with remapWant := sp.remapWant.erase e }
    (s.put (Loc.spRemap n) (BitVec.ofNat 32 (e.1 + 64 * e.2))).startRemap n e.1 e.2) s

/-- A correction of a row counted; the sixteenth since the start of the spire makes firmware request its remap (R143).
DESIGN CHOICE: the request is made at once, or when the remap in progress ends (log entry 161). -/
def State.countRow (s : State) (n cell row : Nat) : State :=
  let k := cell * 49152 + row
  let c := tget 0 (s.spire n).rowCe k + 1
  let s := s.modSpire n fun sp =>
    { sp with rowCe := tset 0 sp.rowCe k c, remapWant := if c = 16 then sp.remapWant ++ [(cell, row)] else sp.remapWant }
  s.askRemap n

/-- A correction recorded: BANK_CE, CE_LAST, the error queue and the event (R138). -/
def State.ceRecord (s : State) (n cell bank brow cw sym : Nat) : State :=
  let last := cell + 64 * bank + 1024 * brow + 4194304 * cw + 33554432 * sym
  let s := s.addSat (Loc.spBankCe n) 15 0 1 (bankIdx cell bank)
  let s := s.put (Loc.spCeLast n) (BitVec.ofNat 32 last)
  let s := s.post (spPage n 6) 0 0x30 cell last
  s.bump (spPage n 6) 2 cell 1 (s.spireOwner n)

/-- The record of a correction in a well (R138, R143). -/
def State.wellCorrected (s : State) (n cell row cw sym : Nat) : State :=
  let brow := match s.spareOf n cell row with | some k => 3072 + k | none => row / 16
  (s.ceRecord n cell (row % 16) brow cw sym).countRow n cell row

/-- The record of an uncorrectable read of a well (R139). -/
def State.wellUncorrectable (s : State) (n cell row cw : Nat) : State :=
  let s := s.post (spPage n 6) 1 0x31 cell (row + 65536 * cw)
  s.bump (spPage n 6) 3 cell 1 (s.spireOwner n)

/-- The code word of a row that a data group serves, and the bit of it that a lane of the group carries (R146): four groups
of 68 lanes carry the 68 symbols of four bits of one code word. -/
def bondWord (g : Nat) : Nat := g / 4
def laneBit (g lane : Nat) : Nat := 4 * (17 * (g % 4) + lane / 4) + lane % 4

/-- Bits of a code word that failed lanes spoil on their way (R149, R150). DESIGN CHOICE: a failed lane of a data group
spoils its bit in every read until it is replaced, and no stored bit (log entry 162). -/
def Spire.laneMask (sp : Spire) (cell cw : Nat) : Nat :=
  (sp.bondPend ++ sp.bondCov).foldl (fun m e =>
    if e.1 = cell ∧ e.2.1 < 32 ∧ bondWord e.2.1 = cw % 8 then m ||| 2 ^ laneBit e.2.1 e.2.2 else m) 0

/-- The error mask that a read of a well's code word meets. -/
def Spire.cwMask (sp : Spire) (cell cw : Nat) : Nat := tget 0 sp.flips (cwKey cell cw) ||| sp.laneMask cell cw

/-- A read of a code word as stored, without the merge buffer: corrected data, or nothing. -/
def State.cwRead (s : State) (n cell cw : Nat) (report : Bool) : State × Option (List Byte) :=
  let sp := s.spire n
  let bytes := sp.cwBytes cell cw
  match eccRead 4 68 2 (sp.cwMask cell cw) with
  | .clean => (s, some bytes)
  | .corrected sym left => (s.wellCorrected n cell (cw / 8) (cw % 8) sym, some (flipBytes left bytes))
  | .silent left => (s, some (flipBytes left bytes))
  | .uncorrectable => (if report then s.wellUncorrectable n cell (cw / 8) (cw % 8) else s, none)

/-- A read of a code word with its merge entry's bytes (R136). -/
def State.cwReadMerged (s : State) (n cell cw : Nat) : State × Option (List Byte) :=
  let r := s.cwRead n cell cw true
  match r.2, ((s.spire n).cell cell).mergeOf cw with
  | some b, some e => (r.1, some (overlay e.mask b e.data))
  | x, _ => (r.1, x)

/-- Code words `cw`, `cw + 1`, ... read in order; nothing when one is uncorrectable. -/
def State.cwsRead (s : State) (n cell : Nat) : Nat → Nat → State × Option (List Byte)
  | _, 0 => (s, some [])
  | cw, k + 1 =>
    let r := s.cwReadMerged n cell cw
    let q := r.1.cwsRead n cell (cw + 1) k
    match r.2, q.2 with
    | some a, some b => (q.1, some (a ++ b))
    | _, _ => (q.1, none)

/-- `len` bytes of a well from byte `a` (row * 256 + offset). -/
def State.wellRead (s : State) (n cell a len : Nat) : State × Option (List Byte) :=
  if len = 0 then (s, some []) else
  let c0 := a / 32
  let r := s.cwsRead n cell c0 ((a + len - 1) / 32 + 1 - c0)
  (r.1, r.2.map fun l => (l.drop (a - 32 * c0)).take len)

/-- The flip mask of a spire as 272 bits (R144). -/
def State.flipMask (s : State) (n : Nat) : Nat :=
  (List.range 8).foldl (fun a j => a + (s.get (Loc.spFlipD n j)).toNat * 2 ^ (32 * j)) 0 +
    s.fld (Loc.spFlipC n) 15 0 * 2 ^ 256

/-- A code word written whole, into the row and its mirror; an armed flip mask of its bank is applied once (R134, R142,
R144). -/
def State.cwWrite (s : State) (n cell cw : Nat) (b : List Byte) : State :=
  let row := cw / 8
  let sel := s.get (Loc.spFlipSel n)
  let hit := sel.bit 16 && sel.bits 5 0 == cell && sel.bits 9 6 == row % 16
  let mask := if hit then s.flipMask n else 0
  let s := if hit then s.setFlag (Loc.spFlipSel n) 16 false else s
  s.modSpire n fun sp =>
    { sp with
      well := tputs 0 sp.well (cell * wellSize + cw * 32) b
      flips := tset 0 sp.flips (cwKey cell cw) mask
      mirror := sp.mirror.map fun m =>
        if m.cell = cell ∧ m.row = row then
          { m with flips := tset 0 m.flips (cw % 8) mask, data := m.data.filter fun e => e.1 != cw % 8 } else m }

/-- A merge entry leaves its buffer (R135, R137). -/
def State.evict (s : State) (n cell : Nat) (e : Merge) : State :=
  let s := s.modCell n cell fun c => { c with merge := c.merge.filter fun x => x.cw != e.cw }
  let o := s.spireOwner n
  let s := s.bump (spPage n 6) 4 cell 1 o
  if e.mask = 0xFFFFFFFF then s.cwWrite n cell e.cw e.data else
  let r := s.cwRead n cell e.cw false
  match r.2 with
  | some b => r.1.cwWrite n cell e.cw (overlay e.mask b e.data)
  | none =>
    let s := r.1.post (spPage n 6) 1 0x32 cell (e.cw / 8 + 65536 * (e.cw % 8) + 2 ^ 32 * e.mask)
    s.bump (spPage n 6) 5 cell 1 o

/-- The oldest entry of a buffer. -/
def oldestMerge : List Merge → Option Merge
  | [] => none
  | e :: l =>
    match oldestMerge l with
    | some x => if x.last < e.last then some x else some e
    | none => some e

/-- Part of a code word written through the merge buffer (R134); `mask` names the bytes of `b` that count. -/
def State.mergeWrite (s : State) (n cell cw : Nat) (b : List Byte) (mask writer : Nat) : State :=
  let now := s.cycles (2 * n + cell / 32)
  match (s.cell n cell).mergeOf cw with
  | some e =>
    if e.writer = writer then
      let e' := { e with data := overlay mask e.data b, mask := e.mask ||| mask, last := now }
      if e'.mask = 0xFFFFFFFF then
        (s.modCell n cell fun c => { c with merge := c.merge.map fun x => if x.cw = cw then e' else x }).evict n cell e'
      else s.modCell n cell fun c => { c with merge := c.merge.map fun x => if x.cw = cw then e' else x }
    else
      let s := s.evict n cell e
      s.modCell n cell fun c => { c with merge := c.merge ++ [⟨cw, b, mask, writer, now⟩] }
  | none =>
    let l := (s.cell n cell).merge
    let s := if l.length < 16 then s else
      match oldestMerge l with
      | some e => s.evict n cell e
      | none => s
    s.modCell n cell fun c => { c with merge := c.merge ++ [⟨cw, b, mask, writer, now⟩] }

/-- Bytes that a write starting `skip` bytes into a code word puts there. -/
def cwSlice (skip : Nat) (b : List Byte) : List Byte := (List.replicate skip 0 ++ b.take (32 - skip)).take 32

/-- A write of bytes into a well from byte `a`, code word by code word in rising order (R134). -/
def State.wellWriteFrom (s : State) (n cell writer : Nat) : Nat → Nat → List Byte → State
  | 0, _, _ => s
  | fuel + 1, a, b =>
    if b.isEmpty then s else
    let skip := a % 32
    let len := min b.length (32 - skip)
    let cw := a / 32
    let s :=
      if len = 32 then
        (s.modCell n cell fun c => { c with merge := c.merge.filter fun x => x.cw != cw }).cwWrite n cell cw (b.take 32)
      else
        let d := cwSlice skip (b.take len)
        s.mergeWrite n cell cw (d ++ List.replicate (32 - d.length) 0) ((2 ^ len - 1) * 2 ^ skip) writer
    s.wellWriteFrom n cell writer fuel (a + len) (b.drop len)

/-- A write of bytes into a well. -/
def State.wellWrite (s : State) (n cell writer a : Nat) (b : List Byte) : State :=
  s.wellWriteFrom n cell writer (b.length / 32 + 2) a b

/-- Every merge entry of a spire evicted (R135). -/
def State.drainSpire (s : State) (n : Nat) : State :=
  (List.range 64).foldl (fun s c => (s.cell n c).merge.foldl (fun s e => s.evict n c e) s) s

/-! ### Scratch (R54, R132)

The scratch of a cell has the wells' code words, correction policy and flip-mask test. DESIGN CHOICE: its lines of 256 bytes
stand for rows, so that line r lies in bank r mod 16 at bank row r / 16 of BANK_CE, CE_LAST, FLIP_SEL and the error records,
beside the well's (log entry 163). -/

/-- Key of a code word of scratch. -/
def scrKey (cell cw : Nat) : Nat := cell * 32768 + cw

/-- A code word of scratch read: corrected data, or nothing (R54, R138, R139). -/
def State.scrRead (s : State) (n cell cw : Nat) (report : Bool) : State × Option (List Byte) :=
  let sp := s.spire n
  let bytes := tgets 0 sp.scratch (cell * 1048576 + cw * 32) 32
  match eccRead 4 68 2 (tget 0 sp.scrFlips (scrKey cell cw)) with
  | .clean => (s, some bytes)
  | .corrected sym left =>
    (s.ceRecord n cell (cw / 8 % 16) (cw / 128) (cw % 8) sym, some (flipBytes left bytes))
  | .silent left => (s, some (flipBytes left bytes))
  | .uncorrectable => (if report then s.wellUncorrectable n cell (cw / 8) (cw % 8) else s, none)

/-- Code words of scratch read in order; nothing when one is uncorrectable. -/
def State.scrsRead (s : State) (n cell : Nat) : Nat → Nat → State × Option (List Byte)
  | _, 0 => (s, some [])
  | cw, k + 1 =>
    let r := s.scrRead n cell cw true
    let q := r.1.scrsRead n cell (cw + 1) k
    match r.2, q.2 with
    | some a, some b => (q.1, some (a ++ b))
    | _, _ => (q.1, none)

/-- `len` bytes of scratch from byte `a`. -/
def State.scratchRead (s : State) (n cell a len : Nat) : State × Option (List Byte) :=
  if len = 0 then (s, some []) else
  let c0 := a / 32
  let r := s.scrsRead n cell c0 ((a + len - 1) / 32 + 1 - c0)
  (r.1, r.2.map fun l => (l.drop (a - 32 * c0)).take len)

/-- A code word of scratch written whole; an armed flip mask of its bank is applied once (R54, R144). -/
def State.scrWrite (s : State) (n cell cw : Nat) (b : List Byte) : State :=
  let sel := s.get (Loc.spFlipSel n)
  let hit := sel.bit 16 && sel.bits 5 0 == cell && sel.bits 9 6 == cw / 8 % 16
  let mask := if hit then s.flipMask n else 0
  let s := if hit then s.setFlag (Loc.spFlipSel n) 16 false else s
  s.modSpire n fun sp =>
    { sp with scratch := tputs 0 sp.scratch (cell * 1048576 + cw * 32) b, scrFlips := tset 0 sp.scrFlips (scrKey cell cw) mask }

/-- Part of a code word of scratch written by its own read-modify-write (R132). DESIGN CHOICE: where the word read is
uncorrectable its bytes are lost as a merge's are (R137, log entry 163). -/
def State.scrModify (s : State) (n cell cw : Nat) (b : List Byte) (mask : Nat) : State :=
  let r := s.scrRead n cell cw false
  match r.2 with
  | some d => r.1.scrWrite n cell cw (overlay mask d b)
  | none =>
    (r.1.post (spPage n 6) 1 0x32 cell (cw / 8 + 65536 * (cw % 8) + 2 ^ 32 * mask)).bump (spPage n 6) 5 cell 1
      (s.spireOwner n)

/-- Bytes written to scratch from byte `a`, code word by code word in rising order. -/
def State.scratchWriteFrom (s : State) (n cell : Nat) : Nat → Nat → List Byte → State
  | 0, _, _ => s
  | fuel + 1, a, b =>
    if b.isEmpty then s else
    let skip := a % 32
    let len := min b.length (32 - skip)
    let cw := a / 32
    let s :=
      if len = 32 then s.scrWrite n cell cw (b.take 32)
      else
        let d := cwSlice skip (b.take len)
        s.scrModify n cell cw (d ++ List.replicate (32 - d.length) 0) ((2 ^ len - 1) * 2 ^ skip)
    s.scratchWriteFrom n cell fuel (a + len) (b.drop len)

/-- Bytes written to scratch. -/
def State.scratchWrite (s : State) (n cell a : Nat) (b : List Byte) : State :=
  s.scratchWriteFrom n cell (b.length / 32 + 2) a b

/-! ### Cell map (R73 to R76) -/

/-- Good cells of a physical row, in column order. -/
def goodRow (bad : List Nat) (r : Nat) : List Nat :=
  ((List.range 9).map fun c => 9 * r + c).filter fun p => !bad.contains p

/-- The spare of the greatest column among two rows' spares, by the ties of R73. -/
def chooseSpare (up down : List Nat) : Option Nat :=
  match up.getLast?, down.getLast? with
  | none, none => none
  | some a, none => some a
  | none, some b => some b
  | some a, some b =>
    if a % 9 > b % 9 then some a else if b % 9 > a % 9 then some b
    else if down.length > up.length then some b else some a

/-- Rows completed by borrowing; `fuel` bounds the cells borrowed by a row. -/
def fillRow (r : Nat) : Nat → List (List Nat) → List Nat → Option (List (List Nat) × List Nat)
  | 0, sp, row => if row.length < 8 then none else some (sp, row)
  | f + 1, sp, row =>
    if 8 ≤ row.length then some (sp, row) else
    let up := if r % 4 = 0 then [] else sp.getD (r - 1) []
    let down := if r % 4 = 3 then [] else sp.getD (r + 1) []
    match chooseSpare up down with
    | none => none
    | some p => fillRow r f (sp.modify (p / 9) fun l => l.filter (· != p)) (row ++ [p])

/-- All rows completed, in order. -/
def fillRows (bad : List Nat) : List Nat → List (List Nat) → Option (List (List Nat) × List (List Nat))
  | [], sp => some (sp, [])
  | r :: rs, sp =>
    match fillRow r 8 sp ((goodRow bad r).take 8) with
    | none => none
    | some (sp, row) =>
      match fillRows bad rs sp with
      | none => none
      | some (sp, rows) => some (sp, row :: rows)

/-- Cycles of a hop between physical cells (R75). -/
def hopCycles (a b : Nat) : Nat :=
  let d (x y : Nat) := if x ≤ y then y - x else x - y
  d (a / 9) (b / 9) + d (a % 9) (b % 9)

/-- The 64 physical cells of the logical grid and the spares left per physical row, or nothing when the map fails
(R73, R74). -/
def cellMap (bad : List Nat) : Option (List Nat × List (List Nat)) :=
  match fillRows bad (List.range 8) ((List.range 8).map fun r => (goodRow bad r).drop 8) with
  | none => none
  | some (sp, rows) =>
    let m := rows.flatten
    let p (k : Nat) := m.getD k 0
    let ok := (List.range 64).all fun k =>
      (k % 8 == 7 || decide (hopCycles (p k) (p (k + 1)) ≤ 7)) &&
      (decide (56 ≤ k) || decide (hopCycles (p k) (p (k + 8)) ≤ 7))
    if ok then some (m, sp) else none

/-- LMAP half word of a logical cell (Table SP-14). -/
def lmapHalf (m : List Nat) (k : Nat) : Nat :=
  let p (k : Nat) := m.getD k 0
  let east := if k % 8 = 7 then 0 else hopCycles (p k) (p (k + 1))
  let south := if k / 8 = 3 ∨ k / 8 = 7 then 0 else hopCycles (p k) (p (k + 8))
  p k + 128 * b2n (decide (p k / 9 ≠ k / 8)) + 256 * east + 2048 * south

/-! ### Spares as the start-time test leaves them (R140, R141, R147) -/

/-- A bank's spares are too few: more than 8 rows, more than 4 columns, or more than 2 columns of one die (R126, R141). -/
def Spire.bankFails (sp : Spire) (k : Nat) : Bool :=
  let cols := tget [] sp.fuseCols k ++ tget [] sp.softCols k
  let die0 := (cols.filter (· < 272)).length
  decide (8 < (tget [] sp.fuseRows k ++ tget [] sp.softRows k).length) || decide (2 < die0) ||
    decide (2 < cols.length - die0)

/-- Physical cells whose well fails: a bank or a bond group with too few spares (R141, R147). -/
def Spire.badWells (sp : Spire) : List Nat :=
  let banks := uniq ((sp.fuseRows ++ sp.softRows ++ sp.fuseCols ++ sp.softCols).map (·.1))
  ((banks.filter sp.bankFails).map (· / 16)) ++ ((sp.lanes.filter fun e => 4 < e.2.length).map fun e => e.1 / 64)

/-- Groups of mapped wells whose lanes in spares are not those of the fuses: logical cell and group (R147). -/
def State.laneDiffs (s : State) (n : Nat) : List (Nat × Nat) :=
  let sp := s.spire n
  (uniq ((sp.fuseLanes ++ sp.lanes).map (·.1))).filterMap fun k =>
    if tget [] sp.fuseLanes k = tget [] sp.lanes k then none
    else (s.logicalCell n (k / 64)).map fun c => (c, k % 64)

/-- A field of BANK_SPARE of the mapped wells shows how many spares a map takes. -/
def State.showSpares (s : State) (n : Nat) (t : Tab (List Nat)) (hi lo : Nat) : State :=
  t.foldl (fun s e =>
    match s.logicalCell n (e.1 / 16) with
    | some c => s.setFld (Loc.spBankSpare n) hi lo e.2.length (bankIdx c (e.1 % 16))
    | none => s) s

/-- BANK_SPARE, BOND_GRP and BOND_STS of the mapped wells after the start-time test; a choice of lanes that differs from the
fuses is logged (R140, R147). -/
def State.showTest (s : State) (n : Nat) : State :=
  let sp := s.spire n
  let s := (s.clearReg (Loc.spBankSpare n)).clearReg (Loc.spBondGrp n)
  let s := ((s.showSpares n sp.fuseRows 3 0).showSpares n sp.softRows 7 4).showSpares n sp.fuseCols 14 12
  let s := s.showSpares n sp.softCols 17 15
  let mapped := sp.lanes.filterMap fun e => (s.logicalCell n (e.1 / 64)).map fun c => (c, e.1 % 64, e.2.length)
  let s := mapped.foldl (fun s e =>
    s.put (Loc.spBondGrp n) (BitVec.ofNat 32 (4 - e.2.2 + 256 * e.2.2)) (e.1 + 64 * e.2.1)) s
  let diffs := s.laneDiffs n
  let least := (mapped.map fun e => 4 - e.2.2).foldl min 4
  let s := s.put (Loc.spBondSts n) (BitVec.ofNat 32 (b2n (!diffs.isEmpty) + 256 * least))
  diffs.foldl (fun s d => s.post (spPage n 7) 0 0x34 d.1 d.2) s

/-- The belfry builds and publishes the cell map (R73, R74, R76) and what the start-time test made of the mapped wells; the
spire returns, or stays out. DESIGN CHOICE: the start-time result differs from the fuses where a cell is found bad that the
fuses do not mark; a marked cell that passes is no difference (log entry 164). -/
def State.buildMap (s : State) (n : Nat) (tested : List Nat) : State :=
  let sp := s.spire n
  let bad := (List.range 72).filter fun p => sp.fuseBad.contains p || tested.contains p
  let now := s.clk.elapsed
  let s := s.modSpire n fun sp =>
    { sp with bad := bad, cells := sp.cells.map fun c => { c with failed := false, rotAt := now, rotDone := 0, rotLate := false } }
  let good := 72 - bad.length
  let diff := (List.range 72).filter fun p => bad.contains p != sp.fuseBad.contains p
  let s := diff.foldl (fun s p => s.post (spPage n 0) 0 0x2B p 0) s
  let w (j : Nat) := bad.foldl (fun a p => if p / 32 = j then a + 2 ^ (p % 32) else a) 0
  let s := (List.range 3).foldl (fun s j => s.put (Loc.spPhysBad n j) (BitVec.ofNat 32 (w j))) s
  match cellMap bad with
  | none =>
    let s := s.put (Loc.spCellmap n) (BitVec.ofNat 32 (2 * good + 65536 * b2n (!diff.isEmpty)))
    let s := (List.range 32).foldl (fun s i => s.put (Loc.spLmap n i) 0) s
    (s.post (spPage n 0) 2 0x2C 0 good).modSpire n fun sp => { sp with out := 3 }
  | some (m, spares) =>
    let cnt (l : List (List Nat)) := (l.map List.length).sum
    let s := s.put (Loc.spCellmap n) (BitVec.ofNat 32
      (1 + 2 * good + 256 * cnt (spares.take 4) + 4096 * cnt (spares.drop 4) + 65536 * b2n (!diff.isEmpty)))
    let s := (List.range 32).foldl (fun s i =>
      s.put (Loc.spLmap n i) (BitVec.ofNat 32 (lmapHalf m (2 * i) + 65536 * lmapHalf m (2 * i + 1)))) s
    (s.showTest n).modSpire n fun sp => { sp with out := 0 }

/-- Lists of a test as a table by cell * `m` + number, merged where a place is named twice. -/
def testTab {k : Nat} (m : Nat) (l : List (Fin 72 × Fin k × List Nat)) : Tab (List Nat) :=
  l.foldl (fun t e => tset [] t (e.1 * m + e.2.1) (uniq (tget [] t (e.1 * m + e.2.1) ++ e.2.2))) []

/-- The start-time test of a spire's wells (R141) and bonds (R147): contents zeroed with valid check, the soft map and
the lane choice made anew, field remaps gone. -/
def State.startTest (s : State) (n : Nat) (t : SpireTest) : State :=
  let s := s.modSpire n fun sp =>
    { sp with
      well := [], flips := [], mirror := none, fieldMap := [], rowCe := [], remapWant := []
      bondCov := [], bondPend := [], bondOut := []
      softRows := testTab 16 (t.rows.map fun e => (e.1, e.2.1, e.2.2.map (·.val)))
      softCols := testTab 16 (t.cols.map fun e => (e.1, e.2.1, e.2.2.map (·.val)))
      lanes := testTab 64 (t.lanes.map fun e => (e.1, e.2.1, e.2.2.map (·.val)))
      cells := sp.cells.map fun c => { c with merge := [] } }
  s.put (Loc.spRemapSts n) ((s.get (Loc.spRemapSts n)) &&& 0xE)

/-- Cells that fail the start-time test: their own units, or their well (R73, R141, R147). -/
def State.testedBad (s : State) (n : Nat) (t : SpireTest) : List Nat :=
  t.badCells.map (·.val) ++ (s.spire n).badWells

end Sys2Proof.Machine
end

