-- ==== Sys2Proof/Machine/LandOps.lean ====
section
/-! DEFINITION. Landing zones, the landing engine, and the gathering of a message's completions (R80 to R85). -/

namespace Sys2Proof.Machine

/-- The words of a zone in force. -/
def State.zoneWords (s : State) (n z : Nat) : List Nat :=
  (List.range 4).map fun k => (s.get (Loc.spZoneData n k) z).toNat

/-- A landing zone entry (Table SP-7). -/
structure Zone where
  base : Nat
  cell : Nat
  stripe : Nat
  append : Bool
  valid : Bool
  cap : Nat
  rows : Nat
  kstride : Nat
  tag : Nat
  cslot : Nat
  csEn : Bool
  tagRow : Nat
  tagCell : Nat
  deriving DecidableEq, Repr

/-- A zone from its four words. -/
def zoneOf (w : List Nat) : Zone :=
  let a := w.getD 0 0
  let b := w.getD 1 0
  let c := w.getD 2 0
  let d := w.getD 3 0
  { base := bitsOf a 15 0, cell := bitsOf a 21 16, stripe := 2 ^ bitsOf a 23 22, append := bitOf a 24, valid := bitOf a 25,
    cap := bitsOf b 15 0, rows := bitsOf b 23 16, kstride := bitsOf b 27 24,
    tag := bitsOf c 11 0, cslot := bitsOf c 19 12, csEn := bitOf c 20,
    tagRow := bitsOf d 15 0, tagCell := bitsOf d 21 16 }

/-- Bits of a zone's words that are reserved (Table SP-7). -/
def zoneReserved (w : List Nat) : Bool :=
  bitsOf (w.getD 0 0) 31 26 != 0 || bitsOf (w.getD 1 0) 31 28 != 0 || bitsOf (w.getD 2 0) 31 21 != 0 ||
    bitsOf (w.getD 3 0) 31 22 != 0

/-- The commit check of R80: the reject code, if the entry fails. `p` is the spire's partition. -/
def State.zoneCheck (s : State) (p : Nat) (w : List Nat) : Option Nat :=
  let z := zoneOf w
  if zoneReserved w then some 1
  else if !z.valid then none
  else if z.cap = 0 ∨ z.rows = 0 ∨ z.kstride > 8 ∨ z.base ≥ 49152 ∨ z.cell + z.stripe > 64 ∨
      z.base + (z.cap + z.stripe - 1) / z.stripe * z.rows > 49152 ∨
      (z.append ∧ z.tagRow * 256 + (z.cap + 1) * 8 > wellSize) then some 2
  else if !s.tagOf p z.tag then some 4
  else none

/-- FILL of a zone, kept by the landing engine (R83). -/
def State.fill (s : State) (n z : Nat) : Nat := (s.get (Loc.spZoneFill n) z).toNat

/-- Writer numbers of merge entries: the landing engine, the dispatch unit, a task. -/
def landWriter : Nat := 1
def duWriter : Nat := 2

/-- A word of the tag list written (R83). -/
def State.tagWrite (s : State) (n : Nat) (z : Zone) (i v : Nat) : State :=
  s.wellWrite n z.tagCell landWriter (z.tagRow * 256 + 8 * i) (leBytes 8 v)

/-- FILL changed, in the engine and in word 0 of the tag list. -/
def State.setFill (s : State) (n zi : Nat) (z : Zone) (v : Nat) : State :=
  let s := s.put (Loc.spZoneFill n) (BitVec.ofNat 32 v) zi
  if z.append then s.tagWrite n z 0 (v % 2 ^ 32) else s

/-- Cell and row of a line of a zone's entry (R80). -/
def Zone.place (z : Zone) (i line : Nat) : Nat × Nat := (z.cell + i % z.stripe, z.base + i / z.stripe * z.rows + line)

/-- The tag word of a message (Table SP-8). -/
def tagWord (m : MsgPart) : Nat :=
  m.srcDev.toNat + m.srcSpire.val * 2 ^ 16 + m.token.toNat * 2 ^ 20 + m.ksel.toNat * 2 ^ 36 + m.rzone.toNat * 2 ^ 39

/-- A refusal is counted (R82). -/
def State.landRefused (s : State) (n : Nat) : State :=
  (s.addWrap (Loc.spLandRefused n) 31 0 1).bump (spPage n 0) 8 0 1 (s.spireOwner n)

/-- The checks of R82 for a message of `k` lines: the status, or the entry it takes. -/
def zoneAdmit (z : Zone) (fill k : Nat) (m : MsgPart) : Except Nat Nat :=
  let ix := m.index.toNat
  if !z.valid then .error 1
  else if m.jobTag.toNat ≠ z.tag then .error 2
  else
    let entry : Except Nat Nat :=
      if ix = 0xFFFFE then
        let e := m.token.toNat * z.kstride + m.ksel.toNat
        if z.kstride = 0 ∨ m.ksel.toNat ≥ z.kstride ∨ e ≥ z.cap then .error 3 else .ok e
      else if ix = 0xFFFFF then (if !z.append then .error 3 else .ok fill)
      else if ix ≥ z.cap then .error 3 else .ok ix
    match entry with
    | .error c => .error c
    | .ok e => if k > z.rows then .error 4 else if ix = 0xFFFFF ∧ e ≥ z.cap then .error 5 else .ok e

/-- The key of a part's message. -/
def partKey (m : MsgPart) : MsgKey := ⟨m.srcDev, m.inside, m.srcSpire, m.msgId⟩

/-- Who issued an increment that a landing causes (R309): the sending spire, or the oculus that received the message. -/
def landIssuer (m : MsgPart) (e : Nat) : Issuer := if m.inside then .spire m.srcSpire else .fabric e

/-- A landing record replaced or removed. -/
def Spire.setLanding (sp : Spire) (r : Landing) : Spire :=
  { sp with landings := sp.landings.map fun x => if x.key = r.key then r else x }
def Spire.dropLanding (sp : Spire) (k : MsgKey) : Spire := { sp with landings := sp.landings.filter fun x => x.key != k }

/-- A part of an open record is answered (R85). -/
def State.landJoin (s : State) (n : Nat) (r : Landing) (m : MsgPart) (e : Nat) : State × Nat :=
  if r.closed then (s, 3)
  else if r.refused ≠ 0 then
    let r := { r with answered := r.answered + 1 }
    (s.modSpire n fun sp => if r.answered ≥ r.n then sp.dropLanding r.key else sp.setLanding r, r.refused)
  else if m.part ≥ r.n then (s, 3)
  else
    let z := zoneOf r.cfg
    let p := z.place r.entry m.part
    let s := s.wellWrite n p.1 landWriter (p.2 * 256) (m.data.take 256)
    let got := if r.got.contains m.part then r.got else r.got ++ [m.part]
    if got.length < r.n then (s.modSpire n fun sp => sp.setLanding { r with got := got }, 0)
    else
      let s := if r.tagged then s.tagWrite n z (r.entry + 1) r.tag else s
      let s := if z.csEn then s.incr z.tag z.cslot 1 (landIssuer m e) else s
      (s.modSpire n fun sp => sp.dropLanding r.key, 0)

/-- The status of a message or tally for a spire that cannot take it (R441, R448, R449). -/
def State.spireStatus (s : State) (n : Nat) : Nat :=
  if s.plReset (n / 8) then 0x34 else
  match (s.spire n).out with
  | 0 => 0
  | 1 => 1
  | _ => 0x22

/-- A message part reaches the landing engine (R82, R85): the state after it and the part's status. -/
def State.landPart (s : State) (n : Nat) (m : MsgPart) (oc : Nat) : State × Nat :=
  let k := m.partsM1 + 1
  if s.spireStatus n ≠ 0 then (s, s.spireStatus n)
  else if k > 255 then (s.landRefused n, 4)
  else if m.part ≥ k then (s.landRefused n, 3)
  else
    match (s.spire n).landings.find? fun r => r.key == partKey m with
    | some r => s.landJoin n r m oc
    | none =>
      if (s.spire n).landings.length ≥ 1024 then (s, 6) else
      let zi := m.zone.toNat
      let w := s.zoneWords n zi
      let z := zoneOf w
      let fill := s.fill n zi
      let r : Landing := { key := partKey m, n := k, zone := zi, cfg := w, opened := s.clk.elapsed }
      match zoneAdmit z fill k m with
      | .error c =>
        let r := { r with refused := c }
        ((s.landRefused n).modSpire n fun sp => { sp with landings := sp.landings ++ [r] }).landJoin n r m oc
      | .ok e =>
        let app := m.index.toNat == 0xFFFFF
        let s := if app then s.setFill n zi z (fill + 1) else s
        let r := { r with entry := e, tag := tagWord m, tagged := app }
        (s.modSpire n fun sp => { sp with landings := sp.landings ++ [r] }).landJoin n r m oc

/-- A tally reaches the landing engine (R82, R88). -/
def State.landTally (s : State) (n zone tag count : Nat) (by_ : Issuer) : State × Nat :=
  let z := zoneOf (s.zoneWords n zone)
  if s.spireStatus n ≠ 0 then (s, s.spireStatus n)
  else if !z.valid then (s.landRefused n, 1)
  else if tag ≠ z.tag then (s.landRefused n, 2)
  else (if z.csEn then s.incr z.tag z.cslot count by_ else s, 0)

/-- ZCLR: FILL of a zone set to 0 (R84). -/
def State.zclr (s : State) (n zi : Nat) : State := s.setFill n zi (zoneOf (s.zoneWords n zi)) 0

/-! ### The sender's side -/

def Spire.msg (sp : Spire) (id : Nat) : Option OutMsg := sp.msgs.find? fun m => m.id == id
def Spire.setMsg (sp : Spire) (m : OutMsg) : Spire := { sp with msgs := sp.msgs.map fun x => if x.id = m.id then m else x }
def Spire.dropMsg (sp : Spire) (id : Nat) : Spire := { sp with msgs := sp.msgs.filter fun x => x.id != id }

/-- Status of a message whose parts have all been answered: that of the lowest-numbered part that failed (R85). -/
def msgStatus (got : List (Nat × Nat)) : Nat :=
  match (List.range 256).find? fun p => got.any fun g => g.1 == p && g.2 != 0 with
  | some p => match got.find? fun g => g.1 == p with | some g => g.2 | none => 0
  | none => 0

/-- The task of an execution unit that waits for a number is complete (R65, R92). -/
def ATask.complete (a : ATask) (tok st : Nat) : ATask :=
  if a.wait = tok + 1 then { a with wait := 0, done := true, cause := if st = 0 then a.cause else 3, status := st } else a

/-- Number that a task waiting for message `id`, or for oculus transaction `seq`, keeps. -/
def msgTok (id : Nat) : Nat := id
def txnTok (seq : Nat) : Nat := 65536 + seq

/-- A unit error of the dispatch unit: posted with unit 0x40. -/
def State.duPost (s : State) (n cls code info : Nat) : State := s.post (spPage n 0) cls code 0x40 info

/-- Log of a refused row or return (0x2A). -/
def State.rowRefusedLog (s : State) (n : Nat) (m : OutMsg) (st : Nat) : State :=
  let zone := match m.parts with | p :: _ => p.zone.toNat | [] => 0
  s.duPost n 1 0x2A ((m.dev.getD s.ownDev) % 65536 + zone * 65536 + st * 2 ^ 24)

/-- The first error cause kept on the dispatch unit's task. -/
def Spire.duFail (sp : Spire) (cause st : Nat) : Spire :=
  { sp with du := { sp.du with cur := sp.du.cur.map fun t =>
      if t.a.cause = 0 then { t with a := { t.a with cause := cause, status := st } } else t } }

/-- A message has completed at its sender with a status (R85, R89, R90). A refused row stays until
DISPATCH_ROW_REFUSED handles it. DESIGN CHOICE: a row or tally that ends with a status that is no refusal by the owner fails
the task with cause 3, without a DROP bit, count or tally (log entry 169). -/
def State.msgDone (s : State) (n : Nat) (m : OutMsg) (st : Nat) : State :=
  let drop (s : State) : State := s.modSpire n fun sp => sp.dropMsg m.id
  let unit : Bool := decide (1 ≤ st ∧ st ≤ 5) || st == 0x20
  match m.kind with
  | 0 => (drop s).modCell n m.cell fun c => { c with x := c.x.map fun a => a.complete (msgTok m.id) st }
  | 1 => if st = 0 then drop s else if unit then s else (drop s).modSpire n fun sp => sp.duFail 3 st
  | 2 => if st = 0 then drop s else if unit then (drop s).rowRefusedLog n m st else (drop s).modSpire n fun sp => sp.duFail 3 st
  | _ => if st = 0 then drop s else if unit then (drop s).rowRefusedLog n m st else (drop s).modSpire n fun sp => sp.duFail 3 st

/-- A part of a message is answered at its sender (R85). RETRY leaves it to be sent again. -/
def State.msgAnswer (s : State) (n id part st : Nat) : State :=
  match (s.spire n).msg id with
  | none => s
  | some m =>
    if m.got.any fun g => g.1 == part then s
    else if st = 6 then
      s.modSpire n fun sp => sp.setMsg { m with
        again := m.again.filter (fun g => g.1 != part) ++ [(part, s.clk.elapsed)] }
    else
      let m := { m with got := m.got ++ [(part, st)], again := m.again.filter fun g => g.1 != part }
      let s := s.modSpire n fun sp => sp.setMsg m
      if m.got.length < m.n then s else s.msgDone n m (msgStatus m.got)

end Sys2Proof.Machine
end

