-- ==== Sys2Proof/Machine/CellOps.lean ====
section
/-! DEFINITION. Task descriptors and the addresses that tasks use (R59 to R63). -/

namespace Sys2Proof.Machine

/-! ### Descriptor fields (Table SP-4) -/

def QTask.word (q : QTask) (k : Nat) : Nat := q.words.getD k 0
def QTask.op (q : QTask) : Nat := bitsOf (q.word 0) 7 0
def QTask.cell (q : QTask) : Nat := bitsOf (q.word 0) 13 8
def QTask.du (q : QTask) : Bool := bitOf (q.word 0) 14
def QTask.steal (q : QTask) : Bool := bitOf (q.word 0) 15
def QTask.fence (q : QTask) : Bool := bitOf (q.word 0) 16
def QTask.wt (q : QTask) : Nat := bitsOf (q.word 0) 23 20
def QTask.wtEn (q : QTask) : Bool := bitOf (q.word 0) 24
def QTask.st (q : QTask) : Nat := bitsOf (q.word 0) 28 25
def QTask.stEn (q : QTask) : Bool := bitOf (q.word 0) 29
def QTask.fmtA (q : QTask) : Nat := bitsOf (q.word 1) 3 0
def QTask.fmtB (q : QTask) : Nat := bitsOf (q.word 1) 7 4
def QTask.fmtD (q : QTask) : Nat := bitsOf (q.word 1) 11 8
def QTask.mx (q : QTask) : Bool := bitOf (q.word 1) 12
def QTask.rnd (q : QTask) : Nat := bitsOf (q.word 1) 14 13
def QTask.wtThresh (q : QTask) : Nat := bitsOf (q.word 1) 31 16
def QTask.srcA (q : QTask) : Nat := q.word 2
def QTask.srcB (q : QTask) : Nat := q.word 3
def QTask.dst (q : QTask) : Nat := q.word 4
def QTask.count (q : QTask) : Nat := bitsOf (q.word 5) 16 0
def QTask.aIn (q : QTask) : Bool := bitOf (q.word 5) 17
def QTask.aOut (q : QTask) : Bool := bitOf (q.word 5) 18
def QTask.bIn (q : QTask) : Bool := bitOf (q.word 5) 19
def QTask.bOut (q : QTask) : Bool := bitOf (q.word 5) 20
def QTask.acc (q : QTask) : Nat := bitsOf (q.word 5) 22 21
def QTask.ext0 (q : QTask) : Nat := q.word 6
def QTask.ext1 (q : QTask) : Nat := q.word 7

/-- Unit class of an operation (Table SP-5): 0 M, 1 V, 2 X, 3 none, 4 dispatch unit. -/
def opUnit (op : Nat) : Nat :=
  match op with
  | 0x01 => 0
  | 0x08 => 0
  | 0x02 => 1
  | 0x03 => 2
  | 0x04 => 2
  | 0x05 => 2
  | 0x06 => 2
  | 0x07 => 2
  | 0x0A => 2
  | 0x09 => 3
  | _ => 4

/-- Writer number of a task at the merge buffers (R134). -/
def taskWriter (q : QTask) : Nat := 16 + q.desc + 16384 * (q.slot + 1024 * q.t0)

/-! ### Cell addresses (R59) -/

/-- The reject code that a cell address meets at commit. -/
def addrCheck (a : Nat) : Option Nat :=
  match bitsOf a 31 30 with
  | 0 => if bitsOf a 29 20 ≠ 0 then some 1 else if a % 32 ≠ 0 then some 2 else none
  | 1 => if bitsOf a 29 16 ≠ 0 then some 1 else if bitsOf a 15 0 ≥ 49152 then some 2 else none
  | 2 => if bitsOf a 29 22 ≠ 0 then some 1 else if bitsOf a 15 0 ≥ 49152 then some 2 else none
  | _ => if bitsOf a 29 0 ≠ 0 then some 1 else none

/-- Where a cell address leads for a task of a home cell: scratch or a well, the cell, the byte. -/
inductive Spot where
  | scratch (cell byte : Nat)
  | well (cell byte : Nat)
  | none
  deriving DecidableEq, Repr

def spotOf (home a : Nat) : Spot :=
  match bitsOf a 31 30 with
  | 0 => .scratch home (bitsOf a 19 0)
  | 1 => .well home (bitsOf a 15 0 * 256)
  | 2 => .well (bitsOf a 21 16) (bitsOf a 15 0 * 256)
  | _ => .none

/-- The bytes from an offset lie within the space (R92, cause 0x01). -/
def Spot.fits : Spot → Nat → Nat → Bool
  | .scratch _ b, off, len => b + off + len ≤ 1048576
  | .well _ b, off, len => b + off + len ≤ wellSize
  | .none, _, len => len == 0

/-- Bytes read at a spot; nothing when a code word is uncorrectable. -/
def State.spotRead (s : State) (n : Nat) (p : Spot) (off len : Nat) : State × Option (List Byte) :=
  match p with
  | .scratch c b => s.scratchRead n c (b + off) len
  | .well c b => s.wellRead n c (b + off) len
  | .none => (s, some [])

/-- Bytes written at a spot. -/
def State.spotWrite (s : State) (n : Nat) (p : Spot) (writer off : Nat) (b : List Byte) : State :=
  match p with
  | .scratch c a => s.scratchWrite n c (a + off) b
  | .well c a => s.wellWrite n c writer (a + off) b
  | .none => s

/-- A cell changed: its unit X holds a completed task. -/
def Cell.setX (c : Cell) (f : ATask → ATask) : Cell := { c with x := c.x.map f }

/-- The clearing of a task's waiting state without an effect on any other task. -/
def ATask.fail (a : ATask) (cause st : Nat) : ATask := { a with wait := 0, done := true, cause := cause, status := st }
def ATask.finish (a : ATask) : ATask := { a with wait := 0, done := true }

end Sys2Proof.Machine
end

