-- ==== Sys2Proof/Machine/Arith.lean ====
section
/-! DEFINITION. The number formats, roundings, long accumulator and vector functions of chapter "Number formats and
exact accumulation" (R94 to R121), over exact dyadic numbers. -/

namespace Sys2Proof.Machine

/-- A value: NaN, an infinity, or the dyadic (-1)^neg * m * 2^e; a zero keeps its sign. -/
inductive Num where
  | nan
  | inf (neg : Bool)
  | fin (neg : Bool) (m : Nat) (e : Int)
  deriving DecidableEq, Repr

/-- How a format uses its all-ones exponent (Table NF-2). -/
inductive Special where
  | ieee | e4m3 | none
  deriving DecidableEq, Repr

/-- A floating-point format: width, exponent and fraction bits, bias (Table NF-1). -/
structure FpFmt where
  w : Nat
  eb : Nat
  mb : Nat
  bias : Nat
  sp : Special
  deriving DecidableEq, Repr

/-- A format of Table SP-3: floating point, or an integer of so many bits. -/
inductive NumFmt where
  | fp (f : FpFmt)
  | int (w : Nat)
  deriving DecidableEq, Repr

/-- FP32. -/
def fp32 : FpFmt := ⟨32, 8, 23, 127, .ieee⟩
/-- FW48 (R99). -/
def fw48 : FpFmt := ⟨48, 11, 36, 1023, .ieee⟩
/-- BF16. -/
def bf16 : FpFmt := ⟨16, 8, 7, 127, .ieee⟩

/-- The format of a code of Table SP-3. -/
def numFmt : Nat → Option NumFmt
  | 0x0 => some (.fp fp32)
  | 0x1 => some (.fp bf16)
  | 0x2 => some (.fp ⟨16, 5, 10, 15, .ieee⟩)
  | 0x3 => some (.fp ⟨8, 4, 3, 7, .e4m3⟩)
  | 0x4 => some (.fp ⟨8, 5, 2, 15, .ieee⟩)
  | 0x5 => some (.fp ⟨6, 3, 2, 3, .none⟩)
  | 0x6 => some (.fp ⟨6, 2, 3, 1, .none⟩)
  | 0x7 => some (.fp ⟨4, 2, 1, 1, .none⟩)
  | 0x8 => some (.int 8)
  | 0x9 => some (.int 4)
  | 0xA => some (.fp fw48)
  | _ => none

/-- Bits of an element of a format. -/
def fmtBits (c : Nat) : Nat :=
  match numFmt c with
  | some (.fp f) => f.w
  | some (.int w) => w
  | none => 8

/-- Weight of the least bit of a format (R94). -/
def FpFmt.lsb (f : FpFmt) : Int := 1 - (f.bias : Int) - (f.mb : Int)

/-- Code of the largest finite magnitude (Table NF-1). -/
def FpFmt.maxCode (f : FpFmt) : Nat :=
  match f.sp with
  | .ieee => (2 ^ f.eb - 1) * 2 ^ f.mb - 1
  | .e4m3 => 2 ^ (f.eb + f.mb) - 2
  | .none => 2 ^ (f.eb + f.mb) - 1

/-- The canonical NaN (Table NF-2); +0 where the format has none. -/
def FpFmt.nanCode (f : FpFmt) : Nat :=
  match f.sp with
  | .ieee => (2 ^ f.eb - 1) * 2 ^ f.mb + 2 ^ (f.mb - 1)
  | .e4m3 => 2 ^ (f.eb + f.mb) - 1
  | .none => 0

/-- The value that a code's magnitude bits stand for. -/
def FpFmt.mag (f : FpFmt) (neg : Bool) (c : Nat) : Num :=
  let e := c / 2 ^ f.mb
  let m := c % 2 ^ f.mb
  if e = 0 then .fin neg m f.lsb else .fin neg (2 ^ f.mb + m) (f.lsb + (e : Int) - 1)

/-- The value of an encoding (R94, R96, R97). -/
def FpFmt.decode (f : FpFmt) (bits : Nat) : Num :=
  let b := bits % 2 ^ f.w
  let neg := b.testBit (f.w - 1)
  let c := b % 2 ^ (f.w - 1)
  if c ≤ f.maxCode then f.mag neg c
  else match f.sp with
    | .ieee => if c = f.maxCode + 1 then .inf neg else .nan
    | _ => .nan

/-- The value of an element of a format (R94, R100). -/
def NumFmt.decode (f : NumFmt) (bits : Nat) : Num :=
  match f with
  | .fp f => f.decode bits
  | .int w =>
    let v := sext w bits
    .fin (decide (v < 0)) v.natAbs 0

/-- How a rounding decides between its two neighbours: to nearest even, towards zero, or with a random number (R113,
R114). -/
inductive Rnd where
  | rne
  | rtz
  | sr (r : Nat)
  deriving DecidableEq, Repr

/-- Position of the leading one. -/
def lead (m : Nat) : Nat := Nat.log2 m

/-- m * 2^e as a whole number of 2^q, rounded; with the whether it was exact. -/
def roundAt (m : Nat) (e q : Int) (r : Rnd) : Nat × Bool :=
  if q ≤ e then (m * 2 ^ (e - q).toNat, true) else
  let d := (q - e).toNat
  let n := m / 2 ^ d
  let rem := m % 2 ^ d
  let up := match r with
    | .rne => decide (2 * rem > 2 ^ d) || (decide (2 * rem = 2 ^ d) && n % 2 == 1)
    | .rtz => false
    | .sr x => decide (rem * 65536 / 2 ^ d > x)
  (if up then n + 1 else n, rem == 0)

/-- Magnitude code of m * 2^e in a format whose exponent range has no upper limit (R118). -/
def FpFmt.roundCode (f : FpFmt) (m : Nat) (e : Int) (r : Rnd) : Nat × Bool :=
  if m = 0 then (0, true) else
  let q := max ((lead m : Int) + e - f.mb) f.lsb
  let p := roundAt m e q r
  ((q - f.lsb).toNat * 2 ^ f.mb + p.1, p.2)

/-- Arithmetic events: accumulator overflows, NaN generated, saturations, NaN conversions, mode mismatches (R121). -/
structure AEv where
  ovf : Nat := 0
  nan : Nat := 0
  sat : Nat := 0
  cnan : Nat := 0
  mism : Nat := 0
  deriving DecidableEq, Repr

/-- Both events. -/
def AEv.add (a b : AEv) : AEv :=
  ⟨a.ovf + b.ovf, a.nan + b.nan, a.sat + b.sat, a.cnan + b.cnan, a.mism + b.mism⟩

/-- A value rounded into a floating-point format (R113, R114, R118, Table NF-6). -/
def FpFmt.encode (f : FpFmt) (r : Rnd) : Num → Nat × AEv
  | .nan => if f.sp = .none then (0, { cnan := 1 }) else (f.nanCode, {})
  | .inf neg =>
    let s := if neg then 2 ^ (f.w - 1) else 0
    if f.sp = .ieee then (s + f.maxCode + 1, {}) else (s + f.maxCode, { sat := 1 })
  | .fin neg m e =>
    let s := if neg then 2 ^ (f.w - 1) else 0
    let t := f.roundCode m e .rtz
    -- beyond the largest finite value, stochastic rounding is rounding to nearest even (R114)
    let beyond := decide (t.1 > f.maxCode) || (t.1 == f.maxCode && !t.2)
    let c := (f.roundCode m e (if beyond ∧ r ≠ .rtz then .rne else r)).1
    if c ≤ f.maxCode then (s + c, {})
    else if f.sp = .ieee then (s + f.maxCode + 1, {}) else (s + f.maxCode, { sat := 1 })

/-- A value converted to an integer format (R118, Table NF-6). -/
def intEncode (w : Nat) (r : Rnd) : Num → Nat × AEv
  | .nan => (0, { cnan := 1 })
  | .inf neg => (if neg then 2 ^ (w - 1) else 2 ^ (w - 1) - 1, { sat := 1 })
  | .fin neg m e =>
    let n := (roundAt m e 0 r).1
    if neg then (if n ≤ 2 ^ (w - 1) then ((2 ^ w - n) % 2 ^ w, {}) else (2 ^ (w - 1), { sat := 1 }))
    else if n < 2 ^ (w - 1) then (n, {}) else (2 ^ (w - 1) - 1, { sat := 1 })

/-- A value rounded into a format. -/
def NumFmt.encode (f : NumFmt) (r : Rnd) (x : Num) : Nat × AEv :=
  match f with
  | .fp f => f.encode r x
  | .int w => intEncode w r x

/-- The value that a rounding into a floating-point format leaves. -/
def FpFmt.round (f : FpFmt) (x : Num) : Num := f.decode (f.encode .rne x).1

/-! ### Exact operations -/

/-- A signed whole number times 2^e; a zero takes the given sign. -/
def ofInt (z : Bool) (i : Int) (e : Int) : Num :=
  if i = 0 then .fin z 0 e else .fin (decide (i < 0)) i.natAbs e

/-- The signed mantissa at an exponent not above the number's own. -/
def scaled (neg : Bool) (m : Nat) (e q : Int) : Int :=
  let v : Int := (m * 2 ^ (e - q).toNat : Nat)
  if neg then -v else v

/-- Exact sum, with the zeros, infinities and NaNs of IEEE 754 under rounding to nearest (R111). -/
def Num.add : Num → Num → Num
  | .nan, _ => .nan
  | _, .nan => .nan
  | .inf a, .inf b => if a = b then .inf a else .nan
  | .inf a, _ => .inf a
  | _, .inf b => .inf b
  | .fin a m e, .fin b n d =>
    let q := min e d
    ofInt (a && b) (scaled a m e q + scaled b n d q) q

/-- Exact product. -/
def Num.mul : Num → Num → Num
  | .nan, _ => .nan
  | _, .nan => .nan
  | .inf a, .inf b => .inf (xor a b)
  | .inf a, .fin b n _ => if n = 0 then .nan else .inf (xor a b)
  | .fin a m _, .inf b => if m = 0 then .nan else .inf (xor a b)
  | .fin a m e, .fin b n d => .fin (xor a b) (m * n) (e + d)

/-- The number with its sign turned. -/
def Num.neg : Num → Num
  | .nan => .nan
  | .inf a => .inf (!a)
  | .fin a m e => .fin (!a) m e

/-- The value is NaN. -/
def Num.isNan : Num → Bool
  | .nan => true
  | _ => false

/-- Strict order of values, with -0 below +0 (Table NF-7). -/
def Num.lt : Num → Num → Bool
  | .nan, _ => false
  | _, .nan => false
  | .inf a, .inf b => a && !b
  | .inf a, _ => a
  | _, .inf b => !b
  | .fin a m e, .fin b n d =>
    let q := min e d
    let x := scaled a m e q
    let y := scaled b n d q
    decide (x < y) || (decide (x = y) && decide (m = 0) && a && !b)

/-- The greater value; NaN when an operand is NaN. -/
def Num.max (a b : Num) : Num := if a.isNan || b.isNan then .nan else if a.lt b then b else a
/-- The lesser value; NaN when an operand is NaN. -/
def Num.min (a b : Num) : Num := if a.isNan || b.isNan then .nan else if b.lt a then b else a

/-! ### Random numbers of stochastic rounding (R116) -/

/-- The random number of an element: seed, frames, descriptor index, element. -/
def srRandom (seed f t e : Nat) : Nat :=
  let M := 2 ^ 64
  let c := f * 2 ^ 32 + t * 2 ^ 17 + e
  let z := (seed + c * 0x9E3779B97F4A7C15) % M
  let z := ((z ^^^ (z >>> 30)) * 0xBF58476D1CE4E5B9) % M
  let z := ((z ^^^ (z >>> 27)) * 0x94D049BB133111EB) % M
  let z := z ^^^ (z >>> 31)
  z >>> 48

/-! ### Vector functions (R119, R120) -/

/-- Bits of the fixed-point fractions in which exp and ln are enclosed. -/
def fixBits : Nat := 192

/-- ln 2 in fixed point, rounded down. -/
def ln2Fix : Nat := 4350955369971217654477563090224794165364344896676135745069

/-- Terms of the exponential series from x^i/i!, in fixed point. -/
def expTerms (x : Nat) : Nat → Nat → Nat → Nat
  | 0, _, _ => 0
  | n + 1, i, t => t + expTerms x n (i + 1) (t * x / 2 ^ fixBits / (i + 1))

/-- Terms of atanh from z^(2i+1)/(2i+1), in fixed point. -/
def atanhTerms (z2 : Nat) : Nat → Nat → Nat → Nat
  | 0, _, _ => 0
  | n + 1, i, t => t / (2 * i + 1) + atanhTerms z2 n (i + 1) (t * z2 / 2 ^ fixBits)

/-- Square root rounded down, bit by bit. -/
def isqrt (n : Nat) : Nat → Nat → Nat
  | 0, r => r
  | k + 1, r => let c := r + 2 ^ k; isqrt n k (if c * c ≤ n then c else r)

/-- Lower and upper bounds of exp(a) as magnitudes times 2^e, for a in (-2^12, 2^12). -/
def expBounds (neg : Bool) (m : Nat) (e : Int) : Nat × Nat × Int :=
  -- a in fixed point with 2^-fixBits, rounded down
  let sh := e + fixBits
  let v := if 0 ≤ sh then m * 2 ^ sh.toNat else m / 2 ^ (-sh).toNat
  -- below 2^-150 the result lies beside 1
  if v < 2 ^ (fixBits - 150) then
    (if neg then (2 ^ fixBits - 2 ^ (fixBits - 149), 2 ^ fixBits, -fixBits)
     else (2 ^ fixBits, 2 ^ fixBits + 2 ^ (fixBits - 149), -fixBits)) else
  let n := v / ln2Fix
  if !neg then
    let r := v - n * ln2Fix
    let t := expTerms r 60 0 (2 ^ fixBits)
    -- each step and the reduction by n multiples of ln 2 err by less than 2^20 units
    (t - 2 ^ 20, t + 2 ^ 20, (n : Int) - fixBits)
  else
    let r := (n + 1) * ln2Fix - v
    let t := expTerms r 60 0 (2 ^ fixBits)
    (t - 2 ^ 20, t + 2 ^ 20, -(n : Int) - 1 - fixBits)

/-- Lower and upper bounds of |ln a| times 2^fixBits, for a = m * 2^e, with the sign of ln a. -/
def lnBounds (m : Nat) (e : Int) : Bool × Nat × Nat :=
  let l := lead m
  let k := (l : Int) + e
  -- x = m / 2^l in [1, 2); z = (x - 1) / (x + 1)
  let z := (m - 2 ^ l) * 2 ^ fixBits / (m + 2 ^ l)
  let lx := 2 * atanhTerms (z * z / 2 ^ fixBits) 64 0 z
  let v : Int := k * ln2Fix + lx
  (decide (v < 0), v.natAbs - 2 ^ 20, v.natAbs + 2 ^ 20)

/-- Bounds of 1 / (m * 2^e), equal where the result is exact. -/
def recipBounds (m : Nat) (e : Int) : Nat × Nat × Int :=
  let k := 2 ^ 160 / m
  (k, if k * m = 2 ^ 160 then k else k + 1, -160 - e)

/-- Bounds of 1 / sqrt (m * 2^e), equal where the result is exact. -/
def rsqrtBounds (m : Nat) (e : Int) : Nat × Nat × Int :=
  -- sqrt (2^(-e) / m), the exponent made even
  let h := (-e) % 2
  let n := 2 ^ (320 + h.toNat)
  let s := isqrt (n / m) 162 0
  (s, if s * s * m = n then s else s + 1, ((-e) - h) / 2 - 160)

/-- The magnitude of a code as a whole number of least bits. -/
def FpFmt.steps (f : FpFmt) (c : Nat) : Nat :=
  let e := c / 2 ^ f.mb
  if e = 0 then c else (2 ^ f.mb + c % 2 ^ f.mb) * 2 ^ (e - 1)

/-- A magnitude code within `n` ulp of a result that lies between the bounds, drawn by a free value; 1 ulp is the gap
between the two values that enclose the result (R120). The code above the largest finite one is the infinity, to which
a result beyond the range overflows. -/
def FpFmt.near (f : FpFmt) (b : Nat × Nat × Int) (n free : Nat) : Nat :=
  let k := (f.roundCode b.1 b.2.2 .rtz).1
  if k > f.maxCode then f.maxCode + 1 else
  let u := 2 ^ (f.lsb - b.2.2).toNat
  let t := 2 ^ (b.2.2 - f.lsb).toNat
  let tol := n * (f.steps (k + 1) - f.steps k) * u
  let cs := ((List.range (3 * n + 3)).map (k - 2 * n + ·)).filter fun c =>
    let v := f.steps c * u
    decide (c ≤ f.maxCode + 1 ∧ v ≤ b.1 * t + tol ∧ b.2.1 * t ≤ v + tol)
  cs.getD (free % cs.length) k

/-- A transcendental or reciprocal function in the working format, within the bound of Table NF-7: `x` widens the bound
by one ulp under stochastic rounding (R119). -/
def approxFn (fn : Nat) (f : FpFmt) (wcode code : Nat) (x : Nat) (r : Nat) (a : Num) : Num :=
  let free := Config.funcPick fn wcode code r
  match fn, a with
  | _, .nan => .nan
  | 0x07, .inf neg => if neg then .fin false 0 0 else .inf false
  | 0x07, .fin neg m e =>
    if m ≠ 0 ∧ (lead m : Int) + e > 11 then
      (if neg then f.decode (f.near (0, 1, -2000) (2 + x) free) else .inf false)
    else f.decode (f.near (if m = 0 then (1, 1, 0) else expBounds neg m e) (2 + x) free)
  | 0x08, .inf neg => if neg then .nan else .inf false
  | 0x08, .fin neg m e =>
    if m = 0 then .inf true
    else if neg then .nan
    else if m = 2 ^ lead m ∧ (lead m : Int) + e = 0 then
      -- ln 1 = 0, on either side of which the bound leaves room
      let c := f.near (0, 0, f.lsb) (2 + x) free
      f.mag (decide (c ≠ 0) && free.testBit 8) c
    else
      let b := lnBounds m e
      f.mag b.1 (f.near (b.2.1, b.2.2, -fixBits) (2 + x) free)
  | 0x09, .inf neg => .fin neg 0 0
  | 0x09, .fin neg m e =>
    if m = 0 then .inf neg else
    let c := f.near (recipBounds m e) (1 + x) free
    if c > f.maxCode then .inf neg else f.mag neg c
  | 0x0A, .inf neg => if neg then .nan else .fin false 0 0
  | 0x0A, .fin neg m e =>
    if m = 0 then .inf neg else
    if neg then .nan else f.decode (f.near (rsqrtBounds m e) (1 + x) free)
  | _, _ => .nan

/-- Lane and tree sum of function 0x0C in FW48; an empty lane contributes no term (R120). -/
def joinSum (a b : Option Num) : Option Num :=
  match a, b with
  | none, x => x
  | x, none => x
  | some x, some y => some (fw48.round (x.add y))

/-- One level of the pairwise tree. -/
def joinLevel (f : Option Num → Option Num → Option Num) : List (Option Num) → List (Option Num)
  | a :: b :: l => f a b :: joinLevel f l
  | l => l

/-- Elements of lane `k`: k, k + 64, k + 128, ... -/
def laneElems (xs : List Num) (k : Nat) : List Num :=
  xs.zipIdx.filterMap fun e => if e.2 % 64 = k then some e.1 else none

/-- The sum of all elements in the order of R120. -/
def vecSum (xs : List Num) : Num :=
  let lanes := (List.range 64).map fun k => (laneElems xs k).foldl (fun a x => joinSum a (some x)) none
  let t := (List.range 6).foldl (fun l _ => joinLevel joinSum l) lanes
  ((t.headD none).getD (.fin false 0 0))

/-- The maximum of all elements (R120). -/
def vecMax : List Num → Num
  | [] => .fin false 0 0
  | x :: l => l.foldl Num.max x

/-- The result of an element function and its events, in FMT_D (R119, R120). `rs` is the stochastic random number when
RND is 1. -/
def vopElem (fn fa fb fd : Nat) (rs : Option Nat) (scalar a b d : Nat) : Nat × AEv :=
  match numFmt fa, numFmt fb, numFmt fd with
  | some na, some nb, some nd =>
    let rnd := match rs with | some r => Rnd.sr r | none => .rne
    let wide := fd = 0xA
    let w := if wide then fw48 else fp32
    -- operands in FW48 are rounded to FP32 before a function that works in FP32 uses them (R119)
    let opn (c : Nat) (f : NumFmt) (v : Nat) : Num :=
      if c = 0xA ∧ !wide then fp32.round (f.decode v) else f.decode v
    let x := opn fa na a
    let y := opn fb nb b
    let z := opn fd nd d
    let k := fp32.decode scalar
    if fn = 0x0B then nd.encode (if wide then .rne else rnd) (na.decode a) else
    let two := fn ≤ 0x05
    let exact : Num := match fn with
      | 0x00 => x.add y
      | 0x01 => x.add y.neg
      | 0x02 => x.mul y
      | 0x03 => (x.mul y).add z
      | 0x04 => x.max y
      | 0x05 => x.min y
      | 0x06 => x.mul k
      | f => approxFn f w (if wide then 0xA else 0) a
          (if fd = 0 then b2n rs.isSome else 0) (if fd = 0 then rs.getD 0 else 0) x
    let opNan := x.isNan || (two && y.isNan) || (fn == 0x03 && z.isNan) || (fn == 0x06 && k.isNan)
    let gen : AEv := { nan := b2n (exact.isNan && !opNan) }
    -- FP32 and FW48 results are rounded once; a narrower result is rounded to FP32 first (R119)
    let r := if wide then fw48.encode .rne exact
      else if fd = 0 then fp32.encode rnd exact
      else nd.encode rnd (fp32.round exact)
    (r.1, gen.add r.2)
  | _, _, _ => (0, {})

/-- The result of a whole-vector function, 0x0C or 0x0D (R119, R120). -/
def vopReduce (fn fa fd : Nat) (rs : Option Nat) (as : List Nat) : Nat × AEv :=
  match numFmt fa, numFmt fd with
  | some na, some nd =>
    let rnd := match rs with | some r => Rnd.sr r | none => .rne
    let wide := fd = 0xA
    let raw := as.map na.decode
    let xs := if fn = 0x0C then raw.map fw48.round
      else if fa = 0xA ∧ !wide then raw.map fp32.round else raw
    let v := if fn = 0x0C then vecSum xs else vecMax xs
    let gen : AEv := { nan := b2n (v.isNan && !xs.any Num.isNan) }
    let r := if wide then fw48.encode .rne v
      else if fn = 0x0C ∨ fd = 0 then nd.encode rnd v
      else nd.encode rnd (fp32.round v)
    (r.1, gen.add r.2)
  | _, _ => (0, {})

/-! ### The long accumulator (R105 to R112) -/

/-- Weight of the smallest nonzero magnitude (Table NF-4). -/
def fixWeight : Nat → Int
  | 0x3 => -9
  | 0x4 => -16
  | 0x5 => -4
  | 0x6 => -3
  | 0x7 => -1
  | _ => 0

/-- The operands put the accumulator into fixed-point mode. -/
def isFixed (fa : Nat) (mx : Bool) : Bool := !mx && (3 ≤ fa && fa ≤ 9)

/-- Sticky flags of an element: overflow up 1, down 2, NaN operand 4, +inf 8, -inf 16, NaN formed 32. -/
def prodFlags (a b : Num) : Nat :=
  if a.isNan || b.isNan then 4 else
  match a.mul b with
  | .nan => 32
  | .inf neg => if neg then 16 else 8
  | _ => 0

/-- A fixed-point accumulator takes a product (R105, R106): value, flags, overflows. -/
def accFixed (l : Int) (st : Int × Nat × Nat) (a b : Num) : Int × Nat × Nat :=
  let fl := prodFlags a b
  if fl ≠ 0 then (st.1, st.2.1 ||| fl, st.2.2) else
  match a.mul b with
  | .fin neg m e =>
    let v := st.1 + scaled neg m e l
    if v > 2 ^ 79 - 1 then (st.1, st.2.1 ||| 1, st.2.2 + 1)
    else if v < -(2 ^ 79) then (st.1, st.2.1 ||| 2, st.2.2 + 1)
    else (v, st.2.1, st.2.2)
  | _ => st

/-- An FW48 accumulator (code plus one, or zero when no term was added) takes an exact term. -/
def accFw48 (acc : Int) (x : Num) : Int :=
  let r := if acc = 0 then (fw48.encode .rne x).1
    else (fw48.encode .rne ((fw48.decode (acc.toNat - 1)).add x)).1
  (r : Int) + 1

/-- An FW48 accumulator takes a product of 16-bit or 32-bit operands (R109). -/
def accProd (st : Int × Nat × Nat) (a b : Num) : Int × Nat × Nat :=
  let fl := prodFlags a b
  if fl ≠ 0 then (st.1, st.2.1 ||| fl, st.2.2) else (accFw48 st.1 (a.mul b), st.2.1, st.2.2)

/-- An FW48 accumulator takes one MX block: products and the two scale bytes (R101, R108). -/
def accBlock (st : Int × Nat × Nat) (ps : List (Num × Num)) (xa xb : Nat) : Int × Nat × Nat :=
  if xa = 0xFF ∨ xb = 0xFF then (st.1, st.2.1 ||| 4, st.2.2) else
  let fl := ps.foldl (fun f p => f ||| prodFlags p.1 p.2) 0
  if fl ≠ 0 then (st.1, st.2.1 ||| fl, st.2.2) else
  let sum := match ps with
    | [] => Num.fin false 0 0
    | p :: l => l.foldl (fun (a : Num) (q : Num × Num) => a.add (q.1.mul q.2)) (p.1.mul p.2)
  let x := match sum with
    | .fin neg m e => Num.fin neg m (e + (xa : Int) + xb - 254)
    | n => n
  (accFw48 st.1 x, st.2.1, st.2.2)

/-- Value of an operand element of an MMA; with MX an INT8 element is MXINT8 (R100). -/
def mmaElem (fmt : Nat) (mx : Bool) (strip k i : Nat) : Num :=
  let w := fmtBits fmt
  let bits := (strip >>> (w * (32 * k + i))) % 2 ^ w
  match numFmt fmt with
  | some f =>
    match f.decode bits with
    | .fin neg m e => .fin neg m (if mx && fmt == 8 then e - 6 else e)
    | n => n
  | none => .nan

/-- The scale byte of a block for a row or column (R58). -/
def mmaScale (fmt count strip blk i : Nat) : Nat :=
  (strip >>> (fmtBits fmt * 32 * count + 8 * (32 * blk + i))) % 256

/-- One accumulator after the steps of an MMA: operand strips as numbers, COUNT positions. -/
def mmaElement (fa fb : Nat) (mx : Bool) (count sa sb r c : Nat) (st : Int × Nat × Nat) : Int × Nat × Nat :=
  if mx then
    (List.range (count / 32)).foldl (fun st blk =>
      accBlock st ((List.range 32).map fun j =>
          (mmaElem fa true sa (32 * blk + j) r, mmaElem fb true sb (32 * blk + j) c))
        (mmaScale fa count sa blk r) (mmaScale fb count sb blk c)) st
  else if isFixed fa false then
    let l := fixWeight fa + fixWeight fb
    (List.range count).foldl (fun st k => accFixed l st (mmaElem fa false sa k r) (mmaElem fb false sb k c)) st
  else
    (List.range count).foldl (fun st k => accProd st (mmaElem fa false sa k r) (mmaElem fb false sb k c)) st

/-- The result of an element at finish (Table NF-5), before rounding; `mode` 1 is fixed point with unit weight `l`. -/
def accFinish (mode : Nat) (l : Int) (acc : Int) (fl : Nat) : Num × Bool :=
  let up := bitOf fl 0 || bitOf fl 3
  let dn := bitOf fl 1 || bitOf fl 4
  if bitOf fl 2 || bitOf fl 5 then (.nan, !bitOf fl 2)
  else if up && dn then (.nan, true)
  else if up then (.inf false, false)
  else if dn then (.inf true, false)
  else if mode = 1 then (ofInt false acc l, false)
  else if acc = 0 then (.fin false 0 0, false)
  else (fw48.decode (acc.toNat - 1), false)

/-- Cycles of the array's steps of a task (Table SP-2, R58). -/
def mmaCycles (fa fb count : Nat) : Nat :=
  let small (f : Nat) := decide (f = 5 ∨ f = 6 ∨ f = 7 ∨ f = 9)
  if fa = 0 ∨ fb = 0 then 16 * count
  else if fa ≤ 2 ∨ fb ≤ 2 then 4 * count
  else if small fa && small fb then (count + 1) / 2 else count

/-! ### Strips and arrays in memory (R58, R98) -/

/-- Bytes that a run of elements takes. -/
def elemBytes (fmt n : Nat) : Nat := (fmtBits fmt * n + 7) / 8

/-- Bytes of an operand strip of COUNT positions. -/
def stripBytes (fmt count : Nat) (mx : Bool) : Nat :=
  fmtBits fmt * 32 * count / 8 + (if mx then count else 0)

/-- Codes of `n` elements packed in a run (R98). -/
def unpack (fmt n bits : Nat) : List Nat :=
  (List.range n).map fun i => (bits >>> (fmtBits fmt * i)) % 2 ^ fmtBits fmt

/-- The run of codes as one number. -/
def packNat (w : Nat) : List Nat → Nat
  | [] => 0
  | c :: l => c % 2 ^ w + 2 ^ w * packNat w l

/-- The bytes of a run of elements; the last byte of a run that ends inside it has zeros above. -/
def packBytes (fmt : Nat) (cs : List Nat) : List Byte :=
  leBytes (elemBytes fmt cs.length) (packNat (fmtBits fmt) cs)

end Sys2Proof.Machine
end

