-- ==== Sys2Proof/Machine/Elem.lean ====
section
/-! DEFINITION. Elements of atomics and reductions, alone and combined (R304, R310, R311, R313, R314). -/

namespace Sys2Proof.Machine

/-- Bytes of an element by DTYPE (Table FT-7): INT32, INT64, FP32, FW48, BF16. -/
def dtSize (dt : Nat) : Nat :=
  match dt with
  | 0 => 4
  | 1 => 8
  | 2 => 4
  | 3 => 6
  | 4 => 2
  | _ => 0

/-- Alignment of an element (R304). -/
def dtAlign (dt : Nat) : Nat :=
  match dt with
  | 0 => 4
  | 1 => 8
  | 2 => 4
  | _ => 2

/-- Format of a floating-point DTYPE. -/
def dtFmt (dt : Nat) : FpFmt := if dt = 2 then fp32 else if dt = 3 then fw48 else bf16

/-- A DTYPE is an integer. -/
def dtInt (dt : Nat) : Bool := decide (dt ≤ 1)

/-- Sum of two elements: in two's complement, or rounded once to nearest even (R310, R311). -/
def elemAdd (dt a b : Nat) : Nat :=
  if dtInt dt then (a + b) % 2 ^ (8 * dtSize dt)
  else let f := dtFmt dt; (f.encode .rne ((f.decode a).add (f.decode b))).1

/-- The lesser or greater of two elements: signed, or by the rules of Table NF-7. -/
def elemMin (dt a b : Nat) : Nat :=
  if dtInt dt then (let w := 8 * dtSize dt; if sext w a ≤ sext w b then a else b)
  else let f := dtFmt dt; (f.encode .rne (Num.min (f.decode a) (f.decode b))).1
def elemMax (dt a b : Nat) : Nat :=
  if dtInt dt then (let w := 8 * dtSize dt; if sext w a ≤ sext w b then b else a)
  else let f := dtFmt dt; (f.encode .rne (Num.max (f.decode a) (f.decode b))).1

/-- New value of an atomic (R310): AOP, DTYPE, old value, operand, compare value. -/
def atomicNew (aop dt old x cmp : Nat) : Nat :=
  match aop with
  | 0 => elemAdd dt old x
  | 1 => elemMin dt old x
  | 2 => elemMax dt old x
  | 3 => old &&& x
  | 4 => old ||| x
  | 5 => old ^^^ x
  | 6 => x
  | _ => if old = cmp then x else old

/-- A contribution as an FW48 value (R313). -/
def joinFw48 (dt : Nat) (acc : Num) (x : Nat) : Num := fw48.round (acc.add ((dtFmt dt).decode x))

/-- Old value that a combined floating-point add hands out after contributions joined to `acc`: the sum in FW48, rounded
to DTYPE (R314). -/
def handOut (dt old : Nat) (acc : Option Num) : Nat :=
  match acc with
  | none => old
  | some a => ((dtFmt dt).encode .rne (fw48.round (((dtFmt dt).decode old).add a))).1

/-- Combined atomics of one AOP and DTYPE: the final value, and the old value for each, in order of arrival (R314). -/
def atomicFold (aop dt old : Nat) (xs : List Nat) : Nat × List Nat :=
  if aop = 0 ∧ !dtInt dt then
    let r := xs.foldl (fun (r : Option Num × List Nat) x =>
      (some (match r.1 with | none => (dtFmt dt).decode x | some a => joinFw48 dt a x), r.2 ++ [handOut dt old r.1]))
      ((none : Option Num), ([] : List Nat))
    match r.1 with
    | none => (old, r.2)
    | some a => (((dtFmt dt).encode .rne (((dtFmt dt).decode old).add a)).1, r.2)
  else
    xs.foldl (fun (r : Nat × List Nat) x => (atomicNew aop dt r.1 x 0, r.2 ++ [r.1])) (old, [])

/-- An element of a byte list. -/
def elemAt (dt off : Nat) (b : List Byte) : Nat := leNat ((b.drop off).take (dtSize dt))

/-- Bytes with an element replaced. -/
def elemPut (dt off v : Nat) (b : List Byte) : List Byte :=
  b.take off ++ leBytes (dtSize dt) v ++ b.drop (off + dtSize dt)

end Sys2Proof.Machine
end

