-- ==== Sys2Proof/Machine/Blocks.lean ====
section
/-! DEFINITION. The line code of the internal links: the BCH (560, 510) code, the PRBS31 scrambler, blocks, flits, link
words and transaction headers as bits (R198 to R205). Bit 0 of a block or flit is sent first. -/

namespace Sys2Proof.Machine

/-! ### The inner code (R198) -/

/-- Product in GF(2^10) over x^10 + x^3 + 1. -/
def bchMul (a b : Nat) : Nat :=
  ((List.range 10).foldl (fun (r : Nat × Nat) i =>
    (if b.testBit i then r.1 ^^^ r.2 else r.1, if r.2.testBit 9 then (2 * r.2) ^^^ 0x409 else 2 * r.2)) (0, a)).1

/-- Inverse in GF(2^10), as the power 1022; 0 for 0. -/
def bchInv (a : Nat) : Nat :=
  ((List.range 9).foldl (fun (r : Nat × Nat) _ => let q := bchMul r.2 r.2; (bchMul r.1 q, q)) (1, a)).1

/-- α to a power. -/
def bchPow : Nat → Nat
  | 0 => 1
  | n + 1 => bchMul (bchPow n) 2

/-- Minimal polynomials of α, α^3, α^5, α^7 and α^9, and their product, the generator. -/
def bchFactors : List Nat := [0x409, 0x40F, 0x50D, 0x7F9, 0x4AF]
def bchGen : Nat :=
  bchFactors.foldl (fun g f =>
    (List.range 11).foldl (fun a i => if f.testBit i then a ^^^ (g * 2 ^ i) else a) 0) 1

/-- One bit into the divider of 50 bits. -/
def bchStep (r : Nat) (b : Bool) : Nat :=
  let s := 2 * r % 2 ^ 50
  if r.testBit 49 != b then s ^^^ (bchGen % 2 ^ 50) else s

/-- The 50 parity bits of 510 bits: bit i of the block is the coefficient of x^(559 - i) (DESIGN CHOICE, log entry 177). -/
def bchParity (v : Nat) : Nat :=
  let r := (List.range 510).foldl (fun r i => bchStep r (v.testBit i)) 0
  (List.range 50).foldl (fun a i => if r.testBit (49 - i) then a + 2 ^ i else a) 0

/-- The syndrome of power `j` of a block. -/
def bchSyndrome (w j : Nat) : Nat :=
  let x := bchPow j
  (List.range 560).foldl (fun s i => bchMul s x ^^^ (if w.testBit i then 1 else 0)) 0

/-- State of the search for the error locator (Berlekamp and Massey): locator, its last rival, length, gap, discrepancy. -/
structure Locator where
  c : List Nat := [1]
  b : List Nat := [1]
  len : Nat := 0
  gap : Nat := 1
  d : Nat := 1

/-- The locator after syndrome `n` (from 0). -/
def Locator.next (x : Locator) (syn : List Nat) (n : Nat) : Locator :=
  let d := (List.range (x.len + 1)).foldl (fun a i => a ^^^ bchMul (x.c.getD i 0) (syn.getD (n - i) 0)) 0
  if d = 0 then { x with gap := x.gap + 1 } else
  let q := bchMul d (bchInv x.d)
  let sub := List.replicate x.gap 0 ++ x.b.map (bchMul q)
  let c := (List.range (max x.c.length sub.length)).map fun i => x.c.getD i 0 ^^^ sub.getD i 0
  if 2 * x.len ≤ n then { c := c, b := x.c, len := n + 1 - x.len, gap := 1, d := d }
  else { x with c := c, gap := x.gap + 1 }

/-- Value of a polynomial, the lowest coefficient first. -/
def bchEval (c : List Nat) (x : Nat) : Nat := c.foldr (fun a r => a ^^^ bchMul r x) 0

/-- A received block decoded: the number of bits corrected and the block without them, or nothing when no word of the code
lies within 5 bits. -/
def bchDecode (w : Nat) : Option (Nat × Nat) :=
  let syn := (List.range 10).map fun j => bchSyndrome w (j + 1)
  if syn.all (· == 0) then some (0, w) else
  let x := (List.range 10).foldl (fun x n => x.next syn n) ({} : Locator)
  if 5 < x.len then none else
  -- bit i is in error when α^(i - 559) is a root of the locator
  let inv := bchInv 2
  let r := (List.range 560).foldl (fun (r : Nat × Nat × Nat) k =>
    (bchMul r.1 inv, if bchEval x.c r.1 = 0 then (r.2.1 + 1, r.2.2 + 2 ^ (559 - k)) else r.2)) (1, 0, 0)
  if r.2.1 = x.len then some (x.len, w ^^^ r.2.2) else none

/-! ### Scrambler and block (R198 to R200) -/

/-- The next `n` bits of the sequence x^31 + x^28 + 1, and the register after them. The register's bit k holds the bit
k + 1 places back; the sequence's own next bit is sent (DESIGN CHOICE, log entry 177). -/
def prbsBits (n r : Nat) : Nat × Nat :=
  (List.range n).foldl (fun (p : Nat × Nat) i =>
    let b := b2n (p.2.testBit 27 != p.2.testBit 30)
    (p.1 + b * 2 ^ i, 2 * p.2 % 2 ^ 31 + b)) (0, r)
def prbsBlock (r : Nat) : Nat × Nat := prbsBits 510 r

/-- A block as sent: FSTART, K, 500 payload bits, scrambled, with the parity over the scrambled bits. -/
def blockBits (fstart : Nat) (k : Bool) (pay seq : Nat) : Nat :=
  let v := (fstart + 512 * b2n k + 1024 * (pay % 2 ^ 500)) ^^^ seq
  v + bchParity v * 2 ^ 510

/-- The payload of a decoded block. -/
def blockPayload (w seq : Nat) : Nat := ((w % 2 ^ 510) ^^^ seq) / 1024

/-! ### Headers, link word, CRC (R203 to R205) -/

/-- Bits of a transaction header (Table PL-4). -/
def hdrBits (h : Hdr) : Nat :=
  h.op.toNat + h.tid.toNat * 2 ^ 6 + h.line.toNat * 2 ^ 18 + h.nflit.toNat * 2 ^ 50 + b2n h.maskf * 2 ^ 53 +
    h.jobTag.toNat * 2 ^ 54 + h.cslot.toNat * 2 ^ 66 + b2n h.csEn * 2 ^ 74 + h.status.toNat * 2 ^ 75 + b2n h.det * 2 ^ 83 +
    h.final.toNat * 2 ^ 84 + h.orig.toNat * 2 ^ 90 + h.arg.toNat * 2 ^ 96

/-- The header that 112 bits spell, without its flits. -/
def hdrOf (v : Nat) : Hdr :=
  { op := BitVec.ofNat 6 v, tid := BitVec.ofNat 12 (bitsOf v 17 6), line := BitVec.ofNat 32 (bitsOf v 49 18),
    nflit := BitVec.ofNat 3 (bitsOf v 52 50), maskf := v.testBit 53, jobTag := BitVec.ofNat 12 (bitsOf v 65 54),
    cslot := BitVec.ofNat 8 (bitsOf v 73 66), csEn := v.testBit 74, status := BitVec.ofNat 8 (bitsOf v 82 75),
    det := v.testBit 83, final := BitVec.ofNat 6 (bitsOf v 89 84), orig := BitVec.ofNat 6 (bitsOf v 95 90),
    arg := BitVec.ofNat 16 (bitsOf v 111 96) }

/-- Data flits of a header (R205). -/
def hdrData (h : Hdr) : Nat := h.nflit.toNat + h.maskf.toNat

/-- Bits run through the CRC-24 register, from bit 0 up. -/
def crc24 : Nat → Nat → Nat → Nat
  | 0, _, c => c
  | n + 1, v, c =>
    let s := 2 * c % 2 ^ 24
    crc24 n (v / 2) (if c.testBit 23 != v.testBit 0 then s ^^^ 0x864CFB else s)

/-- CRC of a bundle or flit of `n` flits: bits 39 to 0 of the link word, then all that follows the word (R203). -/
def flitCrc (v n : Nat) : Nat := crc24 (512 * n - 64) (v / 2 ^ 64) (crc24 40 v 0xFFFFFF)

/-- Flits of a unit. -/
def LUnit.flits (u : LUnit) : Nat := 1 + (u.hdrs.map hdrData).sum

/-- The mask and data flits of a header as a number. -/
def hdrFlits (h : Hdr) : Nat := leNat (h.data.take (64 * hdrData h))

/-- A bundle or idle flit as bits: link word, headers at bytes 8 + 14j, then the data flits in header order. -/
def LUnit.bits (u : LUnit) : Nat :=
  let nd := (u.hdrs.map hdrData).sum
  let w := (if u.idle then 0 else 1) + u.seq % 1024 * 2 ^ 2 + u.ackSeq % 1024 * 2 ^ 12 + b2n u.ackV * 2 ^ 22 + b2n u.nak * 2 ^ 23 +
    u.credit % 256 * 2 ^ 24 + (u.hdrs.length - 1) * 2 ^ 32 + nd * 2 ^ 34
  let r := u.hdrs.foldl (fun (r : Nat × Nat × Nat) h =>
    (r.1 + hdrBits h * 2 ^ r.2.1 + hdrFlits h * 2 ^ r.2.2, r.2.1 + 112, r.2.2 + 512 * hdrData h)) (w, 64, 512)
  r.1 + flitCrc r.1 (1 + nd) * 2 ^ 40

/-- A bundle or idle flit as the receiver reads it (Table PL-3): `good` is its CRC. -/
structure Bundle where
  kind : Nat := 1
  seq : Nat := 0
  ackSeq : Nat := 0
  ackV : Bool := false
  nak : Bool := false
  credit : Nat := 0
  ndata : Nat := 0
  good : Bool := true
  hdrs : List Hdr := []
  deriving DecidableEq, Repr

/-- The bundle that bits of `n` flits spell. -/
def readBundle (v n : Nat) : Bundle :=
  let hs := if v % 4 = 1 then (List.range (bitsOf v 33 32 + 1)).map fun j => hdrOf (v / 2 ^ (64 + 112 * j)) else []
  let r := hs.foldl (fun (r : List Hdr × Nat) h =>
    (r.1 ++ [{ h with data := leBytes (64 * hdrData h) (v / 2 ^ r.2) }], r.2 + 512 * hdrData h)) ([], 512)
  { kind := v % 4, seq := bitsOf v 11 2, ackSeq := bitsOf v 21 12, ackV := v.testBit 22, nak := v.testBit 23,
    credit := bitsOf v 31 24, ndata := bitsOf v 38 34, good := bitsOf v 63 40 == flitCrc v n, hdrs := r.1 }

end Sys2Proof.Machine
end

