-- ==== Sys2Proof/Machine/Words.lean ====
section
/-! DEFINITION. The line code of the fibre ports: the RS(544,514) code, code words, link flits, packet headers and training
flits as bits (R264 to R272, R279). Bit 0 of a code word or flit is sent first. -/

namespace Sys2Proof.Machine

/-! ### RS(544,514) (R264; PRESUMED from IEEE 802.3 clause 91, log entry 196) -/

/-- Symbol `i` of a code word: the coefficient of x^(543 - i). -/
def rsSymbol (w i : Nat) : Nat := w / 2 ^ (10 * i) % 1024

/-- The syndrome of power `j`: the word's value at α^j, for j from 0 to 29. -/
def rsSyndrome (w j : Nat) : Nat :=
  let x := bchPow j
  (List.range 544).foldl (fun s i => bchMul s x ^^^ rsSymbol w i) 0

/-- The generator, the product of x - α^j for j from 0 to 29, the lowest coefficient first. -/
def rsGen : List Nat :=
  (List.range 30).foldl (fun g j => ((0 :: g).zip (g.map (bchMul (bchPow j)) ++ [0])).map fun e => e.1 ^^^ e.2) [1]

/-- The 300 parity bits of 5,140 message bits: symbols 514 to 543. -/
def rsParity (m : Nat) : Nat :=
  let g := rsGen.take 30
  let r := (List.range 514).foldl (fun (r : List Nat) i =>
    let f := r.getD 29 0 ^^^ rsSymbol m i
    ((0 :: r).zip g).map fun e => e.1 ^^^ bchMul f e.2) (List.replicate 30 0)
  (List.range 30).foldl (fun a i => a + r.getD (29 - i) 0 * 2 ^ (10 * i)) 0

/-- The formal derivative of a polynomial. -/
def rsDeriv (c : List Nat) : List Nat :=
  (List.range (c.length - 1)).map fun i => if i % 2 = 0 then c.getD (i + 1) 0 else 0

/-- The error evaluator: the product of syndromes and locator below x^30. -/
def rsEvaluator (syn c : List Nat) : List Nat :=
  (List.range 30).map fun n => (List.range (n + 1)).foldl (fun a i => a ^^^ bchMul (c.getD i 0) (syn.getD (n - i) 0)) 0

/-- A received code word decoded: the number of symbols corrected and the 5,140 message bits, or nothing when no word of the
code lies within 15 symbols. -/
def rsDecode (w : Nat) : Option (Nat × Nat) :=
  let syn := (List.range 30).map (rsSyndrome w)
  if syn.all (· == 0) then some (0, w % 2 ^ 5140) else
  let x := (List.range 30).foldl (fun x n => x.next syn n) ({} : Locator)
  if 15 < x.len then none else
  let om := rsEvaluator syn x.c
  let de := rsDeriv x.c
  -- symbol i is in error when α^(i - 543) is a root of the locator; its value is Forney's
  let inv := bchInv 2
  let r := (List.range 544).foldl (fun (r : Nat × Nat × Nat) k =>
    (bchMul r.1 inv,
      if bchEval x.c r.1 = 0 then
        (r.2.1 + 1, r.2.2 ^^^ bchMul (bchInv r.1) (bchMul (bchEval om r.1) (bchInv (bchEval de r.1))) * 2 ^ (10 * (543 - k)))
      else r.2)) (1, 0, 0)
  if r.2.1 = x.len then some (x.len, (w ^^^ r.2.2) % 2 ^ 5140) else none

/-- A code word as sent: header and ten flits, scrambled, with the parity over the scrambled bits (R265 to R267). -/
def wordBits (seq kmap : Nat) (flits : List Nat) (scr : Nat) : Nat :=
  let m := flits.zipIdx.foldl (fun a f => a + f.1 * 2 ^ (20 + 512 * f.2)) (seq % 1024 + kmap % 1024 * 1024)
  let v := m ^^^ (prbsBits 5140 scr).1
  v + rsParity v * 2 ^ 5140

/-! ### Packet headers (R279, Table FT-5) -/

/-- Bits of a packet header in use. -/
def pktBits (k : Pkt) : Nat :=
  k.op.toNat + 2 ^ 6 + k.hops.toNat * 2 ^ 7 + k.dstDev.toNat * 2 ^ 10 + k.srcDev.toNat * 2 ^ 26 + k.unit.toNat * 2 ^ 42 +
    k.srcAgent.toNat * 2 ^ 46 + k.seq.toNat * 2 ^ 52 + k.jobTag.toNat * 2 ^ 68 + k.addr.toNat * 2 ^ 80 +
    k.len.toNat * 2 ^ 128 + k.nflit.toNat * 2 ^ 136 + k.maskf.toNat * 2 ^ 139 + k.tagf.toNat * 2 ^ 140 +
    k.cslot.toNat * 2 ^ 141 + k.csEn.toNat * 2 ^ 149 + k.status.toNat * 2 ^ 150 + k.opt.toNat * 2 ^ 158 +
    k.adapt.toNat * 2 ^ 182 + k.mcTgt.toNat * 2 ^ 183 + k.rsv.toNat * 2 ^ 189

/-- The packet that the 224 bits of a header spell, without its flits. -/
def pktOf (v : Nat) : Pkt :=
  { op := BitVec.ofNat 6 v, hops := BitVec.ofNat 3 (bitsOf v 9 7), dstDev := BitVec.ofNat 16 (bitsOf v 25 10),
    srcDev := BitVec.ofNat 16 (bitsOf v 41 26), unit := BitVec.ofNat 4 (bitsOf v 45 42),
    srcAgent := BitVec.ofNat 6 (bitsOf v 51 46), seq := BitVec.ofNat 16 (bitsOf v 67 52),
    jobTag := BitVec.ofNat 12 (bitsOf v 79 68), addr := BitVec.ofNat 48 (bitsOf v 127 80),
    len := BitVec.ofNat 8 (bitsOf v 135 128), nflit := BitVec.ofNat 3 (bitsOf v 138 136), maskf := v.testBit 139,
    tagf := v.testBit 140, cslot := BitVec.ofNat 8 (bitsOf v 148 141), csEn := v.testBit 149,
    status := BitVec.ofNat 8 (bitsOf v 157 150), opt := BitVec.ofNat 24 (bitsOf v 181 158), adapt := v.testBit 182,
    mcTgt := BitVec.ofNat 6 (bitsOf v 188 183), rsv := BitVec.ofNat 35 (bitsOf v 223 189) }

/-- Data flits after the header of a packet. -/
def pktData (k : Pkt) : Nat := k.nflit.toNat + k.maskf.toNat + k.tagf.toNat

/-! ### Flits (R270, R271, Table FT-2) -/

/-- A bundle or idle flit of a fibre link as the receiver reads it: `good` is its CRC. -/
structure FBundle where
  kind : Nat := 1
  seq : Nat := 0
  ackSeq : Nat := 4095
  nak : Bool := false
  sh : Bool := false
  cpool : Nat := 0
  credit : Nat := 0
  good : Bool := true
  pkts : List Pkt := []
  deriving DecidableEq, Repr

/-- The headers of a head flit: slot 0, and slot 1 where its V bit is set. An empty slot 0 leaves none (R271). -/
def headSlots (f : Nat) : List Pkt :=
  if !f.testBit (64 + 6) then []
  else if f.testBit (64 + 224 + 6) then [pktOf (f / 2 ^ 64), pktOf (f / 2 ^ (64 + 224))] else [pktOf (f / 2 ^ 64)]

/-- Flits of the unit that a flit begins: a bundle's data flits follow its head, every other kind stands alone. -/
def unitLen (f : Nat) : Nat := if f % 4 = 1 then 1 + ((headSlots f).map pktData).sum else 1

/-- A bundle or idle flit as bits. -/
def fabricBits (b : FBundle) : Nat :=
  let w := b.kind % 4 + b.seq % 4096 * 2 ^ 2 + b.ackSeq % 4096 * 2 ^ 14 + b2n b.nak * 2 ^ 26 + b2n b.sh * 2 ^ 27 +
    b.cpool % 16 * 2 ^ 28 + b.credit % 256 * 2 ^ 32
  let r := b.pkts.foldl (fun (r : Nat × Nat × Nat) k =>
    (r.1 + pktBits k * 2 ^ r.2.1 + leNat (k.data.take (64 * pktData k)) * 2 ^ r.2.2, r.2.1 + 224, r.2.2 + 512 * pktData k))
    (w, 64, 512)
  r.1 + flitCrc r.1 (1 + (b.pkts.map pktData).sum) * 2 ^ 40

/-- The bundle or idle flit that bits of `n` flits spell. -/
def readFabric (v n : Nat) : FBundle :=
  let hs := if v % 4 = 1 then headSlots (v % 2 ^ 512) else []
  let r := hs.foldl (fun (r : List Pkt × Nat) k =>
    (r.1 ++ [{ k with data := leBytes (64 * pktData k) (v / 2 ^ r.2) }], r.2 + 512 * pktData k)) ([], 512)
  { kind := v % 4, seq := bitsOf v 13 2, ackSeq := bitsOf v 25 14, nak := v.testBit 26, sh := v.testBit 27,
    cpool := bitsOf v 31 28, credit := bitsOf v 39 32, good := bitsOf v 63 40 == flitCrc v n, pkts := r.1 }

/-- The training flit that 512 bits spell (Table FT-3). -/
def trainOf (v : Nat) : TrainFlit :=
  let b (i n : Nat) : Nat := v / 2 ^ (8 * i) % 256 ^ n
  { dev := BitVec.ofNat 16 (b 8 2), port := BitVec.ofNat 8 (b 10 1), ack := v.testBit 88, mgr := v.testBit 89,
    switch := v.testBit 90, idValid := v.testBit 91, txTime := BitVec.ofNat 32 (b 12 4), echoTime := BitVec.ofNat 32 (b 16 4),
    holdNs := BitVec.ofNat 32 (b 20 4), res := (List.range 11).map fun i => b (24 + 2 * i) 2, shared := b 46 2,
    version := b 48 2 }

/-- A unit that arrived: its flits, or the place of one that an uncorrectable code word spoiled (R268). -/
structure FUnit where
  v : Nat := 0
  n : Nat := 1
  spoiled : Bool := false
  deriving DecidableEq, Repr

/-! ### A code word arrives (R266 to R268) -/

/-- The next flit of a port; `begins` is its KMAP bit. A flit that belongs to no unit begun is dropped. -/
def Port.flitIn (x : Port) (begins : Bool) (f : Nat) : Port × List FUnit :=
  if begins then
    let cut : List FUnit := match x.part with | some u => [{ v := u.1, spoiled := true }] | none => []
    if unitLen f ≤ 1 then ({ x with part := none }, cut ++ [{ v := f }]) else ({ x with part := some (f, 1) }, cut)
  else
    match x.part with
    | none => (x, [])
    | some (v, k) =>
      let u := v + f * 2 ^ (512 * k)
      if k + 1 = unitLen (v % 2 ^ 512) then ({ x with part := none }, [{ v := u, n := k + 1 }])
      else ({ x with part := some (u, k + 1) }, [])

/-- Code words decoded in a row, each with the CW_SEQ that follows the one before (R266, R268; DEDUCED, log entry 235). -/
def Port.okAfter (x : Port) (seq : Nat) : Nat := if x.cwSeq = some ((seq + 1023) % 1024) then x.okRun + 1 else 1

/-- A code word at a port: the number of symbols corrected, none when it is uncorrectable, and the units that it completed. An
uncorrectable word spoils the unit that has begun, or one of which nothing is known. While the link trains, the scrambling sequence
starts anew with every word (R267). -/
def Port.hear (x : Port) (train : Bool) (w : Nat) : Port × Option Nat × List FUnit :=
  let q := prbsBits 5140 (if train then 2 ^ 31 - 1 else x.rxScr)
  match rsDecode w with
  | none => ({ x with rxScr := q.2, part := none, okRun := 0, badRun := x.badRun + 1, cwSeq := none }, none,
      [{ v := (x.part.getD (0, 0)).1, spoiled := true }])
  | some (n, m) =>
    let m := m ^^^ q.1
    let x := { x with rxScr := q.2, okRun := x.okAfter (m % 1024), badRun := 0, cwSeq := some (m % 1024), syms := x.syms + n }
    let r := (List.range 10).foldl (fun (r : Port × List FUnit) i =>
      let y := r.1.flitIn (m.testBit (10 + i)) (m / 2 ^ (20 + 512 * i) % 2 ^ 512)
      (y.1, r.2 ++ y.2)) (x, [])
    (r.1, some n, r.2)

end Sys2Proof.Machine
end

