-- ==== Sys2Proof/Machine/FabOps.lean ====
section
/-! DEFINITION. Carriage over the fibre ports: pools, credits, bundles, routes, replies (R264 to R292). -/

namespace Sys2Proof.Machine

/-! ### Packets -/

/-- Bytes of the data flits of a packet, without its mask and authentication flits. -/
def dataFlits (k : Pkt) : List Byte := (k.data.drop (64 * k.maskf.toNat)).take (64 * k.nflit.toNat)

/-- Class of an operation code (Table FT-6): 0 request, 1 completion, 2 management; none when reserved. -/
def opClass (op : Nat) : Option Nat :=
  if 1 ≤ op ∧ op ≤ 9 then some 0
  else if op = 0x20 ∨ op = 0x21 then some 1
  else if (0x18 ≤ op ∧ op ≤ 0x1C) ∨ op = 0x28 ∨ op = 0x29 ∨ op = 0x2C then some 2
  else none

/-- Pool of a packet on arrival (Table FT-4). -/
def pktPool (k : Pkt) : Nat :=
  match opClass k.op.toNat with
  | some 1 => 5 + (k.hops.toNat - 1)
  | some 2 => 10
  | _ => k.hops.toNat - 1

/-- Priority of a pool at an output (R277): management, completions, requests; lower levels first. -/
def poolOrder : List Nat := [10, 5, 6, 7, 8, 9, 0, 1, 2, 3, 4]

/-- The device's own ID is this one. -/
def State.isOwn (s : State) (dev : Nat) : Bool := s.hasId && s.fld Loc.glFabId 15 0 == dev

/-! ### Ports -/

def State.port (s : State) (p : Nat) : Port := lget {} (s.oculus (p / 16)).ports (p % 16)
def State.modPort (s : State) (p : Nat) (f : Port → Port) : State :=
  s.modOculus (p / 16) fun o => { o with ports := lmod o.ports (p % 16) f }

/-- PORT_STS.STATE of a port: 0 down, 1 light, 2 lock, 3 training, 4 up, 5 failed. -/
def State.portState (s : State) (p : Nat) : Nat := s.fld (Loc.ocPortSts (p / 16)) 2 0 (p % 16)
def State.setPortState (s : State) (p st : Nat) : State := s.setFld (Loc.ocPortSts (p / 16)) 2 0 st (p % 16)

/-- Events of the oculus's page 0x05. -/
def State.ocEvent (s : State) (e code unit amt : Nat) : State := s.bump (ocPage e 5) code unit amt

/-- Flits of a list of packets. -/
def flitsOf (l : List Pkt) : Nat := (l.map fun k => 1 + pktData k).sum

/-- Flits that wait at a port. -/
def Port.queued (p : Port) : Nat := flitsOf p.q

/-- The samples of a port's output queue, taken every 64 ns, up to now (R296). -/
def State.samplePort (s : State) (p : Nat) : State :=
  let x := s.port p
  let k := s.clk.elapsed / 64 - x.qAt / 64
  let d := x.queued
  let s := s.modPort p fun x =>
    { x with qAt := s.clk.elapsed, qN := x.qN + k, qSum := x.qSum + k * d, qPeak := if k = 0 then x.qPeak else max x.qPeak d }
  if k = 0 then s else
  let loc := Loc.ocPortQueue (p / 16)
  s.setFld loc 28 16 (min 8191 (max d (s.fld loc 28 16 (p % 16)))) (p % 16)

/-- Up to two packets of a pool, in order, and the rest of the queue (R276, R207). -/
def takePool (pool : Nat) : Nat → List Pkt → List Pkt × List Pkt
  | 0, q => ([], q)
  | _, [] => ([], [])
  | n + 1, k :: q =>
    if pktPool k = pool then let r := takePool pool n q; (k :: r.1, r.2)
    else let r := takePool pool (n + 1) q; (r.1, k :: r.2)

/-- Pools whose packets may leave: until step 9 of the start only pool 10 (R475). -/
def openPools (all : Bool) : List Nat := if all then poolOrder else [10]

/-- The first pool, in the order of R277, with a bundle that can leave: the bundle, the pool charged (11 shared), the
queue left. A bundle without enough credits of either kind waits whole (R276). -/
def Port.nextBundle (p : Port) (all : Bool) : Option (List Pkt × Nat × List Pkt) :=
  (openPools all).findSome? fun pool =>
    let r := takePool pool 2 p.q
    if r.1.isEmpty then none else
    let fl := 1 + (r.1.map pktData).sum
    if p.credit.getD 11 0 ≥ fl then some (r.1, 11, r.2)
    else if p.credit.getD pool 0 ≥ fl then some (r.1, pool, r.2)
    else none

/-- The retry buffer has no room for a bundle of so many flits: 4,096 flits, 2,047 bundles (R274). -/
def Port.retryFull (p : Port) (fl : Nat) : Bool :=
  decide (4096 < (p.retry.map (·.flits)).sum + fl ∨ 2047 ≤ p.retry.length)

/-- The pool that a bundle is charged to when it is sent again: the shared one, or its own; none while it waits for credit (R276). -/
def Port.poolAgain (p : Port) (b : Sent) : Option Nat :=
  let own := pktPool (b.pkts.headD {})
  if p.credit.getD 11 0 ≥ b.flits then some 11 else if p.credit.getD own 0 ≥ b.flits then some own else none

/-- A bundle of the port waits for credit, and for nothing else (R296). -/
def Port.starved (p : Port) (all : Bool) : Bool :=
  match p.again with
  | b :: _ => (p.poolAgain b).isNone
  | [] => (p.nextBundle all).isNone && !p.retryFull 1 && (openPools all).any fun pool => p.q.any fun k => pktPool k == pool

/-- A stamp of the own count in the flit of a time packet: whole ns and 1/256 ns (Table CK-3). -/
def stampAt (off t : Nat) (d : List Byte) : List Byte :=
  d.take off ++ leBytes 8 (t / 256) ++ leBytes 1 (t % 256) ++ d.drop (off + 9)

/-- A packet as it leaves its device's port at an own count (R346, R348): a TIME_SYNC takes T1, a TIME_SYNC_RESP T3. -/
def Pkt.stamped (own t : Nat) (k : Pkt) : Pkt :=
  if k.srcDev.toNat ≠ own then k
  else if k.op = 0x19 then { k with data := stampAt 0 t k.data }
  else if k.op = 0x29 then { k with data := stampAt 28 t k.data }
  else k

/-- The time stamps that a port puts in as packets leave it; an own exchange keeps its t1 (R346, R348). -/
def State.departing (s : State) (l : List Pkt) : State × List Pkt :=
  let own := s.ownDev
  let t := s.now256
  let asked := l.filter fun k => k.op == 0x19 && k.srcDev.toNat == own && (k.data.getD 37 0) == 0
  let num (k : Pkt) : Nat := (k.data.getD 26 0).toNat + 256 * (k.data.getD 27 0).toNat
  let out := s.time.out.map fun x => if asked.any (fun k => num k == x.num) then { x with t1 := t } else x
  ({ s with time := { s.time with out := out } }, l.map (Pkt.stamped own t))

/-- A bundle leaves: its credits are taken, it enters the retry buffer, its flits are counted. -/
def State.sendBundle (s : State) (p : Nat) (b : List Pkt) (pool : Nat) (rest : List Pkt) : State :=
  let e := p / 16
  let i := p % 16
  let fl := 1 + (b.map pktData).sum
  let now := s.clk.elapsed
  let r := s.departing b
  let s := r.1.modPort p fun x =>
    { x with
      q := rest
      credit := lmod x.credit pool fun c => c - fl
      next := (x.next + 1) % 4096
      ackAt := if x.retry.isEmpty then now else x.ackAt
      retry := x.retry ++ [⟨x.next, r.2, pool, fl⟩] }
  let tx := (s.get64 (Loc.ocTxFlitsLo e) i + fl) % 2 ^ 48
  (s.put64 (Loc.ocTxFlitsLo e) tx i).ocEvent e 2 i fl

/-- A bundle of the retry buffer leaves again: this copy takes credits too, and is counted (R210, R276, R296). -/
def State.sendAnew (s : State) (p : Nat) (b : Sent) (pool : Nat) (rest : List Sent) : State :=
  let e := p / 16
  let i := p % 16
  let r := s.departing b.pkts
  let s := r.1.modPort p fun x =>
    { x with
      again := rest
      credit := lmod x.credit pool fun c => c - b.flits
      retry := x.retry.map fun y => if y.seq = b.seq then { y with pkts := r.2, pool := pool } else y }
  let tx := (s.get64 (Loc.ocTxFlitsLo e) i + b.flits) % 2 ^ 48
  ((s.put64 (Loc.ocTxFlitsLo e) tx i).ocEvent e 2 i b.flits).addWrap (Loc.ocPortRetry e) 31 0 1 i |>.ocEvent e 4 i 1

/-- The stall time of a port up to now is counted (R296). -/
def State.stallCount (s : State) (p : Nat) : State :=
  match (s.port p).stalled with
  | none => s
  | some t =>
    let now := s.clk.elapsed
    let d := now - t
    let e := p / 16
    let s := s.modPort p fun x => { x with stalled := some now, stallNs := x.stallNs + d }
    if d = 0 then s else (s.addWrap (Loc.ocPortStall e) 31 0 d (p % 16)).ocEvent e 8 (p % 16) d

/-- Waiting time for credit begins or ends (R296). -/
def State.stallMark (s : State) (p : Nat) : State :=
  let s := s.stallCount p
  let x := s.port p
  if s.portState p = 4 ∧ x.locked ∧ x.starved s.start.fabric then
    (if x.stalled.isSome then s else s.modPort p fun x => { x with stalled := some s.clk.elapsed })
  else if x.stalled.isNone then s else s.modPort p fun x => { x with stalled := none }

/-- Every bundle that can leave leaves, those to be sent again first (R210, R274, R276, R277); `fuel` bounds what waits. -/
def State.pumpPort (s : State) (p : Nat) : Nat → State
  | 0 => s
  | f + 1 =>
    let x := s.port p
    if s.portState p ≠ 4 ∨ !x.locked then s else
    match x.again with
    | b :: rest =>
      (match x.poolAgain b with
      | none => s
      | some pool => (s.sendAnew p b pool rest).pumpPort p f)
    | [] =>
      match x.nextBundle s.start.fabric with
      | none => s
      | some (b, pool, rest) =>
        if x.retryFull (1 + (b.map pktData).sum) then s
        else (s.sendBundle p b pool rest).pumpPort p f

/-- A port sends what it can. -/
def State.pump (s : State) (p : Nat) : State :=
  ((s.samplePort p).pumpPort p ((s.port p).q.length + (s.port p).again.length + 1)).stallMark p

/-- A transaction number is in use, or rests after an MC_STORE (R284, R318). -/
def State.seqBusy (s : State) (seq : Nat) : Bool :=
  let o := s.oculus (seq / 32768 % 2)
  o.txns.any (fun t => t.seq == seq) || o.parked.any fun t => t.1 == seq && decide (t.2 > s.clk.elapsed)

/-- The next transaction number of an oculus that is not in use or resting; nothing when there is none. -/
def State.freeSeq (s : State) (e : Nat) : Option Nat :=
  let o := s.oculus e
  ((List.range (min 32768 (o.txns.length + o.parked.length + 1))).map fun i => (o.nextSeq + i) % 32768).find? fun i =>
    !s.seqBusy (i + 32768 * e)

/-- The outstanding transaction under a number: SEQ bit 15 names its oculus (R284). -/
def State.txn (s : State) (seq : Nat) : Option Txn :=
  (s.oculus (seq / 32768 % 2)).txns.find? fun t => t.seq == seq
def State.setTxn (s : State) (t : Txn) : State :=
  s.modOculus (t.seq / 32768 % 2) fun o => { o with txns := o.txns.map fun x => if x.seq = t.seq then t else x }
def State.dropTxn (s : State) (seq : Nat) : State :=
  s.modOculus (seq / 32768 % 2) fun o => { o with txns := o.txns.filter fun x => x.seq != seq }
/-- A transaction becomes outstanding under its number. -/
def State.addTxn (s : State) (t : Txn) : State :=
  s.modOculus (t.seq / 32768 % 2) fun o => { o with nextSeq := (t.seq + 1) % 32768, txns := o.txns ++ [t] }

/-! ### Combining in transit (R312 to R314) -/

/-- Class of a request for combining: 0 loads, 1 stores, 2 atomics, 3 reductions. -/
def combClass (k : Pkt) : Option Nat :=
  match k.op.toNat with
  | 1 => some 0
  | 2 => some 1
  | 3 => some 1
  | 4 => if bitsOf k.opt.toNat 3 0 ≤ 5 then some 2 else none
  | 5 => some 3
  | _ => none

/-- A request may be combined in transit (R313). -/
def transitOk (k : Pkt) : Bool :=
  !k.tagf && !k.csEn &&
    match combClass k with
    | some 2 => bitsOf k.opt.toNat 6 4 == 0 || bitsOf k.opt.toNat 6 4 == 1 || bitsOf k.opt.toNat 6 4 == 3
    | some 3 => bitsOf k.opt.toNat 6 4 == 3
    | some _ => true
    | none => false

/-- Two requests of a line may join (R312): reductions and atomics of the same elements. -/
def joinable (a b : Pkt) : Bool :=
  a.dstDev == b.dstDev && a.jobTag == b.jobTag && a.addr.toNat / 256 == b.addr.toNat / 256 &&
    combClass a == combClass b && (combClass a).isSome &&
    (combClass a == some 0 || combClass a == some 1 || (a.addr == b.addr && a.len == b.len && a.opt == b.opt))

/-- Bytes and mask that a store puts into its line. -/
def pktStore (k : Pkt) : List Byte × Nat :=
  if k.op = 3 then (dataFlits k, leNat (k.data.take 32))
  else
    let o := k.addr.toNat % 256
    (List.replicate o 0 ++ ((dataFlits k).drop (o % 64)).take (k.len.toNat + 1) ++ List.replicate (255 - o - k.len.toNat) 0,
      (2 ^ (k.len.toNat + 1) - 1) * 2 ^ o)

/-- Bytes of `b` where the mask has a bit, of `a` elsewhere. -/
def blend (mask : Nat) (a b : List Byte) : List Byte :=
  (a.zip b).zipIdx.map fun (e : (Byte × Byte) × Nat) => if mask.testBit e.2 then e.1.2 else e.1.1

/-- Elements of two requests joined one by one. -/
def joinElems (dt n : Nat) (f : Nat → Nat → Nat) (off : Nat) (a b : List Byte) : List Byte :=
  (List.range n).foldl (fun l i =>
    let o := off + i * dtSize dt
    elemPut dt o (f (elemAt dt o a) (elemAt dt o b)) l) a

/-- The request that two joined requests become (R312). -/
def joinPkt (a b : Pkt) : Pkt :=
  let line := BitVec.ofNat 48 (a.addr.toNat / 256 * 256)
  let dt := bitsOf a.opt.toNat 6 4
  match combClass a with
  | some 0 => { a with addr := line, len := 255 }
  | some 1 =>
    let x := pktStore a
    let y := pktStore b
    { a with op := 3, addr := line, len := 255, nflit := 4, maskf := true,
             data := leBytes 32 (x.2 ||| y.2) ++ List.replicate 32 0 ++ blend y.2 x.1 y.1 }
  | some 2 =>
    let v := atomicNew (bitsOf a.opt.toNat 3 0) dt (elemAt dt 0 a.data) (elemAt dt 0 b.data) 0
    { a with data := elemPut dt 0 v a.data }
  | _ =>
    let o := a.addr.toNat % 64
    { a with data := joinElems dt ((a.len.toNat + 1) / dtSize dt) (elemAdd dt) o a.data b.data }

/-- Stores of a list, in order of arrival, whose bytes are all overwritten by later ones (R312). -/
def discardedStores (l : List Pkt) : Nat :=
  (l.zipIdx.filter fun (x : Pkt × Nat) =>
    let later := (l.drop (x.2 + 1)).foldl (fun a y => a ||| (pktStore y).2) 0
    combClass x.1 == some 1 && (pktStore x.1).2 &&& later == (pktStore x.1).2).length

/-- The requests that a packet of this device stands for, whichever oculus combined them: those absorbed, else itself. -/
def State.standsFor (s : State) (k : Pkt) : List Pkt :=
  match (s.txn k.seq.toNat).filter fun _ => s.isOwn k.srcDev.toNat with
  | some t => match t.who with | .absorbed l => l | _ => [k]
  | none => [k]

/-- Records in use by an oculus: of its line entries and of the requests absorbed in transit (R314). -/
def Oculus.records (o : Oculus) : Nat :=
  (o.comb.map fun c => c.pkts.length).sum +
    (o.txns.map fun t => match t.who with | .absorbed l => l.length | _ => 0).sum

/-- A packet joins one that waits at the same output, if it may and records are free (R313, R314): the combined request carries
this device and a number of this oculus. Each store that the new one overwrites whole is counted, for the tag's partition. -/
def State.absorb (s : State) (p : Nat) (k : Pkt) : Option State :=
  let e := p / 16
  if !s.flag (Loc.ocCombCtl e) 0 || !transitOk k || !s.hasId then none else
  match (s.port p).q.find? fun j => transitOk j && joinable j k with
  | none => none
  | some j =>
    let lj := s.standsFor j
    let lk := s.standsFor k
    if 65536 < (s.oculus e).records + (if lj = [j] then 1 else 0) + (if lk = [k] then 1 else 0) then none else
    let part := s.tagOwner k.jobTag.toNat
    let gone := discardedStores (lj ++ lk) - discardedStores lj - discardedStores lk
    -- a packet that stood for others gives up its number: the survivor stands for all
    let s0 := if lk = [k] then s else s.dropTxn k.seq.toNat
    let s1 := if lj = [j] then s0 else s0.dropTxn j.seq.toNat
    match if lj = [j] then (s1.freeSeq e).map fun i => i + 32768 * e else some j.seq.toNat with
    | none => none
    | some seq =>
    let s := s1.bump (ocPage e 0xB) 4 ((combClass k).getD 0) 1 part
    let s := if gone = 0 then s else s.bump (ocPage e 0xB) 5 0 gone part
    let m := { joinPkt j k with srcDev := BitVec.ofNat 16 s.ownDev, seq := BitVec.ofNat 16 seq }
    let s := s.addTxn { seq := seq, who := .absorbed (lj ++ lk), pkt := m, opened := s.clk.elapsed }
    some (s.modPort p fun x => { x with q := x.q.map fun y => if y = j then m else y })

/-- A packet is given to a port: HOPS + 1 in its header (R288). It joins a waiting one, or waits and leaves. -/
def State.toPort (s : State) (p : Nat) (k : Pkt) : State :=
  let s := s.samplePort p
  let k := { k with hops := k.hops + 1 }
  match s.absorb p k with
  | some t => t
  | none => (s.modPort p fun x => { x with q := x.q ++ [k] }).pump p

/-! ### Routes -/

/-- The usable candidates of a destination in an oculus's route table, in order (R286, R287). -/
def State.candidates (s : State) (e dev : Nat) : List Nat :=
  let w := s.get (Loc.ocRouteData e) dev
  if !w.bit 31 then [] else
  (List.range 4).filterMap fun i =>
    let p := w.bits (6 * i + 4) (6 * i)
    if w.bit (6 * i + 5) && s.portState p == 4 && (s.oculus (p / 16)).out == 0 then some p else none

/-- Flits queued plus credit shortfall of a port for a packet (R287). -/
def State.portLoad (s : State) (k : Pkt) (p : Nat) : Nat :=
  let x := s.port p
  let pool := pktPool { k with hops := k.hops + 1 }
  x.queued + (1 + pktData k - (x.credit.getD 11 0 + x.credit.getD pool 0))

/-- The first element with the least measure. -/
def leastBy (f : Nat → Nat) : List Nat → Option Nat
  | [] => none
  | a :: l =>
    match leastBy f l with
    | some b => if f b < f a then some b else some a
    | none => some a

/-- The port that a packet takes (R287). -/
def State.choosePort (s : State) (e : Nat) (k : Pkt) : Option Nat :=
  let c := s.candidates e k.dstDev.toNat
  if k.adapt && s.flag (Loc.ocRouteData e) 24 k.dstDev.toNat then leastBy (s.portLoad k) c else c.head?

/-- A packet is sent by a usable port, if there is one. -/
def State.tryForward (s : State) (e : Nat) (k : Pkt) : Option State := (s.choosePort e k).map fun p => s.toPort p k

/-- A completion or management packet is sent, or discarded and counted (R289); one for this device is handled by the
oculus that has it (R285, R286). -/
def State.sendOrDrop (s : State) (e : Nat) (k : Pkt) : State :=
  if s.isOwn k.dstDev.toNat then s.modPort (16 * e) fun x => { x with held := x.held ++ [(k, 12)] } else
  match s.tryForward e k with
  | some t => t
  | none => s.ocEvent e 0xB 0 1

/-! ### Completions -/

/-- The completion of a request: COMP, or COMP_DATA with bytes, back to its source with the request's number. -/
def compFor (s : State) (k : Pkt) (st : Nat) (data : List Byte) : Pkt :=
  { op := if data.isEmpty then 0x20 else 0x21, dstDev := k.srcDev, srcDev := BitVec.ofNat 16 s.ownDev,
    srcAgent := k.srcAgent, seq := k.seq, jobTag := k.jobTag, addr := k.addr, len := k.len,
    nflit := BitVec.ofNat 3 (data.length / 64), status := BitVec.ofNat 8 st, mcTgt := k.mcTgt, adapt := k.adapt,
    data := data }

/-- The segments of a line from `o` for `len` + 1 bytes, with the bytes outside as 0 (R302). -/
def segments (o len : Nat) (line : List Byte) : List Byte :=
  let s0 := o / 64
  let s1 := (o + len) / 64
  (List.range (64 * (s1 + 1 - s0))).map fun i =>
    let b := 64 * s0 + i
    if o ≤ b ∧ b ≤ o + len then line.getD b 0 else 0

/-- The bytes of a line that segments carry: those from `o` for `len` + 1 bytes. -/
def fromSegments (o len : Nat) (data : List Byte) : List Byte := (data.drop (o % 64)).take (len + 1)

/-! ### Credits that go back (R276, R315) -/

/-- More than QUOTA × 64 flits of a port's input buffer hold requests for one line of this device (R315): what waits in the buffer
is for this device, and operations 1 to 6 name a line. -/
def Port.hot (x : Port) (quota : Nat) : Bool :=
  let l := (x.held.map (·.1)).filter fun k => decide (1 ≤ k.op.toNat ∧ k.op.toNat ≤ 6)
  l.any fun k => decide (quota * 64 <
    flitsOf (l.filter fun j => j.jobTag == k.jobTag && j.addr.toNat / 256 == k.addr.toNat / 256))

/-- A port returns what is free of its pools, in units of 8 flits; nothing of the shared pool while one line holds more than its
quota (R276, R315). -/
def State.giveBack (s : State) (p : Nat) : State :=
  let hot := (s.port p).hot (s.fld (Loc.ocCombCtl (p / 16)) 7 2)
  s.modPort p fun x =>
    let units (k : Nat) : Nat := if k = 11 && hot then 0 else x.freed.getD k 0 / 8
    { x with
      freed := (List.range 12).map fun k => x.freed.getD k 0 - 8 * units k
      returned := (List.range 12).map fun k => x.returned.getD k 0 + units k }

/-- Flits of a pool of the input buffer are free again. -/
def State.freeFlits (s : State) (p pool n : Nat) : State :=
  (s.modPort p fun x => { x with freed := lmod x.freed pool fun c => c + n }).giveBack p

/-! ### Training and link state -/

/-- Sizes of a port's pools as this device announces them (Table FT-4). -/
def State.poolSizes (s : State) (e : Nat) : List Nat :=
  let r := (List.range 11).map fun k => s.fld (Loc.ocPoolRes e k) 10 0
  r ++ [4096 - r.sum]

/-- A port goes down to a state and trains anew; its bundles wait (R269, R273). -/
def State.portDown (s : State) (p st : Nat) : State :=
  ((s.stallCount p).setPortState p st).modPort p fun x =>
    { x with train := { since := s.clk.elapsed }, locked := x.locked && st != 0, part := none, stalled := none }

/-- The bypass stands in its through state, and past it the ring's fibres: F0 and F1 have no partner (R293). -/
def State.portCut (s : State) (p : Nat) : Bool := decide (p < 2) && s.flag (Loc.ocRingSts 0) 0

/-- PORTS_UP of an oculus from its ports. -/
def State.showPorts (s : State) (e : Nat) : State :=
  let n := ((List.range 16).filter fun i => s.portState (16 * e + i) == 4).length
  s.setFld (Loc.ocOcSts e) 21 17 n

end Sys2Proof.Machine
end

