-- ==== Sys2Proof/Machine/GateOps.lean ====
section
/-! DEFINITION. Device memory: placement of lines, inline ECC, encryption, the line buffer (R157 to R189). -/

namespace Sys2Proof.Machine

/-- Highest device address plus one: 768 GiB (R161). -/
def memSize : Nat := 0xC000000000

/-- First page of a gatehouse. -/
def gtPage (g sub : Nat) : Nat := 0x800 + 0x20 * g + sub

/-- h of R162. -/
def placeHash (q : Nat) : Nat := (bitsOf q 8 0 ^^^ bitsOf q 17 9 ^^^ bitsOf q 22 18) % 384

/-- Gatehouse, local channel and channel line of a line (R162). -/
def placeLine (l : Nat) : Nat × Nat × Nat :=
  let q := l / 384
  let c := (l % 384 + placeHash q) % 384
  (c % 8, c / 8, q)

/-- The line at a place. -/
def lineAt (g ch q : Nat) : Nat := 384 * q + (ch * 8 + g + 384 - placeHash q) % 384

/-- Stations of a gatehouse for even and odd local channels (R157). -/
def gateStation (g : Nat) (odd : Bool) : Nat :=
  if g < 4 then 8 + 2 * g + b2n odd else 39 - 2 * (7 - g) - b2n odd

/-- Partition that owns a granule, or 15. -/
def State.granOwner (s : State) (gr : Nat) : Nat := tget 15 s.lay.gran gr

/-- Key number in force for a line (R170). -/
def State.lineKey (s : State) (l : Nat) : Nat :=
  let o := s.granOwner (l * 256 / 2 ^ 30)
  lget 0 s.keys (if o < 8 then o else 8)

/-- A channel has failed (R189). -/
def State.chFailed (s : State) (g ch : Nat) : Bool :=
  if ch < 32 then s.flag (Loc.gtChFailLo g) ch else s.flag (Loc.gtChFailHi g) (ch - 32)

def Gate.chan (g : Gate) (ch : Nat) : Chan := tget {} g.chans ch
def Gate.setChan (g : Gate) (ch : Nat) (c : Chan) : Gate := { g with chans := tset {} g.chans ch c }

/-- The page of a channel byte (Table GH-4). -/
def chanPage (ch a : Nat) : MPage :=
  let o := if a < 0x60000000 then a else a - 0x60000000
  ⟨ch, if a < 0x60000000 then 0 else 1, bitsOf o 14 11, o / 2 ^ 15⟩

/-- The page that holds the data or the check bytes of a code word (R163). -/
def wordPage (line cw : Nat) (check : Bool) : MPage :=
  let p := placeLine line
  chanPage p.2.1 (if check then 0x80000000 + 32 * p.2.2 + 8 * cw else 256 * p.2.2 + 64 * cw)

/-! ### Repair in service (R184 to R186) -/

/-- A field remap of a page begins (R185, R186). -/
def State.startPageRemap (s : State) (g : Nat) (p : MPage) : State :=
  if 64 ≤ (s.gate g).store.length then s.setFlag (Loc.gtRemapSts g) 2 true
  else (s.setFlag (Loc.gtRemapSts g) 0 true).modGate g fun x => { x with mirror := some { page := p } }

/-- The value of REMAP that names a page. -/
def MPage.word (p : MPage) : Word := BitVec.ofNat 32 (p.ch + 64 * p.rank + 128 * p.bank + 2048 * p.row)

/-- Firmware requests the remaps that are due, one after the other, by writing REMAP (R186). -/
def State.askPageRemap (s : State) (g : Nat) : State :=
  (s.gate g).remapWant.foldl (fun s p =>
    if s.flag (Loc.gtRemapSts g) 0 then s else
    let s := s.modGate g fun x => { x with remapWant := x.remapWant.erase p }
    (s.put (Loc.gtRemap g) p.word).startPageRemap g p) s

/-- A correction in a page is counted; at the sixteenth since start firmware asks for the page's remap (R186). -/
def State.countPage (s : State) (g : Nat) (p : MPage) : State :=
  let n := (((s.gate g).pageCe.find? fun e => e.1 == p).map (·.2)).getD 0 + 1
  (s.modGate g fun x =>
    { x with
      pageCe := (x.pageCe.filter fun e => e.1 != p) ++ [(p, n)]
      remapWant := if n = 16 then x.remapWant ++ [p] else x.remapWant }).askPageRemap g

/-- The record of a correction (R167); `src` 1 for patrol. -/
def State.memCorrected (s : State) (g ch line cw sym src : Nat) : State :=
  let s := s.countPage g (wordPage line cw (decide (32 ≤ sym)))
  let hi := cw + 4 * sym + 256 * src
  let s := s.addSat (Loc.gtChCe g) 15 0 1 ch
  let s := s.put (Loc.gtCeLastLo g) (BitVec.ofNat 32 line)
  let s := s.put (Loc.gtCeLastHi g) (BitVec.ofNat 32 (hi + 2 ^ 31))
  let s := s.post (gtPage g 1) 0 0x40 ch (line + 2 ^ 32 * (hi + 2 ^ 31))
  s.bump (gtPage g 1) 2 ch 1 (s.granOwner (line * 256 / 2 ^ 30))

/-- The record of an uncorrectable read after its retry (R168). -/
def State.memUncorrectable (s : State) (g ch line cw src : Nat) : State :=
  let hi := cw + 4 * src
  let s := s.put (Loc.gtUeLastLo g) (BitVec.ofNat 32 line)
  let s := s.put (Loc.gtUeLastHi g) (BitVec.ofNat 32 (hi + 2 ^ 31))
  let s := s.post (gtPage g 1) 1 0x41 ch (line + 2 ^ 32 * (hi + 2 ^ 31))
  s.bump (gtPage g 1) 3 ch 1 (s.granOwner (line * 256 / 2 ^ 30))

/-- Bytes of a code word enciphered or deciphered under a key: AES-256-XTS over the line, blocks 4 × w to 4 × w + 3 (R170). -/
def lineCipher (dec : Bool) (key line cw : Nat) (b : List Byte) : List Byte :=
  xtsBytes dec (Config.linePair key) line (4 * cw) b

/-- The stored ciphertext of a code word, with the error bits that the code let pass; zeros where nothing was written since
start (R165, R173). -/
def State.cwStored (s : State) (line cw left : Nat) : List Byte :=
  let k := line * 4 + cw
  let wk := tget 0 s.memKey k
  let c := if wk = 0 then List.replicate 64 0 else lineCipher false (wk - 1) line cw (tgets 0 s.mem (k * 64) 64)
  List.zipWith (· ^^^ ·) c (leBytes 64 left)

/-- Stored bytes of a code word of a line, decrypted under a key (R172); under the key that wrote them, what was written. -/
def State.cwDecrypt (s : State) (line cw key left : Nat) : List Byte :=
  let k := line * 4 + cw
  if tget 0 s.memKey k = key + 1 ∧ left % 2 ^ 512 = 0 then tgets 0 s.mem (k * 64) 64
  else lineCipher true key line cw (s.cwStored line cw left)

/-- What a read of a code word gives: its plaintext under a key, or with none its ciphertext (R172). -/
def State.cwGive (s : State) (line cw left : Nat) : Option Nat → List Byte
  | some key => s.cwDecrypt line cw key left
  | none => s.cwStored line cw left

/-- A read of a code word from its channel: corrected data, or nothing (R164 to R168). -/
def State.memCwRead (s : State) (g ch line cw : Nat) (key : Option Nat) (src : Nat) : State × Option (List Byte) :=
  match eccRead 16 36 3 (tget 0 s.memFlip (line * 4 + cw)) with
  | .clean => (s, some (s.cwGive line cw 0 key))
  | .corrected sym left => (s.memCorrected g ch line cw sym src, some (s.cwGive line cw left key))
  | .silent left => (s, some (s.cwGive line cw left key))
  | .uncorrectable => (s.memUncorrectable g ch line cw src, none)

/-- A request uses a line's channel now (R180). -/
def State.chanUsed (s : State) (line : Nat) : State :=
  let p := placeLine line
  let now := s.clk.elapsed
  s.modGate p.1 fun x => x.setChan p.2.1 { x.chan p.2.1 with used := now }

/-- A read of a line from its channel: 256 bytes, or nothing when a code word is uncorrectable. -/
def State.chanRead (s : State) (line : Nat) (key : Option Nat) (src : Nat) : State × Option (List Byte) :=
  let s := s.chanUsed line
  let p := placeLine line
  (List.range 4).foldl (fun r cw =>
    let q := r.1.memCwRead p.1 p.2.1 line cw key src
    match r.2, q.2 with
    | some a, some b => (q.1, some (a ++ b))
    | _, _ => (q.1, none)) (s, some [])

/-- The flip mask of a gatehouse as 576 bits (R169). -/
def State.gateFlipMask (s : State) (g : Nat) : Nat :=
  (List.range 16).foldl (fun a j => a + (s.get (Loc.gtFlipD g j)).toNat * 2 ^ (32 * j)) 0 +
    (s.get (Loc.gtFlipC g 0)).toNat * 2 ^ 512 + (s.get (Loc.gtFlipC g 1)).toNat * 2 ^ 544

/-- A code word written whole to its channel, and to the entry of a page in the mirror state (R185); an armed mask of the
channel is applied once (R166, R169). -/
def State.memCwWrite (s : State) (line cw key : Nat) (b : List Byte) : State :=
  let p := placeLine line
  let g := p.1
  let k := line * 4 + cw
  let sel := s.get (Loc.gtFlipSel g)
  let hit := sel.bit 16 && sel.bits 5 0 == p.2.1
  let mask := if hit then s.gateFlipMask g else 0
  let s := if hit then s.setFlag (Loc.gtFlipSel g) 16 false else s
  let s := s.modGate g fun x => { x with mirror := x.mirror.map fun m =>
    if m.copied && (wordPage line cw false == m.page || wordPage line cw true == m.page) then
      { m with entry := tset 0 m.entry k mask } else m }
  { s with
    mem := tputs 0 s.mem (k * 64) b
    memKey := tset 0 s.memKey k (key + 1)
    memFlip := tset 0 s.memFlip k mask }

/-- Bytes of a line under a per-byte mask written to the channel, code word by code word (R166, R178). A partly covered
code word of an uncorrectable line is not written; the entry of such a line was never filled (R179). -/
def State.chanWrite (s : State) (line key changed : Nat) (data : List Byte) : State :=
  (List.range 4).foldl (fun s cw =>
    if bitsOf changed (64 * cw + 63) (64 * cw) = 0 then s
    else s.memCwWrite line cw key ((data.drop (64 * cw)).take 64)) (s.chanUsed line)

/-! ### Line buffer (R174 to R179) -/

def Gate.entry (g : Gate) (line : Nat) : Option LEntry := g.lbuf.find? fun e => e.line == line
def Gate.setEntry (g : Gate) (e : LEntry) : Gate :=
  { g with lbuf := g.lbuf.map fun x => if x.line = e.line then e else x }
def Gate.dropEntry (g : Gate) (line : Nat) : Gate := { g with lbuf := g.lbuf.filter fun x => x.line != line }

/-- An entry is filling or has operations waiting (R175). -/
def LEntry.busy (e : LEntry) : Bool := e.filling || !e.queue.isEmpty

/-- An entry written back under its key (R178). -/
def State.writeBack (s : State) (g : Nat) (e : LEntry) : State :=
  if e.changed = 0 then s else
  (s.chanWrite e.line e.key e.changed e.data).modGate g fun x => x.setEntry { e with changed := 0 }

/-- An entry written back and released. -/
def State.release (s : State) (g : Nat) (e : LEntry) : State :=
  (s.writeBack g e).modGate g fun x => x.dropEntry e.line

/-- The channel of a line is being retrained, and its requests wait (R182). -/
def State.lineRetrains (s : State) (line : Nat) : Bool :=
  let p := placeLine line
  ((s.gate p.1).chan p.2.1).retraining

/-- A drain is in progress: an entry still has to be written back (R178). -/
def Gate.draining (x : Gate) : Bool := x.lbuf.any fun e => e.drain

/-- The entry without waiting operations that has gone longest without one. -/
def idlest : List LEntry → Option LEntry
  | [] => none
  | e :: l =>
    match idlest l with
    | some x => if !e.busy && decide (e.last ≤ x.last) then some e else some x
    | none => if e.busy then none else some e

/-- The entry of a gatehouse to evict: none that is busy, and none whose write-back waits for its channel. -/
def State.victim (s : State) (g : Nat) : Option LEntry := idlest ((s.gate g).lbuf.filter fun e => !s.lineRetrains e.line)

/-- Place for a new entry, evicting where needed (R175); false when every entry is busy. -/
def State.lbufRoom (s : State) (g : Nat) : State × Bool :=
  if (s.gate g).lbuf.length < 256 then (s, true) else
  match s.victim g with
  | none => (s, false)
  | some e => ((s.release g e).bump (gtPage g 1) 5 0, true)

/-- Requests to the line wait: its channel is being retrained (R182), or its entry fills (R175). -/
def State.lineWaits (s : State) (line : Nat) : Bool :=
  s.lineRetrains line ||
    match (s.gate (placeLine line).1).entry line with
    | some e => e.busy
    | none => false

/-- A line cannot be reached: its channel has failed (R189), its gatehouse is out or in reset (R441, R448). The status
of Table FM-2, 0 when it can be reached. -/
def State.lineStatus (s : State) (line : Nat) : Nat :=
  let p := placeLine line
  let o := (s.gate p.1).out
  if (s.plinth (p.1 / 4)).out = 2 then 0x22
  else if o = 1 || s.plReset (p.1 / 4) then 0x34
  else if s.chFailed p.1 p.2.1 || o != 0 || (s.gate p.1).trip then 0x21
  else
    let st := gateStation p.1 (p.2.1 % 2 == 1)
    if s.stationOut st then 0x21 else 0

/-- An entry of another key is written back and released before a request under key `key` (R171). -/
def State.rekey (s : State) (line key : Nat) : State :=
  let g := (placeLine line).1
  match (s.gate g).entry line with
  | some e => if e.key = key || e.busy then s else s.release g e
  | none => s

/-- A load of a line accepted under a key (R171, R174): from its entry, or from the channel without allocating. A load of
a line that fills waits (`State.lineWaits`) and is then served from the entry. -/
def State.memLoadAs (s : State) (line key : Nat) : State × Nat × List Byte :=
  let st := s.lineStatus line
  if st ≠ 0 then (s, st, []) else
  let s := s.rekey line key
  let g := (placeLine line).1
  match (s.gate g).entry line with
  | some e => (s.modGate g fun x => x.setEntry { e with last := s.cycles (32 + g) }, 0, e.data)
  | none =>
    let r := s.chanRead line (some key) 0
    match r.2 with
    | some b => (r.1, 0, b)
    | none => (r.1, 0x20, [])

/-- An operation on the bytes of a line through its entry, accepted under a key (R171, R174 to R179): `full` for a
full-line store, which fills without a read. `f` gives the new bytes and the mask of bytes it changed. An operation that
finds no free entry waits in the queue (`State.gateTry`). -/
def State.memModifyAs (s : State) (line key : Nat) (full : Bool) (f : List Byte → List Byte × Nat) :
    State × Nat × List Byte :=
  let st := s.lineStatus line
  if st ≠ 0 then (s, st, []) else
  let s := s.rekey line key
  let g := (placeLine line).1
  let now := s.cycles (32 + g)
  match (s.gate g).entry line with
  | some e =>
    let r := f e.data
    (s.modGate g fun x => x.setEntry { e with data := r.1, changed := e.changed ||| r.2, last := now }, 0, e.data)
  | none =>
    let q := s.lbufRoom g
    if !q.2 then (q.1, 6, []) else
    let put (s : State) (old : List Byte) : State × Nat × List Byte :=
      let r := f old
      let e : LEntry := { line := line, key := key, data := r.1, changed := r.2, last := now }
      (s.modGate g fun x => { x with lbuf := x.lbuf ++ [e] }, 0, old)
    if full then put q.1 (List.replicate 256 0)
    else
      let s := q.1.bump (gtPage g 1) 4 0
      let r := s.chanRead line (some key) 0
      match r.2 with
      | some b => put r.1 b
      | none => (r.1, 0x20, [])

/-- Bytes laid into a line at an offset, with the mask of bytes changed. -/
def layBytes (off : Nat) (b : List Byte) (old : List Byte) : List Byte × Nat :=
  (old.take off ++ b ++ old.drop (off + b.length), (2 ^ b.length - 1) * 2 ^ off)

/-- Lines of a byte range of device memory: first and number. -/
def lineRange (a len : Nat) : Nat × Nat := (a / 256, (a + len + 255) / 256 - a / 256)

end Sys2Proof.Machine
end

