-- ==== Sys2Proof/Machine/Links.lean ====
section
/-! DEFINITION. Internal links: bundles, credits, retry, blocks on the line, the choice of a plane and of a detour
(R198 to R214, R219, R220). -/

namespace Sys2Proof.Machine

/-- An event of the link page, counted for the sending station (Table RG-6). -/
def State.plEvent (s : State) (code st amt : Nat) : State :=
  if amt = 0 then s else s.bump (plPage (stPlinth st) 2) code (stLocal st) amt

/-- A count of the link page: corrected, uncorrectable, CRC failures, resends (Table PL-11). -/
def State.linkCount (s : State) (reg : Loc) (a b p amt : Nat) : State :=
  if amt = 0 then s else s.addWrap reg 31 0 amt (linkKey a b p)

/-! ### Sending (R202, R207 to R210) -/

/-- A unit leaves on link a → b. Its link word tells what the receiver of the reverse link has to say: the last bundle in
sequence, a NAK once, the flits freed (R208, R209). -/
def State.sendUnit (s : State) (a b p : Nat) (idle : Bool) (seq : Nat) (hdrs : List Hdr) : State :=
  let y := s.link b a p
  let u : LUnit := { idle := idle, seq := seq, ackSeq := (y.expect + 1023) % 1024, ackV := y.any, nak := y.nak,
                     credit := min 255 y.freed, hdrs := hdrs }
  let s := s.modLink b a p fun y => { y with nak := false, freed := y.freed - min 255 y.freed }
  s.modLink a b p fun x => { x with flight := x.flight ++ [u] }

/-- Headers of the next bundle: at most four, with at most `room` data flits, in order (R207). -/
def takeHdrs : Nat → Nat → List Hdr → List Hdr × List Hdr
  | 0, _, q => ([], q)
  | _, _, [] => ([], [])
  | n + 1, room, h :: q =>
    if hdrData h ≤ room then let r := takeHdrs n (room - hdrData h) q; (h :: r.1, r.2) else ([], h :: q)

/-- A bundle of the retry buffer leaves again, for its credits (R208, R210). -/
def State.sendAgain (s : State) (a b p : Nat) (q : LSent) : State :=
  let s := s.modLink a b p fun x => { x with again := x.again.tail, credit := x.credit - q.flits }
  ((s.sendUnit a b p false q.seq q.hdrs).linkCount (Loc.plLinkRetry 0) a b p 1).plEvent 5 a 1

/-- Bundles leave a link while it is up and credits last: those to be resent first, then new ones while the retry buffer of
48 flits has room (R207, R208, R210). -/
def State.pumpLink (s : State) (a b p : Nat) : Nat → State
  | 0 => s
  | f + 1 =>
    let x := s.link a b p
    match x.again with
    | q :: _ => if s.linkSt a b p ≠ 2 ∨ x.credit < q.flits then s else (s.sendAgain a b p q).pumpLink a b p f
    | [] =>
    let used := (x.retry.map (·.flits)).sum
    let room := min 21 (min x.credit (48 - used))
    if s.linkSt a b p ≠ 2 ∨ room = 0 then s else
    let r := takeHdrs 4 (room - 1) x.q
    if r.1.isEmpty then s else
    let fl := 1 + (r.1.map hdrData).sum
    let now := s.clk.elapsed
    let s := s.modLink a b p fun x =>
      { x with
        q := r.2
        credit := x.credit - fl
        next := (x.next + 1) % 1024
        ackAt := if x.retry.isEmpty then now else x.ackAt
        retry := x.retry ++ [⟨x.next, r.1, fl⟩] }
    (s.sendUnit a b p false x.next r.1).pumpLink a b p f

/-- All that a link can send now. -/
def State.pumpAll (s : State) (a b p : Nat) : State :=
  s.pumpLink a b p ((s.link a b p).again.length + (s.link a b p).q.length + 1)

/-- Every unacknowledged bundle of a link is to leave again, in order (R210). -/
def State.resendLink (s : State) (a b p : Nat) : State := s.modLink a b p fun x => { x with again := x.retry }

/-- A header is assigned to a link. -/
def State.sendOn (s : State) (a b p : Nat) (h : Hdr) : State :=
  (s.modLink a b p fun x => { x with q := x.q ++ [h] }).pumpAll a b p

/-! ### The line (R198 to R201) -/

/-- Length of a unit in bits. -/
def LUnit.len (u : LUnit) : Nat := 512 * u.flits

/-- The units in flight as one stream of bits. -/
def unitStream : List LUnit → Nat
  | [] => 0
  | u :: l => u.bits + unitStream l * 2 ^ u.len

/-- FSTART and K of the next block: where the first flit that begins in it begins, and whether that flit is a head or idle
flit (R199). -/
def Link.fstart (x : Link) : Nat × Bool :=
  match x.flight with
  | [] => (511, false)
  | u :: _ =>
    let r := (512 - x.cut % 512) % 512
    if 500 ≤ r then (511, false) else (r, x.cut == 0 || x.cut + r == u.len)

/-- Flits leave without a gap: an idle flit follows where the units in flight do not fill the next block (R202). -/
def State.fillLine (s : State) (a b p : Nat) : State :=
  let x := s.link a b p
  if (x.flight.map LUnit.len).sum < x.cut + 500 then s.sendUnit a b p true 0 [] else s

/-- A block has been judged: counts, block lock after four good blocks, its loss after eight bad ones (R201). `bits` is the
number of bits corrected, nothing for an uncorrectable block. -/
def State.judgeBlock (s : State) (a b p : Nat) (bits : Option Nat) : State :=
  let now := s.clk.elapsed
  match bits with
  | some n =>
    let s := (s.linkCount (Loc.plLinkCorr 0) a b p (b2n (n != 0))).plEvent 2 a (b2n (n != 0))
    s.modLink a b p fun x =>
      { x with okRun := x.okRun + 1, badRun := 0, errs := x.errs + n, lost := if 4 ≤ x.okRun + 1 then none else x.lost }
  | none =>
    let s := (s.linkCount (Loc.plLinkUnc 0) a b p 1).plEvent 3 a 1
    s.modLink a b p fun x =>
      { x with
        badRun := x.badRun + 1
        okRun := 0
        lost := if x.lost.isNone ∧ 8 ≤ x.badRun + 1 then some now else x.lost }

/-- The next block of a link crosses the line with error bits `err`. -/
def State.moveBlock (s : State) (a b p : Nat) (err : BitVec 560) : State :=
  let s := s.fillLine a b p
  let x := s.link a b p
  let q := prbsBlock (x.scr.getD (Config.scrambleStart (linkKey a b p) x.trains).toNat)
  let f := x.fstart
  let sent := blockBits f.1 f.2 (unitStream x.flight / 2 ^ x.cut % 2 ^ 500) q.1
  let r := bchDecode (sent ^^^ err.toNat)
  let pay := blockPayload ((r.map (·.2)).getD (sent ^^^ err.toNat)) q.1
  (s.judgeBlock a b p (r.map (·.1))).modLink a b p fun x =>
    { x with scr := some q.2, arrived := x.arrived + pay * 2 ^ x.cut, cut := x.cut + 500, spoiled := x.spoiled || r.isNone }

/-- The first unit in flight when its last bit has arrived: the unit as sent, and what the receiver reads, nothing where one
of its blocks was uncorrectable. -/
def Link.landed (x : Link) : Option (LUnit × Option Bundle) :=
  match x.flight with
  | [] => none
  | u :: _ =>
    if x.cut < u.len then none
    else some (u, if x.spoiled then none else some (readBundle (x.arrived % 2 ^ u.len) u.flits))

/-- The line after its first unit has landed; the last block's fate is the next unit's too. -/
def Link.landNext (x : Link) (bad : Bool) : Link :=
  match x.flight with
  | [] => x
  | u :: l => { x with flight := l, cut := x.cut - u.len, arrived := x.arrived / 2 ^ u.len, spoiled := bad && u.len != x.cut }

/-- Blocks still to come until the end of the first unit in flight that meets a test; 0 when none does. -/
def Link.blocksTo (x : Link) (t : LUnit → Bool) : Nat :=
  match x.flight.findIdx? t with
  | none => 0
  | some i => (((x.flight.take (i + 1)).map LUnit.len).sum - x.cut + 499) / 500

/-! ### The choice of a plane (R213, R214, R219, R220) -/

/-- A transaction concerns a line of device memory (R213): a completion does when its request does, whose operation code it
carries in ARG (DESIGN CHOICE, log entry 234). -/
def hdrOnLine (h : Hdr) : Bool :=
  let op := if h.op = 0x20 ∨ h.op = 0x21 then h.arg.toNat else h.op.toNat
  decide (1 ≤ op ∧ op ≤ 5)

/-- Number that the plane choice hashes: the line, or the sender's count of lines to the destination (R213). -/
def State.hdrHash (s : State) (a b : Nat) (h : Hdr) (onLine : Bool) : Nat × State :=
  if onLine then (h.line.toNat, s) else
  let key := (64 + a) * 2 ^ 17 + b
  let v := tget 0 s.sentTo key
  (v, { s with sentTo := tset 0 s.sentTo key (v + 1) })

/-- A transaction leaves station `a` for `b` on an available plane, or by the pair's detour; false when neither is open
(R213, R214, R219, R220). -/
def State.sendFor (s : State) (a b : Nat) (h : Hdr) (onLine : Bool) : State × Bool :=
  let c := s.hdrHash a b h onLine
  let s := c.2
  match s.planeFor a b c.1 with
  | some p => (s.sendOn a b p h, true)
  | none =>
    if !s.flag (Loc.plPlCtl (stPlinth a)) 0 then (s, false) else
    match s.via a b with
    | none => (s, false)
    | some r =>
      match s.planeFor a r c.1 with
      | none => (s, false)
      | some p =>
        let h := { h with det := true, final := BitVec.ofNat 6 b, orig := BitVec.ofNat 6 a }
        ((s.plEvent 7 a 1).sendOn a r p h, true)

/-- A request, query or reply leaves for its destination. -/
def State.sendHdr (s : State) (a b : Nat) (h : Hdr) : State × Bool := s.sendFor a b h (hdrOnLine h)

/-- The source of a transaction: ORIG of a detoured one (R219). -/
def hdrSource (a : Nat) (h : Hdr) : Nat := if h.det then h.orig.toNat else a

/-- The completion of a transaction, back from station `b` to its source (R219): it hashes what its request does (R213). -/
def State.replyHdr (s : State) (b src : Nat) (h : Hdr) (st : Nat) (data : List Byte) : State :=
  let c : Hdr :=
    { op := if data.isEmpty then 0x20 else 0x21, tid := h.tid, line := h.line, nflit := BitVec.ofNat 3 (data.length / 64),
      jobTag := h.jobTag, status := BitVec.ofNat 8 st, arg := BitVec.ofNat 16 h.op.toNat, data := data }
  (s.sendFor b src c (hdrOnLine h)).1

/-! ### Transactions that a station has open inside the device (R204, R439) -/

/-- Open transactions of a station. -/
def State.callsOf (s : State) (a : Nat) : List Call := s.calls.filter fun c => c.st == a

/-- A station has an identifier free: TID has 12 bits (Table PL-4). -/
def State.tidRoom (s : State) (a : Nat) : Bool := decide ((s.callsOf a).length < 4096)

/-- The next identifier that a station does not use. -/
def State.freeTid (s : State) (a : Nat) : Nat :=
  let l := s.callsOf a
  (((List.range 4096).map fun i => (s.nextTid + i) % 4096).find? fun t => !l.any fun c => c.tid == t).getD s.nextTid

/-- A transaction leaves station `a` for `b` under a fresh identifier, for `who`; false when it has no path (R220). -/
def State.openCall (s : State) (a b : Nat) (who : Caller) (h : Hdr) : State × Bool :=
  let t := s.freeTid a
  let c : Call := { st := a, tid := t, dst := b, sent := s.clk.elapsed, who := who }
  let q := ({ s with calls := s.calls ++ [c], nextTid := (t + 1) % 4096 } : State).sendHdr a b { h with tid := BitVec.ofNat 12 t }
  if q.2 then q else (s, false)

/-- The open transaction of a station under an identifier. -/
def State.callAt (s : State) (a tid : Nat) : Option Call := s.calls.find? fun c => c.st == a && c.tid == tid

/-- It is open no more. -/
def State.dropCall (s : State) (c : Call) : State :=
  { s with calls := s.calls.filter fun x => !(x.st == c.st && x.tid == c.tid) }

/-- The open transactions that meet a test are forgotten, with the die that had them. -/
def State.forgetCalls (s : State) (f : Call → Bool) : State := { s with calls := s.calls.filter fun c => !f c }

/-! ### Acknowledgement (R209, R210) -/

/-- What the link word that arrived on the reverse link tells the sender of link a → b: acknowledged bundles leave the
retry buffer, credits return, a NAK resends the rest. -/
def State.lineWord (s : State) (a b p : Nat) (w : Bundle) : State :=
  let x := s.link a b p
  if s.linkSt a b p ≠ 2 then s else
  let acked (q : LSent) : Bool := w.ackV && decide ((w.ackSeq + 1024 - q.seq) % 1024 < 512)
  let rest := x.retry.filter fun q => !acked q
  let moved := decide (rest.length < x.retry.length)
  let again := w.nak && !rest.isEmpty
  let now := s.clk.elapsed
  let base := if moved then 0 else x.resent
  let s := s.modLink a b p fun x =>
    { x with
      retry := rest
      again := x.again.filter fun q => !acked q
      credit := min 32 (x.credit + w.credit)
      ackAt := if moved then now else x.ackAt
      resent := if again && x.lost.isNone then base + 1 else base }
  (if again then s.resendLink a b p else s).pumpAll a b p

end Sys2Proof.Machine
end

