-- ==== Sys2Proof/Machine/FabServe.lean ====
section
/-! DEFINITION. Fabric requests: form, sealing, the receive-side check, application, issue and completion
(R301 to R321). -/

namespace Sys2Proof.Machine

/-! ### Form (R301, R304, Table FM-1, Table FT-7) -/

/-- A request meets the form rules. -/
def formOk (k : Pkt) : Bool :=
  let op := k.op.toNat
  let o := k.addr.toNat % 256
  let len := k.len.toNat
  let opt := k.opt.toNat
  let nd := k.nflit.toNat
  let segs := (o + len) / 64 + 1 - o / 64
  let dt := bitsOf opt 6 4
  match op with
  | 1 => decide (o + len ≤ 255 ∧ opt = 0 ∧ nd = 0 ∧ k.maskf = false)
  | 2 => decide (o + len ≤ 255 ∧ opt = 0 ∧ nd = segs ∧ k.maskf = false)
  | 3 => decide (o = 0 ∧ len = 255 ∧ opt = 0 ∧ nd = 4 ∧ k.maskf = true)
  | 4 => decide (o + len ≤ 255 ∧ nd = 1 ∧ k.maskf = false ∧ opt < 128 ∧ bitsOf opt 3 0 ≤ 7 ∧ dt ≤ 3 ∧
      len + 1 = dtSize dt ∧ o % dtAlign dt = 0 ∧ (¬(3 ≤ bitsOf opt 3 0 ∧ bitsOf opt 3 0 ≤ 5) ∨ dt ≤ 1))
  | 5 => decide (o + len ≤ 255 ∧ nd = segs ∧ k.maskf = false ∧ opt < 128 ∧ bitsOf opt 3 0 = 0 ∧ 2 ≤ dt ∧ dt ≤ 4 ∧
      (len + 1) % dtSize dt = 0 ∧ o % dtAlign dt = 0)
  | 6 => decide (o + len ≤ 255 ∧ opt < 4096 ∧ nd = segs ∧ k.maskf = false)
  | 7 => decide (len = 255 ∧ nd = 4 ∧ k.maskf = false)
  | 8 => decide (nd = 0 ∧ k.maskf = false ∧ opt < 65536)
  | 9 => decide (nd = 0 ∧ k.maskf = false ∧ k.csEn = true ∧ opt < 65536)
  | _ => false

/-! ### Sealed traffic (R320, R321, R414) -/

/-- The 28 bytes of the header of Table FT-5, with HOPS and ADAPT as 0: the additional data of R320. -/
def hdrAad (k : Pkt) : List Nat := natBytes 28 (pktBits { k with hops := 0, adapt := false })

/-- The 96-bit IV of a counter: its eight bytes, the lowest first, then four zero bytes (R320). -/
def gcmIv (ctr : Nat) : Nat := bigNat (natBytes 8 ctr ++ [0, 0, 0, 0])

/-- Bytes under AES-256-GCM with a key and counter; the same operation seals and opens (R320). -/
def gcmXor (key : BitVec 256) (ctr : Nat) (b : List Byte) : List Byte :=
  (gcmCtr key (gcmIv ctr) (b.map (·.toNat))).map (BitVec.ofNat 8)

/-- The 16-byte tag of a packet with enciphered data (R320). -/
def sealTag (key : BitVec 256) (ctr : Nat) (k : Pkt) (b : List Byte) : List Byte :=
  (gcmTag key (gcmIv ctr) (hdrAad k) (b.map (·.toNat))).map (BitVec.ofNat 8)

/-- A packet sealed: mask and data flits encrypted, authentication flit added (R282, R320). -/
def sealWith (key : BitVec 256) (ctr : Nat) (k : Pkt) : Pkt :=
  let k := { k with tagf := true, data := gcmXor key ctr k.data }
  { k with data := k.data ++ sealTag key ctr k k.data ++ leBytes 8 ctr ++ List.replicate 40 0 }

/-- Number of the entry that holds the pair key of a tag and peer; `mgmt` for management keys. -/
def State.keyEntry (s : State) (mgmt : Bool) (tag peer : Nat) : Option (Nat × PairKey) :=
  s.pairKeys.findSome? fun e =>
    match e.2 with
    | some k => if k.mgmt = mgmt ∧ k.peer = peer ∧ (mgmt ∨ k.tag = tag) then some (e.1, k) else none
    | none => none

def State.setKey (s : State) (i : Nat) (k : Option PairKey) : State :=
  let s := { s with pairKeys := tset none s.pairKeys i k }
  s.setFld Loc.seSeSts 24 12 s.pairKeys.length

/-- What sealing a packet gives: sent as it is, sealed, or refused because the transmit half is exhausted. -/
inductive Sealed where
  | plain
  | sealed (s : State) (k : Pkt)
  | exhausted (s : State)

/-- Source oculus `e` seals a packet when a key for its destination and tag is in force (R320, R413, R414). -/
def State.sealPkt (s : State) (e : Nat) (mgmt : Bool) (k : Pkt) : Sealed :=
  match s.keyEntry mgmt k.jobTag.toNat k.dstDev.toNat with
  | none => .plain
  | some (i, pk) =>
    let sealIt (key : BitVec 256) (pk : PairKey) : Sealed :=
      let n := if e = 0 then pk.sent0 else pk.sent1
      if n ≥ 2 ^ 48 then
        if pk.exhausted then .exhausted s else
        .exhausted ((s.setKey i (some { pk with exhausted := true })).post (ocPage e 8) 2 0x84 0
          (k.jobTag.toNat + k.dstDev.toNat * 65536))
      else
        let pk := if e = 0 then { pk with sent0 := n + 1 } else { pk with sent1 := n + 1 }
        .sealed (s.setKey i (some pk)) (sealWith key (n + e * 2 ^ 63) k)
    if pk.sealing then sealIt pk.tx pk
    else match pk.oldTx with
      | some key => sealIt key pk
      | none => .plain

/-- A counter is new to a receive half: it is marked; nothing when it was seen or lies below the window (R321). -/
def RxHalf.mark (r : RxHalf) (ctr : Nat) : Option RxHalf :=
  let w := ctr / 2 ^ 63 % 2
  let c := ctr % 2 ^ 63
  let hi := if w = 0 then r.hi0 else r.hi1
  let map := if w = 0 then r.map0 else r.map1
  let upd (hi map : Nat) : RxHalf := if w = 0 then { r with hi0 := hi, map0 := map } else { r with hi1 := hi, map1 := map }
  if c + 1 > hi then
    -- bit i of the map stands for counter hi - 2 - i; the old highest moves into the map
    let d := c + 1 - hi
    some (upd (c + 1) (if hi = 0 then 0 else (map * 2 + 1) * 2 ^ (d - 1) % 2 ^ 32768))
  else if c + 1 = hi then none
  else
    let i := hi - 2 - c
    if i ≥ 32768 ∨ map.testBit i then none else some (upd hi (map + 2 ^ i))

/-- A sealed packet opened under a receive half: the plain packet and the half with its counter marked. -/
def RxHalf.open_ (r : RxHalf) (k : Pkt) : Option (Pkt × RxHalf) :=
  let n := k.data.length - 64
  let body := k.data.take n
  let auth := k.data.drop n
  let ctr := leNat ((auth.drop 16).take 8)
  if auth.take 16 ≠ sealTag r.key ctr k body then none
  else (r.mark ctr).map fun r => ({ k with tagf := false, data := gcmXor r.key ctr body }, r)

/-- A sealed packet authenticated and opened (R321, R413): under the key's receive half, or the older one while it
lasts. A first packet under a new key lets the responder start sealing, and shows that the peer seals with it. -/
def State.openPkt (s : State) (mgmt : Bool) (k : Pkt) : Option (State × Pkt) :=
  match s.keyEntry mgmt k.jobTag.toNat k.srcDev.toNat with
  | none => none
  | some (i, pk) =>
    match pk.rx.open_ k with
    | some (q, r) =>
      let stop := match pk.oldRx, pk.oldEnd with
        | some _, none => some (s.clk.elapsed + 1000000)
        | _, x => x
      some (s.setKey i (some { pk with rx := r, due := pk.due || !pk.sealing, oldEnd := stop }), q)
    | none =>
      match pk.oldRx.bind fun o => o.open_ k with
      | some (q, r) => some (s.setKey i (some { pk with oldRx := some r }), q)
      | none => none

/-! ### Windows (R305 to R307) -/

def State.winWord (s : State) (tag w k : Nat) : Word := s.get (Loc.ocWinData 0 k) (tag * 16 + w)

/-- A window contains the bytes of a request. -/
def State.winHas (s : State) (tag w addr len : Nat) : Bool :=
  let a := s.winWord tag w 0
  let base := a.bits 31 5 * 2 ^ 21
  let size := (s.winWord tag w 1).bits 18 0 * 2 ^ 21
  a.bit 0 && decide (base ≤ addr ∧ addr + len < base + size)

/-- The window of a tag that contains the bytes. -/
def State.findWin (s : State) (tag addr len : Nat) : Option Nat := (List.range 16).find? fun w => s.winHas tag w addr len

/-- The four words of a window in force. -/
def State.window (s : State) (tag w : Nat) : List Word := (List.range 4).map fun k => s.winWord tag w k

/-- Device address of a job address through a window's words (R307). -/
def winDev (w : List Word) (addr : Nat) : Nat :=
  (w.getD 2 0).bits 18 0 * 2 ^ 21 + (addr - (w.getD 0 0).bits 31 5 * 2 ^ 21)

/-- Bit of the right that an operation needs (Table FM-1, Table FM-4). -/
def rightBit (op : Nat) : Nat :=
  match op with
  | 1 => 1
  | 4 => 3
  | 5 => 4
  | _ => 2

/-- A failed check: counted, and the first recorded in WIN_REJ (R307). -/
def State.winReject (s : State) (e : Nat) (k : Pkt) (st : Nat) : State :=
  let s := s.bump (ocPage e 0xB) (if st = 0x14 then 3 else 2) 0 1 (s.tagOwner k.jobTag.toNat)
  if s.flag (Loc.ocWinRejHi e) 31 then s else
  let s := s.put (Loc.ocWinRejLo e) (BitVec.ofNat 32 (k.srcDev.toNat + k.jobTag.toNat * 65536))
  let s := s.put (Loc.ocWinRejHi e) (BitVec.ofNat 32 (st + k.op.toNat * 256 + 2 ^ 31))
  let s := s.put (Loc.ocWinRejAddrLo e) (BitVec.ofNat 32 k.addr.toNat)
  s.put (Loc.ocWinRejAddrHi e) (BitVec.ofNat 32 (k.addr.toNat / 2 ^ 32))

/-- The authentication step of R307 and R321: the packet as it is read, or failure. -/
def State.authCheck (s : State) (k : Pkt) : Option (State × Pkt) :=
  if k.tagf then s.openPkt false k
  else if s.flag (Loc.ocTagDir 0) 5 k.jobTag.toNat && k.srcDev.toNat != s.ownDev then none
  else some (s, k)

/-- Steps 4 to 7 of R307 for an opened request: the status, or the window (0 for SIGNAL). -/
def State.accessReq (s : State) (k : Pkt) : Except Nat Nat :=
  let tag := k.jobTag.toNat
  let op := k.op.toNat
  if !s.flag (Loc.ocTagDir 0) 0 tag then .error 0x11
  else if op = 9 then
    if !s.flag (Loc.ocTagDir 0) 4 tag then .error 0x13
    else if !s.tagSlots tag then .error 0x13
    else .ok 0
  else match s.findWin tag k.addr.toNat k.len.toNat with
    | none => .error 0x11
    | some w =>
      if !(s.winWord tag w 0).bit (rightBit op) then .error 0x12
      else if k.csEn && !s.tagSlots tag then .error 0x13
      else .ok w

/-- What the receive-side check of R307 gives: a status, a message or tally for the landing engine, or an admitted
request with its window. -/
inductive Checked where
  | fail (s : State) (st : Nat)
  | land (s : State) (k : Pkt)
  | pass (s : State) (k : Pkt) (win : Nat)

/-- The receive-side check (R307), in its order. -/
def State.checkReq (s : State) (e : Nat) (k : Pkt) : Checked :=
  if !formOk k then .fail (s.winReject e k 0x10) 0x10 else
  match s.authCheck k with
  | none => .fail (s.winReject e k 0x14) 0x14
  | some (s, q) =>
    if q.op = 7 ∨ q.op = 8 then .land s q else
    match s.accessReq q with
    | .error st => .fail (s.winReject e q st) st
    | .ok w => .pass s q w

/-! ### Application at the target -/

/-- Stations of an oculus that its plinth keeps in service. -/
def State.ocStationsUp (s : State) (e : Nat) : List Nat :=
  ((List.range 6).map fun i => (if e = 0 then 16 else 26) + i).filter fun st =>
    !s.stationOut st && (s.plinth e).out == 0

/-- Stations of an oculus in service (R284). -/
def State.ocStations (s : State) (e : Nat) : List Nat :=
  if (s.oculus e).out = 0 then s.ocStationsUp e else []

/-- The station of an oculus that a transaction of hash number `l` takes. -/
def State.ocStation (s : State) (e l : Nat) : Option Nat :=
  let m := s.ocStations e
  m[hashH l * m.length / 65536]?

/-- The gatehouse station that serves a line. -/
def lineStation (line : Nat) : Nat :=
  let p := placeLine line
  gateStation p.1 (p.2.1 % 2 == 1)

/-- The status that a line gives a request of an oculus: that of the line (R189, R441, R448), or no path (R285). -/
def State.fabLineStatus (s : State) (e line : Nat) : Nat :=
  let st := s.lineStatus line
  if st ≠ 0 then st else
  match s.ocStation e line with
  | none => 0x33
  | some a => s.pathStatus a (lineStation line)

/-- The bytes of a line that a mask names, as a store of an oculus: a full line, or one with its mask flit (Table FM-1). -/
def storeHdr (line mask : Nat) (b : List Byte) : Hdr :=
  if mask = 2 ^ 256 - 1 then { op := 2, line := BitVec.ofNat 32 line, nflit := 4, data := b }
  else { op := 3, line := BitVec.ofNat 32 line, nflit := 4, maskf := true, data := leBytes 32 mask ++ List.replicate 32 0 ++ b }

/-- ARG of an atomic or reduction at a gatehouse: first byte, whether the operands are joined in FW48, OPT of Table FM-1 (DESIGN
CHOICE: the spec leaves ARG to the operation code, assumption log). -/
def elemArg (o : Nat) (joined : Bool) (opt : Nat) : BitVec 16 := BitVec.ofNat 16 (o % 256 * 256 + b2n joined * 128 + opt % 128)

/-- An admitted request as the oculus sends it to the gatehouse of its line (R301 to R303). A reduction carries the mask of its
bytes. -/
def reqHdr (k : Pkt) (line : Nat) : Hdr :=
  let o := k.addr.toNat % 256
  let h : Hdr := { op := k.op, line := BitVec.ofNat 32 line }
  match k.op.toNat with
  | 1 => h
  | 4 => { h with nflit := 1, arg := elemArg o false k.opt.toNat, data := dataFlits k }
  | 5 => { h with nflit := k.nflit, maskf := true, arg := elemArg o false k.opt.toNat,
                  data := leBytes 32 ((2 ^ (k.len.toNat + 1) - 1) * 2 ^ o) ++ List.replicate 32 0 ++ dataFlits k }
  | _ => let x := pktStore k; storeHdr line x.2 x.1

/-- The data flits of a request's completion, from those of its answer (R302, R303). -/
def reqData (k : Pkt) (data : List Byte) : List Byte :=
  match k.op.toNat with
  | 1 => segments (k.addr.toNat % 256) k.len.toNat data
  | 4 => data.take 64
  | _ => []

/-- The increment that an applied request asks for at its target (R309). -/
def State.reqSignal (s : State) (e : Nat) (k : Pkt) : State :=
  if k.op = 9 then s.incr k.jobTag.toNat k.cslot.toNat (k.opt.toNat % 65536) (.fabric e)
  else if k.csEn then s.incr k.jobTag.toNat k.cslot.toNat 1 (.fabric e)
  else s

/-- A message part of the fabric as the landing engine takes it (R206, Table FT-7). -/
def pktPart (k : Pkt) : MsgPart :=
  let a := k.addr.toNat
  { srcDev := k.srcDev, srcSpire := Fin.ofNat 16 ((stationSpire k.srcAgent.toNat).getD 0), inside := false, msgId := k.seq,
    part := bitsOf a 35 28, partsM1 := bitsOf a 43 36, token := BitVec.ofNat 16 (bitsOf k.opt.toNat 23 8),
    ksel := BitVec.ofNat 3 (bitsOf a 46 44), rzone := BitVec.ofNat 8 k.opt.toNat, zone := BitVec.ofNat 8 a,
    index := BitVec.ofNat 20 (bitsOf a 27 8), jobTag := k.jobTag, data := dataFlits k }

/-- Path of an oculus to a spire: 0, or PATH_UNAVAILABLE (R285). -/
def State.fabSpireStatus (s : State) (e n l : Nat) : Nat :=
  if (s.plinth (n / 8)).out = 2 then 0x22
  else if s.plReset (n / 8) then 0x34 else
  match s.ocStation e l with
  | none => 0x33
  | some a => if (s.spire n).out ≥ 2 then 0x22 else s.pathStatus a (spStation n)

/-- The message descriptor of a part, with a tally's count (Table PL-14). -/
def msgFlit (p : MsgPart) (count : Nat) : List Byte :=
  leBytes 2 p.srcDev.toNat ++ leBytes 1 p.srcSpire.val ++ leBytes 1 (b2n p.inside) ++ leBytes 2 p.msgId.toNat ++
    leBytes 1 p.part ++ leBytes 1 p.partsM1 ++ leBytes 2 p.token.toNat ++ leBytes 1 p.ksel.toNat ++
    leBytes 1 p.rzone.toNat ++ leBytes 2 count ++ List.replicate 50 0

/-- A part or tally as a transaction for a spire: MASKF is 1, and the descriptor stands in the place of the mask (R204,
R206). -/
def msgHdr (p : MsgPart) (dst : Nat) (tally : Bool) (count : Nat) : Hdr :=
  { op := if tally then 8 else 7, maskf := true, nflit := if tally then 0 else 4, jobTag := p.jobTag
    line := BitVec.ofNat 32 (p.zone.toNat + p.index.toNat * 2 ^ 8 + dst * 2 ^ 28)
    data := msgFlit p count ++ if tally then [] else p.data.take 256 ++ List.replicate (256 - p.data.length) 0 }

/-- A transaction of an oculus leaves, for a station of the device, the oculus station that its hash number takes (R284, R285):
nothing while that station has no identifier free, else a status that it meets at once, or nothing when it is on its way. `st` is
the status that its destination gives it. -/
def State.askInside (s : State) (e l dst st : Nat) (who : Caller) (h : Hdr) : Option (State × Option Nat) :=
  if st ≠ 0 then some (s, some st) else
  match s.ocStation e l with
  | none => some (s, some 0x33)
  | some a =>
    if !s.tidRoom a then none else
    let r := s.openCall a dst who h
    some (r.1, if r.2 then none else some 0x33)

/-- A transaction for the gatehouse of a line. -/
def State.askLine (s : State) (e line : Nat) (who : Caller) (h : Hdr) : Option (State × Option Nat) :=
  s.askInside e line (lineStation line) (s.fabLineStatus e line) who h

/-- A SIGNAL goes to the home spire of its tag (R308, R309); it waits while that is in reset (R448), and is dropped when the home
has left service. -/
def State.admitSignal (s : State) (e : Nat) (k : Pkt) (own : Option Nat) : Option (State × Option Nat) :=
  let n := s.tagHome k.jobTag.toNat
  if (s.spire n).out = 1 then none
  else if (s.spire n).out ≠ 0 then some (s.reqSignal e k, some 0)
  else
    let h : Hdr := { op := 9, jobTag := k.jobTag, cslot := k.cslot, csEn := true, arg := BitVec.ofNat 16 k.opt.toNat }
    s.askInside e k.seq.toNat (spStation n) (s.fabSpireStatus e n k.seq.toNat) (.req e k own) h

/-- A request that passed R307, under window `w`, goes to the die that it concerns: a gatehouse, the spire of a landing zone, or
the home of a tag (R206, R285, R307). Nothing while it must wait; a status when it is answered at once. -/
def State.letIn (s : State) (e : Nat) (k : Pkt) (w : Nat) (own : Option Nat) : Option (State × Option Nat) :=
  match k.op.toNat with
  | 7 => s.askInside e k.seq.toNat (spStation k.unit.toNat) (s.fabSpireStatus e k.unit.toNat k.seq.toNat) (.req e k own)
      (msgHdr (pktPart k) k.unit.toNat false 0)
  | 8 => s.askInside e k.seq.toNat (spStation k.unit.toNat) (s.fabSpireStatus e k.unit.toNat k.seq.toNat) (.req e k own)
      (msgHdr (pktPart k) k.unit.toNat true (bitsOf k.opt.toNat 15 0))
  | 9 => s.admitSignal e k own
  | _ =>
    let line := winDev (s.window k.jobTag.toNat w) k.addr.toNat / 256
    s.askLine e line (.req e k own) (reqHdr k line)

/-! ### Completions on their way back -/

/-- The completion of a request that came from another device: sealed when the request was, and sent (R320, R289). -/
def State.answer (s : State) (e : Nat) (k : Pkt) (st : Nat) (data : List Byte) : State :=
  let c := compFor s k st data
  if k.tagf then
    match s.sealPkt e false c with
    | .sealed s c => s.sendOrDrop e c
    | .plain => s.sendOrDrop e c
    | .exhausted s => s
  else s.sendOrDrop e c

/-- A FOP task's operation has completed (R303, R319): data to DST, STATUS, then DONE, then LCSLOT. -/
def State.fopDone (s : State) (n c seq st : Nat) (data : List Byte) : State :=
  match (s.cell n c).x with
  | none => s
  | some a =>
    if a.wait ≠ txnTok seq + 1 then s else
    let q := a.q
    let rec_ := spotOf c q.srcB
    let r := s.spotRead n rec_ 0 32
    let b := r.2.getD []
    let w := taskWriter q
    let s := if data.isEmpty then s else s.spotWrite n (spotOf c q.dst) w 0 data
    let s := s.spotWrite n rec_ w 24 [BitVec.ofNat 8 st]
    let d := (b.getD 25 0) ||| 1
    let s := s.spotWrite n rec_ w 25 [d]
    let lcs := (b.getD 1 0).getLsbD 1
    let tag := leNat ((b.drop 4).take 2) % 4096
    let s := if lcs ∧ st = 0 then s.incr tag (b.getD 7 0).toNat 1 (.spire n) else s
    s.modCell n c fun x => x.setX fun a => a.complete (txnTok seq) st

/-- What a FOP task writes to DST from a completion's flits: a LOAD reply as addressed, or the old value of an atomic. -/
def fopData (k : Pkt) (data : List Byte) : List Byte :=
  match k.op.toNat with
  | 1 => fromSegments (k.addr.toNat % 256) k.len.toNat data
  | 4 => data.take 8
  | _ => []

/-- A FOP's LOAD reply lies at DST as its request's data lay at SRC_A: byte b of the line at DST + b. -/
def State.fopLoad (s : State) (n c : Nat) (k : Pkt) (data : List Byte) : State :=
  match (s.cell n c).x with
  | some a =>
    if k.op = 1 ∧ !data.isEmpty then
      s.spotWrite n (spotOf c a.q.dst) (taskWriter a.q) (k.addr.toNat % 256) (fopData k data)
    else s
  | none => s

/-- The sender of a transaction that has ended has its completion (R285, R303, R309): a FOP task, a message, a die behind an
internal link, or a remote slot signal. -/
def State.senderDone (s : State) (t : Txn) (st : Nat) (data : List Byte) : State :=
  match t.who with
  | .fop n c =>
    let s := if st = 0 then s.fopLoad n c t.pkt data else s
    s.fopDone n c t.seq st (if st = 0 ∧ t.pkt.op = 4 then data.take 8 else [])
  | .msg n id => s.msgAnswer n id 0 st
  | .link a src h => s.replyHdr a src h st data
  | .signal n tag slot =>
    if st = 0 then s else s.post (spPage n 0) 2 0x2E 0 (tag + slot * 4096 + st * 2 ^ 20)
  | .absorbed _ => s

/-- One request that a transit combining point absorbed completes (R313, R314): here, if it was ours, or at its source. -/
def State.answerAbsorbed (s : State) (e : Nat) (k : Pkt) (st : Nat) (data : List Byte) : State :=
  if !s.isOwn k.srcDev.toNat then s.answer e k st data else
  match s.txn k.seq.toNat with
  | none => s
  | some t => (s.dropTxn t.seq).senderDone t st data

/-- Old values that absorbed atomics receive, and the bytes that absorbed loads receive (R314). -/
def absorbedData (survivor : Pkt) (l : List Pkt) (data : List Byte) : List (List Byte) :=
  match survivor.op.toNat with
  | 1 => l.map fun k => segments (k.addr.toNat % 256) k.len.toNat data
  | 4 =>
    let dt := bitsOf survivor.opt.toNat 6 4
    let aop := bitsOf survivor.opt.toNat 3 0
    let v := leNat (data.take (dtSize dt))
    (atomicFold aop dt v (l.map fun k => leNat ((dataFlits k).take (dtSize dt)))).2.map fun x =>
      leBytes 8 x ++ List.replicate 56 0
  | _ => l.map fun _ => []

/-- A transaction that has one completion ends (R285, R303, R309, R314). -/
def State.finishTxn (s : State) (t : Txn) (st : Nat) (data : List Byte) : State :=
  let s := s.dropTxn t.seq
  match t.who with
  | .absorbed l =>
    let e := t.seq / 32768 % 2
    let ds := if st = 0 then absorbedData t.pkt l data else l.map fun _ => []
    (l.zip ds).foldl (fun s x => s.answerAbsorbed e x.1 st x.2) s
  | _ => s.senderDone t st data

/-- A part answered; the transaction of a fabric message ends with its last part. -/
def State.partAnswer (s : State) (n id part st seq : Nat) : State :=
  let s := s.msgAnswer n id part st
  match (s.spire n).msg id with
  | some m => if m.got.length ≥ m.n then s.dropTxn seq else s
  | none => s.dropTxn seq

/-- The completion of an outstanding transaction, or of the part of a message that ADDR names, reaches its issuer. -/
def State.comeBack (s : State) (t : Txn) (addr st : Nat) (data : List Byte) : State :=
  match t.who with
  | .msg n id => s.partAnswer n id (bitsOf addr 35 28) st t.seq
  | _ => s.finishTxn t st data

/-- The completion of a request goes to the device that sent it, or to the own transaction that it belongs to. -/
def State.tellReq (s : State) (e : Nat) (k : Pkt) (own : Option Nat) (st : Nat) (data : List Byte) : State :=
  match own with
  | none => s.answer e k st data
  | some q =>
    match s.txn q with
    | some t => s.comeBack t k.addr.toNat st data
    | none => s

/-- An answer RETRY leaves an oculus: counted for the tag's partition (R323). -/
def State.retried (s : State) (e : Nat) (k : Pkt) : State :=
  s.bump (ocPage e 0xB) 6 0 1 (s.tagOwner k.jobTag.toNat)

/-- A request that an oculus admitted has its answer from the die that it went to: the increment that it asks for follows its
application (R309), then it completes. -/
def State.reqDone (s : State) (e : Nat) (k : Pkt) (own : Option Nat) (st : Nat) (data : List Byte) : State :=
  let s := if st = 0 ∧ k.op.toNat ≤ 5 then s.reqSignal e k else s
  let s := if st = 6 then s.retried e k else s
  s.tellReq e k own st (if st = 0 then reqData k data else [])

/-! ### Survivors of combining at the target (R312 to R315) -/

/-- Contributions of a generation of reductions to the element at byte `o`, in order of arrival (R312). -/
def combXs (l : List Pkt) (dt o : Nat) : List Nat :=
  l.filterMap fun k =>
    let a := k.addr.toNat % 256
    if a ≤ o ∧ o + dtSize dt ≤ a + k.len.toNat + 1 ∧ (o - a) % dtSize dt = 0 then some (elemAt dt o (pktStore k).1) else none

/-- Contributions joined in FW48 (R313). -/
def joinAll (dt : Nat) : List Nat → Num
  | [] => (dtFmt dt).decode 0
  | x :: l => l.foldl (joinFw48 dt) ((dtFmt dt).decode x)

/-- A joined contribution as its six bytes. -/
def joinedBytes (dt : Nat) (xs : List Nat) : List Byte := leBytes 6 (fw48.encode .rne (joinAll dt xs)).1

/-- The reductions of a generation as headers for the gatehouse: at most 42 joined elements each, which fill four data flits
(R312, R313; DESIGN CHOICE, log entry 238). -/
def reduceHdrs (line opt : Nat) (l : List Pkt) : List Hdr :=
  let dt := bitsOf opt 6 4
  let sz := dtSize dt
  let o0 := (l.map fun k => k.addr.toNat % 256).foldl min 255
  let piece (j : Nat) : Hdr :=
    let at_ (i : Nat) : Nat := o0 + (42 * j + i) * sz
    let xs := (List.range 42).map fun i => if at_ i + sz ≤ 256 then combXs l dt (at_ i) else []
    let mask := xs.zipIdx.foldl (fun m x => if x.1.isEmpty then m else m ||| ((2 ^ sz - 1) * 2 ^ at_ x.2)) 0
    { op := 5, line := BitVec.ofNat 32 line, nflit := 4, maskf := true, arg := elemArg (at_ 0) true opt
      data := leBytes 32 mask ++ List.replicate 32 0 ++ (xs.flatMap fun x => joinedBytes dt x) ++ List.replicate 4 0 }
  ((List.range ((256 - o0) / (42 * sz) + 1)).map piece).filter fun h => leNat (h.data.take 32) != 0

/-- The operand of combined atomics (R312, R314): the operands taken together by their AOP, or joined in FW48. -/
def atomicHdr (line opt o : Nat) (xs : List Nat) : Hdr :=
  let dt := bitsOf opt 6 4
  let aop := bitsOf opt 3 0
  let joined := decide (aop = 0) && !dtInt dt
  let d := if joined then joinedBytes dt xs
    else leBytes 8 (xs.tail.foldl (fun a x => atomicNew aop dt a x 0) (xs.headD 0))
  { op := 4, line := BitVec.ofNat 32 line, nflit := 1, arg := elemArg o joined opt, data := d ++ List.replicate (64 - d.length) 0 }

/-- What leaves for the gatehouse when a line entry closes: its one request, or the survivor of those it absorbed (R312). -/
def combHdrs (c : Comb) (line : Nat) : List Hdr :=
  match c.pkts with
  | [] => []
  | [k] => [reqHdr k line]
  | k :: _ =>
    match c.cls with
    | 0 => [{ op := 1, line := BitVec.ofNat 32 line }]
    | 1 =>
      let m := c.pkts.foldl (fun (m : List Byte × Nat) k =>
        let x := pktStore k
        (blend x.2 m.1 x.1, m.2 ||| x.2)) (List.replicate 256 0, 0)
      [storeHdr line m.2 m.1]
    | 2 =>
      let xs := c.pkts.map fun k => leNat ((dataFlits k).take (dtSize (bitsOf k.opt.toNat 6 4)))
      [atomicHdr line k.opt.toNat (k.addr.toNat % 256) xs]
    | _ => reduceHdrs line k.opt.toNat c.pkts

/-- The completions' data of a generation, from the answer to its survivor (R314). -/
def combData (c : Comb) (data : List Byte) : List (List Byte) :=
  match c.pkts with
  | k :: _ :: _ => absorbedData { k with addr := 0 } c.pkts data
  | l => l.map fun k => reqData k data

/-- Counting slots asked for by the requests of a generation, one increment for each (R314). -/
def State.combSignals (s : State) (e : Nat) (l : List Pkt) : State :=
  let asked := l.filter (·.csEn)
  let slots := (asked.map fun k => (k.jobTag.toNat, k.cslot.toNat)).eraseDups
  slots.foldl (fun s x =>
    s.incr x.1 x.2 (asked.filter fun k => k.jobTag.toNat == x.1 && k.cslot.toNat == x.2).length (.fabric e)) s

/-- Device line of a line entry: under the window that admitted its requests (R307, R322). -/
def combLine (c : Comb) : Nat := winDev c.win (c.line * 256) / 256

/-- Every request of a generation completes with a status (R314). -/
def State.combAnswer (s : State) (e : Nat) (c : Comb) (st : Nat) (data : List Byte) : State :=
  let ds := if st = 0 then combData c data else c.pkts.map fun _ => []
  let s := if st = 0 then s.combSignals e c.pkts else s
  (c.pkts.zip ds).foldl (fun s x => s.answer e x.1 st x.2) s

/-- A line has a survivor outstanding (R315). -/
def State.combOut (s : State) (e line : Nat) : Bool :=
  s.calls.any fun c => match c.who with | .comb e' g _ => e' == e && combLine g == line | _ => false

/-- The next header of a survivor leaves; nothing while its station has no identifier free. -/
def State.combSend (s : State) (e : Nat) (c : Comb) : List Hdr → Option State
  | [] => some (s.combAnswer e c 0 [])
  | h :: rest =>
    (s.askLine e (combLine c) (.comb e c rest) h).map fun r =>
      match r.2 with
      | none => r.1
      | some st => r.1.combAnswer e c st []

/-- A line entry closes: its survivor goes to the gatehouse (R315). Nothing while a survivor of the line is outstanding, or its
station has no identifier free. -/
def State.closeComb (s : State) (e : Nat) (c : Comb) : Option State :=
  if s.combOut e (combLine c) then none else
  let gone := if c.cls = 1 then discardedStores c.pkts else 0
  let s := if gone = 0 then s else s.bump (ocPage e 0xB) 5 0 gone (s.tagOwner c.tag)
  (s.modOculus e fun o => { o with comb := o.comb.erase c }).combSend e c (combHdrs c (combLine c))

/-- A line entry has absorbed all that it may (R315). -/
def State.combFull (s : State) (e : Nat) (c : Comb) : Bool := decide (s.fld (Loc.ocCombCtl e) 20 8 ≤ c.pkts.length)

/-- The answer to a survivor's header: the next header leaves, or the generation completes, and then a full entry of the line
closes (R314, R315). -/
def State.combDone (s : State) (e : Nat) (c : Comb) (rest : List Hdr) (st : Nat) (data : List Byte) : State :=
  match (if st = 0 ∧ !rest.isEmpty then s.combSend e c rest else none) with
  | some s => s
  | none =>
    let s := s.combAnswer e c st data
    match (s.oculus e).comb.find? fun x => combLine x == combLine c && s.combFull e x with
    | some x => (s.closeComb e x).getD s
    | none => s

/-! ### Multicast at the source (R317 to R319) -/

/-- The bitmap of targets without a 0x00 completion. -/
def mcBitmap (l : List Copy) : Nat :=
  l.zipIdx.foldl (fun a e => if e.1.status = some 0 then a else a + 2 ^ e.2) 0

/-- An MC_STORE ends for its sender with a status and its bitmap (R303, R319): a die behind an internal link has the bitmap in
the first bytes of a data flit. -/
def State.mcEnd (s : State) (t : Txn) (st : Nat) (bitmap : List Byte) : State :=
  match t.who with
  | .fop n c => s.fopDone n c t.seq st bitmap
  | .link a src h => s.replyHdr a src h st (if bitmap.isEmpty then [] else bitmap ++ List.replicate 56 0)
  | _ => s

/-- An MC_STORE completes at its die (R319): status, bitmap; its number rests. -/
def State.mcDone (s : State) (t : Txn) : State :=
  let e := t.seq / 32768 % 2
  let st := if t.copies.all fun c => c.status == some 0 then 0 else 0x40
  let rest := s.clk.elapsed + s.fld (Loc.ocMcCtl e) 7 0 * 1000 + 100000
  let s := s.dropTxn t.seq
  let s := s.modOculus e fun o => { o with parked := o.parked ++ [(t.seq, rest)] }
  s.mcEnd t st (leBytes 8 (mcBitmap t.copies))

/-- A copy is answered; RETRY leaves it to be sent again (R318). -/
def State.mcAnswer (s : State) (seq i st : Nat) : State :=
  match s.txn seq with
  | none => s
  | some t =>
    let c := lmod t.copies i fun c =>
      if c.status.isSome then c
      else if st = 6 then { c with again := true, sentAt := s.clk.elapsed } else { c with status := some st, again := false }
    let t := { t with copies := c }
    if c.all fun x => x.status.isSome then s.mcDone t else s.setTxn t

/-! ### Duplicate filter (R318) -/

/-- A copy is accepted: the filter holds its source and number. -/
def State.addDup (s : State) (e : Nat) (k : Pkt) : State :=
  let until_ := s.clk.elapsed + s.fld (Loc.ocMcCtl e) 7 0 * 1000 + 100000
  { s with dups := s.dups ++ [({ src := k.srcDev.toNat, seq := k.seq.toNat, until_ := until_ } : Dup)] }

/-- A copy is the one that a filter entry stands for. -/
def dupOf (k : Pkt) (d : Dup) : Bool := d.src == k.srcDev.toNat && d.seq == k.seq.toNat

/-- Bytes of a copy in the multicast buffer: its data flits. -/
def copyBytes (k : Pkt) : Nat := 64 * k.nflit.toNat

/-- The multicast buffer has room for a copy (R317). -/
def Oculus.mcRoom (o : Oculus) (k : Pkt) : Bool :=
  decide ((o.mcBuf.map fun b => copyBytes b.2.1).sum + copyBytes k ≤ o.mcCap * 262144)

/-- A copy leaves the multicast buffer. -/
def State.dropCopy (s : State) (e : Nat) (b : Pkt × Pkt × Nat) : State :=
  s.modOculus e fun o => { o with mcBuf := o.mcBuf.erase b }

/-- A filter entry is taken back: its copy was not applied. -/
def State.dropDup (s : State) (k : Pkt) : State := { s with dups := s.dups.filter fun d => !dupOf k d }

/-- A copy accepted (R317, R318): in the filter and in the multicast buffer, on its way to the gatehouse of its line; RETRY without
an identifier for it. -/
def State.acceptCopy (s : State) (e : Nat) (b : Pkt × Pkt × Nat) : State × Option Nat :=
  let t := (s.addDup e b.2.1).modOculus e fun o => { o with mcBuf := o.mcBuf ++ [b] }
  let x := pktStore b.2.1
  match t.askLine e b.2.2 (.copy e b) (storeHdr b.2.2 x.2 x.1) with
  | some (u, none) => (u, none)
  | some (_, some st) => (s, some st)
  | none => (s.retried e b.2.1, some 6)

/-- A copy of an MC_STORE at its target (R317, R318): refused, a duplicate, answered RETRY, or held in the multicast buffer until it
is applied. Nothing is answered in the last case. -/
def State.mcCopy (s : State) (e : Nat) (k0 : Pkt) : State × Option Nat :=
  match s.checkReq e k0 with
  | .fail s st => (s, some st)
  | .land s _ => (s, some 0x10)
  | .pass s k w =>
    if s.dups.any (dupOf k) then (s, some 0)
    else if s.dups.length ≥ 16384 || !(s.oculus e).mcRoom k then (s.retried e k, some 6)
    else s.acceptCopy e (k0, k, winDev (s.window k.jobTag.toNat w) k.addr.toNat / 256)

/-- A buffered copy has its answer from the gatehouse: it leaves the buffer and completes at its source; a failure takes its filter
entry back. -/
def State.copyDone (s : State) (e : Nat) (b : Pkt × Pkt × Nat) (st : Nat) : State :=
  let s := s.dropCopy e b
  let s := if st = 0 then s.reqSignal e b.2.1 else s.dropDup b.2.1
  if s.isOwn b.1.srcDev.toNat then s.mcAnswer b.1.seq.toNat b.1.mcTgt.toNat st else s.answer e b.1 st []

/-! ### Issue at the source (R284, R304, R320) -/

/-- The oculus whose station a fabric-bound transaction takes (R284). -/
def State.issueOculus (s : State) (l : Nat) : Option Nat :=
  let m := s.ocStations 0 ++ s.ocStations 1
  (m[hashH l * m.length / 65536]?).bind stationOculus

/-- What an issue gives: the die waits, the request has completed at once, or it is outstanding under a number. -/
inductive Issue where
  | wait
  | done (s : State) (st : Nat) (data : List Byte)
  | sent (s : State) (seq : Nat)

/-- A packet leaves sealed where a key is in force; no route completes it with 0x30, an exhausted key with 0x14. -/
def State.sendReq (s : State) (e : Nat) (k : Pkt) : State × Nat :=
  match s.sealPkt e false k with
  | .exhausted s => (s, 0x14)
  | .plain =>
    match s.tryForward e k with
    | some t => (t, 0)
    | none => (s.ocEvent e 0xA 0 1, 0x30)
  | .sealed s k =>
    match s.tryForward e k with
    | some t => (t, 0)
    | none => (s.ocEvent e 0xA 0 1, 0x30)

/-- A copy of an MC_STORE sent to its target, or applied here. -/
def State.sendCopy (s : State) (e : Nat) (k : Pkt) (i dev : Nat) : State :=
  let k := { k with dstDev := BitVec.ofNat 16 dev, mcTgt := BitVec.ofNat 6 i }
  if s.isOwn dev then
    let r := s.mcCopy e k
    match r.2 with
    | some st => r.1.mcAnswer k.seq.toNat i st
    | none => r.1
  else
    let r := s.sendReq e k
    if r.2 = 0 then r.1 else r.1.mcAnswer k.seq.toNat i r.2

/-- A FOP task that waits for a transaction keeps its number. -/
def State.waitTxn (s : State) (seq : Nat) : Sender → State
  | .fop n c => s.modCell n c fun x => x.setX fun a => { a with wait := txnTok seq + 1 }
  | _ => s

/-- A request becomes an outstanding transaction of its oculus; a FOP task waits for it. -/
def State.openTxn (s : State) (seq : Nat) (k : Pkt) (who : Sender) : State :=
  (s.addTxn { seq := seq, who := who, pkt := k, opened := s.clk.elapsed }).waitTxn seq who

/-- An MC_STORE expanded into its copies, or completed with 0x15 (R292, R317). -/
def State.expandMc (s : State) (e : Nat) (t : Txn) : State :=
  let g := t.pkt.opt.toNat % 4096
  let h := s.get (Loc.ocMcgHdr e) g
  let n := min 64 (h.bits 6 0)
  if n = 0 ∨ h.bits 19 8 ≠ t.pkt.jobTag.toNat then
    (s.dropTxn t.seq).mcEnd t 0x15 []
  else
  let devs := (List.range n).map fun i => s.fld (Loc.ocMcgTgt e) 15 0 (g * 64 + i)
  let now := s.clk.elapsed
  let s := s.setTxn { t with opened := now, copies := devs.map fun d => ({ dev := d, sentAt := now } : Copy) }
  devs.zipIdx.foldl (fun s d => s.sendCopy e t.pkt d.2 d.1) s

/-- A request of the own device under its number is checked at its own oculus and goes to the die that it concerns (R285). -/
def State.issueHere (s : State) (e seq : Nat) (k : Pkt) (who : Sender) : Issue :=
  let go (t : State) (k : Pkt) (w : Nat) : Issue :=
    match (t.openTxn seq k who).letIn e k w (some seq) with
    | none => .wait
    | some (u, none) => .sent u seq
    | some (u, some st) => .done (u.dropTxn seq) st []
  match s.checkReq e k with
  | .fail t st => .done t st []
  | .land t k => go t k 0
  | .pass t k w => go t k w

/-- A request of a die for another device under its number: sealed and routed. -/
def State.issueAway (s : State) (e seq : Nat) (k : Pkt) (who : Sender) : Issue :=
  let r := s.sendReq e k
  if r.2 ≠ 0 then .done r.1 r.2 [] else .sent (r.1.openTxn seq k who) seq

/-- A request issued at a source oculus: form, number, then its expansion is awaited (MC_STORE), or it goes to a die of this device
(`here`, or by its ID) or to another device. The dies are held while the oculus has no number free (R284, R318). -/
def State.issueAt (s : State) (e : Nat) (k : Pkt) (who : Sender) (here : Bool) : Issue :=
  if (s.oculus e).txns.length ≥ 32768 then .wait
  else if !formOk k then .done s 0x10 []
  else match s.freeSeq e with
    | none => .wait
    | some i =>
      let seq := i + 32768 * e
      let k := { k with seq := BitVec.ofNat 16 seq }
      if k.op = 6 then .sent (s.openTxn seq k who) seq
      else if here || s.isOwn k.dstDev.toNat then s.issueHere e seq k who
      else s.issueAway e seq k who

/-- A request issued by a die; `l` chooses the oculus station (R284). -/
def State.issue (s : State) (l : Nat) (k : Pkt) (who : Sender) (here : Bool := false) : Issue :=
  match s.issueOculus l with
  | none => .done s 0x33 []
  | some e => s.issueAt e { k with srcDev := BitVec.ofNat 16 s.ownDev } who here

/-- The sender's count of lines to a destination (R213): a station, or 2^16 + a device. The count moves on. -/
def State.nextLine (s : State) (n dest : Nat) : Nat × State :=
  let key := n * 2 ^ 17 + dest
  let v := tget 0 s.sentTo key
  (v, { s with sentTo := tset 0 s.sentTo key (v + 1) })

/-- A remote slot signal (R38, R309): accepted by an oculus, or refused and logged. False while the dies are held. -/
def State.remoteSignal (s : State) (n tag slot dev inc : Nat) : State × Bool :=
  let k : Pkt := { op := 9, dstDev := BitVec.ofNat 16 dev, srcAgent := BitVec.ofNat 6 (spStation n),
                   jobTag := BitVec.ofNat 12 tag, cslot := BitVec.ofNat 8 slot, csEn := true, opt := BitVec.ofNat 24 inc }
  let c := s.nextLine n (65536 + dev)
  match c.2.issue c.1 k (.signal n tag slot) with
  | .wait => (s, false)
  | .done s st _ => (if st = 0 then s else s.post (spPage n 0) 2 0x2E 0 (tag + slot * 4096 + st * 2 ^ 20), true)
  | .sent s _ => (s, true)

/-! ### Bundles of a failed port (R290, R291) -/

/-- A packet that cannot be delivered after its port failed: unanswered bundles with 0x32, others with 0x30; requests of
the own device complete here. -/
def State.lostPkt (s : State) (e : Nat) (k : Pkt) (st : Nat) : State :=
  match opClass k.op.toNat with
  | some 0 =>
    if s.isOwn k.srcDev.toNat then
      match s.txn k.seq.toNat with
      | none => s
      | some t =>
        if k.op = 6 then s.mcAnswer k.seq.toNat k.mcTgt.toNat st
        else match t.who with
          | .msg n id => s.msgAnswer n id (bitsOf k.addr.toNat 35 28) st
          | _ => s.finishTxn t st []
    else (s.ocEvent e 0xA 0 1).sendOrDrop e { compFor s k st [] with hops := 0 }
  | _ => s.ocEvent e 0xB 0 1

/-- A packet that held a failed port is looked up again (R290, Table FT-11). -/
def State.reroute (s : State) (e : Nat) (k : Pkt) : State :=
  match s.tryForward e { k with hops := k.hops - 1 } with
  | some t => t
  | none => s.lostPkt e k (if k.op = 6 then 6 else 0x30)

/-- Unacknowledged bundles of a failed port are asked for: FLINK_QUERY goes to the partner through the fabric (R291). -/
def State.flinkAsk (s : State) (p : Nat) : State :=
  let s := (s.samplePort p).stallCount p
  let x := s.port p
  let e := p / 16
  let peer := s.fld (Loc.ocPortPeer e) 15 0 (p % 16)
  let sw := s.flag (Loc.ocPortPeer e) 23 (p % 16)
  let now := s.clk.elapsed
  let s := s.modPort p fun x =>
    { x with asked := if sw then x.asked else x.asked ++ x.retry, retry := [], q := [], stalled := none,
             askedAt := if x.retry.isEmpty || sw then x.askedAt else some now }
  let s := if x.retry.isEmpty then s
    else if sw then (x.retry.flatMap fun (b : Sent) => b.pkts).foldl (fun s k => s.lostPkt e k 0x32) s
    else s.sendOrDrop e { op := 0x1C, dstDev := BitVec.ofNat 16 peer, srcDev := BitVec.ofNat 16 s.ownDev,
                          opt := BitVec.ofNat 24 p }
  x.q.foldl (fun s k => s.reroute e k) s

/-- A port fails: logged, out of every route at once, its bundles asked for (R274, R291). -/
def State.failPort (s : State) (p cause : Nat) : State :=
  if s.portState p = 5 then s else
  let e := p / 16
  let s := (s.setPortState p 5).showPorts e
  let s := s.modPort p fun x => { x with locked := false, again := [] }
  (s.post (ocPage e 1) 2 0x81 (p % 16) cause).flinkAsk p

end Sys2Proof.Machine
end

