-- ==== Sys2Proof/Machine/Seq.lean ====
section
/-! DEFINITION. The spire sequencer: slots, the evaluation window, awaits, signals, late slots (R29 to R51). -/

namespace Sys2Proof.Machine

/-! ### Slots (Table FR-2) -/

def State.slotW (s : State) (n slot k : Nat) : Nat := (s.get (Loc.spEphData n k) slot).toNat
def State.slotStart (s : State) (n slot : Nat) : Nat := bitsOf (s.slotW n slot 0) 19 0
def State.slotEof (s : State) (n slot : Nat) : Bool := bitOf (s.slotW n slot 0) 20
def State.slotValid (s : State) (n slot : Nat) : Bool := bitOf (s.slotW n slot 0) 21
def State.slotNext (s : State) (n slot : Nat) : Nat := bitsOf (s.slotW n slot 0) 31 22
def State.slotBudget (s : State) (n slot : Nat) : Nat := bitsOf (s.slotW n slot 1) 23 0
def State.slotBase (s : State) (n slot : Nat) : Nat := bitsOf (s.slotW n slot 2) 13 0
def State.slotCount (s : State) (n slot : Nat) : Nat := bitsOf (s.slotW n slot 2) 24 14

/-- The commit check of a slot (R33): the reject code, if it fails. Table FR-2 gives DEADLINE_NS no range: any of its
20 bits' values that is not below START_NS is accepted (R42). -/
def State.slotCheck (s : State) (p : Nat) (w : List Nat) : Option Nat :=
  let f (k hi lo : Nat) := bitsOf (w.getD k 0) hi lo
  let b (k i : Nat) := bitOf (w.getD k 0) i
  let aw (k : Nat) := b k 20 && !s.tagOf p (f k 11 0)
  let sgInc (k : Nat) := b k 20 && f (k + 1) 31 16 == 0
  let sgTag (k : Nat) := b k 20 && b k 21 && !s.tagOf p (f k 11 0)
  if f 1 31 24 ≠ 0 ∨ f 2 31 25 ≠ 0 ∨ f 3 31 22 ≠ 0 ∨ f 5 31 22 ≠ 0 ∨ f 7 31 22 ≠ 0 ∨ f 9 31 22 ≠ 0 ∨ f 11 31 20 ≠ 0 ∨
      f 12 31 0 ≠ 0 ∨ f 13 31 0 ≠ 0 ∨ f 14 31 0 ≠ 0 ∨ f 15 31 0 ≠ 0 then some 1
  else if f 0 19 0 > 999999 ∨ f 2 24 14 > 1024 ∨ f 2 13 0 + f 2 24 14 > 16384 ∨
      (f 11 19 0 ≠ 0 ∧ f 11 19 0 < f 0 19 0) ∨ sgInc 7 ∨ sgInc 9 then some 2
  else if aw 3 || aw 5 || sgTag 7 || sgTag 9 then some 4
  else none

/-- Slots of the programme from a slot, and the slot that makes it invalid (R51). -/
def State.progWalk (s : State) (n : Nat) : Nat → Nat → List Nat × Option Nat
  | 0, _ => ([], none)
  | f + 1, i =>
    if !s.slotValid n i then ([], some i)
    else if s.slotEof n i then ([i], none)
    else if f = 0 then ([i], some i)
    else let r := s.progWalk n f ((i + 1) % 1024); (i :: r.1, r.2)

def State.progSlots (s : State) (n first : Nat) : List Nat := (s.progWalk n 1024 first).1

/-- The running programme has finished: all its slots entered and left the window. -/
def Spire.runDone (sp : Spire) : Bool :=
  match sp.run with
  | none => true
  | some r => r.ended && sp.window.all (·.fading)

/-- Slots that belong to a programme that has started and not finished (R32). -/
def State.slotLocked (s : State) (n i : Nat) : Bool :=
  let sp := s.spire n
  sp.window.any (fun e => e.slot == i) ||
    match sp.run with
    | some r => !sp.runDone && (s.progSlots n r.first).contains i
    | none => false

/-- Descriptors of a started programme's slots (R63). -/
def State.taskLocked (s : State) (n i : Nat) : Bool :=
  let sp := s.spire n
  let slots := (sp.window.map (·.slot)) ++ (match sp.run with
    | some r => if sp.runDone then [] else s.progSlots n r.first
    | none => [])
  slots.any fun j => decide (s.slotBase n j ≤ i ∧ i < s.slotBase n j + s.slotCount n j)

/-! ### Partition state (Table FR-8) -/

def State.pfState (s : State) (p : Nat) : Nat := s.fld (Loc.ptPfSts p) 2 0
/-- A change of state fires vector 2 of the partition's function (Table HS-3). -/
def State.setPfState (s : State) (p v : Nat) : State :=
  (if s.pfState p = v then s else s.irq (p + 1) 2).setFld (Loc.ptPfSts p) 2 0 v

/-- The spire's sequencer may make slots eligible (R34). -/
def State.mayRun (s : State) (n : Nat) : Bool :=
  let p := s.spireOwner n
  (s.spire n).out == 0 && decide (p < 8) && s.pfState p != 0 && s.pfState p != 3

/-- A deadline of a frame as a transit count, from a slot's DEADLINE_NS: the late horizon where that is 0 or beyond it; both
move by one period with each slip, and with no other tick (R42, R44). -/
def FrameRec.deadline (r : FrameRec) (d : Nat) : Nat :=
  r.t0 + r.moved + if d ≠ 0 ∧ d ≤ r.horizon then d else r.horizon

/-- DEADLINE_NS of a slot. -/
def State.slotDeadline (s : State) (n slot : Nat) : Nat := bitsOf (s.slotW n slot 11) 19 0

/-- The deadline of a slot of the present frame as a transit count. -/
def State.deadlineAt (s : State) (n slot : Nat) : Nat := (s.spire n).rec_.deadline (s.slotDeadline n slot)

/-! ### The window -/

def State.modRun (s : State) (n : Nat) (f : Run → Run) : State := s.modSpire n fun sp => { sp with run := sp.run.map f }

def Spire.setSlot (sp : Spire) (e : SlotRun) : Spire :=
  { sp with window := sp.window.map fun x => if x.slot = e.slot ∧ x.t0 = e.t0 then e else x }

/-- The next slot enters the window when a place is free; an invalid slot, or the 1,024th without an end slot, fails the
frame (R34, R51). -/
def State.enterSlot (s : State) (n : Nat) : Option State :=
  let sp := s.spire n
  match sp.run with
  | none => none
  | some r =>
    if r.ended ∨ 8 ≤ sp.window.length ∨ !s.mayRun n then none else
    let i := r.next
    let bad (s : State) : State :=
      let s := s.modRun n fun r => { r with ended := true }
      let s := s.post (spPage n 0) 2 0x2D 0 i
      let p := s.spireOwner n
      s.modPart p fun x => if x.late || x.invalid then { x with invalid := true }
        else { x with invalid := true, lateSpire := n, lateSlot := i }
    if !s.slotValid n i then some (bad s) else
    let s := s.modSpire n fun sp =>
      { sp with
        window := sp.window ++ [{ slot := i, t0 := r.t0 }]
        run := some { r with next := (i + 1) % 1024, entered := r.entered + 1, ended := s.slotEof n i,
                             chain := if s.slotEof n i then s.slotNext n i else r.chain } }
    if r.entered + 1 = 1024 ∧ !s.slotEof n i then some (bad s) else some s

/-- An await of a slot: word 3 or 5 and its threshold (R35). -/
def State.awaitEn (s : State) (n slot : Nat) (second : Bool) : Bool := bitOf (s.slotW n slot (if second then 5 else 3)) 20

/-- An await evaluated at its home: consumed when satisfied (R35, R309). -/
def State.awaitTry (s : State) (n slot : Nat) (second : Bool) : Option State :=
  let w := s.slotW n slot (if second then 5 else 3)
  let t := s.slotW n slot (if second then 6 else 4)
  let tag := bitsOf w 11 0
  let i := bitsOf w 19 12
  if !s.tagSlots tag || (s.spire (s.tagHome tag)).out != 0 || !awaitMet (s.count tag i) t then none
  else some (if bitOf w 21 then s.setCount tag i (s.count tag i + 2 ^ 32 - t) else s)

/-- An await of a window slot is found satisfied: at the own spire at once, at another home by a notification. -/
def State.slotAwait (s : State) (n : Nat) (e : SlotRun) (second : Bool) : Option State :=
  if !s.awaitEn n e.slot second || (if second then e.a1 else e.a0) then none
  else if (s.spire n).notes.any fun x => x.1 == e.slot && x.2.1 == e.t0 && x.2.2 == second then none
  else match s.awaitTry n e.slot second with
    | none => none
    | some s =>
      let tag := bitsOf (s.slotW n e.slot (if second then 5 else 3)) 11 0
      if s.tagHome tag = n then
        some (s.modSpire n fun sp => sp.setSlot (if second then { e with a1 := true } else { e with a0 := true }))
      else some (s.modSpire n fun sp => { sp with notes := sp.notes ++ [(e.slot, e.t0, second)] })

/-- A slot becomes eligible (R34). -/
def State.slotElig (s : State) (n : Nat) (e : SlotRun) : Option State :=
  let ok (second : Bool) (got : Bool) := !s.awaitEn n e.slot second || got
  if ok false e.a0 && ok true e.a1 then 
    some (s.modSpire n fun sp => sp.setSlot
      { e with elig := true, frames := (s.get (Loc.ptPfFrames (s.spireOwner n))).toNat }) else none

/-- The four words of a signal: tag, slot, local, device, increment (Table FR-2). -/
def State.signalOf (s : State) (n slot i : Nat) : Bool × Nat × Nat × Bool × Nat × Nat :=
  let w := s.slotW n slot (7 + 2 * i)
  let d := s.slotW n slot (8 + 2 * i)
  (bitOf w 20, bitsOf w 11 0, bitsOf w 19 12, bitOf w 21, bitsOf d 15 0, bitsOf d 31 16)

/-- A local signal is counted at its tag's home: here, or on another spire that a transaction reaches (R38, R309). Where no
transaction can take it, the increment waits for a home in reset, or is dropped (R309, R448). False while the die has no identifier
free. -/
def State.localSignal (s : State) (n : Nat) (e : SlotRun) (i tag slot inc : Nat) : State × Bool :=
  let h := s.tagHome tag
  let mark (s : State) (away : Nat) : State :=
    s.modSpire n fun sp => sp.setSlot { e with sig := e.sig + 2 ^ i, away := e.away + away }
  if h = n ∨ !s.tagSlots tag ∨ (s.spire h).out ≠ 0 then (mark (s.incr tag slot inc (.spire n)) 0, true)
  else if !s.tidRoom (spStation n) then (s, false)
  else
    let r := s.openCall (spStation n) (spStation h) (.signal n e.slot e.t0 i)
      { op := 9, jobTag := BitVec.ofNat 12 tag, cslot := BitVec.ofNat 8 slot, csEn := true, arg := BitVec.ofNat 16 inc }
    if r.2 then (mark r.1 (2 ^ i), true) else (mark (s.dropIncr tag (.spire n)) 0, true)

/-- One enabled signal of a finishing slot is issued: on its way to its count, or accepted by an oculus (R38). -/
def State.slotSignal (s : State) (n : Nat) (e : SlotRun) (i : Nat) : Option State :=
  let g := s.signalOf n e.slot i
  if !g.1 || e.sig.testBit i then none else
  let mark (s : State) : State := s.modSpire n fun sp => sp.setSlot { e with sig := e.sig + 2 ^ i }
  if g.2.2.2.1 then
    let r := s.localSignal n e i g.2.1 g.2.2.1 g.2.2.2.2.2
    if r.2 then some r.1 else none
  else
    let r := s.remoteSignal n g.2.1 g.2.2.1 g.2.2.2.2.1 g.2.2.2.2.2
    if r.2 then some (mark r.1) else none

/-- The spire holds no slot of a programme and no programme that has slots to come. -/
def State.spireIdle (s : State) (n : Nat) : Bool := (s.spire n).runDone && (s.spire n).window.isEmpty

/-- A draining partition whose last slot has finished is stopped (R48); one whose frame is to fail at the coming tick is
not (R51, log entry 83). -/
def State.drainCheck (s : State) (p : Nat) : State :=
  if p < 8 ∧ s.pfState p = 4 ∧ !(s.part p).invalid ∧ !(s.part p).fail ∧ (s.spiresOf p).all s.spireIdle then
    (s.spiresOf p).foldl (fun s n => s.modSpire n fun sp => { sp with run := none }) (s.setPfState p 0)
  else s

/-- A finish of a slot with a given DEADLINE_NS, in the record of its frame (R41). -/
def FrameRec.finish (r : FrameRec) (count d : Nat) : FrameRec :=
  let slack : Int := (r.deadline d : Int) - count
  { r with
    fin := max r.fin (count - r.t0)
    slack := some (match r.slack with | some x => min x slack | none => slack) }

/-- EPH_FRAME_END and EPH_MIN_SLACK show a frame (R41). -/
def State.showRecord (s : State) (n : Nat) (r : FrameRec) : State :=
  (s.put (Loc.spEphFrameEnd n) (BitVec.ofNat 32 r.fin)).put (Loc.spEphMinSlack n) (BitVec.ofInt 32 (r.slack.getD 0))

/-- A slot's finish is recorded in its frame: the present one, or the one that the registers show, when that failed and
the slot ran on past the partition's next start (R41, R46). -/
def State.recordFinish (s : State) (n : Nat) (e : SlotRun) : State :=
  let sp := s.spire n
  let d := s.slotDeadline n e.slot
  if e.t0 = sp.rec_.t0 then s.modSpire n fun sp => { sp with rec_ := sp.rec_.finish s.clk.count d }
  else if e.t0 = sp.prev.t0 then
    let r := sp.prev.finish s.clk.count d
    (s.modSpire n fun sp => { sp with prev := r }).showRecord n r
  else s

/-- A slot leaves the window and is recorded (R38, R41). -/
def State.slotLeave (s : State) (n : Nat) (e : SlotRun) : State :=
  let s := (s.recordFinish n e).modSpire n fun sp =>
    { sp with window := sp.window.filter fun x => !(x.slot == e.slot && x.t0 == e.t0) }
  s.drainCheck (s.spireOwner n)

/-- The slot was late at its present deadline (R43). -/
def Spire.isLate (sp : Spire) (e : SlotRun) : Bool :=
  match sp.run with
  | some r => r.t0 == e.t0 && r.lates.contains e.slot
  | none => false

/-- A slot whose tasks have retired issues its signals and finishes; with a failed task and ERR_SIGNAL = 0 it withholds
them and finishes once its deadline has passed (R38, R92). -/
def State.slotFinish (s : State) (n : Nat) (e : SlotRun) : Option State :=
  if !e.elig || e.retired != s.slotCount n e.slot then none
  else if e.err && !s.flag (Loc.spSeqCtl n) 1 then
    if e.fading || (s.spire n).isLate e then some (s.slotLeave n e) else none
  else match s.slotSignal n e 0 with
    | some t => some t
    | none =>
      match s.slotSignal n e 1 with
      | some t => some t
      | none =>
        let left (i : Nat) := (s.signalOf n e.slot i).1 && !e.sig.testBit i
        if left 0 || left 1 || e.away != 0 then none else some (s.slotLeave n e)

/-- One thing that a slot of the window can do now. DESIGN CHOICE: R34 does not say when the awaits of a slot are looked
at; here they are evaluated, and consumed, from START_NS on, the first before the second, and each stays satisfied once
it was found so (log entry 154). -/
def State.slotProgress (s : State) (n : Nat) (e : SlotRun) : Option State :=
  if e.elig then s.slotFinish n e
  else if e.fading || !s.mayRun n || decide (s.clk.count < e.t0 + s.slotStart n e.slot) then none
  else match s.slotAwait n e false with
    | some t => some t
    | none =>
      match s.slotAwait n e true with
      | some t => some t
      | none => s.slotElig n e

/-- One thing that a spire's sequencer can do now. -/
def State.seqProgress (s : State) (n : Nat) : Option State :=
  if (s.spire n).out != 0 then none else
  match s.enterSlot n with
  | some t => some t
  | none => (s.spire n).window.findSome? fun e => s.slotProgress n e

/-- Everything that the sequencers can do now, at most `fuel` things. -/
def State.settleN : Nat → State → State
  | 0, s => s
  | f + 1, s =>
    match (List.range 16).findSome? fun n => s.seqProgress n with
    | none => s
    | some t => t.settleN f

/-- The sequencers act on what has changed: slots enter the window, awaits are found satisfied, slots become eligible and
finish (R34 to R38). A spire does fewer things than this at one moment: 1,024 slots, two awaits and two signals each. -/
def State.seqSettle (s : State) : State := s.settleN 131072

/-! ### Late slots (R43) -/

/-- A slot of the running programme has not finished. -/
def State.slotOpen (s : State) (n : Nat) (r : Run) (slot : Nat) : Bool :=
  let pos := (slot + 1024 - r.first) % 1024
  if pos < r.entered then (s.spire n).window.any fun e => e.slot == slot && e.t0 == r.t0
  else !r.ended && (s.progSlots n r.first).contains slot

/-- EPH_LATE holds a slot. -/
def State.putLate (s : State) (n : Nat) (l : Option Nat) : State :=
  s.put (Loc.spEphLate n) (BitVec.ofNat 32 (match l with | some i => i + 2 ^ 31 | none => 0))

/-- EPH_LATE shows the first late slot of a frame that does not end by advancing: at the tick at which it fails or is
stopped, and at once while it drains (R43, R50). DESIGN CHOICE: Table FR-9 updates the register only when the partition
advances, which such a frame never does (log entry 155). -/
def State.showLate (s : State) (n : Nat) : State :=
  match (s.spire n).rec_.late with
  | some i => s.putLate n (some i)
  | none => s

/-- A slot-late event: recorded, counted, posted on the late line. A withheld slot finishes (R43, R92). -/
def State.raiseLate (s : State) (n slot : Nat) : State :=
  let p := s.spireOwner n
  let s := s.modRun n fun r => { r with lates := r.lates ++ [slot] }
  let s := s.modSpire n fun sp =>
    { sp with rec_ := { sp.rec_ with late := some (sp.rec_.late.getD slot) } }
  let s := if s.pfState p = 4 then s.showLate n else s
  let s := s.bump (spPage n 0) 6 0 1 p
  let s := s.modPart p fun x => if x.late then x else { x with late := true, lateSpire := n, lateSlot := slot }
  ((s.addWrap (Loc.ptPfLates p) 31 0 1).irq (p + 1) 2).seqSettle

/-- Slots of a spire that have passed their deadline unfinished and unmarked. -/
def State.overdue (s : State) (n : Nat) : List Nat :=
  match (s.spire n).run with
  | none => []
  | some r => (s.progSlots n r.first).filter fun i =>
      s.slotOpen n r i && !r.lates.contains i && decide (s.deadlineAt n i ≤ s.clk.count)

/-- Late events due by now that no command has brought. -/
def State.raiseOverdue (s : State) : State :=
  (List.range 16).foldl (fun s n =>
    if s.mayRun n then (s.overdue n).foldl (fun s i =>
      match (s.spire n).run with
      | some r => if s.slotOpen n r i then s.raiseLate n i else s
      | none => s) s else s) s

end Sys2Proof.Machine
end

