-- ==== Sys2Proof/Machine/Frames.lean ====
section
/-! DEFINITION. Commands of the frames and the ephemeris beside the tick itself (R29 to R52). -/

namespace Sys2Proof.Machine

/-! ### Partition commands (R48, R49) -/

/-- The check of a command against the partition and its state (R49); no resume in recovery (R450). -/
def State.pfCmdCheck (s : State) (p cmd : Nat) : Bool :=
  let st := s.pfState p
  match cmd with
  | 0 => true
  | 1 => s.defined p && (st == 0 || st == 3)
  | 2 => s.defined p && st != 0
  | _ => s.defined p && (st == 0 || st == 3) && !s.flag Loc.glFaultSts 0

/-- PFp_CTL written (R48, R49, R52): the management service's write applies CMD alone. DEDUCED: its reserved bits are
judged as in every write (R8); only the fields beside CMD are ignored (log entry 220). -/
def State.pfCtlOp (s : State) (f : Func) (p : Nat) (v : Word) : WR :=
  let loc := Loc.ptPfCtl p
  let cmd := v.bits 1 0
  let mgmt := f == .mgmt
  match if mgmt then rsvCheck (locFields loc) v else formCheck (locFields loc) v with
  | some c => .error c
  | none =>
    if !s.pfCmdCheck p cmd then .error 5 else
    let s := if mgmt then s else s.writeFields loc 0 v.toNat (some p) (locFields loc)
    .ok (if cmd = 0 then s else s.pendField loc 1 0 cmd)

/-- A write of PFp_CTL with a given command. -/
def State.pfCmd (s : State) (f : Func) (p : Fin 8) (v : Word) (cmd : Nat) : State :=
  let v := v.put 1 0 cmd
  s.write f (Loc.ptPfCtl p) v fun s => s.pfCtlOp f p v

/-- PARTITION_START: PFp_CTL is written with CMD = 0b01. -/
def execPartitionStart (f : Func) (p : Fin 8) (v : Word) (s : State) : Host.Outcome State Fault Refusal :=
  .next (s.pfCmd f p v 1)

/-- PARTITION_STOP: PFp_CTL is written with CMD = 0b10. -/
def execPartitionStop (f : Func) (p : Fin 8) (v : Word) (s : State) : Host.Outcome State Fault Refusal :=
  .next (s.pfCmd f p v 2)

/-- PARTITION_RESUME: PFp_CTL is written with CMD = 0b11. -/
def execPartitionResume (f : Func) (p : Fin 8) (v : Word) (s : State) : Host.Outcome State Fault Refusal :=
  .next (s.pfCmd f p v 3)

/-! ### Staged windows and bulk loads (R30, R31) -/

/-- Selection of staging words. -/
def staging : Nat := 1048575

/-- The staged words 0 to n − 2 of a window whose word k lies at `loc k`, with the last word as written. -/
def State.staged (s : State) (loc : Nat → Loc) (n : Nat) (v : Word) : List Nat :=
  ((List.range (n - 1)).map fun k => (s.get (loc k) staging).toNat) ++ [v.toNat]

/-- Words stored at a selection of a window. -/
def State.putWords (s : State) (loc : Nat → Loc) (idx : Nat) (w : List Nat) : State :=
  w.zipIdx.foldl (fun s e => s.put (loc e.2) (BitVec.ofNat 32 e.1) idx) s

/-- A field of a selection register advanced modulo `m` when AUTOINC (bit 16) is set. -/
def State.autoInc (s : State) (sel : Loc) (hi m : Nat) : State :=
  if s.flag sel 16 then s.setFld sel hi 0 ((s.fld sel hi 0 + 1) % m) else s

/-- The checks of a write to a bulk-load register (R31, R32): reserved bits, then with GO the count, the optional limit
on FIRST + COUNT, the range of device memory, then BUSY. -/
def State.bulkCheck (s : State) (loc : Loc) (v : Word) (addr first count maxCount limit size : Nat) : Option Nat :=
  match formCheck (locFields loc) v with
  | some c => some c
  | none =>
    if v.bit 31 ∧ (count = 0 ∨ count > maxCount ∨ first + count > limit ∨ addr + count * size > memSize) then some 2
    else if s.flag loc 30 then some 6
    else none

/-- FIRST and COUNT stored, with BUSY as given (GO reads as 0). -/
def State.bulkStore (s : State) (loc : Loc) (v : Word) (busy : Bool) : State :=
  s.put loc ((v.put 31 31 0).put 30 30 (b2n busy))

/-- An address pair of a bulk load. -/
def State.addrOf (s : State) (lo : Loc) : Nat := s.get64 lo

/-- The write of an address pair's high word joined with its low word: bits [7:0] must be 0. -/
def addrPairOk (v : Nat) : Bool := v % 256 == 0

/-- The words of a load's next entry, once its line has come: nothing in them when it could not be read. An entry lies within one
line, since a load's address is a multiple of 256. -/
def BulkLoad.entry (b : BulkLoad) (size : Nat) : Option (Option (List Nat)) :=
  (b.here.filter fun h => h.1 == b.addr / 256).map fun h => h.2.map fun l =>
    (List.range (size / 4)).map fun k => leNat ((l.drop (b.addr % 256 + 4 * k)).take 4)

/-- The load after one entry: the next target, or nothing when it was the last. -/
def BulkLoad.step (b : BulkLoad) (size m : Nat) : Option BulkLoad :=
  if b.left ≤ 1 then none else some { b with next := (b.next + 1) % m, left := b.left - 1, addr := b.addr + size }

/-- The load under way at a place. -/
def State.loadOf (s : State) : LoadAt → Option BulkLoad
  | .eph n => (s.spire n).ephLoad
  | .tsk n => (s.spire n).tskLoad
  | .xmap n => (s.spire n).xmapLoad
  | .route e => (s.oculus e).routeLoad
  | .mcg e => (s.oculus e).mcgLoad
  | .win => (s.oculus 0).winLoad

def State.setLoad (s : State) (w : LoadAt) (b : Option BulkLoad) : State :=
  match w with
  | .eph n => s.modSpire n fun sp => { sp with ephLoad := b }
  | .tsk n => s.modSpire n fun sp => { sp with tskLoad := b }
  | .xmap n => s.modSpire n fun sp => { sp with xmapLoad := b }
  | .route e => s.modOculus e fun o => { o with routeLoad := b }
  | .mcg e => s.modOculus e fun o => { o with mcgLoad := b }
  | .win => s.modOculus 0 fun o => { o with winLoad := b }

/-- The station that reads a line for a load: the spire's own, or one of the oculus (R284); of the windows, which both oculi hold, one
of either. -/
def State.loadStation (s : State) (line : Nat) : LoadAt → Option Nat
  | .eph n => some (spStation n)
  | .tsk n => some (spStation n)
  | .xmap n => some (spStation n)
  | .route e => s.ocStation e line
  | .mcg e => s.ocStation e line
  | .win => (s.ocStation 0 line).or (s.ocStation 1 line)

/-- The line that a load has asked for has come, or cannot be read. -/
def State.loadArrived (s : State) (w : LoadAt) (st : Nat) (data : List Byte) : State :=
  match s.loadOf w with
  | none => s
  | some b =>
    s.setLoad w (some { b with asked := false, here := some (b.addr / 256, if st = 0 then some data else none) })

/-- A load asks for the line of its next entry, unless it has it or has asked: a LOAD travels to the gatehouse (R31, R204). -/
def State.askLoad (s : State) (w : LoadAt) : State :=
  match s.loadOf w with
  | none => s
  | some b =>
    let line := b.addr / 256
    if b.asked || (b.entry 0).isSome then s
    else if s.lineStatus line ≠ 0 then s.loadArrived w (s.lineStatus line) []
    else match s.loadStation line w with
      | none => s.loadArrived w 0x33 []
      | some a =>
        if !s.tidRoom a then s else
        let r := s.openCall a (lineStation line) (.load w) { op := 1, line := BitVec.ofNat 32 line }
        if r.2 then r.1.setLoad w (some { b with asked := true }) else s.loadArrived w 0x33 []

/-- A load begins, and asks for its first line. -/
def State.startLoad (s : State) (w : LoadAt) (b : BulkLoad) : State := (s.setLoad w (some b)).askLoad w

/-- A load goes on with its next entry, or has ended and shows no longer busy. -/
def State.loadNext (s : State) (w : LoadAt) (loc : Loc) (b : Option BulkLoad) : State :=
  match b with
  | some b => s.startLoad w b
  | none => (s.setLoad w none).setFlag loc 30 false

/-! ### The ephemeris (R30 to R33) -/

/-- A slot commit: the checks of R33, then R32. -/
def State.slotCommit (s : State) (n slot : Nat) (w : List Nat) : WR :=
  match s.slotCheck (s.spireOwner n) w with
  | some c => .error c
  | none => if s.slotLocked n slot then .error 7 else .ok (s.putWords (Loc.spEphData n) slot w)

/-- A staging word of the ephemeris window written; the last commits (R30). -/
def State.ephDataOp (s : State) (n k : Nat) (v : Word) : WR :=
  let busy := s.flag (Loc.spEphLoad n) 30
  if k < 15 then (if busy then .error 6 else .ok (s.put (Loc.spEphData n k) v staging)) else
  match s.slotCheck (s.spireOwner n) (s.staged (Loc.spEphData n) 16 v) with
  | some c => .error c
  | none =>
    if busy then .error 6 else
    match s.slotCommit n (s.fld (Loc.spEphSel n) 9 0) (s.staged (Loc.spEphData n) 16 v) with
    | .error c => .error c
    | .ok t => .ok (t.autoInc (Loc.spEphSel n) 9 1024)

/-- EPH_SEL written: rejected while a load runs (R32). -/
def State.ephSelOp (s : State) (n : Nat) (v : Word) : WR :=
  match formCheck (locFields (Loc.spEphSel n)) v with
  | some c => .error c
  | none => if s.flag (Loc.spEphLoad n) 30 then .error 6 else .ok (s.put (Loc.spEphSel n) v)

/-- EPH_COMMIT: EPH_DATA15 is written. -/
def execEphCommit (f : Func) (n : Fin 16) (v : Word) (s : State) : Host.Outcome State Fault Refusal :=
  .next (s.write f (Loc.spEphData n 15) v fun s => s.ephDataOp n 15 v)

/-- EPH_LOAD written (R31, R32): targets run from FIRST, 1,023 followed by 0. -/
def State.ephLoadOp (s : State) (f : Func) (n : Nat) (v : Word) : WR :=
  let loc := Loc.spEphLoad n
  let first := v.bits 9 0
  let count := v.bits 20 10
  let addr := s.addrOf (Loc.spEphLoadAddrLo n)
  match s.bulkCheck loc v addr first count 1024 (1024 + 1024) 64 with
  | some c => .error c
  | none =>
    if !v.bit 31 then .ok (s.bulkStore loc v false)
    else if (List.range count).any fun i => s.slotLocked n ((first + i) % 1024) then .error 7
    else .ok ((s.bulkStore loc v true).startLoad (.eph n) { next := first, left := count, addr := addr, f := f })

/-- EPH_LOAD: EPH_LOAD is written with GO = 1. -/
def execEphLoad (f : Func) (n : Fin 16) (v : Word) (s : State) : Host.Outcome State Fault Refusal :=
  let v := v.put 31 31 1
  .next (s.write f (Loc.spEphLoad n) v fun s => s.ephLoadOp f n v)

/-- EPH_LOAD_SLOT_COMMIT (R31): the next slot of a load, whose line has come, is committed whole; an entry that fails its commit
or cannot be read leaves its slot as it was. Until its line has come the load waits. -/
def execEphLoadSlotCommit (n : Fin 16) (s : State) : Host.Outcome State Fault Refusal :=
  match (s.spire n).ephLoad with
  | none => .next s
  | some b =>
    match b.entry 64 with
    | none => .next (s.askLoad (.eph n))
    | some r =>
      let t := match r with
        | none => s
        | some w => s.settle b.f (Loc.spEphLoad n) (s.slotCommit n b.next w)
      .next (t.loadNext (.eph n) (Loc.spEphLoad n) (b.step 64 1024))

/-! ### Dispatch (R34 to R39) -/

/-- SLOT_START_TIME (R34): the transit copy reaches tick + START_NS of a slot in the window. -/
def execSlotStartTime (n : Fin 16) (slot : Fin 1024) (s : State) : Host.Outcome State Fault Refusal :=
  match (s.spire n).window.find? fun e => e.slot == slot.val && !e.elig && !e.fading with
  | none => .next s
  | some e =>
    match s.waitUntil (s.clk.elapsed + s.nsTo (e.t0 + s.slotStart n slot)) with
    | none => .next s
    | some t => .next t.seqSettle

/-- A descriptor of the task store. -/
def State.descriptor (s : State) (n i : Nat) : List Nat := (List.range 8).map fun k => (s.get (Loc.spTskData n k) i).toNat

/-- The next task of an eligible slot that has descriptors to move, as its queue receives it (R37). -/
def State.nextTask (s : State) (n : Nat) (e : SlotRun) : Option QTask :=
  if e.elig && decide (e.sent < s.slotCount n e.slot) then
    let i := s.slotBase n e.slot + e.sent
    some { words := s.descriptor n i, slot := e.slot, desc := i, t0 := e.t0, frames := e.frames }
  else none

/-- The queue that a task names has room: 64 entries at a cell, 16 at the dispatch unit (R37, R86). -/
def Spire.queueRoom (sp : Spire) (q : QTask) : Bool :=
  if q.du then decide (sp.du.queue.length < 16) else decide ((sp.cell q.cell).queue.length < 64)

/-- A task at the tail of the queue that it names. -/
def Spire.enqueue (sp : Spire) (q : QTask) : Spire :=
  if q.du then { sp with du := { sp.du with queue := sp.du.queue ++ [q] } }
  else sp.modCell q.cell fun c => { c with queue := c.queue ++ [q] }

/-- The next task of a slot of the window has a place. -/
def State.canDispatch (s : State) (n : Nat) (e : SlotRun) : Bool :=
  match s.nextTask n e with
  | some q => (s.spire n).queueRoom q
  | none => false

/-- It is a slot's turn (R37): it has not had its turn in this round, or no other slot that could dispatch waits for one. -/
def State.slotTurn (s : State) (n : Nat) (e : SlotRun) : Bool :=
  !e.turn || (s.spire n).window.all fun x => x.turn || !s.canDispatch n x

/-- A descriptor of a slot has moved: its turn of this round is over; the slot's first marks the start of its cycles. -/
def SlotRun.dispatched (e : SlotRun) (cN cS : Int) : SlotRun :=
  { e with sent := e.sent + 1, turn := true, cycN := if e.sent = 0 then cN else e.cycN
           cycS := if e.sent = 0 then cS else e.cycS }

/-- The slots' turns when `e` takes one: a slot whose turn of the round is over begins the next round (R37). -/
def Spire.turns (sp : Spire) (e : SlotRun) : Spire :=
  if e.turn then { sp with window := sp.window.map fun x => { x with turn := false } } else sp

/-! ### The crossings between the regions of a spire (R78, R334 to R336) -/

/-- Cycles in which a region held an entry for a full crossing are counted, on page 0x0003 and on the spire's (R336). -/
def State.crossStall (s : State) (r k : Nat) : State :=
  let s := s.bump 0x0003 9 r k
  if r < 32 then s.bump (spPage (r / 2) 0) 9 (r % 2) k (s.spireOwner (r / 2)) else s

/-- When the entries that a crossing holds leave it, the oldest first (R334). -/
def State.crossing (s : State) (n : Nat) (south : Bool) : List Nat :=
  (if south then (s.spire n).crossS else (s.spire n).crossN).filter (s.clk.elapsed < ·)

/-- Time until a crossing has room for an entry: while it holds 8, its writer is held and its region counts stall cycles;
none while a tick comes first (R334, R336). -/
def State.crossRoom (s : State) (n : Nat) (south : Bool) : Option State :=
  match s.crossing n south with
  | t :: l =>
    if l.length < 7 then some s else
    let r := 2 * n + b2n (!south)
    (s.waitUntil t).map fun u => u.crossStall r ((u.cycles r - s.cycles r) / 80).toNat
  | [] => some s

/-- Cycles of the slower of the two regions, in ns. -/
def State.slowCycles (s : State) (n k : Nat) : Nat :=
  let m := max 1 (min (s.regN (2 * n)) (s.regN (2 * n + 1)))
  (80 * k + m - 1) / m

/-- An entry is written: it passes in 2, 3 or 4 cycles of the slower region, which of them the phase of the clocks decides
(free value), in 3 in mesh mode, and after every entry before it, at one a cycle (R78, R334, R338). The answer is the moment
at which it is through. DESIGN CHOICE: task descriptors and stolen tasks pass this FIFO; the other transfers between
domains pass whole within the command that makes them (log entry 239). -/
def State.crossWrite (s : State) (n : Nat) (south : Bool) : State × Nat :=
  let r := if s.meshOn then (3, s) else (2 + s.draw.1 % 3, s.draw.2)
  let l := s.crossing n south
  let first := s.clk.elapsed + s.slowCycles n r.1
  let t := match l.getLast? with
    | some u => max first (u + s.slowCycles n 1)
    | none => first
  (r.2.modSpire n fun sp => if south then { sp with crossS := l ++ [t] } else { sp with crossN := l ++ [t] }, t)

/-- A task of a cell in the south region, whose descriptor passes the crossing (R78). -/
def QTask.south (q : QTask) : Bool := !q.du && decide (32 ≤ q.cell)

/-- A task of a slot moves to its queue. -/
def State.dispatchOne (s : State) (n : Nat) (e : SlotRun) (q : QTask) : State :=
  let d := e.dispatched (s.cycles (2 * n)) (s.cycles (2 * n + 1))
  let r := if q.south then s.crossWrite n true else (s, 0)
  r.1.modSpire n fun sp => ((sp.turns e).setSlot d).enqueue { q with due := r.2 }

/-- DESCRIPTOR_DISPATCH (R37): the next descriptor of an eligible slot is copied into the queue it names, when that has
room and it is the slot's turn; to a south cell through the crossing, when that has room (R78, R334). -/
def execDescriptorDispatch (n : Fin 16) (slot : Fin 1024) (s : State) : Host.Outcome State Fault Refusal :=
  if (s.spire n).out != 0 then .next s else
  match (s.spire n).window.find? fun e => e.slot == slot.val && (s.nextTask n e).isSome with
  | none => .next s
  | some e =>
    match s.nextTask n e with
    | none => .next s
    | some q =>
      if (s.spire n).queueRoom q && s.slotTurn n e then
        match if q.south then s.crossRoom n true else some s with
        | some t => .next (t.dispatchOne n e q)
        | none => .next s
      else .next s

/-- A task of the slot belongs to a region of the spire (R79): 0 north, 1 south. -/
def State.slotInRegion (s : State) (n slot : Nat) (south : Bool) : Bool :=
  (List.range (s.slotCount n slot)).any fun k =>
    let q : QTask := { words := s.descriptor n (s.slotBase n slot + k) }
    q.south == south

/-- A slot's tasks in a region have taken BUDGET of the region's cycles: the event is counted, once for the slot. -/
def State.overBudget (s : State) (n : Nat) (e : SlotRun) : State :=
  (s.modSpire n fun sp => sp.setSlot { e with overB := true }).bump (spPage n 0) 5 0 1 (s.spireOwner n)

/-- SLOT_OVER_BUDGET (R39, R79): a region that holds a task of a slot has counted BUDGET cycles since the slot's dispatch
began, and the slot has not finished. -/
def execSlotOverBudget (n : Fin 16) (slot : Fin 1024) (south : Bool) (s : State) : Host.Outcome State Fault Refusal :=
  match (s.spire n).window.find? fun e => e.slot == slot.val && decide (0 < e.sent) && !e.overB with
  | none => .next s
  | some e =>
    if !s.slotInRegion n slot south then .next s else
    match s.waitCycles (2 * n + b2n south) ((if south then e.cycS else e.cycN) + inCycles (s.slotBudget n slot)) with
    | none => .next s
    | some t => .next (t.overBudget n e)

/-- SLOT_LATE (R43): a slot of the running programme has not finished when the transit count reaches its deadline. -/
def execSlotLate (n : Fin 16) (slot : Fin 1024) (s : State) : Host.Outcome State Fault Refusal :=
  match (s.spire n).run with
  | none => .next s
  | some r =>
    if !s.slotOpen n r slot || r.lates.contains slot.val || !s.mayRun n then .next s else
    match s.waitUntil (s.clk.elapsed + s.nsTo (s.deadlineAt n slot)) with
    | none => .next s
    | some t => .next (t.raiseLate n slot)

end Sys2Proof.Machine
end

