-- ==== Sys2Proof/Machine/TaskOps.lean ====
section
/-! DEFINITION. Retiring tasks, task errors, cell failure, the sending of messages, the dispatch unit's progress
(R64 to R92, R441). -/

namespace Sys2Proof.Machine

/-! ### Tickets and retirement (R65, R66, R92) -/

/-- A ticket await is satisfied or absent (R66). -/
def State.ticketOk (s : State) (n : Nat) (q : QTask) : Bool :=
  !q.wtEn || decide ((s.fld (Loc.spTicket n q.wt) 15 0 + 65536 - q.wtThresh) % 65536 < 32768)

/-- Error class of a cause (code 0x20 + cause of the error table). -/
def causeClass (cause : Nat) : Nat := if cause = 2 ∨ cause = 3 ∨ cause = 7 then 1 else 2

/-- A task error: SEQ_ERR when it is not valid, and the error queue (R92). `unit` is the cell, or 64 for the dispatch
unit. -/
def State.taskError (s : State) (n unit : Nat) (a : ATask) : State :=
  let where_ := a.q.slot + a.q.desc * 1024
  let s := if s.flag (Loc.spSeqErrHi n) 31 then s else
    (s.put (Loc.spSeqErrLo n) (BitVec.ofNat 32 (where_ + (if unit = 64 then 2 ^ 30 else unit * 2 ^ 24)))).put
      (Loc.spSeqErrHi n) (BitVec.ofNat 32 (a.cause + 2 ^ 31))
  s.post (spPage n 0) (causeClass a.cause) (0x20 + a.cause) unit (where_ + a.status * 2 ^ 24)

/-- A task retires: ticket, error, its slot's count (R38, R65, R92). -/
def State.retire (s : State) (n unit : Nat) (a : ATask) : State :=
  let q := a.q
  let s := s.bump (spPage n 0) 2 unit 1 (s.spireOwner n)
  let s := if q.stEn then s.addWrap (Loc.spTicket n q.st) 15 0 1 else s
  let s := if a.cause = 0 then s else s.taskError n unit a
  s.modSpire n fun sp => { sp with window := sp.window.map fun e =>
    if e.slot = q.slot ∧ e.t0 = q.t0 then { e with retired := e.retired + 1, err := e.err || a.cause != 0 } else e }

/-- A task that never ran, or whose unit is gone, retires with cause 0x06. -/
def State.retireLost (s : State) (n unit : Nat) (q : QTask) : State :=
  s.retire n unit { q := q, done := true, cause := 6 }

/-- A transaction of the task at a cell. -/
def Caller.ofCell (w : Caller) (n c : Nat) : Bool :=
  match w with
  | .line m d _ => m == n && d == c
  | _ => false

/-- Every running and queued task of a cell retires with cause 0x06; its relay buffers are lost. -/
def State.cellTasksOut (s : State) (n c : Nat) : State :=
  let x := s.cell n c
  let l := (x.m.toList ++ x.v.toList ++ x.x.toList).map (·.q) ++ x.queue
  let s := s.forgetCalls fun r => r.who.ofCell n c
  let s := s.modCell n c fun x =>
    { x with queue := [], m := none, v := none, x := none, inW := [], inN := [], takeW := [], takeN := [],
             outE := [], outS := [] }
  l.foldl (fun s q => s.retireLost n c q) s

/-- A cell fails in service (R77): logged once, its tasks retire, the map stays. -/
def State.failCell (s : State) (n c : Nat) : State :=
  if (s.cell n c).failed then s else
  let x := s.cell n c
  let busy := x.m.isSome || x.v.isSome || x.x.isSome || !x.queue.isEmpty
  let s := (s.modCell n c fun x => { x with failed := true }).cellTasksOut n c
  if busy then s else s.post (spPage n 0) 2 0x26 c 0

/-- Every task of a spire that leaves service retires with cause 0x06 (R92, R441). -/
def State.spireTasksOut (s : State) (n : Nat) : State :=
  let s := (List.range 64).foldl (fun s c => s.cellTasksOut n c) s
  let du := (s.spire n).du
  let l := (du.cur.toList.map (·.a.q)) ++ du.queue
  let fl := (s.spire n).flight
  let s := (s.forgetCalls fun r => r.st == spStation n).modSpire n fun sp => { sp with du := {}, flight := [], msgs := [] }
  let s := l.foldl (fun s q => s.retireLost n 64 q) s
  fl.foldl (fun s f => s.retireLost n f.thief f.q) s

/-! ### Arithmetic flags (R121, R125) -/

/-- Flags of ARITH_STS set and events counted. -/
def State.arithEv (s : State) (n c : Nat) (e : AEv) : State :=
  ([e.ovf, e.nan, e.sat, e.cnan, e.mism].zipIdx).foldl (fun s x =>
    if x.1 = 0 then s else
    (s.setFlag (Loc.spArithSts n) x.2 true).bump (spPage n 0) (0xA + x.2) c x.1 (s.spireOwner n)) s

/-! ### Transactions of a die inside the device (R204, R439) -/

/-- What a transaction of a spire's die for a station meets at once: a fenced plinth, a plinth in reset, no path. -/
def State.dieStatus (s : State) (n dst : Nat) : Nat :=
  if (s.plinth (stPlinth dst)).out = 2 then 0x22 else s.pathStatus (spStation n) dst

/-! ### Sending messages (R85, R206) -/

/-- A free number for a message of a spire: the next that no message in progress has. -/
def Spire.freeMsg (sp : Spire) : Nat :=
  match (List.range (sp.msgs.length + 1)).find? fun i => !sp.msgs.any fun m => m.id == (sp.msgId + i) % 65536 with
  | some i => (sp.msgId + i) % 65536
  | none => sp.msgId

/-- The fabric packet of a part or tally (Table FT-7). -/
def partPkt (dev spire : Nat) (tally : Bool) (count : Nat) (p : MsgPart) : Pkt :=
  if tally then
    { op := 8, dstDev := BitVec.ofNat 16 dev, srcAgent := BitVec.ofNat 6 (spStation p.srcSpire), unit := BitVec.ofNat 4 spire,
      jobTag := p.jobTag, addr := BitVec.ofNat 48 p.zone.toNat, opt := BitVec.ofNat 24 (count % 65536) }
  else
    { op := 7, dstDev := BitVec.ofNat 16 dev, srcAgent := BitVec.ofNat 6 (spStation p.srcSpire), unit := BitVec.ofNat 4 spire,
      jobTag := p.jobTag, len := 255, nflit := 4, data := p.data,
      addr := BitVec.ofNat 48 (p.zone.toNat + p.index.toNat * 2 ^ 8 + p.part * 2 ^ 28 + p.partsM1 * 2 ^ 36 +
        p.ksel.toNat * 2 ^ 44),
      opt := BitVec.ofNat 24 (p.rzone.toNat + p.token.toNat * 2 ^ 8) }

/-- A part for this device by its own ID is checked at its oculus and goes to the spire that it names (R285); without an identifier
for it, it is answered RETRY. -/
def State.partHere (s : State) (n id seq part : Nat) (k : Pkt) : State :=
  match s.checkReq (seq / 32768 % 2) k with
  | .fail t st => t.partAnswer n id part st seq
  | .pass t _ _ => t.partAnswer n id part 0x10 seq
  | .land t k =>
    match t.letIn (seq / 32768 % 2) k 0 (some seq) with
    | none => t.partAnswer n id part 6 seq
    | some (u, none) => u
    | some (u, some st) => u.partAnswer n id part st seq

/-- One part of a fabric message given to its oculus; one that names this device stays here. -/
def State.sendPart (s : State) (n id seq dev spire : Nat) (tally : Bool) (count : Nat) (p : MsgPart) : State :=
  let e := seq / 32768 % 2
  let k := { partPkt dev spire tally count p with seq := BitVec.ofNat 16 seq, srcDev := BitVec.ofNat 16 s.ownDev }
  if s.isOwn dev then s.partHere n id seq p.part k
  else
    let r := s.sendReq e k
    if r.2 = 0 then r.1 else r.1.partAnswer n id p.part r.2 seq

/-- One part of a message inside the device: it travels, or completes at once without a path (R219, R441). A part for the
sender's own spire crosses no link: it waits for its arrival at the landing engine. -/
def State.sendInside (s : State) (n id dst part : Nat) : State :=
  let die := s.dieStatus n (spStation dst)
  let st := if die ≠ 0x34 ∧ s.stationOut (spStation dst) then 0x22 else die
  if st ≠ 0 then s.msgAnswer n id part st
  else if dst = n then s else
  match (s.spire n).msg id with
  | none => s
  | some m =>
    match m.parts.find? fun p => p.part == part with
    | none => s
    | some p =>
      if !s.tidRoom (spStation n) then s.msgAnswer n id part 6 else
      let r := s.openCall (spStation n) (spStation dst) (.part n id part) (msgHdr p dst (m.kind == 3) m.count)
      if r.2 then r.1 else s.msgAnswer n id part 0x33

/-- A message enters the device's network or the fabric; nothing while the oculi hold the dies back (R284). The sender's
unit keeps its number through `own`. -/
def State.sendMsg (s : State) (n : Nat) (m : OutMsg) (own : State → Nat → State) : Option State :=
  let id := (s.spire n).freeMsg
  let ps : List MsgPart := m.parts.map fun p => { p with msgId := BitVec.ofNat 16 id }
  let m : OutMsg := { m with id := id, sent := s.clk.elapsed, parts := ps }
  let enter (s : State) (m : OutMsg) : State :=
    own (s.modSpire n fun sp => { sp with msgs := sp.msgs ++ [m], msgId := (id + 1) % 65536 }) id
  match m.dev with
  | none => some (m.parts.foldl (fun s p => s.sendInside n id m.dst p.part) (enter s m))
  | some dev =>
    let c := s.nextLine n (65536 + dev)
    let s := m.parts.drop 1 |>.foldl (fun s _ => (s.nextLine n (65536 + dev)).2) c.2
    match s.issueOculus c.1 with
    | none => some (m.parts.foldl (fun s p => s.msgAnswer n id p.part 0x33) (enter s m))
    | some e =>
      if (s.oculus e).txns.length ≥ 32768 then none else
      match s.freeSeq e with
      | none => none
      | some i =>
      let seq := i + 32768 * e
      let m := { m with seq := seq }
      let s := (enter s m).openTxn seq { op := 7, dstDev := BitVec.ofNat 16 dev, seq := BitVec.ofNat 16 seq } (.msg n id)
      some (m.parts.foldl (fun s p => s.sendPart n id seq dev m.dst (m.kind == 3) m.count p) s)

/-! ### The dispatch unit (R86 to R91) -/

/-- An expert map entry (Table SP-10). -/
def xdev (w : Nat) : Nat := bitsOf w 15 0
def xspire (w : Nat) : Nat := bitsOf w 19 16
def xlocal (w : Nat) : Bool := bitOf w 20
def xzone (w : Nat) : Nat := bitsOf w 28 21
def xvalid (w : Nat) : Bool := bitOf w 31

/-- Outstanding messages of the dispatch unit (R91). -/
def Spire.duOut (sp : Spire) : Nat := (sp.msgs.filter fun m => m.kind != 0).length

/-- A row of the source or result zone read: its lines, or nothing when one is uncorrectable. -/
def State.zoneRow (s : State) (n : Nat) (z : Zone) (i : Nat) : State × Option (List (List Byte)) :=
  (List.range z.rows).foldl (fun (r : State × Option (List (List Byte))) k =>
    let p := z.place i k
    let q := r.1.wellRead n p.1 (p.2 * 256) 256
    match r.2, q.2 with
    | some l, some b => (q.1, some (l ++ [b]))
    | _, _ => (q.1, none)) (s, some [])

/-- A dropped choice (R88): RET_ZONE's slot, the count and the event. -/
def State.duDrop (s : State) (n retZone : Nat) : State :=
  let z := zoneOf (s.zoneWords n retZone)
  let s := if z.csEn then s.incr z.tag z.cslot 1 (.spire n) else s
  (s.addWrap (Loc.spDuDrops n) 31 0 1).bump (spPage n 0) 7 0 1 (s.spireOwner n)

/-- The message of an item of the dispatch unit, without its number. -/
def duMessage (s : State) (n : Nat) (t : DuTask) (it : DuItem) (lines : List (List Byte)) : OutMsg :=
  let z := zoneOf t.src
  let own : MsgPart := { srcDev := BitVec.ofNat 16 s.ownDev, srcSpire := Fin.ofNat 16 n, inside := true,
                         jobTag := BitVec.ofNat 12 z.tag, partsM1 := lines.length - 1 }
  if it.kind = 2 then
    let dev := bitsOf it.word 15 0
    let p : MsgPart := { own with token := BitVec.ofNat 16 (bitsOf it.word 35 20), ksel := BitVec.ofNat 3 (bitsOf it.word 38 36),
                                  zone := BitVec.ofNat 8 (bitsOf it.word 46 39), index := 0xFFFFE }
    { kind := 2, cell := 64, dev := if dev = s.ownDev then none else some dev, dst := bitsOf it.word 19 16,
      n := lines.length, parts := lines.zipIdx.map fun l => { p with part := l.2, data := l.1 } }
  else
    let dev := if xlocal it.word then none else some (xdev it.word)
    let ret := bitsOf t.a.q.ext0 15 8
    let p : MsgPart := { own with zone := BitVec.ofNat 8 (xzone it.word), index := 0xFFFFF }
    if it.kind = 3 then
      { kind := 3, cell := 64, dev := dev, dst := xspire it.word, n := 1, count := it.count, parts := [p] }
    else
      let p := { p with token := BitVec.ofNat 16 it.entry, ksel := BitVec.ofNat 3 it.choice, rzone := BitVec.ofNat 8 ret }
      { kind := 1, cell := 64, dev := dev, dst := xspire it.word, n := lines.length, txt := it.txt, choice := it.choice,
        retZone := ret, count := it.word, parts := lines.zipIdx.map fun l => { p with part := l.2, data := l.1 } }

/-- The next message of the dispatch unit's task sent; nothing when it must wait. -/
def State.duSend (s : State) (n : Nat) (t : DuTask) (it : DuItem) : Option State :=
  let s := s.modSpire n fun sp => { sp with du := { sp.du with cur := some { t with items := t.items.drop 1 } } }
  if it.kind = 3 then s.sendMsg n (duMessage s n t it []) fun s _ => s else
  let r := s.zoneRow n (zoneOf t.src) it.entry
  match r.2 with
  | some lines => r.1.sendMsg n (duMessage s n t it lines) fun s _ => s
  | none =>
    let m := { duMessage s n t it [[]] with n := 1, got := [(0, 0x20)] }
    if it.kind = 2 then some (r.1.rowRefusedLog n m 0x20)
    else
      let id := (r.1.spire n).freeMsg
      some (r.1.modSpire n fun sp => { sp with msgs := sp.msgs ++ [{ m with id := id }], msgId := (id + 1) % 65536 })

/-- The dispatch unit sends while it has items and fewer than 64 messages outstanding (R91). -/
def State.duPumpN (s : State) (n : Nat) : Nat → State
  | 0 => s
  | f + 1 =>
    match (s.spire n).du.cur with
    | none => s
    | some t =>
      match t.items with
      | [] => s
      | it :: _ =>
        if (s.spire n).duOut ≥ 64 then s else
        match s.duSend n t it with
        | none => s
        | some s => s.duPumpN n f

/-- Everything that the dispatch unit of a spire can send now. -/
def State.duPump (s : State) (n : Nat) : State :=
  match (s.spire n).du.cur with
  | none => s
  | some t => if (s.spire n).out != 0 then s else s.duPumpN n (t.items.length + 1)

/-- The dispatch units and the sequencers act on what has changed. -/
def State.settleAll (s : State) : State := ((List.range 16).foldl (fun s n => s.duPump n) s).seqSettle

end Sys2Proof.Machine
end

