-- ==== Sys2Proof/Machine/Transport.lean ====
section
/-! DEFINITION. Commands of the fibre ports, routes, groups, the ring bypass and congestion maps (R261 to R300). -/

namespace Sys2Proof.Machine

/-! ### Ports (R268, R269, R273) -/

/-- Fields of PORT_CTL of a port. -/
def State.portCtl (s : State) (p hi lo : Nat) : Nat := s.fld (Loc.ocPortCtl (p / 16)) hi lo (p % 16)

/-- The oculus of a port is in service. -/
def State.portLive (s : State) (p : Nat) : Bool := (s.oculus (p / 16)).out == 0

/-- LIGHT_DETECT (R273): a port that is enabled sees light on all 8 lanes and locks its rings. -/
def execLightDetect (port : Fin 32) (s : State) : Host.Outcome State Fault Refusal :=
  let p := port.val
  if s.portState p ≠ 0 ∨ s.portCtl p 0 0 = 0 ∨ !s.portLive p ∨ s.portCut p then .next s else
  let s := s.setFld (Loc.ocPortSts (p / 16)) 10 3 0xFF (p % 16)
  .next ((s.setPortState p 1).modPort p fun x => { x with train := { since := s.clk.elapsed } })

/-- Code-word lock is gained (R268); a link that was up goes on. -/
def State.lockGained (s : State) (p : Nat) : State :=
  let s := s.modPort p fun x => { x with locked := true }
  if s.portState p = 1 then s.setPortState p 2 else if s.portState p = 4 then s.pump p else s

/-- Code-word lock is lost (R268); training begins again from light. -/
def State.lockLost (s : State) (p : Nat) : State :=
  let now := s.clk.elapsed
  let s := s.modPort p fun x => { x with locked := false, lostAt := now, part := none }
  if s.portState p = 2 ∨ s.portState p = 3 then s.portDown p 1 else s.stallMark p

/-- The contents of a training flit that must not change between flits: everything but the times. -/
def steady (t : TrainFlit) : TrainFlit := { t with txTime := 0, echoTime := 0, holdNs := 0 }

/-- PORT_PEER of a training flit. -/
def peerWord (t : TrainFlit) : Word :=
  BitVec.ofNat 32 (t.dev.toNat + t.port.toNat % 32 * 2 ^ 16 + b2n t.ack * 2 ^ 21 + b2n t.mgr * 2 ^ 22 + b2n t.switch * 2 ^ 23 +
    b2n t.idValid * 2 ^ 24)

/-- The link comes up (R273): the partner's pools are the credits, numbers start at 0, the scrambler at all ones (R267); bundles
that waited in the retry buffer leave anew under the new credits. -/
def State.linkUp (s : State) (p rtt : Nat) (t : TrainFlit) : State :=
  let e := p / 16
  let i := p % 16
  let old := s.get (Loc.ocPortPeer e) i
  let s := s.samplePort p
  let s := if old ≠ 0 ∧ old.bits 15 0 ≠ t.dev.toNat then s.post (ocPage e 1) 0 0x82 i t.dev.toNat else s
  let s := (s.put (Loc.ocPortPeer e) (peerWord t) i).put (Loc.ocPortRtt e) (BitVec.ofNat 32 (min rtt 65535)) i
  let s := s.setPortState p 4
  let pools := s.poolSizes e
  let s := s.modPort p fun x =>
    { x with
      rxScr := 2 ^ 31 - 1
      part := none
      expect := 0
      any := false
      skip := false
      nak := false
      pools := pools
      credit := (List.range 11).map (fun k => t.res.getD k 0) ++ [t.shared]
      q := x.retry.flatMap (fun (b : Sent) => b.pkts) ++ x.q
      held := x.held.map fun h => (h.1, 12)
      freed := List.replicate 12 0
      returned := List.replicate 12 0
      next := 0
      retry := []
      again := []
      resent := 0
      tooMany := false
      ackAt := s.clk.elapsed
      train := {} }
  (s.showPorts e).pump p

/-- Training fails: the port waits for its retry (R273). -/
def State.trainFails (s : State) (p : Nat) : State :=
  let now := s.clk.elapsed
  (s.portDown p (if (s.port p).locked then 2 else 1)).modPort p fun x => { x with train := { x.train with failed := some now } }

/-- What a training flit adds to a port's training: flits with ACK and the same contents in a row, their round trips; the first
one makes the port set ACK in its own. -/
def Train.heard (x : Train) (t : TrainFlit) (rt now : Nat) : Train :=
  let same := match x.last with | some l => l == steady t | none => true
  let acked := some (x.acked.getD now)
  if !t.ack then { since := x.since, last := some (steady t), acked := acked }
  else { x with run := if same then x.run + 1 else 1, rtt := if same then x.rtt + rt else rt, last := some (steady t),
                acked := acked }

/-- A training flit arrives (R273): the 16th in a row with ACK and steady contents brings the link up once 16 of the port's own
have left, which takes 10.24 ns from its first ACK, if the round trip is at most 10 µs. -/
def State.trainFlit (s : State) (p : Nat) (t : TrainFlit) : State :=
  if (s.port p).train.failed.isSome then s else
  let s := s.setPortState p 3
  let rt := (s.clk.count + 2 ^ 33 - t.echoTime.toNat - t.holdNs.toNat) % 2 ^ 32
  let tr := (s.port p).train.heard t rt s.clk.elapsed
  let s := s.modPort p fun y => { y with train := tr }
  if tr.run < 16 then s
  else if tr.rtt / tr.run > 10000 then s.trainFails p
  else match s.waitUntil (tr.acked.getD 0 + 11) with
    | some s => s.linkUp p (tr.rtt / tr.run) t
    | none => s

/-- PORT_TRAIN_RETRY (R273): training that has taken 1 s fails; failed training begins again after 100 ms. -/
def execPortTrainRetry (port : Fin 32) (s : State) : Host.Outcome State Fault Refusal :=
  let p := port.val
  let st := s.portState p
  if st = 0 ∨ st ≥ 4 ∨ s.portCtl p 0 0 = 0 then .next s else
  match (s.port p).train.failed with
  | none =>
    match s.waitUntil ((s.port p).train.since + 1000000000) with
    | none => .next s
    | some s => .next (s.trainFails p)
  | some t =>
    match s.waitUntil (t + 100000000) with
    | none => .next s
    | some s => .next (s.portDown p (if (s.port p).locked then 2 else 1))

/-! ### Bundles (R209, R210, R270 to R276) -/

/-- The sequence distance `a - b` of 12-bit numbers. -/
def seqDist (a b : Nat) : Nat := (a + 4096 - b) % 4096

/-- Bundles acknowledged leave the retry buffer; progress restarts the timer. -/
def State.ackTo (s : State) (p ack : Nat) : State :=
  let x := s.port p
  let left := x.retry.dropWhile fun b => decide (seqDist ack b.seq < 2048)
  if left.length = x.retry.length then s
  else s.modPort p fun x =>
    { x with retry := left, again := x.again.filter fun b => left.any fun y => y.seq == b.seq, resent := 0, ackAt := s.clk.elapsed }

/-- Every bundle of the retry buffer is due to be sent again, in order, as its credits allow (R210, R276); resends without lock do
not count (R274). -/
def State.resendAll (s : State) (p : Nat) : State :=
  let x := s.port p
  if x.retry.isEmpty then s else
  let s := s.modPort p fun y =>
    { y with again := y.retry, ackAt := s.clk.elapsed, resent := if x.locked then y.resent + 1 else y.resent }
  if x.locked ∧ x.resent + 1 ≥ s.portCtl p 20 16 then s.failPort p 1 else s

/-- The link word of a good head or idle flit: acknowledgement, NAK, credits (Table FT-2). -/
def State.linkWord (s : State) (p : Nat) (b : FBundle) : State :=
  let s := s.ackTo p b.ackSeq
  let s := if b.cpool ≤ 11 then s.modPort p fun x => { x with credit := lmod x.credit b.cpool fun c => c + 8 * b.credit } else s
  let s := if b.nak then s.resendAll p else s
  s.pump p

/-- A packet of a pool class for another device is sent on, or ends here (R286 to R289). -/
def State.passOn (s : State) (e cls : Nat) (k : Pkt) : State :=
  if k.hops.toNat ≥ 5 then
    let s := s.ocEvent e 9 0 1
    if cls = 0 then s.sendOrDrop e { compFor s k 0x31 [] with hops := 0 } else s
  else match s.tryForward e k with
    | some t => t
    | none => if cls = 0 then (s.ocEvent e 0xA 0 1).sendOrDrop e { compFor s k 0x30 [] with hops := 0 } else s.ocEvent e 0xB 0 1

/-- A packet that arrived: for this device it waits for its command; others are sent on (R285 to R289). -/
def State.arrive (s : State) (p : Nat) (sh : Bool) (k : Pkt) : State :=
  let e := p / 16
  match opClass k.op.toNat with
  | none => (s.ocEvent e 0xB (p % 16) 1).freeFlits p (if sh then 11 else pktPool k) (pktData k)
  | some cls =>
    let pool := if sh then 11 else pktPool k
    if s.isOwn k.dstDev.toNat then s.modPort p fun x => { x with held := x.held ++ [(k, pool)] }
    else (s.passOn e cls k).freeFlits p pool (pktData k)

/-- A unit is discarded for its CRC or for an uncorrectable code word: the receiver asks for a resend and discards all until the
bundle expected (R209, R274). -/
def State.badFabric (s : State) (p : Nat) : State := s.modPort p fun x => { x with skip := true, nak := true }

/-- A bundle that is discarded returns its credits: its head and data flits are free again (R209). -/
def State.discardBundle (s : State) (p : Nat) (b : FBundle) : State :=
  if b.pkts.isEmpty then s
  else s.freeFlits p (if b.sh then 11 else pktPool (b.pkts.headD {})) (1 + (b.pkts.map pktData).sum)

/-- A bundle, idle flit or training flit of a link that is up was read (R209, R271, R274). A bundle up to 2,048 below the expected
one is a duplicate; another one out of sequence leaves a gap. -/
def State.takeFabric (s : State) (p : Nat) (b : FBundle) : State :=
  let e := p / 16
  let i := p % 16
  if !b.good || b.kind == 3 || (b.kind == 1 && b.pkts.isEmpty) then
    (((s.addWrap (Loc.ocPortCrc e) 31 0 1 i).ocEvent e 5 i 1).badFabric p).discardBundle p b
  else if b.kind = 2 then s
  else
    let s := s.linkWord p b
    let x := s.port p
    if b.kind = 0 then s
    else if b.seq = x.expect then
      let s := s.modPort p fun x => { x with expect := (x.expect + 1) % 4096, any := true, skip := false, nak := false }
      let s := b.pkts.foldl (fun s k => s.arrive p b.sh k) s
      s.freeFlits p (if b.sh then 11 else pktPool (b.pkts.headD {})) 1
    else if x.skip then s.discardBundle p b
    else if 1 ≤ seqDist x.expect b.seq ∧ seqDist x.expect b.seq ≤ 2048 then
      (s.modPort p fun x => { x with nak := false }).discardBundle p b
    else (s.modPort p fun x => { x with nak := true }).discardBundle p b

/-- A bundle of which an uncorrectable code word spoiled a part: what its head says of it is known when that had arrived. -/
def spoiledBundle (u : FUnit) : FBundle := readFabric u.v (unitLen (u.v % 2 ^ 512))

/-- A unit has arrived at a port with lock: of a link that is up, or a training flit of one that trains, which ends the row of
training flits when it is spoiled or something else (R273). Flits of bundles are counted, as those sent are (R296; DEDUCED, log entry
236). The credits of bundles whose heads an uncorrectable code word held are not returned (DESIGN CHOICE, log entry 237). -/
def State.unitIn (s : State) (p : Nat) (u : FUnit) : State :=
  let e := p / 16
  let i := p % 16
  if s.portState p = 4 then
    if u.spoiled then (s.badFabric p).discardBundle p (spoiledBundle u) else
    let n := if u.v % 4 = 1 then u.n else 0
    let rx := (s.get64 (Loc.ocRxFlitsLo e) i + n) % 2 ^ 48
    ((s.put64 (Loc.ocRxFlitsLo e) rx i).ocEvent e 3 i n).takeFabric p (readFabric u.v u.n)
  else if !u.spoiled && u.v % 4 == 2 && (readFabric u.v 1).good then s.trainFlit p (trainOf u.v)
  else s.modPort p fun x => { x with train := { x.train with run := 0 } }

/-- The counts that a code word adds: symbols corrected, or one uncorrectable word (R296). -/
def State.wordCount (s : State) (p : Nat) (n : Option Nat) : State :=
  let e := p / 16
  let i := p % 16
  match n with
  | none => (s.addWrap (Loc.ocPortUnc e) 31 0 1 i).ocEvent e 7 i 1
  | some n => if n = 0 then s else (s.addWrap (Loc.ocPortCorr e) 31 0 n i).ocEvent e 6 i n

/-- A code word arrives at a port that has light (R264 to R268): four decoded in a row gain lock, eight uncorrectable ones lose
it, and with lock its units are taken. -/
def State.wordIn (s : State) (p : Nat) (w : BitVec 5440) : State :=
  let st := s.portState p
  if st = 0 ∨ st = 5 ∨ !s.portLive p ∨ s.portCut p then s else
  let locked := (s.port p).locked
  let h := (s.port p).hear (st ≠ 4) w.toNat
  let s := (s.modPort p fun _ => h.1).wordCount p h.2.1
  if locked then
    if 8 ≤ h.1.badRun then s.lockLost p else h.2.2.foldl (fun s u => s.unitIn p u) s
  else if 4 ≤ h.1.okRun then s.lockGained p
  else s

/-- Code words arrive one after the other. The scrambling sequence goes on with every word that a command gives (DESIGN CHOICE,
log entry 197). -/
def State.wordsIn (s : State) (p : Nat) (words : List (BitVec 5440)) : State := words.foldl (fun s w => s.wordIn p w) s

/-- CODEWORD_LOCK_GAIN (R268): code words arrive at a port without lock. -/
def execCodewordLockGain (w : PortWords) (s : State) : Host.Outcome State Fault Refusal :=
  if (s.port w.port).locked then .next s else .next ((s.wordsIn w.port w.words).settleAll)

/-- CODEWORD_LOCK_LOSS (R268): code words arrive at a port with lock. -/
def execCodewordLockLoss (w : PortWords) (s : State) : Host.Outcome State Fault Refusal :=
  if !(s.port w.port).locked then .next s else .next ((s.wordsIn w.port w.words).settleAll)

/-- TRAINING_FLIT_RECEIVE (R272, R273): code words with training flits arrive at a port that trains. -/
def execTrainingFlitReceive (port : Fin 32) (words : List (BitVec 5440)) (s : State) : Host.Outcome State Fault Refusal :=
  if s.portState port = 2 ∨ s.portState port = 3 then .next ((s.wordsIn port words).settleAll) else .next s

/-- FABRIC_BUNDLE_RECEIVE (R264 to R274): code words with bundles arrive at a port that is up. -/
def execFabricBundleReceive (port : Fin 32) (words : List (BitVec 5440)) (s : State) : Host.Outcome State Fault Refusal :=
  if s.portState port = 4 then .next ((s.wordsIn port words).settleAll) else .next s

/-- FABRIC_IDLE_FLIT (R270): code words with idle flits, which bring acknowledgements and credits, arrive at a port that is up. -/
def execFabricIdleFlit (port : Fin 32) (words : List (BitVec 5440)) (s : State) : Host.Outcome State Fault Refusal :=
  if s.portState port ≠ 4 then .next s else .next ((s.wordsIn port words).settleAll)

/-- FABRIC_RETRY_TIMEOUT (R210, R274): no progress for RETRY_TMO; the sender resends from the oldest. -/
def execFabricRetryTimeout (port : Fin 32) (s : State) : Host.Outcome State Fault Refusal :=
  let p := port.val
  if s.portState p ≠ 4 ∨ (s.port p).retry.isEmpty then .next s else
  match s.waitUntil ((s.port p).ackAt + 100 * s.portCtl p 28 21) with
  | none => .next s
  | some s => .next (((s.resendAll p).pump p).settleAll)

/-- What a window with so many corrected symbols asks for (R269): a record at a crossing, a retrain, or the failure of a port that
needs a second retrain within 1 s. -/
def State.errorRate (s : State) (p symbols : Nat) : State :=
  let e := p / 16
  let s := if symbols ≥ 8500 ∧ !(s.port p).crossed then s.post (ocPage e 1) 0 0x80 (p % 16) symbols else s
  let s := s.modPort p fun x => { x with crossed := decide (symbols ≥ 8500) }
  if symbols < 85000 ∨ s.portState p ≠ 4 then s else
  let again := match (s.port p).retrained with | some t => decide (s.clk.elapsed < t + 1000000000) | none => false
  if again then (s.modPort p fun x => { x with tooMany := true }).failPort p 2
  else ((s.portDown p 3).showPorts e).modPort p fun x => { x with retrained := some s.clk.elapsed }

/-- SYMBOL_ERROR_WINDOW (R269): a 1 ms window of corrected symbols ends with the last code words in it. -/
def execSymbolErrorWindow (port : Fin 32) (words : List (BitVec 5440)) (s : State) : Host.Outcome State Fault Refusal :=
  match s.waitUntil ((s.port port).winAt + 1000000) with
  | none => .next s
  | some s =>
    let s := s.wordsIn port words
    let n := (s.port port).syms
    let now := s.clk.elapsed
    .next (((s.modPort port fun x => { x with syms := 0, winAt := now }).errorRate port n).settleAll)

/-- PORT_FAIL (R274): a link fails for loss of lock longer than LOCK_LOSS_US, for RETRY_MAX resends in a row or for its error
rate. -/
def execPortFail (port : Fin 32) (cause : Fin 3) (s : State) : Host.Outcome State Fault Refusal :=
  let p := port.val
  if s.portState p ≠ 4 then .next s
  else if cause.val = 0 then
    if (s.port p).locked then .next s else
    match s.waitUntil ((s.port p).lostAt + 1000 * s.portCtl p 15 8 + 1) with
    | none => .next s
    | some s => .next ((s.failPort p 0).settleAll)
  else if cause.val = 1 then
    if (s.port p).resent < s.portCtl p 20 16 then .next s else .next ((s.failPort p 1).settleAll)
  else if (s.port p).tooMany then .next ((s.failPort p 2).settleAll)
  else .next s

/-! ### Recovery of a failed port (R291) -/

/-- A packet that waited in an input buffer is taken up: its flits are free again. -/
def State.takeHeld (s : State) (k : Pkt) : State :=
  match (List.range 32).find? fun p => (s.port p).held.any fun h => h.1 == k with
  | some p =>
    let h := ((s.port p).held.find? fun h => h.1 == k).getD (k, 12)
    (s.modPort p fun x =>
      { x with held := x.held.takeWhile (fun h => h.1 != k) ++ (x.held.dropWhile fun h => h.1 != k).drop 1 }).freeFlits p
        h.2 (pktData k)
  | none => s

/-- Oculus at which a packet that this device answers is handled: that of the port it waits at, else East. -/
def State.heldAt (s : State) (k : Pkt) : Nat :=
  match (List.range 32).find? fun p => (s.port p).held.any fun h => h.1 == k with
  | some p => p / 16
  | none => 0

/-- FLINK_QUERY (R291): answered with the last SEQ that this end of the link delivered. -/
def execFlinkQuery (k : Pkt) (s : State) : Host.Outcome State Fault Refusal :=
  let e := s.heldAt k
  let s := s.takeHeld k
  let far := k.opt.toNat % 32
  match (List.range 32).find? fun p =>
      let w := s.get (Loc.ocPortPeer (p / 16)) (p % 16)
      w.bits 15 0 == k.srcDev.toNat && w.bits 20 16 == far && w != 0 with
  | none => .next s
  | some p =>
    let x := s.port p
    let last := if x.any then (x.expect + 4095) % 4096 else 4095
    .next ((s.sendOrDrop e { op := 0x2C, dstDev := k.srcDev, srcDev := BitVec.ofNat 16 s.ownDev, seq := k.seq,
                             opt := BitVec.ofNat 24 (far + last * 32) }).settleAll)

/-- FLINK_REPLY (R291): bundles up to the last delivered are dropped, the rest routed afresh. -/
def execFlinkReply (k : Pkt) (s : State) : Host.Outcome State Fault Refusal :=
  let s := s.takeHeld k
  let p := k.opt.toNat % 32
  let last := bitsOf k.opt.toNat 16 5
  if (s.port p).askedAt.isNone then .next s else
  let rest := (s.port p).asked.dropWhile fun b => decide (seqDist last b.seq < 2048)
  let s := s.modPort p fun x => { x with asked := [], askedAt := none }
  .next (((rest.flatMap fun (b : Sent) => b.pkts).foldl (fun s k => s.reroute (p / 16) k) s).settleAll)

/-- FLINK_REPLY_TIMEOUT (R291): 200 µs without a reply; the transactions complete with 0x32. -/
def execFlinkReplyTimeout (port : Fin 32) (s : State) : Host.Outcome State Fault Refusal :=
  let p := port.val
  match (s.port p).askedAt with
  | none => .next s
  | some t =>
    match s.waitUntil (t + 200000) with
    | none => .next s
    | some s =>
      let l := (s.port p).asked
      let s := s.modPort p fun x => { x with asked := [], askedAt := none }
      .next (((l.flatMap fun (b : Sent) => b.pkts).foldl (fun s k => s.lostPkt (p / 16) k 0x32) s).settleAll)

/-! ### Registers of ports, routes, groups, ring (R287 to R294, Tables FT-13 to FT-15) -/

/-- A port trains anew. -/
def State.retrainPort (s : State) (p : Nat) : State :=
  let lit := s.fld (Loc.ocPortSts (p / 16)) 10 3 (p % 16) == 0xFF
  let st := match s.portState p with
    | 0 => 0
    | 5 => if lit then 1 else 0
    | 1 => 1
    | _ => if (s.port p).locked then 3 else 1
  (s.portDown p st).showPorts (p / 16)

/-- PORT_CTL of the selected port written: EN, RETRAIN and the limits. -/
def State.portCtlOp (s : State) (e : Nat) (v : Word) : WR :=
  let loc := Loc.ocPortCtl e
  match formCheck (locFields loc) v with
  | some c => .error c
  | none =>
    let i := s.fld (Loc.ocPortSel e) 3 0
    let p := 16 * e + i
    let was := s.portCtl p 0 0
    let s := s.put loc (v.put 1 1 0) i
    if was = 1 ∧ !v.bit 0 then .ok (((s.portDown p 0).showPorts e).flinkAsk p)
    else if v.bit 1 ∧ v.bit 0 then .ok (s.retrainPort p)
    else .ok s

/-- PORT_RETRAIN: PORT_CTL is written with RETRAIN = 1. -/
def execPortRetrain (f : Func) (e : Side) (v : Word) (s : State) : Host.Outcome State Fault Refusal :=
  let v := v.put 1 1 1
  .next ((s.write f (Loc.ocPortCtl (sideNat e)) v fun s => s.portCtlOp (sideNat e) v).settleAll)

/-- Reserved bits of a route entry (Table FT-9). -/
def routeReserved (w : Nat) : Bool := bitsOf w 30 25 != 0

/-- ROUTE_DATA written: pending (R290). -/
def State.routeDataOp (s : State) (e : Nat) (v : Word) : WR :=
  if routeReserved v.toNat then .error 1 else
  let dev := s.fld (Loc.ocRouteSel e) 15 0
  let s := s.pendWord (Loc.ocRouteData e) v dev
  .ok (s.autoInc (Loc.ocRouteSel e) 15 65536)

/-- ROUTE_LOAD written (R31, R290). -/
def State.routeLoadOp (s : State) (f : Func) (e : Nat) (v : Word) : WR :=
  let loc := Loc.ocRouteLoad e
  let first := s.fld (Loc.ocRouteFirst e) 15 0
  let count := v.bits 16 0
  let addr := s.addrOf (Loc.ocRouteBaseLo e)
  match s.bulkCheck loc v addr first count 65536 65536 4 with
  | some c => .error c
  | none =>
    if !v.bit 31 then .ok (s.bulkStore loc v false) else
    .ok ((s.bulkStore loc v true).startLoad (.route e) { next := first, left := count, addr := addr, f := f })

/-- ROUTE_LOAD: ROUTE_LOAD is written with GO = 1. -/
def execRouteLoad (f : Func) (e : Side) (v : Word) (s : State) : Host.Outcome State Fault Refusal :=
  let v := v.put 31 31 1
  .next (s.write f (Loc.ocRouteLoad (sideNat e)) v fun s => s.routeLoadOp f (sideNat e) v)

/-- The next entry of a load of routes, checked. -/
def State.routeGot (s : State) (e : Nat) (b : BulkLoad) (r : Option (List Nat)) : State × List (Nat × List Nat) :=
  match r with
  | none => (s, b.got)
  | some w =>
    if routeReserved (w.getD 0 0) then (s.settle b.f (Loc.ocRouteLoad e) (.error 1), b.got)
    else (s, b.got ++ [(b.next, w)])

/-- ROUTE_LOAD_ENTRY (R290): an entry arrives; all become pending when the last has. -/
def execRouteLoadEntry (e : Side) (s : State) : Host.Outcome State Fault Refusal :=
  let e := sideNat e
  match (s.oculus e).routeLoad with
  | none => .next s
  | some b =>
    match b.entry 4 with
    | none => .next (s.askLoad (.route e))
    | some r =>
      let x := s.routeGot e b r
      let nx := b.step 4 65536
      let t := x.1.loadNext (.route e) (Loc.ocRouteLoad e) (nx.map fun n => { n with got := x.2 })
      .next (if nx.isSome then t
        else x.2.foldl (fun s g => s.pendWord (Loc.ocRouteData e) (BitVec.ofNat 32 (g.2.getD 0 0)) g.1) t)

/-- The check of a group header (Table FT-15). -/
def mcgCheck (h : Nat) : Option Nat :=
  if bitOf h 7 ∨ bitsOf h 31 20 ≠ 0 then some 1 else if bitsOf h 6 0 > 64 then some 2 else none

/-- MCG_HDR and MCG_TGT written: pending (R292). -/
def State.mcgHdrOp (s : State) (e : Nat) (v : Word) : WR :=
  match mcgCheck v.toNat with
  | some c => .error c
  | none => .ok (s.pendWord (Loc.ocMcgHdr e) v (s.fld (Loc.ocMcgSel e) 11 0))
def State.mcgTgtOp (s : State) (e : Nat) (v : Word) : WR :=
  if v.toNat ≥ 65536 then .error 1 else
  .ok (s.pendWord (Loc.ocMcgTgt e) v (s.fld (Loc.ocMcgSel e) 11 0 * 64 + s.fld (Loc.ocMcgSel e) 17 12))

/-- MCG_LOAD written (R31, R292). -/
def State.mcgLoadOp (s : State) (f : Func) (e : Nat) (v : Word) : WR :=
  let loc := Loc.ocMcgLoad e
  let first := v.bits 11 0
  let count := v.bits 24 12
  let addr := s.addrOf (Loc.ocMcgBaseLo e)
  match s.bulkCheck loc v addr first count 4096 4096 256 with
  | some c => .error c
  | none =>
    if !v.bit 31 then .ok (s.bulkStore loc v false) else
    .ok ((s.bulkStore loc v true).startLoad (.mcg e) { next := first, left := count, addr := addr, f := f })

/-- MCG_LOAD: MCG_LOAD is written with GO = 1. -/
def execMcgLoad (f : Func) (e : Side) (v : Word) (s : State) : Host.Outcome State Fault Refusal :=
  let v := v.put 31 31 1
  .next (s.write f (Loc.ocMcgLoad (sideNat e)) v fun s => s.mcgLoadOp f (sideNat e) v)

/-- A group image made pending: header and 64 targets. -/
def State.pendGroup (s : State) (e g : Nat) (w : List Nat) : State :=
  let s := s.pendWord (Loc.ocMcgHdr e) (BitVec.ofNat 32 (w.getD 0 0)) g
  (List.range 64).foldl (fun s i =>
    s.pendWord (Loc.ocMcgTgt e) (BitVec.ofNat 32 (w.getD (1 + i / 2) 0 / 65536 ^ (i % 2) % 65536)) (g * 64 + i)) s

/-- The next entry of a load of groups, checked. -/
def State.mcgGot (s : State) (e : Nat) (b : BulkLoad) (r : Option (List Nat)) : State × List (Nat × List Nat) :=
  match r with
  | none => (s, b.got)
  | some w =>
    match mcgCheck (w.getD 0 0) with
    | some c => (s.settle b.f (Loc.ocMcgLoad e) (.error c), b.got)
    | none => (s, b.got ++ [(b.next, w)])

/-- MCG_LOAD_ENTRY (R292): a group image arrives; all become pending when the last has. -/
def execMcgLoadEntry (e : Side) (s : State) : Host.Outcome State Fault Refusal :=
  let e := sideNat e
  match (s.oculus e).mcgLoad with
  | none => .next s
  | some b =>
    match b.entry 256 with
    | none => .next (s.askLoad (.mcg e))
    | some r =>
      let x := s.mcgGot e b r
      let nx := b.step 256 4096
      let t := x.1.loadNext (.mcg e) (Loc.ocMcgLoad e) (nx.map fun n => { n with got := x.2 })
      .next (if nx.isSome then t else x.2.foldl (fun s g => s.pendGroup e g.1 g.2) t)

/-- F0 or F1 loses its partner as the bypass moves: a link that is up is without lock, training ends (R294). -/
def State.breakRing (s : State) (p : Nat) : State :=
  let s := s.setFld (Loc.ocPortSts 0) 10 3 0 p
  if s.portState p = 4 then (if (s.port p).locked then s.lockLost p else s)
  else if s.portState p = 5 then s else s.portDown p 0

/-- The bypass moves to or from its through state (R294). -/
def State.moveBypass (s : State) (through : Bool) : State :=
  if s.flag (Loc.ocRingSts 0) 0 = through then s else
  let now := s.clk.elapsed
  let s := (s.breakRing 0).breakRing 1
  ((s.setFlag (Loc.ocRingSts 0) 0 through).modOculus 0 fun o => { o with bypassAt := now + 1 }).ocEvent 0 0xD 0 1

/-- The bypass is moving: for 50 µs from the beginning of its move (R294; DESIGN CHOICE, log entry 198). -/
def State.bypassMoves (s : State) : Bool :=
  let t := (s.oculus 0).bypassAt
  decide (t ≠ 0 ∧ s.clk.elapsed < t - 1 + 50000)

/-- RING_CTL written (R294): FORCE_BYPASS moves the bypass, its clearing leaves the through state when no trigger lasts. -/
def State.ringCtlOp (s : State) (e : Nat) (v : Word) : WR :=
  let loc := Loc.ocRingCtl e
  match formCheck (locFields loc) v with
  | some c => .error c
  | none =>
    if e = 1 ∧ v.bit 0 then .error 2 else
    let was := s.flag loc 0
    let s := s.put loc v
    if e = 1 then .ok s
    else if v.bit 0 then .ok (s.moveBypass true)
    else if was ∧ (s.oculus 0).out = 0 ∧ !s.flag Loc.glFaultSts 0 then .ok (s.moveBypass false)
    else .ok s

/-- RING_CTL_WRITE: RING_CTL is written. -/
def execRingCtlWrite (f : Func) (e : Side) (v : Word) (s : State) : Host.Outcome State Fault Refusal :=
  .next (s.write f (Loc.ocRingCtl (sideNat e)) v fun s => s.ringCtlOp (sideNat e) v)

/-! ### Congestion maps (R296, R297) -/

/-- The record of a port over an epoch of `ns` (Table FT-10), its samples and stall time counted up to its end. -/
def State.portRecord (s : State) (p ns : Nat) : Nat :=
  let x := s.port p
  let tx := (s.get64 (Loc.ocTxFlitsLo (p / 16)) (p % 16) + 2 ^ 48 - x.txAt) % 2 ^ 48
  let cap := ns * 25 / 16
  let util := if cap = 0 then 0 else min 65535 (tx * 65536 / cap)
  let stall := if ns = 0 then 0 else min 65535 (x.stallNs * 65536 / ns)
  let mean := if x.qN = 0 then 0 else min 4095 (x.qSum / x.qN / 16)
  util + stall * 2 ^ 16 + mean * 2 ^ 32 + min 4095 (x.qPeak / 16) * 2 ^ 44 + s.portState p * 2 ^ 56

/-- A new epoch's counts. -/
def State.epochReset (s : State) (p : Nat) : State :=
  let tx := s.get64 (Loc.ocTxFlitsLo (p / 16)) (p % 16)
  s.modPort p fun x => { x with qSum := 0, qN := 0, qPeak := 0, txAt := tx, stallNs := 0 }

/-- An epoch of an oculus ends at the tick: the records of its ports are taken, and its counts begin anew (R297). -/
def State.epochEnd (s : State) (e ns : Nat) : State :=
  let ports := (List.range 16).map fun i => 16 * e + i
  let s := ports.foldl (fun s p => (s.samplePort p).stallCount p) s
  let l := ports.map fun p => s.portRecord p ns
  (ports.foldl (fun s p => s.epochReset p) s).modOculus e fun o => { o with mapDue := some l }

/-- A load map sealed under a management key where one is installed; nothing when the key is exhausted. -/
def State.sealMap (s : State) (e : Nat) (k : Pkt) : State × Option Pkt :=
  match s.sealPkt e true k with
  | .sealed s k => (s, some k)
  | .plain => (s, some k)
  | .exhausted s => (s, none)

/-- A load map sent, or counted as not sent. -/
def State.forwardMap (s : State) (e : Nat) (k : Option Pkt) : State :=
  match k.bind fun k => s.tryForward e k with
  | some t => t
  | none => s.ocEvent e 0xC 0 1

/-- One oculus's CMAP packet (R297); sealed when a management key is installed (R416). -/
def State.sendMap (s : State) (e : Nat) : State :=
  match (s.oculus e).mapDue with
  | none => s
  | some l =>
    let s := s.modOculus e fun o => { o with mapDue := none }
    let data := (List.range 32).flatMap fun i => leBytes 8 (if i / 16 = e then l.getD (i % 16) 0 else 0)
    let dst := s.get (Loc.ocMapDst e)
    if !s.flag (Loc.ocMapCtl e) 8 || !dst.bit 16 then s else
    let k : Pkt := { op := 0x1B, dstDev := BitVec.ofNat 16 (dst.bits 15 0), srcDev := BitVec.ofNat 16 s.ownDev,
                     opt := BitVec.ofNat 24 (s.get (Loc.ocMapEpoch e)).toNat, nflit := 4, data := data }
    if s.isOwn (dst.bits 15 0) then s.modPort (16 * e) fun x => { x with held := x.held ++ [(k, 12)] } else
    (s.sealMap e k).1.forwardMap e (s.sealMap e k).2

/-- MAP_EPOCH_END (R297): the oculi whose epoch ended at the latest tick send their maps. -/
def execMapEpochEnd (s : State) : Host.Outcome State Fault Refusal := .next ((s.sendMap 0).sendMap 1)

/-- A management packet as this device reads it (R416): opened when sealed; nothing when it fails authentication, or comes
unsealed from a device with which a management key is installed. -/
def State.openMgmt (s : State) (k : Pkt) : Option (State × Pkt) :=
  if k.tagf then s.openPkt true k
  else if (s.keyEntry true 0 k.srcDev.toNat).isSome then none
  else some (s, k)

/-- A management packet discarded and counted on the SECURITY page (R416). -/
def State.mgmtDrop (s : State) (k : Pkt) : State := (if k.tagf then s.bump 0x0E00 4 0 else s).bump 0x0E00 5 0

/-- CMAP (R297): port records reach the manager; a packet that fails R416 is discarded and counted. -/
def execCmap (k : Pkt) (s : State) : Host.Outcome State Fault Refusal :=
  let e := s.heldAt k
  let s := s.takeHeld k
  match s.openMgmt k with
  | some r => .next r.1
  | none => .next ((s.ocEvent e 0xB 0 1).mgmtDrop k)

end Sys2Proof.Machine
end

