-- ==== Sys2Proof/Machine/Clocks.lean ====
section
/-! DEFINITION. Clock regions, the reference and the transit (R324 to R355). -/

namespace Sys2Proof.Machine

/-! ### 64-bit registers (R488) -/

/-- A low word is staged: it changes nothing. -/
def State.stageLow (s : State) (lo : Loc) (v : Word) : State :=
  { s with lowStage := tset 0 s.lowStage lo (v.toNat + 1) }

/-- The low word that a write of the high word joins: the last one staged, or the half in force. -/
def State.stagedLow (s : State) (lo : Loc) (idx : Nat := 0) : Nat :=
  match tget 0 s.lowStage lo with
  | 0 => (s.get lo idx).toNat
  | v + 1 => v

/-- A rejected high write discards the staged low word. -/
def State.dropLow (s : State) (lo : Loc) : State := { s with lowStage := tset 0 s.lowStage lo 0 }

/-! ### The reference (R324, R325) -/

/-- TIME_REF_LOSS (R325): the cleaner declares TIME_REF_IN lost, in use or not; the generators hold, and at the next tick
the oscillator serves. It is logged under auto and external; under internal the spec names no class and nothing is
logged. -/
def execTimeRefLoss (s : State) : Host.Outcome State Fault Refusal :=
  let s := { s with time := { s.time with refIn := false, refBack := false, refLost := true } }
  let s := s.bump 0x0004 7 0
  match s.fld Loc.glRefCtl 1 0 with
  | 0 => .next (s.postGlobal 0 0x03 0 0)
  | 1 => .next s
  | _ => .next (s.postGlobal 2 0x03 0 0)

/-- REF_RETURN (R325): the input has been in range for 100 ms; under auto it is taken back at the next tick. -/
def execRefReturn (s : State) : Host.Outcome State Fault Refusal :=
  let auto := s.fld Loc.glRefCtl 1 0 == 0
  .next { s with time := { s.time with refIn := true, refBack := s.time.refBack || (auto && !s.flag Loc.glClkSts 2) } }

/-- REF_CTL written (R324, R325): a present input is taken, or left, at the next tick. -/
def State.refCtlOp (s : State) (v : Word) : WR :=
  match formCheck (locFields Loc.glRefCtl) v with
  | some c => .error c
  | none =>
    let s := s.put Loc.glRefCtl v
    if v.bits 1 0 = 1 then .ok { s.setFlag Loc.glClkSts 2 false with time := { s.time with refBack := false } }
    else .ok { s with time := { s.time with refBack := s.time.refIn && !s.flag Loc.glClkSts 2 } }

/-- REF_CTL_WRITE. -/
def execRefCtlWrite (f : Func) (v : Word) (s : State) : Host.Outcome State Fault Refusal :=
  .next (s.write f Loc.glRefCtl v fun s => s.refCtlOp v)

/-- The move of the cleaner at a tick (R325). -/
def State.refTick (s : State) : State :=
  let s := if s.time.refLost then (s.setFlag Loc.glClkSts 2 false).setFlag Loc.glClkSts 3 true else s
  let s := if s.time.refBack && s.time.refIn then s.setFlag Loc.glClkSts 2 true else s
  { s with time := { s.time with refLost := false, refBack := false } }

/-! ### Regions (R327 to R339) -/

/-- Windows that have ended, in a region that has counted `c` cycles (R331): one that reached STR_LIMIT decides a down-step
16 cycles after its last cycle. -/
def Region.roll (x : Region) (c : Int) (limit : Nat) : Region :=
  let k := ((c - x.winU) / inCycles 1024).toNat
  if k = 0 then x else
    { x with winU := x.winU + k * inCycles 1024, cnt := 0
             stepU := if limit ≤ x.cnt ∧ x.stepU.isNone then some (x.winU + inCycles 1040) else x.stepU }

/-- The window of 1,024 cycles of this moment. -/
def State.rollWindow (s : State) (r : Nat) : State :=
  let c := s.cycles r
  let limit := s.fld Loc.glClkVane 10 0
  s.modRegion r fun x => x.roll c limit

/-- The vanes of a region report a depth (R329). -/
def State.vaneDepth (s : State) (r depth : Nat) : State :=
  s.modRegion r fun x => { x with depth := max x.depth depth, stirred := true }

/-- One period of a region is stretched by depth/8 and counted (R330). -/
def State.stretchOne (s : State) (r depth : Nat) : State :=
  let s := ((s.addWrap Loc.glRegStretch 31 0 1 r).rollWindow r).holdCycles r depth
  (s.modRegion r fun x => { x with cnt := x.cnt + 1, busy := true }).bump 0x0003 (1 + depth) r

/-- STRETCH (R329, R330): the vanes report a depth of 1 to 4; in native mode one period of the region is stretched. -/
def execStretch (r : Fin 40) (depth : Fin 5) (s : State) : Host.Outcome State Fault Refusal :=
  if depth.val == 0 then .next s
  else if s.meshOn then .next (s.vaneDepth r depth)
  else .next ((s.vaneDepth r depth).stretchOne r depth)

/-- N falls by DOWN_N, to 64 at least (R331). -/
def State.stepDown (s : State) (r : Nat) : State :=
  let n := s.regN r
  let m := max 64 (n - s.fld Loc.glClkCtl 19 16)
  let s := s.modRegion r fun x => { x with stirred := true }
  if m = n then s else ((s.setRegN r m).addWrap Loc.glRegSteps 15 0 1 r).bump 0x0003 6 r

/-- A region at N = 64 reaches STR_LIMIT (R332). -/
def State.floorEvent (s : State) (r : Nat) : State :=
  let logged := (s.region r).floor
  let s := (s.modRegion r fun x => { x with floor := true }).bump 0x0003 8 r
  let s := s.setFlag Loc.glRegSts 8 true r
  if logged then s else s.postGlobal 0 0x09 r 0

/-- Cycles at which a down-step for the window count acts: one decided, or due 16 cycles after the present window's end
when its count has reached STR_LIMIT (R331). -/
def State.stepDue (s : State) (r : Nat) : Option Int :=
  let x := (s.rollWindow r).region r
  match x.stepU with
  | some u => some u
  | none => if s.fld Loc.glClkVane 10 0 ≤ x.cnt then some (x.winU + inCycles 1040) else none

/-- A window of a region has reached STR_LIMIT and 16 cycles have followed it: N falls, or the region is at its floor; the
stretches of those 16 cycles stay counted in the next window (R331, R332). -/
def State.windowStep (s : State) (r : Nat) : State :=
  let s := (s.rollWindow r).modRegion r fun x => { x with stepU := none }
  if s.regN r = 64 then s.floorEvent r else s.stepDown r

/-- 16 cycles after depth 4 in four consecutive cycles: N falls, and a new window starts with the period at the new N (R331).
A window that has reached STR_LIMIT and ended before keeps its own down-step. DESIGN CHOICE: the window that is cut short
decides nothing (log entry 240). -/
def State.deepStep (s : State) (r : Nat) : State :=
  let s := s.rollWindow r
  let c := s.cycles r
  (s.modRegion r fun x => { x with winU := c, cnt := 0, deepU := none }).stepDown r

/-- Depth 4 in four consecutive cycles decides a down-step, which acts 16 cycles later (R331). -/
def State.deepDecide (s : State) (r : Nat) : State :=
  let u := s.cycles r + inCycles 16
  (s.vaneDepth r 4).modRegion r fun x => { x with deepU := x.deepU.orElse fun _ => some u }

/-- A down-step that depth 4 decided acts, unless a tick comes before its 16 cycles have passed. -/
def State.takeDeep (s : State) (r : Nat) : State :=
  match (s.region r).deepU with
  | none => s
  | some u =>
    match s.waitCycles r u with
    | none => s
    | some t => t.deepStep r

/-- The down-steps that are decided and act before the coming tick (R331). -/
def State.takeDeeps (s : State) : State := (List.range 40).foldl (fun s r => s.takeDeep r) s

/-- DOWN_STEP (R331): a window ends with STR_LIMIT stretches, or depth 4 held four cycles; 16 cycles later N falls. A tick
before that finds the down-step decided, and raises nothing (Table CK-5). -/
def execDownStep (r : Fin 40) (deep : Bool) (s : State) : Host.Outcome State Fault Refusal :=
  if s.meshOn then .next s
  else if deep then .next ((s.deepDecide r).takeDeep r)
  else
    match s.stepDue r with
    | none => .next s
    | some u =>
      match s.waitCycles r u with
      | none => .next s
      | some t => .next (t.windowStep r)

/-- Every partition is stopped (R337, R351). -/
def State.allStopped (s : State) : Bool := (List.range 8).all fun p => s.pfState p == 0

/-- CLK_CTL written (R328, R337, Table CK-6). -/
def State.clkCtlOp (s : State) (v : Word) : WR :=
  match formCheck (locFields Loc.glClkCtl) v with
  | some c => .error c
  | none =>
    if v.bit 0 != s.flag Loc.glClkCtl 0 && !s.allStopped then .error 5 else
    let s := s.writeFields Loc.glClkCtl 0 v.toNat none (locFields Loc.glClkCtl)
    .ok (if s.meshOn then (List.range 40).foldl (fun s r => s.setRegN r (v.bits 7 1)) s else s)

/-- CLK_MODE_WRITE: CLK_CTL is written with MODE changed. -/
def execClkModeWrite (f : Func) (v : Word) (s : State) : Host.Outcome State Fault Refusal :=
  let v := v.put 0 0 (1 - s.fld Loc.glClkCtl 0 0)
  .next (s.write f Loc.glClkCtl v fun s => s.clkCtlOp v)

/-- MODE_CHANGE_COMPLETE (R337). -/
def execModeChangeComplete (s : State) : Host.Outcome State Fault Refusal :=
  .next (s.setFlag Loc.glClkSts 1 false)

/-- The regions that one clock mesh drives: both of a spire die, or that of a gatehouse (R338). -/
def meshOf (r : Nat) : List Nat := if r < 32 then [r / 2 * 2, r / 2 * 2 + 1] else [r]

/-- MESH_EMERGENCY (R339): depth 4 in mesh mode stretches one period of the whole mesh by 1/2; logged once per frame. -/
def execMeshEmergency (r : Fin 40) (s : State) : Host.Outcome State Fault Refusal :=
  if !s.meshOn then .next s else
  let logged := (s.region r).emerg
  let s := (meshOf r).foldl (fun s q => (s.addWrap Loc.glRegStretch 31 0 1 q).holdCycles q 4) (s.vaneDepth r 4)
  let s := (s.modRegion r fun x => { x with emerg := true }).bump 0x0003 0xA r
  .next (if logged then s else s.postGlobal 0 0x0A r 0)

/-- The cutoff ends the interval whose margin the coming tick judges (R333). -/
def State.regionCutoff (s : State) : State :=
  { s with regions := s.regions.map fun x => { x with quiet := !x.stirred, stirred := false } }

/-- What a tick does to one region: its record of the frame; then the mode's change, MAX_N or an up-step (R328, R333, R337).
A down-step that is decided and not yet taken prevails over an up-step (Table CK-5). -/
def State.regionTick (s : State) (change want : Bool) (notClear : List (Fin 40)) (r : Nat) : State :=
  let maxN := s.fld Loc.glClkCtl 15 8
  let meshN := s.fld Loc.glClkCtl 7 1
  let s := s.rollWindow r
  let x := s.region r
  let told := notClear.any fun q => q.val == r
  let s := s.setFld Loc.glRegSts 12 8 (b2n x.floor + 2 * x.depth + 16 * b2n (!x.busy && x.depth == 0 && !told)) r
  let s := s.modRegion r fun x =>
    { x with busy := false, depth := 0, floor := false, emerg := false, stepU := if change then none else x.stepU
             deepU := if change then none else x.deepU
             cnt := if change then 0 else x.cnt }
  let n := s.regN r
  if change then s.setRegN r (if want then meshN else min meshN maxN)
  else if want then s
  else if n > maxN then s.setRegN r maxN
  else if n < maxN && x.quiet && !told && x.stepU.isNone && x.deepU.isNone then
    ((s.setRegN r (n + 1)).addWrap Loc.glRegSteps 31 16 1 r).bump 0x0003 7 r
  else s

/-- The stall cycles of the frame that ends at crossings whose entries the model does not hold (R336, log entry 239). They
are counted before the tick takes its snapshot. -/
def State.crossTick (s : State) (stalls : List (Fin 40 × Nat)) : State :=
  stalls.foldl (fun s e => s.crossStall e.1 e.2) s

/-- What a tick does to the regions (R328, R333, R337). The pending values of CLK_CTL are in force. -/
def State.clockTick (s : State) (notClear : List (Fin 40)) : State :=
  let want := s.flag Loc.glClkCtl 0
  let change := want != s.meshOn
  let s := if change then (s.setFlag Loc.glClkSts 0 want).setFlag Loc.glClkSts 1 true else s
  (List.range 40).foldl (fun s r => s.regionTick change want notClear r) s

/-! ### The transit (R340 to R353) -/

/-- TIME_STS.STATE: 0 unjoined, 1 joining, 2 joined, 3 holdover, 4 lost. -/
def State.timeState (s : State) : Nat := s.fld Loc.glTimeSts 2 0
def State.setTimeState (s : State) (v : Nat) : State := s.setFld Loc.glTimeSts 2 0 v
def State.modTime (s : State) (f : TimeEng → TimeEng) : State := { s with time := f s.time }
def State.timeMode (s : State) : Nat := s.fld Loc.glTimeCtl 1 0
def State.syncNs (s : State) : Nat := 1000 * s.fld Loc.glTimeCtl 19 12

/-- The count steps once and the device is joined (R349, R500): its first tick is the next multiple of the period. DESIGN
CHOICE: a count that is itself a multiple at the join gives no tick (log entry 223). Offsets measured against the old count
are taken against the new one. -/
def State.joinCount (s : State) (c : Nat) : State :=
  let d : Int := 256 * (((c % 2 ^ 64 : Nat) : Int) - s.clk.count)
  let s := { s with clk := { s.clk with count := c % 2 ^ 64, joined := true, lastTick := c % 2 ^ 64, cutoff := false, slew := 0, frac := 0 } }
  let now := s.clk.elapsed
  (s.setTimeState 2).modTime fun t =>
    { t with valid := now, bad := 0, late := false, hist := t.hist.map fun h => (h.1 - d, h.2)
             out := t.out.map fun x => { x with t1 := (x.t1 + d).toNat }
             arcs := t.arcs.map fun a => { a with offs := [] } }

/-- TIME_CTL.ROOT: this device is the time base of its ring or system. -/
def State.timeRoot (s : State) : Bool := s.flag Loc.glTimeCtl 2

/-- Joining begins (R349). A root is its own time base in every mode and joins as mode 0 does (DEDUCED, log entry 241). -/
def State.startJoin (s : State) : State :=
  if s.timeMode = 0 ∨ s.timeRoot then s.joinCount (s.get64 Loc.glTimeSetLo) else
  let now := s.clk.elapsed
  (s.setTimeState 1).modTime fun t =>
    { t with joinAt := now, late := false, hist := [], bad := 0, arcs := t.arcs.map fun a => { a with offs := [] } }

/-- The oculus that the time engine uses: East, or West when East is out (R346). -/
def State.timeOculus (s : State) : Option Nat :=
  if (s.oculus 0).out = 0 then some 0 else if (s.oculus 1).out = 0 then some 1 else none

/-- HOPS_ROOT and ROOT_DEV of what this device sends (Table CK-3): its own ID at the root and on its own time base, its place on
the arc it follows in direct mode, its level in counted mode. -/
def State.timePlace (s : State) : Nat × Nat :=
  if s.timeMode = 0 ∨ s.timeRoot then (0, s.ownDev)
  else if s.timeMode = 1 then
    let a := lget {} s.time.arcs (s.fld Loc.glTimeSts 3 3)
    (a.hops, a.root)
  else (s.time.level, s.time.root)

/-- The flit of Table CK-3. -/
def timeFlit (s : State) (t1 t2 t3 exch hops root flags : Nat) : List Byte :=
  leBytes 8 (t1 / 256) ++ leBytes 1 (t1 % 256) ++ leBytes 1 s.timeMode ++ leBytes 2 hops ++ leBytes 2 root ++
    leBytes 2 (s.period / 1000) ++ leBytes 8 (t2 / 256) ++ leBytes 1 (t2 % 256) ++ leBytes 1 s.timeState ++
    leBytes 2 exch ++ leBytes 8 (t3 / 256) ++ leBytes 1 (t3 % 256) ++ leBytes 1 flags ++ List.replicate 26 0

/-- A time packet (R348). -/
def timePkt (s : State) (op : BitVec 6) (dev : Nat) (d : List Byte) : Pkt :=
  { op := op, dstDev := BitVec.ofNat 16 dev, srcDev := BitVec.ofNat 16 s.ownDev, nflit := 1, data := d }

/-- A request of a counted-mode exchange (R346): its port puts t1 in as it leaves. -/
def State.askTime (s : State) (dev : Nat) (ring : Option Nat) : State :=
  match s.timeOculus with
  | none => s
  | some e =>
    let n := s.time.exch % 65536
    let t1 := s.now256
    let x : Exchange := { num := n, t1 := t1, at_ := s.clk.elapsed, dev := dev, ring := ring }
    let s := s.modTime fun t => { t with exch := (n + 1) % 65536, out := t.out ++ [x] }
    let k := timePkt s 0x19 dev (timeFlit s t1 0 0 n s.timePlace.1 s.timePlace.2 0)
    match ring with
    | some p => if s.portState p = 4 then s.toPort p k else s
    | none => s.sendOrDrop e k

/-- A ring message leaves a ring port (R344): F1 clockwise, F0 counter-clockwise. Its MODE is direct, at a root in mode 0
too (Table CK-3). -/
def State.ringSend (s : State) (p hops root : Nat) : State :=
  if s.portState p ≠ 4 then s else
  let d := timeFlit s s.now256 0 0 0 hops root (1 + 2 * b2n (p == 0))
  let k := timePkt s 0x19 (s.fld (Loc.ocPortPeer 0) 15 0 p) (d.take 9 ++ leBytes 1 1 ++ d.drop 10)
  s.toPort p k

/-- The neighbour at a port that is up is asked for its time. -/
def State.askHop (s : State) (p : Nat) : State :=
  if s.portState p = 4 then s.askTime (s.fld (Loc.ocPortPeer 0) 15 0 p) (some p) else s

/-- A message that has come on an arc of the ring is sent on through a port, once (R344). -/
def State.ringForward (s : State) (arc port : Nat) : State :=
  let a := lget {} s.time.arcs arc
  if !a.fresh then s else
  (s.modTime fun t => { t with arcs := lmod t.arcs arc fun x => { x with fresh := false } }).ringSend port a.hops a.root

/-- When the next messages of the time are due. -/
def State.syncDue (s : State) : Nat := match s.time.sentAt with | some t => t + s.syncNs | none => s.clk.elapsed

/-- TIME_SYNC_SEND (R344 to R346): every SYNC_US. The root of a ring sends its messages in mode 0, which is a root's mode,
and in mode 1. -/
def execTimeSyncSend (s : State) : Host.Outcome State Fault Refusal :=
  let root := s.timeRoot
  if s.timeState = 0 ∨ (s.timeMode = 0 ∧ !root) ∨ (s.timeMode = 2 ∧ root) then .next s else
  match s.waitUntil s.syncDue with
  | none => .next s
  | some s =>
    let now := s.clk.elapsed
    let s := s.modTime fun t => { t with sentAt := some now }
    if s.timeMode = 2 then
      let w := s.get Loc.glTimeParent
      .next (if w.bit 16 then s.askTime (w.bits 15 0) none else s)
    else if (s.oculus 0).out ≠ 0 then .next s
    else
      let s := (s.askHop 0).askHop 1
      if root then .next ((s.ringSend 1 0 s.ownDev).ringSend 0 0 s.ownDev)
      -- the clockwise arc arrives at F0 and leaves by F1
      else .next ((s.ringForward 0 1).ringForward 1 0)

/-- A sender's frame period that differs is logged once per change (R348). -/
def State.checkPeriod (s : State) (dev : Nat) (us : Nat) : State :=
  if us * 1000 = s.period then s.modTime fun t => { t with period := 0 }
  else if s.time.period = us then s
  else (s.modTime fun t => { t with period := us }).postGlobal 0 0x08 0 (dev + us % 1024 * 65536)

/-- TIME_SYNC (R347): a joined device answers a request. -/
def execTimeSync (port : Fin 32) (m : TimeMsg) (s : State) : Host.Outcome State Fault Refusal :=
  if s.portState port ≠ 4 ∨ m.ring then .next s else
  let s := s.checkPeriod m.srcDev.toNat m.periodUs
  if s.timeState < 2 then .next s else
  let t := s.now256
  -- the port puts t3 in as the answer leaves it
  let k := timePkt s 0x29 m.srcDev.toNat (timeFlit s m.t1 t t m.exch.toNat s.timePlace.1 s.timePlace.2 0)
  .next (s.sendOrDrop (port / 16) k)

/-- How far slewing has moved the count, in 1/256 ns. -/
def State.slewed256 (s : State) : Int := s.clk.slewed * 256 / 1000000000

/-- An offset to slew out, in 1/256 ns (R341). -/
def State.setSlew (s : State) (theta : Int) : State := { s with clk := { s.clk with slew := theta * 1000000000 / 256 } }

/-- A frequency term that the servo gives, within SLEW_PPM; the spec states no formula (free value). -/
def State.drawFreq (s : State) : State :=
  let lim := s.fld Loc.glTimeCtl 11 4 * 1000
  let r := s.draw
  let ppb : Int := (r.1 % (2 * lim + 1) : Nat)
  r.2.put Loc.glTimeFreq (BitVec.ofNat 32 (wrapNat 32 (ppb - lim)))

/-- The filtered offset lies beyond STEP_LIMIT (R351). -/
def State.offFar (s : State) (theta : Int) : Bool := decide (s.fld Loc.glTimeCtl 27 20 * 2560 < theta.natAbs)

/-- The state after an estimate whose run beyond STEP_LIMIT is `n` long (R350, R351). -/
def State.judgeOffset (s : State) (theta : Int) (n : Nat) : State :=
  let st := s.timeState
  if 8 ≤ n then
    if st = 4 then s else ((s.setTimeState 4).bump 0x0004 6 0).postGlobal 2 0x05 0 (wrapNat 64 (theta / 256))
  else if st = 3 then s.setTimeState 2
  else if st = 4 ∧ n = 0 then s.setTimeState 2
  else s

/-- A valid estimate of the offset (R347, R350, R351): it is slewed out; holdover ends; eight beyond STEP_LIMIT in a row
lose the transit. -/
def State.estimate (s : State) (theta : Int) : State :=
  let now := s.clk.elapsed
  let n := if s.offFar theta then s.time.bad + 1 else 0
  let s := (s.drawFreq.setSlew theta).put Loc.glTimeOfs (BitVec.ofNat 32 (wrapNat 32 (theta / 16)))
  (s.modTime fun t => { t with bad := n, valid := now }).judgeOffset theta n

/-- The exchange with the smallest delay. -/
def bestExchange : List (Int × Int) → Option (Int × Int)
  | [] => none
  | a :: l =>
    match bestExchange l with
    | some b => if b.2 < a.2 then some b else some a
    | none => some a

/-- TIME_SYNC_RESP (R345 to R347, R349): the arrival is stamped in the own count, to the 1/256 ns within the nanosecond at which it
is (R346); offset and delay of an exchange. The offset of an earlier exchange is what slewing has left of it: one offset is
slewed out once (R347). -/
def execTimeSyncResp (port : Fin 32) (m : TimeMsg) (frac : Fin 256) (s : State) : Host.Outcome State Fault Refusal :=
  if s.portState port ≠ 4 then .next s else
  match s.time.out.find? fun x => x.num == m.exch.toNat with
  | none => .next s
  | some x =>
    let s := s.checkPeriod m.srcDev.toNat m.periodUs
    let s := s.modTime fun t => { t with out := t.out.filter fun y => y.num != x.num }
    -- an answer after 100 µs comes too late: the exchange is discarded
    if x.at_ + 100000 < s.clk.elapsed then .next (s.bump 0x0004 3 0) else
    let a : Int := (m.t2 : Int) - x.t1
    let b : Int := ((s.now256 + frac : Nat) : Int) - m.t3
    let theta := (a - b) / 2
    let delta := (a + b) / 2
    let s := s.bump 0x0004 2 0
    match x.ring with
    | some p => .next (s.modTime fun t => { t with arcs := lmod t.arcs (p % 2) fun y => { y with delay := delta.toNat } })
    | none =>
      if s.timeMode ≠ 2 then .next s else
      let s := s.modTime fun t =>
        { t with hist := ((theta + s.slewed256, delta) :: t.hist).take 16, level := m.hopsRoot + 1, root := m.rootDev.toNat }
      match bestExchange s.time.hist with
      | none => .next s
      | some (th, de) =>
        let th := th - s.slewed256
        let s := s.setFld Loc.glTimeDelay 23 0 (wrapNat 24 (de / 16))
        if s.timeState = 1 then
          if s.time.hist.length < 16 then .next s
          else
            let s := s.estimate th
            .next (s.joinCount ((s.clk.count : Int) + th / 256).toNat)
        else .next (s.estimate th)

/-- Hops and arc of direct mode as TIME_STS shows them. -/
def State.showArc (s : State) (arc : Nat) : State :=
  (s.setFlag Loc.glTimeSts 3 (arc == 1)).setFld Loc.glTimeSts 13 4 (lget {} s.time.arcs arc).hops

/-- The arc that the device follows. -/
def State.arcNow (s : State) : Nat := s.fld Loc.glTimeSts 3 3

/-- The device follows the other arc: its count is slewed to (R345). -/
def State.changeArc (s : State) (arc : Nat) : State :=
  let s := (s.showArc arc).bump 0x0004 4 0
  match (lget {} s.time.arcs arc).offs with
  | off :: _ => s.setSlew (off - s.slewed256)
  | [] => s

/-- The arc with fewer hops of those whose messages arrive, the clockwise one on a tie (R345). -/
def State.shortArc (s : State) (alive : Nat → Bool) (arc : Nat) : Nat :=
  let h (i : Nat) : Nat := (lget {} s.time.arcs i).hops
  if !alive (1 - arc) then arc
  else if h (1 - arc) < h arc ∨ (h (1 - arc) = h arc ∧ arc = 1) then 1 - arc else arc

/-- RING_TIME_MESSAGE (R344, R345, R349): clockwise messages arrive at F0, the others at F1; the delay of the hop is the
one measured at the port. -/
def execRingTimeMessage (port : Fin 2) (m : TimeMsg) (frac : Fin 256) (s : State) : Host.Outcome State Fault Refusal :=
  if s.portState port ≠ 4 ∨ s.timeMode ≠ 1 ∨ s.timeRoot ∨ s.timeState = 0 then .next s
  else if m.hopsRoot > 1023 then .next (s.bump 0x0004 3 0)
  else
    let s := s.checkPeriod m.srcDev.toNat m.periodUs
    let arc := b2n m.arcCcw
    let now := s.clk.elapsed
    let hop := (lget {} s.time.arcs port).delay
    let off : Int := ((m.t1 + hop : Nat) : Int) - (s.now256 + frac : Nat)
    let gap (a : Arc) : Bool := a.last == 0 || decide (a.last - 1 + 4 * s.syncNs ≤ now)
    let s := s.modTime fun t => { t with arcs := lmod t.arcs arc fun a =>
      { a with offs := ((off + s.slewed256) :: (if gap a then [] else a.offs)).take 4, last := now + 1, fresh := true,
               resumed := if gap a then now + 1 else a.resumed, hops := m.hopsRoot + 1, root := m.rootDev.toNat } }
    let a := lget {} s.time.arcs arc
    let alive (i : Nat) : Bool := !gap (lget {} s.time.arcs i)
    if s.timeState = 1 then
      if a.offs.length = 4 ∧ a.offs.all (fun x => a.offs.all fun y => decide ((x - y).natAbs ≤ 2560)) then
        .next ((s.joinCount ((s.clk.count : Int) + off / 256).toNat).showArc (s.shortArc alive arc))
      else .next s
    else
      let s := if alive s.arcNow then s else (s.changeArc arc).postGlobal 0 0x07 arc 0
      .next (if s.arcNow = arc then (s.estimate off).showArc arc else s)

/-- EXCHANGE_TIMEOUT (R347): no answer within 100 µs. -/
def execExchangeTimeout (exch : BitVec 16) (s : State) : Host.Outcome State Fault Refusal :=
  match s.time.out.find? fun x => x.num == exch.toNat with
  | none => .next s
  | some x =>
    match s.waitUntil (x.at_ + 100000) with
    | none => .next s
    | some s => .next ((s.modTime fun t => { t with out := t.out.filter fun y => y.num != x.num }).bump 0x0004 3 0)

/-- ARC_CHANGE (R345): no message on the followed arc for 4 × SYNC_US. -/
def execArcChange (s : State) : Host.Outcome State Fault Refusal :=
  if s.timeMode ≠ 1 ∨ s.timeRoot ∨ s.timeState < 2 then .next s else
  let a := lget {} s.time.arcs s.arcNow
  match s.waitUntil (a.last - 1 + 4 * s.syncNs) with
  | none => .next s
  | some s => let arc := 1 - s.arcNow; .next ((s.changeArc arc).postGlobal 0 0x07 arc 0)

/-- ARC_RETURN (R345): the shorter arc's messages have resumed for 100 ms. -/
def execArcReturn (s : State) : Host.Outcome State Fault Refusal :=
  if s.timeMode ≠ 1 ∨ s.timeRoot ∨ s.timeState < 2 then .next s else
  let other := 1 - s.arcNow
  let a := lget {} s.time.arcs s.arcNow
  let b := lget {} s.time.arcs other
  if b.last = 0 ∨ ¬(b.hops < a.hops ∨ (b.hops = a.hops ∧ other = 0)) then .next s else
  match s.waitUntil (b.resumed - 1 + 100000000) with
  | none => .next s
  | some s => .next (s.changeArc other)

/-- JOIN_TIMEOUT (R349): not joined within 1 s; the device keeps trying. -/
def execJoinTimeout (s : State) : Host.Outcome State Fault Refusal :=
  if s.timeState ≠ 1 ∨ s.time.late then .next s else
  match s.waitUntil (s.time.joinAt + 1000000000) with
  | none => .next s
  | some s => .next ((s.modTime fun t => { t with late := true }).postGlobal 2 0x06 0 0)

/-- HOLDOVER (R350): no valid estimate for 10 ms; the count goes on with the last frequency term. -/
def execHoldover (s : State) : Host.Outcome State Fault Refusal :=
  if s.timeState ≠ 2 ∨ s.timeMode = 0 ∨ s.timeRoot then .next s else
  match s.waitUntil (s.time.valid + 10000000) with
  | none => .next s
  | some s => .next (((s.setTimeState 3).bump 0x0004 5 0).postGlobal 0 0x04 0 0)

/-- TIME_CTL written (R349, R351, Table CK-7). -/
def State.timeCtlOp (s : State) (v : Word) : WR :=
  match formCheck (locFields Loc.glTimeCtl) v with
  | some c => .error c
  | none =>
    if s.timeState ≠ 0 ∧ v.bits 2 0 ≠ s.fld Loc.glTimeCtl 2 0 then .error 5
    else if v.bit 3 && !s.allStopped then .error 5
    else
      let s := s.put Loc.glTimeCtl (v.put 3 3 0)
      .ok (if v.bit 3 && s.timeState != 0 then s.startJoin else s)

/-- REJOIN: TIME_CTL is written with REJOIN = 1. -/
def execRejoin (f : Func) (v : Word) (s : State) : Host.Outcome State Fault Refusal :=
  let v := v.put 3 3 1
  .next (s.write f Loc.glTimeCtl v fun s => s.timeCtlOp v)

/-- TIME_SET_LO and TIME_SET_HI written (R488, Table CK-7). -/
def State.timeSetLoOp (s : State) (v : Word) : WR :=
  if s.timeState ≠ 0 then .error 5 else .ok (s.stageLow Loc.glTimeSetLo v)
def State.timeSetHiOp (s : State) (v : Word) : WR :=
  if s.timeState ≠ 0 then .error 5 else
  .ok (s.put64 Loc.glTimeSetLo (s.stagedLow Loc.glTimeSetLo + v.toNat * 2 ^ 32))

/-- A write of a high word: a rejected one discards the staged low word (R488). -/
def State.writeHigh (s : State) (f : Func) (lo : Loc) (v : Word) (op : State → WR) : State :=
  let r := s.write f (lo + 4) v op
  let ok := match s.accessCheck f ((lo + 4) / 4096) ((lo + 4) % 4096) v, op s with
    | none, .ok _ => true
    | _, _ => false
  if s.pageOpen f ((lo + 4) / 4096) && !ok then r.dropLow lo else r

/-- TIME_SET_WRITE: TIME_SET_HI is written. -/
def execTimeSetWrite (f : Func) (v : Word) (s : State) : Host.Outcome State Fault Refusal :=
  .next (s.writeHigh f Loc.glTimeSetLo v fun s => s.timeSetHiOp v)

/-- The planes that serve stations 22 and 25 in both directions. -/
def State.westPlanes (s : State) : List Nat := (s.planes 22 25).filter fun p => (s.planes 25 22).contains p

/-- The exchange to follow: of those on available planes the one with the smallest delay (R343). -/
def State.westBest (s : State) (l : List WestExchange) : Option (Int × Int) :=
  bestExchange ((l.filter fun x => s.westPlanes.contains x.plane).map fun x => (x.offset, (x.delay : Int)))

/-- WEST_TRANSIT_EXCHANGE (R343): once per frame the West exchanges time with the East on every available plane of stations
22 and 25 and follows it by the one with the smallest delay; while they have no plane it holds. The operand is what the
exchange of each plane measures. -/
def execWestTransitExchange (l : List WestExchange) (s : State) : Host.Outcome State Fault Refusal :=
  if (s.plinth 0).out ≠ 0 ∨ (s.plinth 1).out ≠ 0 ∨ s.time.westAt = s.clk.ticks + 1 then .next s
  else
    let s := s.modTime fun t => { t with westAt := s.clk.ticks + 1 }
    if s.westPlanes.isEmpty then
      let held := s.time.westHeld
      let s := s.modTime fun t => { t with westHeld := true }
      .next (if held then s else s.post (plPage 1 0) 0 0x64 0 0)
    else
      match s.westBest l with
      | none => .next s
      | some (th, _) => .next (s.modTime fun t => { t with westHeld := false, westOfs := th })

/-- TICK_OUT rises at a tick (R353): how long it stays high. -/
def State.tickOutPulse (s : State) : State :=
  let w := s.get Loc.glTickOutCtl
  let idx := s.clk.count / s.period
  if !w.bit 0 || idx % (max 1 (w.bits 15 8)) != 0 then s else
  let len := min (w.bits 23 16 * 10) (s.period * max 1 (w.bits 15 8) / 2)
  { s with clk := { s.clk with tickOut := s.clk.elapsed + len } }

end Sys2Proof.Machine
end

