-- ==== Sys2Proof/Machine/GateServe.lean ====
section
/-! DEFINITION. Requests that reach a gatehouse on its links: the line buffer's entries and the operations that wait on
them (R174 to R179). -/

namespace Sys2Proof.Machine

/-- The mask flit of a header: bytes it covers. -/
def hdrMask (h : Hdr) : Nat := leNat (h.data.take 32)

/-- The bytes of a header's data flits. -/
def hdrBytes (h : Hdr) : List Byte := (h.data.drop (64 * h.maskf.toNat)).take (64 * h.nflit.toNat)

/-- First byte of an atomic's or reduction's elements in the line: ARG[15:8]; ARG[6:0] is OPT of Table FM-1 (DESIGN
CHOICE: the spec leaves ARG to the operation code, assumption log). -/
def hdrOff (h : Hdr) : Nat := bitsOf h.arg.toNat 15 8

/-- The operands of an atomic or reduction are contributions that an oculus joined in FW48, six bytes each: ARG[7] (R313; DESIGN
CHOICE, as above). -/
def hdrJoined (h : Hdr) : Bool := h.arg.toNat.testBit 7

/-- A load that asks for the stored ciphertext: ARG[0] (R172, R457; DESIGN CHOICE, as above). -/
def hdrCipher (h : Hdr) : Bool := h.op == 1 && h.arg.toNat.testBit 0

/-- An element plus joined contributions, rounded once (R313). -/
def addJoined (dt old : Nat) (b : List Byte) : Nat :=
  ((dtFmt dt).encode .rne (((dtFmt dt).decode old).add (fw48.decode (leNat (b.take 6))))).1

/-- Joined contributions to the elements from `o` on that the mask names, in steps of six bytes. -/
def addAllJoined (dt o mask : Nat) (d old : List Byte) : List Byte × Nat :=
  let sz := dtSize dt
  (List.range 42).foldl (fun (r : List Byte × Nat) i =>
    let a := o + i * sz
    if a + sz ≤ 256 ∧ mask.testBit a then
      (elemPut dt a (addJoined dt (elemAt dt a r.1) (d.drop (6 * i))) r.1, r.2 ||| ((2 ^ sz - 1) * 2 ^ a))
    else r) (old, 0)

/-- A store that covers its line. -/
def hdrFull (h : Hdr) : Bool := h.op == 2 && !h.maskf && h.nflit == 4

/-- What a request makes of the bytes of its line: the new bytes and the mask of those changed. -/
def hdrEffect (h : Hdr) (old : List Byte) : List Byte × Nat :=
  let d := hdrBytes h
  let dt := bitsOf h.arg.toNat 6 4
  let o := hdrOff h
  let sz := dtSize dt
  if h.op = 2 ∨ h.op = 3 then
    if h.maskf then (overlay (hdrMask h) old (d ++ List.replicate (256 - d.length) 0), hdrMask h)
    else layBytes 0 d old
  else if h.op = 4 then
    if sz = 0 ∨ o + sz > 256 then (old, 0)
    else if hdrJoined h then (elemPut dt o (addJoined dt (elemAt dt o old) d) old, (2 ^ sz - 1) * 2 ^ o)
    else
    (elemPut dt o (atomicNew (bitsOf h.arg.toNat 3 0) dt (elemAt dt o old) (leNat (d.take sz)) (leNat ((d.drop 8).take sz))) old,
      (2 ^ sz - 1) * 2 ^ o)
  else if h.op = 5 then
    if sz = 0 then (old, 0)
    else if hdrJoined h then addAllJoined dt o (hdrMask h) d old
    else
    let n := min ((d.length - o % 64) / sz) ((256 - o) / sz)
    let take (i : Nat) : Bool := !h.maskf || (hdrMask h).testBit (o + i * sz)
    (List.range n).foldl (fun (r : List Byte × Nat) i =>
      let a := o + i * sz
      if take i then
        (elemPut dt a (elemAdd dt (elemAt dt a r.1) (elemAt dt (o % 64 + i * sz) d)) r.1, r.2 ||| ((2 ^ sz - 1) * 2 ^ a))
      else r) (old, 0)
  else (old, 0)

/-- Data of the completion: the line for a load, the old value for an atomic. -/
def hdrResult (h : Hdr) (old : List Byte) : List Byte :=
  if h.op = 1 then old
  else if h.op = 4 then
    let dt := bitsOf h.arg.toNat 6 4
    leBytes 8 (elemAt dt (hdrOff h) old) ++ List.replicate 56 0
  else []

/-- A request completes at its gatehouse; its counting slot is signalled when it succeeded (R309). -/
def State.gateDone (s : State) (o : GOp) (st : Nat) (old : List Byte) : State :=
  let s := if st = 0 ∧ o.h.csEn then
      s.incr o.h.jobTag.toNat o.h.cslot.toNat 1
        (match stationOculus o.src with | some e => .fabric e | none => .spire ((stationSpire o.src).getD 0))
    else s
  s.replyHdr o.at_ o.src o.h st (if st = 0 then hdrResult o.h old else [])

/-- A line as ciphertext (R172). -/
def State.cipherLine (s : State) (line : Nat) : State × Nat × List Byte :=
  let st := s.lineStatus line
  if st ≠ 0 then (s, st, []) else
  match (s.gate (placeLine line).1).entry line with
  | some e => (s, 0, lineCipher false e.key line 0 e.data)
  | none =>
    let r := s.chanRead line none 0
    match r.2 with
    | none => (r.1, 0x20, [])
    | some b => (r.1, 0, b)

/-- A request applied now under its key: its line is resident, or it needs no entry (R174, R176). -/
def State.gateNow (s : State) (o : GOp) : State :=
  let line := o.h.line.toNat
  if o.h.op = 1 then
    let r := if hdrCipher o.h then s.cipherLine line else s.memLoadAs line o.key
    r.1.gateDone o r.2.1 r.2.2
  else
    let r := s.memModifyAs line o.key (hdrFull o.h) (hdrEffect o.h)
    r.1.gateDone o r.2.1 r.2.2

/-- A request waits in the gatehouse (R171, R175, R182). -/
def State.gateHold (s : State) (g : Nat) (o : GOp) : State := s.modGate g fun x => { x with waitq := x.waitq ++ [o] }

/-- A request takes an entry that a read of the line fills (R175); without a free entry it waits in the gatehouse. -/
def State.gateFill (s : State) (g : Nat) (o : GOp) : State :=
  let line := o.h.line.toNat
  let q := s.lbufRoom g
  if !q.2 then q.1.gateHold g o else
  let s := q.1.bump (gtPage g 1) 4 0
  let e : LEntry := { line := line, key := o.key, data := List.replicate 256 0, filling := true, queue := [o],
                      last := s.cycles (32 + g) }
  s.modGate g fun x => { x with lbuf := x.lbuf ++ [e] }

/-- A request accepted by gatehouse `g` (R171, R174, R175, R182): it completes with a status, waits for its channel or for
an entry of another key, is applied, waits for a fill, or waits in the gatehouse. -/
def State.gateTry (s : State) (g : Nat) (o : GOp) : State :=
  let line := o.h.line.toNat
  let st := s.lineStatus line
  if st ≠ 0 then s.gateDone o st []
  else if s.lineRetrains line then s.gateHold g o else
  let s := s.rekey line o.key
  match (s.gate g).entry line with
  | some e =>
    if e.key ≠ o.key then s.gateHold g o
    else if e.busy then s.modGate g fun x => x.setEntry { e with queue := e.queue ++ [o] } else s.gateNow o
  | none =>
    if hdrFull o.h then
      let q := s.lbufRoom g
      if q.2 then q.1.gateNow o else q.1.gateHold g o
    else if o.h.op = 1 then s.gateNow o
    else s.gateFill g o

/-- A request reaches gatehouse `g`, which accepts it under the key in force (R171). -/
def State.gateTake (s : State) (g : Nat) (o : GOp) : State := s.gateTry g { o with key := s.lineKey o.h.line.toNat }

/-- Requests that wait in the gatehouse are taken again, in order. -/
def State.gateRetry (s : State) (g : Nat) : State :=
  let l := (s.gate g).waitq
  l.foldl (fun s o => s.gateTry g o) (s.modGate g fun x => { x with waitq := [] })

/-- Bytes that a queued request overwrites without reading (R176). -/
def hdrStores (h : Hdr) : Nat :=
  if h.op = 2 ∨ h.op = 3 then (if h.maskf then hdrMask h else 2 ^ (64 * h.nflit.toNat) - 1) else 0

/-- Bytes that a queued request reads: a load its line, an atomic or a reduction its elements. -/
def hdrReads (h : Hdr) : Nat :=
  if h.op = 1 then 2 ^ 256 - 1
  else if h.op = 4 ∨ h.op = 5 then (hdrEffect h (List.replicate 256 0)).2 else 0

/-- One of these requests is a store that overwrites all the bytes of a mask, before any of them reads one of the bytes. -/
def overwritten (m : Nat) : List GOp → Bool
  | [] => false
  | o :: l => hdrReads o.h &&& m == 0 && (hdrStores o.h &&& m == m || overwritten m l)

/-- Stores of a queue that a later store overwrites before any other operation reads their bytes: discarded (R176). -/
def discarded : List GOp → Nat
  | [] => 0
  | o :: l => b2n (hdrStores o.h != 0 && overwritten (hdrStores o.h) l) + discarded l

/-- The queue of a filled entry applied in order of arrival (R176). -/
def State.gateApply (s : State) (g line : Nat) (l : List GOp) : State :=
  let s := (List.range (discarded l)).foldl (fun s _ => s.bump (gtPage g 1) 6 0) s
  l.foldl (fun s o =>
    match (s.gate g).entry line with
    | some e =>
      let r := hdrEffect o.h e.data
      let s := s.modGate g fun x =>
        x.setEntry { e with data := r.1, changed := e.changed ||| r.2, last := s.cycles (32 + g) }
      s.gateDone o 0 (if hdrCipher o.h then lineCipher false e.key line 0 e.data else e.data)
    | none => s) s

/-- Every entry that a drain waits for and that can be written back is released (R178). -/
def State.drainOn (s : State) (g : Nat) : State :=
  ((s.gate g).lbuf.filter fun e => e.drain && !e.busy && !s.lineRetrains e.line).foldl (fun s e => s.release g e) s

/-- The bits of a code word that lie in the die: not those of a page that the remap store serves (R184). -/
def State.inDie (s : State) (line cw mask : Nat) : Nat :=
  let served (check : Bool) : Bool := (s.gate (placeLine line).1).store.any fun e => e.1 == wordPage line cw check
  (if served false then 0 else mask % 2 ^ 512) + (if served true then 0 else mask / 2 ^ 512 % 2 ^ 64 * 2 ^ 512)

/-- Error bits that reach stored code words of a line. -/
def State.upset (s : State) (line : Nat) (l : List (Fin 4 × Nat)) : State :=
  l.foldl (fun s e =>
    let k := line * 4 + e.1.val
    { s with memFlip := tset 0 s.memFlip k (tget 0 s.memFlip k ^^^ s.inDie line e.1.val e.2) }) s

/-- LINE_FILL_DONE (R175, R179): the fill of an entry returns; its operations are applied in order, or all complete with
uncorrectable data and the entry is released. -/
def execLineFillDone (g : Fin 8) (line : BitVec 32) (upset : List (Fin 4 × Nat)) (s : State) :
    Host.Outcome State Fault Refusal :=
  let l := line.toNat
  match (s.gate g).entry l with
  | none => .next s
  | some e =>
    if !e.filling || (s.gate g).out != 0 || s.lineRetrains l then .next s else
    let r := (s.upset l upset).chanRead l (some e.key) 0
    let s := r.1
    match r.2 with
    | some b =>
      let s := s.modGate g fun x => x.setEntry { e with data := b, filling := false, queue := [] }
      .next (((s.gateApply g l e.queue).drainOn g).gateRetry g)
    | none =>
      let s := s.modGate g fun x => x.dropEntry l
      .next ((e.queue.foldl (fun s o => s.gateDone o 0x20 []) s).gateRetry g)

end Sys2Proof.Machine
end

