-- ==== Sys2Proof/Machine/GateMaint.lean ====
section
/-! DEFINITION. Commands of the gatehouses other than the line fill: drain, refresh, training, patrol, remap, flip mask
(R159, R169, R178 to R189). -/

namespace Sys2Proof.Machine

/-- The gatehouse is trained and serves. -/
def State.gateUp (s : State) (g : Nat) : Bool := (s.gate g).out == 0

/-- MEM_CFG of any gatehouse written: all eight take it (R159). -/
def State.memCfgOp (s : State) (g : Nat) (v : Word) : WR :=
  match formCheck (locFields (Loc.gtMemCfg g)) v with
  | some c => .error c
  | none => .ok ((List.range 8).foldl (fun s k => s.put (Loc.gtMemCfg k) v) s)

/-- MEM_CFG_WRITE. -/
def execMemCfgWrite (f : Func) (g : Fin 8) (v : Word) (s : State) : Host.Outcome State Fault Refusal :=
  .next (s.write f (Loc.gtMemCfg g) v fun s => s.memCfgOp g v)

/-- LINE_IDLE_WRITEBACK (R178): an entry that has gone 64 cycles without an operation is written back and stays. -/
def execLineIdleWriteback (g : Fin 8) (line : BitVec 32) (s : State) : Host.Outcome State Fault Refusal :=
  match (s.gate g).entry line.toNat with
  | none => .next s
  | some e =>
    if e.busy || e.changed == 0 || s.lineRetrains line.toNat then .next s else
    match s.waitCycles (32 + g) (e.last + inCycles 64) with
    | some t => .next (t.writeBack g e)
    | none => .next s

/-- Every entry of a gatehouse is to be written back and released (R178): at once, or when its fill, its operations or its
channel's training are done. The drain lasts until then. -/
def State.drainGate (s : State) (g : Nat) : State :=
  (s.modGate g fun x => { x with lbuf := x.lbuf.map fun e => { e with drain := true } }).drainOn g

/-- GCTL written: DRAIN = 1 writes back every entry. -/
def State.gctlOp (s : State) (g : Nat) (v : Word) : WR :=
  match formCheck (locFields (Loc.gtGctl g)) v with
  | some c => .error c
  | none => .ok (if v.bit 0 then s.drainGate g else s)

/-- GATEHOUSE_DRAIN: GCTL is written with DRAIN = 1. -/
def execGatehouseDrain (f : Func) (g : Fin 8) (v : Word) (s : State) : Host.Outcome State Fault Refusal :=
  let v := v.put 0 0 1
  .next (s.write f (Loc.gtGctl g) v fun s => s.gctlOp g v)

/-- Refresh commands that a rank owes at this moment: those due less those issued (Table GH-5). -/
def Refresh.owed (r : Refresh) (since now : Nat) : Int :=
  r.debt + ((now - max since r.base) / (if r.dbl then 244 else 488) : Nat)

/-- The request queue of a channel holds something: an entry of its lines fills, or a request waits (R180). -/
def State.chanBusy (s : State) (g ch : Nat) : Bool :=
  let x := s.gate g
  (x.lbuf.any fun e => e.filling && (placeLine e.line).2.1 == ch) || x.waitq.any fun o => (placeLine o.h.line.toNat).2.1 == ch

/-- When the channel's idle segment began or begins, in the duration clock (R180): at the scheduled end of the frame, or 100 ns
after its request queue last emptied. Nothing when neither is in sight. -/
def State.idleFrom (s : State) (g ch : Nat) : Option Nat :=
  let frame := s.clk.elapsed + s.nsTo (s.clk.lastTick + s.period - s.guardNs)
  let queue := ((s.gate g).chan ch).used + 100
  if !s.chanBusy g ch then some (if s.clk.joined then min frame queue else queue)
  else if s.clk.joined then some frame else none

/-- When background work of a channel is done that is due at `due` in an idle segment and forced at `forced` (Table GH-5).
With `idle` the sender lets it wait for an idle segment; without, it is done in one only if that has begun (log entry 173). -/
def State.workAt (s : State) (g ch : Nat) (idle : Bool) (due forced : Nat) : Nat :=
  match s.idleFrom g ch with
  | some t => if idle || decide (t ≤ s.clk.elapsed) then min forced (max due t) else forced
  | none => forced

/-- A refresh command is issued to a rank. -/
def State.refreshed (s : State) (g k : Nat) : State :=
  s.modGate g fun x => let r := tget {} x.refresh k; { x with refresh := tset {} x.refresh k { r with debt := r.debt - 1 } }

/-- Refresh commands that a rank of a gatehouse owes. -/
def State.refreshOwed (s : State) (g k : Nat) : Int :=
  (tget {} (s.gate g).refresh k).owed (s.gate g).since s.clk.elapsed

/-- PER_BANK_REFRESH (R180, R181, Table GH-5): in an idle segment a command is issued or pulled in, up to 16 ahead; otherwise
only when the rank's debt has reached 32. -/
def execPerBankRefresh (g : Fin 8) (ch : Fin 48) (rank : Fin 2) (idle : Bool) (s : State) :
    Host.Outcome State Fault Refusal :=
  if !s.gateUp g || s.chFailed g ch then .next s else
  let k := ch.val * 2 + rank.val
  let forced : Host.Outcome State Fault Refusal :=
    if s.refreshOwed g k ≥ 32 then
      .next (((s.refreshed g k).addWrap (Loc.gtRefForced g) 31 0 1).bump (gtPage g 2) 2 ch)
    else .next s
  match s.idleFrom g ch with
  | none => forced
  | some t =>
    if !idle && decide (s.clk.elapsed < t) then forced else
    match s.waitUntil t with
    | none => forced
    | some u => if u.refreshOwed g k > -16 then .next (u.refreshed g k) else .next s

/-- A full retrain of a channel begins: logged and counted (R182). -/
def State.startRetrain (s : State) (g ch : Nat) : State :=
  let s := s.modGate g fun x => x.setChan ch { x.chan ch with retraining := true }
  let s := s.addSat (Loc.gtTrainSts g) 15 0 1
  let s := s.setFld (Loc.gtTrainSts g) 21 16 ch
  (s.post (gtPage g 2) 0 0x42 ch 0).bump (gtPage g 2) 3 ch

/-- When a channel's next oscillator measurement is done: OSC_MS after the last in an idle segment, else FORCE_MS after it. -/
def State.oscAt (s : State) (g ch : Nat) (idle : Bool) : Nat :=
  let last := max (s.gate g).since ((s.gate g).chan ch).osc
  s.workAt g ch idle (last + s.fld (Loc.gtTrainCtl g) 7 0 * 1000000) (last + s.fld (Loc.gtTrainCtl g) 15 8 * 1000000)

/-- OSCILLATOR_MEASUREMENT (R181, R182): in an idle segment once it is due, otherwise when it is forced; the drift is
corrected at the next tick; without one that the correction can mend, a full retrain begins. -/
def execOscillatorMeasurement (g : Fin 8) (ch : Fin 48) (idle : Bool) (drift : Option Int) (s : State) :
    Host.Outcome State Fault Refusal :=
  if !s.gateUp g || s.chFailed g ch || ((s.gate g).chan ch).retraining then .next s else
  match s.waitUntil (s.oscAt g ch idle) with
  | none => .next s
  | some s =>
    let s := s.modGate g fun x => x.setChan ch { x.chan ch with osc := s.clk.elapsed }
    match drift with
    | none => .next (s.startRetrain g ch)
    | some d => .next (s.modGate g fun x => x.setChan ch { x.chan ch with corrPend := some d })

/-- At a tick, timing corrections take effect (Table GH-5). -/
def State.timingTick (s : State) (g : Nat) : State :=
  s.modGate g fun x =>
    { x with chans := x.chans.filterMap fun (e : Nat × Chan) =>
        match e.2.corrPend with
        | some d =>
          let c : Chan := { e.2 with corr := e.2.corr + d, corrPend := none }
          if c = {} then none else some (e.1, c)
        | none => some e }

/-- A channel fails, once (R189); the requests that wait for its lines complete with memory unavailable. -/
def State.channelFail (s : State) (g ch : Nat) : State :=
  if s.chFailed g ch then s else
  let gone := (s.gate g).lbuf.filter fun e => (placeLine e.line).2.1 == ch
  let s := if ch < 32 then s.setFlag (Loc.gtChFailLo g) ch true else s.setFlag (Loc.gtChFailHi g) (ch - 32) true
  let s := s.setFld (Loc.gtMemSts g) 8 3 (s.fld (Loc.gtMemSts g) 8 3 - 1)
  let s := s.modGate g fun x => x.setChan ch { x.chan ch with retraining := false }
  let s := s.modGate g fun x => { x with lbuf := x.lbuf.filter fun e => (placeLine e.line).2.1 != ch }
  (gone.flatMap (·.queue)).foldl (fun s o => s.gateDone o 0x21 []) (s.post (gtPage g 0) 2 0x45 ch 0)

/-- RETRAIN_DONE (R182): a failed retrain is retried; three in a row fail the channel. -/
def execRetrainDone (g : Fin 8) (ch : Fin 48) (ok : Bool) (s : State) : Host.Outcome State Fault Refusal :=
  let c := (s.gate g).chan ch
  if !c.retraining then .next s
  else if ok then
    .next (((s.modGate g fun x => x.setChan ch { c with retraining := false, fails := 0 }).drainOn g).gateRetry g)
  else if c.fails + 1 ≥ 3 then .next (((s.modGate g fun x => x.setChan ch { c with fails := 3 }).channelFail g ch).gateRetry g)
  else .next ((s.modGate g fun x => x.setChan ch { c with fails := c.fails + 1 }).startRetrain g ch)

/-- Channel and rank places of a die of a package: dies 0 to 3 are rank 0 of channels 0 to 3; dies 4 and 5 are rank 1
of channels 0, 1 and of channels 2, 3 (Table GH-1). -/
def dieRanks (pkg die : Nat) : List Nat :=
  if die < 4 then [(4 * pkg + die) * 2]
  else [(4 * pkg + 2 * (die - 4)) * 2 + 1, (4 * pkg + 2 * (die - 4) + 1) * 2 + 1]

/-- A rank's refresh rate changed, its debt carried over. -/
def State.setDouble (s : State) (g k : Nat) (dbl : Bool) : State :=
  s.modGate g fun x =>
    let r := tget {} x.refresh k
    if r.dbl = dbl then x
    else { x with refresh := tset {} x.refresh k { base := s.clk.elapsed, debt := r.owed x.since s.clk.elapsed, dbl := dbl } }

/-- A readout of a die's mode register 4 takes effect (R181, R183, R371): its refresh multiplier is followed; above its
range the package is limited. -/
def State.mr4Read (s : State) (g pkg die value : Nat) (double above : Bool) : State :=
  let s := s.modGate g fun x => { x with mr4 := tset 0 x.mr4 (pkg * 6 + die) s.clk.elapsed }
  let s := (dieRanks pkg die).foldl (fun s k => s.setDouble g k double) s
  let d := pkg * 6 + die
  if !above then
    s.modGate g fun x =>
      { x with hot := x.hot.map fun h => if h.1 = d ∧ h.2 = 0 then (d, s.clk.elapsed + 1) else h }
  else
    (s.post (gtPage g 2) 2 0x44 pkg value).modGate g fun x =>
      { x with hot := (x.hot.filter fun h => h.1 != d) ++ [(d, 0)] }

/-- When the limit of a package ends: its dies have been within range for 10 ms (R371). -/
def Gate.limitEnd (x : Gate) (pkg : Nat) : Option Nat :=
  let l := x.hot.filter fun h => h.1 / 6 == pkg
  if l.isEmpty || l.any (fun h => h.2 == 0) then none else some ((l.map (·.2)).foldl max 0 - 1 + 10000000)

/-- When a die's next MR4 readout is done: 4 ms after the last in an idle segment of its channels, else 8 ms after it. -/
def State.mr4At (s : State) (g pkg die : Nat) (idle : Bool) : Nat :=
  let last := max (s.gate g).since (tget 0 (s.gate g).mr4 (pkg * 6 + die))
  ((dieRanks pkg die).map fun k => s.workAt g (k / 2) idle (last + 4000000) (last + 8000000)).foldl max 0

/-- MR4_READOUT (R180, R181): in an idle segment once it is due, otherwise when it is forced. -/
def execMr4Readout (g : Fin 8) (pkg : Fin 12) (die : Fin 6) (idle : Bool) (value : BitVec 8) (r : Mr4)
    (s : State) : Host.Outcome State Fault Refusal :=
  if !s.gateUp g then .next s else
  match s.waitUntil (s.mr4At g pkg die idle) with
  | some s => .next (s.mr4Read g pkg die value.toNat r.double r.above)
  | none => .next s

/-- MR4_LIMIT_RELEASE (R371): the package's limit ends, 10 ms after its dies came back into range. -/
def execMr4LimitRelease (g : Fin 8) (pkg : Fin 12) (s : State) : Host.Outcome State Fault Refusal :=
  match ((s.gate g).limitEnd pkg).bind s.waitUntil with
  | none => .next s
  | some s => .next (s.modGate g fun x => { x with hot := x.hot.filter fun h => h.1 / 6 != pkg.val })

/-- One codeword of a patrol read: corrected codewords so far, and whether one was uncorrectable. -/
def State.patrolWord (s : State) (g ch l cw : Nat) (r : Nat × Bool) : State × Nat × Bool :=
  match eccRead 16 36 3 (tget 0 s.memFlip (l * 4 + cw)) with
  | .corrected sym _ => (s.memCorrected g ch l cw sym 1, r.1 + 1, r.2)
  | .uncorrectable => (if r.2 then s else s.memUncorrectable g ch l cw 1, r.1, true)
  | _ => (s, r)

/-- Duration clock at the beginning of a gatehouse's patrol pass. -/
def Gate.passStart (x : Gate) : Nat := max x.since x.passAt

/-- Lines of a pass that have been read and whose channel is in service, and all lines of channels in service (R188, R189). -/
def State.patrolSeen (s : State) (g : Nat) : Nat :=
  ((s.gate g).patrol.filter fun l => !s.chFailed g (placeLine l).2.1).length
def State.patrolAll (s : State) (g : Nat) : Nat := ((List.range 48).filter fun ch => !s.chFailed g ch).length * 2 ^ 23

/-- A line has been read in the pass: its progress shows, and the pass ends with its last line; the next begins one period
after it began (R188). -/
def State.patrolStep (s : State) (g line : Nat) : State :=
  let s := s.modGate g fun x => { x with patrol := x.patrol ++ [line] }
  let n := s.patrolSeen g
  let total := s.patrolAll g
  if n < total then s.setFld (Loc.gtPatrolSts g) 22 16 (100 * n / total) else
  let next := max s.clk.elapsed ((s.gate g).passStart + s.fld (Loc.gtPatrolCtl g) 7 0 * 3600000000000)
  let s := s.modGate g fun x => { x with patrol := [], passAt := next, passLate := false }
  (s.addWrap (Loc.gtPatrolSts g) 15 0 1).setFld (Loc.gtPatrolSts g) 22 16 0

/-- The patrol of a gatehouse reads a line: corrections and uncorrectable lines are recorded (R167, R188). -/
def State.patrolLine (s : State) (g l : Nat) : State :=
  let ch := (placeLine l).2.1
  let r := (List.range 4).foldl (fun r cw => r.1.patrolWord g ch l cw r.2) (s, 0, false)
  let s := r.1.addWrap (Loc.gtPatrolCe g) 31 0 r.2.1
  let s := (List.range r.2.1).foldl (fun s _ => s.bump (gtPage g 2) 5 ch) s
  let s := if r.2.2 then s.addWrap (Loc.gtPatrolUe g) 31 0 1 else s
  s.patrolStep g l

/-- PATROL_READ (R180, R188): in an idle segment of its channel a line that the pass has not read yet is read; nothing is
written. Without an idle segment, or before the pass begins, there is no read. -/
def execPatrolRead (g : Fin 8) (line : BitVec 32) (upset : List (Fin 4 × Nat)) (s : State) :
    Host.Outcome State Fault Refusal :=
  let l := line.toNat
  if !s.gateUp g || !s.flag (Loc.gtPatrolCtl g) 8 || (placeLine l).1 != g || decide (memSize ≤ l * 256) ||
      s.chFailed g (placeLine l).2.1 || s.lineRetrains l || (s.gate g).patrol.contains l then .next s else
  match (s.idleFrom g (placeLine l).2.1).bind fun t => s.waitUntil (max (s.gate g).passStart t) with
  | none => .next s
  | some u => .next ((u.upset l upset).patrolLine g l)

/-- PATROL_LATE (R188): a pass has not finished in twice its period. -/
def execPatrolLate (g : Fin 8) (s : State) : Host.Outcome State Fault Refusal :=
  if !s.gateUp g || !s.flag (Loc.gtPatrolCtl g) 8 || (s.gate g).passLate then .next s else
  match s.waitUntil ((s.gate g).passStart + 2 * s.fld (Loc.gtPatrolCtl g) 7 0 * 3600000000000) with
  | none => .next s
  | some s =>
    let s := s.modGate g fun x => { x with passLate := true }
    .next ((s.setFlag (Loc.gtPatrolSts g) 23 true).post (gtPage g 2) 0 0x43 0 0)

/-- Lines whose code words a page holds, and whether it holds their check bytes (R163, R185). -/
def MPage.lines (p : MPage) (g : Nat) : List Nat × Bool :=
  let a := (if p.rank = 0 then 0 else 0x60000000) + p.row * 2 ^ 15 + p.bank * 2 ^ 11
  if a < 0x80000000 then ((List.range 8).map fun i => lineAt g p.ch (a / 256 + i), false)
  else if a < 0x90000000 then ((List.range 64).map fun i => lineAt g p.ch ((a - 0x80000000) / 32 + i), true)
  else ([], false)

/-- Entries of the remap store by kind. -/
def Gate.storeCount (x : Gate) (kind : Nat) : Nat := (x.store.filter fun e => e.2 == kind).length

/-- REMAP_USE from the store. -/
def State.showStore (s : State) (g : Nat) : State :=
  let x := s.gate g
  let f := x.storeCount 1
  let so := x.storeCount 2
  let fi := x.storeCount 3
  s.put (Loc.gtRemapUse g) (BitVec.ofNat 32 (f + 256 * so + 65536 * fi + 16777216 * (64 - f - so - fi)))

/-- REMAP of a gatehouse written (R185, R186). -/
def State.gtRemapOp (s : State) (g : Nat) (v : Word) : WR :=
  match formCheck (locFields (Loc.gtRemap g)) v with
  | some c => .error c
  | none =>
    if v.bits 26 11 ≥ (if v.bit 6 then 24576 else 49152) then .error 2
    else if s.flag (Loc.gtRemapSts g) 0 then .error 6
    else
      let s := s.put (Loc.gtRemap g) (v.put 31 31 0)
      .ok (if v.bit 31 then s.startPageRemap g ⟨v.bits 5 0, v.bits 6 6, v.bits 10 7, v.bits 26 11⟩ else s)

/-- MEMORY_REMAP: REMAP is written with GO = 1. -/
def execMemoryRemap (f : Func) (g : Fin 8) (v : Word) (s : State) : Host.Outcome State Fault Refusal :=
  let v := v.put 31 31 1
  .next (s.write f (Loc.gtRemap g) v fun s => s.gtRemapOp g v)

/-- The stored-bit errors of a code word that the copier leaves in the entry: none where the code corrects them, the rest where it
miscorrects or misses them (R185). -/
def copiedMask (mask : Nat) : Nat :=
  match eccRead 16 36 3 mask with
  | .corrected _ left => left
  | .silent left => left
  | _ => 0

/-- The copier has read, corrected and written every code word of the page (R185). -/
def State.pageCopied (s : State) (g : Nat) (m : GMirror) : State :=
  let e := (m.page.lines g).1.foldl (fun e l => (List.range 4).foldl (fun e cw =>
    tset 0 e (l * 4 + cw) (copiedMask (tget 0 s.memFlip (l * 4 + cw)))) e) ([] : Tab Nat)
  s.modGate g fun x => { x with mirror := some { m with copied := true, entry := e } }

/-- MEMORY_REMAP_COPY_DONE (R185, R186): the copy has finished; an uncorrectable code word abandons the remap. -/
def execMemoryRemapCopyDone (g : Fin 8) (s : State) : Host.Outcome State Fault Refusal :=
  match (s.gate g).mirror with
  | none => .next s
  | some m =>
    if m.copied then .next s else
    let bad := (m.page.lines g).1.any fun l => (List.range 4).any fun cw =>
      decide (eccRead 16 36 3 (tget 0 s.memFlip (l * 4 + cw)) = .uncorrectable)
    if bad then
      let s := (s.modGate g fun x => { x with mirror := none }).setFlag (Loc.gtRemapSts g) 0 false
      let p := m.page
      .next (((s.setFlag (Loc.gtRemapSts g) 3 true).post (gtPage g 0) 1 0x46 p.ch
        (p.rank * 64 + p.bank * 128 + p.row * 2048)).askPageRemap g)
    else .next (s.pageCopied g m)

/-- At a tick, a copied page is served from the store (R185): what the entry holds takes the place of what the die holds. -/
def State.pageTick (s : State) (g : Nat) : State :=
  match (s.gate g).mirror with
  | none => s
  | some m =>
    if !m.copied then s else
    let q := m.page.lines g
    let keep := if q.2 then 2 ^ 512 - 1 else (2 ^ 64 - 1) * 2 ^ 512
    let part := if q.2 then (2 ^ 64 - 1) * 2 ^ 512 else 2 ^ 512 - 1
    let s := q.1.foldl (fun s l => (List.range 4).foldl (fun s cw =>
      let k := l * 4 + cw
      { s with memFlip := tset 0 s.memFlip k ((tget 0 s.memFlip k &&& keep) ||| (tget 0 m.entry k &&& part)) }) s) s
    let s := s.modGate g fun x =>
      { x with mirror := none, store := x.store ++ [(m.page, 3)], record := x.record ++ [m.page] }
    let s := s.setFld (Loc.gtRemapSts g) 1 0 2
    (((s.showStore g).bump (gtPage g 2) 4 0).askPageRemap g).managed

/-- FLIP_SEL of a gatehouse written (R169). -/
def State.gtFlipSelOp (s : State) (g : Nat) (v : Word) : WR :=
  match formCheck (locFields (Loc.gtFlipSel g)) v with
  | some c => .error c
  | none => if s.flag (Loc.gtFlipSel g) 16 && v.bit 16 then .error 6 else .ok (s.put (Loc.gtFlipSel g) v)

/-- FLIP_D or FLIP_C of a gatehouse written: rejected while a mask is armed (R169). -/
def State.gtFlipDataOp (s : State) (g : Nat) (loc : Loc) (v : Word) : WR :=
  match formCheck (locFields loc) v with
  | some c => .error c
  | none => if s.flag (Loc.gtFlipSel g) 16 then .error 6 else .ok (s.put loc v)

/-- GATE_FLIP_ARM: FLIP_SEL is written with ARM = 1. -/
def execGateFlipArm (f : Func) (g : Fin 8) (v : Word) (s : State) : Host.Outcome State Fault Refusal :=
  let v := v.put 16 16 1
  .next (s.write f (Loc.gtFlipSel g) v fun s => s.gtFlipSelOp g v)

/-- GATE_FLIP_DISARM: FLIP_SEL is written with ARM = 0. -/
def execGateFlipDisarm (f : Func) (g : Fin 8) (v : Word) (s : State) : Host.Outcome State Fault Refusal :=
  let v := v.put 16 16 0
  .next (s.write f (Loc.gtFlipSel g) v fun s => s.gtFlipSelOp g v)

end Sys2Proof.Machine
end

