-- ==== Sys2Proof/Machine/Rows.lean ====
section
/-! DEFINITION. Port rows: rings, offsets, residuals, and the pair masks that rows, lines and links set (R213 to R254). -/

namespace Sys2Proof.Machine

/-! ### Rows and rings (R243, R244) -/

/-- Key of a row. -/
def rowKey (st p : Nat) (rx : Bool) : Nat := st * 8 + 4 * b2n rx + p

def State.row (s : State) (st p : Nat) (rx : Bool) : Row := tget {} s.optics.rows (rowKey st p rx)
def State.modOptics (s : State) (f : Optics → Optics) : State := { s with optics := f s.optics }
def State.modRow (s : State) (st p : Nat) (rx : Bool) (f : Row → Row) : State :=
  s.modOptics fun o => { o with rows := tset {} o.rows (rowKey st p rx) (f (s.row st p rx)) }

/-- The ring that the fuses mark unusable in a row (Table LN-5). DESIGN CHOICE: at most one, since a second one loses the row
(R254; log entry 186). -/
def fusedBad (key : Nat) : List Nat :=
  let j := (Config.fuseBad key).toNat
  if j < 50 then [j] else []

/-- Reference offset of a row as fused: 1 with no unusable ring, 0 or 1 with one (R244, R254). -/
def refOff (key : Nat) : Nat := if (fusedBad key).isEmpty || Config.fuseRef key then 1 else 0

/-- Base code of a ring: as swept, or as fused, within 1,088 to 3,007 (R243). -/
def Row.baseOf (r : Row) (key j : Nat) : Nat :=
  match tget 0 r.base j with
  | 0 => 1088 + (Config.fuseBase key j).toNat % 1920
  | v + 1 => v

/-- Unusable rings: as swept, or as fused (R254, R256). -/
def Row.badOf (r : Row) (key : Nat) : List Nat := r.bad.getD (fusedBad key)

/-- Rings that can serve, in position order (R244). -/
def Row.usable (r : Row) (key : Nat) : List Nat := (List.range 50).filter fun j => !(r.badOf key).contains j

/-- Greatest offset that the row can take (R244, R254). -/
def Row.maxOff (r : Row) (key : Nat) : Nat := if (r.badOf key).isEmpty then 2 else 1

/-- The offset in force, and how far it is from the reference offset. -/
def Row.offOf (r : Row) (key : Nat) : Nat := r.off.getD (refOff key)
def Row.shift (r : Row) (key : Nat) : Int :=
  match r.off with
  | some o => (o : Int) - refOff key
  | none => 0

/-- The ring that serves a line at an offset, and the line that a ring serves (R244). -/
def Row.ringAt (r : Row) (key o l : Nat) : Option Nat := (r.usable key)[o + l]?
def Row.lineOf (r : Row) (key j : Nat) : Option Nat :=
  let i := (r.usable key).idxOf j
  let o := r.offOf key
  if (r.badOf key).contains j ∨ i < o ∨ 48 ≤ i - o then none else some (i - o)

/-- What the base code of a ring becomes with the row's residual at 0: rings above a replaced ring serve a line one position
lower, and their codes are 1,600 higher (R254). DESIGN CHOICE: base codes are those of the row without the replacement (log
entry 187). -/
def Row.zeroOf (r : Row) (key j : Nat) : Int :=
  (r.baseOf key j : Int) + if (r.badOf key).any fun k => k < j then 1600 else 0

/-- Code that a ring in use needs (R243): a receive ring also stands 4 codes off its line (R245). -/
def Row.needOf (r : Row) (key : Nat) (dither : Int) (j : Nat) : Int :=
  r.zeroOf key j + r.resid + tget 0 r.trims j + if key / 4 % 2 = 1 then dither else 0

/-- Code of a ring; an idle or unusable ring is held at 0 (R244), and no heater leaves 0 to 4,095. -/
def Row.codeOf (r : Row) (key : Nat) (dither : Int) (j : Nat) : Int :=
  match r.lineOf key j with
  | some _ => max 0 (min 4095 (r.needOf key dither j))
  | none => 0

/-- A ring would need a code outside 0 to 4,095 (R249). -/
def Row.offRange (r : Row) (key : Nat) (dither : Int) : Bool :=
  (List.range 50).any fun j => (r.lineOf key j).isSome &&
    (decide (r.needOf key dither j < 0) || decide (4095 < r.needOf key dither j))

/-! ### The window (R249, R251, R254, R257) -/

/-- Residuals at which every code of a row with a replaced ring stays within 0 to 4,095 at an offset; within ±960 for a row
without one (R249, R254). -/
def Row.span (r : Row) (key o : Nat) : Int × Int :=
  if (r.badOf key).isEmpty then (-960, 960) else
  let zs := (List.range 48).filterMap fun l => (r.ringAt key o l).map (r.zeroOf key)
  (-(zs.foldl min 4095), 4095 - zs.foldl max 0)

/-- Drift of a row in codes, for a change of temperature in 1/64 °C from its reference, and the change for a drift. -/
def driftOf (key : Nat) (temp : Int) : Int := (-(temp * (Config.fuseSlope key).toNat)).tdiv 40
def tempOf (key : Nat) (drift : Int) : Int := (-(drift * 40)).tdiv (Config.fuseSlope key).toNat

/-- Residual of a row at an offset for its drift. -/
def residAt (key o : Nat) (drift : Int) : Int := drift + 1600 * ((o : Int) - refOff key)

/-- Window of a row in 1/64 °C from its reference temperature: from the highest drift at offset 0 to the lowest at the highest
offset (R249, R254). -/
def Row.window (r : Row) (key : Nat) : Int × Int :=
  let m := r.maxOff key
  (tempOf key ((r.span key 0).2 - residAt key 0 0), tempOf key ((r.span key m).1 - residAt key m 0))

/-- The offset that a sweep sets for a drift: the one with the least residual. DESIGN CHOICE (log entry 188). -/
def Row.sweptOff (r : Row) (key : Nat) (drift : Int) : Nat :=
  (List.range (r.maxOff key + 1)).foldl (fun b o =>
    if (residAt key o drift).natAbs < (residAt key b drift).natAbs then o else b) 0

/-! ### What takes a row out -/

/-- A row is being swept, masked for a sweep, or waits for its masks to clear. -/
def State.rowSwept (s : State) (st p : Nat) : Bool :=
  s.optics.sweeps.any fun w => w.st == st && w.plane == p && w.phase != 0

/-- A port row is masked for a sweep, its window or its loss (ROW_STS.OUT), or masked while it waits for a rescue (R253). -/
def State.rowOut (s : State) (st p : Nat) : Bool :=
  s.rowSwept st p || (s.optics.rescue.any fun r => r.st == st && r.plane == p && r.masked) ||
    [false, true].any fun rx => (s.row st p rx).lost || (s.row st p rx).outside

/-! ### Masks -/

/-- Side of a station. -/
def stSide (st : Nat) : Nat := stPlinth st

/-- A bit of PAIR_MASK set or cleared. -/
def State.setMask (s : State) (a b p : Nat) (on : Bool) : State :=
  s.setFlag (Loc.plPairMask (stPlinth a)) p on (pairIdx a b)

/-- Comb line of an ordered pair (R192). -/
def lineNo (a b : Nat) : Nat := (b + 48 - a) % 48

def State.lineSt (s : State) (e l : Nat) : LineSt := tget {} s.optics.lines (e * 48 + l)
def State.modLine (s : State) (e l : Nat) (f : LineSt → LineSt) : State :=
  s.modOptics fun o => { o with lines := tset {} o.lines (e * 48 + l) (f (s.lineSt e l)) }

/-- A cause beside lost lines holds a plane of a pair masked: software for this direction, a failed link, a missing lane, a
row that is out, a plinth in reset (R215, R225, R228, R249, R449). -/
def State.maskedElse (s : State) (a b p : Nat) : Bool :=
  let one (x y : Nat) : Bool := (s.link x y p).st == some 3 || (s.link x y p).noTx || (s.link x y p).noRx
  (tget 0 s.swMask (pairKey a b)).testBit p || one a b || one b a || s.rowOut a p || s.rowOut b p || (s.plinth (p / 2)).out != 0

/-- A lost line masks a pair, in either direction (R239). -/
def State.lineMasked (s : State) (a b : Nat) : Bool :=
  (s.lineSt (stSide a) (lineNo a b)).masked || (s.lineSt (stSide b) (lineNo b a)).masked

/-- A cause holds a plane of a pair masked. -/
def State.maskHeld (s : State) (a b p : Nat) : Bool := s.maskedElse a b p || s.lineMasked a b

/-- The belfry clears a mask bit of a pair, unless another cause still holds it. -/
def State.unmask (s : State) (a b p : Nat) : State := if s.maskHeld a b p then s else s.setMask a b p false

/-- A plane of a pair masked in both directions. -/
def State.maskBoth (s : State) (a b p : Nat) : State := (s.setMask a b p true).setMask b a p true
def State.unmaskBoth (s : State) (a b p : Nat) : State := (s.unmask a b p).unmask b a p

/-- The other stations. -/
def peers (st : Nat) : List Nat := (List.range 48).filter fun o => o != st

/-- A corrected error record of a plane mask (`kind` 0) or a detour (1) of a station (R13). Table FA-5 gives a code only where a
failed link, row, line or lantern set the mask: the code of the others is free (log entry 160). -/
def State.reportMask (s : State) (kind st info : Nat) : State :=
  s.post (plPage (stPlinth st) 2) 0 (Config.stateCode kind).toNat (stLocal st) info

/-- A port row's plane masked for its station, in both directions (R250). -/
def State.maskRow (s : State) (st p : Nat) : State := (peers st).foldl (fun s o => s.maskBoth st o p) s
def State.unmaskRow (s : State) (st p : Nat) : State := (peers st).foldl (fun s o => s.unmaskBoth st o p) s

/-- A port row's plane masked for a sweep, and reported (R13, R250). -/
def State.maskSwept (s : State) (st p : Nat) : State := (s.maskRow st p).reportMask 0 st (63 + 256 * 2 ^ p)

/-- Calibration page of a station's plinth, and an event of it (Table RG-6). -/
def State.calEvent (s : State) (code st : Nat) : State := s.bump (plPage (stPlinth st) 0x10) code (stLocal st)

/-- A row wants a rescue (R253), for a seam lane or for another reason; not while it is masked for a sweep or swept, nor when
it is lost. -/
def State.askRescue (s : State) (st p : Nat) (seam : Bool) : State :=
  if (s.optics.sweeps.any fun w => w.st == st && w.plane == p && (w.phase == 1 || w.phase == 2)) ||
      (s.row st p false).lost || (s.row st p true).lost then s
  else s.modOptics fun o =>
    { o with rescue :=
        if o.rescue.any fun r => r.st == st && r.plane == p then
          o.rescue.map fun r => if r.st = st ∧ r.plane = p then { r with seam := r.seam || seam } else r
        else o.rescue ++ [{ st := st, plane := p, seam := seam }] }
def State.wantRescue (s : State) (st p : Nat) : State := s.askRescue st p false

end Sys2Proof.Machine
end

