-- ==== Sys2Proof/Machine/HostMem.lean ====
section
/-! DEFINITION. Accesses of the host to device memory inside the device: from the belfry that owns the host link to the gatehouses and
back (R15, R457, R458). -/

namespace Sys2Proof.Machine

/-- A function of the host changed. -/
def State.modFn (s : State) (i : Nat) (f : HostFn → HostFn) : State := { s with fns := lmod s.fns i f }

/-- AER of a function records a Completer Abort of a request at an offset (R461, R440). -/
def State.aerAbort (s : State) (m at_ : Nat) (len : Nat := 4) : State :=
  (s.modFn m fun x => { x with aer := true, aerAt := at_, aerLen := len }).postGlobal 2 0xBB m 0x8000 (some (fnPart m))

/-- The station of the belfry that owns the host link (R15): 22 East, 25 West. -/
def State.hostStation (s : State) : Nat := if s.holder = some 1 then 25 else 22

def State.hostOp (s : State) (id : Nat) : Option HostOp := s.hostOps.find? fun o => o.id == id
def State.modHostOp (s : State) (id : Nat) (f : HostOp → HostOp) : State :=
  { s with hostOps := s.hostOps.map fun o => if o.id = id then f o else o }

/-- The bytes that a host read asked for, out of the lines that came. -/
def HostOp.bytes (o : HostOp) : List Byte :=
  (((List.range ((o.skip + o.len + 255) / 256)).flatMap fun i => tget [] o.got i).drop o.skip).take o.len

/-- An access of the host is over: a read completes with its bytes, or with Completer Abort; an uncorrectable line is an AER error too
(R457, Table FA-6). -/
def State.hostOver (s : State) (o : HostOp) : State :=
  let s := { s with hostOps := s.hostOps.filter fun x => x.id != o.id }
  if !o.read then s
  else if o.status = 0 then { s with resp := .bytes o.bytes }
  else if o.status = 0x20 then { s.aerAbort o.m o.offset with resp := .abort }
  else { s with resp := .abort }

/-- One line of an access of the host is answered. -/
def State.hostLine (s : State) (id i st : Nat) (data : List Byte) : State :=
  match s.hostOp id with
  | none => s
  | some o =>
    let o := { o with left := o.left - 1, got := tset [] o.got i data, status := if o.status = 0 then st else o.status }
    if o.left = 0 then s.hostOver o else s.modHostOp id fun _ => o

/-- One line of an access of the host leaves for its gatehouse, or is answered at once. -/
def State.hostGo (s : State) (id : Nat) (x : Nat × Nat × Hdr) : State :=
  let line := x.2.2.line.toNat
  let st := if line ≥ memSize / 256 then 0x10 else s.lineStatus line
  if st ≠ 0 then s.hostLine id x.1 st [] else
  let r := s.openCall s.hostStation x.2.1 (.host id x.1) x.2.2
  if r.2 then r.1 else s.hostLine id x.1 0x33 []

/-- The lines of an access that have not left leave, while the belfry's die has an identifier free. -/
def State.hostSend (s : State) (id : Nat) : State :=
  match s.hostOp id with
  | none => s
  | some o =>
    o.todo.foldl (fun s x =>
      if !s.tidRoom s.hostStation then s
      else (s.modHostOp id fun o => { o with todo := o.todo.drop 1 }).hostGo id x) s

/-- An access of the host begins: its lines, each with its header. -/
def State.hostBegin (s : State) (o : HostOp) (l : List (Nat × Hdr)) : State :=
  let id := s.nextHost
  let o := { o with id := id, left := l.length, todo := l.map fun x => (x.1, lineStation x.2.line.toNat, x.2) }
  if l.isEmpty then s else ({ s with hostOps := s.hostOps ++ [o], nextHost := id + 1 } : State).hostSend id

/-- A line of an access has its answer from the gatehouse, and lines that waited for an identifier leave. -/
def State.hostArrived (s : State) (id i st : Nat) (data : List Byte) : State :=
  (s.hostOps.map (·.id)).foldl (fun s j => s.hostSend j) (s.hostLine id i st data)

end Sys2Proof.Machine
end

