-- ==== Sys2Proof/Machine/Tasks.lean ====
section
/-! DEFINITION. Task descriptors, the operations of cells, relay and stealing (R55 to R72, R77). -/

namespace Sys2Proof.Machine

/-! ### The task store (R60 to R63) -/

/-- Bits of EXT that an operation does not use are set (Table SP-5). DESIGN CHOICE: they are reserved bits, rejected with
0x01 and not as a breach of the table (log entry 166). -/
def extReserved (q : QTask) : Bool :=
  let a := q.ext0
  let b := q.ext1
  match q.op with
  | 0x02 => a / 2 ^ 8 != 0
  | 0x04 => b / 2 ^ 8 != 0
  | 0x05 => b / 2 ^ 8 != 0
  | 0x06 => a / 2 ^ 29 != 0
  | 0x0A => a / 2 ^ 8 != 0 || b != 0
  | 0x10 => a / 2 ^ 24 != 0 || b / 2 ^ 25 != 0
  | 0x11 => a / 2 ^ 16 != 0 || b != 0
  | 0x01 => a != 0 || b != 0
  | 0x03 => a != 0 || b != 0
  | 0x07 => a != 0 || b != 0
  | 0x08 => a != 0 || b != 0
  | 0x09 => a != 0 || b != 0
  | _ => false

/-- Formats of an MMA (R56), and its MX rule (R58). -/
def mmaForm (q : QTask) : Bool :=
  let cls (f : Nat) : Nat := if f = 0 then 0 else if f ≤ 2 then 1 else if f ≤ 7 then 2 else if f ≤ 9 then 3 else 4
  let mxf (f : Nat) : Bool := decide (3 ≤ f ∧ f ≤ 8)
  cls q.fmtA == cls q.fmtB && cls q.fmtA != 4 && (q.fmtD == 0 || q.fmtD == 0xA) &&
    (!q.mx || (q.count % 32 == 0 && mxf q.fmtA && mxf q.fmtB))

/-- Address space of a cell address. -/
def aspace (a : Nat) : Nat := bitsOf a 31 30

/-- The fields of a descriptor are in range (R62). -/
def taskForm (q : QTask) : Bool :=
  let op := q.op
  let known := decide ((1 ≤ op ∧ op ≤ 0xA) ∨ op = 0x10 ∨ op = 0x11)
  let isDu := decide (op ≥ 0x10)
  let relay := op == 1 || op == 8
  let common := known && q.fmtA ≤ 0xA && q.fmtB ≤ 0xA && q.fmtD ≤ 0xA && q.rnd ≤ 1 && q.du == isDu &&
    (!isDu || q.cell == 0) && (relay || !(q.aIn || q.aOut || q.bIn || q.bOut)) && (!q.mx || op == 1) &&
    q.count ≤ 65536 && (q.count != 0 || op == 9) && (!q.aIn || aspace q.srcA == 3) && (!q.bIn || aspace q.srcB == 3)
  let own : Bool := match op with
    | 0x01 => mmaForm q
    | 0x02 => decide (q.ext0 % 256 ≤ 0xD)
    | 0x04 => q.ext0 % 256 == 0
    | 0x05 => q.ext0 % 256 == 0
    | 0x06 => decide (q.count ≤ 255) && bitsOf q.ext1 31 12 != 0xFFFFE
    | 0x07 => aspace q.srcB == 0
    | 0x10 => bitsOf q.ext0 23 16 != 0 &&
        decide (1 ≤ bitsOf q.ext1 24 12 ∧ bitsOf q.ext1 24 12 ≤ 4096 ∧ bitsOf q.ext1 11 0 + bitsOf q.ext1 24 12 ≤ 4096) &&
        (aspace q.srcA == 1 || aspace q.srcA == 2)
    | _ => true
  common && own

/-- The commit check of R62: the reject code, if the descriptor fails. `p` is the spire's partition. -/
def State.taskCheck (s : State) (p : Nat) (w : List Nat) : Option Nat :=
  let q : QTask := { words := w }
  let addr := [q.srcA, q.srcB, q.dst].filterMap addrCheck
  if bitsOf (q.word 0) 19 17 ≠ 0 ∨ bitsOf (q.word 0) 31 30 ≠ 0 ∨ bitOf (q.word 1) 15 ∨ bitsOf (q.word 5) 31 23 ≠ 0 ∨
      extReserved q ∨ addr.contains 1 then some 1
  else if addr.contains 2 ∨ !taskForm q then some 2
  else if q.op = 6 ∧ !s.tagOf p (bitsOf q.ext1 11 0) then some 4
  else none

/-- A descriptor commit: R62, then R32 for descriptors (R63). -/
def State.tskCommit (s : State) (n i : Nat) (w : List Nat) : WR :=
  match s.taskCheck (s.spireOwner n) w with
  | some c => .error c
  | none => if s.taskLocked n i then .error 7 else .ok (s.putWords (Loc.spTskData n) i w)

/-- A staging word of the task window written; the last commits (R63). -/
def State.tskDataOp (s : State) (n k : Nat) (v : Word) : WR :=
  let busy := s.flag (Loc.spTskLoad n) 30
  if k < 7 then (if busy then .error 6 else .ok (s.put (Loc.spTskData n k) v staging)) else
  let w := s.staged (Loc.spTskData n) 8 v
  match s.taskCheck (s.spireOwner n) w with
  | some c => .error c
  | none =>
    if busy then .error 6 else
    match s.tskCommit n (s.fld (Loc.spTskSel n) 13 0) w with
    | .error c => .error c
    | .ok t => .ok (t.autoInc (Loc.spTskSel n) 13 16384)

/-- TSK_SEL written: rejected while a load runs. -/
def State.tskSelOp (s : State) (n : Nat) (v : Word) : WR :=
  match formCheck (locFields (Loc.spTskSel n)) v with
  | some c => .error c
  | none => if s.flag (Loc.spTskLoad n) 30 then .error 6 else .ok (s.put (Loc.spTskSel n) v)

/-- TASK_COMMIT: TSK_DATA7 is written. -/
def execTaskCommit (f : Func) (n : Fin 16) (v : Word) (s : State) : Host.Outcome State Fault Refusal :=
  .next (s.write f (Loc.spTskData n 7) v fun s => s.tskDataOp n 7 v)

/-- TSK_LOAD written (R63, R31). -/
def State.tskLoadOp (s : State) (f : Func) (n : Nat) (v : Word) : WR :=
  let loc := Loc.spTskLoad n
  let first := v.bits 13 0
  let count := v.bits 28 14
  let addr := s.addrOf (Loc.spTskLoadAddrLo n)
  match s.bulkCheck loc v addr first count 16384 32768 32 with
  | some c => .error c
  | none =>
    if !v.bit 31 then .ok (s.bulkStore loc v false)
    else if (List.range count).any fun i => s.taskLocked n ((first + i) % 16384) then .error 7
    else .ok ((s.bulkStore loc v true).startLoad (.tsk n) { next := first, left := count, addr := addr, f := f })

/-- TSK_LOAD: TSK_LOAD is written with GO = 1. -/
def execTskLoad (f : Func) (n : Fin 16) (v : Word) (s : State) : Host.Outcome State Fault Refusal :=
  let v := v.put 31 31 1
  .next (s.write f (Loc.spTskLoad n) v fun s => s.tskLoadOp f n v)

/-- TSK_LOAD_ENTRY_COMMIT (R63, R31): the next descriptor of a load, whose line has come, is committed whole, or leaves its place as
it was. -/
def execTskLoadEntryCommit (n : Fin 16) (s : State) : Host.Outcome State Fault Refusal :=
  match (s.spire n).tskLoad with
  | none => .next s
  | some b =>
    match b.entry 32 with
    | none => .next (s.askLoad (.tsk n))
    | some r =>
      let t := match r with
        | none => s
        | some w => s.settle b.f (Loc.spTskLoad n) (s.tskCommit n b.next w)
      .next (t.loadNext (.tsk n) (Loc.spTskLoad n) (b.step 32 16384))

/-! ### Starting tasks (R64) -/

def Cell.unit (c : Cell) (u : Nat) : Option ATask := if u = 0 then c.m else if u = 1 then c.v else c.x
def Cell.setUnit (c : Cell) (u : Nat) (a : Option ATask) : Cell :=
  if u = 0 then { c with m := a } else if u = 1 then { c with v := a } else { c with x := a }

/-- Bytes of relay input that a task takes from the west and from the north. -/
def QTask.needW (q : QTask) : Nat :=
  if !q.aIn then 0 else if q.op = 8 then 256 * q.count else stripBytes q.fmtA q.count q.mx
def QTask.needN (q : QTask) : Nat :=
  if !q.bIn then 0 else if q.op = 8 then 256 * q.count else stripBytes q.fmtB q.count q.mx

/-- Entries taken from a receive buffer until a task has what it needs (R67, R68). -/
def takeEntries (need : Nat) : List (List Byte) → List (List Byte) → List (List Byte) × List (List Byte)
  | [], t => ([], t)
  | e :: l, t => if t.flatten.length ≥ need then (e :: l, t) else takeEntries need l (t ++ [e])

/-- A running relay task consumes its input. -/
def Cell.absorb (c : Cell) : Cell :=
  match c.m with
  | none => c
  | some a =>
    if a.done then c else
    let w := takeEntries a.q.needW c.inW c.takeW
    let n := takeEntries a.q.needN c.inN c.takeN
    { c with inW := w.1, takeW := w.2, inN := n.1, takeN := n.2 }

/-- The head of a cell's queue may start: its unit is free, its ticket is there, FENCE holds (R64). -/
def State.headReady (s : State) (n c : Nat) (q : QTask) : Bool :=
  let x := s.cell n c
  s.ticketOk n q && (!q.fence || (x.m.isNone && x.v.isNone && x.x.isNone)) && (x.unit (opUnit q.op)).isNone

/-- Time passes until a descriptor is through the crossing to its cell (R78, R334); none when a tick comes first. -/
def State.arriving (s : State) (q : QTask) : Option State :=
  if q.due ≤ s.clk.elapsed then some s else s.waitUntil q.due

/-- TASK_START (R64): the head of a cell's queue starts on its unit, or the head of the dispatch unit's queue, whose expert
map is that in force now (R87). Heads of failed cells retire (R77); a TICKET uses no unit. -/
def execTaskStart (n : Fin 16) (c : Option (Fin 64)) (s : State) : Host.Outcome State Fault Refusal :=
  if (s.spire n).out != 0 then .next s else
  match c with
  | none =>
    let du := (s.spire n).du
    match du.cur, du.queue with
    | none, q :: rest =>
      if !s.ticketOk n q then .next s else
      let first := bitsOf q.ext1 11 0
      let map := (List.range (bitsOf q.ext1 24 12)).map fun i => (s.get (Loc.spXmapData n) (first + i)).toNat
      .next (s.modSpire n fun sp => { sp with du := { queue := rest, cur := some { a := { q := q }, map := map } } })
    | _, _ => .next s
  | some c =>
    match (s.cell n c).queue with
    | [] => .next s
    | q :: rest =>
      if (s.cell n c).failed then
        .next (((s.modCell n c fun x => { x with queue := rest }).retireLost n c q).settleAll)
      else if opUnit q.op ≥ 3 ∨ !s.headReady n c q then .next s
      else match s.arriving q with
      | none => .next s
      | some s => .next (s.modCell n c fun x => ({ x with queue := rest }.setUnit (opUnit q.op) (some { q := q })).absorb)

/-- TICKET (R64): a TICKET at the head of a queue starts and retires as soon as its conditions hold. -/
def execTicket (n : Fin 16) (c : Fin 64) (s : State) : Host.Outcome State Fault Refusal :=
  let x := s.cell n c
  match x.queue with
  | q :: rest =>
    if q.op ≠ 9 ∨ (s.spire n).out != 0 ∨ x.failed ∨ !s.ticketOk n q ∨
        (q.fence ∧ !(x.m.isNone && x.v.isNone && x.x.isNone)) then .next s
    else match s.arriving q with
      | none => .next s
      | some s => .next (((s.modCell n c fun x => { x with queue := rest }).retire n c { q := q, done := true }).settleAll)
  | [] => .next s

/-- The task of an operation in progress at a unit of a cell, whose action is still to come. -/
def State.running (s : State) (n c op : Nat) : Option ATask :=
  match (s.cell n c).unit (opUnit op) with
  | some a => if a.q.op = op ∧ !a.done ∧ a.wait = 0 ∧ (s.spire n).out = 0 then some a else none
  | none => none

/-- The action of a unit's task is complete, with a cause and status. -/
def State.acted (s : State) (n c op cause status : Nat) : State :=
  s.modCell n c fun x => x.setUnit (opUnit op) ((x.unit (opUnit op)).map fun a => a.fail cause status)

/-! ### Operands -/

/-- What an operand gives: it is still on its way, it fails with a cause, or bytes. -/
inductive Got where
  | wait
  | bad (cause : Nat)
  | ok (b : List Byte)

/-- An operand in memory. -/
def State.operand (s : State) (n : Nat) (p : Spot) (off len : Nat) : State × Got :=
  if !p.fits off len then (s, .bad 1) else
  let r := s.spotRead n p off len
  (r.1, match r.2 with | some b => .ok b | none => .bad 2)

/-- An operand of a relay task: from the west, from the north, or from memory. -/
def State.relayOperand (s : State) (n c : Nat) (q : QTask) (isA : Bool) (len : Nat) : State × Got :=
  let rel := if isA then q.aIn else q.bIn
  if !rel then s.operand n (spotOf q.cell (if isA then q.srcA else q.srcB)) 0 len
  else if (if isA then c % 8 = 0 else c < 8) then (s, .bad 5)
  else
    let x := s.cell n c
    let have_ := (if isA then x.takeW else x.takeN).flatten
    (s, if have_.length ≥ len then .ok (have_.take len) else .wait)

/-- A forwarding direction has no neighbour (R68). -/
def noNeighbour (c : Nat) (q : QTask) : Bool := (q.aOut && c % 8 == 7) || (q.bOut && decide (c ≥ 56))

/-- Bytes cut into relay entries of 64 B. -/
def entries64 : Nat → List Byte → List (List Byte)
  | 0, _ => []
  | f + 1, b => if b.isEmpty then [] else b.take 64 :: entries64 f (b.drop 64)

/-- Strips leave for the neighbours, and the input of the task is used up. -/
def State.forward (s : State) (n c : Nat) (q : QTask) (a b : List Byte) : State :=
  s.modCell n c fun x =>
    { x with
      outE := if q.aOut then x.outE ++ entries64 (a.length / 64 + 1) a else x.outE
      outS := if q.bOut then x.outS ++ entries64 (b.length / 64 + 1) b else x.outS
      takeW := if q.aIn then [] else x.takeW
      takeN := if q.bIn then [] else x.takeN }

/-! ### MMA (R55, R105 to R116) -/

/-- The seed in use (R117). -/
def State.rngSeed (s : State) (n : Nat) : Nat := s.get64 (Loc.spRngSeedLo n)

/-- The random number of an element of a task, when RND is 1 (R115, R116). -/
def State.rand (s : State) (n : Nat) (q : QTask) (e : Nat) : Option Nat :=
  if q.rnd = 1 then some (srRandom (s.rngSeed n) q.frames q.desc e) else none

/-- The accumulators after a task's steps, in element order. -/
def mmaSteps (arr : Arr) (q : QTask) (clear mism : Bool) (sa sb : Nat) : List (Int × Nat × Nat) :=
  (List.range 1024).map fun i =>
    let st : Int × Nat × Nat := if clear then (0, 0, 0) else (tget 0 arr.acc i, tget 0 arr.flags i, 0)
    if mism then (st.1, st.2.1 ||| 4, 0)
    else mmaElement q.fmtA q.fmtB q.mx q.count sa sb (i / 32) (i % 32) st

/-- The array after a task, and the accumulators. -/
def mmaArr (arr : Arr) (q : QTask) (clear mism : Bool) (l : List (Int × Nat × Nat)) : Arr :=
  let acc := l.zipIdx.filterMap fun (x : (Int × Nat × Nat) × Nat) => if x.1.1 = 0 then none else some (x.2, x.1.1)
  let fl := l.zipIdx.filterMap fun (x : (Int × Nat × Nat) × Nat) => if x.1.2.1 = 0 then none else some (x.2, x.1.2.1)
  if clear && !mism then
    { mode := if isFixed q.fmtA q.mx then 1 else 2, fmtA := q.fmtA, fmtB := q.fmtB, mx := q.mx, acc := acc, flags := fl }
  else { arr with acc := acc, flags := fl }

/-- Results of a finishing task: codes in element order, and the events (Table NF-5). -/
def State.mmaFinish (s : State) (n : Nat) (q : QTask) (mode : Nat) (l : List (Int × Nat × Nat)) : List Nat × AEv :=
  let lw := fixWeight q.fmtA + fixWeight q.fmtB
  let r := l.zipIdx.map fun (x : (Int × Nat × Nat) × Nat) =>
    let v := accFinish mode lw x.1.1 x.1.2.1
    let rnd := match if q.fmtD = 0 then s.rand n q x.2 else none with | some r => Rnd.sr r | none => .rne
    let c := (if q.fmtD = 0 then fp32 else fw48).encode rnd v.1
    (c.1, AEv.add c.2 { nan := b2n v.2 })
  (r.map (·.1), (r.map (·.2)).foldl AEv.add {})

/-- MMA on operand strips (R55, R105 to R112). -/
def State.mmaRun (s : State) (n c : Nat) (q : QTask) (a b : List Byte) : State :=
  let arr := (s.cell n c).arr
  let clear := q.acc % 2 == 0
  let mism := !clear && (arr.mode == 0 || arr.fmtA != q.fmtA || arr.fmtB != q.fmtB || arr.mx != q.mx)
  let l := mmaSteps arr q clear mism (leNat a) (leNat b)
  let arr := mmaArr arr q clear mism l
  let s := s.modCell n c fun x => { x with arr := arr }
  let ovf := (l.map fun x => x.2.2).sum
  let s := s.arithEv n c { ovf := ovf, mism := b2n mism }
  let s := s.bump (spPage n 0) 3 c (mmaCycles q.fmtA q.fmtB q.count) (s.spireOwner n)
  let s := s.forward n c q a b
  if q.acc < 2 then s else
  let r := s.mmaFinish n q arr.mode l
  (s.arithEv n c r.2).spotWrite n (spotOf q.cell q.dst) (taskWriter q) 0 (packBytes q.fmtD r.1)

/-- MMA: a started MMA streams its strips, accumulates and, on finish, writes 1,024 results. -/
def execMma (n : Fin 16) (c : Fin 64) (s : State) : Host.Outcome State Fault Refusal :=
  match s.running n c 1 with
  | none => .next s
  | some a =>
    let q := a.q
    if noNeighbour c q then .next (s.acted n c 1 5 0) else
    if q.acc ≥ 2 ∧ !(spotOf q.cell q.dst).fits 0 (elemBytes q.fmtD 1024) then .next (s.acted n c 1 1 0) else
    let ra := s.relayOperand n c q true (stripBytes q.fmtA q.count q.mx)
    match ra.2 with
    | .wait => .next s
    | .bad k => .next (ra.1.acted n c 1 k 0)
    | .ok sa =>
      let rb := ra.1.relayOperand n c q false (stripBytes q.fmtB q.count q.mx)
      match rb.2 with
      | .wait => .next s
      | .bad k => .next (rb.1.acted n c 1 k 0)
      | .ok sb => .next ((rb.1.mmaRun n c q sa sb).acted n c 1 0 0)

/-- RELAY (Table SP-5): COUNT lines from SRC_A or from relay input go to DST and onward. -/
def execRelay (n : Fin 16) (c : Fin 64) (s : State) : Host.Outcome State Fault Refusal :=
  match s.running n c 8 with
  | none => .next s
  | some a =>
    let q := a.q
    let len := 256 * q.count
    let store := aspace q.dst != 3
    if noNeighbour c q then .next (s.acted n c 8 5 0) else
    if store ∧ !(spotOf q.cell q.dst).fits 0 len then .next (s.acted n c 8 1 0) else
    -- the strip from the west, or from SRC_A; the strip from the north when B_IN is set
    let ra := if q.bIn ∧ !q.aIn then s.relayOperand n c q false len else s.relayOperand n c q true len
    match ra.2 with
    | .wait => .next s
    | .bad k => .next (ra.1.acted n c 8 k 0)
    | .ok x =>
      let rb := if q.aIn ∧ q.bIn then ra.1.relayOperand n c q false len else (ra.1, .ok x)
      match rb.2 with
      | .wait => .next s
      | .bad k => .next (rb.1.acted n c 8 k 0)
      | .ok y =>
        let s := rb.1.forward n c q x y
        let s := if store then s.spotWrite n (spotOf q.cell q.dst) (taskWriter q) 0 x else s
        .next (s.acted n c 8 0 0)

/-! ### VOP (R118 to R120) -/

/-- The last byte of a run that ends inside it: the bits above the run are a free value. -/
def State.padRun (s : State) (bits : Nat) (b : List Byte) : State × List Byte :=
  if bits % 8 = 0 then (s, b) else
  let r := s.draw
  let k := b.length - 1
  let last := (b.getD k 0).toNat % 2 ^ (bits % 8)
  (r.2, b.take k ++ [BitVec.ofNat 8 (last + r.1 * 2 ^ (bits % 8))])

/-- A VOP on its operands: codes and events. DESIGN CHOICE: the one result of a reduction is rounded as element 0
(log entry 171). -/
def State.vopCodes (s : State) (n : Nat) (q : QTask) (a b d : List Byte) : List Nat × AEv :=
  let fn := q.ext0 % 256
  let xs := unpack q.fmtA q.count (leNat a)
  if fn ≥ 0xC then
    let r := vopReduce fn q.fmtA q.fmtD (s.rand n q 0) xs
    ([r.1], r.2)
  else
    let ys := unpack q.fmtB q.count (leNat b)
    let ds := unpack q.fmtD q.count (leNat d)
    let r := xs.zipIdx.map fun (x : Nat × Nat) =>
      vopElem fn q.fmtA q.fmtB q.fmtD (s.rand n q x.2) q.ext1 x.1 (ys.getD x.2 0) (ds.getD x.2 0)
    (r.map (·.1), (r.map (·.2)).foldl AEv.add {})

/-- VOP: a started VOP computes its function over COUNT elements. -/
def execVop (n : Fin 16) (c : Fin 64) (s : State) : Host.Outcome State Fault Refusal :=
  match s.running n c 2 with
  | none => .next s
  | some a =>
    let q := a.q
    let fn := q.ext0 % 256
    let outN := if fn ≥ 0xC then 1 else q.count
    let dst := spotOf q.cell q.dst
    if !dst.fits 0 (elemBytes q.fmtD outN) then .next (s.acted n c 2 1 0) else
    let ra := s.operand n (spotOf q.cell q.srcA) 0 (elemBytes q.fmtA q.count)
    match ra.2 with
    | .ok xa =>
      let rb := if fn ≤ 5 then ra.1.operand n (spotOf q.cell q.srcB) 0 (elemBytes q.fmtB q.count) else (ra.1, .ok [])
      match rb.2 with
      | .ok xb =>
        let rd := if fn = 3 then rb.1.operand n dst 0 (elemBytes q.fmtD q.count) else (rb.1, .ok [])
        match rd.2 with
        | .ok xd =>
          let r := rd.1.vopCodes n q xa xb xd
          let w := (rd.1.arithEv n c r.2).padRun (fmtBits q.fmtD * outN) (packBytes q.fmtD r.1)
          .next ((w.1.spotWrite n dst (taskWriter q) 0 w.2).acted n c 2 0 0)
        | .bad k => .next (rd.1.acted n c 2 k 0)
        | .wait => .next s
      | .bad k => .next (rb.1.acted n c 2 k 0)
      | .wait => .next s
    | .bad k => .next (ra.1.acted n c 2 k 0)
    | .wait => .next s

/-! ### MOVE, LOAD, STORE (R61, R161, R440) -/

/-- The lines of a MOVE copied in order; whether one did not read cleanly. -/
def State.moveLines (s : State) (n : Nat) (q : QTask) : State × Bool :=
  let src := spotOf q.cell q.srcA
  let dst := spotOf q.cell q.dst
  (List.range q.count).foldl (fun (r : State × Bool) i =>
    let x := r.1.spotRead n src (256 * i) 256
    match x.2 with
    | some b => (x.1.spotWrite n dst (taskWriter q) (256 * i) b, r.2)
    | none => (x.1, true)) (s, false)

/-- MOVE: lines that read cleanly are copied, in order; one that does not fails the task (R440). -/
def execMove (n : Fin 16) (c : Fin 64) (s : State) : Host.Outcome State Fault Refusal :=
  match s.running n c 3 with
  | none => .next s
  | some a =>
    let q := a.q
    let src := spotOf q.cell q.srcA
    let dst := spotOf q.cell q.dst
    if !src.fits 0 (256 * q.count) || !dst.fits 0 (256 * q.count) then .next (s.acted n c 3 1 0) else
    let r := s.moveLines n q
    .next (r.1.acted n c 3 (if r.2 then 2 else 0) 0)

/-- Device address of a LOAD or STORE. -/
def QTask.devAddr (q : QTask) : Nat := q.ext0 + bitsOf q.ext1 7 0 * 2 ^ 32

/-- Status that a line of a die's LOAD or STORE meets before it leaves: beyond memory, or without a path (R161). -/
def State.dieLineStatus (s : State) (n line : Nat) : Nat :=
  if line ≥ memSize / 256 then 0x10 else
  let st := s.dieStatus n (lineStation line)
  if s.stationOut (lineStation line) && st != 0x22 && st != 0x34 then 0x21 else st

/-- Cause of a LOAD or STORE whose first failing line had a status (R161, R92). -/
def lineCause (st : Nat) : Nat := if st = 0 then 0 else if st = 0x10 then 1 else 3

/-- The token on which a LOAD or STORE waits for its lines. -/
def lineTok : Nat := 2 ^ 20

/-- The LOAD or STORE that waits for its lines at a cell. -/
def State.lineTask (s : State) (n c : Nat) : Option ATask :=
  match (s.cell n c).x with
  | some a => if a.wait = lineTok + 1 then some a else none
  | none => none

/-- The task after one more line was answered; a status other than 0 is kept for the first line that failed. -/
def ATask.lineIn (a : ATask) (i st : Nat) : ATask :=
  { a with
    got := a.got + 1
    failed := if st = 0 then a.failed else match a.failed with
      | some f => if f.1 < i then some f else some (i, st)
      | none => some (i, st) }

/-- The action of a LOAD or STORE ends with its last line (R92, R440). -/
def ATask.linesOver (a : ATask) : ATask :=
  if a.got < a.q.count then a else
  let st := (a.failed.map (·.2)).getD 0
  a.fail (if a.unclean then 2 else lineCause st) st

/-- A line of a LOAD or STORE is answered: the bytes of a LOAD go to DST (R440). -/
def State.lineDone (s : State) (n c i st : Nat) (data : List Byte) : State :=
  match s.lineTask n c with
  | none => s
  | some a =>
    let s := if a.q.op = 4 ∧ st = 0 then s.spotWrite n (spotOf a.q.cell a.q.dst) (taskWriter a.q) (256 * i) data else s
    s.modCell n c fun x => x.setX fun a => (a.lineIn i st).linesOver

/-- Line `i` of a STORE, read from SRC_A; nothing when it does not read cleanly. -/
def State.storeBytes (s : State) (n : Nat) (q : QTask) (i : Nat) : State × Option (List Byte) :=
  if q.op = 5 then s.spotRead n (spotOf q.cell q.srcA) (256 * i) 256 else (s, some [])

/-- Line `i` of a LOAD or STORE leaves as a transaction, or is answered at once (R204, R213). -/
def State.issueLine (s : State) (n c i : Nat) (q : QTask) : State :=
  let s := s.modCell n c fun x => x.setX fun a => { a with next := i + 1 }
  let r := s.storeBytes n q i
  match r.2 with
  | none => (r.1.modCell n c fun x => x.setX fun a => { a with unclean := true }).lineDone n c i 0 []
  | some b =>
    let l := q.devAddr / 256 + i
    let st := r.1.dieLineStatus n l
    if st ≠ 0 then r.1.lineDone n c i st [] else
    let h : Hdr := { op := if q.op = 5 then 2 else 1, line := BitVec.ofNat 32 l, nflit := if q.op = 5 then 4 else 0, data := b }
    let o := r.1.openCall (spStation n) (lineStation l) (.line n c i) h
    if o.2 then o.1 else r.1.lineDone n c i 0x33 []

/-- The lines of a LOAD or STORE that can leave, in order, while the die has an identifier free (R204). -/
def State.issueLines (s : State) (n c : Nat) : State :=
  match s.lineTask n c with
  | none => s
  | some a =>
    (List.range (a.q.count - a.next)).foldl (fun s i =>
      if s.tidRoom (spStation n) then s.issueLine n c (a.next + i) a.q else s) s

/-- A signal that another spire was to count has its answer: the slot waits for it no longer; one that was not counted is dropped
and counted as such (R38, R309). -/
def State.signalDone (s : State) (n slot t0 i st : Nat) : State :=
  let tag := (s.signalOf n slot i).2.1
  let s := s.modSpire n fun sp => { sp with window := sp.window.map fun e =>
    if e.slot = slot ∧ e.t0 = t0 ∧ e.away.testBit i then { e with away := e.away - 2 ^ i } else e }
  if st = 0 then s else s.dropIncr tag (.spire n)

/-- A transaction that a station has open completes; a completion for nobody is discarded and counted (R439). -/
def State.answerCall (s : State) (a tid st : Nat) (data : List Byte) : State :=
  match s.callAt a tid with
  | none => s.plEvent 8 a 1
  | some c =>
    let s := s.dropCall c
    match c.who with
    | .part n id k => s.msgAnswer n id k st
    | .line n c i => (s.lineDone n c i st data).issueLines n c
    | .signal n slot t0 i => s.signalDone n slot t0 i st
    | .load w => s.loadArrived w st data
    | .req e k own => s.reqDone e k own st data
    | .comb e g rest => s.combDone e g rest st data
    | .copy e b => s.copyDone e b st
    | .host id i => s.hostArrived id i st data

/-- The X unit's LOAD or STORE begins: its lines leave (R61, R65). -/
def State.startLines (s : State) (n c : Nat) : State :=
  (s.modCell n c fun x => x.setX fun a => ({ a with wait := lineTok + 1 } : ATask).linesOver).issueLines n c

/-- LOAD: lines of device memory are asked for, to be copied to DST as they arrive (R440). -/
def execLoad (n : Fin 16) (c : Fin 64) (s : State) : Host.Outcome State Fault Refusal :=
  match s.running n c 4 with
  | none => .next s
  | some a =>
    if (spotOf a.q.cell a.q.dst).fits 0 (256 * a.q.count) then .next (s.startLines n c) else .next (s.acted n c 4 1 0)

/-- STORE: lines from SRC_A are sent to device memory (R440). -/
def execStore (n : Fin 16) (c : Fin 64) (s : State) : Host.Outcome State Fault Refusal :=
  match s.running n c 5 with
  | none => .next s
  | some a =>
    if (spotOf a.q.cell a.q.srcA).fits 0 (256 * a.q.count) then .next (s.startLines n c) else .next (s.acted n c 5 1 0)

/-! ### SEND, FOP, ZCLR (R85, R303, R84) -/

/-- Bytes cut into lines. -/
def lines256 (count : Nat) (b : List Byte) : List (List Byte) :=
  (List.range count).map fun i => (b.drop (256 * i)).take 256

/-- SEND: a message of COUNT lines enters the network (R85); the task waits for its completion (R65). -/
def execSend (n : Fin 16) (c : Fin 64) (s : State) : Host.Outcome State Fault Refusal :=
  match s.running n c 6 with
  | none => .next s
  | some a =>
    let q := a.q
    let r := s.operand n (spotOf q.cell q.srcA) 0 (256 * q.count)
    match r.2 with
    | .wait => .next s
    | .bad k => .next (r.1.acted n c 6 k 0)
    | .ok b =>
      let s1 := r.1
      let p : MsgPart := { srcDev := BitVec.ofNat 16 s1.ownDev, srcSpire := n, inside := true, partsM1 := q.count - 1,
                           zone := BitVec.ofNat 8 (bitsOf q.ext0 28 21), index := BitVec.ofNat 20 (bitsOf q.ext1 31 12),
                           jobTag := BitVec.ofNat 12 q.ext1 }
      let m : OutMsg := { cell := c, kind := 0, dev := if bitOf q.ext0 20 then none else some (bitsOf q.ext0 15 0),
                          dst := bitsOf q.ext0 19 16, n := q.count,
                          parts := (lines256 q.count b).zipIdx.map fun l => { p with part := l.2, data := l.1 } }
      match s1.sendMsg n m fun s id =>
          s.modCell n c fun x => x.setX fun a => { a with wait := msgTok id + 1 } with
      | none => .next s
      | some t => .next t

/-- The check of a FOP record (Table FM-3, R62). -/
def State.fopCheck (s : State) (p : Nat) (b : List Byte) : Bool :=
  let x (i : Nat) : Nat := (b.getD i 0).toNat
  let op := x 0
  let tag := x 4 + 256 * x 5
  decide ((1 ≤ op ∧ op ≤ 6) ∨ op = 9) && decide (x 1 < 16) && decide (tag < 4096) && x 15 == 0 &&
    ([19, 20, 21, 22, 23, 26, 27, 28, 29, 30, 31].all fun i => x i == 0) && s.tagOf p tag

/-- The request of a FOP record, without its data (Table FM-3). -/
def fopPkt (s : State) (n : Nat) (b : List Byte) : Pkt :=
  let x (i : Nat) : Nat := (b.getD i 0).toNat
  let fl := x 1
  { op := BitVec.ofNat 6 (x 0), dstDev := BitVec.ofNat 16 (if bitOf fl 3 then s.ownDev else leNat ((b.drop 2).take 2)),
    srcDev := BitVec.ofNat 16 s.ownDev, srcAgent := BitVec.ofNat 6 (spStation n),
    jobTag := BitVec.ofNat 12 (leNat ((b.drop 4).take 2)), addr := BitVec.ofNat 48 (leNat ((b.drop 8).take 6)),
    len := BitVec.ofNat 8 (x 14), cslot := BitVec.ofNat 8 (x 6), csEn := bitOf fl 0, adapt := bitOf fl 2,
    opt := BitVec.ofNat 24 (leNat ((b.drop 16).take 3)) }

/-- Bytes of SRC_A that a FOP reads: offset and length (R303). -/
def fopNeed (k : Pkt) : Nat × Nat :=
  let o := k.addr.toNat % 256
  match k.op.toNat with
  | 3 => (0, 288)
  | 4 => (0, 16)
  | 2 => (o, k.len.toNat + 1)
  | 5 => (o, k.len.toNat + 1)
  | 6 => (o, k.len.toNat + 1)
  | _ => (0, 0)

/-- Bytes of DST that a FOP may write. -/
def fopRoom (k : Pkt) : Nat × Nat :=
  match k.op.toNat with
  | 1 => (k.addr.toNat % 256, k.len.toNat + 1)
  | 4 => (0, 8)
  | 6 => (0, 8)
  | _ => (0, 0)

/-- The request with its mask and data flits (R302, R303). -/
def fopFlits (k : Pkt) (d : List Byte) : Pkt :=
  let o := k.addr.toNat % 256
  let e := o + k.len.toNat
  match k.op.toNat with
  | 3 => { k with maskf := true, nflit := 4, data := (d.drop 256).take 32 ++ List.replicate 32 0 ++ d.take 256 }
  | 4 => { k with nflit := 1, data := d.take 16 ++ List.replicate 48 0 }
  | 1 => k
  | 9 => k
  | _ =>
    let f := e / 64 + 1 - o / 64
    let pre := o % 64
    { k with nflit := BitVec.ofNat 3 f, data := List.replicate pre 0 ++ d ++ List.replicate (64 * f - pre - d.length) 0 }

/-- FOP: the record is checked and its operation issued (R62, R303); one that completes at once is finished here. -/
def execFop (n : Fin 16) (c : Fin 64) (s : State) : Host.Outcome State Fault Refusal :=
  match s.running n c 7 with
  | none => .next s
  | some a =>
    let q := a.q
    let r := s.operand n (spotOf q.cell q.srcB) 0 32
    match r.2 with
    | .wait => .next s
    | .bad k => .next (r.1.acted n c 7 k 0)
    | .ok b =>
      if !r.1.fopCheck (s.spireOwner n) b then .next (r.1.acted n c 7 4 0) else
      let k := fopPkt r.1 n b
      let need := fopNeed k
      let room := fopRoom k
      if room.2 ≠ 0 ∧ !(spotOf q.cell q.dst).fits room.1 room.2 then .next (r.1.acted n c 7 1 0) else
      let d := if need.2 = 0 then (r.1, .ok []) else r.1.operand n (spotOf q.cell q.srcA) need.1 need.2
      match d.2 with
      | .wait => .next s
      | .bad k => .next (d.1.acted n c 7 k 0)
      | .ok data =>
        let k := fopFlits k data
        let cnt := if k.op = 9 then d.1.nextLine n (65536 + k.dstDev.toNat) else (k.addr.toNat / 256, d.1)
        match cnt.2.issue cnt.1 k (.fop n c) (bitOf (b.getD 1 0).toNat 3) with
        | .wait => .next s
        | .sent t _ => .next t.settleAll
        | .done t st out =>
          let t := t.modCell n c fun x => x.setX fun a => { a with wait := txnTok 65536 + 1 }
          let t := if st = 0 then t.fopLoad n c k out else t
          .next ((t.fopDone n c 65536 st (if st = 0 ∧ k.op = 4 then out.take 8 else [])).settleAll)

/-- ZCLR: FILL of a zone is set to 0 (R84). -/
def execZclr (n : Fin 16) (c : Fin 64) (s : State) : Host.Outcome State Fault Refusal :=
  match s.running n c 0xA with
  | none => .next s
  | some a => .next ((s.zclr n (a.q.ext0 % 256)).acted n c 0xA 0 0)

/-! ### Retirement, relay, stealing, failure -/

/-- The relay output of a task has left. -/
def Cell.drained (c : Cell) (q : QTask) : Bool := (!q.aOut || c.outE.isEmpty) && (!q.bOut || c.outS.isEmpty)

/-- Number of a unit class. -/
def unitNat : UnitClass → Nat
  | .m => 0
  | .v => 1
  | .x => 2

/-- TASK_RETIRE (R65): a task whose action is complete retires. -/
def execTaskRetire (n : Fin 16) (at_ : Place) (s : State) : Host.Outcome State Fault Refusal :=
  match at_ with
  | .cell c u =>
    let x := s.cell n c
    match x.unit (unitNat u) with
    | some a =>
      if !a.done || a.wait != 0 || !x.drained a.q then .next s else
      .next (((s.modCell n c fun x => x.setUnit (unitNat u) none).retire n c a).settleAll)
    | none => .next s
  | .du =>
    match (s.spire n).du.cur with
    | some t =>
      if !t.walked || !t.items.isEmpty || (s.spire n).duOut != 0 then .next s else
      .next (((s.modSpire n fun sp => { sp with du := { sp.du with cur := none } }).retire n 64 t.a).settleAll)
    | none => .next s

/-- RELAY_STRIP_ARRIVAL (R67): the next entry of the neighbour's strip arrives when the buffer has a place. -/
def execRelayStripArrival (n : Fin 16) (c : Fin 64) (d : Dir) (s : State) : Host.Outcome State Fault Refusal :=
  let k := c.val
  match d with
  | .eastward =>
    if k % 8 = 0 then .next s else
    match (s.cell n (k - 1)).outE with
    | e :: l =>
      if (s.cell n k).inW.length ≥ 4 then .next s else
      .next ((s.modCell n (k - 1) fun x => { x with outE := l }).modCell n k fun x => { x with inW := x.inW ++ [e] }.absorb)
    | [] => .next s
  | .southward =>
    if k < 8 then .next s else
    match (s.cell n (k - 8)).outS with
    | e :: l =>
      if (s.cell n k).inN.length ≥ 4 then .next s else
      .next ((s.modCell n (k - 8) fun x => { x with outS := l }).modCell n k fun x => { x with inN := x.inN ++ [e] }.absorb)
    | [] => .next s

/-- Addresses that an operation uses. DESIGN CHOICE: these are 'its addresses' in the scratch test of R69, not every
address field (log entry 167). -/
def QTask.uses (q : QTask) : List Nat :=
  match q.op with
  | 0x01 => [q.srcA, q.srcB] ++ (if q.acc ≥ 2 then [q.dst] else [])
  | 0x02 => [q.srcA, q.dst] ++ (if q.ext0 % 256 ≤ 5 then [q.srcB] else [])
  | 0x03 => [q.srcA, q.dst]
  | 0x04 => [q.dst]
  | 0x05 => [q.srcA]
  | 0x06 => [q.srcA]
  | 0x07 => [q.srcA, q.srcB, q.dst]
  | 0x08 => [q.srcA, q.dst]
  | _ => []

/-- R68: the task is pinned to the cell of its descriptor. -/
def QTask.pinned (q : QTask) : Bool :=
  q.aIn || q.aOut || q.bIn || q.bOut || q.op == 8 || (q.op == 1 && q.acc % 2 == 1)

/-- R69: a task may be stolen. -/
def State.stealable (s : State) (n : Nat) (q : QTask) : Bool :=
  q.steal && !q.stolen && !q.pinned && q.uses.all (fun a => aspace a != 0) && q.t0 == (s.part (s.spireOwner n)).t0

/-- Cells at a distance in the same logical row or column, rising. -/
def ring (c d : Nat) : List Nat :=
  let r := c / 8
  let k := c % 8
  (if r ≥ d then [c - 8 * d] else []) ++ (if k ≥ d then [c - d] else []) ++ (if k + d < 8 then [c + d] else []) ++
    (if r + d < 8 then [c + 8 * d] else [])

/-- Candidates ordered by queue length, longest first, then by number. -/
def byQueue (len : Nat → Nat) (l : List Nat) : List Nat :=
  l.foldr (fun a acc => (acc.takeWhile fun b => decide (len b > len a)) ++ a :: acc.dropWhile fun b => decide (len b > len a)) []

/-- Whole cycles of the region of a cell of a spire. -/
def State.cellCycle (s : State) (n c : Nat) : Int := s.cycles (2 * n + c / 32) / 80

/-- Cycles of its thief's region since a steal. -/
def State.stealAge (s : State) (n : Nat) (f : Stolen) : Int := s.cellCycle n f.thief - f.cycle

/-- The candidates that a cell passes over: in the cycle after it lost one to a lower cell, that one; nothing (`none`) is
tried in the cycle in which it stole or lost (R69, R70). -/
def State.stealBar (s : State) (n c : Nat) : Option (List Nat) :=
  let fl := (s.spire n).flight
  if fl.any fun f => (f.thief == c || f.losers.contains c) && s.stealAge n f == 0 then none
  else some ((fl.filter fun f => f.losers.contains c && s.stealAge n f == 1).map (·.src))

/-- The victim of a thief and the task taken: the tail of the first candidate that has a stealable one (R69, R70). -/
def State.stealFrom (s : State) (n c : Nat) : Option (Nat × QTask) :=
  let len (v : Nat) : Nat := (s.cell n v).queue.length
  match s.stealBar n c with
  | none => none
  | some bar =>
  ((byQueue len (ring c 1) ++ byQueue len (ring c 2)).filter fun v => !bar.contains v).findSome? fun v =>
    match (s.cell n v).queue.getLast? with
    | some q => if s.stealable n q && decide (q.due ≤ s.clk.elapsed) then some (v, q) else none
    | none => none

/-- A cell without work, whose spire lets it steal (R69). -/
def State.mayStealNow (s : State) (n c : Nat) : Bool :=
  let x := s.cell n c
  (s.spire n).out == 0 && x.queue.isEmpty && x.m.isNone && x.v.isNone && x.x.isNone && !x.failed && !s.meshOn &&
    s.flag (Loc.spSeqCtl n) 0

/-- The cells that try for the tail task of a cell in this cycle (R70). -/
def State.stealRivals (s : State) (n v : Nat) : List Nat :=
  (List.range 64).filter fun c => s.mayStealNow n c && (s.stealFrom n c).map (·.1) == some v

/-- STEAL (R69, R70): an idle cell takes the tail task of its first candidate that has a stealable one. Of the cells that
try for one tail in a cycle the lowest takes it; a higher one takes nothing while that one stands (log entry 224). A steal
across the crossing takes one of its places (R78, R334) and arrives after its 10 cycles. -/
def execSteal (n : Fin 16) (thief : Fin 64) (s : State) : Host.Outcome State Fault Refusal :=
  let c := thief.val
  if !s.mayStealNow n c then .next s else
  match s.stealFrom n c with
  | none => .next s
  | some (v, q) =>
    let rivals := s.stealRivals n v
    if rivals.any (· < c) then .next s else
    let across := decide (v < 32) != decide (c < 32)
    match if across then s.crossRoom n (decide (32 ≤ c)) else some s with
    | none => .next s
    | some s =>
    let s := if across then (s.crossWrite n (decide (32 ≤ c))).1 else s
    let due := s.cycles (2 * n.val + c / 32) + inCycles (if across then 10 else 6)
    let f : Stolen :=
      { thief := c, q := { q with stolen := true }, src := v, cycle := s.cellCycle n c, losers := rivals.filter (c < ·), due := due }
    let s := s.modCell n v fun x => { x with queue := x.queue.dropLast }
    .next ((s.modSpire n fun sp => { sp with flight := sp.flight ++ [f] }).bump (spPage n 0) 4 c 1 (s.spireOwner n))

/-- STOLEN_TASK_ARRIVAL (R70): a stolen task reaches the thief's queue; at a failed cell it retires (R77). -/
def execStolenTaskArrival (n : Fin 16) (thief : Fin 64) (s : State) : Host.Outcome State Fault Refusal :=
  let c := thief.val
  match (s.spire n).flight.find? fun f => f.thief == c with
  | none => .next s
  | some f =>
    if (s.cell n c).queue.length ≥ 64 then .next s else
    match s.waitCycles (2 * n.val + c / 32) f.due with
    | none => .next s
    | some s =>
      let s := s.modSpire n fun sp => { sp with flight := sp.flight.erase f }
      if (s.cell n c).failed then .next ((s.retireLost n c f.q).settleAll)
      else .next (s.modCell n c fun x => { x with queue := x.queue ++ [f.q] })

/-- CELL_FAIL (R77): a cell fails in service. -/
def execCellFail (n : Fin 16) (c : Fin 64) (s : State) : Host.Outcome State Fault Refusal :=
  if (s.spire n).out != 0 then .next s else .next ((s.failCell n c).settleAll)

/-! ### Dispatch unit (R86 to R91) -/

/-- A unit task of the dispatch unit fails before it sends anything. -/
def State.duStop (s : State) (n cause : Nat) : State :=
  s.modSpire n fun sp => { sp with du := { sp.du with cur := sp.du.cur.map fun t =>
    { t with walked := true, items := [], a := { t.a with cause := cause, done := true } } } }

/-- What the walk of the table carries: state, rows sent by expert, items, drops by quota. -/
structure Walk where
  s : State
  sent : List Nat
  items : List DuItem
  quota : Nat

/-- One choice of a table entry (R88): sent or dropped. DESIGN CHOICE: all 16 bits of EXPk are the index, so one with bits
15 to 12 set lies outside the range (log entry 168). -/
def Walk.choice (w : Walk) (n : Nat) (t : DuTask) (i token k x place : Nat) : Walk × Bool :=
  let q := t.a.q
  let first := bitsOf q.ext1 11 0
  let ret := bitsOf q.ext0 15 8
  let e := t.map.getD (x - first) 0
  let inside := decide (first ≤ x ∧ x < first + bitsOf q.ext1 24 12)
  if !inside || !xvalid e || decide (token ≥ (zoneOf t.src).cap) then
    ({ w with s := (w.s.duDrop n ret).duPost n 1 0x29 i }, true)
  else if w.sent.getD (x - first) 0 = bitsOf q.ext0 23 16 then
    ({ w with s := w.s.duDrop n ret, quota := w.quota + 1 }, true)
  else
    ({ w with sent := lmod w.sent (x - first) (· + 1),
              items := w.items ++ [{ kind := 1, entry := token, word := e, choice := k, txt := place }] }, false)

/-- DROP of a table entry written back (R88). -/
def State.duMark (s : State) (n cell place v : Nat) : State := s.wellWrite n cell duWriter (place + 20) [BitVec.ofNat 8 v]

/-- The choices of an entry that names one to eight experts: the walk, and the mask of those dropped (R88). -/
def Walk.choices (w : Walk) (n : Nat) (t : DuTask) (i cell place : Nat) (x : Nat → Nat) : Walk × Nat :=
  (List.range (x 2)).foldl (fun (r : Walk × Nat) j =>
    let c := r.1.choice n t i (x 0 + 256 * x 1) j (x (4 + 2 * j) + 256 * x (5 + 2 * j)) (cell * 2 ^ 24 + place + 20)
    (c.1, if c.2 then r.2 + 2 ^ j else r.2)) (w, 0)

/-- An entry with more than eight choices: every one of them is dropped and posted (R88). -/
def State.duTooMany (s : State) (n : Nat) (t : DuTask) (i k : Nat) : State :=
  (List.range k).foldl (fun s _ => (s.duDrop n (bitsOf t.a.q.ext0 15 8)).duPost n 1 0x29 i) s

/-- The bytes `x` of an entry that was read cleanly (R86, R88). -/
def Walk.row (w : Walk) (n : Nat) (t : DuTask) (cell place i : Nat) (x : Nat → Nat) : Walk :=
  if !bitOf (x 3) 0 then w
  else if x 2 > 8 then { w with s := (w.s.duTooMany n t i (x 2)).duMark n cell place 0xFF }
  else
    let r := w.choices n t i cell place x
    { r.1 with s := r.1.s.duMark n cell place r.2 }

/-- One entry of the table (R86, R88). -/
def Walk.entry (w : Walk) (n : Nat) (t : DuTask) (cell base i : Nat) : Walk :=
  let r := w.s.wellRead n cell (base + 32 * i) 32
  match r.2 with
  | none => { w with s := r.1.modSpire n fun sp => sp.duFail 2 0 }
  | some b => ({ w with s := r.1 } : Walk).row n t cell (base + 32 * i) i fun j => (b.getD j 0).toNat

/-- The entries of the table of a DISPATCH walked (R88). -/
def State.duEntries (s : State) (n : Nat) (t : DuTask) (cell base : Nat) : Walk :=
  let s := s.modSpire n fun sp => { sp with du := { sp.du with cur := some t } }
  let w : Walk := { s := s, sent := List.replicate (bitsOf t.a.q.ext1 24 12) 0, items := [], quota := 0 }
  (List.range t.a.q.count).foldl (fun w i => w.entry n t cell base i) w

/-- Tallies of the experts that got fewer rows than their quota (R88). -/
def duTallies (t : DuTask) (sent : List Nat) : List DuItem :=
  let quo := bitsOf t.a.q.ext0 23 16
  (t.map.zip sent).filterMap fun (e : Nat × Nat) =>
    if xvalid e.1 ∧ e.2 < quo then some ({ kind := 3, word := e.1, count := quo - e.2 } : DuItem) else none

/-- A walk ended: the drops by quota are posted, rows and tallies wait to be sent. -/
def State.duWalked (s : State) (n : Nat) (quota : Nat) (items : List DuItem) : State :=
  (if quota = 0 then s else s.duPost n 0 0x28 quota).modSpire n fun sp =>
    { sp with du := { sp.du with cur := sp.du.cur.map fun t => { t with items := items } } }

/-- The table of a DISPATCH walked (R88). -/
def State.duWalk (s : State) (n : Nat) (t : DuTask) : State :=
  let t := { t with src := s.zoneWords n (bitsOf t.a.q.ext0 7 0), walked := true }
  if !(zoneOf t.src).valid || !(zoneOf (s.zoneWords n (bitsOf t.a.q.ext0 15 8))).valid then s.duStop n 7 else
  match spotOf t.a.q.cell t.a.q.srcA with
  | .well cell base =>
    if !(Spot.well cell base).fits 0 (32 * t.a.q.count) then s.duStop n 1 else
    let w := s.duEntries n t cell base
    w.s.duWalked n w.quota (w.items ++ duTallies t w.sent)
  | _ => s.duStop n 1

/-- DISPATCH (R88): the table is walked once, and rows and tallies leave while the unit may send (R91). -/
def execDispatch (n : Fin 16) (s : State) : Host.Outcome State Fault Refusal :=
  match (s.spire n).du.cur with
  | some t =>
    if t.a.q.op ≠ 0x10 ∨ (s.spire n).out != 0 then .next s else
    .next ((if t.walked then s else s.duWalk n t).settleAll)
  | none => .next s

/-- The tags of a RETURN's zone read: one return for each whole entry (R90). -/
def State.duReturns (s : State) (n : Nat) (t : DuTask) : State :=
  let q := t.a.q
  let zi := bitsOf q.ext0 7 0
  let z := zoneOf (s.zoneWords n zi)
  let res := s.zoneWords n (bitsOf q.ext0 15 8)
  let t := { t with src := res, walked := true }
  let fill := s.fill n zi
  if !z.valid || !z.append || !(zoneOf res).valid || decide (fill > (zoneOf res).cap) then s.duStop n 7 else
  let s := s.modSpire n fun sp => { sp with du := { sp.du with cur := some t } }
  let r := (List.range fill).foldl (fun (r : State × List DuItem) i =>
    let x := r.1.wellRead n z.tagCell (z.tagRow * 256 + 8 * (i + 1)) 8
    match x.2 with
    | none => (x.1.duPost n 1 0x2A (x.1.ownDev + 0x20 * 2 ^ 24), r.2)
    | some b =>
      let w := leNat b
      if bitOf w 63 then (x.1.duPost n 1 0x29 i, r.2)
      else (x.1, r.2 ++ [{ kind := 2, entry := i, word := w }])) (s, ([] : List DuItem))
  r.1.modSpire n fun sp => { sp with du := { sp.du with cur := sp.du.cur.map fun t => { t with items := r.2 } } }

/-- RETURN (R90): results leave for their tokens' homes. -/
def execReturnRows (n : Fin 16) (s : State) : Host.Outcome State Fault Refusal :=
  match (s.spire n).du.cur with
  | some t =>
    if t.a.q.op ≠ 0x11 ∨ (s.spire n).out != 0 then .next s else
    .next ((if t.walked then s else s.duReturns n t).settleAll)
  | none => .next s

/-- DISPATCH_ROW_REFUSED (R89): DROP is set, RET_ZONE counts, a tally of 1 goes to the owner zone, a data error is logged. -/
def execDispatchRowRefused (n : Fin 16) (msg : Nat) (status : BitVec 8) (s : State) : Host.Outcome State Fault Refusal :=
  match (s.spire n).msg msg with
  | none => .next s
  | some m =>
    let st := msgStatus m.got
    if m.kind ≠ 1 ∨ m.got.length < m.n ∨ st ≠ status.toNat ∨ st = 0 then .next s else
    let cell := m.txt / 2 ^ 24
    let place := m.txt % 2 ^ 24
    let r := s.wellRead n cell place 1
    let s := match r.2 with
      | some b => r.1.wellWrite n cell duWriter place [(b.getD 0 0) ||| BitVec.ofNat 8 (2 ^ m.choice)]
      | none => r.1
    let s := s.duDrop n m.retZone
    let s := (s.addWrap (Loc.spDuRefused n) 31 0 1).rowRefusedLog n m st
    let it : DuItem := { kind := 3, word := m.count, count := 1 }
    let s := s.modSpire n fun sp => { sp.dropMsg msg with
      du := { sp.du with cur := sp.du.cur.map fun t => { t with items := t.items ++ [it] } } }
    .next s.settleAll

end Sys2Proof.Machine
end

