-- ==== Sys2Proof/Machine/Recover.lean ====
section
/-! DEFINITION. The failure of an internal link, and what becomes of the transactions that it held (R212, R215, R217,
R220). -/

namespace Sys2Proof.Machine

/-- A transaction that a station has open ends, if it is still open. -/
def State.endReq (s : State) (a tid st : Nat) : State :=
  if (s.callAt a tid).isSome then s.answerCall a tid st [] else s

/-- A transaction ends with a status at its source (R220, R228, R449). -/
def State.endAtSource (s : State) (src : Nat) (h : Hdr) (st : Nat) : State :=
  if opClass h.op.toNat ≠ some 0 then s else s.endReq src h.tid.toNat st

/-- The transactions that stations have open with a station end at their sources (R401, R441, R449). -/
def State.endReqs (s : State) (dst st : Nat) : State :=
  (s.calls.filter fun c => c.dst == dst).foldl (fun s c => s.endReq c.st c.tid st) s

/-- Stations lose what they know of their open transactions (R401, R448, R449): an access of the host through one completes with a
status, the others are forgotten. -/
def State.stationsDown (s : State) (f : Nat → Bool) (st : Nat) : State :=
  let host (c : Call) : Bool := match c.who with | .host _ _ => true | _ => false
  ((s.calls.filter fun c => f c.st && host c).foldl (fun s c => s.endReq c.st c.tid st) s).forgetCalls fun c => f c.st

/-- A transaction that can go no further from station `a` ends with a status: at its source when that is here, otherwise by a
completion to its source (R220). A completion that finds no path is lost, and its issuer's timeout ends it (R439). -/
def State.endHdr (s : State) (a : Nat) (h : Hdr) (st : Nat) : State :=
  if h.det && h.orig.toNat != a then
    (if opClass h.op.toNat = some 0 then s.replyHdr a h.orig.toNat h st [] else s)
  else s.endAtSource a h st

/-- A transaction sent, or ended with the path-unavailable status (R219, R220). -/
def State.sendOrEnd (s : State) (a b : Nat) (h : Hdr) : State :=
  let r := s.sendHdr a b h
  if r.2 then r.1 else s.endHdr a h 0x33

/-- A transaction that a relay station has taken goes on to its final station, on a plane of that pair only (R219, R220). -/
def State.relayOn (s : State) (r : Nat) (h : Hdr) : State :=
  let c := s.hdrHash r h.final.toNat h (hdrOnLine h)
  match c.2.planeFor r h.final.toNat c.1 with
  | some p => c.2.sendOn r h.final.toNat p h
  | none => c.2.endHdr r h 0x33

/-- A transaction that a failed link a → b held goes again (R217): a relay's by a plane to its final station, a source's by a
new choice of plane or detour. -/
def State.reissue (s : State) (a b : Nat) (h : Hdr) : State :=
  if !h.det then s.sendOrEnd a b h
  else if h.orig.toNat = a then s.sendOrEnd a h.final.toNat { h with det := false, final := 0, orig := 0 }
  else s.relayOn a h

/-- LINK_QUERY for a failed link, on an available plane or by the detour; it stays to be sent while there is none (R217). ARG
names the plane in bits [1:0] and the number of the training that has ended, modulo 16, in bits [5:2] (DESIGN CHOICE, log
entry 232). -/
def State.askOne (s : State) (a b p t : Nat) : State :=
  let r := s.sendHdr a b { op := 0x30, arg := BitVec.ofNat 16 (p + 4 * (t % 16)) }
  r.1.modLink a b p fun x => { x with unsent := x.unsent || !r.2 }

/-- The queries of a link that are not answered go again. -/
def State.askLink (s : State) (a b p : Nat) : State :=
  (s.link a b p).asked.foldl (fun s t => s.askOne a b p t) (s.modLink a b p fun x => { x with unsent := false })

/-- One direction of a link fails: fenced at once; its waiting headers take other planes, the fate of its unacknowledged
bundles is asked for, and the receiver keeps what it has delivered. -/
def State.failOne (s : State) (a b p due : Nat) : State :=
  let x := s.link a b p
  if x.st = some 3 then s else
  let now := s.clk.elapsed
  let s := s.modLink a b p fun x =>
    { x with
      st := some 3, fenced := true, failedAt := now, maskDue := due, q := [], retrained := false, lost := none
      doubt := x.doubt ++ x.retry.map fun q => (x.trains, q), asked := x.asked ++ [x.trains]
      heard := tset 0 x.heard x.trains ((x.expect + 1023) % 1024 + 1)
      retry := [], again := [], flight := [], cut := 0, arrived := 0, spoiled := false }
  let s := (s.plEvent 6 a 1).askOne a b p x.trains
  (x.q.filter fun h => !(h.op == 0x30)).foldl (fun s h => s.reissue a b h) s

/-- Queries of the pair whose plane has failed go again (Table PL-7). -/
def State.askAgain (s : State) (a b p : Nat) : State :=
  (List.range 4).foldl (fun s q => if q ≠ p then s.askLink a b q else s) s

/-- A link fails, and its reverse link with it (R212). -/
def State.failPair (s : State) (a b p : Nat) : State :=
  (((s.failOne a b p 2).failOne b a p 1).askAgain a b p).askAgain b a p

/-- A link trains: its numbers, credits and buffers as at the start, and a fresh start of its scrambler (R200). What it left
in doubt stays so until the reply, and the receiver keeps what it had delivered (R217). -/
def State.trainLink (s : State) (a b p : Nat) : State :=
  s.modLink a b p fun x =>
    { st := some 2, fenced := x.fenced, asked := x.asked, unsent := x.unsent, doubt := x.doubt, heard := x.heard, failedAt := x.failedAt
      retrained := x.fenced, trains := x.trains + 1, noTx := x.noTx, noRx := x.noRx, lane := x.lane, lanePend := x.lanePend
      winAt := x.winAt, errs := x.errs }

/-- LINK_REPLY at the sender of a failed link, for the training that ended, modulo 16: delivered bundles are dropped, the
others' transactions go again (R217). -/
def State.linkAnswered (s : State) (a b p seq t16 : Nat) : State :=
  let x := s.link a b p
  match x.asked.find? fun t => t % 16 == t16 with
  | none => s
  | some t =>
    let rest := x.doubt.filter fun q => q.1 == t && !decide ((seq + 1024 - q.2.seq) % 1024 < 512)
    let s := s.modLink a b p fun x =>
      { x with asked := x.asked.erase t, doubt := x.doubt.filter fun q => q.1 != t, heard := tset 0 x.heard t 0 }
    ((rest.flatMap (·.2.hdrs)).filter fun h => !(h.op == 0x30)).foldl (fun s h => s.reissue a b h) s

end Sys2Proof.Machine
end

