-- ==== Sys2Proof/Machine/Plinth.lean ====
section
/-! DEFINITION. Commands of the internal links and of the plinths' pairs and lanes (R201 to R226). -/

namespace Sys2Proof.Machine

/-! ### Delivery of headers (R204 to R206, R211, R219) -/

/-- The message part that a header and its descriptor flit carry (Table PL-14). -/
def hdrPart (h : Hdr) : MsgPart :=
  let d := h.data.take 64
  let b (i : Nat) : Nat := (d.getD i 0).toNat
  let w (i : Nat) : Nat := b i + 256 * b (i + 1)
  let l := h.line.toNat
  { srcDev := BitVec.ofNat 16 (w 0), srcSpire := Fin.ofNat 16 (b 2), inside := b 3 % 2 == 1, msgId := BitVec.ofNat 16 (w 4),
    part := b 6, partsM1 := b 7, token := BitVec.ofNat 16 (w 8), ksel := BitVec.ofNat 3 (b 10),
    rzone := BitVec.ofNat 8 (b 11), zone := BitVec.ofNat 8 l, index := BitVec.ofNat 20 (l / 256), jobTag := h.jobTag,
    data := hdrBytes h }

/-- The fabric request that a fabric-bound header stands for: ARG names the device (R204). -/
def hdrPkt (src : Nat) (h : Hdr) : Pkt :=
  let l := h.line.toNat
  let base : Pkt :=
    { op := h.op, dstDev := h.arg, srcAgent := BitVec.ofNat 6 src, jobTag := h.jobTag, nflit := h.nflit, maskf := h.maskf,
      cslot := h.cslot, csEn := h.csEn, data := h.data }
  if h.op = 7 ∨ h.op = 8 then
    let p := hdrPart h
    partPkt h.arg.toNat (bitsOf l 31 28) (h.op == 8) (leNat ((h.data.drop 12).take 2)) { p with data := hdrBytes h }
  else if h.op = 9 then { base with opt := BitVec.ofNat 24 (l % 65536) }
  else { base with addr := BitVec.ofNat 48 (l * 256), len := 255 }

/-- A header that no rule takes is discarded and counted at the receiver (R205, R439). -/
def State.discardHdr (s : State) (d : Nat) : State := s.plEvent 8 d 1

/-- Who an increment of a header is counted for. -/
def hdrIssuer (src : Nat) : Issuer :=
  match stationOculus src with
  | some e => .fabric e
  | none => .spire ((stationSpire src).getD 0)

/-- A header that waits keeps its source in ORIG. -/
def hdrMark (src : Nat) (h : Hdr) : Hdr := { h with det := true, orig := BitVec.ofNat 6 src }

/-- A fabric-bound header reaches its oculus station: it is issued, or waits at the station. -/
def State.hdrFabric (s : State) (e st src : Nat) (h : Hdr) : State :=
  match s.issueAt e (hdrPkt src h) (.link st src h) false with
  | .wait => s.modOculus e fun o => { o with fabWait := o.fabWait ++ [(st, hdrMark src h)] }
  | .done s status data => s.replyHdr st src h status data
  | .sent s _ => s

/-- Bytes of a transaction in a relay's detour area: its header and its flits. -/
def hdrBytesAll (h : Hdr) : Nat := 14 + 64 * hdrData h

/-- The detour area of an oculus has room for transactions, all together (R219). -/
def Oculus.detourRoom (o : Oculus) (l : List Hdr) : Bool :=
  l.isEmpty || decide ((o.detour.map fun x => hdrBytesAll x.2).sum + (l.map hdrBytesAll).sum ≤ 2 ^ 20)

/-- A request, message, tally or signal is delivered to the die on its own station (R204 to R206). A header that no rule
takes there is discarded and counted at the receiver. -/
def State.deliverHere (s : State) (d src : Nat) (h : Hdr) : State :=
  let op := h.op.toNat
  match stationSpire d with
  | some n =>
    if op = 7 then
      let r := s.landPart n (hdrPart h) ((stationOculus src).getD 0)
      r.1.replyHdr d src h r.2 []
    else if op = 8 then
      let r := s.landTally n (h.line.toNat % 256) h.jobTag.toNat (leNat ((h.data.drop 12).take 2)) (hdrIssuer src)
      r.1.replyHdr d src h r.2 []
    else if op = 9 then (s.incr h.jobTag.toNat h.cslot.toNat h.arg.toNat (hdrIssuer src)).replyHdr d src h 0 []
    else if op = 0x20 ∨ op = 0x21 then s.answerCall d h.tid.toNat h.status.toNat h.data
    else s.discardHdr d
  | none =>
    match stationGate d with
    | some (g, odd) =>
      let l := h.line.toNat
      let here := (placeLine l).1 == g && decide ((placeLine l).2.1 % 2 = b2n odd ∧ l * 256 < memSize)
      if here && decide (1 ≤ op ∧ op ≤ 5) then s.gateTake g { h := h, src := src, at_ := d } else s.discardHdr d
    | none =>
      match stationOculus d with
      | some e =>
        if 1 ≤ op ∧ op ≤ 9 then s.hdrFabric e d src h
        else if op = 0x20 ∨ op = 0x21 then s.answerCall d h.tid.toNat h.status.toNat h.data
        else s.discardHdr d
      | none =>
        if op = 0x32 ∧ isSextant d then s
        else if (op = 0x20 ∨ op = 0x21) ∧ (d = 22 ∨ d = 25) then s.answerCall d h.tid.toNat h.status.toNat h.data
        else s.discardHdr d

/-- A query reaches the receiver of a failed link: it stops accepting bundles from it, and answers with the last sequence that
it delivered under that training (R217). A link that has trained again since is not closed. -/
def State.answerQuery (s : State) (d src p t16 : Nat) : State :=
  let x := s.link src d p
  match x.heard.find? fun e => e.1 % 16 == t16 with
  | none => s
  | some e =>
    let s := s.modLink src d p fun x => { x with closed := x.closed || e.1 == x.trains }
    (s.sendHdr d src { op := 0x31, arg := BitVec.ofNat 16 (e.2 - 1 + 1024 * p + 4096 * t16) }).1

/-- A header is delivered to the die on station `d` (R204, R217, R219): a relay keeps what is for another station. -/
def State.deliver (s : State) (a d : Nat) (h : Hdr) : State :=
  let src := hdrSource a h
  if h.det && h.final.toNat != d then
    match stationOculus d with
    | some e => s.modOculus e fun o => { o with detour := o.detour ++ [(d, h)] }
    | none => s.discardHdr d
  else if h.op = 0x30 then s.answerQuery d src (h.arg.toNat % 4) (h.arg.toNat / 4 % 16)
  else if h.op = 0x31 then s.linkAnswered d src (h.arg.toNat / 1024 % 4) (h.arg.toNat % 1024) (h.arg.toNat / 4096)
  else s.deliverHere d src h

/-! ### Bundles and idle flits (R201, R203, R205, R208 to R210) -/

/-- A flit or bundle is discarded for its CRC or for an uncorrectable block: the receiver asks for a resend and discards all
until the bundle expected (R209). -/
def State.badUnit (s : State) (a b p flits : Nat) : State :=
  s.modLink a b p fun x => { x with skip := true, nak := true, freed := x.freed + flits }

/-- A bundle or idle flit has arrived on link a → b of plane p and was read (R203, R205, R209). The headers of a bundle are
applied in their order (R211; DESIGN CHOICE, log entry 159). Its flits leave the receive buffer at once (R208; DESIGN CHOICE,
log entry 179). -/
def State.takeBundle (s : State) (a b p : Nat) (k : Bundle) : State :=
  let x := s.link a b p
  let sum := (k.hdrs.map hdrData).sum
  let flits := if k.kind = 0 then 0 else 1 + sum
  if !k.good || decide (2 ≤ k.kind) || (k.kind == 1 && k.ndata != sum) then
    ((s.linkCount (Loc.plLinkCrc 0) a b p 1).plEvent 4 a 1).badUnit a b p flits
  else
    let s := s.lineWord b a p k
    if k.kind = 0 ∨ x.closed then s else
    let s := s.modLink a b p fun x => { x with freed := x.freed + flits }
    if k.seq = x.expect then
      let s := s.modLink a b p fun x => { x with expect := (x.expect + 1) % 1024, any := true, skip := false, nak := false }
      k.hdrs.foldl (fun s h => s.deliver a b h) s
    else if x.skip then s
    else if 1 ≤ (x.expect + 1024 - k.seq) % 1024 ∧ (x.expect + 1024 - k.seq) % 1024 ≤ 512 then
      s.modLink a b p fun x => { x with nak := false }
    else s.modLink a b p fun x => { x with nak := true }

/-- A unit has landed: without block lock nothing is delivered (R201); an uncorrectable block discards a bundle (R209). What is
discarded returns its credits. -/
def State.landUnit (s : State) (a b p : Nat) (u : LUnit) (k : Option Bundle) : State :=
  if (s.link a b p).lost.isSome then
    (if u.idle then s else s.modLink a b p fun x => { x with freed := x.freed + u.flits })
  else
  match k with
  | some k => s.takeBundle a b p k
  | none => if u.idle then s else s.badUnit a b p u.flits

/-- The detour area of the relay on station `d` has room for what a bundle brings it (R219): otherwise the bundle waits on its
link (DESIGN CHOICE, log entry 180). -/
def State.relayRoom (s : State) (d : Nat) (u : LUnit) : Bool :=
  match stationOculus d with
  | none => true
  | some e => (s.oculus e).detourRoom (u.hdrs.filter fun h => h.det && h.final.toNat != d)

/-- The next block would end a bundle for which the relay has no room. -/
def State.relayHolds (s : State) (a b p : Nat) : Bool :=
  let x := s.link a b p
  match x.flight.head? with
  | some u => !u.idle && decide (u.len ≤ x.cut + 500) && !s.relayRoom b u
  | none => false

/-- The next block of a link arrives with error bits `err`, and with it, perhaps, the end of a bundle or idle flit. -/
def State.blockIn (s : State) (a b p : Nat) (err : BitVec 560) : State :=
  if s.linkSt a b p ≠ 2 || s.relayHolds a b p then s else
  let bad := (s.link a b p).badRun
  let s := s.moveBlock a b p err
  match (s.link a b p).landed with
  | none => s
  | some u => (s.modLink a b p fun x => x.landNext (decide (bad < x.badRun))).landUnit a b p u.1 u.2

/-- So many blocks of a link arrive; `errs` gives the error bits of each, none beyond its end. -/
def State.blocksIn (s : State) (a b p n : Nat) (errs : List (BitVec 560)) : State :=
  (List.range n).foldl (fun s i => s.blockIn a b p (errs.getD i 0)) s

/-- BUNDLE_RECEIVE (R209): the blocks arrive that bring the first bundle in flight to its end. -/
def execBundleReceive (a d : Fin 48) (p : Fin 4) (errs : List (BitVec 560)) (s : State) :
    Host.Outcome State Fault Refusal :=
  let x := s.link a d p
  if (x.flight.find? fun u => !u.idle).any fun u => !s.relayRoom d u then .next s
  else .next (s.blocksIn a d p (x.blocksTo fun u => !u.idle) errs).settleAll

/-- IDLE_FLIT_RECEIVE (R202, R208 to R210): a link without a bundle in flight brings an idle flit: acknowledgements, NAK and
credits for the reverse link. -/
def execIdleFlitReceive (a d : Fin 48) (p : Fin 4) (errs : List (BitVec 560)) (s : State) :
    Host.Outcome State Fault Refusal :=
  if s.linkSt a d p ≠ 2 || (s.link a d p).flight.any fun u => !u.idle then .next s else
  let s := if (s.link a d p).flight.isEmpty then s.sendUnit a d p true 0 [] else s
  .next (s.blocksIn a d p ((s.link a d p).blocksTo fun _ => true) errs).settleAll

/-- LINK_RETRY_TIMEOUT (R210): no progress for RETRY_TMO, and the sender resends from the oldest bundle. -/
def execLinkRetryTimeout (a d : Fin 48) (p : Fin 4) (s : State) : Host.Outcome State Fault Refusal :=
  let x := s.link a d p
  if s.linkSt a d p ≠ 2 || x.retry.isEmpty then .next s else
  match s.waitUntil (x.ackAt + 100 * s.fld (Loc.plPlCtl (stPlinth a)) 27 20) with
  | none => .next s
  | some s =>
    let now := s.clk.elapsed
    let s := s.modLink a d p fun x => { x with ackAt := now, resent := if x.lost.isNone then x.resent + 1 else x.resent }
    .next ((s.resendLink a d p).pumpAll a d p)

/-- BLOCK_LOCK_GAIN (R201): four blocks arrive; when all are correctable the receiver has lock. -/
def execBlockLockGain (a d : Fin 48) (b : LinkBlocks) (s : State) : Host.Outcome State Fault Refusal :=
  .next (s.blocksIn a d b.plane 4 b.errs).settleAll

/-- BLOCK_LOCK_LOSS (R201): eight blocks arrive; when all are uncorrectable the receiver has lost lock. -/
def execBlockLockLoss (a d : Fin 48) (b : LinkBlocks) (s : State) : Host.Outcome State Fault Refusal :=
  .next (s.blocksIn a d b.plane 8 b.errs).settleAll

/-! ### Failure (R212, R215, R217, R226) -/

/-- Links of a port row, out of its transmit row or into its receive row, that failed within the last millisecond (R226). -/
def State.rowFails (s : State) (st p : Nat) : Nat :=
  let recent (x : Link) : Bool := x.st == some 3 && decide (s.clk.elapsed < x.failedAt + 1000000)
  ((peers st).map fun o => b2n (recent (s.link o st p)) + b2n (recent (s.link st o p))).sum

/-- A seam lane of a port row tested against the sextant, with an outcome that the spec leaves to the lane (free value); a
bad lane is replaced at the next tick (R226). -/
def State.laneProbe (s : State) (st p : Nat) (rx : Bool) : State :=
  if (s.plinth (p / 2)).seam.any fun r => r.1 == p && r.2.1 == st && r.2.2 == rx then s else
  let r := s.draw
  if r.1 % 2 = 0 then r.2
  else r.2.modPlinth (p / 2) fun x => { x with seam := x.seam ++ [(p, st, rx)] }

/-- Eight links of a port row that crosses the seam have failed: the lanes of its transmit and receive row are tested (R226;
DESIGN CHOICE, log entry 181). -/
def State.seamTest (s : State) (st p : Nat) : State :=
  if stPlinth st = p / 2 ∨ s.rowFails st p < 8 then s else (s.laneProbe st p false).laneProbe st p true

/-- A link fails with its reverse link, and the port rows of both its stations are judged (R212, R226). -/
def State.linkFails (s : State) (a b p : Nat) : State := ((s.failPair a b p).seamTest a p).seamTest b p

/-- LINK_FAIL (R212): lock lost for too long, one bundle resent too often, or failed training. -/
def execLinkFail (a d : Fin 48) (p : Fin 4) (s : State) : Host.Outcome State Fault Refusal :=
  if isSextant d then .next s else
  let x := s.link a d p
  if s.linkSt a d p = 1 then .next (s.linkFails a d p)
  else if s.linkSt a d p ≠ 2 then .next s
  else if x.resent ≥ s.fld (Loc.plPlCtl (stPlinth a)) 8 4 then .next (s.linkFails a d p)
  else match x.lost with
  | none => .next s
  | some t =>
    match s.waitUntil (t + 1000 * s.fld (Loc.plPlCtl (stPlinth d)) 19 12 + 1) with
    | some s => .next (s.linkFails a d p)
    | none => .next s

/-- LINK_QUERY (R217): the receiver of the failed link closes it and answers the oldest query. -/
def execLinkQuery (a d : Fin 48) (p : Fin 4) (s : State) : Host.Outcome State Fault Refusal :=
  match (s.link a d p).asked with
  | [] => .next s
  | t :: _ => .next (s.deliver a d { op := 0x30, arg := BitVec.ofNat 16 (p + 4 * (t % 16)) })

/-- LINK_REPLY (R217): ARG[9:0] names the last bundle delivered, for the oldest query. -/
def execLinkReply (a d : Fin 48) (p : Fin 4) (seq : BitVec 10) (s : State) : Host.Outcome State Fault Refusal :=
  match (s.link a d p).asked with
  | [] => .next s
  | t :: _ => .next (s.linkAnswered a d p seq.toNat (t % 16))

/-- LINK_BACKGROUND_RETRAIN (R215): every 10 ms a failed link and its reverse link are retrained. -/
def execLinkBackgroundRetrain (a d : Fin 48) (p : Fin 4) (up : Bool) (s : State) : Host.Outcome State Fault Refusal :=
  let x := s.link a d p
  if x.st ≠ some 3 then .next s else
  match s.waitUntil (x.failedAt + 10000000) with
  | none => .next s
  | some s =>
    if up then .next ((s.trainLink a d p).trainLink d a p)
    else
      let now := s.clk.elapsed
      .next ((s.modLink a d p fun x => { x with failedAt := now }).modLink d a p fun x => { x with failedAt := now })

/-! ### Detours (R218 to R220) -/

/-- DETOUR_RELAY (R219, R220): the first transaction that waits at relay `r` is sent on, or completes path-unavailable; where
none is detoured, the first fabric-bound transaction that waits at the station is tried again. -/
def execDetourRelay (r : Fin 48) (s : State) : Host.Outcome State Fault Refusal :=
  match stationOculus r with
  | none => .next s
  | some e =>
    match (s.oculus e).detour.find? fun x => x.1 == r.val with
    | some x => .next (((s.modOculus e fun o => { o with detour := o.detour.erase x }).relayOn r x.2).settleAll)
    | none =>
      match (s.oculus e).fabWait.find? fun x => x.1 == r.val with
      | none => .next s
      | some x =>
        .next (((s.modOculus e fun o => { o with fabWait := o.fabWait.erase x }).hdrFabric e r (hdrSource r x.2) x.2).settleAll)

/-- PAIR_VIA written (R218). -/
def State.pairViaOp (s : State) (e : Nat) (v : Word) : WR :=
  let sel := s.get (Loc.plPairSel e)
  let loc := Loc.plPairVia e
  if v.bit 6 && (stationOculus (v.bits 5 0)).isNone then
    .error (if v.toNat &&& coverMask (locFields loc) ≠ v.toNat then 1 else 2)
  else s.plainWrite loc (sel.bits 4 0 * 64 + sel.bits 13 8) v

/-- PAIR_VIA_WRITE. -/
def execPairViaWrite (f : Func) (e : Side) (v : Word) (s : State) : Host.Outcome State Fault Refusal :=
  .next (s.write f (Loc.plPairVia (sideNat e)) v fun s => s.pairViaOp (sideNat e) v)

/-! ### Lanes (R221 to R225) -/

/-- Selection of a bond group of a station: its plinth's BUN_STS, transmit group of a plane. -/
def bunIdx (st g : Nat) : Nat := stLocal st * 16 + g

/-- The bond group that carries a link's lane: transmit group of the source, or receive group of the destination. -/
def laneGroup (a d p : Nat) (rx : Bool) : Loc × Nat :=
  if rx then (Loc.plBunSts (stPlinth d), bunIdx d (4 + p)) else (Loc.plBunSts (stPlinth a), bunIdx a p)

/-- Spares of a group that its loopback tests found bad (R223): no longer spares. -/
def State.sparesOut (s : State) (loc : Loc) (i n : Nat) : State :=
  let k := min n (s.fld loc 2 0 i)
  (s.setFld loc 2 0 (s.fld loc 2 0 i - k) i).addSat loc 11 4 k i

/-- A lane back among the spares of its group, or marked failed (R223). -/
def State.laneBack (s : State) (g : Loc × Nat) (ok : Bool) : State :=
  if ok then s.addSat g.1 2 0 1 g.2 else s.addSat g.1 11 4 1 g.2

/-- The link's window of 1 ms is judged (R223). A link with more than 1,000 corrected bits has the lane that the belfry names
exchanged at the next tick; errors that persist on the new lane send the row to calibration; else the old lane is tested. -/
def State.judgeLane (s : State) (a d p bits : Nat) (rx oldOk : Bool) : State :=
  let x := s.link a d p
  if x.lanePend ≠ 0 then s
  else if bits > 1000 then
    if x.lane = 0 then s.modLink a d p fun x => { x with lanePend := if rx then 2 else 1 }
    else
      ((s.modLink a d p fun x => { x with lane := 0 }).laneBack (laneGroup a d p (x.lane == 2)) true).wantRescue
        (if x.lane = 2 then d else a) p
  else if x.lane = 0 then s
  else (s.modLink a d p fun x => { x with lane := 0 }).laneBack (laneGroup a d p (x.lane == 2)) oldOk

/-- LANE_ERROR_WINDOW (R223): a millisecond of a link ends. `rx` names the lane at fault; the offline tests of
its group come with the command. -/
def execLaneErrorWindow (a d : Fin 48) (p : Fin 4) (rx : Bool) (t : LaneTest) (s : State) :
    Host.Outcome State Fault Refusal :=
  if s.linkSt a d p ≠ 2 then .next s else
  match s.waitUntil ((s.link a d p).winAt + 1000000) with
  | none => .next s
  | some s =>
    let bits := (s.link a d p).errs
    let now := s.clk.elapsed
    let s := s.setFld (Loc.plLinkBiterr 0) 31 0 bits (linkKey a d p)
    let s := s.modLink a d p fun x => { x with errs := 0, winAt := now }
    let g := laneGroup a d p rx
    if s.flag (Loc.plBunCtl (stPlinth (if rx then d else a))) 8 then
      .next ((s.sparesOut g.1 g.2 t.sparesBad).judgeLane a d p bits rx t.oldOk)
    else .next s

/-! ### Stations that leave service (R441) -/

/-- A gatehouse leaves service: the requests that wait in it complete with a status, 0x21 when it is lost, 0x22 when its plinth is
fenced (R401, R441). -/
def State.gateOut (s : State) (g : Nat) (st : Nat := 0x21) : State :=
  let x := s.gate g
  let l := x.waitq ++ x.lbuf.flatMap fun e => e.queue
  let s := s.modGate g fun x => { x with out := 2, waitq := [], lbuf := [] }
  l.foldl (fun s o => s.gateDone o st []) s

/-- Every port of an oculus fails (R274). -/
def State.portsOut (s : State) (e cause : Nat) : State :=
  (List.range 16).foldl (fun s i => if s.portState (16 * e + i) = 0 then s else s.failPort (16 * e + i) cause) s

/-- A detoured transaction ends with a status: a request at its source, and for a completion the request that it answers. -/
def State.endDetour (s : State) (st : Nat) (h : Hdr) (v : Nat) : State :=
  if h.op = 0x20 ∨ h.op = 0x21 then s.endReq h.final.toNat h.tid.toNat v
  else s.endAtSource (hdrSource st h) h v

/-- Detoured transactions at a station that leaves complete at their sources with the path-reset status (Table PL-7). -/
def State.detoursLost (s : State) (st : Nat) : State :=
  match stationOculus st with
  | none => s
  | some e =>
    let l := (s.oculus e).detour.filter fun x => x.1 == st
    let s := s.modOculus e fun o => { o with detour := o.detour.filter fun x => x.1 != st }
    l.foldl (fun s x => s.endDetour st x.2 0x34) s

/-- The same for every station of an oculus. -/
def State.oculusDetoursLost (s : State) (e : Nat) : State :=
  ((s.oculus e).detour.map (·.1)).eraseDups.foldl (fun s st => s.detoursLost st) s

/-- A station leaves service, and its die with it (R222, R225, R441). An oculus keeps its ports while one of its stations
serves (R442). -/
def State.stationLoss (s : State) (st : Nat) : State :=
  if s.stationOut st then s else
  let e := stPlinth st
  let s := s.detoursLost st
  let s := s.setFlag (Loc.plStationOut e) (stLocal st) true
  let s := s.post (plPage e 0) 2 0x62 (stLocal st) 0
  match stationSpire st with
  | some n => ((s.modSpire n fun sp => { sp with out := 2 }).spireTasksOut n).endReqs st 0x22
  | none =>
    match stationGate st with
    | some (g, _) =>
      let s := (s.post (gtPage g 0) 2 0x47 st 0).endReqs st 0x21
      if s.stationOut (gateStation g false) && s.stationOut (gateStation g true) then s.gateOut g else s
    | none =>
      match stationOculus st with
      | some o => s.portsOut o 0
      | none => s

/-! ### What a tick does to links, lanes and seams (R215, R223 to R227) -/

/-- Masks of failed links are set, those of retrained links clear (R215, Table PL-7); a query that found no path goes again
(R217). -/
def State.linkTick (s : State) : State :=
  s.links.foldl (fun s e =>
    let p := e.1 % 4
    let a := e.1 / 4 / 48
    let b := e.1 / 4 % 48
    let s := if (s.link a b p).unsent then s.askLink a b p else s
    let x := s.link a b p
    if s.holder.isNone then s
    else if x.maskDue ≠ 0 then
      let s := (s.modLink a b p fun x => { x with maskDue := 0 }).setMask a b p true
      if x.maskDue = 2 then s.post (plPage (stPlinth a) 2) 0 0x60 (stLocal a) (b + 256 * p) else s
    else if x.retrained then (s.modLink a b p fun x => { x with retrained := false }).unmask a b p
    else s) s

/-- The fence of a link that is up lifts at the tick at which its mask bit is 0 (R215, Table PL-7). -/
def State.fenceTick (s : State) : State :=
  s.links.foldl (fun s e =>
    let p := e.1 % 4
    let a := e.1 / 4 / 48
    let b := e.1 / 4 % 48
    if (s.link a b p).fenced && (s.link a b p).st == some 2 && !(s.pairMask a b).testBit p then
      s.modLink a b p fun x => { x with fenced := false }
    else s) s

/-- Every link of a station's transmit or receive rows lacks a lane (R225). -/
def State.lanesGone (s : State) (st : Nat) (rx : Bool) : Bool :=
  (List.range 4).all fun p => (peers st).all fun o =>
    isSextant o || (if rx then (s.link o st p).noRx else (s.link st o p).noTx)

/-- A link's lane failed and its group has no spare left: the link is masked in both directions, and a station whose groups
are all gone leaves service (R225). The mask is reported (R13). -/
def State.laneLost (s : State) (a b p : Nat) (rx : Bool) : State :=
  let g := laneGroup a b p rx
  let s := s.modLink a b p fun x => { x with lanePend := 0, lane := 0, noTx := x.noTx || !rx, noRx := x.noRx || rx }
  let s := s.addSat g.1 11 4 1 g.2
  let s := ((s.setFld g.1 17 12 (min 48 (s.fld g.1 17 12 g.2 + 1)) g.2).maskBoth a b p).reportMask 0 a (b + 256 * 2 ^ p)
  let st := if rx then b else a
  if s.lanesGone st rx then s.stationLoss st else s

/-- Lanes exchanged for a spare, or links masked where none is left (R223 to R225). -/
def State.laneTick (s : State) : State :=
  s.links.foldl (fun s e =>
    let p := e.1 % 4
    let a := e.1 / 4 / 48
    let b := e.1 / 4 % 48
    let x := s.link a b p
    if x.lanePend = 0 then s else
    let g := laneGroup a b p (x.lanePend == 2)
    let n := s.fld g.1 2 0 g.2
    if n > 0 then (s.setFld g.1 2 0 (n - 1) g.2).modLink a b p fun x => { x with lane := x.lanePend, lanePend := 0 }
    else s.laneLost a b p (x.lanePend == 2)) s

/-- The tests of control groups that a frame made, each station at most once per BUN_CTL.PERIOD (R223): a bad lane is replaced
by a spare, or takes its station out of service (R225). -/
def State.controlTick (s : State) (l : List (Fin 48 × Bool)) : State :=
  l.foldl (fun s x =>
    let st := x.1.val
    let e := stPlinth st
    let now := s.clk.elapsed
    if !s.flag (Loc.plBunCtl e) 8 || s.stationOut st ||
        decide (now < tget 0 (s.plinth e).ctlAt (stLocal st) + 100000000 * s.fld (Loc.plBunCtl e) 7 0) then s else
    let s := s.modPlinth e fun y => { y with ctlAt := tset 0 y.ctlAt (stLocal st) now }
    if x.2 then s else
    let loc := Loc.plBunSts e
    let i := bunIdx st 8
    let n := s.fld loc 2 0 i
    let s := s.addSat loc 11 4 1 i
    if n > 0 then s.setFld loc 2 0 (n - 1) i else s.stationLoss st) s

/-- Bundle of a plane on its plinth's seam page (Table PL-13). -/
def seamBundle (p : Nat) : Nat := if p = 0 ∨ p = 3 then 0 else 1

/-- A port row is lost for want of a seam lane (R227). -/
def State.seamLost (s : State) (p st : Nat) (rx : Bool) : State :=
  let e := p / 2
  let loc := Loc.plSeamSts e
  let b := seamBundle p
  let s := (s.setFld loc 15 10 (min 48 (s.fld loc 15 10 b + 1)) b).setFlag (Loc.plPlSts e) 5 true
  let s := (s.modRow st p rx fun r => { r with lost := true }).maskRow st p
  s.post (plPage e 0) 2 0x63 b st

/-- A seam lane is replaced and its row recalibrated, or the row is lost (R226, R227). -/
def State.seamRow (s : State) (p st : Nat) (rx : Bool) : State :=
  let e := p / 2
  let loc := Loc.plSeamSts e
  let b := seamBundle p
  let n := s.fld loc 2 0 b
  let s := s.setFld loc 9 4 (min 54 (s.fld loc 9 4 b + 1)) b
  if n > 0 then (s.setFld loc 2 0 (n - 1) b).askRescue st p true
  else s.seamLost p st rx

/-- Seam rows at a tick. -/
def State.seamTick (s : State) : State :=
  (List.range 2).foldl (fun s e =>
    let l := (s.plinth e).seam
    l.foldl (fun s r => s.seamRow r.1 r.2.1 r.2.2) (s.modPlinth e fun x => { x with seam := [] })) s

/-- An ordered pair of stations on different plinths has no plane and no relay (R227). -/
def State.seamStranded (s : State) : Bool :=
  (List.range 2).any (fun e => s.flag (Loc.plPlSts e) 5) &&
    (List.range 48).any fun a => (List.range 48).any fun b =>
      stPlinth a != stPlinth b && !isSextant a && !isSextant b && !s.stationOut a && !s.stationOut b &&
        (s.planes a b).isEmpty && (s.via a b).isNone

/-- The planes of every pair that are not available, for pairs that lack one. -/
def State.badPlanes (s : State) : Tab Nat :=
  (List.range 2304).filterMap fun k =>
    let a := k / 48
    let b := k % 48
    let bad := if a = b then 0 else (List.range 4).foldl (fun m p => if s.planeOk a b p then m else m + 2 ^ p) 0
    if bad = 0 then none else some (k, bad)

/-- The planes of every pair as the tick finds them, for the standby relays (R218); a pair that now goes by its detour is
reported (R13). -/
def State.relayTick (s : State) : State :=
  if s.holder.isNone then s else
  let bad := s.badPlanes
  let lost := bad.filter fun e => e.2 == 15 && tget 0 s.viaBad e.1 != 15
  let s := { s with relays := true, viaBad := bad }
  lost.foldl (fun s e =>
    let a := e.1 / 48
    let b := e.1 % 48
    if s.flag (Loc.plPlCtl (stPlinth a)) 0 && (s.via a b).isSome && s.lineUse a b 0 == .traffic then s.reportMask 1 a b
    else s) s

end Sys2Proof.Machine
end

