-- ==== Sys2Proof/Machine/Track.lean ====
section
/-! DEFINITION. Tracking of the rings from the signal, re-indexing, and the window of a row (R245 to R249). -/

namespace Sys2Proof.Machine

/-! ### Code errors (R245) -/

/-- Amplitude of a link (R245). -/
def levelAmp (x : LinkLevels) : Nat := x.m3 - x.m0

/-- Code error of a transmit ring: the tilt times the row's fused slope, towards 0. DESIGN CHOICE: the sign is that of the move
that mends it (log entry 189). -/
def tiltError (key : Nat) (x : LinkLevels) : Int :=
  ((((x.m3 : Int) - x.m2) - ((x.m1 : Int) - x.m0)) * (Config.fuseTilt key).toNat).tdiv ((x.m3 : Int) - x.m0)

/-- The report of a transmit ring's error reaches its station: over the calibration bus within a plinth, through the belfries
across the seam, where none is active it does not (R245, R259). -/
def State.tiltReport (s : State) (key : Nat) (x : LinkLevels) : Option Int :=
  if stPlinth x.src = stPlinth x.dst ∨ s.holder.isSome then some (tiltError key x) else none

/-- Code error of a drop ring, once both sides of its dither are measured: a step towards the larger amplitude. -/
def State.dropError (s : State) (t : RingTrack) (a : Nat) : Option Int :=
  let step : Int := 1 + (Config.dropStep).toNat
  if s.optics.dither ≠ -4 ∨ t.up = 0 then none
  else some (if a < t.up then step else if t.up < a then -step else 0)

/-- What the frame told of the rings of a row: ring, code error, amplitude to remember. -/
def State.ringsSeen (s : State) (st p : Nat) (rx : Bool) (l : List LinkLevels) : List (Nat × Option Int × Nat) :=
  let key := rowKey st p rx
  let r := s.row st p rx
  l.filterMap fun x =>
    if x.plane.val ≠ p ∨ (if rx then x.dst else x.src).val ≠ st then none else
    (r.ringAt key (r.offOf key) (lineNo x.src x.dst)).map fun j =>
      (j, if rx then s.dropError (tget {} r.track j) (levelAmp x) else s.tiltReport key x,
        if rx ∧ s.optics.dither = 4 then (levelAmp x) else 0)

/-! ### Corrections (R246) -/

/-- A ring's record with the frame's error; without one the ring goes on by its last slope (R259). -/
def RingTrack.heard (t : RingTrack) (e : Option Int) (up : Nat) : RingTrack :=
  match e with
  | some e => { err := e, moved := 0, n := 1, up := up, slope := if t.n = 0 then 0 else (t.moved + e - t.err).tdiv t.n }
  | none => { t with n := if t.n = 0 then 0 else t.n + 1, up := up }

/-- A correction is at most 32 codes. -/
def clamp32 (c : Int) : Int := max (-32) (min 32 c)

/-- What each ring wants: its error, and the drift extrapolated from the last two frames to the middle of the coming one. -/
def State.ringWants (s : State) (st p : Nat) (rx : Bool) (l : List LinkLevels) : List (Nat × RingTrack × Int) :=
  let r := s.row st p rx
  (s.ringsSeen st p rx l).map fun x =>
    let t := (tget {} r.track x.1).heard x.2.1 x.2.2
    (x.1, t, x.2.1.getD 0 + t.slope)

/-- The corrections of a row in force: the mean of the clamped ones moves the row, what is left moves a ring's own trim, within
±64. DESIGN CHOICE: the spec does not say how an error is divided (log entry 190). -/
def Row.corrected (r : Row) (l : List (Nat × RingTrack × Int)) : Row :=
  let d := ((l.map fun x => clamp32 x.2.2).sum).tdiv l.length
  let trim (x : Nat × RingTrack × Int) : Int := tget 0 r.trims x.1 + (clamp32 x.2.2 - d)
  let fits (x : Nat × RingTrack × Int) : Bool := decide ((trim x).natAbs ≤ 64)
  { r with
    resid := r.resid + d
    trims := l.foldl (fun t x => if fits x then tset 0 t x.1 (trim x) else t) r.trims
    track := l.foldl (fun t x => tset {} t x.1 { x.2.1 with moved := x.2.1.moved + if fits x then clamp32 x.2.2 else d }) [] }

/-- A ring of the row cannot be trimmed as far as tracking wants, or its error exceeds 64 codes (R243, R253). -/
def Row.ringLost (r : Row) (l : List (Nat × RingTrack × Int)) : Bool :=
  let d := ((l.map fun x => clamp32 x.2.2).sum).tdiv l.length
  l.any fun x => decide (64 < (tget 0 r.trims x.1 + (clamp32 x.2.2 - d)).natAbs) || decide (64 < x.2.1.err.natAbs)

/-! ### Re-indexing (R248, R249) -/

/-- The row at another offset: every active ring keeps its place on the comb. -/
def Row.moveTo (r : Row) (key o : Nat) : Row :=
  { r with off := some o, resid := r.resid + 1600 * ((o : Int) - r.offOf key) }

/-- The offset that brings the residual back within ±960, by one position or by two; the present one where there is none that
the row can take. -/
def Row.wantOff (r : Row) (key : Nat) : Nat :=
  let o := r.offOf key
  if r.resid < -960 then
    let n := if r.resid + 1600 < -960 then 2 else 1
    if o + n ≤ r.maxOff key then o + n else o
  else if 960 < r.resid then
    let n := if 960 < r.resid - 1600 then 2 else 1
    if n ≤ o then o - n else o
  else o

/-- A row after its correction: re-indexed, or at the edge of its window. A row with a replaced ring also takes its other offset
where that one alone keeps its codes within 0 to 4,095 (DESIGN CHOICE, log entry 191). -/
def Row.reindexed (r : Row) (key : Nat) (dither : Int) : Row :=
  let o := r.wantOff key
  let other := r.moveTo key (1 - r.offOf key)
  if o ≠ r.offOf key then { r.moveTo key o with edge := false }
  else if (r.badOf key).isEmpty then { r with edge := decide (960 < r.resid.natAbs) }
  else if r.offRange key dither && !other.offRange key dither then { other with edge := false }
  else { r with edge := r.offRange key dither }

/-- A row's rings are corrected at a tick (R245 to R249): a row that is swept keeps its codes (Table LN-6). -/
def State.trackRow (s : State) (st p : Nat) (rx : Bool) (l : List LinkLevels) : State :=
  let w := s.ringWants st p rx l
  if w.isEmpty || s.stationOut st || s.rowSwept st p then s else
  let key := rowKey st p rx
  let old := s.row st p rx
  let r := (old.corrected w).reindexed key s.optics.dither
  let s := s.modRow st p rx fun _ => { r with outDue := r.outDue || r.offRange key s.optics.dither }
  let s := if w.any fun x => clamp32 x.2.2 != x.2.2 then s.calEvent 7 st else s
  let s := if r.offOf key ≠ old.offOf key then s.calEvent 2 st else s
  if old.ringLost w || (r.edge && !old.edge) then s.wantRescue st p else s

/-- A row whose codes hold (TRACK_EN = 0) still fails by its tracked errors (R253, R259). -/
def State.heldRow (s : State) (st p : Nat) (rx : Bool) (l : List LinkLevels) : State :=
  if s.stationOut st || s.rowSwept st p then s
  else if (s.ringsSeen st p rx l).any fun x => decide (64 < (x.2.1.getD 0).natAbs) then s.wantRescue st p else s

/-- Rows that a frame's levels tell of: station, plane, receive row. -/
def rowsSeen (l : List LinkLevels) : List (Nat × Nat × Bool) :=
  (l.flatMap fun x => [(x.src.val, x.plane.val, false), (x.dst.val, x.plane.val, true)]).eraseDups

/-- Decision thresholds of the receivers, midway between neighbouring levels (R245; DESIGN CHOICE, log entry 192). -/
def State.setEyes (s : State) (l : List LinkLevels) : State :=
  s.modOptics fun o =>
    { o with eyes := l.foldl (fun t x =>
        tset (0, 0, 0) t (linkKey x.src x.dst x.plane) ((x.m0 + x.m1) / 2, (x.m1 + x.m2) / 2, (x.m2 + x.m3) / 2)) o.eyes }

/-- Every ring, row and receiver of the device is corrected at a tick; with TRACK_EN = 0 codes hold (R245, R246, R259). -/
def State.trackTick (s : State) (o : FrameObs) : State :=
  let l := o.levels.filter fun x => s.linkSt x.src x.dst x.plane == 2
  if s.flag (Loc.plCalCtl 0) 10 then
    let s := (rowsSeen l).foldl (fun s k => s.trackRow k.1 k.2.1 k.2.2 l) (s.setEyes l)
    s.modOptics fun o => { o with dither := if o.dither = 4 then -4 else 4 }
  else (rowsSeen l).foldl (fun s k => s.heldRow k.1 k.2.1 k.2.2 l) s

/-- Rows that need a code beyond 0 to 4,095 are masked (R249). -/
def State.windowTick (s : State) : State :=
  s.optics.rows.foldl (fun s e =>
    let st := e.1 / 8
    let p := e.1 % 4
    let rx := e.1 / 4 % 2 == 1
    if !(s.row st p rx).outDue then s else
    let s := (s.modRow st p rx fun r => { r with outDue := false, outside := true, edge := true }).maskRow st p
    s.post (plPage (stPlinth st) 0x10) 2 0x66 (stLocal st) (p + 4 * b2n rx)) s

end Sys2Proof.Machine
end

