-- ==== Sys2Proof/Machine/Lantern.lean ====
section
/-! DEFINITION. Lanterns, comb lines, ring tracking and recalibration (R230 to R259). -/

namespace Sys2Proof.Machine

/-! ### Bays and the selector (R231, R232, Table LN-1) -/

/-- State of a bay; 0 absent, 1 warming, 2 locked, 3 serving, 4 faulted, 5 shut. -/
def State.bay (s : State) (b : Nat) : Nat := s.fld Loc.lnLnSts (3 * b + 2) (3 * b)
def State.setBay (s : State) (b v : Nat) : State := s.setFld Loc.lnLnSts (3 * b + 2) (3 * b) v

/-- Side that the selector brings L2's light to. -/
def State.l2Side (s : State) : Option Nat :=
  match s.fld Loc.lnLnSts 10 9 with
  | 1 => some 0
  | 2 => some 1
  | _ => none

/-- L2 is spare-ready: locked, its selector at dump and at rest (R232, R241). -/
def State.spareReady (s : State) : Bool :=
  s.bay 2 == 2 && s.fld Loc.lnLnSts 11 9 == 0 && s.optics.swapTo.isNone

/-- A side has light. -/
def State.lit (s : State) (e : Nat) : Bool := s.bay e == 3 || (s.l2Side == some e && s.bay 2 == 3)

/-- A bay has taken over or given back a side: the side's links are held for 20 µs (R237, R238). -/
def State.sideMoved (s : State) (e : Nat) : State :=
  let now := s.clk.elapsed
  (s.modOptics fun o =>
    { o with hold := o.hold.set e (now + 20000), sinceSwap := o.sinceSwap.set e 1, anomDue := o.anomDue.set e false }).setFlag
      Loc.lnLnSts 11 true

/-- Times at which sides went dark (R240). -/
def State.markDark (s : State) : State :=
  let now := s.clk.elapsed
  let f (e : Nat) : Nat := if s.lit e then 0 else if lget 0 s.optics.dark e = 0 then now + 1 else lget 0 s.optics.dark e
  s.modOptics fun o => { o with dark := (List.range 2).map f }

/-- The rail of a bay is switched on when a module is fitted, once step 2 of the rails has come (R359). -/
def State.lanternRail (s : State) (b : Nat) : State :=
  if s.power.rails < 2 then s
  else { s with power := { s.power with lnOn := b :: s.power.lnOn.filter (· != b), railFailed := s.power.railFailed.filter (· != 10 + b) } }

/-- LANTERN_FIT (R230, R242, R255): a module is fitted, and the belfry reads its record; it is ignored until it locks. -/
def execLanternFit (m : LanternModule) (s : State) : Host.Outcome State Fault Refusal :=
  if s.bay m.bay = 0 ∨ s.bay m.bay = 4 then
    .next (((s.setBay m.bay 1).modOptics fun o => { o with lanterns := tset {} o.lanterns m.bay m.record }).lanternRail m.bay)
  else .next s

/-- The side whose side switch stands at L2: the selector names it and no swap towards it is under way (R231, R236). -/
def State.heldSide (s : State) : Option Nat := if s.optics.swapTo.isNone then s.l2Side else none

/-- What a bay that locks comes to: L2 feeds the side whose switch stands at it, and is locked otherwise; a primary feeds its side,
is locked while L2 serves it, and has its shutter closed while its side's switch stands at an L2 that does not serve, until the
return at a tick (R232, R241, Table LN-1). -/
def State.lockedAs (s : State) (b : Nat) : Nat :=
  if b = 2 then (if s.heldSide.isSome then 3 else 2)
  else if s.heldSide ≠ some b then 3
  else if s.bay 2 = 3 then 2
  else 5

/-- LANTERN_LOCK (R230, R232, R241). A bay whose LF input is active or chattering does not lock (Table HS-10). -/
def execLanternLock (bay : Fin 3) (s : State) : Host.Outcome State Fault Refusal :=
  if s.bay bay ≠ 1 ∧ s.bay bay ≠ 4 ∨ s.fld Loc.glSbSts 2 1 (6 + bay) ≠ 0 then .next s
  else .next ((s.setBay bay (s.lockedAs bay)).markDark)

/-- A bay stops giving light: 0 without a module, 4 faulted. A primary that was locked beside a serving L2 is shut when L2 serves
no more, since only a served side's primary reads locked (Table LN-1). -/
def State.loseBay (s : State) (b v : Nat) : State :=
  let s := s.setBay b v
  (match s.heldSide with
    | some e => if b = 2 ∧ s.bay e = 2 then s.setBay e 5 else s
    | none => s).markDark

/-- A module reports a fault, before its lock or after it; an empty bay has none to report (Table LN-1, R242). -/
def State.bayFault (s : State) (b : Nat) : State := if s.bay b = 0 then s else s.loseBay b 4

/-- LANTERN_FAULT (R232, R240, R242): the module reports a fault, or has lost lock or power. -/
def execLanternFault (bay : Fin 3) (s : State) : Host.Outcome State Fault Refusal := .next (s.bayFault bay)

/-- SELECTOR_SETTLED (R231, R236). -/
def execSelectorSettled (s : State) : Host.Outcome State Fault Refusal :=
  let s := s.setFlag Loc.lnLnSts 11 false
  match s.optics.swapTo with
  | none => .next s
  | some e => .next ((s.setFld Loc.lnLnSts 10 9 (e + 1)).modOptics fun o => { o with settled := true })

/-- L2 takes over a side (R237, R238). -/
def State.swapSide (s : State) (e : Nat) : State :=
  let s := if s.bay e = 3 then s.setBay e 5 else s
  let s := (s.setBay 2 3).setFld Loc.lnLnSts 10 9 (e + 1)
  let s := s.modOptics fun o => { o with swapTo := none, settled := false, swapNow := false, ret := false }
  (s.sideMoved e).markDark

/-- EMERGENCY_SWAP (R238, Table LN-6): L2, spare-ready or on its way to a side, takes over at once. -/
def execEmergencySwap (e : Side) (s : State) : Host.Outcome State Fault Refusal :=
  let n := sideNat e
  if !(s.spareReady || (s.bay 2 == 2 && s.optics.swapTo.isSome)) then .next s
  else
    let s := (s.swapSide n).addWrap Loc.lnLnSwaps 31 16 1
    .next ((s.bump 0xD00 3 n).post 0xD00 2 0x73 n 0)

/-- LN_CTL written (R236, R241, Table LN-7). -/
def State.lnCtlOp (s : State) (v : Word) : WR :=
  match formCheck (locFields Loc.lnLnCtl) v with
  | some c => .error c
  | none =>
    let keep (s : State) : State := s.put Loc.lnLnCtl (BitVec.ofNat 32 (v.bits 1 0))
    let swap (e : Nat) : WR :=
      if !s.spareReady then .error 5
      else .ok (((keep s).setFlag Loc.lnLnSts 11 true).modOptics fun o => { o with swapTo := some e, swapLine := 0, settled := false })
    match v.bits 3 2 with
    | 1 => swap 0
    | 2 => swap 1
    | 3 =>
      match s.l2Side with
      | some e =>
        if s.bay 2 == 3 && (s.bay e == 2 || s.bay e == 5) then .ok ((keep s).modOptics fun o => { o with ret := true })
        else .error 5
      | none => .error 5
    | _ => .ok (keep s)

/-- SWAP_EAST: LN_CTL is written with CMD = 0b01. -/
def execSwapEast (f : Func) (v : Word) (s : State) : Host.Outcome State Fault Refusal :=
  let v := v.put 3 2 1
  .next (s.write f Loc.lnLnCtl v fun s => s.lnCtlOp v)

/-- SWAP_WEST: LN_CTL is written with CMD = 0b10. -/
def execSwapWest (f : Func) (v : Word) (s : State) : Host.Outcome State Fault Refusal :=
  let v := v.put 3 2 2
  .next (s.write f Loc.lnLnCtl v fun s => s.lnCtlOp v)

/-- LANTERN_RETURN: LN_CTL is written with CMD = 0b11. -/
def execLanternReturn (f : Func) (v : Word) (s : State) : Host.Outcome State Fault Refusal :=
  let v := v.put 3 2 3
  .next (s.write f Loc.lnLnCtl v fun s => s.lnCtlOp v)

/-- ANOM_RECORD (R233): the nominal amplitudes of a side's links. -/
def execAnomRecord (e : Side) (amps : List (Fin 48 × Fin 48 × Fin 4 × Nat)) (s : State) :
    Host.Outcome State Fault Refusal :=
  let n := sideNat e
  if !lget false s.optics.anomDue n then .next s else
  .next (s.modOptics fun o =>
    { o with
      anomDue := o.anomDue.set n false
      anom := amps.foldl (fun t a => if stSide a.1 = n then tset 0 t (linkKey a.1 a.2.1 a.2.2.1) a.2.2.2 else t) o.anom })

/-! ### Recalibration (R250 to R254) -/

/-- The rows of the rotation in order: 46 stations, planes A to D (R252). -/
def rotRow (pos : Nat) : Nat × Nat :=
  let st := pos / 4
  (if st < 23 then st else st + 2, pos % 4)

/-- A row masked, fenced or out at a station (R228, R252). -/
def State.rowTrouble (s : State) (st : Nat) : Bool :=
  s.stationOut st || (List.range 4).any fun p =>
    s.rowOut st p || (s.optics.sweeps.any fun w => w.st == st && w.plane == p) ||
      (peers st).any fun o => (s.link st o p).fenced || (s.link o st p).fenced

/-- A skipped row is counted (R251, R252). -/
def State.calSkip (s : State) (st : Nat) : State :=
  let s := s.addSat (Loc.plCalSts (stPlinth st)) 31 16 1
  ((s.plEvent 9 st 1)).calEvent 5 st

/-- ROTATION_ROW_START (R252): the next row of the rotation falls due. -/
def execRotationRowStart (s : State) : Host.Outcome State Fault Refusal :=
  if s.holder.isNone || !s.flag (Loc.plCalCtl 0) 8 || s.optics.sweeps.any (fun w => !w.rescue) then .next s else
  match s.waitUntil (s.optics.rotAt + s.fld (Loc.plCalCtl 0) 7 0 * 100000000 / 184) with
  | none => .next s
  | some s =>
    let pos := s.fld (Loc.plCalSts 0) 7 0
    let r := rotRow pos
    let now := s.clk.elapsed
    let s := s.modOptics fun o => { o with rotAt := now }
    let s := (s.setFld (Loc.plCalSts 0) 7 0 ((pos + 1) % 184)).setFld (Loc.plCalSts 1) 7 0 ((pos + 1) % 184)
    if s.rowTrouble r.1 then .next (s.calSkip r.1)
    else .next (s.modOptics fun o => { o with sweeps := o.sweeps ++ [({ st := r.1, plane := r.2 } : Sweeping)] })

/-- The retry buffers of a port row's links are empty. -/
def State.rowEmpty (s : State) (st p : Nat) : Bool :=
  (peers st).all fun o => (s.link st o p).retry.isEmpty && (s.link o st p).retry.isEmpty

def State.sweepOf (s : State) (st p ph : Nat) : Option Sweeping :=
  s.optics.sweeps.find? fun w => w.st == st && w.plane == p && w.phase == ph
def State.setSweep (s : State) (w : Sweeping) (ph : Nat) : State :=
  s.modOptics fun o => { o with sweeps := o.sweeps.map fun x =>
    if x.st = w.st ∧ x.plane = w.plane then { x with phase := ph } else x }

/-- A row whose buffers have emptied within 20 µs of its masking tick (R251). -/
def State.emptied (s : State) (w : Sweeping) : Bool :=
  s.rowEmpty w.st w.plane && decide (s.clk.elapsed ≤ w.since + 20000)

/-- A calibration probe leaves on the link that a port row keeps to the sextant of its plane's plinth, and on no other (R195, Table
PL-4). The sextant transmits nothing, so the probe takes no credit and waits for no acknowledgement. -/
def State.sendProbe (s : State) (st p : Nat) : State :=
  let x := 23 + p / 2
  let q := (s.link st x p).next
  (s.sendUnit st x p false q [{ op := 0x32 }]).modLink st x p fun y => { y with next := (q + 1) % 1024 }

/-- RECAL_BUFFERS_EMPTY (R250, R251): the row is switched to the sextant, unless 20 µs have passed. -/
def execRecalBuffersEmpty (st : Fin 48) (p : Fin 4) (s : State) : Host.Outcome State Fault Refusal :=
  match s.sweepOf st p 1 with
  | none => .next s
  | some w => if s.emptied w then .next ((s.setSweep w 2).sendProbe st p) else .next s

/-- RECAL_ABANDON (R251): the buffers have not emptied in 20 µs; the masks clear at the next tick. -/
def execRecalAbandon (st : Fin 48) (p : Fin 4) (s : State) : Host.Outcome State Fault Refusal :=
  match s.sweepOf st p 1 with
  | none => .next s
  | some w =>
    if s.emptied w then .next s else
    match s.waitUntil (w.since + 20000) with
    | none => .next s
    | some s => .next ((s.setSweep w 3).calSkip st)

/-- Rings that a sweep finds unusable: too little extinction or drop, or a base code outside 1,088 to 3,007 (R254). -/
def sweptBad (w : SweptRow) : List Nat :=
  w.weak.map (·.val) ++ (w.base.filter fun e => decide (e.2 < 1088 ∨ 3007 < e.2)).map (·.1.val)

/-- A row with what a sweep found: base codes, ring states, then the offset and residual that its temperature gives, and whether
that lies inside its window (R250, R251, R254). What the sweep of a start finds of the rings prevails over the fuses (R256); a later
one adds to what is known. -/
def Row.swept (r : Row) (key : Nat) (w : SweptRow) (start : Bool) : Row :=
  let bad := uniq ((if start then [] else r.badOf key) ++ sweptBad w)
  let r : Row :=
    { r with
      bad := some bad
      base := w.base.foldl (fun t e => if 1088 ≤ e.2 ∧ e.2 ≤ 3007 then tset 0 t e.1 (e.2 + 1) else t) r.base }
  let temp := w.temp - 32 * (Config.fuseTemp key).toNat
  let drift := driftOf key temp
  let o := r.sweptOff key drift
  let inside := decide ((r.window key).1 ≤ temp ∧ temp ≤ (r.window key).2)
  { r with
    off := some o
    resid := residAt key o drift
    trims := []
    track := []
    drive := if key / 4 % 2 = 0 then some w.drive else none
    edge := !inside
    outside := !inside
    outDue := false
    lost := r.lost || decide (2 ≤ bad.length)
    gap := true }

/-- What a sweep finds for one of the two rows of a port row (R250, R254). -/
def State.sweptRow (s : State) (st p : Nat) (rx : Bool) (w : SweptRow) (start : Bool := false) : State :=
  let key := rowKey st p rx
  let old := s.row st p rx
  let r := old.swept key w start
  let s := s.modRow st p rx fun _ => r
  let s := if (r.badOf key).length > (old.badOf key).length ∧ !r.lost then s.calEvent 6 st else s
  (if (r.lost && !old.lost) || (r.outside && !old.outside) then
    s.post (plPage (stPlinth st) 0x10) 2 0x66 (stLocal st) (p + 4 * b2n rx) else s).managed

/-- Failed links of a port row train again when its sweep ends (R226, R250). -/
def State.trainRow (s : State) (st p : Nat) (up : Bool) : State :=
  (peers st).foldl (fun s o =>
    let failed := (s.link st o p).st == some 3
    if up then (if failed then (s.trainLink st o p).trainLink o st p else s)
    else if isSextant o || failed then s else s.failPair st o p) s

/-- SWEEP_DONE (R250 to R254): new codes, offset and ring states are in force and the links train. -/
def execSweepDone (st : Fin 48) (p : Fin 4) (r : Sweep) (s : State) : Host.Outcome State Fault Refusal :=
  match s.sweepOf st p 2 with
  | none => .next s
  | some w =>
    match s.waitUntil (lget 0 s.optics.hold (stSide st)) with
    | none => .next s
    | some s =>
      let s := (s.sweptRow st p false r.tx).sweptRow st p true r.rx
      let s := (s.calEvent 3 st).trainRow st p r.linksUp
      .next ((s.setSweep w 3).settleAll)

/-- RECAL written (R253). -/
def State.recalOp (s : State) (e : Nat) (v : Word) : WR :=
  match formCheck (locFields (Loc.plRecal e)) v with
  | some c => .error c
  | none =>
    let sel := s.get (Loc.plRowSel e)
    let k := sel.bits 4 0
    let st := if e = 0 then k else 47 - k
    let p := sel.bits 9 8
    if !v.bit 0 then .ok s
    else if s.optics.sweeps.any fun w => w.st == st && w.plane == p && (w.phase == 1 || w.phase == 2) then .error 6
    else .ok (s.wantRescue st p)

/-- RECAL_GO: RECAL is written with GO = 1. -/
def execRecalGo (f : Func) (e : Side) (v : Word) (s : State) : Host.Outcome State Fault Refusal :=
  let v := v.put 0 0 1
  .next (s.write f (Loc.plRecal (sideNat e)) v fun s => s.recalOp (sideNat e) v)

/-! ### The thermal map (R257) -/

/-- A row's published change in 1/64 °C: the mean of its 64 frames times 0.0625 GHz over its slope; nothing when out. -/
def State.rowDelta (s : State) (st p : Nat) (rx : Bool) : Option Int :=
  let r := s.row st p rx
  if r.gap || isSextant st then none
  else some (-(r.sum * 40) / (64 * (Config.fuseSlope (rowKey st p rx)).toNat : Int))

/-- The map of one plinth written to its page. -/
def State.publishMap (s : State) (e : Nat) : State :=
  let st (k : Nat) : Nat := if e = 0 then k else 47 - k
  let val (k i : Nat) : Option Int := s.rowDelta (st k) (i % 4) (i ≥ 4)
  let word (x : Option Int) : Nat := match x with | some v => wrapNat 16 v | none => 0x8000
  let s := (List.range 96).foldl (fun s w =>
    let k := w / 4
    let i := 2 * (w % 4)
    s.put (Loc.plTmap e w) (BitVec.ofNat 32 (word (val k i) + 65536 * word (val k (i + 1))))) s
  let vals := (List.range 192).filterMap fun w => val (w / 8) (w % 8)
  let mean : Int := if vals.isEmpty then 0 else vals.sum / (vals.length : Int)
  let diode := sext 16 (s.fld Loc.glTsVal 15 0 (24 + e))
  s.setFld (Loc.plTmapOfs e) 15 0 (wrapNat 16 (diode - mean))

/-- THERMAL_MAP_PUBLISH (R257): every 64 ticks. -/
def execThermalMapPublish (s : State) : Host.Outcome State Fault Refusal :=
  if !s.optics.mapDue then .next s else
  let s := (s.publishMap 0).publishMap 1
  .next (s.modOptics fun o =>
    { o with mapDue := false, rows := o.rows.filterMap fun e =>
        let r : Row := { e.2 with sum := 0, gap := false }
        if r = {} then none else some (e.1, r) })

/-! ### What a tick does (R233 to R249, R259) -/

/-- The ratio of two numbers is at most 10 to the power of `i` - 512. -/
def marginFits (a b i : Nat) : Bool := decide (a * 10 ^ (512 - i) ≤ b * 10 ^ (i - 512))

/-- 100 log10 of x / y, rounded up to a whole number, from -512 to 511: a frame margin in 0.1 dB (R233). -/
def margin10 (x y : Nat) : Int :=
  (((List.range 1023).find? (marginFits (x ^ 100) (y ^ 100))).getD 1023 : Nat) + (-512 : Int)

/-- A link is masked, so that it does not qualify (R233). A mask that only a lost line holds does not count: its lines are judged
on, and the masks clear by R239 (DEDUCED, log entry 193). -/
def State.disqualified (s : State) (a b p : Nat) : Bool :=
  (s.pairMask a b).testBit p && (s.maskedElse a b p || !s.lineMasked a b)

/-- Amplitude ratios, in 1/65,536, of the links that qualify for a line of a side (R233). -/
def State.qualify (s : State) (e l : Nat) (levels : List LinkLevels) : List Nat :=
  levels.filterMap fun a =>
    let x := a.src.val
    let y := a.dst.val
    let p := a.plane.val
    let nom := tget 0 s.optics.anom (linkKey x y p)
    if stSide x = e ∧ x ≠ y ∧ lineNo x y = l ∧ nom ≠ 0 ∧ s.linkSt x y p = 2 ∧ !s.disqualified x y p ∧
        !s.rowOut x p ∧ !s.rowOut y p then some (levelAmp a * 65536 / nom) else none

/-- One line judged at the end of a frame (R233, R234, R239). -/
def State.judgeLine (s : State) (e l : Nat) (levels : List LinkLevels) : State :=
  let q := s.qualify e l levels
  if q.length < 8 then (if q.isEmpty ∧ (s.lineSt e l).links = 0 then s else s.modLine e l fun x => { x with links := q.length })
  else
  let th := s.get Loc.lnLnThresh
  let m := margin10 q.sum (65536 * q.length)
  let x := s.lineSt e l
  let hist := (x.hist ++ [m]).drop (x.hist.length + 1 - 64)
  let low := if m ≤ -(th.bits 15 8 : Int) then x.low + 1 else 0
  let high := if m ≤ -(th.bits 15 8 : Int) then 0 else x.high + 1
  let loss := decide (m ≤ -(th.bits 23 16 : Int))
  let adv := decide (hist.sum ≤ -((th.bits 7 0 * hist.length : Nat) : Int))
  let clear := (x.masked || x.lossDue) && decide (high ≥ 4)
  let st := if loss || ((x.masked || x.lossDue) && !clear) then 3 else if low ≥ 4 then 2 else if adv then 1 else 0
  let s := s.modLine e l fun x =>
    { x with
      links := q.length
      margin := m
      hist := hist
      low := low
      high := high
      st := st
      advised := adv
      lossDue := x.lossDue || (loss && !x.masked)
      clearDue := clear }
  let s := if adv && !x.advised then (s.bump 0xD00 4 e).post 0xD00 0 0x70 e l else s
  if loss && x.st != 3 then s.bump 0xD00 5 e else s

/-- A line that asks for a swap of its side (R234, R235). -/
def State.swapLineOf (s : State) (e : Nat) : Option Nat :=
  (List.range 48).find? fun l =>
    let x := s.lineSt e l
    decide (x.low ≥ 4) || x.lossDue

/-- Swap conditions met in the frame: L2 goes to East before West (R235, R236). -/
def State.decideSwap (s : State) : State :=
  if s.holder.isNone || !s.flag Loc.lnLnCtl 0 || !s.spareReady then s else
  match (List.range 2).find? fun e => s.lit e && (s.swapLineOf e).isSome with
  | none => s
  | some e =>
    let l := (s.swapLineOf e).getD 0
    (s.setFlag Loc.lnLnSts 11 true).modOptics fun o => { o with swapTo := some e, swapLine := l, settled := false }

/-- A swap that L2 can no longer make is given up, and its selector returns to dump (R232, R235; DESIGN CHOICE, log entry
194). -/
def State.dropSwap (s : State) : State :=
  ((s.setFld Loc.lnLnSts 10 9 0).setFlag Loc.lnLnSts 11 true).modOptics fun o =>
    { o with swapTo := none, settled := false, swapNow := false }

/-- The swap latched at the cutoff (R236). -/
def State.swapTick (s : State) : State :=
  match s.optics.swapTo with
  | none => s
  | some e =>
    if s.bay 2 ≠ 2 then s.dropSwap
    else if !s.optics.swapNow then s else
    let l := s.optics.swapLine
    let s := (s.swapSide e).addWrap Loc.lnLnSwaps 15 0 1
    (s.bump 0xD00 2 e).post 0xD00 0 0x71 e l

/-- The side that returns to its primary at a tick (R241, Table LN-6): its primary is locked, and L2 serves it no more, or the return
command has come, or the primary has become locked again with AUTO_RETURN = 1. -/
def State.returning (s : State) : Option Nat :=
  s.heldSide.filter fun e =>
    (s.bay e == 2 || s.bay e == 5) && (s.bay 2 != 3 || s.optics.ret || (s.flag Loc.lnLnCtl 1 && s.bay e == 2))

/-- A side whose switch stands at L2 returns to its primary (R241, Table LN-6). -/
def State.returnTick (s : State) : State :=
  match s.returning with
  | none => s
  | some e =>
    let serving := s.bay 2 == 3
    let s := (s.setBay e 3).setFld Loc.lnLnSts 10 9 0
    let s := if serving then s.setBay 2 2 else s
    let s := (s.modOptics fun o => { o with ret := false }).sideMoved e
    let s := s.markDark.addWrap Loc.lnLnSwaps 15 0 1
    (s.bump 0xD00 2 e).post 0xD00 0 0x71 e 0

/-- Pairs of a line masked or cleared on all planes, in both directions (R239). -/
def State.lineMasks (s : State) (e l : Nat) : State :=
  let x := s.lineSt e l
  let pairs := ((List.range 48).filter fun a => stSide a == e && !isSextant a).map fun a => (a, (a + l) % 48)
  if x.clearDue ∧ (x.masked ∨ x.lossDue) then
    let s := s.modLine e l fun x => { x with masked := false, lossDue := false, clearDue := false, st := if x.st = 3 then 0 else x.st }
    pairs.foldl (fun s q => (List.range 4).foldl (fun s p => s.unmaskBoth q.1 q.2 p) s) s
  else if x.lossDue then
    let s := s.modLine e l fun x => { x with masked := true, lossDue := false }
    let s := pairs.foldl (fun s q => (List.range 4).foldl (fun s p => s.maskBoth q.1 q.2 p) s) s
    s.post 0xD00 2 0x72 e l
  else s

/-- Ticks since a swap; at the 64th the nominal amplitudes are recorded anew (R233). -/
def State.anomTick (s : State) : State :=
  s.modOptics fun o =>
    { o with
      sinceSwap := o.sinceSwap.map fun n => if n = 0 ∨ n ≥ 65 then 0 else n + 1
      anomDue := (List.range 2).map fun e => lget false o.anomDue e || lget 0 o.sinceSwap e == 64 }

/-- A rescue may run: RESCUE_EN = 1, or its row has a new seam lane (R226, R253). -/
def State.rescueRuns (s : State) (r : Rescue) : Bool := r.seam || s.flag (Loc.plCalCtl 0) 9

/-- The rescue that a plane's reference receiver takes next: the station with the fewest rows in service (R253). -/
def State.nextRescue (s : State) (p : Nat) : Option Rescue :=
  let inService (st : Nat) : Nat := ((List.range 4).filter fun q => !s.rowOut st q).length
  (s.optics.rescue.filter fun r => r.plane == p && s.rescueRuns r).foldl (fun (b : Option Rescue) r =>
    match b with
    | none => some r
    | some x => if inService r.st < inService x.st then some r else b) none

/-- Rows that wait for a rescue are masked while they wait (R253). -/
def State.maskRescues (s : State) : State :=
  let s := (s.optics.rescue.filter fun r => s.rescueRuns r && !r.masked).foldl (fun s r => s.maskSwept r.st r.plane) s
  s.modOptics fun o => { o with rescue := o.rescue.map fun r => { r with masked := r.masked || s.rescueRuns r } }

/-- A plane's reference receiver takes the next rescue, else the row of the rotation that waits for it (R250, R252, R253). A row
of the rotation that a rescue sweeps is not swept twice. -/
def State.startSweep (s : State) (p : Nat) : State :=
  let now := s.clk.elapsed
  if s.optics.sweeps.any fun w => w.plane == p && w.phase != 0 then s else
  match s.nextRescue p with
  | some r =>
    let w : Sweeping := { st := r.st, plane := p, phase := 1, rescue := true, since := now }
    let s := s.modOptics fun o =>
      { o with
        rescue := o.rescue.filter fun x => !(x.st == r.st && x.plane == p)
        sweeps := (o.sweeps.filter fun x => !(x.st == r.st && x.plane == p)) ++ [w] }
    (s.maskSwept r.st p).calEvent 4 r.st
  | none =>
    match s.optics.sweeps.find? fun w => w.plane == p && w.phase == 0 with
    | some w =>
      let s := s.modOptics fun o => { o with sweeps := o.sweeps.map fun x =>
        if x.st = w.st ∧ x.plane = w.plane then { x with phase := 1, since := now } else x }
      s.maskSwept w.st p
    | none => s

/-- Masks of swept rows clear at the first tick after their links are up; free receivers take the next rows (R250, R253). -/
def State.sweepTick (s : State) : State :=
  if s.holder.isNone then s else
  let done := s.optics.sweeps.filter fun w => w.phase == 3
  let s := s.modOptics fun o => { o with sweeps := o.sweeps.filter fun w => w.phase != 3 }
  let s := (done.foldl (fun s w => s.unmaskRow w.st w.plane) s).maskRescues
  (List.range 4).foldl (fun s p => s.startSweep p) s

/-- The rows of the device: station, plane, receive row. -/
def rowOfKey (k : Nat) : Nat × Nat × Bool := (k / 8, k % 4, k / 4 % 2 == 1)

/-- The frame of the thermal map: every row adds its residual, and a row that is out is marked (R257). -/
def State.mapTick (s : State) : State :=
  let rows := (List.range 384).foldl (fun (t : Tab Row) k =>
    let x := rowOfKey k
    let r := tget {} t k
    let out := s.rowOut x.1 x.2.1 || s.stationOut x.1
    tset {} t k { r with sum := r.sum + r.resid - 1600 * r.shift k, gap := r.gap || out }) s.optics.rows
  let n := s.optics.mapTicks + 1
  s.modOptics fun o => { o with rows := rows, mapTicks := n % 64, mapDue := o.mapDue || n == 64 }

/-- Everything that a tick does to lanterns, lines and rows. -/
def State.opticsTick (s : State) (o : FrameObs) : State :=
  let s := (s.anomTick.swapTick).returnTick
  let s := (List.range 96).foldl (fun s k => s.lineMasks (k / 48) (k % 48)) s
  let s := ((s.windowTick).trackTick o).sweepTick
  let s := (List.range 96).foldl (fun s k => s.judgeLine (k / 48) (k % 48) o.levels) s
  s.decideSwap.mapTick

/-- The swap that the coming tick makes is latched at the cutoff (R26, R236). -/
def State.opticsCutoff (s : State) : State := s.modOptics fun o => { o with swapNow := o.swapTo.isSome && o.settled }

/-- A side whose plinth still serves has been dark for longer than LOCK_LOSS_US, without a lantern that could serve it
(R240). -/
def State.darkSide (s : State) : Option Nat :=
  (List.range 2).find? fun e =>
    let t := lget 0 s.optics.dark e
    !s.lit e && (s.plinth e).out != 2 && !s.flag Loc.glFaultSts 0 && t != 0 && !s.spareReady && s.optics.swapTo.isNone &&
      decide (t - 1 + 1000 * s.fld (Loc.plPlCtl e) 19 12 ≤ s.clk.elapsed)

end Sys2Proof.Machine
end

