-- ==== Sys2Proof/Machine/Sram.lean ====
section
/-! DEFINITION. Commands of the stacked SRAM and the spire stack (R126 to R156). -/

namespace Sys2Proof.Machine

/-- MERGE_AGE_EVICT (R135): the entry of a code word that has gone 256 cycles without a merge is evicted. -/
def execMergeAgeEvict (n : Fin 16) (c : Fin 64) (row : Nat) (cw : Fin 8) (s : State) : Host.Outcome State Fault Refusal :=
  match (s.cell n c).mergeOf (row * 8 + cw) with
  | none => .next s
  | some e =>
    match s.waitCycles (2 * n + c / 32) (e.last + inCycles 256) with
    | some t => .next (t.evict n c e)
    | none => .next s

/-- SRAM_CTL written (R135): DRAIN = 1 evicts every entry. -/
def State.sramCtlOp (s : State) (n : Nat) (v : Word) : WR :=
  match formCheck (locFields (Loc.spSramCtl n)) v with
  | some c => .error c
  | none => .ok (if v.bit 0 then s.drainSpire n else s)

/-- SRAM_DRAIN: SRAM_CTL is written with DRAIN = 1. -/
def execSramDrain (f : Func) (n : Fin 16) (v : Word) (s : State) : Host.Outcome State Fault Refusal :=
  let v := v.put 0 0 1
  .next (s.write f (Loc.spSramCtl n) v fun s => s.sramCtlOp n v)

/-- REMAP of a spire written (R142, R143, Table SM-5). -/
def State.spRemapOp (s : State) (n : Nat) (v : Word) : WR :=
  match formCheck (locFields (Loc.spRemap n)) v with
  | some c => .error c
  | none =>
    if s.flag (Loc.spRemapSts n) 0 then .error 6 else
    let s := s.put (Loc.spRemap n) (v.put 31 31 0)
    .ok (if v.bit 31 then s.startRemap n (v.bits 5 0) (v.bits 21 6) else s)

/-- SRAM_REMAP: REMAP is written with GO = 1. -/
def execSramRemap (f : Func) (n : Fin 16) (v : Word) (s : State) : Host.Outcome State Fault Refusal :=
  let v := v.put 31 31 1
  .next (s.write f (Loc.spRemap n) v fun s => s.spRemapOp n v)

/-- The copier reads the old row's code words, corrected, for the spare: what it delivers where that is not what the old row
holds, and whether every word could be read (R142, R143). -/
def State.copyRow (s : State) (n cell row : Nat) : State × List (Nat × List Byte) × Bool :=
  (List.range 8).foldl (fun r k =>
    let q := r.1.cwRead n cell (row * 8 + k) false
    match q.2 with
    | some b => (q.1, (if b = (s.spire n).cwBytes cell (row * 8 + k) then r.2.1 else r.2.1 ++ [(k, b)]), r.2.2)
    | none => (q.1, r.2.1, false)) (s, [], true)

/-- A remap ends without change: an uncorrectable code word (R143). -/
def State.abandonRemap (s : State) (n cell row : Nat) : State :=
  let s := (s.modSpire n fun sp => { sp with mirror := none }).setFld (Loc.spRemapSts n) 0 0 0
  ((s.setFlag (Loc.spRemapSts n) 3 true).post (spPage n 6) 1 0x33 cell row).askRemap n

/-- SRAM_REMAP_COPY_DONE (R142, R143): the copy of the mirrored row has finished; the switch waits for the tick. -/
def execSramRemapCopyDone (n : Fin 16) (s : State) : Host.Outcome State Fault Refusal :=
  match (s.spire n).mirror with
  | none => .next s
  | some m =>
    if m.copied then .next s else
    let r := s.copyRow n m.cell m.row
    if r.2.2 then
      .next (r.1.modSpire n fun sp => { sp with mirror := some { m with copied := true, data := r.2.1, flips := [] } })
    else .next (r.1.abandonRemap n m.cell m.row)

/-- The wells with a row in the spare that a mirror has filled: what the copier and later writes left there (R142). -/
def Spire.switchRow (sp : Spire) (m : Mirror) (spare : Nat) : Spire :=
  { sp with
    mirror := none
    fieldMap := tset 0 sp.fieldMap (m.cell * 49152 + m.row) (spare + 1)
    rowCe := tset 0 sp.rowCe (m.cell * 49152 + m.row) 0
    well := m.data.foldl (fun t e => tputs 0 t (m.cell * wellSize + (m.row * 8 + e.1) * 32) e.2) sp.well
    flips := (List.range 8).foldl (fun t k =>
      tset 0 t (cwKey m.cell (m.row * 8 + k)) (tget 0 m.flips k)) sp.flips }

/-- At a tick, a copied mirror becomes the row's new place (R142). -/
def State.remapTick (s : State) (n : Nat) : State :=
  match (s.spire n).mirror with
  | none => s
  | some m =>
    if !m.copied then s else
    let used := s.usedSpares n m.cell m.row
    let s := s.addSat (Loc.spBankSpare n) 11 8 1 (bankIdx m.cell m.row)
    let s := s.setFld (Loc.spRemapSts n) 1 0 2
    let s := s.bump (spPage n 6) 8 m.cell 1 (s.spireOwner n)
    (s.modSpire n fun sp => sp.switchRow m used).askRemap n

/-- FLIP_SEL of a spire written (R144, R145): arming while armed is rejected; ARM = 0 disarms. -/
def State.spFlipSelOp (s : State) (n : Nat) (v : Word) : WR :=
  match formCheck (locFields (Loc.spFlipSel n)) v with
  | some c => .error c
  | none => if s.flag (Loc.spFlipSel n) 16 && v.bit 16 then .error 6 else .ok (s.put (Loc.spFlipSel n) v)

/-- FLIP_D or FLIP_C of a spire written: rejected while a mask is armed (R145). -/
def State.spFlipDataOp (s : State) (n : Nat) (loc : Loc) (v : Word) : WR :=
  match formCheck (locFields loc) v with
  | some c => .error c
  | none => if s.flag (Loc.spFlipSel n) 16 then .error 6 else .ok (s.put loc v)

/-- FLIP_ARM: FLIP_SEL is written with ARM = 1. -/
def execFlipArm (f : Func) (n : Fin 16) (v : Word) (s : State) : Host.Outcome State Fault Refusal :=
  let v := v.put 16 16 1
  .next (s.write f (Loc.spFlipSel n) v fun s => s.spFlipSelOp n v)

/-- FLIP_DISARM: FLIP_SEL is written with ARM = 0. -/
def execFlipDisarm (f : Func) (n : Fin 16) (v : Word) (s : State) : Host.Outcome State Fault Refusal :=
  let v := v.put 16 16 0
  .next (s.write f (Loc.spFlipSel n) v fun s => s.spFlipSelOp n v)

/-- Selection of a bond group in BOND_GRP. -/
def bondIdx (c g : Nat) : Nat := c + 64 * g

/-- Lanes of a group: 68 of data, 48 of address, command and clock, 32 of power and ground (Table SM-3). -/
def groupLanes (g : Nat) : Nat := if g < 32 then 68 else if g < 34 then 48 else 32

/-- A lane of a group that has no spare left fails (R150). A command or power group, or a second lane that carries another
symbol of the same code word, takes the cell out at the tick. -/
def State.bondNoSpare (s : State) (n c g lane : Nat) : State :=
  let takeOut (s : State) : State :=
    s.modSpire n fun sp => { sp with bondOut := if sp.bondOut.contains c then sp.bondOut else sp.bondOut ++ [c] }
  if 32 ≤ g then takeOut s else
  let covered := (s.spire n).bondCov.filter fun e => decide (e.1 = c ∧ bondWord e.2.1 = bondWord g)
  let s := s.modSpire n fun sp => { sp with bondCov := sp.bondCov ++ [(c, g, lane)] }
  if covered.isEmpty then
    let s := s.setFlag (Loc.spBondGrp n) 3 true (bondIdx c g)
    let s := s.setFlag (Loc.spBondSts n) 2 true
    s.post (spPage n 7) 2 0x36 c g
  else if covered.all fun e => laneBit e.2.1 e.2.2 / 4 == laneBit g lane / 4 then s
  else takeOut s

/-- Lanes of a group that wait for the tick to be replaced. -/
def State.bondWaiting (s : State) (n c g : Nat) : Nat :=
  ((s.spire n).bondPend.filter fun e => e.1 == c && e.2.1 == g).length

/-- A lane fails the in-service self-test (R149, R150). -/
def State.bondLaneFail (s : State) (n c g lane : Nat) : State :=
  let i := bondIdx c g
  let s := s.addSat (Loc.spBondGrp n) 15 8 1 i
  let s := s.bump (spPage n 7) 3 c 1 (s.spireOwner n)
  if s.bondWaiting n c g < s.fld (Loc.spBondGrp n) 2 0 i then
    s.modSpire n fun sp => { sp with bondPend := sp.bondPend ++ [(c, g, lane)] }
  else s.bondNoSpare n c g lane

/-- A group of a well has been tested; the rotation is complete with the 37th, and the next begins (R148). -/
def Cell.bondTested (x : Cell) (g now : Nat) : Cell :=
  let m := x.rotDone ||| 2 ^ g
  if m = 2 ^ 37 - 1 then { x with rotDone := 0, rotAt := now, rotLate := false } else { x with rotDone := m }

/-- The self-test of a group has ended, with the lanes newly found failed. -/
def State.bondTest (s : State) (n c g : Nat) (lanes : List Nat) : State :=
  let now := s.clk.elapsed
  let s := s.modCell n c fun x => x.bondTested g now
  (lanes.filter (· < groupLanes g)).foldl (fun s l => s.bondLaneFail n c g l) s

/-- BOND_SELF_TEST (R148 to R150): a group's test ends; `lanes` are those newly found failed. -/
def execBondSelfTest (n : Fin 16) (c : Fin 64) (g : Fin 37) (lanes : List (Fin 68)) (s : State) :
    Host.Outcome State Fault Refusal :=
  if !s.flag (Loc.spBondCtl n) 8 || (s.spire n).out != 0 then .next s
  else .next (s.bondTest n c g (lanes.map (·.val)))

/-- At a tick, failed lanes are replaced by spares of their groups (R149). -/
def State.bondTick (s : State) (n : Nat) : State :=
  let l := (s.spire n).bondPend
  let s := s.modSpire n fun sp => { sp with bondPend := [] }
  l.foldl (fun s e =>
    let i := bondIdx e.1 e.2.1
    let left := s.fld (Loc.spBondGrp n) 2 0 i - 1
    let s := s.setFld (Loc.spBondGrp n) 2 0 left i
    let s := s.setFld (Loc.spBondSts n) 10 8 (min left (s.fld (Loc.spBondSts n) 10 8))
    let s := s.post (spPage n 7) 0 0x35 e.1 e.2.1
    s.bump (spPage n 7) 2 e.1 1 (s.spireOwner n)) s

/-- BOND_CTL written: with EN set anew, every well begins a rotation (R148). -/
def State.bondCtlOp (s : State) (n : Nat) (v : Word) : WR :=
  match formCheck (locFields (Loc.spBondCtl n)) v with
  | some c => .error c
  | none =>
    let now := s.clk.elapsed
    let fresh := v.bit 8 && !s.flag (Loc.spBondCtl n) 8
    let s := s.put (Loc.spBondCtl n) v
    .ok (if fresh then s.modSpire n fun sp =>
        { sp with cells := sp.cells.map fun c => { c with rotAt := now, rotDone := 0, rotLate := false } } else s)

/-- Four rotation periods of a spire in ns (R148): PERIOD is in units of 0.1 s. -/
def State.rotLimit (s : State) (n : Nat) : Nat := 4 * s.fld (Loc.spBondCtl n) 7 0 * 100000000

/-- A well's rotation is overdue: shown and logged, once for the rotation. -/
def State.rotOverdue (s : State) (n c : Nat) : State :=
  let s := s.modCell n c fun x => { x with rotLate := true }
  (s.setFlag (Loc.spBondSts n) 1 true).post (spPage n 7) 0 0x37 c 0

/-- BOND_ROTATION_OVERDUE (R148): a well has not finished its rotation within four periods. -/
def execBondRotationOverdue (n : Fin 16) (c : Fin 64) (s : State) : Host.Outcome State Fault Refusal :=
  if !s.flag (Loc.spBondCtl n) 8 || (s.spire n).out != 0 || (s.cell n c).rotLate then .next s else
  match s.waitUntil ((s.cell n c).rotAt + s.rotLimit n) with
  | none => .next s
  | some t => .next (t.rotOverdue n c)

/-- Grants and conflicts of the wells' ports in the frame are counted (R128, R129, R156), and upsets of scratch bits are
stored. -/
def State.wellTick (s : State) (conflicts grants : List (Fin 16 × Fin 64 × Nat))
    (upsets : List (Fin 16 × Fin 64 × Fin 32768 × Nat)) : State :=
  let s := conflicts.foldl (fun s e => s.bump (spPage e.1 6) 6 e.2.1 e.2.2 (s.spireOwner e.1)) s
  let s := grants.foldl (fun s e => s.bump (spPage e.1 6) 7 e.2.1 e.2.2 (s.spireOwner e.1)) s
  upsets.foldl (fun s e => s.modSpire e.1 fun sp =>
    let k := scrKey e.2.1 e.2.2.1
    { sp with scrFlips := tset 0 sp.scrFlips k (tget 0 sp.scrFlips k ^^^ e.2.2.2 % 2 ^ 272) }) s

/-- The greatest k of 1 to 16 that satisfies a bound, else 1. -/
def bestDuty (ok : Nat → Bool) : Nat :=
  match ((List.range 16).map fun i => 16 - i).find? ok with
  | some k => k
  | none => 1

/-- Duties of array and wells of a region whose dynamic power, scaled, must not exceed its share (R152). -/
def govDuties (prio : Nat) (fits : Nat → Nat → Bool) : Nat × Nat :=
  match prio with
  | 1 => if fits 1 16 then (bestDuty fun k => fits k 16, 16) else (1, bestDuty fun k => fits 1 k)
  | 2 => if fits 16 1 then (16, bestDuty fun k => fits 16 k) else (bestDuty fun k => fits k 1, 1)
  | _ => let k := bestDuty fun k => fits k k; (k, k)

/-- Power of a region under duties, scaled by 16 * 112 * 1024 so that no share is rounded (R151). -/
def State.govScaled (s : State) (n : Nat) (a : Activity) (r ka kw : Nat) : Nat :=
  (55 * a.arr * ka + 30 * a.well * kw + 16 * (12 * a.vec + 5 * a.rel)) * s.fld Loc.glRegSts 7 0 (2 * n + r) * (s.spire n).gov.corr

/-- The spire's budget in the same scale (R152). -/
def State.govBudget (s : State) (n : Nat) : Nat :=
  if s.fld (Loc.spStackLimit n) 9 0 ≤ 38 then 0
  else (25 * s.fld (Loc.spStackLimit n) 9 0 - 970) * 1000 * (16 * 112 * 1024)

/-- Duties of both regions for a window, from the activity of the window before (R152, R153). -/
def State.governorWindow (s : State) (n : Nat) (north south : Activity) : State :=
  let freq (r : Nat) := s.fld Loc.glRegSts 7 0 (2 * n + r)
  let pw := s.govScaled n
  let dn := pw north 0 16 16
  let ds := pw south 1 16 16
  let budget := s.govBudget n
  let prio := s.fld (Loc.spGovCtl n) 1 0
  let fits (a : Activity) (r d : Nat) (ka kw : Nat) : Bool := decide (pw a r ka kw * (dn + ds) ≤ budget * d)
  let free := decide (dn + ds ≤ budget)
  let kn := if free then (16, 16) else govDuties prio (fits north 0 dn)
  let ks := if free then (16, 16) else govDuties prio (fits south 1 ds)
  let vec (a : Activity) (r d : Nat) (k : Nat × Nat) := if !free && k == (1, 1) && !fits a r d 1 1 then 1 else 16
  let s := s.put (Loc.spGovSts n) (BitVec.ofNat 32 (kn.1 + 256 * kn.2 + 65536 * ks.1 + 16777216 * ks.2))
  let s := s.modSpire n fun sp =>
    { sp with gov := { sp.gov with vecN := vec north 0 dn kn, vecS := vec south 1 ds ks, winAt := some s.clk.elapsed } }
  let o := s.spireOwner n
  -- 100 ns of a region are 5 N / 4 cycles; a unit under duty k of 16 stalls in the others
  let stall (r act k : Nat) := if act = 0 then 0 else 5 * freq r * (16 - k) / 64
  let ev (s : State) (code r amt : Nat) := if amt = 0 then s else s.bump (spPage n 8) code r amt o
  let s := ev s 2 0 (stall 0 north.arr kn.1)
  let s := ev s 3 0 (stall 0 north.well kn.2)
  let s := ev s 2 1 (stall 1 south.arr ks.1)
  ev s 3 1 (stall 1 south.well ks.2)

/-- GOVERNOR_WINDOW (R152): every 100 ns. -/
def execGovernorWindow (n : Fin 16) (north south : Activity) (s : State) : Host.Outcome State Fault Refusal :=
  if (s.spire n).out != 0 then .next s else
  match s.waitUntil (s.nextOf (s.spire n).gov.winAt 100) with
  | none => .next s
  | some t => .next (t.governorWindow n north south)

/-- The measured power corrects the weights; by how much is left open. -/
def State.governorCorrect (s : State) (n measured : Nat) : State :=
  (s.setFld (Loc.spStackPwr n) 9 0 measured).modSpire n fun sp =>
    { sp with gov := { sp.gov with corr := Config.govCorrection measured sp.gov.corr, corrAt := some s.clk.elapsed } }

/-- GOVERNOR_CORRECTION (R151): every 10 µs. -/
def execGovernorCorrection (n : Fin 16) (measured : BitVec 10) (s : State) : Host.Outcome State Fault Refusal :=
  if (s.spire n).out != 0 then .next s else
  match s.waitUntil (s.nextOf (s.spire n).gov.corrAt 10000) with
  | none => .next s
  | some t => .next (t.governorCorrect n measured.toNat)

/-- The supply of a spire's SRAM is back (R141, R155, R406): wells, scratch and merge buffers are tested and zero, and the
spire returns. DESIGN CHOICE: the map is built anew when a cell in it fails the test, as R141 has it; otherwise it stands,
since R74 builds it only at a start or a reset (log entry 165). -/
def State.arrayBack (s : State) (n : Nat) (t : SpireTest) : State :=
  let s := (s.startTest n t).setFlag Loc.seSecSts (10 + n) false
  let s := s.modSpire n fun sp => { sp with scratch := [], scrFlips := [] }
  let bad := s.testedBad n t
  let kept := (s.spire n).out
  let s := if bad.any fun p => (s.logicalCell n p).isSome then s.buildMap n ((s.spire n).bad ++ bad) else
    (s.showTest n).modSpire n fun sp => { sp with out := 0 }
  if kept ≤ 1 then s else s.modSpire n fun sp => { sp with out := if sp.out = 0 then kept else sp.out }

/-- ARRAY_POWER_CYCLE_DONE (R155): the supply has been gone for at least 5 ms. -/
def execArrayPowerCycleDone (n : Fin 16) (t : SpireTest) (s : State) : Host.Outcome State Fault Refusal :=
  if !s.flag Loc.seSecSts (10 + n) then .next s else
  match s.waitUntil ((s.spire n).cycleAt + 5000000) with
  | none => .next s
  | some u => .next (u.arrayBack n t)

end Sys2Proof.Machine
end

