-- ==== Sys2Proof/Machine/Module.lean ====
section
/-! DEFINITION. What more than one block does to the whole module: mailboxes cleared, a belfry stops or takes over, a die
becomes fatal, halved mode, recovery, power fail, module and cold reset (R356 to R403, R445 to R450, R464). -/

namespace Sys2Proof.Machine

/-! ### Pins and vectors -/

/-- ALERT_N is asserted while a source holds it (R503). -/
def State.alert (s : State) : Bool :=
  (s.flag Loc.glThCtl 0 && (List.range 30).any fun i => s.fld Loc.glTsSts 3 0 i != 0) ||
    s.faults.log.any (fun r => r.e.cls == 3 && !r.ack) || s.flag Loc.glFaultSts 0 ||
    (s.fld Loc.glBootSts 3 0 == 2 && s.fld Loc.glBootSts 5 4 == 3)

/-- Step of Table PW-2 that brings a rail up; rails in the table's order. -/
def railStep (r : Nat) : Nat := if r ≤ 3 then 1 else if r ≤ 12 then 2 else if r ≤ 52 then 3 else 4

/-- A rail is up (R359): its step has come, a lantern's with its bay fitted; it has not failed, nor has a trip or an array
power cycle taken it away (R155, Table PW-5). -/
def State.railUp (s : State) (r : Nat) : Bool :=
  decide (railStep r ≤ s.power.rails) && !s.power.railFailed.contains r && (!decide (10 ≤ r ∧ r ≤ 12) || s.power.lnOn.contains (r - 10)) &&
    (!decide (53 ≤ r) || !s.power.tripped.contains ((r - 53) % 16)) && (!decide (69 ≤ r) || !s.flag Loc.seSecSts (10 + (r - 69)))

/-- PWRGD: high while the step 1 rails are good (Table HS-8). -/
def State.pwrgd (s : State) : Bool := s.power.closed && (List.range 4).all fun r => s.railUp r

/-- Steps 2, 3 and 4 of Table PW-2, brought up in that order by the active belfry after its boot ROM has run; the lantern
rails of step 2 in the bays that are fitted (R359). The model tells no moment within the 5 ms of each step. -/
def State.railsOn (s : State) : State :=
  let fitted := (List.range 3).filter fun b => s.fld Loc.lnLnSts (3 * b + 2) (3 * b) != 0
  { s with power := { s.power with rails := 4, lnOn := fitted } }

/-- TICK_OUT is high (R353). -/
def State.tickOutHigh (s : State) : Bool := decide (s.clk.elapsed < s.clk.tickOut)

def State.modMgmt (s : State) (f : Mgmt → Mgmt) : State := { s with mgmt := f s.mgmt }
def State.modPower (s : State) (f : Power → Power) : State := { s with power := f s.power }
def State.modSec (s : State) (f : Sec → Sec) : State := { s with sec := f s.sec }
def State.modFaults (s : State) (f : Faults → Faults) : State := { s with faults := f s.faults }

/-- BOOT_STS.STEP and STATE; a change fires vector 3 of the PF (Table HS-3). -/
def State.setBoot (s : State) (step st : Nat) : State :=
  let same := s.fld Loc.glBootSts 3 0 == step && s.fld Loc.glBootSts 5 4 == st
  let s := (s.setFld Loc.glBootSts 3 0 step).setFld Loc.glBootSts 5 4 st
  if same then s else s.irq 0 3

/-! ### Mailboxes (R460 to R464) -/

def State.mbox (s : State) (m : Nat) : Mbox := lget {} s.mboxes m
def State.modMbox (s : State) (m : Nat) (f : Mbox → Mbox) : State := { s with mboxes := lmod s.mboxes m f }

/-- UNIT of a mailbox in the records of Table HS-12. -/
def mboxUnit (m : Nat) : Nat := if m < 9 then m else 0x10 + (m - 9)

/-- A notice bit of MB_STS set: ABORTED, REJECTED and FLUSHED fire vector 2 of the PF or 1 of a VF, BELL vector 1 or 0. -/
def State.hostNotice (s : State) (m bit : Nat) : State :=
  let v := if bit = 0 then (if m = 0 then 1 else 0) else (if m = 0 then 2 else 1)
  if bit = 0 ∧ s.flag (Loc.mbMbSts m) 0 then s else (s.setFlag (Loc.mbMbSts m) bit true).irq m v

/-- A mailbox cleared in both directions; the end that was not reset gets the aborted notice (R464). -/
def State.abortMbox (s : State) (m scope : Nat) (atHost atBelfry : Bool) : State :=
  let s := s.modMbox m fun x =>
    { x with up := [], part := [], down := [], skip := 0, bellUp := false, bellDown := false, flushUp := false,
             flushDown := false, abortUp := x.abortUp || atBelfry, abortDown := x.abortDown || (atHost && decide (9 ≤ m)) }
  let s := if atHost && decide (m < 9) then s.hostNotice m 1 else s
  s.postGlobal 0 0xB5 (mboxUnit m) scope (some (if m < 9 then fnPart m else s.spireOwner (m - 9)))

/-- A belfry restart, fail-over or handover clears every mailbox (Table HS-5). -/
def State.abortAll (s : State) : State := (List.range 25).foldl (fun s m => s.abortMbox m 0 true false) s

/-! ### Dies that leave service -/

/-- What the fuses of a spire say, with nothing else. -/
def Spire.fused (sp : Spire) : Spire :=
  { fuseBad := sp.fuseBad, fuseRows := sp.fuseRows, fuseCols := sp.fuseCols, fuseLanes := sp.fuseLanes }

/-- A spire leaves service: its tasks retire with cause 0x06 (R92, R401, Table PW-5). -/
def State.spireDown (s : State) (n : Nat) : State :=
  (s.modSpire n fun sp => { sp with out := 2 }).spireTasksOut n

/-- The supply of a spire's SRAM is gone, and its contents (R155, Table PW-5). -/
def State.spireBlank (s : State) (n : Nat) : State :=
  s.modSpire n fun sp => { sp with
    well := [], scratch := [], flips := [], scrFlips := [], cells := sp.cells.map fun c => { c with merge := [], arr := {} } }

/-- An oculus has a fatal error: its ports fail, and on East the bypass moves through (Table PW-5, R294, R360). -/
def State.oculusFatal (s : State) (e cause : Nat) : State :=
  if (s.oculus e).out = 2 then s else
  let s := ((s.modOculus e fun o => { o with out := 2 }).portsOut e 0).stationsDown (fun a => stationOculus a == some e) 0x22
  let s := s.post (ocPage e 0) 3 0x83 0 cause
  if e = 0 then s.moveBypass true else s

/-! ### Recovery (R450) -/

/-- Records inserted in order of their first occurrence. -/
def byTime (r : LogRec) : List LogRec → List LogRec
  | [] => [r]
  | x :: l => if r.e.time < x.e.time then r :: x :: l else x :: byTime r l

/-- The last 16 records written to the non-volatile store; with those of the queues at a power fail (R358, R451). -/
def State.saveLog (s : State) (queues : Bool) : State :=
  let waiting := if queues then (s.faults.queues.flatMap fun q => q.2.map fun e => ({ e := e } : LogRec)) else []
  let l := s.faults.log ++ waiting.foldl (fun a r => byTime r a) []
  s.modFaults fun f => { f with saved := l.drop (l.length - 16) }

/-- The module enters recovery (R450). -/
def State.recovery (s : State) (cause : Nat) : State :=
  if s.flag Loc.glFaultSts 0 then s else
  let s := s.postGlobal 3 0x0E 0 cause
  let s := (s.setFlag Loc.glFaultSts 0 true).moveBypass true
  let s := (s.modFaults fun f => { f with recoveryAt := s.clk.elapsed }).modMgmt fun m => { m with failDue := true }
  s.saveLog false

/-! ### Belfries -/

def State.role (s : State) (e : Nat) : Nat := s.fld (Loc.bfBfSts e) 1 0
def State.setRole (s : State) (e r : Nat) : State := s.setFld (Loc.bfBfSts e) 1 0 r
def bfPage (e : Nat) : Nat := 0x100 + 0x40 * e

/-- The halved mode is on (R401). -/
def State.halved (s : State) : Bool := s.flag Loc.glMgmtSts 5

/-- A belfry stops in service; a stop of the holder in halved mode is fatal for the module (R360, R369, R401). -/
def State.belfryStop (s : State) (e cause : Nat) : State :=
  if s.role e = 0 then s else
  let was := s.role e
  let s := (s.setRole e 0).setFlag (Loc.bfBfSts e) 2 false
  let s := s.modBelfry e fun b => { b with handDue := false, handing := false, asked := none, refusal := false }
  if was ≠ 3 then s else
  let s := s.modMgmt fun m => { m with stoppedAt := some s.clk.elapsed }
  if s.halved then s.recovery cause else s

/-- Sweeps that run when the holder changes are abandoned; field remaps copy again (Table BF-7). -/
def State.restartWork (s : State) : State :=
  let s := s.modOptics fun o => { o with sweeps := o.sweeps.map fun w => if w.phase = 1 ∨ w.phase = 2 then { w with phase := 3 } else w }
  { s with
    spires := s.spires.map fun sp => { sp with mirror := sp.mirror.map fun m => { m with copied := false } }
    gates := s.gates.map fun g => { g with mirror := g.mirror.map fun m => { m with copied := false } } }

/-- The command that runs is lost: what it left for the next tick does not happen (Table SE-8). -/
def State.undoTick (s : State) : State :=
  match s.sec.run with
  | none => s
  | some r =>
    let key (k : PairKey) : PairKey :=
      if r.res ≠ 0 ∨ k.mgmt ≠ r.mgmt ∨ k.peer ≠ r.peer ∨ (!k.mgmt && k.tag != r.tag) then k
      else if r.cmd = 4 then { k with due := r.wasDue } else if r.cmd = 5 then { k with drop := false } else k
    { s with
      pairKeys := s.pairKeys.map fun e => (e.1, e.2.map key)
      sec := { s.sec with run := none, claimDone := false
                          endDue := if r.cmd = 6 then s.sec.endDue.filter (· != r.tag % 8) else s.sec.endDue } }

/-- A command of the security engine, and a report in progress, are lost with the holder (Table SE-8). -/
def State.engineLost (s : State) : State :=
  let s := if s.sec.run.isSome then
    (s.put Loc.seSeSts ((s.get Loc.seSeSts &&& 0xFFFFF004) ||| 0xF00)).undoTick else s
  s.setFlag Loc.seAttSts 16 false

/-- A belfry enters the holding state (R378, R381, Table BF-2). -/
def State.enterHold (s : State) (e : Nat) : State :=
  let o := 1 - e
  let s := (s.setRole e 3).setFlag (Loc.bfBfSts e) 2 false
  let s := (s.setFld (Loc.bfBfSts e) 31 16 0).setFld Loc.glHostSts 8 8 e
  let s := s.modBelfry e fun b => { b with asked := none, noPath := false, refusal := false, missed := 0, drove := some s.clk.elapsed, seenAt := s.clk.elapsed }
  let s := s.modBelfry o fun b => { b with handDue := false, handing := false, seenAt := s.clk.elapsed }
  s.modMgmt fun m => { m with logHeld := [], logWait := [], stoppedAt := none, kickAt := some s.clk.elapsed }

/-- A belfry takes over in service: counted, logged, mailboxes cleared, the engine's command lost (R378, R464). -/
def State.takeOver (s : State) (e : Nat) : State :=
  let s := (s.enterHold e).addSat (Loc.bfBfFailovers e) 15 0 1
  let lacked := s.mgmt.logHeld.length + s.mgmt.logWait.length
  let s := (s.bump (bfPage e) 2 0).post (bfPage e) 2 0xA0 0 0
  let s := if lacked = 0 then s else s.post (bfPage e) 2 0xA4 0 (s.get (Loc.bfHealth e 1)).toNat
  s.abortAll.restartWork.engineLost

/-! ### Halved mode (R400, R401) -/

/-- A plinth is to be fenced at the next tick. -/
def State.wantHalve (s : State) (e cause : Nat) : State :=
  if s.mgmt.halveDue.any (fun x => x.1 == e) || (s.plinth e).out == 2 then s
  else s.modMgmt fun m => { m with halveDue := m.halveDue ++ [(e, cause)] }

/-- A plinth is fenced with everything on it, and the device is halved. -/
def State.fencePlinth (s : State) (e cause : Nat) : State :=
  if (s.plinth e).out = 2 then s else
  if (s.plinth (1 - e)).out = 2 then s.recovery cause else
  let s := if s.role e = 3 then (s.setRole e 2).modMgmt fun m => { m with stoppedAt := some s.clk.elapsed } else s
  let s := (s.setFlag (Loc.bfBfSts e) 3 true).modBelfry e fun b => { b with handDue := false, handing := false, asked := none }
  let s := s.modPlinth e fun x => { x with out := 2, trained := false, seam := [] }
  let s := (List.range 8).foldl (fun s i => s.spireDown (8 * e + i)) s
  let s := (List.range 4).foldl (fun s i => s.gateOut (4 * e + i) 0x22) s
  let s := (s.portsOut e 0).modOculus e fun o => { o with out := 2 }
  let s := if e = 0 then (s.moveBypass true).westKeeps else s
  let s := s.setFld (Loc.plStationOut e) 23 0 0xFFFFFF
  let s := (List.range 24).foldl (fun s i => s.endReqs (24 * e + i) 0x22)
    ((s.oculusDetoursLost e).stationsDown (fun a => stPlinth a == e) 0x22)
  let s := (s.setFlag (Loc.plPlSts 0) 6 true).setFlag (Loc.plPlSts 1) 6 true
  (s.setFlag Loc.glMgmtSts 5 true).postGlobal 2 0x0D e cause

/-- Which plinth is fenced for a cause: the one without the holder when the seam is the cause (R400). -/
def State.halvedChoice (s : State) (x : Nat × Nat) : Nat :=
  if x.2 = 0x63 then (match s.holder with | some e => 1 - e | none => x.1) else x.1

/-- Halved mode entered at a tick. -/
def State.halveTick (s : State) : State :=
  let l := s.mgmt.halveDue
  l.foldl (fun s x => s.fencePlinth (s.halvedChoice x) x.2) (s.modMgmt fun m => { m with halveDue := [] })

/-! ### Start, module and cold reset, power fail (R358, R445, R474 to R478) -/

/-- MEM_CFG of a gatehouse: a cold or module reset keeps it, since its RATE takes effect there (R159; DESIGN CHOICE, log
entry 172). -/
def isMemCfg (loc : Loc) : Bool := (List.range 8).any fun g => loc == Loc.gtMemCfg g

/-- Register words kept: START_CFG, FAB_ID and SB_CFG; the filtered inputs; what the standby supply measures; the lanterns
(Table FA-8, R481); MEM_CFG (R159); PWR_CFG, whose value a start with two sound converters puts into effect (R361). -/
def keptAtModule (loc : Loc) : Bool :=
  isMemCfg loc || loc == Loc.glPwrCfg ||
  loc == Loc.glStartCfg || loc == Loc.glFabId || loc == Loc.glSbCfg || loc == Loc.glSbSts || loc == Loc.glPwrSts ||
    loc == Loc.glVin || loc == Loc.glIin || loc == Loc.glPin || loc == Loc.glTsVal || loc == Loc.glTsRate ||
    loc == Loc.lnLnSts

/-- The part with nothing but what outlives every reset: the non-volatile store, the fuses, the pins. -/
def State.bare (s : State) : State :=
  { pending := s.pending, free := s.free, resp := s.resp, irqs := s.irqs, store := s.store, nextKey := s.nextKey
    clk := { elapsed := s.clk.elapsed }
    faults := { saved := s.faults.saved }
    start := { resetN := s.start.resetN, edgeAt := s.start.edgeAt }
    spires := s.spires.map Spire.fused
    optics := { lanterns := s.optics.lanterns }
    gates := s.gates.map fun g => { record := g.record } }

/-- Module reset: every die, with rails, locked lanterns and the non-volatile store kept (Table FA-8). -/
def State.moduleLose (s : State) : State :=
  let t := s.bare
  { t with
    power := { closed := s.power.closed, rails := s.power.rails, lnOn := s.power.lnOn, railFailed := s.power.railFailed
               samples := s.power.samples, readings := s.power.readings }
    optics := { dark := s.optics.dark, hold := s.optics.hold, lanterns := s.optics.lanterns }
    rf := s.rf.filter fun e => keptAtModule (e.1 / 1048576) }

/-- The filtered levels of the inputs outlive a loss of supply: they are the pins' (Table HS-10). So does the PWR_CFG that
software wrote before a converter failed (R361; DESIGN CHOICE: only then, log entry 243). -/
def State.keepPins (s t : State) : State :=
  let t := if s.flag Loc.glPwrSts 2 then t.put Loc.glPwrCfg (s.get Loc.glPwrCfg) else t
  (List.range 10).foldl (fun t i => t.put Loc.glSbSts (s.get Loc.glSbSts i &&& 3) i) t

/-- Committed images come into force (R418): kept under TYPE + 16 until then. -/
def Store.promote (x : Store) : Store :=
  { x with images := (List.range 4).foldl (fun (t : Tab (Tab Word)) i =>
      let n := tget [] t (i + 17)
      if n.isEmpty then t else tset [] (tset [] t (i + 1) n) (i + 17) []) x.images }

/-- Start-up begins at step 1 (R475): both belfries boot, the straps are read, design power is what two sound converters
allow (R361, R390). -/
def State.startUp (s : State) : State :=
  let s := { s with
    start := { s.start with since := s.clk.elapsed, stepAt := s.clk.elapsed, fabric := false }
    store := s.store.promote }
  let s := (List.range 3).foldl (fun s b => if s.flag Loc.glSbSts 1 (3 + b) ∧ s.bay b = 0 then s.setBay b 1 else s) s
  let s := (s.setBoot 1 0).setFld Loc.glBootSts 31 6 0
  let s := (s.setRole 0 1).setRole 1 1
  let s := s.setFlag Loc.glMgmtSts 3 (s.flag Loc.glSbSts 1 1)
  let sound := s.flag Loc.glPwrSts 0 && s.flag Loc.glPwrSts 1
  let s := (s.setFlag Loc.glPwrSts 2 (!sound)).setFlag Loc.glPwrSts 3 false
  let s := (List.range 30).foldl (fun s i => s.setFlag Loc.glTsVal 16 false i) s
  if sound then s else (List.range 16).foldl (fun s n => (s.setFld (Loc.spStackCap n) 9 0 64).setFld (Loc.spStackLimit n) 9 0 64) s

/-- A module reset, and the start that follows while RESET_N is high. -/
def State.moduleReset (s : State) : State :=
  let t := s.moduleLose
  if t.power.closed ∧ !t.start.resetN then t.startUp else t

/-- A cold reset: every rail but VSB is off for 100 ms, then those of step 1 come up and the start follows (Table FA-8). -/
def State.coldReset (s : State) : State :=
  let t := s.keepPins s.bare
  let t := (List.range 8).foldl (fun t g => t.put (Loc.gtMemCfg g) (s.get (Loc.gtMemCfg g))) t
  let t : State := { t with power := { closed := s.power.closed, rails := min 1 s.power.rails }, clk := { elapsed := s.clk.elapsed + 100000000 } }
  if t.power.closed ∧ !t.start.resetN then t.startUp else t

/-- The hot-swap opens: logged, the last 16 records saved by the active belfry, everything else lost (R358). -/
def State.powerFail (s : State) : State :=
  if !s.power.closed then s else
  let s := s.postGlobal 3 0x18 0 ((s.get Loc.glVin).toNat + 2 ^ 32 * (s.get Loc.glIin).toNat)
  let s := if s.holder.isSome then s.saveLog true else s
  s.keepPins s.bare

end Sys2Proof.Machine
end

