-- ==== Sys2Proof/Machine/Power.lean ====
section
/-! DEFINITION. Power and temperature (R356 to R375, R502): the input, rails and converters, the stack caps, the module
guard, the sensors and what their levels do. -/

namespace Sys2Proof.Machine

/-! ### The input and the rails (R356 to R361) -/

/-- INPUT_UNDERVOLTAGE (R356): once per crossing. -/
def execInputUndervoltage (s : State) : Host.Outcome State Fault Refusal :=
  if !s.power.closed || s.flag Loc.glPwrSts 4 then .next s
  else .next (((s.setFlag Loc.glPwrSts 4 true).setFlag Loc.glPwrSts 5 false).postGlobal 2 0x16 0 (s.get Loc.glVin).toNat)

/-- INPUT_OVERVOLTAGE_WARN (R356): once per crossing. -/
def execInputOvervoltageWarn (s : State) : Host.Outcome State Fault Refusal :=
  if !s.power.closed || s.flag Loc.glPwrSts 5 then .next s
  else .next (((s.setFlag Loc.glPwrSts 5 true).setFlag Loc.glPwrSts 4 false).postGlobal 0 0x17 0 (s.get Loc.glVin).toNat)

/-- INPUT_VOLTAGE_RETURN (R356): the input is back in 54.0 to 62.0 V. -/
def execInputVoltageReturn (s : State) : Host.Outcome State Fault Refusal := .next (s.setFld Loc.glPwrSts 5 4 0)

/-- INPUT_CURRENT_LIMIT (R357): the hot-swap opens; a power fail follows. -/
def execInputCurrentLimit (s : State) : Host.Outcome State Fault Refusal := .next s.powerFail

/-- POWER_FAIL (R358). -/
def execPowerFail (s : State) : Host.Outcome State Fault Refusal := .next s.powerFail

/-- A failed rail is logged (R360): fatal where the rule makes the die fatal. -/
def State.railLog (s : State) (rail mv : Nat) : State :=
  (s.postGlobal (if 4 ≤ rail ∧ rail ≤ 9 then 3 else 2) 0x14 rail mv).bump 6 5 0

/-- RAIL_FAIL (R360): rails in the order of Table PW-2; one that is not up cannot fail. -/
def execRailFail (rail : Fin 85) (mv : BitVec 32) (s : State) : Host.Outcome State Fault Refusal :=
  if !s.power.closed || !s.railUp rail then .next s else
  let r := rail.val
  let s := (s.railLog r mv.toNat).modPower fun p => { p with railFailed := p.railFailed ++ [r] }
  if r = 0 ∨ r = 3 then .next s.powerFail
  else if r ≤ 2 then .next (s.belfryStop (r - 1) 0x14)
  else if r ≤ 5 then .next (s.oculusFatal (r - 4) 0x14).settleAll
  else if r ≤ 9 then .next (s.wantHalve (r % 2) 0x14)
  else if r ≤ 12 then .next s
  else if r ≤ 52 then
    let g := (r - 13) % 8
    .next (((List.range 48).foldl (fun s ch => s.channelFail g ch) s).gateRetry g).settleAll
  else if r ≤ 68 then .next (s.spireDown (r - 53)).settleAll
  else .next ((s.spireDown (r - 69)).spireBlank (r - 69)).settleAll

/-! ### Stack caps and limits (R361 to R364) -/

/-- Cap for a design power in W, in 0.25 W (R362). -/
def capOf (w : Nat) : Nat := (71 * w - 43200) / 320

/-- STACK_LIMIT from the cap and the larger of the reductions (R363). -/
def State.setLimit (s : State) (n : Nat) : State :=
  let red := max (s.fld Loc.glTsSts 22 16 n) (s.fld Loc.glStackRed 6 0 n)
  s.setFld (Loc.spStackLimit n) 9 0 (max (s.fld (Loc.spStackCap n) 9 0 * (100 - red) / 100) 56)

/-- Every cap set for a design power. -/
def State.setCaps (s : State) (w : Nat) : State :=
  (List.range 16).foldl (fun s n => (s.setFld (Loc.spStackCap n) 9 0 (capOf w)).setLimit n) s

/-- DESIGN_W in force makes the caps, unless the device is derated (R361, R362). -/
def State.designTick (s : State) : State :=
  let w := s.fld Loc.glPwrCfg 10 0
  if s.flag Loc.glPwrSts 2 || s.fld (Loc.spStackCap 0) 9 0 == capOf w then s else s.setCaps w

/-- BUS_CONVERTER_FAIL (R361): the other carries the module at 900 W. -/
def execBusConverterFail (b : Bool) (s : State) : Host.Outcome State Fault Refusal :=
  let i := b2n b
  if !s.power.closed || !s.flag Loc.glPwrSts i then .next s else
  let s := (s.setFlag Loc.glPwrSts i false).setFlag Loc.glPwrSts 2 true
  .next ((s.setCaps 900).postGlobal 2 0x15 i 0)

/-- STACK_OVERRUN (R364): logged once per frame. -/
def execStackOverrun (n : Fin 16) (s : State) : Host.Outcome State Fault Refusal :=
  if (s.spire n).out != 0 then .next s else
  let o := s.spireOwner n
  let s := s.setFlag Loc.glStackRed 8 true n
  let s := (s.bump 6 4 n 1 o).bump (spPage n 8) 4 0 1 o
  if s.power.overLog.contains n.val then .next s
  else .next ((s.modPower fun x => { x with overLog := n.val :: x.overLog }).postGlobal 0 0x19 n 0 (some o))

/-! ### The module guard (R365, R502) -/

/-- RED_G of every stack. -/
def State.setGuard (s : State) (v : Nat) : State :=
  let s := (List.range 16).foldl (fun s n => (s.setFld Loc.glStackRed 6 0 v n).setLimit n) s
  (s.setFlag Loc.glPwrSts 3 (v != 0)).bump 6 2 0

/-- A mean over samples. -/
def meanOf (f : Nat × Nat → Nat) (l : List (Nat × Nat)) : Nat := (l.map f).sum / max 1 l.length

/-- A time kept while a condition holds: since now when it begins, none when it does not hold. -/
def State.sinceWhen (s : State) (holds : Bool) (old : Option Nat) : Option Nat :=
  if !holds then none else if old.isSome then old else some s.clk.elapsed

/-- The guard judges the mean power of a sample (R365): RED_G rises at once, and every 100 µs while the excess lasts. -/
def State.judgeGuard (s : State) (now : Nat) : State :=
  let w := s.fld Loc.glPwrGuard 10 0
  let s := s.modPower fun x => { x with lowAt := s.sinceWhen (decide (now + 60 < w)) x.lowAt }
  if now ≤ w then s.modPower fun x => { x with guard := none }
  else if s.nextOf s.power.guard 100000 ≤ s.clk.elapsed then
    (s.modPower fun x => { x with guard := some s.clk.elapsed }).setGuard (min 75 (s.fld Loc.glStackRed 6 0 0 + 5))
  else s

/-- A sample of the input: voltage in 10 mV, current in 10 mA; means of the last 100 samples (R502). -/
def State.inputSample (s : State) (v i : Nat) : State :=
  let l := ((v, i) :: s.power.samples).take 100
  let s := s.modPower fun x => { x with samples := l, sampledAt := some s.clk.elapsed }
  let now := (l.map fun e => e.1 * e.2).sum / (10000 * max 1 l.length)
  let s := (s.setFld Loc.glVin 13 0 (meanOf (·.1) l)).setFld Loc.glIin 13 0 (meanOf (·.2) l)
  let s := (s.setFld Loc.glPin 11 0 now).setFld Loc.glPin 27 16 (max (s.fld Loc.glPin 27 16) (now % 4096))
  s.judgeGuard now

/-- INPUT_MONITOR_SAMPLE (R502, R365): every 1 µs. -/
def execInputMonitorSample (v i : Nat) (s : State) : Host.Outcome State Fault Refusal :=
  if !s.power.closed then .next s else
  match s.waitUntil (s.nextOf s.power.sampledAt 1000) with
  | none => .next s
  | some s => .next (s.inputSample v i)

/-- GUARD_RECOVERY_STEP (R365): a millisecond below the guard band. -/
def execGuardRecoveryStep (s : State) : Host.Outcome State Fault Refusal :=
  match s.power.lowAt with
  | none => .next s
  | some t =>
    if s.fld Loc.glStackRed 6 0 0 = 0 then .next s else
    match s.waitUntil (t + 1000000) with
    | none => .next s
    | some s =>
      .next ((s.modPower fun x => { x with lowAt := some s.clk.elapsed }).setGuard (s.fld Loc.glStackRed 6 0 0 - 1))

/-! ### Sensors (R366 to R370) -/

/-- Levels of Table PW-4 in °C: caution, act, trip. -/
def levelsOf (i : Nat) : Int × Int × Int :=
  if i < 24 then (90, 95, 105) else if i < 26 then (80, 85, 95) else if i < 28 then (85, 90, 100) else (90, 95, 105)

def State.sensorFailed (s : State) (i : Nat) : Bool := s.flag Loc.glTsVal 16 i

/-- Level of a sensor by reading or rate, 0 normal, 1 caution, 2 act; nothing from a failed one (R367). -/
def State.level (s : State) (i : Nat) : Nat :=
  if s.sensorFailed i then 0 else max (min 2 (s.fld Loc.glTsSts 1 0 i)) (s.fld Loc.glTsSts 3 2 i)

/-- INFO of a thermal record: reading and rate. -/
def State.sensorInfo (s : State) (i : Nat) : Nat := s.fld Loc.glTsVal 15 0 i + 65536 * s.fld Loc.glTsRate 15 0 i

/-- Sensors that feed the reduction of a stack or gatehouse (R370). -/
def feeds (u : Nat) : List Nat := if u < 16 then [u, 24 + u / 8] else [u]

/-- RED_T of a stack or gatehouse. -/
def State.setRed (s : State) (u v : Nat) : State :=
  if s.fld Loc.glTsSts 22 16 u = v then s else
  let o := if u < 16 then s.spireOwner u else 15
  let s := (s.setFld Loc.glTsSts 22 16 v u).bump 6 3 u 1 o
  if u < 16 then s.setLimit u else s

/-- A sensor fails (R367): logged; the reductions it feeds stay at 25%; its trip acts no more. -/
def State.failSensor (s : State) (i : Nat) : State :=
  let s := ((s.setFlag Loc.glTsVal 16 true i).setFld Loc.glTsSts 3 0 0 i).postGlobal 2 0x13 i 0
  (List.range 24).foldl (fun s u => if (feeds u).contains i then s.setRed u 25 else s) s

/-- A gatehouse trips: it issues no requests and keeps its data; its requests complete with 0x21 (Table PW-5). -/
def State.gateTrip (s : State) (g : Nat) : State :=
  let x := s.gate g
  let l := x.waitq ++ x.lbuf.flatMap fun e => e.queue
  let s := s.modGate g fun x =>
    { x with trip := true, waitq := [], lbuf := (x.lbuf.filter fun e => !e.filling).map fun e => { e with queue := [] } }
  l.foldl (fun s o => s.gateDone o 0x21 []) (s.modPower fun p => { p with below := p.below.set g none })

/-- A trip is counted and logged. -/
def State.tripLog (s : State) (i : Nat) : State :=
  let s := (s.addSat Loc.glThTrips 15 0 1).postGlobal 2 0x12 i (s.sensorInfo i)
  s.bump 7 4 i 1 (if i < 16 then s.spireOwner i else 15)

/-- A spire trips (Table PW-5): its supplies are removed, its wells lost. One that has tripped already is not logged again
(Table PW-7). -/
def State.spireTrip (s : State) (n : Nat) : State :=
  let s := if s.power.tripped.contains n then s else (s.tripLog n).modPower fun p => { p with tripped := n :: p.tripped }
  if (s.spire n).out = 4 then s else (s.spireDown n).spireBlank n

/-- A trip (Table PW-5). -/
def State.tripSensor (s : State) (i : Nat) : State :=
  if i < 16 then s.spireTrip i
  else
    let s := s.tripLog i
    if i < 24 then s.gateTrip (i - 16)
    else if i < 26 then
      let s := (List.range 8).foldl (fun s k => s.spireTrip (8 * (i - 24) + k)) s
      s.modPower fun p =>
        { p with plTrip := (i - 24, s.clk.elapsed) :: p.plTrip.filter fun x => x.1 != i - 24 }
    else if i < 28 then s.oculusFatal (i - 26) 0x12
    else s.belfryStop (i - 28) 0x12

/-- Rate of rise in 1/64 °C per ms from the readings, the latest first (R366): 0 until three are there. -/
def rateOf (l : List Int) : Int :=
  match l with
  | a :: _ :: c :: _ => (a - c) * 25
  | _ => 0

/-- TS_RATE: a rate beyond its 16 bits leaves the word open. -/
def State.showRate (s : State) (i : Nat) (r : Int) : State :=
  if -32768 ≤ r ∧ r ≤ 32767 then s.setFld Loc.glTsRate 15 0 (r % 65536).toNat i
  else let d := s.draw; d.2.setFld Loc.glTsRate 15 0 d.1 i

/-- Reading and rate of a sensor taken: registers, crossings, trip (R366, R368, R369). -/
def State.sampleSensor (s : State) (i : Nat) (t : Int) : State :=
  let l := (t :: lget [] s.power.readings i).take 3
  let s := s.modPower fun p => { p with readings := p.readings.set i l }
  let r := rateOf l
  let old := s.level i
  let oldTrip := s.fld Loc.glTsSts 1 0 i == 3
  let lv := levelsOf i
  let th := s.get Loc.glThCtl
  let byRead := if lv.2.2 * 64 ≤ t then 3 else if lv.2.1 * 64 ≤ t then 2 else if lv.1 * 64 ≤ t then 1 else 0
  let byRate := if (th.bits 23 16 : Int) * 32 ≤ r then 2 else if (th.bits 15 8 : Int) * 32 ≤ r then 1 else 0
  let s := (s.setFld Loc.glTsVal 15 0 (t % 65536).toNat i).showRate i r
  let peak := max (s.fld Loc.glTsSts 15 8 i) (t / 64).toNat
  let s := ((s.setFld Loc.glTsSts 1 0 byRead i).setFld Loc.glTsSts 3 2 byRate i).setFld Loc.glTsSts 15 8 peak i
  let o := if i < 16 then s.spireOwner i else 15
  let now := s.level i
  let s := if old = 0 ∧ 1 ≤ now then (s.postGlobal 0 0x10 i (s.sensorInfo i)).bump 7 2 i 1 o else s
  let s := if old < 2 ∧ now = 2 then
      let s := s.bump 7 3 i 1 o
      if 26 ≤ i then s.postGlobal 2 0x11 i (s.sensorInfo i) else s
    else s
  if byRead = 3 ∧ !oldTrip then s.tripSensor i else s

/-- A sensor's part of a sample: it is open or shorted, out of range, or read (R367). -/
def State.senseOne (s : State) (i : Nat) (x : Option Int) : State :=
  if s.sensorFailed i then s else
  match x with
  | none => s.failSensor i
  | some t => if t < -2560 ∨ 9600 < t then s.failSensor i else s.sampleSensor i t

/-- The rise of a reduction at a sample (R370): at once at act, and every 100 µs while at act. Below caution its recovery begins. -/
def State.redRise (s : State) (u : Nat) : State :=
  let l := feeds u
  if l.any (fun i => s.sensorFailed i) then s else
  let act := l.any fun i => s.level i == 2
  let s := s.modPower fun p =>
    { p with cool := lmod p.cool u (s.sinceWhen (l.all fun i => s.level i == 0)),
             rise := if act then p.rise else p.rise.set u none }
  if act && decide (s.nextOf (lget none s.power.rise u) 100000 ≤ s.clk.elapsed) then
    (s.modPower fun p => { p with rise := p.rise.set u (some s.clk.elapsed) }).setRed u
      (min 75 (s.fld Loc.glTsSts 22 16 u + 5))
  else s

/-- Sensors that are no longer at act: tripped spires may return by a spire reset once their reading is below it (Table
PW-5), tripped gatehouses count their time below act, by reading and rate (R368). -/
def State.coolDown (s : State) : State :=
  s.modPower fun p =>
    { p with
      tripped := p.tripped.filter fun n => decide (2 ≤ s.fld Loc.glTsSts 1 0 n)
      below := p.below.zipIdx.map fun e => s.sinceWhen (decide (s.level (16 + e.2) < 2)) e.1 }

/-- SENSOR_SAMPLE (R366 to R370): every 20 µs, readings in 1/64 °C, nothing where a diode is open or shorted. -/
def execSensorSample (t : List (Option Int)) (s : State) : Host.Outcome State Fault Refusal :=
  if !s.power.closed then .next s else
  match s.waitUntil (s.nextOf s.power.sensedAt 20000) with
  | none => .next s
  | some s =>
    let s := s.modPower fun p => { p with sensedAt := some s.clk.elapsed }
    let s := (t.take 30).zipIdx.foldl (fun s e => s.senseOne e.2 e.1) s
    .next ((List.range 24).foldl (fun s u => s.redRise u) s).coolDown.settleAll

/-- A unit's reduction falls by a point when a millisecond below caution is over (R370). -/
def State.redFall (s : State) (u : Nat) : State :=
  match lget none s.power.cool u with
  | none => s
  | some t =>
    let red := s.fld Loc.glTsSts 22 16 u
    if red = 0 ∨ (feeds u).any (fun i => s.sensorFailed i) ∨ s.clk.elapsed < t + 1000000 then s
    else (s.modPower fun p => { p with cool := p.cool.set u (some s.clk.elapsed) }).setRed u (red - 1)

/-- When the next reduction is due to fall. -/
def State.fallDue (s : State) : Option Nat :=
  ((List.range 24).filterMap fun u =>
    if s.fld Loc.glTsSts 22 16 u = 0 ∨ (feeds u).any (fun i => s.sensorFailed i) then none
    else (lget none s.power.cool u).map (· + 1000000)).min?

/-- THROTTLE_RECOVERY_STEP (R370): a millisecond with every feeding sensor below caution. -/
def execThrottleRecoveryStep (s : State) : Host.Outcome State Fault Refusal :=
  match s.fallDue.bind s.waitUntil with
  | none => .next s
  | some s => .next ((List.range 24).foldl (fun s u => s.redFall u) s)

/-- GATEHOUSE_TRIP_RESUME (Table PW-5): 10 ms below act. -/
def execGatehouseTripResume (g : Fin 8) (s : State) : Host.Outcome State Fault Refusal :=
  if !(s.gate g).trip then .next s else
  match (lget none s.power.below g).bind fun t => s.waitUntil (t + 10000000) with
  | none => .next s
  | some s => .next ((s.modGate g fun x => { x with trip := false }).gateRetry g)

/-- PLINTH_TRIP_FENCE (Table PW-5): 10 ms after its trip the plinth is judged again. -/
def execPlinthTripFence (e : Side) (s : State) : Host.Outcome State Fault Refusal :=
  let i := sideNat e
  match (s.power.plTrip.find? fun x => x.1 == i).bind fun x => s.waitUntil (x.2 + 10000000) with
  | none => .next s
  | some s =>
    let s := s.modPower fun p => { p with plTrip := p.plTrip.filter fun x => x.1 != i }
    if 2 ≤ s.level (24 + i) then .next (s.wantHalve i 0x12) else .next s

end Sys2Proof.Machine
end

