-- ==== Sys2Proof/Machine/Belfry.lean ====
section
/-! DEFINITION. Belfries, the interlock line, the management hierarchy (R376 to R403): every command of chapter 13 but the
register accesses by management packet, and what a tick does to them. -/

namespace Sys2Proof.Machine

/-! ### The interlock line (R377 to R381) -/

/-- Station of a belfry. -/
def bfStation (e : Nat) : Nat := if e = 0 then 22 else 25

/-- The line shows a stuck hold. -/
def State.stuck (s : State) : Bool := s.mgmt.stuckAt.isSome

/-- A stuck hold is sensed (R380): both belfries show it and log it. -/
def State.stuckHold (s : State) : State :=
  if s.stuck then s else
  let s := s.modMgmt fun m => { m with stuckAt := some s.clk.elapsed }
  (List.range 2).foldl (fun s e => (s.setFlag (Loc.bfBfSts e) 4 true).post (bfPage e) 2 0xA2 0 0) s

/-- The line was low at the pin of a belfry for some ns: a hold pulse, a stuck hold, or neither (R377). -/
def State.lineLow (s : State) (e ns : Nat) : State :=
  if 5000 < ns then s.stuckHold
  else if 500 ≤ ns then s.modBelfry e fun b => { b with seenAt := s.clk.elapsed }
  else s

/-- The holder drives a pulse, which each circuit senses at its own pin (R377, R379). -/
def State.drivePulse (s : State) (i : Nat) (w : PulseSeen) : State :=
  let s := s.modBelfry i fun b => { b with drove := some s.clk.elapsed }
  let s := (s.lineLow i w.own).lineLow (1 - i) w.other
  if 500 ≤ w.own then s.modBelfry i fun b => { b with missed := 0 }
  else
    let n := (s.belfry i).missed + 1
    let s := (s.modBelfry i fun b => { b with missed := n }).bump (bfPage i) 6 0
    if n = 3 then (s.setFlag (Loc.bfBfSts i) 5 true).post (bfPage i) 2 0xA1 0 0 else s

/-- HOLD_PULSE (R377, R379): the holder pulses every 50 µs, 49 µs after its latest pulse at the earliest. -/
def execHoldPulse (e : Side) (seen : PulseSeen) (s : State) : Host.Outcome State Fault Refusal :=
  let i := sideNat e
  if s.role i ≠ 3 then .next s else
  match s.waitUntil (s.nextOf (s.belfry i).drove 49000) with
  | none => .next s
  | some s => .next (s.drivePulse i seen)

/-- A standby that may take over (R380, R388, R401); a belfry that hands over leaves it to the other (R386). -/
def State.mayTake (s : State) (e : Nat) : Bool :=
  let b := s.belfry e
  s.role e == 2 && !(b.handing && s.role (1 - e) == 2) && !s.flag (Loc.bfBfSts e) 3 && b.selfOk && b.fwMatch && !s.stuck

/-- PULSE_ABSENCE (R378, R379): 200 µs without a pulse; the standby sends its query, unless it was refused in the last
10 ms. -/
def execPulseAbsence (e : Side) (s : State) : Host.Outcome State Fault Refusal :=
  let i := sideNat e
  let b := s.belfry i
  if !s.mayTake i || b.asked.isSome then .next s else
  match s.waitUntil (max (b.seenAt + 200000) (match b.refused with | some t => t + 10000000 | none => 0)) with
  | none => .next s
  | some s =>
    let path := s.pathStatus (bfStation i) (bfStation (1 - i)) == 0
    .next (s.modBelfry i fun b => { b with asked := some s.clk.elapsed, noPath := !path, refusal := false })

/-- STUCK_HOLD (R380): both belfries show it and log it. -/
def execStuckHold (s : State) : Host.Outcome State Fault Refusal :=
  if s.role 0 = 0 ∧ s.role 1 = 0 then .next s else .next s.stuckHold

/-- STUCK_HOLD_RELEASE (R380): the line is released. -/
def execStuckHoldRelease (s : State) : Host.Outcome State Fault Refusal :=
  if !s.stuck then .next s else
  let s := s.modMgmt fun m => { m with stuckAt := none }
  let s := (List.range 2).foldl (fun (s : State) e => s.modBelfry e fun b => { b with seenAt := s.clk.elapsed }) s
  .next ((s.setFlag (Loc.bfBfSts 0) 4 false).setFlag (Loc.bfBfSts 1) 4 false)

/-- TAKEOVER_QUERY (R378): the query of the other belfry arrives at `e`; a holder refuses it, one that hands over lets it
pass. -/
def execTakeoverQuery (e : Side) (s : State) : Host.Outcome State Fault Refusal :=
  let i := sideNat e
  let o := s.belfry (1 - i)
  if o.asked.isNone || o.noPath || s.role i ≠ 3 then .next s
  else .next ((s.modBelfry (1 - i) fun b => { b with refusal := true }).bump (bfPage i) 4 0)

/-- TAKEOVER_REFUSAL (R379): the standby stays standby and does not ask again for 10 ms. -/
def execTakeoverRefusal (e : Side) (s : State) : Host.Outcome State Fault Refusal :=
  let i := sideNat e
  if !(s.belfry i).refusal then .next s
  else .next (s.modBelfry i fun b => { b with asked := none, refusal := false, refused := some s.clk.elapsed })

/-- TAKEOVER (R378): 50 µs without a refusal, or no path for the query. A holder that the query reaches refuses it within
10 µs. -/
def execTakeover (e : Side) (s : State) : Host.Outcome State Fault Refusal :=
  let i := sideNat e
  let b := s.belfry i
  match b.asked with
  | none => .next s
  | some t =>
    if b.refusal || !s.mayTake i then .next s else
    if !b.noPath ∧ s.role (1 - i) = 3 then
      match s.waitUntil (t + 10000) with
      | none => .next s
      | some s =>
        .next ((s.modBelfry i fun b => { b with asked := none, refused := some s.clk.elapsed }).bump (bfPage (1 - i)) 4 0)
    else
    match s.waitUntil (if b.noPath then t else t + 50000) with
    | none => .next s
    | some s => .next (s.takeOver i)

/-- STUCK_HOLDER_STOPPED (Table BF-7, R450): 10 ms of a stuck hold with the holder stopped; the standby logs it. -/
def execStuckHolderStopped (s : State) : Host.Outcome State Fault Refusal :=
  match s.mgmt.stuckAt, s.mgmt.stoppedAt, (List.range 2).find? (fun e => s.role e == 2) with
  | some a, some b, some e =>
    if s.holder.isSome || s.flag Loc.glFaultSts 0 then .next s else
    match s.waitUntil (max a b + 10000000) with
    | none => .next s
    | some s => .next ((s.post (bfPage e) 3 0xA5 0 0).recovery 0xA5)
  | _, _, _ => .next s

/-! ### The state log, restarts, handover, self-test (R382 to R389) -/

/-- The first `n` records of the state log travel to the standby on pair 22–25 (R382); none while it has no path. -/
def State.sendLog (s : State) (e n : Nat) : State :=
  if s.pathStatus (bfStation (1 - e)) (bfStation e) ≠ 0 then s else
  let l := s.mgmt.logHeld.take n
  let s := s.modMgmt fun m => { m with logHeld := m.logHeld.drop n, logWait := m.logWait ++ l }
  (s.setFld (Loc.bfBfSts e) 31 16 (min 65535 s.mgmt.logWait.length)).bump (bfPage e) 7 0 l.length

/-- At a tick the standby has applied what it had received, and what the holder has recorded since is sent (R382): each record
is applied within a frame of its arrival. -/
def State.logTick (s : State) (e : Nat) : State :=
  (s.modMgmt fun m => { m with logWait := [] }).sendLog e s.mgmt.logHeld.length

/-- STATE_LOG_RECORD (R382): the oldest record reaches the standby, which applies it at the next tick. What the record changes is
what the holder holds, so the standby keeps no copy of its own (DESIGN CHOICE, log entry 208). -/
def execStateLogRecord (s : State) : Host.Outcome State Fault Refusal :=
  match s.standby with
  | none => .next s
  | some e => .next (s.sendLog e 1)

/-- BELFRY_RESTART (R383): a stopped belfry boots, tests itself, copies the managed state and is a ready standby; or its
restart fails, and the third failure within an hour leaves it off. -/
def execBelfryRestart (e : Side) (romOk : Bool) (s : State) : Host.Outcome State Fault Refusal :=
  let i := sideNat e
  if 2 ≤ s.role i ∨ (s.belfry i).left ∨ s.holder.isNone then .next s else
  let s := (s.addSat (Loc.bfBfSts i) 15 8 1).abortAll
  if romOk then
    let s := s.modBelfry i fun b => { left := b.left, fails := b.fails, failCount := b.failCount, lastFail := b.lastFail, rotAt := some s.clk.elapsed }
    let s := (s.setRole i 2).setFlag (Loc.bfBfSts i) 2 true
    .next ((s.setFld (Loc.bfBfSts i) 31 16 0).modMgmt fun m => { m with logHeld := [], logWait := [] })
  else
    let now := s.clk.elapsed
    let l := now :: (s.belfry i).fails.filter fun t => decide (now < t + 3600000000000)
    let s := (s.setRole i 0).modBelfry i fun b => { b with fails := l, left := decide (3 ≤ l.length) }
    if 3 ≤ l.length then .next (s.post (bfPage i) 2 0xA3 0 (s.fld (Loc.bfBfSts i) 15 8)) else .next s

/-- BF_CTL written (Table BF-8). -/
def State.bfCtlOp (s : State) (e : Nat) (v : Word) : WR :=
  match formCheck (locFields (Loc.bfBfCtl e)) v with
  | some c => .error c
  | none =>
    let holds := s.role e == 3
    if (v.bit 0 && !(holds && s.role (1 - e) == 2 && s.flag (Loc.bfBfSts (1 - e)) 2)) || (v.bit 1 && holds) then .error 5
    else
      let s := if v.bit 0 then s.modBelfry e fun b => { b with handDue := true } else s
      .ok (if v.bit 1 && !(s.belfry e).left then (s.belfryStop e 0).setRole e 1 else s)

/-- BELFRY_RESTART_CMD: BF_CTL is written with RESTART = 1. -/
def execBelfryRestartCmd (f : Func) (e : Side) (v : Word) (s : State) : Host.Outcome State Fault Refusal :=
  let v := v.put 1 1 1
  .next (s.write f (Loc.bfBfCtl (sideNat e)) v fun s => s.bfCtlOp (sideNat e) v)

/-- HANDOVER: BF_CTL is written with HANDOVER = 1. -/
def execHandover (f : Func) (e : Side) (v : Word) (s : State) : Host.Outcome State Fault Refusal :=
  let v := v.put 0 0 1
  .next (s.write f (Loc.bfBfCtl (sideNat e)) v fun s => s.bfCtlOp (sideNat e) v)

/-- A rotation of the standby's self-test ends: the code of the failed test, 0 for none. -/
def Belfry.rotated (b : Belfry) (now failed : Nat) : Belfry :=
  let b := { b with rotAt := some now }
  if failed = 0 then { b with selfOk := true }
  else { b with selfOk := false, lastFail := failed, failCount := min 255 (b.failCount + 1) }

/-- SELF_TEST_ROTATION (R387): every 1 s. -/
def execSelfTestRotation (failed : BitVec 8) (s : State) : Host.Outcome State Fault Refusal :=
  match s.standby with
  | none => .next s
  | some e =>
    match s.waitUntil (s.nextOf (s.belfry e).rotAt 1000000000) with
    | none => .next s
    | some s => .next (s.modBelfry e fun b => b.rotated s.clk.elapsed failed.toNat)

/-- Handovers begin at a tick (R386): one that was commanded, or West's own to a ready East. The circuit leaves the holding
state (R381): no belfry is active until the other takes over. -/
def State.handoverTick (s : State) : State :=
  let own := s.role 1 == 3 && s.role 0 == 2 && s.flag (Loc.bfBfSts 0) 2 && !s.halved &&
    (decide (s.fld Loc.glBootSts 3 0 < 10) || s.flag Loc.glMgmtCfg 2 || s.flag Loc.glFaultSts 0)
  (List.range 2).foldl (fun s e =>
    let b := s.belfry e
    if s.role e = 3 ∧ (b.handDue ∨ (own ∧ e = 1)) then
      ((s.setRole e 2).modBelfry e fun b => { b with handDue := false, handing := true }).bump (bfPage e) 3 0
    else s) s

/-- Age in ns of the oldest record that the standby has received and not applied (Table BF-3). -/
def State.logAge (s : State) : Nat := match s.mgmt.logWait with | t :: _ => s.clk.elapsed - t | [] => 0

/-- Progress in % of the standby's self-test rotation, one every second (R387, Table BF-3). -/
def State.rotPct (s : State) (b : Belfry) : Nat :=
  min 100 ((s.clk.elapsed - match b.rotAt with | some t => t | none => s.start.since) / 10000000)

/-- Word 1 of the standby's health report (R388, Table BF-3). -/
def State.healthWord (s : State) (e : Nat) : Nat :=
  let b := s.belfry e
  let sense := decide (s.clk.elapsed ≤ b.seenAt + 200000)
  let ok := b.selfOk && b.keysOk && b.fwMatch && sense && decide (s.mgmt.logWait.length ≤ 64) && decide (s.logAge ≤ 100000)
  b2n ok + 2 * b2n b.selfOk + 4 * b2n b.keysOk + 8 * b2n b.fwMatch + 16 * b2n sense

/-- At every tick the standby has applied the records it had received, and writes its health report (R382, R388). Its temperature is
that of its own sensor. -/
def State.healthTick (s : State) (o : FrameObs) : State :=
  match s.standby with
  | none => s
  | some e =>
    let s := s.logTick e
    if o.reportMissing then s else
    let b := s.belfry e
    let w := s.healthWord e
    let s := s.setFlag (Loc.bfBfSts e) 2 (w % 2 == 1)
    let words := [s.clk.ticks, w, min 65535 s.mgmt.logWait.length + 65536 * min 65535 (s.logAge / 1000), s.rotPct b + 65536 * b.lastFail + 16777216 * b.failCount,
      s.fld Loc.glTsVal 15 0 (28 + e) + o.health.toNat / 65536 * 65536, 0, 0, 0]
    words.zipIdx.foldl (fun s x => s.put (Loc.bfHealth e x.2) (BitVec.ofNat 32 x.1)) s

/-- The holder judges the report (R389): missing for 3 ticks, or READY = 0 for 1 s; a failing standby is restarted. -/
def State.reportTick (s : State) (o : FrameObs) : State :=
  match s.holder with
  | none => s
  | some h =>
    let e := 1 - h
    let w := (s.get (Loc.bfHealth e 1)).toNat
    if s.role e ≠ 2 ∨ o.reportMissing then
      let n := min 4 (s.mgmt.missing + 1)
      let s := s.modMgmt fun m => { m with missing := n }
      if n = 3 then s.post (bfPage h) 2 0xA4 0 w else s
    else
      let s := s.modMgmt fun m => { m with missing := 0 }
      let s :=
        if w % 2 = 1 then s.modMgmt fun m => { m with notReady := none, notReadyLogged := false }
        else match s.mgmt.notReady with
          | none => s.modMgmt fun m => { m with notReady := some s.clk.elapsed }
          | some t =>
            if s.mgmt.notReadyLogged ∨ s.clk.elapsed < t + 1000000000 then s
            else (s.modMgmt fun m => { m with notReadyLogged := true }).post (bfPage h) 2 0xA4 0 w
      if w / 2 % 2 = 0 then (s.setRole e 1).setFlag (Loc.bfBfSts e) 2 false else s

/-- At every tick the holder kicks the heartbeat engine and the INTLK_A circuit (R394). -/
def State.kickTick (s : State) : State :=
  if s.holder.isSome then s.modMgmt fun m => { m with kickAt := some s.clk.elapsed } else s

/-- ENGINE_LAPSE (R394): 400 µs after the latest kick the heartbeat engine and the INTLK_A circuit stop: the pair is no longer
held. -/
def execEngineLapse (s : State) : Host.Outcome State Fault Refusal :=
  match s.mgmt.kickAt with
  | none => .next s
  | some t =>
    match s.waitUntil (t + 400000) with
    | none => .next s
    | some s => .next ((s.setFlag Loc.glMgmtSts 2 false).modMgmt fun m => { m with kickAt := none })

/-! ### Heartbeats and management states (R393 to R399) -/

/-- A management packet leaves an oculus, sealed when a management key is installed (R416). -/
def State.sendMgmt (s : State) (e : Nat) (k : Pkt) : State × Bool :=
  let r : State × Option Pkt := match s.sealPkt e true k with
    | .sealed s k => (s, some k)
    | .plain => (s, some k)
    | .exhausted s => (s, none)
  match r.2.bind fun k => r.1.tryForward e k with
  | some t => (t, true)
  | none => (r.1.ocEvent e 0xB 0 1, false)

/-- The oculus that carries the management service's packets. -/
def State.mgmtOculus (s : State) : Nat := if (s.oculus 0).out = 0 then 0 else 1

/-- A device that is always attached (R396). -/
def State.topDevice (s : State) : Bool :=
  s.fld Loc.glMgmtCfg 1 0 == 2 || (!s.flag Loc.glMgmtUpA 16 && !s.flag Loc.glMgmtUpB 16)

/-- The TOP_OK that this device sends (Table BF-4). -/
def State.sendsTopOk (s : State) : Bool := s.topDevice || s.fld Loc.glMgmtSts 1 0 == 1

/-- Devices of the target groups of the East oculus (R393). -/
def State.hbTargets (s : State) : List Nat :=
  (List.range (s.fld Loc.glMgmtHb 31 28 + 1)).flatMap fun i =>
    let g := (s.fld Loc.glMgmtHb 27 16 + i) % 4096
    (List.range (min 64 (s.fld (Loc.ocMcgHdr 0) 6 0 g))).map fun j => s.fld (Loc.ocMcgTgt 0) 15 0 (g * 64 + j)

/-- The heartbeat to a device: TOP_OK, the role, the sequence number (R393). -/
def State.hbPkt (s : State) (n d : Nat) : Pkt :=
  let addr := b2n s.sendsTopOk + 2 * b2n (s.fld Loc.glMgmtCfg 1 0 == 2)
  { op := 0x1A, dstDev := BitVec.ofNat 16 d, srcDev := BitVec.ofNat 16 s.ownDev, addr := BitVec.ofNat 48 addr,
    opt := BitVec.ofNat 24 n }

/-- The holder's heartbeats leave, to every device of the target groups but this one. -/
def State.sendBeats (s : State) : State :=
  let n := s.mgmt.hbSeq
  let devs := s.hbTargets
  let s := s.modMgmt fun m => { m with hbSeq := (n + 1) % 2 ^ 24, hbSent := some s.clk.elapsed }
  devs.foldl (fun s d => if s.isOwn d then s else (s.sendMgmt 0 (s.hbPkt n d)).1) s

/-- HEARTBEAT_SEND (R393): every HB_US. -/
def execHeartbeatSend (s : State) : Host.Outcome State Fault Refusal :=
  if s.fld Loc.glMgmtCfg 1 0 = 0 ∨ !s.flag Loc.glMgmtSts 2 ∨ s.mgmt.kickAt.isNone then .next s else
  match s.waitUntil (s.nextOf s.mgmt.hbSent (1000 * s.fld Loc.glMgmtHb 7 0)) with
  | none => .next s
  | some s => .next s.sendBeats

/-- A device ID is one of the upper pair. -/
def State.isUpper (s : State) (d : Nat) : Bool :=
  (s.flag Loc.glMgmtUpA 16 && s.fld Loc.glMgmtUpA 15 0 == d) || (s.flag Loc.glMgmtUpB 16 && s.fld Loc.glMgmtUpB 15 0 == d)

/-- Duration of the loss time in ns. -/
def State.lossNs (s : State) : Nat := 10000 * s.fld Loc.glMgmtHb 15 8

/-- The fabric join has come to heartbeats and admission: step 9 follows step 8, and the device has its ID (R476). -/
def State.admits (s : State) : Bool := s.hasId && decide (9 ≤ s.fld Loc.glBootSts 3 0)

/-- HEARTBEAT (R393, R396, Table BF-6): accepted from the upper pair, else ignored and counted. -/
def execHeartbeat (k : Pkt) (s : State) : Host.Outcome State Fault Refusal :=
  let s := s.takeHeld k
  match s.holder with
  | none => .next s
  | some h =>
    match s.openMgmt k with
    | none => .next (s.mgmtDrop k)
    | some (s, k) =>
      if !s.isUpper k.srcDev.toNat || !s.admits then .next (s.bump (bfPage h) 9 0) else
      let st := s.fld Loc.glMgmtSts 1 0
      let top := k.addr.toNat % 2 == 1
      let lost := st == 1 && !s.topDevice && (!top || decide (s.mgmt.hbAt + s.lossNs ≤ s.clk.elapsed))
      let s := (s.setFld Loc.glMgmtHolder 15 0 k.srcDev.toNat).bump (bfPage h) 8 0
      let s := s.modMgmt fun m => { m with hbAt := s.clk.elapsed, topOk := top, isolateDue := m.isolateDue || lost }
      .next (if st = 2 ∧ top then s.setFld Loc.glMgmtSts 1 0 3 else s)

/-- HEARTBEAT_LOSS (R396): an attached device has had no heartbeat for LOSS_US, or one without TOP_OK. -/
def execHeartbeatLoss (s : State) : Host.Outcome State Fault Refusal :=
  if s.fld Loc.glMgmtSts 1 0 ≠ 1 ∨ s.topDevice then .next s
  else if !s.mgmt.topOk then .next (s.modMgmt fun m => { m with isolateDue := true })
  else match s.waitUntil (s.mgmt.hbAt + s.lossNs) with
    | none => .next s
    | some s => .next (s.modMgmt fun m => { m with isolateDue := true })

/-- A management request as the service takes it: opened, or discarded; nothing while no belfry is active. -/
def State.takeMgmt (s : State) (k : Pkt) : State × Option Pkt :=
  let s := s.takeHeld k
  if s.holder.isNone then (s, none) else
  match s.openMgmt k with
  | some (t, k) => (t, some k)
  | none => (s.mgmtDrop k, none)

/-- CMD and MID of a management packet (R395). -/
def mgCmd (k : Pkt) : Nat := k.opt.toNat % 256
def mgMid (k : Pkt) : Nat := k.opt.toNat / 256 % 65536

/-- The response to a management request (R395, Table BF-5): the data fill whole flits. -/
def State.mgmtReply (s : State) (k : Pkt) (st : Nat) (data : List Byte) : State :=
  let n := (data.length + 63) / 64
  let d := data ++ List.replicate (64 * n - data.length) 0
  (s.sendMgmt s.mgmtOculus
    { op := 0x28, dstDev := k.srcDev, srcDev := BitVec.ofNat 16 s.ownDev, opt := k.opt, status := BitVec.ofNat 8 st,
      len := BitVec.ofNat 8 (data.length - 1), nflit := BitVec.ofNat 3 n, data := d }).1

/-- The sender is the upper holder. -/
def State.fromHolder (s : State) (k : Pkt) : Bool :=
  s.isUpper k.srcDev.toNat && s.fld Loc.glMgmtHolder 15 0 == k.srcDev.toNat

/-- The sender is the partner of the pair. -/
def State.fromPartner (s : State) (k : Pkt) : Bool := s.flag Loc.glMgmtPair 16 && s.fld Loc.glMgmtPair 15 0 == k.srcDev.toNat

/-- An unsealed request before a management key with the upper holder is installed (R416). -/
def State.preKey (s : State) : Bool := !s.hasMgmtKey

/-- ADMIT (R399, Table BF-5): a tick of the device at least 100 µs ahead. It has no entries, and is taken before a management
key too (R395, R416); before the join has come to it, it is not permitted (R476). -/
def execAdmit (k : Pkt) (s : State) : Host.Outcome State Fault Refusal :=
  match s.takeMgmt k with
  | (s, none) => .next s
  | (s, some k) =>
    if !s.fromHolder k || !s.admits then .next (s.mgmtReply k 3 []) else
    let c := leNat (k.data.take 8)
    if c % s.period ≠ 0 ∨ c < s.clk.count + 100000 then .next (s.mgmtReply k 2 [])
    else .next ((s.modMgmt fun m => { m with admitAt := some c }).mgmtReply k 0 [])

/-- PAIR_TAKEOVER_QUERY (R390, R395): refused by the holder of the pair, not answered otherwise. -/
def execPairTakeoverQuery (k : Pkt) (s : State) : Host.Outcome State Fault Refusal :=
  match s.takeMgmt k with
  | (s, none) => .next s
  | (s, some k) =>
    if !s.fromPartner k then .next (s.mgmtReply k 3 [])
    else if s.flag Loc.glMgmtSts 2 then .next (s.mgmtReply k 1 [])
    else .next s

/-- MGMT_RESP (R390, R395): the partner's refusal ends the takeover of the pair for 10 ms. -/
def execMgmtResp (k : Pkt) (s : State) : Host.Outcome State Fault Refusal :=
  match s.takeMgmt k with
  | (s, none) => .next s
  | (s, some k) =>
    if s.mgmt.pairAsked.isSome ∧ s.fromPartner k ∧ mgCmd k = 4 ∧ mgMid k = s.mgmt.mid ∧ k.status = 1 then
      .next (s.modMgmt fun m => { m with pairAsked := none, pairRefused := some s.clk.elapsed })
    else .next s

/-- Partner pulses were seen on INTLK_B in the last 200 µs. -/
def State.partnerSeen (s : State) : Bool :=
  match s.mgmt.senseAt with
  | some t => decide (s.clk.elapsed < t + 200000)
  | none => false

/-- The pair is held from now. -/
def State.holdPair (s : State) : State :=
  (s.setFlag Loc.glMgmtSts 2 true).modMgmt fun m => { m with pairAsked := none }

/-- A query to the partner; without a path the pair is held at once (R378, R390). -/
def State.askPair (s : State) : State :=
  if !s.flag Loc.glMgmtPair 16 then s.holdPair else
  let n := (s.mgmt.mid + 1) % 65536
  let s := s.modMgmt fun m => { m with pairAsked := some s.clk.elapsed, mid := n }
  let r := s.sendMgmt s.mgmtOculus
    { op := 0x18, dstDev := BitVec.ofNat 16 (s.fld Loc.glMgmtPair 15 0), srcDev := BitVec.ofNat 16 s.ownDev,
      opt := BitVec.ofNat 24 (4 + 256 * n) }
  if r.2 then r.1 else r.1.holdPair

/-- INTLK_B has been low for more than 5 µs (R377, R390). -/
def State.lowLong (s : State) : Bool :=
  match s.mgmt.lowAt with
  | some t => decide (t + 5000 < s.clk.elapsed)
  | none => false

/-- The module checks its own pulses on INTLK_A (R379, R390): three missing in a row are shown and logged by the holder. -/
def State.pairPulses (s : State) (seen : List Bool) : State :=
  if !s.flag Loc.glMgmtSts 2 then s.modMgmt fun m => { m with pairMissed := 0 } else
  seen.foldl (fun (s : State) ok =>
    if ok then s.modMgmt fun m => { m with pairMissed := 0 } else
    let s := s.modMgmt fun m => { m with pairMissed := m.pairMissed + 1 }
    match s.holder with
    | some h => if s.mgmt.pairMissed = 3 then (s.setFlag (Loc.bfBfSts h) 5 true).post (bfPage h) 2 0xA1 0 0 else s
    | none => s) s

/-- INTLK_B is stuck, or released (R380, R390). -/
def State.intlkStuck (s : State) (on : Bool) : State :=
  if s.flag Loc.glMgmtSts 7 = on then s else
  let s := s.setFlag Loc.glMgmtSts 7 on
  match s.holder with
  | some h => if on then s.post (bfPage h) 2 0xA2 0 0 else s
  | none => s

/-- The pair interlock as a tick finds it (R390, R398): a stuck INTLK_B is shown and logged; a manager that has seen no
pulse of its partner for 200 µs asks, and holds when 50 µs bring no refusal. -/
def State.pairTick (s : State) (seen : List Bool) : State :=
  let s := (if s.lowLong then s.intlkStuck true else s).pairPulses seen
  match s.holder with
  | none => s
  | some _ =>
    let m := s.mgmt
    let now := s.clk.elapsed
    if s.fld Loc.glMgmtCfg 1 0 = 0 then (s.setFlag Loc.glMgmtSts 2 false).modMgmt fun m => { m with pairAsked := none }
    else if s.flag Loc.glMgmtSts 2 || s.flag Loc.glMgmtSts 7 || s.flag Loc.glSbSts 2 2 then s
    else match m.pairAsked with
      | some t => if t + 50000 ≤ now then s.holdPair else s
      | none =>
        let free := match m.pairRefused with | some t => decide (t + 10000000 ≤ now) | none => true
        let since := match m.senseAt with | some t => t | none => s.start.since
        if free && decide (since + 200000 ≤ now) && s.fld Loc.glBootSts 3 0 == 10 then s.askPair else s

end Sys2Proof.Machine
end

