-- ==== Sys2Proof/Machine/FabMem.lean ====
section
/-! DEFINITION. Commands of the fabric's memory semantics: requests at their target, combining, completions, multicast,
windows, counts (R301 to R323). -/

namespace Sys2Proof.Machine

/-! ### Combining at the target (R312 to R315) -/

/-- Two requests may share a line entry at the target (R312): atomics of one element, reductions whose elements coincide. -/
def joinTarget (a b : Pkt) : Bool :=
  combClass a == combClass b && (combClass a != some 2 || (a.addr == b.addr && a.opt == b.opt)) &&
    (combClass a != some 3 || (a.opt == b.opt &&
      a.addr.toNat % 256 % dtSize (bitsOf a.opt.toNat 6 4) == b.addr.toNat % 256 % dtSize (bitsOf a.opt.toNat 6 4)))

/-- A request for a line arrives: the line's entries stay open for 64 ns more (R315). -/
def State.touchLine (s : State) (e tag line : Nat) : State :=
  s.modOculus e fun o => { o with comb := o.comb.map fun c =>
    if c.tag = tag ∧ c.line = line then { c with last := s.clk.elapsed } else c }

/-- An entry takes in its latest request: it closes at GEN_MAX requests, or waits, full, for the survivor of its line (R315). -/
def State.fillComb (s : State) (e : Nat) (c : Comb) : State :=
  if s.combFull e c then (s.closeComb e c).getD s else s

/-- An admitted request goes to its die at once: R313's engine is off, the window's NC is set, or its operation never combines. -/
def State.direct (s : State) (e : Nat) (k : Pkt) (w : Nat) : Bool :=
  !s.flag (Loc.ocCombCtl e) 1 || (s.winWord k.jobTag.toNat w 1).bit 19 || (combClass k).isNone

/-- An admitted request taken into the combining buffer; nothing while there is no record or no line entry free (R312 to R315). -/
def State.joinComb (s : State) (e : Nat) (k : Pkt) (w : Nat) : Option State :=
  let tag := k.jobTag.toNat
  let jl := k.addr.toNat / 256
  let win := s.window tag w
  let s := s.touchLine e tag jl
  let o := s.oculus e
  let cls := (combClass k).getD 0
  if o.records ≥ 65536 then none else
  match o.comb.find? fun c => c.tag == tag && c.line == jl && c.win == win && c.cls == cls && !s.combFull e c &&
      c.pkts.all fun j => joinTarget j k with
  | some c =>
    let c' := { c with pkts := c.pkts ++ [k] }
    let s := s.bump (ocPage e 0xB) 4 cls 1 (s.tagOwner tag)
    some ((s.modOculus e fun o => { o with comb := o.comb.map fun x => if x = c then c' else x }).fillComb e c')
  | none =>
    if o.comb.length ≥ 512 then none else
    let c : Comb := { tag := tag, line := jl, win := win, cls := cls, pkts := [k], last := s.clk.elapsed }
    some ((s.modOculus e fun o => { o with comb := o.comb ++ [c] }).fillComb e c)

/-- A request that passed R307: sent to its die or answered at once, or taken into the combining buffer; nothing while it must
wait in the input buffer. -/
def State.takeReq (s : State) (e : Nat) (k : Pkt) (w : Nat) : Option State :=
  if s.direct e k w then
    (s.letIn e k w none).map fun r =>
      match r.2 with
      | none => r.1
      | some st => r.1.tellReq e k none st []
  else s.joinComb e k w

/-- A request of another device, or of a die by the own device's ID, at its target: checked, answered or taken in (R285, R307). -/
def State.request (s : State) (e : Nat) (k : Pkt) (op : Nat) : State :=
  if k.op ≠ BitVec.ofNat 6 op ∨ (s.oculus e).out ≠ 0 then s else
  if !s.isOwn k.dstDev.toNat then s.passOn e 0 k else
  -- the completion of a sealed request is sealed: its header keeps TAGF
  let go (t : State) (k' : Pkt) (w : Nat) : State :=
    match t.takeReq e { k' with tagf := k.tagf } w with
    | some t => t.settleAll
    | none => s
  match (s.takeHeld k).checkReq e k with
  | .fail t st => (t.answer e k st []).settleAll
  | .land t k' => go t k' 0
  | .pass t k' w => go t k' w

/-- FAB_LOAD (R301, R307). -/
def execFabLoad (e : Side) (k : Pkt) (s : State) : Host.Outcome State Fault Refusal := .next (s.request (sideNat e) k 1)

/-- FAB_STORE (R301, R307). -/
def execFabStore (e : Side) (k : Pkt) (s : State) : Host.Outcome State Fault Refusal := .next (s.request (sideNat e) k 2)

/-- STORE_MASKED (R301, R307). -/
def execStoreMasked (e : Side) (k : Pkt) (s : State) : Host.Outcome State Fault Refusal := .next (s.request (sideNat e) k 3)

/-- ATOMIC (R310, R307). -/
def execAtomic (e : Side) (k : Pkt) (s : State) : Host.Outcome State Fault Refusal := .next (s.request (sideNat e) k 4)

/-- REDUCE (R311, R307). -/
def execReduce (e : Side) (k : Pkt) (s : State) : Host.Outcome State Fault Refusal := .next (s.request (sideNat e) k 5)

/-- MC_STORE (R292, R317): a request that a die's FOP issued, or another request of this device, is expanded. -/
def execMcStore (e : Side) (k : Pkt) (s : State) : Host.Outcome State Fault Refusal :=
  let e := sideNat e
  if k.op ≠ 6 ∨ (s.oculus e).out ≠ 0 then .next s else
  match (s.oculus e).txns.find? fun t => t.pkt.op == 6 && t.copies.isEmpty && t.pkt.addr == k.addr && t.pkt.opt == k.opt &&
      t.pkt.jobTag == k.jobTag && t.pkt.data == k.data with
  | some t => .next ((s.expandMc e t).settleAll)
  | none =>
    if !formOk k ∨ (s.oculus e).txns.length ≥ 32768 then .next s else
    match s.freeSeq e with
    | none => .next s
    | some i =>
      let q : Pkt := { k with srcDev := BitVec.ofNat 16 s.ownDev, seq := BitVec.ofNat 16 (i + 32768 * e) }
      let u := s.openTxn (i + 32768 * e) q (.absorbed [])
      match u.txn (i + 32768 * e) with
      | some t => .next ((u.expandMc e t).settleAll)
      | none => .next s

/-- MC_STORE_COPY (R317, R318): a copy arrives at its target. -/
def execMcStoreCopy (e : Side) (k : Pkt) (s : State) : Host.Outcome State Fault Refusal :=
  let e := sideNat e
  if k.op ≠ 6 ∨ (s.oculus e).out ≠ 0 then .next s else
  if !s.isOwn k.dstDev.toNat then .next (s.passOn e 0 k) else
  let r := (s.takeHeld k).mcCopy e k
  match r.2 with
  | some st => .next ((r.1.answer e k st []).settleAll)
  | none => .next r.1

/-- MSG (R82, R206, R307). -/
def execMsg (e : Side) (k : Pkt) (s : State) : Host.Outcome State Fault Refusal := .next (s.request (sideNat e) k 7)

/-- TALLY (R82, R206, R307). -/
def execTally (e : Side) (k : Pkt) (s : State) : Host.Outcome State Fault Refusal := .next (s.request (sideNat e) k 8)

/-- SIGNAL (R301, R309): INC is added at the tag's home; it waits while the home is in reset (R448). -/
def execSignal (e : Side) (k : Pkt) (s : State) : Host.Outcome State Fault Refusal := .next (s.request (sideNat e) k 9)

/-- AWAIT_NOTIFY (R309): the awaiting sequencer learns that its await was satisfied at its home. -/
def execAwaitNotify (n : Fin 16) (slot : Fin 1024) (second : Bool) (s : State) : Host.Outcome State Fault Refusal :=
  match (s.spire n).notes.find? fun x => x.1 == slot.val && x.2.2 == second with
  | none => .next s
  | some x =>
    .next ((s.modSpire n fun sp =>
      { sp with
        notes := sp.notes.erase x
        window := sp.window.map fun w =>
          if w.slot = slot.val ∧ w.t0 = x.2.1 then (if second then { w with a1 := true } else { w with a0 := true }) else w
        }).settleAll)

/-- COMB_ENTRY_CLOSE (R315): an entry whose line has had no arrival for 64 ns closes, once no survivor of its line is
outstanding. -/
def execCombEntryClose (e : Side) (tag : BitVec 12) (line : Nat) (s : State) : Host.Outcome State Fault Refusal :=
  let e := sideNat e
  match (s.oculus e).comb.find? fun c => c.tag == tag.toNat && c.line == line with
  | none => .next s
  | some c =>
    match s.waitUntil (c.last + 64) with
    | none => .next s
    | some t => match t.closeComb e c with
      | some u => .next u.settleAll
      | none => .next s

/-! ### Completions (R303, R314) -/

/-- A completion as the issuer reads it: opened when sealed. -/
def State.openComp (s : State) (k : Pkt) : Option (State × Pkt) := if k.tagf then s.openPkt false k else some (s, k)

/-- A completion reaches the device: it goes to the issuing oculus by its number; one for nobody is discarded and counted. -/
def State.completion (s : State) (e : Nat) (k : Pkt) : State :=
  if (s.oculus e).out ≠ 0 then s else
  if !s.isOwn k.dstDev.toNat then s.passOn e 1 k else
  match (s.takeHeld k).openComp k with
  | none => (s.takeHeld k).bump (ocPage e 0xB) 3 0 1 (s.tagOwner k.jobTag.toNat)
  | some (s, k) =>
    let st := k.status.toNat
    match s.txn k.seq.toNat with
    | none => s.ocEvent e 0xB 0 1
    | some t =>
      if t.pkt.op = 6 then (s.mcAnswer t.seq k.mcTgt.toNat st).settleAll
      else (s.comeBack t k.addr.toNat st (if k.op = 0x21 then dataFlits k else [])).settleAll

/-- COMP (R314): a completion without data. -/
def execComp (e : Side) (k : Pkt) (s : State) : Host.Outcome State Fault Refusal :=
  if k.op ≠ 0x20 then .next s else .next (s.completion (sideNat e) k)

/-- COMP_DATA (R303): a completion with data. -/
def execCompData (e : Side) (k : Pkt) (s : State) : Host.Outcome State Fault Refusal :=
  if k.op ≠ 0x21 then .next s else .next (s.completion (sideNat e) k)

/-! ### Multicast (R318, R319) -/

/-- MC_RETRY_RESEND (R318): copies answered RETRY leave again, MC_CTL.RETRY after the latest answer. -/
def execMcRetryResend (e : Side) (seq : BitVec 16) (s : State) : Host.Outcome State Fault Refusal :=
  let e := sideNat e
  match (s.oculus e).txns.find? fun t => t.seq == seq.toNat with
  | none => .next s
  | some t =>
    let due := (t.copies.filter (·.again)).map (·.sentAt)
    match due with
    | [] => .next s
    | d :: ds =>
      match s.waitUntil (ds.foldl max d + 100 * s.fld (Loc.ocMcCtl e) 15 8) with
      | none => .next s
      | some s =>
        let t' := { t with copies := t.copies.map fun c => { c with again := false } }
        let s := s.setTxn t'
        .next ((t.copies.zipIdx.foldl (fun s c => if c.1.again then s.sendCopy e t.pkt c.2 c.1.dev else s) s).settleAll)

/-- MC_TIMEOUT (R319): MC_CTL.TIMEOUT after expansion the MC_STORE completes with its bitmap. -/
def execMcTimeout (e : Side) (seq : BitVec 16) (s : State) : Host.Outcome State Fault Refusal :=
  let e := sideNat e
  match (s.oculus e).txns.find? fun t => t.seq == seq.toNat && !t.copies.isEmpty with
  | none => .next s
  | some t =>
    match s.waitUntil (t.opened + 1000 * s.fld (Loc.ocMcCtl e) 7 0) with
    | none => .next s
    | some s => .next (((s.bump (ocPage e 0xB) 7 0 1 (s.tagOwner t.pkt.jobTag.toNat)).mcDone t).settleAll)

/-- DUP_FILTER_EXPIRY (R318): a filter entry is released. -/
def execDupFilterExpiry (srcDev seq : BitVec 16) (s : State) : Host.Outcome State Fault Refusal :=
  match s.dups.find? fun d => d.src == srcDev.toNat && d.seq == seq.toNat with
  | none => .next s
  | some d =>
    match s.waitUntil d.until_ with
    | none => .next s
    | some s => .next { s with dups := s.dups.erase d }

/-! ### Windows and counts (R305, R306, R309) -/

/-- A value that waits for the tick at a key, else the value in force. -/
def State.pendView (s : State) (loc : Loc) (idx : Nat) : Nat :=
  let v := (s.get loc idx).toNat
  ((s.latched ++ s.pend).filter fun p => p.key == rkey loc idx).foldl (fun v p => v - (v &&& p.mask) + p.val) v

/-- A word of a window as the check of R306 sees it: accepted by the load under way, pending, or in force. -/
def State.winSeen (s : State) (i k : Nat) : Nat :=
  match ((s.oculus 0).winLoad.elim [] (·.got)).find? fun g => g.1 == i with
  | some g => g.2.getD k 0
  | none => s.pendView (Loc.ocWinData 0 k) i

/-- The commit check of a window (R306): the reject code, if it fails. -/
def State.winCheck (s : State) (tag win : Nat) (w : List Nat) : Option Nat :=
  let a := w.getD 0 0
  let b := w.getD 1 0
  let c := w.getD 2 0
  let size := bitsOf b 18 0
  let jb := bitsOf a 31 5
  let db := bitsOf c 18 0
  if bitsOf b 31 20 ≠ 0 ∨ bitsOf c 31 19 ≠ 0 ∨ w.getD 3 0 ≠ 0 then some 1
  else if !bitOf a 0 then none
  else
    let clash := (List.range 16).any fun i =>
      let x := s.winSeen (tag * 16 + i) 0
      let y := bitsOf (s.winSeen (tag * 16 + i) 1) 18 0
      i != win && bitOf x 0 && decide (bitsOf x 31 5 < jb + size ∧ jb < bitsOf x 31 5 + y)
    if size = 0 ∨ size > 393216 ∨ db + size > 393216 ∨ jb + size > 2 ^ 27 ∨ clash then some 2
    else
      let p := s.tagOwner tag
      let g0 := db / 512
      let g1 := (db + size - 1) / 512
      if p < 8 ∧ (List.range (g1 + 1 - g0)).all fun i => s.granOwner (g0 + i) == p then none else some 4

/-- A window's words made pending (R305). -/
def State.pendWindow (s : State) (i : Nat) (w : List Nat) : State :=
  w.zipIdx.foldl (fun s e => s.pendWord (Loc.ocWinData 0 e.2) (BitVec.ofNat 32 e.1) i) s

/-- A staging word of the window table written; WIN_DATA3 commits (R306). Both oculi hold the one copy. -/
def State.winDataOp (s : State) (k : Nat) (v : Word) : WR :=
  if k < 3 then .ok (s.put (Loc.ocWinData 0 k) v staging) else
  let sel := s.get (Loc.ocWinSel 0)
  let tag := sel.bits 11 0
  let win := sel.bits 15 12
  let w := s.staged (Loc.ocWinData 0) 4 v
  match s.winCheck tag win w with
  | some c => .error c
  | none =>
    let s := s.pendWindow (tag * 16 + win) w
    if !sel.bit 16 then .ok s else
    let i := (tag * 16 + win + 1) % 65536
    .ok (s.put (Loc.ocWinSel 0) ((sel.put 15 12 (i % 16)).put 11 0 (i / 16)))

/-- WINDOW_COMMIT: WIN_DATA3 is written. -/
def execWindowCommit (f : Func) (e : Side) (v : Word) (s : State) : Host.Outcome State Fault Refusal :=
  .next (s.write f (Loc.ocWinData (sideNat e) 3) v fun s => s.winDataOp 3 v)

/-- WIN_LOAD written (R31, R306). -/
def State.winLoadOp (s : State) (f : Func) (v : Word) : WR :=
  let loc := Loc.ocWinLoad 0
  let first := s.fld (Loc.ocWinFirst 0) 15 0
  let count := v.bits 16 0
  let addr := s.addrOf (Loc.ocWinBaseLo 0)
  match s.bulkCheck loc v addr first count 65536 65536 16 with
  | some c => .error c
  | none =>
    if !v.bit 31 then .ok (s.bulkStore loc v false) else
    .ok ((s.bulkStore loc v true).startLoad .win { next := first, left := count, addr := addr, f := f })

/-- WIN_LOAD: WIN_LOAD is written with GO = 1. -/
def execWinLoad (f : Func) (e : Side) (v : Word) (s : State) : Host.Outcome State Fault Refusal :=
  let v := v.put 31 31 1
  .next (s.write f (Loc.ocWinLoad (sideNat e)) v fun s => s.winLoadOp f v)

/-- The next entry of a load of window words, checked. -/
def State.winGot (s : State) (b : BulkLoad) (r : Option (List Nat)) : State × List (Nat × List Nat) :=
  match r with
  | none => (s, b.got)
  | some w =>
    match s.winCheck (b.next / 16) (b.next % 16) w with
    | some c => (s.settle b.f (Loc.ocWinLoad 0) (.error c), b.got)
    | none => (s, b.got ++ [(b.next, w)])

/-- WIN_LOAD_ENTRY (R306): an entry arrives and is checked; all become pending when the last has. -/
def execWinLoadEntry (_e : Side) (s : State) : Host.Outcome State Fault Refusal :=
  match (s.oculus 0).winLoad with
  | none => .next s
  | some b =>
    match b.entry 16 with
    | none => .next (s.askLoad .win)
    | some r =>
      let x := s.winGot b r
      let nx := b.step 16 65536
      let t := x.1.loadNext .win (Loc.ocWinLoad 0) (nx.map fun n => { n with got := x.2 })
      .next (if nx.isSome then t else x.2.foldl (fun s g => s.pendWindow g.1 g.2) t)

/-- CS_VALUE written (R309): only while the tag's partition is stopped, for a tag with counting slots. -/
def State.csValueOp (s : State) (e : Nat) (v : Word) : WR :=
  let tag := s.fld (Loc.ocCsSel e) 11 0
  let slot := s.fld (Loc.ocCsSel e) 19 12
  let p := s.tagOwner tag
  if p ≥ 8 ∨ s.pfState p ≠ 0 ∨ !s.tagSlots tag then .error 5 else .ok (s.setCount tag slot v.toNat)

/-- CS_VALUE_WRITE: CS_VALUE is written. -/
def execCsValueWrite (f : Func) (e : Side) (v : Word) (s : State) : Host.Outcome State Fault Refusal :=
  .next ((s.write f (Loc.ocCsValue (sideNat e)) v fun s => s.csValueOp (sideNat e) v).settleAll)

end Sys2Proof.Machine
end

