-- ==== Sys2Proof/Machine/Parts.lean ====
section
/-! DEFINITION. What a tick and its cutoff do to a partition: frames advance, slip, fail, start, stop (R41 to R51). -/

namespace Sys2Proof.Machine

/-- INFO of codes 0x01 and 0x02: first late slot and its spire. -/
def State.lateInfo (s : State) (p : Nat) : Nat := (s.part p).lateSlot + 65536 * (s.part p).lateSpire

/-- A frame of a spire is given up: undispatched slots go with their signals, dispatched ones run on (R46). -/
def State.dropSlots (s : State) (n : Nat) : State :=
  s.modSpire n fun sp =>
    { sp with
      run := none
      window := (sp.window.filter fun e => e.fading || (e.elig && decide (0 < e.sent))).map fun e => { e with fading := true } }

/-- A partition's frame fails: no new programme starts, and the failure is logged (R46). -/
def State.failFrame (s : State) (p : Nat) : State :=
  let info := s.lateInfo p
  let s := (s.spiresOf p).foldl (fun s n => (s.showLate n).dropSlots n) s
  let s := (s.setPfState p 3).setFld (Loc.ptPfSts p) 11 8 0
  let s := s.modPart p fun x => { x with late := false, invalid := false, slip := false, fail := false }
  (s.postGlobal 2 0x02 p info (some p)).seqSettle

/-- A partition skips the tick: the deadlines of the frame move one period later (R44, R46). -/
def State.slipFrame (s : State) (p : Nat) : State :=
  let t := s.period
  let s := (s.spiresOf p).foldl (fun s n => (s.modRun n fun r => { r with lates := [] }).modSpire n fun sp =>
    { sp with rec_ := { sp.rec_ with moved := sp.rec_.moved + t } }) s
  s.postGlobal 0 0x01 p (s.lateInfo p) (some p)

/-- A spire starts a programme at the latest tick (R34, R48). -/
def State.startProg (s : State) (n first : Nat) : State :=
  if (s.spire n).out != 0 then s else
  let t := s.clk.lastTick
  let h := s.period - 100
  let s := s.modSpire n fun sp =>
    { sp with run := some { first := first, t0 := t, next := first }, rec_ := { t0 := t, horizon := h } }
  s.put (Loc.spEphCur n) (BitVec.ofNat 32 (first + 65536 * (s.progSlots n first).getLastD first))

/-- The frame that has ended, as the spire's registers show it (R41). -/
def State.frameRecord (s : State) (n : Nat) : State :=
  let r := (s.spire n).rec_
  ((s.modSpire n fun sp => { sp with prev := r }).showRecord n r).putLate n r.late

/-- The partition's current frame began at the latest tick. -/
def State.newFrame (s : State) (p : Nat) : State :=
  let t := s.clk.lastTick
  s.modPart p fun x => { x with t0 := t }

/-- A partition advances: its records are shown and its next programmes start (R29, R41, R44). -/
def State.advanceFrame (s : State) (p : Nat) : State :=
  let s := ((s.setPfState p 1).addWrap (Loc.ptPfFrames p) 31 0 1).newFrame p
  (s.spiresOf p).foldl (fun s n =>
    match (s.spire n).run with
    | none => s
    | some r => (s.frameRecord n).startProg n (if r.ended then r.chain else s.fld (Loc.spEphNext n) 9 0)) s

/-- A fresh seed for a spire whose RNG_CTL.MODE is 0 (R117). -/
def State.freshSeed (s : State) (n : Nat) : State :=
  if s.flag (Loc.spRngCtl n) 0 then s else let d := s.draw; d.2.put64 (Loc.spRngSeedLo n) d.1

/-- A start or a resume takes effect (R48, R49): the partition advances again, and the frame that failed or was stopped is
on record (R41). -/
def State.startPart (s : State) (p : Nat) (fresh : Bool) : State :=
  let s := if fresh then (s.put (Loc.ptPfFrames p) 0).put (Loc.ptPfLates p) 0 else s
  let s := ((s.setPfState p 1).setFld (Loc.ptPfSts p) 11 8 0).newFrame p
  let s := s.modPart p fun x => { x with late := false, invalid := false, slip := false, fail := false }
  (s.spiresOf p).foldl (fun s n =>
    ((if fresh then s.freshSeed n else s).frameRecord n).startProg n (s.fld (Loc.spEphNext n) 9 0)) s

/-- A stop takes effect (R48, R49). -/
def State.stopPart (s : State) (p : Nat) : State :=
  let st := s.pfState p
  let s := s.setFld (Loc.ptPfSts p) 11 8 0
  let s := if st = 0 ∨ st = 3 then s else (s.spiresOf p).foldl (fun s n => s.showLate n) s
  if st = 0 ∨ st = 3 then s.setPfState p 0 else (s.setPfState p 4).drainCheck p

/-- MODE of CLK_CTL as the coming tick makes it: the last value latched. -/
def State.modeWanted (s : State) : Bool :=
  s.latched.foldl (fun m x => if x.key = rkey Loc.glClkCtl 0 ∧ x.mask % 2 = 1 then x.val % 2 == 1 else m)
    (s.flag Loc.glClkCtl 0)

/-- A start of the partition may take effect at this tick: no array power cycle of its spires runs (R425), no mode change is
in progress or takes effect at the tick (R337). -/
def State.startReady (s : State) (p : Nat) : Bool :=
  !s.flag Loc.glClkSts 1 && s.modeWanted == s.meshOn && (s.spiresOf p).all fun n => !s.flag Loc.seSecSts (10 + n)

/-- The cutoff latches a partition's slip or failure; `stop` when a stop takes effect at the tick (R44 to R46, R50, R51). A
late event of a draining partition has no effect (R50); an invalid slot fails its frame all the same (R51). -/
def State.partCutoff (s : State) (p : Nat) (stop : Bool) : State :=
  let x := s.part p
  let st := s.pfState p
  if st ≠ 1 ∧ st ≠ 2 then
    s.modPart p fun x => { x with late := false, invalid := false, slip := false, fail := x.invalid && st == 4 } else
  let run := s.fld (Loc.ptPfSts p) 11 8
  let late := x.late && !stop
  let fail := x.invalid || (late && (s.flag (Loc.ptPfCtl p) 4 || decide (s.fld (Loc.ptPfCtl p) 11 8 < run + 1)))
  let slip := late && !fail
  let s := s.modPart p fun x => { x with late := false, invalid := false, slip := slip, fail := fail }
  if slip then (s.setPfState p 2).setFld (Loc.ptPfSts p) 11 8 (run + 1)
  else s.setFld (Loc.ptPfSts p) 11 8 0

/-- A tick acts on a partition whose command of this tick is `cmd`, 0 for none (R44 to R50). -/
def State.partTick (s : State) (p cmd : Nat) : State :=
  let x := s.part p
  let s := s.modPart p fun x => { x with slip := false, fail := false }
  let st := s.pfState p
  let s := if x.fail && (st == 1 || st == 2 || st == 4) then s.failFrame p else s
  let st := s.pfState p
  if cmd = 2 then s.stopPart p
  else if cmd ≠ 0 ∧ (st = 0 ∨ st = 3) then (if s.defined p then s.startPart p (cmd = 1) else s)
  else if st ≠ 1 ∧ st ≠ 2 then s
  else if x.slip then s.slipFrame p
  else s.advanceFrame p

end Sys2Proof.Machine
end

