-- ==== Sys2Proof/Machine/Faults.lean ====
section
/-! DEFINITION. The fault service, the device log, completion timeouts (R429 to R439, R450). -/

namespace Sys2Proof.Machine

/-! ### Records (Table FA-3, R430) -/

/-- The four words of a queue entry. -/
def ErrEntry.words (e : ErrEntry) (fwd : Bool) : List Nat :=
  [e.cls + 4 + 8 * b2n fwd + 16 * (e.part % 16) + 256 * (e.code % 256) + 65536 * (min 255 e.rep) + 16777216 * (e.unit % 256),
   e.time % 2 ^ 32, e.info % 2 ^ 32, e.info / 2 ^ 32 % 2 ^ 32]

/-- The eight words of a log record. -/
def LogRec.words (r : LogRec) : List Nat :=
  r.e.words r.prior ++ [r.e.time / 2 ^ 32 % 2 ^ 32, r.e.page % 65536 + 65536 * b2n r.ack, r.e.last % 2 ^ 32, r.seq % 2 ^ 32]

/-! ### Handling (R432 to R438) -/

/-- The newest record into which an entry merges, as its place (R434). -/
def mergePlace (l : List LogRec) (e : ErrEntry) : Option Nat :=
  (List.range l.length).reverse.find? fun i =>
    match l[i]? with
    | some r => r.e.same e && r.e.page == e.page && !r.ack
    | none => false

/-- A dropped record is counted by its class; LOG_DROPS has no field for fatal ones. -/
def State.logDrop (s : State) (cls : Nat) : State :=
  if cls < 3 then s.addSat Loc.glLogDrops (8 * cls + 7) (8 * cls) 1 else s

/-- A new record at the end of the log, with the room that R436 makes. -/
def State.logAppend (s : State) (e : ErrEntry) : State :=
  let l := s.faults.log
  let c := lowestClass (l.map (·.e.cls))
  let full := decide (256 ≤ l.length)
  if full && decide (e.cls < c) then s.logDrop e.cls else
  let s := if full then s.logDrop c else s
  let n := s.faults.nextSeq
  let s := s.modFaults fun f =>
    { f with log := (if full then dropClass (fun (r : LogRec) => r.e.cls) c l else l) ++ [{ e := e, seq := n }]
             nextSeq := n % 4294967295 + 1 }
  let s := if 1 ≤ e.cls ∨ s.flag Loc.glFaultCtl 19 then s.irq 0 0 else s
  if e.cls = 3 ∧ s.flag Loc.moMonCtl 1 then s.pendField Loc.moMonCtl 0 0 1 else s

/-- An entry copied into the log: it merges, or is a new record (R430, R434). -/
def State.logEntry (s : State) (e : ErrEntry) : State :=
  match mergePlace s.faults.log e with
  | some i => s.modFaults fun f =>
      { f with log := lmod f.log i fun r =>
          { r with e := { r.e with rep := min 255 (r.e.rep + e.rep + 1), last := e.last } } }
  | none => (s.logAppend e).managed

/-- ERROR_HANDLE (R432): the fault service of the active belfry takes the next head; the action that its rule leaves to the
belfry stands with that rule. -/
def execErrorHandle (s : State) : Host.Outcome State Fault Refusal :=
  if s.holder.isNone then .next s else
  match s.nextEntry with
  | none => .next s
  | some e => .next ((s.setQueue e.page ((s.queue e.page).drop 1)).logEntry e)

/-! ### Acknowledgement (R438) -/

/-- LOG_ACK written: the selected record is acknowledged, then the acknowledged ones are removed. PRIOR reads 1 while
restored records are held. -/
def State.logAckOp (s : State) (v : Word) : WR :=
  match formCheck (locFields Loc.glLogAck) v with
  | some c => .error c
  | none =>
    let i := s.fld Loc.glLogSel 7 0
    let s := if v.bit 0 then s.modFaults fun f => { f with log := lmod f.log i fun r => { r with ack := true } } else s
    if !v.bit 1 then .ok s else
    let s := s.modFaults fun f => { f with log := f.log.filter fun r => !r.ack }
    if s.faults.log.any (·.prior) || !s.flag Loc.glFaultSts 1 then .ok s
    else .ok ((s.setFlag Loc.glFaultSts 1 false).modFaults fun f => { f with saved := [] })

/-- LOG_ACK: LOG_ACK is written with ACK = 1. -/
def execLogAck (f : Func) (v : Word) (s : State) : Host.Outcome State Fault Refusal :=
  let v := v.put 0 0 1
  .next (s.write f Loc.glLogAck v fun s => s.logAckOp v)

/-- LOG_CLEAR: LOG_ACK is written with CLEAR = 1. -/
def execLogClear (f : Func) (v : Word) (s : State) : Host.Outcome State Fault Refusal :=
  let v := v.put 1 1 1
  .next (s.write f Loc.glLogAck v fun s => s.logAckOp v)

/-! ### Completion timeout (R439) -/

/-- Station that issued a fabric transaction. -/
def txnStation (t : Txn) : Nat :=
  match t.who with
  | .fop n _ => spStation n
  | .msg n _ => spStation n
  | .signal n _ _ => spStation n
  | .absorbed _ => if t.seq / 32768 % 2 = 0 then 16 else 26
  | .link _ src _ => src

/-- The partition whose transaction timed out. -/
def State.txnPart (s : State) (t : Txn) : Nat :=
  match t.who with
  | .fop n _ => s.spireOwner n
  | .msg n _ => s.spireOwner n
  | .signal n _ _ => s.spireOwner n
  | _ => s.tagOwner t.pkt.jobTag.toNat

/-- Parts of a message that are not answered. -/
def OutMsg.openParts (m : OutMsg) : List Nat := (List.range m.n).filter fun i => !m.got.any fun g => g.1 == i

/-- A fabric transaction ends with 0x35. -/
def State.txnTimeout (s : State) (t : Txn) : State :=
  let s := s.postGlobal 2 0x0B (txnStation t) (t.pkt.dstDev.toNat + t.seq % 4096 * 65536) (some (s.txnPart t))
  match t.who with
  | .msg n id =>
    match (s.spire n).msg id with
    | some m => m.openParts.foldl (fun s i => s.partAnswer n id i 0x35 t.seq) s
    | none => s.dropTxn t.seq
  | _ => s.finishTxn t 0x35 []

/-- The partition that a transaction inside the device is for: that of the spire that has it open, or of the tag of a request of the
fabric (R439). -/
def State.callPart (s : State) (c : Call) : Nat :=
  match stationSpire c.st, c.who with
  | some n, _ => s.spireOwner n
  | none, .req _ k _ => s.tagOwner k.jobTag.toNat
  | none, .comb _ g _ => s.tagOwner g.tag
  | none, .copy _ b => s.tagOwner b.1.jobTag.toNat
  | none, _ => 8

/-- A transaction that a station has open inside the device ends with 0x35 (R439). -/
def State.callTimeout (s : State) (c : Call) : State :=
  (s.postGlobal 2 0x0B c.st (c.dst + c.tid * 65536) (some (s.callPart c))).answerCall c.st c.tid 0x35 []

/-- A message for the sender's own spire, whose parts are no transactions on a link, ends its open parts with 0x35. -/
def State.msgTimeout (s : State) (n id : Nat) (m : OutMsg) : State :=
  let s := s.postGlobal 2 0x0B (spStation n) (spStation m.dst + id % 4096 * 65536) (some (s.spireOwner n))
  m.openParts.foldl (fun s i => s.msgAnswer n id i 0x35) s

/-- COMPLETION_TIMEOUT (R439): no completion within CTO_FAB of a fabric transaction's acceptance, by its number, or within
CTO_INT of a transaction inside the device, by 65,536 × (station + 32) + its TID, or of a message for the sender's own spire, by
65,536 × (spire + 1) + its number. Multicast copies have their own timeout. -/
def execCompletionTimeout (txn : Nat) (s : State) : Host.Outcome State Fault Refusal :=
  if txn < 65536 then
    match s.txn txn with
    | none => .next s
    | some t =>
      if !t.copies.isEmpty then .next s else
      match s.waitUntil (t.opened + 1000000 * s.fld Loc.glFaultCtl 17 10) with
      | none => .next s
      | some s => .next ((s.txnTimeout t).settleAll)
  else if 32 * 65536 ≤ txn then
    match s.callAt (txn / 65536 - 32) (txn % 65536) with
    | none => .next s
    | some c =>
      match s.waitUntil (c.sent + 10000 * s.fld Loc.glFaultCtl 9 0) with
      | none => .next s
      | some s => .next ((s.callTimeout c).settleAll)
  else
    let n := txn / 65536 - 1
    let id := txn % 65536
    match (s.spire n).msg id with
    | none => .next s
    | some m =>
      if m.dev.isSome ∨ m.dst ≠ n then .next s else
      match s.waitUntil (m.sent + 10000 * s.fld Loc.glFaultCtl 9 0) with
      | none => .next s
      | some s => .next ((s.msgTimeout n id m).settleAll)

end Sys2Proof.Machine
end

