-- ==== Sys2Proof/Machine/Landing.lean ====
section
/-! DEFINITION. Landing zones, the expert map, message parts at the landing engine and at their sender
(R80 to R87). -/

namespace Sys2Proof.Machine

/-! ### Zone and expert map tables (R80, R81, R87) -/

/-- A word of the zone window written; ZONE_DATA3 commits all four as pending (R80, R81). -/
def State.zoneDataOp (s : State) (n k : Nat) (v : Word) : WR :=
  if k < 3 then .ok (s.put (Loc.spZoneData n k) v staging) else
  let w := s.staged (Loc.spZoneData n) 4 v
  match s.zoneCheck (s.spireOwner n) w with
  | some c => .error c
  | none =>
    let z := s.fld (Loc.spZoneSel n) 7 0
    .ok (w.zipIdx.foldl (fun s e =>
      s.pendWord (Loc.spZoneData n e.2) (BitVec.ofNat 32 e.1) z (s.pendPart (spPage n 5))) s)

/-- ZONE_COMMIT: ZONE_DATA3 is written. -/
def execZoneCommit (f : Func) (n : Fin 16) (v : Word) (s : State) : Host.Outcome State Fault Refusal :=
  .next (s.write f (Loc.spZoneData n 3) v fun s => s.zoneDataOp n 3 v)

/-- A map entry has a reserved bit set (Table SP-10). -/
def xreserved (w : Nat) : Bool := bitsOf w 30 29 != 0

/-- XMAP_DATA written (R87): pending, and the index advances. -/
def State.xmapDataOp (s : State) (n : Nat) (v : Word) : WR :=
  if xreserved v.toNat then .error 1 else
  let i := s.fld (Loc.spXmapSel n) 11 0
  .ok ((s.pendWord (Loc.spXmapData n) v i (s.pendPart (spPage n 4))).autoInc (Loc.spXmapSel n) 11 4096)

/-- XMAP_WRITE: XMAP_DATA is written. -/
def execXmapWrite (f : Func) (n : Fin 16) (v : Word) (s : State) : Host.Outcome State Fault Refusal :=
  .next (s.write f (Loc.spXmapData n) v fun s => s.xmapDataOp n v)

/-- XMAP_LOAD written (R31, R87). -/
def State.xmapLoadOp (s : State) (f : Func) (n : Nat) (v : Word) : WR :=
  let loc := Loc.spXmapLoad n
  let first := v.bits 11 0
  let count := v.bits 24 12
  let addr := s.addrOf (Loc.spXmapLoadAddrLo n)
  match s.bulkCheck loc v addr first count 4096 4096 4 with
  | some c => .error c
  | none =>
    if !v.bit 31 then .ok (s.bulkStore loc v false) else
    .ok ((s.bulkStore loc v true).startLoad (.xmap n) { next := first, left := count, addr := addr, f := f })

/-- XMAP_LOAD: XMAP_LOAD is written with GO = 1. -/
def execXmapLoad (f : Func) (n : Fin 16) (v : Word) (s : State) : Host.Outcome State Fault Refusal :=
  let v := v.put 31 31 1
  .next (s.write f (Loc.spXmapLoad n) v fun s => s.xmapLoadOp f n v)

/-- The next entry of a load of the expert map, checked. -/
def State.xmapGot (s : State) (n : Nat) (b : BulkLoad) (r : Option (List Nat)) : State × List (Nat × List Nat) :=
  match r with
  | none => (s, b.got)
  | some w =>
    if xreserved (w.getD 0 0) then (s.settle b.f (Loc.spXmapLoad n) (.error 1), b.got)
    else (s, b.got ++ [(b.next, w)])

/-- XMAP_LOAD_ENTRY (R31, R87): an entry arrives; when the last has, all are pending for the tick after BUSY clears. -/
def execXmapLoadEntry (n : Fin 16) (s : State) : Host.Outcome State Fault Refusal :=
  match (s.spire n).xmapLoad with
  | none => .next s
  | some b =>
    match b.entry 4 with
    | none => .next (s.askLoad (.xmap n))
    | some r =>
      let x := s.xmapGot n b r
      let nx := b.step 4 4096
      let t := x.1.loadNext (.xmap n) (Loc.spXmapLoad n) (nx.map fun m => { m with got := x.2 })
      .next (if nx.isSome then t else x.2.foldl (fun s e =>
        s.pendWord (Loc.spXmapData n) (BitVec.ofNat 32 (e.2.getD 0 0)) e.1 (s.pendPart (spPage n 4))) t)

/-! ### Arrivals (R82, R85, R88) -/

/-- A part of the spire's own, which crosses no link, has its status (R85). Another spire's part arrives on its links, and has it by
the completion of its transaction. -/
def State.answerPart (s : State) (n : Nat) (m : MsgPart) (st : Nat) : State :=
  if !m.inside ∨ m.srcSpire.val ≠ n then s else
  match (s.spire n).msg m.msgId.toNat with
  | some o => if o.dev = none ∧ o.dst = n ∧ o.kind ≠ 3 then s.msgAnswer n o.id m.part st else s
  | none => s

/-- MESSAGE_PART_ARRIVAL (R85): a part reaches the landing engine. A part of the fabric counts as received by East. -/
def execMessagePartArrival (n : Fin 16) (m : MsgPart) (s : State) : Host.Outcome State Fault Refusal :=
  let r := s.landPart n m 0
  .next ((r.1.answerPart n m r.2).settleAll)

/-- The first tally of the spire's own, which crosses no link, to a zone, with this tag and count. -/
def State.findTally (s : State) (n zone tag count : Nat) : Option OutMsg :=
  (s.spire n).msgs.find? fun m =>
    m.kind == 3 && m.dev == none && m.dst == n && m.count == count && m.got.isEmpty &&
      m.parts.any fun p => p.zone.toNat == zone && p.jobTag.toNat == tag

/-- TALLY_LANDING (R82, R88): a tally adds its count without taking an entry. -/
def execTallyLanding (n : Fin 16) (zone : BitVec 8) (tag : BitVec 12) (count : BitVec 16) (s : State) :
    Host.Outcome State Fault Refusal :=
  match s.findTally n zone.toNat tag.toNat count.toNat with
  | some m =>
    let r := s.landTally n zone.toNat tag.toNat count.toNat (.spire n)
    .next ((r.1.msgAnswer n m.id 0 r.2).settleAll)
  | none => .next ((s.landTally n zone.toNat tag.toNat count.toNat (.fabric 0)).1.settleAll)

/-! ### Records (R85) -/

/-- MESSAGE_RECORD_TIMEOUT (R85): 10 ms after its first part a record that lacks parts is closed. -/
def execMessageRecordTimeout (n : Fin 16) (k : MsgKey) (s : State) : Host.Outcome State Fault Refusal :=
  match (s.spire n).landings.find? fun r => r.key == k with
  | none => .next s
  | some r =>
    if r.closed then .next s else
    match s.waitUntil (r.opened + 10000000) with
    | none => .next s
    | some s =>
      if r.refused ≠ 0 then .next (s.modSpire n fun sp => sp.dropLanding k) else
      let s := if r.tagged then s.tagWrite n (zoneOf r.cfg) (r.entry + 1) (r.tag + 2 ^ 63) else s
      .next (s.modSpire n fun sp => sp.setLanding { r with closed := true })

/-- FAULT_CTL.CTO_FAB in ns (R439). -/
def State.ctoFab (s : State) : Nat := s.fld Loc.glFaultCtl 17 10 * 1000000

/-- CLOSED_RECORD_EXPIRY (R85): a closed record is released 2 × CTO_FAB after its first part. -/
def execClosedRecordExpiry (n : Fin 16) (k : MsgKey) (s : State) : Host.Outcome State Fault Refusal :=
  match (s.spire n).landings.find? fun r => r.key == k with
  | none => .next s
  | some r =>
    if !r.closed then .next s else
    match s.waitUntil (r.opened + 2 * s.ctoFab) with
    | none => .next s
    | some s => .next (s.modSpire n fun sp => sp.dropLanding k)

/-- Interval at which a sender resends a part answered RETRY (R85). -/
def State.resendNs (s : State) (m : OutMsg) : Nat :=
  match m.dev with
  | none => 2000
  | some _ => s.fld (Loc.ocMcCtl (m.seq / 32768 % 2)) 15 8 * 100

/-- MESSAGE_PART_RESEND (R85): a part answered RETRY leaves again. -/
def execMessagePartResend (n : Fin 16) (msg part : Nat) (s : State) : Host.Outcome State Fault Refusal :=
  match (s.spire n).msg msg with
  | none => .next s
  | some m =>
    match m.again.find? fun g => g.1 == part with
    | none => .next s
    | some g =>
      match s.waitUntil (g.2 + s.resendNs m) with
      | none => .next s
      | some s =>
        let m := { m with again := m.again.filter fun g => g.1 != part }
        let s := s.modSpire n fun sp => sp.setMsg m
        match m.dev with
        | none => .next ((s.sendInside n m.id m.dst part).settleAll)
        | some dev =>
          match m.parts.find? fun p => p.part == part with
          | some p => .next ((s.sendPart n m.id m.seq dev m.dst (m.kind == 3) m.count p).settleAll)
          | none => .next s

end Sys2Proof.Machine
end

