-- ==== Sys2Proof/Machine/Resets.lean ====
section
/-! DEFINITION. Reset scopes, their checks, their effect at a tick and their end (R445 to R450). -/

namespace Sys2Proof.Machine

/-! ### The request (R445, R446) -/

/-- The target of a request lies inside a reset in progress. -/
def State.insideReset (s : State) (scope t : Nat) : Bool :=
  let spiresIn (l : List Nat) : Bool :=
    match scope with
    | 4 => l.contains t
    | 6 => (s.spiresOf t).any l.contains
    | _ => false
  s.faults.resets.any fun r =>
    match r.scope with
    | 3 => (scope == 3 && t == r.target) || (scope == 5 && t / 4 == r.target) || (scope == 7 && t / 16 == r.target) ||
        spiresIn ((List.range 8).map fun i => 8 * r.target + i)
    | 4 => spiresIn [r.target]
    | 6 => (scope == 6 && t == r.target) || spiresIn (s.spiresOf r.target)
    | k => scope == k && t == r.target

/-- TARGET is beyond the scope's range, or an undefined partition. -/
def State.badTarget (s : State) (scope t : Nat) : Bool :=
  match scope with
  | 3 => decide (2 ≤ t)
  | 4 => decide (16 ≤ t)
  | 5 => decide (8 ≤ t)
  | 6 => decide (8 ≤ t) || !s.defined t
  | _ => false

/-- The check of a request with GO = 1 (R446), in the order of the codes of R486: value, state, busy. -/
def State.resetCheck (s : State) (scope t : Nat) : Option Nat :=
  if s.badTarget scope t then some 2
  else if scope = 3 ∧ (s.role t = 3 ∨ s.halved) then some 5
  else if scope = 4 ∧ s.power.tripped.contains t then some 5
  else if s.insideReset scope t then some 6
  else none

/-- RESET_CTL written. Cold and module resets act at once, the others at a tick (R445, R446). -/
def State.resetCtlOp (s : State) (v : Word) : WR :=
  match formCheck (locFields Loc.glResetCtl) v with
  | some c => .error c
  | none =>
    let scope := v.bits 2 0
    let t := v.bits 7 3
    if !v.bit 31 ∨ scope = 0 then .ok s else
    match s.resetCheck scope t with
    | some c => .error c
    | none =>
      if scope = 1 then .ok s.coldReset
      else if scope = 2 then .ok s.moduleReset
      else
        let s := s.put Loc.glResetSts (BitVec.ofNat 32 (scope * 2 + t * 16))
        .ok (s.modFaults fun f => { f with resets := f.resets ++ [{ scope := scope, target := t }] })

/-- A write of RESET_CTL with GO = 1 and a given scope. -/
def State.resetCmd (s : State) (f : Func) (v : Word) (scope : Nat) : State :=
  let v := (v.put 31 31 1).put 2 0 scope
  s.write f Loc.glResetCtl v fun s => s.resetCtlOp v

/-- RESET_COLD: RESET_CTL is written with GO = 1 and SCOPE = 1. -/
def execResetCold (f : Func) (v : Word) (s : State) : Host.Outcome State Fault Refusal := .next (s.resetCmd f v 1)

/-- RESET_MODULE: RESET_CTL is written with GO = 1 and SCOPE = 2. -/
def execResetModule (f : Func) (v : Word) (s : State) : Host.Outcome State Fault Refusal := .next (s.resetCmd f v 2)

/-- RESET_PLINTH: RESET_CTL is written with GO = 1 and SCOPE = 3. -/
def execResetPlinth (f : Func) (v : Word) (s : State) : Host.Outcome State Fault Refusal := .next (s.resetCmd f v 3)

/-- RESET_SPIRE: RESET_CTL is written with GO = 1 and SCOPE = 4. -/
def execResetSpire (f : Func) (v : Word) (s : State) : Host.Outcome State Fault Refusal := .next (s.resetCmd f v 4)

/-- RESET_GATEHOUSE: RESET_CTL is written with GO = 1 and SCOPE = 5. -/
def execResetGatehouse (f : Func) (v : Word) (s : State) : Host.Outcome State Fault Refusal := .next (s.resetCmd f v 5)

/-- RESET_PARTITION: RESET_CTL is written with GO = 1 and SCOPE = 6. -/
def execResetPartition (f : Func) (v : Word) (s : State) : Host.Outcome State Fault Refusal := .next (s.resetCmd f v 6)

/-- RESET_PORT: RESET_CTL is written with GO = 1 and SCOPE = 7. -/
def execResetPort (f : Func) (v : Word) (s : State) : Host.Outcome State Fault Refusal := .next (s.resetCmd f v 7)

/-! ### The effect at a tick (R446 to R449) -/

/-- A partition that owns an affected spire (R447). -/
def State.resetPart (s : State) (p : Nat) : State :=
  let st := s.pfState p
  if 8 ≤ p then s
  else if st = 1 ∨ st = 2 then s.failFrame p
  else if st = 4 then ((s.spiresOf p).foldl (fun s n => s.dropSlots n) s).setPfState p 0
  else s

/-- The partitions that own spires of a list. -/
def State.ownersOf (s : State) (l : List Nat) : List Nat := (List.range 8).filter fun p => l.any fun n => s.spireOwner n == p

/-- A spire in reset, its merge buffers drained before (R135): what Table FA-8 restarts; the ephemeris, the stores and zones,
the expert map, the RNG registers and the counts stay. -/
def State.spireReset (s : State) (n : Nat) : State :=
  let s := ((s.drainSpire n).stationsDown (fun a => a == spStation n) 0x34).modSpire n fun sp =>
    { sp.fused with bad := sp.bad, out := 1, msgId := sp.msgId, gov := sp.gov }
  let s := (List.range 16).foldl (fun s k => s.put (Loc.spTicket n k) 0) s
  let s := s.clearReg (Loc.spZoneFill n)
  let s := ((s.setFlag (Loc.spEphLoad n) 30 false).setFlag (Loc.spTskLoad n) 30 false).setFlag (Loc.spXmapLoad n) 30 false
  s.setFlag (Loc.spRemapSts n) 0 false

/-- The counts of a partition's tags become 0. -/
def State.clearPartTags (s : State) (p : Nat) : State :=
  let r := lget (0, 0) s.lay.tags p
  { s with rf := tclear s.rf (rkey (Loc.ocCsValue 0) (r.1 * 256)) (rkey (Loc.ocCsValue 0) ((r.1 + r.2) * 256)) }

/-- A gatehouse in reset (R178, R448): its buffer drained, its waiting requests answered 0x34, its copier idle. -/
def State.gateReset (s : State) (g : Nat) : State :=
  let s := ((s.gate g).lbuf.filter fun e => !e.filling).foldl (fun s e => s.writeBack g e) s
  let x := s.gate g
  let l := x.waitq ++ x.lbuf.flatMap fun e => e.queue
  let s := s.modGate g fun x => { x with out := if x.out = 0 then 1 else x.out, waitq := [], lbuf := [], mirror := none }
  l.foldl (fun s o => s.gateDone o 0x34 []) (s.setFlag (Loc.gtRemapSts g) 0 false)

/-- Every pair's bits of a plinth's planes set (R449). -/
def State.maskPlinth (s : State) (e : Nat) : State :=
  (List.range 48).foldl (fun s a => (List.range 48).foldl (fun s b =>
    if a = b then s else s.setFld (Loc.plPairMask (stPlinth a)) (2 * e + 1) (2 * e) 3 (pairIdx a b)) s) s

/-- Every pair's bits of a plinth's planes cleared, but those that another cause holds. -/
def State.unmaskPlinth (s : State) (e : Nat) : State :=
  (List.range 48).foldl (fun s a => (List.range 48).foldl (fun s b =>
    if a = b then s else (s.unmask a b (2 * e)).unmask a b (2 * e + 1)) s) s

/-- A reset takes effect. -/
def State.resetEffect (s : State) (r : Reset) : State :=
  let spires : List Nat := match r.scope with
    | 3 => (List.range 8).map fun i => 8 * r.target + i
    | 4 => [r.target]
    | 6 => s.spiresOf r.target
    | _ => []
  let s := (s.ownersOf spires).foldl (fun s p => s.resetPart p) s
  let s := spires.foldl (fun s n => s.abortMbox (9 + n) r.scope false true) s
  let outs := s.fld (Loc.plStationOut r.target) 23 0
  let next := if r.scope = 3 then 2 else 3
  let s := s.modFaults fun f => { f with resets := f.resets.map fun x =>
    if x.scope = r.scope ∧ x.target = r.target then { x with phase := next, since := s.clk.elapsed, outs := outs } else x }
  match r.scope with
  | 3 => (s.maskPlinth r.target).setFld (Loc.plStationOut r.target) 23 0 0xFFFFFF
  | 4 => s.spireReset r.target
  | 5 => s.gateReset r.target
  | 6 => (spires.foldl (fun s n => s.spireReset n) s).clearPartTags r.target
  | _ => (s.failPort r.target 0).retrainPort r.target

/-- Stations of a plinth. -/
def plinthStations (e : Nat) : List Nat := (List.range 24).map fun i => 24 * e + i

/-- The masks of a plinth reset clear at the tick after its stations are up, and the reset ends (R449). -/
def State.plinthBack (s : State) (r : Reset) : State :=
  let e := r.target
  let s := s.modFaults fun f => { f with resets := f.resets.filter fun x => !(x.scope == 3 && x.target == e) }
  let s := s.setFld (Loc.plStationOut e) 23 0 r.outs
  let s := s.modPlinth e fun x => { x with out := 0, trained := true }
  let s := (List.range 8).foldl (fun s i =>
    let lost := s.stationOut (spStation (8 * e + i))
    s.modSpire (8 * e + i) fun sp => { sp with out := if sp.out = 1 then (if lost then 2 else 0) else sp.out }) s
  let s := (List.range 4).foldl (fun s i => s.modGate (4 * e + i) fun g => { g with out := if g.out = 1 then 0 else g.out }) s
  let s := s.modOculus e fun o => { o with out := if o.out = 1 then 0 else o.out }
  (s.unmaskPlinth e).applyHeld

/-- Resets at a tick, after snapshots and pending values (R446, R449). -/
def State.resetTick (s : State) : State :=
  let l := s.faults.resets
  let s := (l.filter fun r => r.phase == 1 && r.ready).foldl (fun s r => s.resetEffect r) s
  (l.filter fun r => r.scope == 3 && r.up).foldl (fun s r => s.plinthBack r) s

/-- The cutoff marks the resets that take effect at its tick. -/
def State.resetCutoff (s : State) : State :=
  s.modFaults fun f => { f with resets := f.resets.map fun r => { r with ready := true } }

/-! ### Assertion of a plinth reset (R449) -/

/-- Headers that a link still holds. -/
def Link.held (x : Link) : List Hdr := x.retry.flatMap (fun b => b.hdrs) ++ x.doubt.flatMap (fun b => b.2.hdrs) ++ x.q

/-- The station whose transaction a header on link a → b belongs to: the source of a request, the receiver of a
completion. -/
def hdrOwner (a b : Nat) (h : Hdr) : Nat :=
  if opClass h.op.toNat = some 0 then hdrSource a h else if h.det then h.final.toNat else b

/-- Transactions unacknowledged on the plinth's planes complete at their sources with 0x34, but for sources behind the plinth;
its links go down. -/
def State.linksReset (s : State) (e : Nat) : State :=
  let l := s.links.filter fun x => x.1 % 4 / 2 == e
  let s := { s with links := s.links.filter fun x => x.1 % 4 / 2 != e }
  l.foldl (fun s x =>
    let a := x.1 / 4 / 48
    let b := x.1 / 4 % 48
    x.2.held.foldl (fun s h =>
      let o := hdrOwner a b h
      if stPlinth o = e then s else s.endReq o h.tid.toNat 0x34) s) s

/-- A transaction of an oculus in reset completes for a source elsewhere. -/
def State.txnReset (s : State) (e : Nat) (t : Txn) : State :=
  if stPlinth (txnStation t) = e then s else
  match t.who with
  | .msg n id =>
    match (s.spire n).msg id with
    | some m => m.openParts.foldl (fun s i => s.partAnswer n id i 0x34 t.seq) s
    | none => s
  | .fop n c => if t.copies.isEmpty then s.finishTxn t 0x34 [] else s.fopDone n c t.seq 0x34 []
  | _ => s.finishTxn t 0x34 []

/-- Registers that a plinth reset loses: those of its spires, of its gatehouses beyond configuration and remap, of its
oculus beyond what both oculi hold in common, and the plinth's controls. -/
def lostAtPlinth (e loc : Nat) : Bool :=
  let page := loc / 4096
  match pageInfo page with
  | some (.spire, n, o) => n / 8 == e && o != 8
  | some (.gate, g, o) => g / 4 == e && (o == 1 || o == 2)
  | some (.oculus, x, _) =>
    x == e && !(loc == Loc.ocTagDir 0 || loc == Loc.ocCsValue 0 || (List.range 4).any fun k => loc == Loc.ocWinData 0 k)
  | some (.plinth, x, _) => x == e && (loc == Loc.plPlCtl e || loc == Loc.plPairVia e || loc == Loc.plBunCtl e)
  | _ => false

/-- The reset of a plinth is asserted (R449, Table FA-9 step 4). -/
def State.plinthAssert (s : State) (e : Nat) : State :=
  let s := (List.range 8).foldl (fun s i => s.drainSpire (8 * e + i)) (if e = 0 then (s.moveBypass true).westKeeps else s)
  let ports := s.portsOut e 0
  let s := ((ports.oculus e).txns.foldl (fun s t => s.txnReset e t) ports).linksReset e
  let s := (List.range 24).foldl (fun s i => s.endReqs (24 * e + i) 0x34)
    ((s.oculusDetoursLost e).stationsDown (fun a => stPlinth a == e) 0x34)
  let s := (List.range 4).foldl (fun s i =>
    let g := 4 * e + i
    let s := s.gateReset g
    s.modGate g fun x => { x with patrol := [], passAt := s.clk.elapsed, passLate := false }) s
  let homed := (List.range 4096).filter fun t => s.tagSlots t && decide (s.tagHome t / 8 = e)
  let s := homed.foldl (fun s t => s.clearTag t) s
  let s := { s with
    rf := s.rf.filter fun x => !lostAtPlinth e (x.1 / 1048576)
    evc := s.evc.filter fun x => !lostAtPlinth e (x.1 / 8 * 4096 + 0xF00) }
  let s := (List.range 8).foldl (fun s i => s.modSpire (8 * e + i) fun sp =>
    { sp.fused with bad := sp.bad, gov := sp.gov, out := if sp.out = 0 ∨ sp.out = 3 then 1 else sp.out }) s
  let s := s.modOculus e fun o => { out := if o.out = 0 then 1 else o.out, bypassAt := o.bypassAt }
  let s := s.modPlinth e fun x => { x with out := 1, trained := false, seam := [] }
  let s := s.belfryStop e 0
  s.modFaults fun f => { f with resets := f.resets.map fun r => if r.scope = 3 ∧ r.target = e then { r with phase := 3 } else r }

/-- PLINTH_RESET_ASSERT (R449): the retry buffers of the plinth's planes are empty, or 20 µs have passed since the tick. -/
def execPlinthResetAssert (s : State) : Host.Outcome State Fault Refusal :=
  match s.faults.resets.find? fun r => r.scope == 3 && r.phase == 2 with
  | none => .next s
  | some r =>
    if (s.links.filter fun x => x.1 % 4 / 2 == r.target).all fun x => x.2.retry.isEmpty then
      .next ((s.plinthAssert r.target).settleAll)
    else
      match s.waitUntil (r.since + 20000) with
      | none => .next s
      | some s => .next ((s.plinthAssert r.target).settleAll)

/-! ### The return (R448, R449) -/

/-- The test that a command gives for a spire. -/
def testOf (l : List (Fin 16 × SpireTest)) (n : Nat) : SpireTest :=
  match l.find? fun x => x.1.val == n with
  | some x => x.2
  | none => {}

/-- A spire comes back from its reset: wells and bonds tested, the cell map built (R73, R141); one that tripped stays out. -/
def State.spireBack (s : State) (n : Nat) (t : SpireTest) : State :=
  let s := s.startTest n t
  let s := s.buildMap n (s.testedBad n t)
  if s.power.tripped.contains n || s.stationOut (spStation n) && !s.plReset (n / 8) then
    s.modSpire n fun sp => { sp with out := 2 } else s

/-- The spires that a reset restarts. -/
def State.resetSpires (s : State) (r : Reset) : List Nat :=
  match r.scope with
  | 3 => (List.range 8).map fun i => 8 * r.target + i
  | 4 => [r.target]
  | 6 => s.spiresOf r.target
  | _ => []

/-- RESET_STS.FAILED. -/
def State.resetFailed (s : State) : State := s.setFlag Loc.glResetSts 12 true

/-- RESET_RETURN (R448, R449): the parts of the oldest reset are up again, or did not return. Those of a plinth serve from
the next tick. -/
def execResetReturn (tests : List (Fin 16 × SpireTest)) (ok : Bool) (s : State) : Host.Outcome State Fault Refusal :=
  match s.faults.resets.find? fun r => r.phase == 3 with
  | none => .next s
  | some r =>
    let gone (s : State) : State := s.modFaults fun f => { f with
      resets := f.resets.filter fun x => !(x.scope == r.scope && x.target == r.target) }
    let sp := s.resetSpires r
    if !ok then
      let s := sp.foldl (fun s n => s.modSpire n fun x => { x with out := if x.out = 1 then 2 else x.out }) s
      let s := if r.scope = 5 then s.modGate r.target fun g => { g with out := 2 } else s
      let s := if r.scope = 3 then (s.modPlinth r.target fun x => { x with out := 2 }) else s
      .next ((gone s.resetFailed.applyHeld).settleAll)
    else
      let s := sp.foldl (fun s n => if (s.spire n).out = 1 then s.spireBack n (testOf tests n) else s) s
      if r.scope = 3 then
        let s := sp.foldl (fun s n => s.modSpire n fun x => { x with out := if x.out = 0 then 1 else x.out }) s
        .next (s.modFaults fun f => { f with resets := f.resets.map fun x =>
          if x.scope = 3 ∧ x.target = r.target then { x with phase := 4, up := true } else x })
      else
        let s := if r.scope = 5 then s.modGate r.target fun g => { g with out := if g.out = 1 then 0 else g.out } else s
        let s := if sp.any fun n => (s.spire n).out != 0 then s.resetFailed else s
        .next ((gone s.applyHeld).settleAll)

/-- RECOVERY_AUTO_RESET (R450): 100 ms into recovery with AUTO_RESET = 1. -/
def execRecoveryAutoReset (s : State) : Host.Outcome State Fault Refusal :=
  if !s.flag Loc.glFaultSts 0 || !s.flag Loc.glFaultCtl 18 then .next s else
  match s.waitUntil (s.faults.recoveryAt + 100000000) with
  | none => .next s
  | some s => .next s.moduleReset

end Sys2Proof.Machine
end

