-- ==== Sys2Proof/Machine/Shake.lean ====
section
/-! DEFINITION. SHAKE256 (FIPS 202), with which digests and keys are made (R411, R412, R417, R419, R420). -/

namespace Sys2Proof.Machine

/-- A 64-bit lane rotated left by `n` bits, 0 to 63. -/
def rotl64 (a n : Nat) : Nat := (a * 2 ^ n + a / 2 ^ (64 - n)) % 2 ^ 64

/-- Rotation of lane `x + 5 * y`. -/
def keccakRot : List Nat :=
  [0, 1, 62, 28, 27, 36, 44, 6, 55, 20, 3, 10, 43, 25, 39, 41, 45, 15, 21, 8, 18, 2, 61, 56, 14]

/-- Constants of the 24 rounds. -/
def keccakConst : List Nat :=
  [0x0000000000000001, 0x0000000000008082, 0x800000000000808A, 0x8000000080008000, 0x000000000000808B, 0x0000000080000001,
   0x8000000080008081, 0x8000000000008009, 0x000000000000008A, 0x0000000000000088, 0x0000000080008009, 0x000000008000000A] ++
  [0x000000008000808B, 0x800000000000008B, 0x8000000000008089, 0x8000000000008003, 0x8000000000008002, 0x8000000000000080,
   0x000000000000800A, 0x800000008000000A, 0x8000000080008081, 0x8000000000008080, 0x0000000080000001, 0x8000000080008008]

/-- A round on the 25 lanes, lane `x + 5 * y` in place `x + 5 * y`. -/
def keccakRound (a : List Nat) (rc : Nat) : List Nat :=
  let col := (List.range 5).map fun x => (List.range 5).foldl (fun v y => v ^^^ a.getD (x + 5 * y) 0) 0
  let mix := (List.range 5).map fun x => col.getD ((x + 4) % 5) 0 ^^^ rotl64 (col.getD ((x + 1) % 5) 0) 1
  let a := (List.range 25).map fun i => a.getD i 0 ^^^ mix.getD (i % 5) 0
  let b := (List.range 25).map fun i =>
    let j := (i % 5 + 3 * (i / 5)) % 5 + 5 * (i % 5)
    rotl64 (a.getD j 0) (keccakRot.getD j 0)
  (List.range 25).map fun i =>
    let row := 5 * (i / 5)
    let v := b.getD i 0 ^^^ ((2 ^ 64 - 1 - b.getD ((i + 1) % 5 + row) 0) &&& b.getD ((i + 2) % 5 + row) 0)
    if i = 0 then v ^^^ rc else v

/-- The permutation. -/
def keccak (a : List Nat) : List Nat := keccakConst.foldl keccakRound a

/-- A block of 136 bytes absorbed. -/
def shakeBlock (a b : List Nat) : List Nat :=
  keccak ((List.range 25).map fun i => a.getD i 0 ^^^ (if i < 17 then bytesNat ((b.drop (8 * i)).take 8) else 0))

/-- A message with its padding: whole blocks of 136 bytes. -/
def shakePad (m : List Nat) : List Nat :=
  let n := 136 - m.length % 136
  if n = 1 then m ++ [0x9F] else m ++ 0x1F :: List.replicate (n - 2) 0 ++ [0x80]

/-- The first 64 bytes that SHAKE256 gives for a message. -/
def shake256 (m : List Nat) : List Nat :=
  let p := shakePad m
  let a := (List.range (p.length / 136)).foldl (fun a i => shakeBlock a ((p.drop (136 * i)).take 136)) (List.replicate 25 0)
  (a.take 8).flatMap (natBytes 8)

/-- The 64-byte digest of bytes. -/
def digest64 (b : List Byte) : List Byte := (shake256 (b.map (·.toNat))).map (BitVec.ofNat 8)

end Sys2Proof.Machine
end

