-- ==== Sys2Proof/Machine/Security.lean ====
section
/-! DEFINITION. Partition layouts, sessions, the security engine, attestation, SPDM and IDE (R404 to R426). -/

namespace Sys2Proof.Machine

/-! ### Staged layout (R405) -/

/-- The partition that LAY_SEL selects. -/
def State.laySel (s : State) : Nat := s.fld Loc.seLaySel 2 0

/-- The layout that the staging registers describe. -/
def State.stagedLayout (s : State) : Layout :=
  { spires := (List.range 16).map fun n => ((List.range 8).find? fun p => (lget 0 s.sec.spires p).testBit n).getD 15
    gran := s.sec.gran
    tags := s.sec.tags }

/-- The staged values reloaded from those in force. -/
def State.layDiscard (s : State) : State :=
  s.modSec fun x => { x with
    spires := (List.range 8).map fun p => ((s.spiresOf p).map fun n => 2 ^ n).sum
    tags := s.lay.tags
    gran := s.lay.gran }

/-- A tag range holds a tag. -/
def inRange (r : Nat × Nat) (t : Nat) : Bool := decide (r.1 ≤ t ∧ t < r.1 + r.2)

/-- Two tag ranges share a tag. -/
def rangesMeet (a b : Nat × Nat) : Bool := decide (max a.1 b.1 < min (a.1 + a.2) (b.1 + b.2))

/-- Two tag ranges hold the same tags. -/
def sameRange (a b : Nat × Nat) : Bool := a == b || (a.2 == 0 && b.2 == 0)

/-- The first check of Table SE-1: ownership without conflict, ranges, tags and granules only with spires. -/
def State.layoutForm (s : State) : Bool :=
  let sp (p : Nat) := lget 0 s.sec.spires p
  let tg (p : Nat) := lget (0, 0) s.sec.tags p
  let pairs := (List.range 8).all fun p => (List.range p).all fun q => sp p &&& sp q == 0 && !rangesMeet (tg p) (tg q)
  pairs && (List.range 8).all fun p =>
    decide ((tg p).2 = 0 ∨ (tg p).1 + (tg p).2 ≤ 4096) &&
      (sp p != 0 || ((tg p).2 == 0 && !s.sec.gran.any fun g => g.2 == p))

/-- Spires in a bitmap. -/
def popCount (v : Nat) : Nat := ((List.range 16).filter v.testBit).length

/-- The second check: at most 256 tags per spire (R308). -/
def State.layoutTags (s : State) : Bool :=
  (List.range 8).all fun p => decide ((lget (0, 0) s.sec.tags p).2 ≤ 256 * popCount (lget 0 s.sec.spires p))

/-- A partition loses a granule under the staged layout. -/
def State.losesGranule (s : State) (p : Nat) : Bool := s.lay.gran.any fun g => g.2 == p && tget 15 s.sec.gran g.1 != p

/-- The third check: a partition that loses anything, or gains a spire or tags, is stopped. -/
def State.layoutStopped (s : State) : Bool :=
  (List.range 8).all fun p =>
    let same := (s.spiresOf p).map (fun n => 2 ^ n) |>.sum
    let moves := lget 0 s.sec.spires p != same || !sameRange (lget (0, 0) s.sec.tags p) (lget (0, 0) s.lay.tags p) || s.losesGranule p
    !moves || s.pfState p == 0

/-- The fourth check: no partition becomes defined while the entropy source has failed. -/
def State.layoutEntropy (s : State) : Bool :=
  s.flag Loc.seSeSts 2 || (List.range 8).all fun p => lget 0 s.sec.spires p == 0 || s.defined p

/-- The first applicable code of Table SE-1. -/
def State.layoutCheck (s : State) : Option Nat :=
  if !s.layoutForm || !s.layoutTags then some 2
  else if !s.layoutStopped then some 5
  else if !s.layoutEntropy || s.sec.layPend.isSome then some 6
  else none

/-- LAY_CTL written. -/
def State.layCtlOp (s : State) (v : Word) : WR :=
  match formCheck (locFields Loc.seLayCtl) v with
  | some c => .error c
  | none =>
    if v.bit 0 ∧ v.bit 1 then .error 2
    else if v.bit 1 then .ok s.layDiscard
    else if !v.bit 0 then .ok s
    else match s.layoutCheck with
      | some c => .error c
      | none => .ok ((s.modSec fun x => { x with layPend := some s.stagedLayout }).bump 0x0E00 6 0)

/-- LAYOUT_COMMIT: LAY_CTL is written with COMMIT = 1. -/
def execLayoutCommit (f : Func) (v : Word) (s : State) : Host.Outcome State Fault Refusal :=
  let v := v.put 0 0 1
  .next (s.write f Loc.seLayCtl v fun s => s.layCtlOp v)

/-- LAYOUT_DISCARD: LAY_CTL is written with DISCARD = 1. -/
def execLayoutDiscard (f : Func) (v : Word) (s : State) : Host.Outcome State Fault Refusal :=
  let v := v.put 1 1 1
  .next (s.write f Loc.seLayCtl v fun s => s.layCtlOp v)

/-- LAY_SPIRES and LAY_TAGS stage for the selected partition. -/
def State.laySpiresOp (s : State) (v : Word) : WR :=
  match formCheck (locFields Loc.seLaySpires) v with
  | some c => .error c
  | none => .ok (s.modSec fun x => { x with spires := lmod x.spires s.laySel fun _ => v.bits 15 0 })

def State.layTagsOp (s : State) (v : Word) : WR :=
  match formCheck (locFields Loc.seLayTags) v with
  | some c => .error c
  | none =>
    if v.bits 24 12 > 4096 then .error 2
    else .ok (s.modSec fun x => { x with tags := lmod x.tags s.laySel fun _ => (v.bits 11 0, v.bits 24 12) })

/-- GRAN_OWNER stages for the selected granule, which advances with AUTOINC. -/
def State.granOwnerOp (s : State) (v : Word) : WR :=
  if v.toNat ≥ 16 then .error 1
  else if 8 ≤ v.toNat ∧ v.toNat ≠ 15 then .error 2
  else
    let g := s.fld Loc.seGranSel 9 0
    .ok ((s.modSec fun x => { x with gran := tset 15 x.gran g v.toNat }).autoInc Loc.seGranSel 9 768)

/-- Partitions for which a latched LAY_FLAGS.SEALED = 1 takes effect at this tick (R423). -/
def sealedBy (l : List Pend) : List Nat :=
  (List.range 8).filter fun p => l.any fun x => x.key == rkey Loc.seLayFlags p && x.val % 2 == 1

/-- LAY_FLAGS of the selected partition: SEALED is pending; one that is sealed, or that the coming tick seals, stays so while its
session is open (R423). -/
def State.layFlagsOp (s : State) (v : Word) : WR :=
  let p := s.laySel
  match formCheck (locFields Loc.seLayFlags) v with
  | some c => .error c
  | none =>
    if !v.bit 0 && s.flag Loc.seSecSts p && (s.flag Loc.seLayFlags 0 p || (sealedBy s.latched).contains p) then .error 5
    else .ok (s.pendField Loc.seLayFlags 0 0 (v.bits 0 0) p)

/-! ### The effect of a layout (R406, R407) -/

/-- Pair keys of a tag destroyed (R407). -/
def State.dropTagKeys (s : State) (tag : Nat) : State :=
  let s := { s with pairKeys := s.pairKeys.filter fun e => match e.2 with
    | some k => k.mgmt || k.tag != tag
    | none => false }
  s.setFld Loc.seSeSts 24 12 s.pairKeys.length

/-- A tag leaves its partition: its pair keys are destroyed, and an exchange's later commands fail with result 0x5 (Table SE-8). -/
def State.loseTag (s : State) (tag : Nat) : State :=
  (s.dropTagKeys tag).modSec fun x => { x with
    offers := x.offers.map fun o => if !o.mgmt && o.tag == tag then { o with lost := true } else o
    run := x.run.map fun r => if !r.mgmt && r.cmd != 6 && r.tag == tag then { r with res := 5 } else r }

/-- A session opens: a fresh key pair and identifier. -/
def State.openSession (s : State) (p : Nat) : State :=
  let d := s.draw
  let s := { d.2 with keys := lmod d.2.keys p fun _ => d.2.nextKey, nextKey := d.2.nextKey + 1 }
  (s.modSec fun x => { x with sess := lmod x.sess p fun _ => d.1 }).setFlag Loc.seSecSts p true

/-- A session closes: its key pair and pair keys are destroyed; SEALED returns to 0 unless written for this tick (R423). -/
def State.closeSession (s : State) (p : Nat) (keep : Bool) : State :=
  let r := lget (0, 0) s.lay.tags p
  let s := (s.pairKeys.filterMap fun e => e.2).foldl (fun s k =>
    if !k.mgmt && inRange r k.tag then s.dropTagKeys k.tag else s) s
  let s := { s with keys := lmod s.keys p fun _ => 0, dying := s.dying ++ [lget 0 s.keys p] }
  let s := (s.modSec fun x => { x with sess := lmod x.sess p fun _ => 0 }).setFlag Loc.seSecSts p false
  if keep then s else s.setFlag Loc.seLayFlags 0 false p

/-- A gatehouse reports that a buffered line or a waiting request uses a key pair (R171). -/
def Gate.usesKey (x : Gate) (key : Nat) : Bool := (x.lbuf.any fun e => e.key == key) || x.waitq.any fun o => o.key == key

/-- At a tick the engine destroys the key pairs out of force that no gatehouse uses any more (R171). -/
def State.destroyKeys (s : State) : State :=
  { s with dying := s.dying.filter fun k => s.gates.any fun x => x.usesKey k }

/-- Home of a tag under a layout (R308). -/
def Layout.homeOf (l : Layout) (p tag : Nat) : Nat :=
  let r := lget (0, 0) l.tags p
  ((List.range 16).filter fun n => lget 15 l.spires n == p).getD ((tag - r.1) / 256) 0

/-- Owner of a tag under a layout. -/
def Layout.tagOwner (l : Layout) (tag : Nat) : Nat :=
  ((List.range 8).find? fun p => inRange (lget (0, 0) l.tags p) tag).getD 15

/-- A tag under an old and a new layout: released when it leaves or its home moves, homed when it joins or moves. -/
def State.tagMove (s : State) (a b : Layout) (tag : Nat) : State :=
  let p := a.tagOwner tag
  let q := b.tagOwner tag
  let loc := Loc.ocTagDir 0
  let home := b.homeOf q tag
  if p = q ∧ (q = 15 ∨ a.homeOf p tag = home) then s else
  let s := if p < 8 then s.clearTag tag else s
  let s := if p < 8 ∧ p ≠ q then s.loseTag tag else s
  if q = 15 then s.setFld loc 10 6 0 tag |>.setFld loc 3 0 0 tag
  else (s.setFld loc 10 6 (home + 16) tag).setFld loc 3 0 (1 + 2 * q) tag

/-- A spire whose owner changes begins its array power cycle; its pages' locks and counters go (R155, R490, R497). -/
def State.spireMove (s : State) (n : Nat) : State :=
  let now := s.clk.elapsed
  let s := (s.spireBlank n).modSpire n fun sp =>
    { sp with out := if sp.out = 0 then 1 else sp.out, landings := [], cycleAt := now }
  let s := s.setFlag Loc.seSecSts (10 + n) true
  (List.range 9).foldl (fun s o =>
    let page := spPage n o
    let s := s.put (page * 4096 + 0x024) 0
    { s with
      rf := tclear s.rf (rkey (page * 4096 + 0xF00) 0) (rkey (page * 4096 + 4096) 0)
      evc := tclear s.evc (page * 8) (page * 8 + 8) }) s

/-- Windows that touch a granule their tag's partition does not own lose VALID (R306). -/
def State.windowsCheck (s : State) : State :=
  (s.rf.filter fun e => e.1 / 1048576 == Loc.ocWinData 0 0 && e.1 % 1048576 != staging && e.2.bit 0).foldl (fun s e =>
    let i := e.1 % 1048576
    let size := s.fld (Loc.ocWinData 0 1) 18 0 i
    let db := s.fld (Loc.ocWinData 0 2) 18 0 i
    let p := s.tagOwner (i / 16)
    let g0 := db / 512
    let g1 := (db + size - 1) / 512
    if p < 8 ∧ (List.range (g1 + 1 - g0)).all fun k => s.granOwner (g0 + k) == p then s
    else s.setFlag (Loc.ocWinData 0 0) 0 false i) s

/-- A committed layout takes effect, with the SESSION_ENDs of the tick (R406, R407, Table SE-8). `sealed` lists the
partitions for which SEALED = 1 takes effect at this tick. -/
def State.layoutEffect (s : State) (l : Layout) (sealed : List Nat) : State :=
  let a := s.lay
  let parts := List.range 8
  let shut := parts.filter fun p => s.defined p && !l.spires.contains p
  let s := shut.foldl (fun s p => s.closeSession p (sealed.contains p)) s
  let opened := parts.filter fun p => !s.defined p && l.spires.contains p
  let moved := (List.range 16).filter fun n => lget 15 a.spires n != lget 15 l.spires n
  let s := (List.range 4096).foldl (fun s t => s.tagMove a l t) s
  let s := { s with lay := l }
  let s := moved.foldl (fun s n => s.spireMove n) s
  (opened.foldl (fun s p => s.openSession p) s.windowsCheck).managed

/-- SESSION_END at its tick: the session closes and a new one opens for the same layout; it fails with result 0x7 when the
entropy source has failed by then (R408). -/
def State.sessionTick (s : State) (sealed : List Nat) : State :=
  let l := s.sec.endDue
  let s := s.modSec fun x => { x with endDue := [] }
  if !s.flag Loc.seSeSts 2 then
    s.modSec fun x => { x with run := x.run.map fun r => if r.cmd = 6 ∧ l.contains (r.tag % 8) then { r with res := 7 } else r }
  else l.foldl (fun s p => if s.defined p then (s.closeSession p (sealed.contains p)).openSession p else s) s

/-- The layout of a tick; `go` when pending values take effect (R25). -/
def State.layTick (s : State) (go : Bool) (sealed : List Nat) : State :=
  let s := match s.sec.layPend with
    | some l =>
      if go && s.sec.layNow then (s.layoutEffect l sealed).modSec fun x => { x with layPend := none, layNow := false } else s
    | none => s
  (s.sessionTick sealed).destroyKeys

/-- Pair keys at a tick: sealing begins, dropped entries are destroyed (R413, R415). -/
def State.keyTick (s : State) : State :=
  let step (k : PairKey) : Option PairKey :=
    if k.drop then none
    else if k.due then some { k with sealing := true, due := false, oldTx := none, sent0 := 0, sent1 := 0, exhausted := false }
    else some k
  let s := { s with pairKeys := s.pairKeys.filterMap fun (e : Nat × Option PairKey) => (e.2.bind step).map fun k => (e.1, some k) }
  s.setFld Loc.seSeSts 24 12 s.pairKeys.length

/-- Tags homed on a spire that has left service are released (R309). -/
def State.releaseTick (s : State) : State :=
  if s.spires.all fun sp => sp.out != 2 && sp.out != 3 then s else
  ((s.rf.filter fun e => e.1 / 1048576 == Loc.ocTagDir 0 && e.2.bit 10).map fun e => e.1 % 1048576).foldl (fun s t =>
    let o := (s.spire (s.tagHome t)).out
    if o = 2 ∨ o = 3 then (s.clearTag t).setFlag (Loc.ocTagDir 0) 10 false t else s) s

/-! ### Claims (R424) -/

/-- The function that claims the engine: its code, or 15. -/
def State.seClaim (s : State) : Nat := s.fld Loc.seSeSts 11 8
def State.seBusy (s : State) : Bool := s.flag Loc.seSeSts 0

/-- SE_CLAIM written. -/
def State.seClaimOp (s : State) (f : Func) (v : Word) : WR :=
  match formCheck (locFields Loc.seSeClaim) v with
  | some c => .error c
  | none =>
    let c := s.seClaim
    let other := c != 15 && c != fcode f
    let claimed := c == fcode f
    if (v.bit 0 || v.bit 1) && other then .error 3
    else if v.bit 0 then .ok ((s.setFld Loc.seSeSts 11 8 (fcode f)).modSec fun x => { x with cmdAt := s.clk.elapsed, claimDone := claimed && x.claimDone })
    else if v.bit 1 then .ok (s.setFld Loc.seSeSts 11 8 15)
    else .ok s

/-- SE_CLAIM: SE_CLAIM is written with CLAIM = 1. -/
def execSeClaim (f : Func) (v : Word) (s : State) : Host.Outcome State Fault Refusal :=
  let v := v.put 0 0 1
  .next (s.write f Loc.seSeClaim v fun s => s.seClaimOp f v)

/-- SE_RELEASE: SE_CLAIM is written with RELEASE = 1 and CLAIM = 0. -/
def execSeRelease (f : Func) (v : Word) (s : State) : Host.Outcome State Fault Refusal :=
  let v := (v.put 1 1 1).put 0 0 0
  .next (s.write f Loc.seSeClaim v fun s => s.seClaimOp f v)

/-- CLAIM_LAPSE (R424): 10 ms without a command. -/
def execClaimLapse (s : State) : Host.Outcome State Fault Refusal :=
  if s.seClaim = 15 ∨ s.seBusy then .next s else
  match s.waitUntil (s.sec.cmdAt + 10000000) with
  | none => .next s
  | some s => .next (s.setFld Loc.seSeSts 11 8 15)

/-- SE_STS written: DONE clears, and with it the claim whose own command is done (R424). -/
def State.seStsOp (s : State) (v : Word) : WR :=
  match formCheck (locFields Loc.seSeSts) v with
  | some c => .error c
  | none =>
    if !v.bit 1 ∨ !s.flag Loc.seSeSts 1 then .ok s
    else
      let s := s.setFlag Loc.seSeSts 1 false
      .ok (if s.sec.claimDone && !s.seBusy then s.setFld Loc.seSeSts 11 8 15 else s)

/-- A write of the KX_IN window, or of SE_ARG, under another function's claim is rejected with 0x03. -/
def State.seInputOp (s : State) (f : Func) (loc : Loc) (v : Word) : WR :=
  if s.seClaim ≠ 15 ∧ s.seClaim ≠ fcode f then .error 3 else s.plainWrite loc 0 v

/-- A word of the KX_IN window (R426). -/
def State.kxIn (s : State) (i : Nat) : Word := s.get ((0xE03 + i / 944) * 4096 + 0x40 + 4 * (i % 944))

/-- The bytes of the KX_IN window that a command reads: a blob and the expected identity digest (Table SE-4). -/
def State.kxBytes (s : State) : List Byte := (List.range 1232).flatMap fun i => leBytes 4 (s.kxIn i).toNat

/-! ### Commands (Table SE-4) -/

/-- The function may run a command for the key (R415, R416). -/
def State.keyOwner (s : State) (func : Nat) (mgmt : Bool) (tag : Nat) : Bool :=
  if mgmt then func == 0 || func == 9
  else func == 0 || (decide (1 ≤ func ∧ func ≤ 8) && s.tagOf (func - 1) tag)

/-- The result of the commands that act at the next tick, and what they leave for it. -/
def State.tickCommand (s : State) (r : SeRun) : Nat × State :=
  if r.cmd = 6 then
    let p := r.tag % 8
    if r.func ≠ 0 ∧ r.func ≠ p + 1 then (5, s)
    else if !s.defined p then (8, s)
    else if !s.flag Loc.seSeSts 2 then (7, s)
    else (0, s.modSec fun x => { x with endDue := x.endDue ++ [p] })
  else if !s.keyOwner r.func r.mgmt r.tag then (5, s)
  else match s.keyEntry r.mgmt r.tag r.peer with
    | none => (8, s)
    | some (i, k) => (0, s.setKey i (some (if r.cmd = 4 then { k with due := k.due || !k.sealing } else { k with drop := true })))

/-- SE_CMD written with a claim, a known command and an idle engine (R424). -/
def State.seCmdOp (s : State) (f : Func) (v : Word) : WR :=
  let c := s.seClaim
  let cmd := v.bits 3 0
  if c ≠ 15 ∧ c ≠ fcode f then .error 3 else
  match formCheck (locFields Loc.seSeCmd) v with
  | some e => .error e
  | none =>
    if cmd = 0 ∨ 6 < cmd then .error 2
    else if c = 15 ∨ (cmd = 6 ∧ s.pfState (v.bits 10 8) ≠ 0) then .error 5
    else if s.seBusy then .error 6
    else
      let r : SeRun :=
        { cmd := cmd, mgmt := v.bit 4, tag := v.bits 19 8, peer := s.fld Loc.seSeArg 15 0, func := fcode f,
          input := if cmd = 2 ∨ cmd = 3 then s.kxBytes else []
          wasDue := match s.keyEntry (v.bit 4) (v.bits 19 8) (s.fld Loc.seSeArg 15 0) with | some (_, k) => k.due | none => false }
      let q := if cmd ≤ 3 then (0, s) else s.tickCommand r
      let s := (q.2.setFlag Loc.seSeSts 0 true).bump 0x0E00 2 0
      .ok (s.modSec fun x => { x with run := some { r with res := q.1 }, cmdAt := s.clk.elapsed, claimDone := false })

/-- A write of SE_CMD with a given command. -/
def State.seCmd (s : State) (f : Func) (v : Word) (cmd : Nat) : State :=
  let v := v.put 3 0 cmd
  s.write f Loc.seSeCmd v fun s => s.seCmdOp f v

/-- SE_CMD written with so many bytes of a word (R485). -/
def State.seBytes (s : State) (f : Func) (v : Word) (cmd bytes : Nat) : State :=
  if bytes < 4 then s.write f Loc.seSeCmd (v.put 3 0 cmd) fun _ => .error 2 else s.seCmd f v cmd

/-- KX_OFFER: SE_CMD is written with CMD = 1. -/
def execKxOffer (f : Func) (v : Word) (s : State) : Host.Outcome State Fault Refusal := .next (s.seCmd f v 1)

/-- KX_ACCEPT: SE_CMD is written with CMD = 2; the offer stands in the KX_IN window. A write of fewer than four bytes is
rejected (R485). -/
def execKxAccept (f : Func) (v : Word) (bytes : Nat) (s : State) : Host.Outcome State Fault Refusal :=
  .next (s.seBytes f v 2 bytes)

/-- KX_FINISH: SE_CMD is written with CMD = 3; the answer stands in the KX_IN window. A write of fewer than four bytes is
rejected (R485). -/
def execKxFinish (f : Func) (v : Word) (bytes : Nat) (s : State) : Host.Outcome State Fault Refusal :=
  .next (s.seBytes f v 3 bytes)

/-- KX_ACTIVATE: SE_CMD is written with CMD = 4. -/
def execKxActivate (f : Func) (v : Word) (s : State) : Host.Outcome State Fault Refusal := .next (s.seCmd f v 4)

/-- KEY_DROP: SE_CMD is written with CMD = 5. -/
def execKeyDrop (f : Func) (v : Word) (s : State) : Host.Outcome State Fault Refusal := .next (s.seCmd f v 5)

/-- SESSION_END: SE_CMD is written with CMD = 6. -/
def execSessionEnd (f : Func) (v : Word) (s : State) : Host.Outcome State Fault Refusal := .next (s.seCmd f v 6)

/-! ### Key exchange (R411 to R416) -/

/-- A valid manager identity. -/
def State.anyTrust (s : State) : Bool := (List.range 4).any fun i => s.flag Loc.seMgrTrustSel 2 (1 + i)

/-- The entry for a key: its own, or a free one. -/
def State.keySlot (s : State) (mgmt : Bool) (tag peer : Nat) : Option Nat :=
  match s.keyEntry mgmt tag peer with
  | some e => some e.1
  | none => if 4096 ≤ s.pairKeys.length then none
    else (List.range 4096).find? fun i => (tget none s.pairKeys i).isNone

/-- Both halves installed, `tx` to seal with and `rx` to open with; the older ones last as R413 states. `due` when sealing starts at
the next tick. -/
def State.installKey (s : State) (i : Nat) (mgmt : Bool) (tag peer : Nat) (tx rx : BitVec 256) (due : Bool) : State :=
  let old := tget none s.pairKeys i
  let k : PairKey :=
    { mgmt := mgmt, tag := tag, peer := peer, tx := tx, rx := { key := rx }, due := due
      sent0 := (old.map (·.sent0)).getD 0, sent1 := (old.map (·.sent1)).getD 0
      oldRx := old.map (·.rx), oldTx := old.bind fun o => if o.sealing then some o.tx else o.oldTx }
  (s.setKey i (some k)).managed

/-- Bytes `a` to `a + n - 1`. -/
def slice (b : List Byte) (a n : Nat) : List Byte := (b.drop a).take n

/-- The identity of the sender of a blob: the digest of its public key (R412, Table SE-2). -/
def blobIdent (b : List Byte) : List Byte := digest64 (slice b 1632 1793)

/-- The first manager identity to complete an exchange is trusted (R416). -/
def State.firstTrust (s : State) (peer : Nat) (b : List Byte) : State :=
  if s.anyTrust then s else
  let d := blobIdent b
  let s := (List.range 16).foldl (fun s k => s.put (Loc.seMgrTrust k) (BitVec.ofNat 32 (leNat (slice d (4 * k) 4))) 0) s
  (s.setFlag Loc.seMgrTrustSel 2 true 1).post 0x0E00 0 0xA9 0 peer

/-- Bytes of a field of the module (R419). -/
def deviceBytes (field n : Nat) : List Byte := (List.range n).map fun i => Config.deviceByte field i

/-- The public keys that the engine derives from the fused seed, the same at every start (R419): the Falcon-1024 identity key, and
the ECDSA key on secp384r1, as its two coordinates. -/
def falconKey : List Byte := (List.range 1793).map fun i => Config.falconPublic (deviceBytes 1 64) i
def ecdsaKey : List Byte := (List.range 96).map fun i => Config.ecdsaPublic (deviceBytes 1 64) i

/-- A signature with the identity key over bytes. -/
def falconSign (b : List Byte) (seed : Nat) : List Byte := (List.range 1280).map fun i => Config.signByte b seed i

/-- The blob that the engine sends (Table SE-2): its nonce and its signature draw on `seed`; an answer's signature covers the digest
`offer` too (R412). -/
def State.makeBlob (s : State) (kind tag peer seed : Nat) (kem offer : List Byte) : List Byte :=
  let nonce := (List.range 4).flatMap fun i => leBytes 8 (Config.freeNat (seed + 1 + i)).toNat
  let b := leBytes 4 kind ++ leBytes 2 s.ownDev ++ leBytes 2 tag ++ leBytes 2 peer ++ List.replicate 6 0 ++ nonce ++
    List.replicate 16 0 ++ kem ++ falconKey ++ List.replicate 159 0
  b ++ falconSign (offer ++ b) (seed + 5)

/-- The free values that an exchange's blob draws on: the key's or the secret's, four of the nonce, the signature's. -/
def State.kxSeed (s : State) : Nat × State := (s.free, { s with free := s.free + 6 })

/-- The 64 bytes of R411 that the two keys are taken from: initiator to responder, then back. -/
def kxKeys (secret : BitVec 256) (offer answer : List Byte) : BitVec 256 × BitVec 256 :=
  let k := digest64 (leBytes 32 secret.toNat ++ digest64 offer ++ digest64 (answer.take 3584))
  (BitVec.ofNat 256 (leNat (k.take 32)), BitVec.ofNat 256 (leNat (k.drop 32)))

/-- The MGR_TRUST entry is valid and holds an identity. -/
def State.trusts (s : State) (d : List Byte) (i : Nat) : Bool :=
  s.flag Loc.seMgrTrustSel 2 (1 + i) &&
    (List.range 16).all fun k => (s.get (Loc.seMgrTrust k) i).toNat == leNat (slice d (4 * k) 4)

/-- The sender of a blob is who it should be (R412, R416): the identity that the caller expects, or a trusted manager. -/
def State.identOk (s : State) (mgmt : Bool) (b : List Byte) : Bool :=
  let d := blobIdent b
  if mgmt then !s.anyTrust || (List.range 4).any (s.trusts d) else d == slice b 4864 64

/-- The fields of a blob are those of Table SE-2. -/
def State.blobForm (s : State) (r : SeRun) (kind : Nat) : Bool :=
  let b := r.input
  leNat (slice b 0 4) == kind && leNat (slice b 4 2) == r.peer && leNat (slice b 6 2) == (if r.mgmt then 0 else r.tag) &&
    leNat (slice b 8 2) == s.ownDev && (slice b 10 6).all (· == 0) && (slice b 48 16).all (· == 0) &&
    (slice b 3425 159).all (· == 0)

/-- Checks of a blob (R412): form, signature, identity. `offer` is the digest that an answer's signature covers. -/
def State.blobCheck (s : State) (r : SeRun) (job mgmt : Nat) (offer : List Byte) : Nat :=
  let b := r.input
  if !s.blobForm r (if r.mgmt then mgmt else job) then 2
  else if !Config.falconOk (slice b 1632 1793) (offer ++ b.take 3584) (slice b 3584 1280) then 3
  else if !s.identOk r.mgmt b then 4
  else 0

/-- An offer made (R411): it stands in the KX_OUT window and is outstanding. -/
def State.kxOffer (s : State) (r : SeRun) (tag : Nat) : State :=
  let d := s.kxSeed
  let kem := (List.range 1568).map fun i => Config.kemKey d.1 i
  let b := s.makeBlob (if r.mgmt then 2 else 1) tag r.peer d.1 kem []
  let o : KxOffer := { mgmt := r.mgmt, tag := tag, peer := r.peer, seed := d.1, blob := b }
  d.2.modSec fun x => { x with
    kxOut := b
    offers := x.offers.filter (fun y => !(y.mgmt == r.mgmt && y.tag == tag && y.peer == r.peer)) ++ [o] }

/-- An offer accepted (R411, R413): the answer stands in the KX_OUT window, both halves are installed in entry `i`. -/
def State.kxAnswer (s : State) (r : SeRun) (tag i : Nat) : State :=
  let offer := r.input.take 4864
  let ek := slice offer 64 1568
  let d := s.kxSeed
  let kem := (List.range 1568).map fun j => Config.kemCipher ek d.1 j
  let b := s.makeBlob (if r.mgmt then 0x12 else 0x11) tag r.peer d.1 kem (digest64 offer)
  let k := kxKeys (Config.kemShared ek d.1) offer b
  let s := (d.2.modSec fun x => { x with kxOut := b }).installKey i r.mgmt tag r.peer k.2 k.1 false
  if r.mgmt then s.firstTrust r.peer r.input else s

/-- An exchange finished (R411, R413): the initiator's halves, installed in entry `i`. -/
def State.kxInstall (s : State) (r : SeRun) (o : KxOffer) (tag i : Nat) : State :=
  let k := kxKeys (Config.kemOpen o.seed (slice r.input 64 1568)) o.blob r.input
  let s := s.installKey i r.mgmt tag r.peer k.1 k.2 true
  if r.mgmt then s.firstTrust r.peer r.input else s

/-- The end of an exchange's command: result and state. -/
def State.kxDone (s : State) (r : SeRun) : Nat × State :=
  let tag := if r.mgmt then 0 else r.tag
  let mine (o : KxOffer) : Bool := o.mgmt == r.mgmt && o.tag == tag && o.peer == r.peer
  let slot := s.keySlot r.mgmt tag r.peer
  let entropy := s.flag Loc.seSeSts 2
  if r.res ≠ 0 then (r.res, s)
  else if !s.keyOwner r.func r.mgmt r.tag then (5, s)
  else match r.cmd with
    | 1 =>
      if slot.isNone then (6, s) else if !entropy then (7, s) else (0, s.kxOffer r tag)
    | 2 =>
      let c := s.blobCheck r 1 2 []
      if c ≠ 0 then (c, s) else
      match slot with
      | none => (6, s)
      | some i =>
        if !entropy then (7, s) else (0, s.kxAnswer r tag i)
    | _ =>
      match s.sec.offers.find? mine with
      | none => (8, s)
      | some o =>
        let s := s.modSec fun x => { x with offers := x.offers.filter fun o => !mine o }
        if o.lost then (5, s) else
        let c := s.blobCheck r 0x11 0x12 (digest64 o.blob)
        if c ≠ 0 then (c, s) else
        match slot with
        | none => (6, s)
        | some i => (0, s.kxInstall r o tag i)

/-- A command that acts at a tick has acted. -/
def State.ticked (s : State) (r : SeRun) : Bool :=
  match r.cmd with
  | 6 => !s.sec.endDue.contains (r.tag % 8)
  | 5 => s.pairKeys.all fun e => match e.2 with | some k => !k.drop | none => true
  | 4 => match s.keyEntry r.mgmt r.tag r.peer with | some (_, k) => !k.due | none => true
  | _ => true

/-- The vector that DONE fires for the claiming function (Table HS-3). -/
def State.doneIrq (s : State) : State :=
  let c := s.seClaim
  if c = 0 then s.irq 0 4 else if 1 ≤ c ∧ c ≤ 8 then s.irq c 3 else s

/-- SE_COMMAND_DONE (R424): the running command ends. -/
def execSeCommandDone (s : State) : Host.Outcome State Fault Refusal :=
  match s.sec.run with
  | none => .next s
  | some r =>
    if s.holder.isNone || (r.res == 0 && !s.ticked r) then .next s else
    let q := if r.cmd ≤ 3 then s.kxDone r else (r.res, s)
    let s := q.2.modSec fun x => { x with run := none, claimDone := true }
    let s := if q.1 ≠ 0 ∧ r.cmd ≤ 3 then s.bump 0x0E00 3 0 else s
    .next ((((s.setFlag Loc.seSeSts 0 false).setFlag Loc.seSeSts 1 true).setFld Loc.seSeSts 7 4 q.1).doneIrq)

/-- OLD_KEY_EXPIRY (R413): 1 ms after the peer's new transmit half took effect; the moment is known here from the first
packet under it, else it is the command's. -/
def execOldKeyExpiry (entry : Fin 4096) (s : State) : Host.Outcome State Fault Refusal :=
  match tget none s.pairKeys entry with
  | none => .next s
  | some k =>
    let gone (s : State) : State := s.setKey entry (some { k with oldRx := none, oldEnd := none })
    match k.oldEnd with
    | none => .next (gone s)
    | some t =>
      match s.waitUntil t with
      | none => .next s
      | some s => .next (gone s)

/-- ENTROPY_FAIL (R408): the health tests of the entropy source fail. -/
def execEntropyFail (test : BitVec 8) (s : State) : Host.Outcome State Fault Refusal :=
  .next ((s.setFlag Loc.seSeSts 2 false).post 0x0E00 2 0xA8 0 test.toNat)

/-- MGR_TRUST_SEL written: the entry selected, and its VALID bit. -/
def State.trustSelOp (s : State) (v : Word) : WR :=
  match formCheck (locFields Loc.seMgrTrustSel) v with
  | some c => .error c
  | none => .ok ((s.put Loc.seMgrTrustSel (BitVec.ofNat 32 (v.bits 1 0))).setFlag Loc.seMgrTrustSel 2 (v.bit 2) (1 + v.bits 1 0))

/-! ### Attestation (R419 to R421) -/

/-- Words as little-endian bytes. -/
def wordBytes (l : List Word) : List Byte := l.flatMap fun w => leBytes 4 w.toNat

/-- Header of the committed image of a TYPE, if one was committed since delivery. -/
def State.imageHeader (s : State) (type : Nat) : Option (Tab Word) :=
  let t := tget [] s.store.images type
  if t.isEmpty then none else some t

/-- Digest of the image of a TYPE, and its SVN (Table SE-3). -/
def State.imageDigest (s : State) (type : Nat) : List Byte :=
  match s.imageHeader type with
  | some t => wordBytes (tgets 0 t 4 16)
  | none => ((deviceBytes 4 256).drop (64 * (type - 1))).take 64

/-- Bytes of an image's header (Table SE-3). -/
def headBytes (t : Tab Word) (a n : Nat) : List Byte := slice (wordBytes (tgets 0 t 0 1024)) a n

/-- Bytes of an image's body, as its header gives the length. -/
def bodyBytes (t : Tab Word) : List Byte :=
  let n := (tget 0 t 3).toNat
  (wordBytes (tgets 0 t 1024 ((n + 3) / 4))).take n

/-- The check of R417 that an image of a TYPE fails: 0 its form, then 1 to 4 the conditions in their order. -/
def State.imageFault (s : State) (type : Nat) (t : Tab Word) : Option Nat :=
  let w (i : Nat) : Word := tget 0 t i
  let slot := (w 1).bits 15 8
  let pub := headBytes t 0x50 1793
  if w 0 ≠ 0x4B584931 ∨ (w 1).bits 7 0 ≠ type ∨ (w 1).bits 31 16 ≠ 0 then some 0
  else if 3 < slot ∨ Config.slotRevoked slot ∨ digest64 pub ≠ slice (deviceBytes 5 256) (64 * slot) 64 then some 1
  else if !Config.falconOk pub (headBytes t 0 0x760) (headBytes t 0x760 1280) then some 2
  else if (w 2).toNat < tget 0 s.store.svn type then some 3
  else if headBytes t 0x10 64 ≠ digest64 (bodyBytes t) then some 4
  else none

def State.imageSvn (s : State) (type : Nat) : Nat :=
  match s.imageHeader type with
  | some t => (tget 0 t 2).toNat
  | none => Config.factorySvn type

/-- Debug powers live (Table SE-7): boundary scan, and what DEBUG_CTL allows. -/
def State.debugLive (s : State) : Nat := 1 + 4 * s.fld Loc.seDebugCtl 3 0

/-- A partition record of the report. -/
def State.partRecord (s : State) (p : Nat) : List Byte :=
  let r := lget (0, 0) s.lay.tags p
  let d := s.defined p
  let spires := ((s.spiresOf p).map fun n => 2 ^ n).sum
  let grans := (s.lay.gran.filter fun g => g.2 == p).length
  leBytes 1 (b2n d) ++ leBytes 1 (p + 1) ++ leBytes 2 spires ++ leBytes 2 r.1 ++ leBytes 2 r.2 ++ leBytes 2 grans ++
    leBytes 8 (lget 0 s.sec.sess p) ++ List.replicate 14 0

/-- The four MGR_TRUST entries, as their digest covers them. -/
def State.trustBytes (s : State) : List Byte :=
  (List.range 4).flatMap fun i =>
    leBytes 4 (b2n (s.flag Loc.seMgrTrustSel 2 (1 + i))) ++ wordBytes ((List.range 16).map fun k => s.get (Loc.seMgrTrust k) i)

/-- What the FUSES digest covers, in the order of Table SE-5: vendor key digests, revocations, minimum SVNs, debug fuses, serial. -/
def State.fuseBytes (s : State) : List Byte :=
  deviceBytes 5 256 ++ (List.range 4).map (fun i => BitVec.ofNat 8 (b2n (Config.slotRevoked i))) ++
    (s.sec.tickSvn.flatMap fun v => leBytes 4 v) ++ [1] ++ deviceBytes 0 16

/-- The first 16 bytes of the report: "KXAR", version 1, who asked, the counter of frames. -/
def State.reportHead (s : State) (req : Nat) : List Byte :=
  leBytes 4 0x4B584152 ++ leBytes 2 1 ++ leBytes 1 req ++ leBytes 1 0 ++ leBytes 8 s.clk.count

/-- The serial number, the order code, and the identity: the digest of the public key (R419). -/
def reportName : List Byte := deviceBytes 0 16 ++ leBytes 16 0x383637412D31584B ++ digest64 falconKey

/-- What was measured: images, fuses, debug, debug partitions, versions. -/
def State.reportMeasured (s : State) : List Byte :=
  ((List.range 4).flatMap fun i => s.imageDigest (i + 1)) ++ digest64 s.fuseBytes ++ leBytes 4 s.debugLive ++
    leBytes 4 (((List.range 8).map fun p => b2n (s.flag Loc.seLayFlags 0 p && s.defined p) * 2 ^ p).sum) ++
    ((List.range 4).flatMap fun i => leBytes 4 (s.imageSvn (i + 1)))

/-- The device's number and its state bits: halved, a failover happened, an identity is in force. -/
def State.reportState (s : State) : List Byte :=
  leBytes 2 s.ownDev ++ leBytes 6 (b2n s.halved + 2 * b2n s.sec.tickFailed + 32768 * b2n s.hasId)

/-- The partitions and the owners of the granules. -/
def State.reportParts (s : State) : List Byte :=
  ((List.range 8).flatMap fun p => s.partRecord p) ++
    ((List.range 384).map fun k => BitVec.ofNat 8 (s.granOwner (2 * k) + 16 * s.granOwner (2 * k + 1)))

/-- At a tick the engine takes what the report shows as of it and what else could change before the signing (R420). -/
def State.reportNote (s : State) : State :=
  let failed := s.fld (Loc.bfBfFailovers 0) 15 0 + s.fld (Loc.bfBfFailovers 1) 15 0
  let trust := s.trustBytes
  let svn := (List.range 4).map fun i => tget 0 s.store.svn (i + 1)
  s.modSec fun x => { x with tickTrust := trust, tickSvn := svn, tickFailed := failed != 0 }

/-- Bytes 0x000 to 0xAFF of the report (Table SE-5). -/
def State.reportBody (s : State) (req : Nat) (nonce : List Byte) : List Byte :=
  s.reportHead req ++ nonce ++ reportName ++ s.reportMeasured ++ s.reportState ++ s.reportParts ++
    digest64 ecdsaKey ++ digest64 s.sec.tickTrust ++ List.replicate 1552 0

/-- Bytes as words. -/
def bytesWords (b : List Byte) (n : Nat) : List Word :=
  (List.range n).map fun k => BitVec.ofNat 32 (leNat ((b.drop (4 * k)).take 4))

/-- The signed report followed by the public key (R421). -/
def State.reportAll (s : State) (req : Nat) (nonce : List Byte) : List Byte × State :=
  let d := s.draw
  let body := s.reportBody req nonce
  (body ++ falconSign body d.1 ++ falconKey, d.2)

/-- A report is counted. -/
def State.reportCount (s : State) : State := (s.addWrap Loc.seAttSts 15 0 1).bump 0x0E00 7 0

/-- ATT_CMD written. -/
def State.attCmdOp (s : State) (f : Func) (v : Word) : WR :=
  match formCheck (locFields Loc.seAttCmd) v with
  | some c => .error c
  | none =>
    if !v.bit 0 then .ok s
    else if s.flag Loc.seAttSts 16 then .error 6
    else .ok ((s.setFlag Loc.seAttSts 16 true).modSec fun x => { x with attBy := fcode f })

/-- ATT_REPORT: ATT_CMD is written with GO = 1. -/
def execAttReport (f : Func) (v : Word) (s : State) : Host.Outcome State Fault Refusal :=
  let v := v.put 0 0 1
  .next (s.write f Loc.seAttCmd v fun s => s.attCmdOp f v)

/-- ATT_REPORT_DONE (R420): the report stands in the report window, with the public key. -/
def execAttReportDone (s : State) : Host.Outcome State Fault Refusal :=
  if !s.flag Loc.seAttSts 16 || s.holder.isNone then .next s else
  let req := if s.sec.attBy = 9 then 0xFE else s.sec.attBy
  let nonce := wordBytes ((List.range 8).map fun k => s.get (Loc.seAttNonce k))
  let r := s.reportAll req nonce
  let s := (r.2.setFlag Loc.seAttSts 16 false).modSec fun x => { x with report := bytesWords r.1 1473 }
  .next s.reportCount

/-! ### SPDM and IDE (R421, R422) -/

/-- Place of a host function among the nine. -/
def fnIdx (f : Func) : Option Nat :=
  match f with
  | .pf => some 0
  | .vf p => some (p.val + 1)
  | _ => none

def State.fn (s : State) (i : Nat) : HostFn := lget {} s.fns i

/-- Start-up step 1 has passed: DOE answers, configuration requests are served (R479). -/
def State.step1Over (s : State) : Bool := decide (2 ≤ s.fld Loc.glBootSts 3 0) || s.flag Loc.glBootSts 6

/-- A DOE request of a function, which must have come as far as `need`: Busy before step 1 has passed. -/
def State.doe (s : State) (f : Func) (need : Nat) (ok : State → Nat → State) : State :=
  match fnIdx f with
  | none => s
  | some i =>
    if !s.step1Over || s.holder.isNone then { s with resp := .retry }
    else if (s.fn i).spdm < need then { s with resp := .none }
    else ok s i

/-- SPDM_GET_VERSION: the connection begins anew. -/
def execSpdmGetVersion (f : Func) (s : State) : Host.Outcome State Fault Refusal :=
  .next (s.doe f 0 fun s i => { s with resp := .done }.modFn i fun x => { x with spdm := 1 })

/-- SPDM_GET_CAPABILITIES. -/
def execSpdmGetCapabilities (f : Func) (s : State) : Host.Outcome State Fault Refusal :=
  .next (s.doe f 1 fun s i => { s with resp := .done }.modFn i fun x => { x with spdm := max x.spdm 2 })

/-- SPDM_NEGOTIATE_ALGORITHMS. -/
def execSpdmNegotiateAlgorithms (f : Func) (s : State) : Host.Outcome State Fault Refusal :=
  .next (s.doe f 2 fun s i => { s with resp := .done }.modFn i fun x => { x with spdm := max x.spdm 3 })

/-- SPDM_VENDOR_DEFINED (R421): the report and the public key. -/
def execSpdmVendorDefined (f : Func) (nonce : List Byte) (s : State) : Host.Outcome State Fault Refusal :=
  .next (s.doe f 3 fun s i =>
    let r := s.reportAll (if i = 0 then 0xFF else i) nonce
    { r.2.reportCount with resp := .bytes r.1 })

/-- SPDM_KEY_EXCHANGE (R422): a secured session opens; the response carries a signature made with the ECDSA key (R419), whose
transcript is SPDM's (free value). -/
def execSpdmKeyExchange (f : Func) (s : State) : Host.Outcome State Fault Refusal :=
  .next (s.doe f 3 fun s i =>
    let d := s.draw
    let sig := (List.range 96).map fun k => Config.ecdsaSign (deviceBytes 1 64) d.1 k
    { d.2 with resp := .bytes sig }.modFn i fun x => { x with spdm := 4 })

/-- IDE_KM (R422): the key of the function's selective stream, set in the secured session. -/
def execIdeKm (f : Func) (key : BitVec 256) (s : State) : Host.Outcome State Fault Refusal :=
  .next (s.doe f 4 fun s i => { s with resp := .done }.modFn i fun x => { x with ide := some key })

end Sys2Proof.Machine
end

