-- ==== Sys2Proof/Machine/Start.lean ====
section
/-! DEFINITION. The start in nine steps, the join set, RESET_N and the hot-swap (R357, R384, R417, R474 to R480). -/

namespace Sys2Proof.Machine

/-! ### Steps -/

/-- State of the start's step: 0 running, 1 waiting for CONTINUE, 2 complete, 3 halted. -/
def State.stepState (s : State) : Nat := s.fld Loc.glBootSts 5 4

/-- A start code of Table HS-12, kept in BOOT_STS.LAST_CODE. -/
def State.startCode (s : State) (cls code unit info : Nat) : State :=
  (s.postGlobal cls code unit info).setFld Loc.glBootSts 15 8 code

/-- A step begins. -/
def State.beginStep (s : State) (n : Nat) : State :=
  { s with start := { s.start with stepAt := s.clk.elapsed } }.setBoot n 0

/-- The start halts in its step. -/
def State.haltStart (s : State) : State := s.setBoot s.step_ 3

/-- Records saved before the start come back, in the order of their time (R430, R438). -/
def State.restoreLog (s : State) : State :=
  let l := s.faults.saved.foldl (fun a r => byTime r a) []
  let l := l.zipIdx.map fun x => { x.1 with prior := true, seq := x.2 + 1 }
  (s.modFaults fun f => { f with log := l, nextSeq := l.length + 1 }).setFlag Loc.glFaultSts 1 (!l.isEmpty)

/-- Step 1 ends with East holding (R384): it waits for no silence of the line. -/
def State.bootEast (s : State) (west : Bool) : State :=
  let s := s.enterHold 0
  let s := if west then (s.setRole 1 2).setFlag (Loc.bfBfSts 1) 2 true else s.setRole 1 0
  s.restoreLog.railsOn.beginStep 2

/-- At the limit of step 1, West takes over from an East that failed, as R378 has it (R384, R475): never while the line is
stuck, and 50 µs after its query where that has a path. -/
def State.bootWest (s : State) : State :=
  if s.stuck then s else
  match if s.pathStatus (bfStation 1) (bfStation 0) = 0 then s.waitUntil (s.clk.elapsed + 50000) else some s with
  | none => s
  | some s => ((s.setRole 0 0).takeOver 1).restoreLog.railsOn.beginStep 2

/-- Recovery boot (R478): the start stops after step 1. -/
def State.recoveryBoot (s : State) (type check : Nat) : State :=
  let s := ((s.setRole 0 0).setRole 1 0).startCode 3 0xB0 type check
  (s.setFlag Loc.glBootSts 6 true).haltStart

/-- The fuse check failed: the start halts (Table HS-11). -/
def State.fuseFail (s : State) (block : Nat) : State := (s.startCode 3 0xB1 0 block).haltStart

/-- Lanes of a bundle group as the start-time test found them (R222). -/
def State.groupTest (s : State) (st g failed : Nat) : State :=
  let loc := Loc.plBunSts (stPlinth st)
  let s := (s.setFld loc 2 0 (4 - failed) (bunIdx st g)).setFld loc 11 4 (min 255 failed) (bunIdx st g)
  if failed > 4 then s.stationLoss st else s

/-- The choice of spares of a group differs from the fuses (R222, R226). -/
def State.groupDiff (s : State) (st g : Nat) : State :=
  (s.setFlag (Loc.plBunSts (stPlinth st)) 3 true (bunIdx st g)).post (plPage (stPlinth st) 0) 0 0x61 (stLocal st) g

/-- Lanes of a seam bundle as the start-time test found them (R226). -/
def State.seamTestStart (s : State) (p failed : Nat) : State :=
  let loc := Loc.plSeamSts (p / 2)
  (s.setFld loc 2 0 (6 - failed) (seamBundle p)).setFld loc 9 4 (min 54 failed) (seamBundle p)

def State.seamDiffStart (s : State) (p : Nat) : State :=
  (s.setFlag (Loc.plSeamSts (p / 2)) 3 true (seamBundle p)).post (plPage (p / 2) 0) 0 0x61 0xFF (seamBundle p)

/-- Parts of a kind that have not started come up. -/
def State.plinthsUp (s : State) : State :=
  { s with plinths := s.plinths.map fun x => { x with out := if x.out = 4 then 0 else x.out } }

/-- A die whose generator did not lock fails (R326), as one whose rail fails does (R360). No record has a code for it (DESIGN
CHOICE, log entry 182). -/
def State.dieUnlocked (s : State) (i : Nat) : State :=
  if i < 16 then s.spireDown i
  else if i < 24 then s.modGate (i - 16) fun g => { g with out := 2 }
  else if i < 26 then s.fencePlinth (i - 24) 0
  else if i < 28 then s.oculusFatal (i - 26) 0
  else s.belfryStop (i - 28) 0

/-- Step 3: generators, lane selection and bond self-test; what fails leaves service (R141, R147, R222, R226, R326). -/
def State.lanesStep (s : State) (r : StepResult) : State :=
  let s := r.unlocked.foldl (fun s i => s.dieUnlocked i) s
  let s := r.lanes.foldl (fun s x => s.groupTest x.1 x.2.1 x.2.2) s
  let s := r.lanesDiff.foldl (fun s x => s.groupDiff x.1 x.2) s
  let s := r.stationsOut.foldl (fun s x => s.stationLoss x) s
  let s := r.seams.foldl (fun s x => s.seamTestStart x.1 x.2) s
  let s := r.seamDiff.foldl (fun s p => s.seamDiffStart p) s
  let s := r.seamRows.foldl (fun s x => s.seamLost x.1 x.2.1 x.2.2) s
  let s := (List.range 16).foldl (fun s n =>
    if (s.spire n).out ≠ 4 then s else
    let t := testOf r.spireTests n
    let s := s.startTest n t
    let bad := s.testedBad n t
    s.modSpire n fun sp => { sp with bad := bad }) s
  s.plinthsUp.beginStep 4

/-- Both sides have light. -/
def State.bothLit (s : State) : Bool := s.lit 0 && s.lit 1

/-- A side without light in step 4: L2 takes it over when locked, else its plinth is fenced (R238, R240). -/
def State.darkStart (s : State) (e : Nat) : State :=
  if s.lit e then s
  else if s.bay 2 = 2 ∧ s.l2Side.isNone then s.swapSide e
  else (s.post 0xD00 2 0x74 e (s.get Loc.lnLnSts).toNat).fencePlinth e 0x74

/-- Step 4 at its limit (Table HS-11). -/
def State.lightLimit (s : State) : State :=
  let none_ := !s.lit 0 && !s.lit 1 && decide (s.bay 2 ≠ 2)
  let st : Start := { s.start with stepAt := s.clk.elapsed }
  let again : State := { s with start := st }
  if none_ then (again.startCode 2 0xB2 0 (s.get Loc.lnLnSts).toNat).haltStart
  else ((s.darkStart 0).darkStart 1).beginStep 5

/-- A row as step 5 found it: a corrected error when its offset or ring states are not as fused (R256). -/
def State.startRow (s : State) (st p : Nat) (rx : Bool) (w : SweptRow) : State :=
  let key := rowKey st p rx
  let s := s.sweptRow st p rx w true
  let r := s.row st p rx
  if r.offOf key = refOff key ∧ r.badOf key = fusedBad key then s
  else s.post (plPage (stPlinth st) 0x10) 0 0x65 (stLocal st) (p + 4 * b2n rx)

/-- A port row as step 5 found it (R254, R256). -/
def State.rowStart (s : State) (st p : Nat) (r : Sweep) : State :=
  let s := (s.startRow st p false r.tx).startRow st p true r.rx
  if s.rowOut st p then s.maskRow st p else s

/-- Step 5: ring calibration, plane training, fibre ports (R256, R273). -/
def State.trainStep (s : State) (r : StepResult) : State :=
  let s := r.sweeps.foldl (fun s x => s.rowStart x.1 x.2.1 x.2.2) s
  let s : State := { s with plinths := s.plinths.map fun (x : Plinth) => { x with trained := decide (x.out = 0) } }
  let s := (List.range 2).foldl (fun s e => s.modOculus e fun o =>
    { o with out := if o.out ≠ 4 then o.out else if (s.ocStationsUp e).isEmpty then 2 else 0 }) s
  (s.modOptics fun o => { o with anomDue := [true, true] }).beginStep 6

/-- hPPR of a gatehouse's repair record (R187): one page per channel may leave it; the others are loaded as soft
entries while the store has room. -/
def State.repairStart (s : State) (g : Nat) (ok : List Nat) : State :=
  let l := (s.gate g).record
  let done := (List.range l.length).filter fun i =>
    ok.contains i && !(ok.any fun j => decide (j < i ∧ j < l.length) && (l.getD j {}).ch == (l.getD i {}).ch)
  let left := (List.range l.length).filterMap fun i => if done.contains i then none else l[i]?
  (s.modGate g fun x =>
    { x with record := left
             store := x.store ++ (left.take (64 - x.store.length)).map fun p => (p, 2) }).showStore g

/-- Step 6: LPDDR5X training, hPPR, every line written with zero ciphertext, the administrative key (R159, R170, R173,
R187, R189). -/
def State.memoryStep (s : State) (r : StepResult) : State :=
  let s := { s with mem := [], memKey := [], memFlip := [], keys := lmod s.keys 8 fun _ => s.nextKey, nextKey := s.nextKey + 1 }
  let s := (List.range 8).foldl (fun s g =>
    if (s.gate g).out ≠ 4 then s else
    let s := s.put (Loc.gtMemSts g) (BitVec.ofNat 32 (s.fld (Loc.gtMemCfg g) 1 0 + 4 + 8 * 48))
    let s := s.repairStart g (r.hpprOk.filterMap fun x => if x.1.val = g then some x.2 else none)
    s.modGate g fun x => { x with out := 0, since := s.clk.elapsed }) s
  let s := r.chansFailed.foldl (fun s x => if (s.gate x.1).out = 0 then s.channelFail x.1 x.2 else s) s
  s.beginStep 7

/-- The part of step 9 that the transit needs (R294, R476). -/
def State.openFabric (s : State) : State :=
  if s.start.fabric then s else
  let s := { s with start := { s.start with fabric := true } }
  let w := s.get (Loc.ocRingCtl 0)
  let s := if w.bit 1 && !w.bit 0 && (s.oculus 0).out == 0 && !s.flag Loc.glFaultSts 0 then s.moveBypass false else s
  (List.range 32).foldl (fun s p => s.pump p) s

/-- Registers of the join set (R477), as place and selection: FAB_ID, TIME_CTL, TIME_PARENT, the management registers, and
the route entries of the devices they name. -/
def State.joinKeys (s : State) : List (Loc × Nat) :=
  let devs := [Loc.glTimeParent, Loc.glMgmtPair, Loc.glMgmtUpA, Loc.glMgmtUpB].filterMap fun loc =>
    if s.flag loc 16 then some (s.fld loc 15 0) else none
  [(Loc.glFabId, 0), (Loc.glTimeCtl, 0), (Loc.glTimeParent, 0), (Loc.glMgmtCfg, 0), (Loc.glMgmtPair, 0), (Loc.glMgmtUpA, 0),
    (Loc.glMgmtUpB, 0)] ++
    devs.flatMap fun d => [(Loc.ocRouteData 0, d), (Loc.ocRouteData 1, d)]

/-- The join set stored (R477). -/
def State.saveJoin (s : State) : State :=
  { s with store := { s.store with join := s.joinKeys.map fun k => (rkey k.1 k.2, s.get k.1 k.2) } }

/-- The registers loaded from the join set that was saved last (R477). -/
def State.loadJoin (s : State) : State :=
  s.store.join.foldl (fun s k => s.put (k.1 / 1048576) k.2 (k.1 % 1048576)) s

/-- Step 8 begins (R349, R476): for time modes 1 and 2 the fabric opens with it. -/
def State.beginJoin (s : State) : State :=
  let s := s.beginStep 8
  (if s.timeMode = 0 then s else s.openFabric).startJoin

/-- Step 7: cell maps (R73, R74). The start pauses before step 8 unless AUTO is 1 (R477). -/
def State.mapStep (s : State) : State :=
  let s := (List.range 16).foldl (fun s n =>
    let sp := s.spire n
    if sp.out ≠ 4 then s else
    if s.power.tripped.contains n then s.modSpire n fun sp => { sp with out := 2 } else s.buildMap n sp.bad) s
  if s.flag Loc.glStartCfg 0 then s.loadJoin.beginJoin else s.setBoot 8 1

/-- The device has an upper pair (R476). -/
def State.hasUpper (s : State) : Bool := s.flag Loc.glMgmtUpA 16 || s.flag Loc.glMgmtUpB 16

/-- No port is on its way up. -/
def State.portsSettled (s : State) : Bool :=
  (List.range 32).all fun p => s.portState p == 0 || decide (4 ≤ s.portState p)

/-- The start is complete. -/
def State.startDone (s : State) : State := s.setBoot 10 2

/-- The first image of the store that fails its check at the start, and the check (R417): one that was committed, or a
factory image whose SVN is below the fused minimum; what else becomes of a factory image is the command's to say. -/
def State.storeFault (s : State) : Option (Nat × Nat) :=
  [1, 2, 3, 4].findSome? fun type =>
    match s.imageHeader type with
    | some t => (s.imageFault type t).map fun c => (type, c)
    | none =>
      let least := tget 0 s.store.svn type
      if least = 0 ∨ least ≤ Config.factorySvn type then none else some (type, 3)

/-- Every image passes. -/
def State.imagesPass (s : State) (r : StepResult) : Bool := s.storeFault.isNone && r.imagesOk

/-- No image is loaded, and the first that failed is logged with its check. -/
def State.noImage (s : State) (r : StepResult) : State :=
  match s.storeFault with
  | some f => s.recoveryBoot f.1 f.2
  | none => s.recoveryBoot r.imageType r.imageCheck

/-- A step that is done. -/
def State.stepEnd (s : State) (r : StepResult) : State :=
  match s.step_ with
  | 1 => if r.eastPass && s.imagesPass r then s.bootEast r.westPass else s
  | 2 => if r.pass then s.beginStep 3 else s.fuseFail r.fuseBlock
  | 3 => s.lanesStep r
  | 4 => if s.bothLit then s.beginStep 5 else s
  | 5 => s.trainStep r
  | 6 => s.memoryStep r
  | 7 => s.mapStep
  | 8 => if s.timeState = 2 then (s.beginStep 9).openFabric else s
  | 9 =>
    if s.hasUpper then (if s.fld Loc.glMgmtSts 1 0 = 1 then s.startDone else s)
    else if s.portsSettled then s.startDone
    else match s.waitUntil (s.start.stepAt + 1000000000) with
      | some s => s.startDone
      | none => s
  | _ => s

/-- START_STEP_END (R475): the step in progress ends; a start halted at step 4 goes on when light has come. -/
def execStartStepEnd (r : StepResult) (s : State) : Host.Outcome State Fault Refusal :=
  if s.stepState = 0 ∨ (s.stepState = 3 ∧ s.step_ = 4) then .next (s.stepEnd r).settleAll else .next s

/-- Limit of a step in ns (Table HS-11). -/
def stepLimit (n : Nat) : Nat :=
  match n with
  | 1 => 5000000000
  | 2 => 100000000
  | 4 => 60000000000
  | 6 => 35000000000
  | 7 => 100000000
  | 9 => 60000000000
  | _ => 1000000000

/-- The outcome of a step at its limit. -/
def State.stepLimitEnd (s : State) (r : StepResult) : State :=
  let n := s.step_
  let s := if n = 8 ∧ s.time.late then s else s.startCode 2 0xB3 n 0
  match n with
  | 1 =>
    if !s.imagesPass r || (!r.eastPass && !r.westPass) then s.noImage r
    else if r.eastPass then s.bootEast r.westPass else s.bootWest
  | 2 => s.fuseFail r.fuseBlock
  | 3 => s.lanesStep r
  | 4 => s.lightLimit
  | 5 => s.trainStep r
  | 6 => s.memoryStep r
  | 7 => s.mapStep
  | 8 => if s.timeState ≠ 1 ∨ s.time.late then s else (s.modTime fun t => { t with late := true }).postGlobal 2 0x06 0 0
  | _ => s.startDone

/-- START_STEP_LIMIT (R475): the step's limit passes, and it ends with its outcome; step 4 halted is retried every 60 s. -/
def execStartStepLimit (r : StepResult) (s : State) : Host.Outcome State Fault Refusal :=
  if !((s.stepState == 0 && decide (1 ≤ s.step_ ∧ s.step_ ≤ 9)) || (s.stepState == 3 && s.step_ == 4)) then .next s else
  match s.waitUntil (s.start.stepAt + stepLimit s.step_) with
  | none => .next s
  | some s => .next (s.stepLimitEnd r).settleAll

/-! ### Registers of the start (R476, R477, Table HS-13) -/

/-- START_CTL written: SAVE stores the join set; CONTINUE leaves the pause. -/
def State.startCtlOp (s : State) (v : Word) : WR :=
  match formCheck (locFields Loc.glStartCtl) v with
  | some c => .error c
  | none =>
    if v.bit 0 && s.stepState != 1 then .error 5 else
    let s := if v.bit 1 then s.saveJoin else s
    .ok (if v.bit 0 then s.beginJoin else s)

/-- CONTINUE: START_CTL is written with CONTINUE = 1. -/
def execContinue (f : Func) (v : Word) (s : State) : Host.Outcome State Fault Refusal :=
  let v := v.put 0 0 1
  .next (s.write f Loc.glStartCtl v fun s => s.startCtlOp v)

/-- SAVE: START_CTL is written with SAVE = 1. -/
def execSave (f : Func) (v : Word) (s : State) : Host.Outcome State Fault Refusal :=
  let v := v.put 1 1 1
  .next (s.write f Loc.glStartCtl v fun s => s.startCtlOp v)

/-- FAB_ID written: not after step 9 has begun. -/
def State.fabIdOp (s : State) (v : Word) : WR :=
  match formCheck (locFields Loc.glFabId) v with
  | some c => .error c
  | none => if s.start.fabric || decide (9 ≤ s.step_) then .error 5 else .ok (s.put Loc.glFabId v)

/-- FAB_ID_WRITE: FAB_ID is written. -/
def execFabIdWrite (f : Func) (v : Word) (s : State) : Host.Outcome State Fault Refusal :=
  .next (s.write f Loc.glFabId v fun s => s.fabIdOp v)

/-! ### The hot-swap -/

/-- HOT_SWAP_CLOSE (R357, R475): step 1 rails come up and the start begins, unless RESET_N is held. -/
def execHotSwapClose (s : State) : Host.Outcome State Fault Refusal :=
  if s.power.closed then .next s else
  let s := s.modPower fun p => { p with closed := true, rails := 1 }
  .next (if s.start.resetN then s else s.startUp)

end Sys2Proof.Machine
end

