-- ==== Sys2Proof/Machine/Mail.lean ====
section
/-! DEFINITION. The host link, function resets, mailboxes and their messages (R453, R454, R460 to R468, R479). -/

namespace Sys2Proof.Machine

/-! ### The link and its functions (R454, R465, R479) -/

/-- HOST_LINK_TRAIN (R454): rate 1 to 6, lanes, FLIT mode. A link that was up has retrained. -/
def execHostLinkTrain (rate : BitVec 3) (width : BitVec 4) (flit : Bool) (s : State) : Host.Outcome State Fault Refusal :=
  if !s.power.closed ∨ s.start.resetN then .next s else
  let again := s.fld Loc.glHostSts 2 0 != 0
  let down := !(rate == 6 && width == 8 && flit)
  let w := rate.toNat + 8 * width.toNat + 128 * b2n flit + 256 * s.fld Loc.glHostSts 8 8 + 512 * b2n down
  let s := s.put Loc.glHostSts (BitVec.ofNat 32 w)
  let s := if down then s.postGlobal 0 0xB8 0 w else s
  .next (if again then s.postGlobal 0 0xB9 0 w else s)

/-- The words of BAR 0 and BAR 2 (Table HS-2): address, with the type bits of a 64-bit BAR below, non-prefetchable and
prefetchable (PRESUMED, log entry 245). -/
def barWord (bars : List Nat) (k : Nat) : Word :=
  BitVec.ofNat 32 ((lget 0 bars (k / 2) + (if k / 2 = 0 then 4 else 12)) / 2 ^ (32 * (k % 2)))

/-- A word of a BAR written: its address keeps to its size, 64 MiB and 128 GiB (Table HS-2), so that a write of ones sizes it. -/
def barPut (bars : List Nat) (k : Nat) (v : Word) : List Nat :=
  lmod bars (k / 2) fun a =>
    let size := if k / 2 = 0 then 2 ^ 26 else 2 ^ 37
    let b := if k % 2 = 0 then a / 2 ^ 32 * 2 ^ 32 + v.toNat else v.toNat * 2 ^ 32 + a % 2 ^ 32
    b / size * size

/-- The capabilities of a function (Table HS-1), a bit each: power management, PCI Express, MSI-X, AER, DOE, IDE and ARI are there,
SR-IOV (bit 7) on the PF; MSI, INTx, L0p, ASPM, ATS, PRI and PASID (bits 8 to 14) are absent. -/
def cfgCaps (i : Nat) : Word := BitVec.ofNat 32 (0x7F + 0x80 * b2n (i == 0))

/-- A word of the configuration space of a function (R453, R455, R479). -/
def State.cfgRead (s : State) (i : Nat) : CfgReg → Word
  | .identity k => Config.configId k
  | .capabilities => cfgCaps i
  | .power => if (s.fn i).d3 then 3 else 0
  | .bar k => barWord (s.fn i).bars k
  | .sriov => (s.fn i).sriov
  | .vfBar k => if i = 0 then barWord (s.fn i).vfBars k else 0
  | .msixControl => (s.fn i).msixCtl + BitVec.ofNat 32 (if i = 0 then 255 else 223)
  | .msix v w => tget 0 (s.fn i).msix (4 * v.val + w)
  | .link => BitVec.ofNat 32 (s.fld Loc.glHostSts 7 0)
  | .aer => if (s.fn i).aer then 0x8000 else 0
  | .aerHeader k => BitVec.ofNat 32 (if k = 0 then (s.fn i).aerAt else (s.fn i).aerLen)

/-- A word of the configuration space written; what is read only keeps its value. The states are D0 and D3hot (Table HS-1). -/
def State.cfgWrite (s : State) (i : Nat) (v : Word) : CfgReg → State
  | .power => s.modFn i fun x => { x with d3 := if v.bits 1 0 = 3 then true else if v.bits 1 0 = 0 then false else x.d3 }
  | .bar k => s.modFn i fun x => { x with bars := barPut x.bars k v }
  | .sriov => if i = 0 then s.modFn i fun x => { x with sriov := v } else s
  | .vfBar k => if i = 0 then s.modFn i fun x => { x with vfBars := barPut x.vfBars k v } else s
  | .msixControl => s.modFn i fun x => { x with msixCtl := v.put 29 0 0 }
  | .msix n w =>
    if n.val < (if i = 0 then 256 else 224) then s.modFn i fun x => { x with msix := tset 0 x.msix (4 * n.val + w) v } else s
  | .aer => s.modFn i fun x => { x with aer := x.aer && !v.bit 15 }
  | _ => s

/-- CONFIG_REQUEST (R453, R479): retry status until step 1 has passed, or 1 s after the release; then the function's
configuration space is read or written. DESIGN CHOICE: the registers are named by what they hold, and the mask bits of the
MSI-X table hold nothing back (log entry 245). -/
def execConfigRequest (a : ConfigAccess) (s : State) : Host.Outcome State Fault Refusal :=
  let open_ := s.step1Over || decide (s.start.since + 1000000000 ≤ s.clk.elapsed)
  match fnIdx a.f with
  | none => .next { s with resp := .none }
  | some i =>
    if !s.power.closed || s.start.resetN then .next { s with resp := .none }
    else if !open_ then .next { s with resp := .retry }
    else match a.val with
      | none => .next { s with resp := .word (s.cfgRead i a.reg) }
      | some v => .next { s.cfgWrite i v a.reg with resp := .done }

/-- FLR (R465): the function's mailbox, its claim, its configuration space with the MSI-X table, and WIN2_BASE. -/
def execFlr (f : Func) (s : State) : Host.Outcome State Fault Refusal :=
  match fnIdx f with
  | none => .next s
  | some m =>
    let s := s.abortMbox m 0 false true
    let s := s.put (Loc.mbMbSts m) 0
    let s := if s.seClaim = m then s.setFld Loc.seSeSts 11 8 15 else s
    let s := s.modFn m fun x => { ide := x.ide }
    .next (s.put (Loc.mbWin2Base m) 0)

/-! ### Queues (R460 to R463) -/

/-- A host write to a mailbox page is rejected (R461). -/
def State.mailReject (s : State) (m off : Nat) (len : Nat := 4) : State :=
  ((s.hostNotice m 2).postGlobal 1 0xB4 m 0 (some (fnPart m))).aerAbort m off len

/-- A host or spire mailbox is in an abort (R464): its belfry has stopped, or hands over, and no other holds yet. -/
def State.mailAborted (s : State) : Bool :=
  s.holder.isNone && (s.mgmt.stoppedAt.isSome || s.belfries.any (·.handing)) && !s.bootMail

/-- Words that the commands of Table HS-6 have after their header. -/
def mailWords (cmd n : Nat) : Bool :=
  match cmd with
  | 1 => n == 0
  | 2 => decide (2 ≤ n)
  | 3 | 4 | 6 => n == 2
  | 5 => n == 3
  | 7 => n == 1
  | _ => false

/-- The message at the head of a mailbox, as far as its words have come. -/
def Mbox.words (x : Mbox) : List Word := x.part ++ x.up

/-- The belfry removes the words of an unfinished message from a full queue, so that a message of more than 16 words flows
(R466; DESIGN CHOICE: at that moment, log entry 246). -/
def Mbox.flow (x : Mbox) (live : Bool) : Mbox :=
  match x.words with
  | [] => x
  | h :: l => if live && x.up.length == 16 && decide (l.length < h.bits 15 8) then { x with part := x.words, up := [] } else x

/-- A mailbox is served. -/
def State.mailLive (s : State) (m : Nat) : Bool := (m == 0 && s.flag Loc.glBootSts 6) || s.holder.isSome

/-- MB_TX_DATA written: a word towards the belfry, discarded during an abort (R461, R464, Table HS-7). -/
def State.mbTxOp (s : State) (m : Nat) (v : Word) : WR :=
  .ok (if s.mailAborted then s
    else if (s.mbox m).skip ≠ 0 then s.modMbox m fun x => { x with skip := x.skip - 1 }
    else if (s.mbox m).up.length < 16 then s.modMbox m fun x => { x with up := x.up ++ [v] }.flow (s.mailLive m)
    else s.mailReject m 0x40)

/-- A host write of a mailbox register by its width: more than 4 bytes are rejected as R461 states, with code 0x04 beside it when the
writer does not own the page, whose own notices stay; fewer by R486. -/
def State.mailWidth (s : State) (f : Func) (m off bytes : Nat) (op : State → State) : State :=
  if bytes ≤ 4 then op s
  else if !s.pageOpen f (0x180 + m) then s
  else if fowns f (s.pageOwner (0x180 + m)) then s.mailReject m off bytes
  else
    let s := (s.reject f (0x180 + m) off 4).postGlobal 1 0xB4 m 0 (some (fnPart m))
    match fnIdx f with
    | some i => s.aerAbort i off bytes
    | none => s

/-- The sequencer of a spire can reach its mailbox; words written while it is in reset, or during an abort, are discarded (R464). -/
def State.seqMail (s : State) (m : Nat) : Bool := decide (9 ≤ m) && (s.spire (m - 9)).out == 0 && !s.mailAborted

/-- MB_TX_DATA: a word written by the host, by a sequencer (`toBelfry`), or by the active belfry. A full queue gives its
writer inside the device a bus error. -/
def execMbTxData (f : Func) (m : Fin 25) (toBelfry : Bool) (w : Word) (bytes : Nat) (s : State) :
    Host.Outcome State Fault Refusal :=
  if toBelfry ∧ m.val < 9 then
    .next (s.mailWidth f m 0x40 bytes fun s =>
      if bytes < 4 then s.write f (Loc.mbMbTxData m) w fun _ => .error 2
      else s.write f (Loc.mbMbTxData m) w fun s => s.mbTxOp m w)
  else
    let x := s.mbox m
    let live := if toBelfry then s.seqMail m else s.holder.isSome && (decide (m.val < 9) || s.seqMail m)
    let q := if toBelfry then x.up else x.down
    if !live then .next s
    else if 16 ≤ q.length then .next { s with resp := .abort }
    else .next (s.modMbox m fun x => if toBelfry then { x with up := x.up ++ [w] } else { x with down := x.down ++ [w] })

/-- MB_RX_POP written. -/
def State.mbPopOp (s : State) (m : Nat) (v : Word) : WR :=
  match formCheck (locFields (Loc.mbMbRxPop m)) v with
  | some c => .error c
  | none => .ok (if v.bit 0 then s.modMbox m fun x => { x with down := x.down.drop 1 } else s)

/-- MB_RX_POP: MB_RX_POP is written with POP = 1. -/
def execMbRxPop (f : Func) (m : Fin 9) (v : Word) (s : State) : Host.Outcome State Fault Refusal :=
  let v := v.put 0 0 1
  .next (s.write f (Loc.mbMbRxPop m) v fun s => s.mbPopOp m v)

/-- The queue from a sender emptied, and the receiver's notice set (R463). -/
def State.flushUp (s : State) (m : Nat) : State := s.modMbox m fun x => { x with up := [], part := [], skip := 0, flushUp := true }
def State.flushDown (s : State) (m : Nat) : State :=
  let s := s.modMbox m fun x => { x with down := [], flushDown := decide (9 ≤ m) || x.flushDown }
  if m < 9 then s.hostNotice m 3 else s

/-- Words of an incoming queue: what a longer message has still at the belfry follows. -/
def State.dropDown (s : State) (m : Nat) : State := s.modMbox m fun x => { x with down := x.down.drop 16 }
def State.dropUp (s : State) (m : Nat) : State := s.modMbox m fun x => { x with up := [], part := [] }

/-- Header of a message (R466). -/
def mailHead (c n mid : Nat) : Word := BitVec.ofNat 32 (c + 256 * n + 65536 * mid)

/-- The oldest message of a served queue, when its command is none of Table HS-6, status 0x01, or its words are not as many as the
table gives it, status 0x02 (R466). -/
def State.refuseHead (s : State) (m : Nat) : State :=
  match (s.mbox m).words with
  | [] => s
  | h :: l =>
    let n := h.bits 15 8
    let known := decide (1 ≤ h.bits 7 0 ∧ h.bits 7 0 ≤ 7)
    if !s.mailLive m || mailWords (h.bits 7 0) n then s
    else s.modMbox m fun x =>
      { x with up := l.drop n, part := [], skip := n - l.length
               down := x.down ++ [mailHead ((h.bits 7 0 + 0x80) % 256) 1 (h.bits 31 16), if known then 2 else 1] }

/-- Messages at the head of the queue of a mailbox that no command takes are answered. -/
def State.refuseUnknown (s : State) (m : Nat) : State := (List.range 16).foldl (fun s _ => s.refuseHead m) s

/-- MB_CTL written: the flushes first, then the wake (R468). -/
def State.mbCtlOp (s : State) (m : Nat) (v : Word) : WR :=
  match formCheck (locFields (Loc.mbMbCtl m)) v with
  | some c => .error c
  | none =>
    let s := if v.bit 1 then s.flushUp m else s
    let s := if v.bit 2 then s.dropDown m else s
    .ok (if v.bit 0 then (s.modMbox m fun x => { x with bellUp := true }).refuseUnknown m else s)

/-- DOORBELL (R462): rung by the host with MB_CTL.DOORBELL, by a sequencer, or by the active belfry. -/
def execDoorbell (f : Func) (m : Fin 25) (toBelfry : Bool) (s : State) : Host.Outcome State Fault Refusal :=
  if toBelfry then
    if m.val < 9 then .next (s.write f (Loc.mbMbCtl m) 1 fun s => s.mbCtlOp m 1)
    else .next (if s.seqMail m then s.modMbox m fun x => { x with bellUp := true } else s)
  else if s.holder.isNone then .next s
  else if m.val < 9 then .next (s.hostNotice m 0)
  else .next (s.modMbox m fun x => { x with bellDown := true })

/-- FLUSH_TX (R463): by the host with MB_CTL.FLUSH_TX, by a sequencer, or by the active belfry. -/
def execFlushTx (f : Func) (m : Fin 25) (fromBelfry : Bool) (s : State) : Host.Outcome State Fault Refusal :=
  if fromBelfry then .next (if s.holder.isSome then s.flushDown m else s)
  else if m.val < 9 then .next (s.write f (Loc.mbMbCtl m) 2 fun s => s.mbCtlOp m 2)
  else .next (if s.seqMail m then s.flushUp m else s)

/-- FLUSH_RX (R463): by the host with MB_CTL.FLUSH_RX, by a sequencer, or by the active belfry. -/
def execFlushRx (f : Func) (m : Fin 25) (atBelfry : Bool) (s : State) : Host.Outcome State Fault Refusal :=
  if atBelfry then .next (if s.holder.isSome then s.dropUp m else s)
  else if m.val < 9 then .next (s.write f (Loc.mbMbCtl m) 4 fun s => s.mbCtlOp m 4)
  else .next (if s.seqMail m then s.modMbox m fun x => { x with down := [] } else s)

/-! ### Messages of the host mailboxes (R466, R467) -/

/-- BOOT_STS with its seconds. -/
def State.bootWord (s : State) : Word :=
  (s.get Loc.glBootSts).put 31 16 (if s.step_ = 0 then 0 else min 65535 ((s.clk.elapsed - s.start.since) / 1000000000))

/-- A queue begins with all the words of a message. -/
def startsWith : List Word → List Word → Bool
  | a :: l, b :: m => a == b && startsWith l m
  | _, [] => true
  | [], _ => false

/-- Who serves messages, and for which commands (R467, R475, R478): the refusing status, or nothing when the command is
served. -/
def State.mailStatus (s : State) (m cmd : Nat) : Option Nat :=
  if s.flag Loc.glBootSts 6 then (if cmd ≤ 3 then none else some 1)
  else if s.bootMail then (if cmd = 1 then none else some 1)
  else if m ≠ 0 ∧ (cmd = 2 ∨ cmd = 3 ∨ cmd = 4 ∨ cmd = 7) then some 3 else none

/-- A message of `n` words is taken from the queue of its mailbox; the belfry has seen the mailbox's notices. -/
def State.mailTaken (s : State) (m n : Nat) : State :=
  s.modMbox m fun x => { x with up := x.up.drop (n - x.part.length), part := [], bellUp := false, abortUp := false, flushUp := false }

/-- The response to a message: its status and data (R466). -/
def State.mailAnswer (s : State) (m cmd : Nat) (mid : BitVec 16) (status : Nat) (data : List Word) : State :=
  let words := mailHead (cmd + 0x80) (1 + data.length) mid.toNat :: BitVec.ofNat 32 status :: data
  (s.modMbox m fun x => { x with down := x.down ++ words }).refuseUnknown m

/-- The message at the head of the queue of a served mailbox has come whole, with this command and these words. -/
def State.mailHeads (s : State) (m cmd : Nat) (mid : BitVec 16) (args : List Word) : Bool :=
  s.mailLive m && mailWords cmd args.length && decide (args.length ≤ 255) &&
    startsWith (s.mbox m).words (mailHead cmd args.length mid.toNat :: args)

/-- A message is taken and answered: `run` gives the status, the response words and the state (R466). -/
def State.mailServe (s : State) (m : Nat) (mid : BitVec 16) (cmd : Nat) (args : List Word)
    (run : State → Nat × List Word × State) : State :=
  if !s.mailHeads m cmd mid args then s else
  let s := s.mailTaken m (args.length + 1)
  let r := match s.mailStatus m cmd with
    | some c => (c, [], s)
    | none => run s
  r.2.2.mailAnswer m cmd mid r.1 r.2.1

/-- STATUS (R467). -/
def execStatus (m : Fin 9) (mid : BitVec 16) (s : State) : Host.Outcome State Fault Refusal :=
  .next (s.mailServe m mid 1 [] fun s =>
    (0, [s.bootWord, s.get Loc.glHostSts, s.get (Loc.bfBfSts 0), s.get (Loc.bfBfSts 1)], s))

/-- Types of Table SE-3. -/
def imageType (t : Nat) : Bool := decide (1 ≤ t ∧ t ≤ 4)

/-- A word of an image written at a byte offset: it falls into one word of the image or across two. -/
def stageWord (t : Tab Word) (a : Nat) (w : Word) : Tab Word :=
  let i := a / 4
  let k := 2 ^ (8 * (a % 4))
  let v := (tget 0 t i).toNat + 2 ^ 32 * (tget 0 t (i + 1)).toNat
  let n := v % k + k * w.toNat + v / (k * 2 ^ 32) * (k * 2 ^ 32)
  tset 0 (tset 0 t i (BitVec.ofNat 32 n)) (i + 1) (BitVec.ofNat 32 (n / 2 ^ 32))

/-- Words of an image written from a byte offset on. -/
def stageWords (t : Tab Word) (a : Nat) : List Word → Tab Word
  | [] => t
  | w :: l => stageWords (stageWord t a w) (a + 4) l

/-- IMAGE_WRITE (R467): words of an image are staged. -/
def execImageWrite (m : Fin 9) (mid : BitVec 16) (type : Nat) (offset : Nat) (words : List Word) (s : State) :
    Host.Outcome State Fault Refusal :=
  .next (s.mailServe m mid 2 (BitVec.ofNat 32 type :: BitVec.ofNat 32 offset :: words) fun s =>
    if !imageType type then (2, [], s) else
    let t := stageWords (tget [] s.store.staged type) offset words
    (0, [], { s with store := { s.store with staged := tset [] s.store.staged type t } }))

/-- The checks of R417 on a staged image of a total length. -/
def State.imageOk (s : State) (type length : Nat) : Bool :=
  let t := tget [] s.store.staged type
  (s.imageFault type t).isNone && (tget 0 t 3).toNat + 4096 == length

/-- IMAGE_COMMIT (R417, R418, R467): a staged image that passes is kept for the next cold or module reset. -/
def execImageCommit (m : Fin 9) (mid : BitVec 16) (type length : Nat) (s : State) : Host.Outcome State Fault Refusal :=
  .next (s.mailServe m mid 3 [BitVec.ofNat 32 type, BitVec.ofNat 32 length] fun s =>
    if !imageType type then (2, [], s)
    else if !s.imageOk type length then (5, [], s)
    else
      let t := tget [] s.store.staged type
      (0, [], { s with store := { s.store with staged := tset [] s.store.staged type []
                                               images := tset [] s.store.images (type + 16) t } }))

/-- SVN_RAISE (R418, R467): fuses are blown; a minimum is never lowered. -/
def execSvnRaise (m : Fin 9) (mid : BitVec 16) (type svn : Nat) (s : State) : Host.Outcome State Fault Refusal :=
  .next (s.mailServe m mid 4 [BitVec.ofNat 32 type, BitVec.ofNat 32 svn] fun s =>
    let v := svn % 2 ^ 32
    if !imageType type ∨ v < tget 0 s.store.svn type then (2, [], s)
    else (0, [], { s with store := { s.store with svn := tset 0 s.store.svn type v } }))

/-- Status of a register write that a message stands for. -/
def mailCode (c : Nat) : Nat := if c = 6 then 4 else 2

/-- The word of REMAP that asks for a row of a cell (Table SM-5): CELL, ROW and GO. -/
def remapWord (cell row : Nat) : Word := BitVec.ofNat 32 (cell + 64 * row + 2 ^ 31)

/-- WELL_REMAP (R142, R467): as a write of REMAP. -/
def execWellRemap (m : Fin 9) (mid : BitVec 16) (spire cell row : Nat) (s : State) : Host.Outcome State Fault Refusal :=
  .next (s.mailServe m mid 5 [BitVec.ofNat 32 spire, BitVec.ofNat 32 cell, BitVec.ofNat 32 row] fun s =>
    if 16 ≤ spire ∨ 64 ≤ cell ∨ 49152 ≤ row then (2, [], s)
    else if m.val ≠ 0 ∧ s.spireOwner spire ≠ m.val - 1 then (3, [], s)
    else if (s.spire spire).out ≠ 0 then (4, [], s)
    else match s.spRemapOp spire (remapWord cell row) with
      | .ok t => (0, [], t)
      | .error c => (mailCode c, [], s))

/-- LOG_READ (R430, R467): records from a number on; on mailbox p + 1 those of partition p. -/
def execLogRead (m : Fin 9) (mid : BitVec 16) (seq : Word) (count : Nat) (s : State) : Host.Outcome State Fault Refusal :=
  .next (s.mailServe m mid 6 [seq, BitVec.ofNat 32 count] fun s =>
    if count = 0 ∨ 31 < count then (2, [], s) else
    let l := s.faults.log.filter fun r => decide (seq.toNat ≤ r.seq) && (m.val == 0 || r.e.part == m.val - 1)
    (0, (l.take count).flatMap fun r => r.words.map fun w => BitVec.ofNat 32 w, s))

/-- SET_DEV_ID (R467): as a write of FAB_ID with VALID = 1. -/
def execSetDevId (m : Fin 9) (mid : BitVec 16) (id : Word) (s : State) : Host.Outcome State Fault Refusal :=
  .next (s.mailServe m mid 7 [id] fun s =>
    match s.fabIdOp (id.put 16 16 1) with
    | .ok t => (0, [], t)
    | .error c => (mailCode c, [], s))

end Sys2Proof.Machine
end

