-- ==== Sys2Proof/Machine/Sideband.lean ====
section
/-! DEFINITION. Sideband inputs and the SMBus reads (R469 to R474, R503). -/

namespace Sys2Proof.Machine

/-! ### What an input does when it is taken (Table HS-10) -/

/-- RESET_N asserts: the module enters reset and stays there (R474, R475). -/
def State.resetHeld (s : State) : State :=
  if s.start.resetN then s else
  let s := { s with start := { s.start with resetN := true } }
  if s.power.closed then s.moduleLose else s

/-- RESET_N is released: the start begins at step 1. -/
def State.resetFreed (s : State) : State :=
  if !s.start.resetN then s else
  let s := { s with start := { s.start with resetN := false } }
  if s.power.closed then s.startUp else s

/-- A lantern leaves its bay, or enters it. -/
def State.bayPresent (s : State) (b : Nat) (there : Bool) : State :=
  if !there then (if s.bay b = 0 then s else s.loseBay b 0)
  else if s.bay b = 0 then (s.setBay b 1).lanternRail b else s

/-- The level of INTLK_B: a low of 0.5 to 5 µs is a pulse of the partner, a longer one was a stuck hold (R377, R390). -/
def State.intlkLevel (s : State) (high : Bool) : State :=
  let now := s.clk.elapsed
  if !high then s.modMgmt fun m => { m with lowAt := some now } else
  let pulse := match s.mgmt.lowAt with | some t => decide (t + 500 ≤ now ∧ now ≤ t + 5000) | none => false
  let s := if s.lowLong then s.intlkStuck true else s
  (s.modMgmt fun m => { m with lowAt := none, senseAt := if pulse then some now else m.senseAt }).intlkStuck false

/-- An input is taken at a level. -/
def State.takeInput (s : State) (i : Nat) (high : Bool) : State :=
  let s := s.setFlag Loc.glSbSts 1 (!high) i
  let s := if high then s.setFlag Loc.glSbSts 3 false i else s
  if i = 0 then (if high then s.resetFreed else s.resetHeld)
  else if i = 2 then s.intlkLevel high
  else if 3 ≤ i ∧ i ≤ 5 then s.bayPresent (i - 3) (!high)
  else if 6 ≤ i ∧ i ≤ 8 ∧ !high then s.bayFault (i - 6)
  else s

def State.chattering (s : State) (i : Nat) : Bool := s.flag Loc.glSbSts 2 i

/-- A new filtered level of an input (R471): counted, and taken unless the input chatters. -/
def State.inputEdge (s : State) (i : Nat) (high : Bool) : State :=
  if s.flag Loc.glSbSts 0 i = high ∧ s.flag Loc.glSbSts 1 i ≠ high then s else
  let s := { s with start := { s.start with edgeAt := s.start.edgeAt.set i s.clk.elapsed } }
  let s := (s.setFlag Loc.glSbSts 0 high i).addSat Loc.glSbSts 31 16 1 i
  if s.chattering i then s else s.takeInput i high

/-- A new level of an input is taken when it has held for FILTER_US, which is no earlier than that after the input's latest edge. -/
def State.filteredEdge (s : State) (i : Nat) (high : Bool) : State :=
  match s.waitUntil (lget 0 s.start.edgeAt i + 1000 * s.fld Loc.glSbCfg 7 0 i) with
  | none => s
  | some s => s.inputEdge i high

/-- SIDEBAND_INPUT_EDGE (R471): an input has held a new level for its filter time. -/
def execSidebandInputEdge (i : Fin 10) (high : Bool) (s : State) : Host.Outcome State Fault Refusal :=
  .next (s.filteredEdge i high)

/-- RESET_N_ASSERT (R474): the filtered level of RESET_N goes low. -/
def execResetNAssert (s : State) : Host.Outcome State Fault Refusal := .next (s.filteredEdge 0 false)

/-- RESET_N_RELEASE (R475): the filtered level of RESET_N goes high. -/
def execResetNRelease (s : State) : Host.Outcome State Fault Refusal := .next (s.filteredEdge 0 true)

/-! ### Chattering and stuck inputs (R472, R473) -/

/-- INPUT_CHATTER (R472): more than CHATTER edges in a millisecond. -/
def execInputChatter (i : Fin 10) (edges : Nat) (s : State) : Host.Outcome State Fault Refusal :=
  if s.chattering i ∨ edges ≤ s.fld Loc.glSbCfg 15 8 i then .next s else
  let s := { s with start := { s.start with edgeAt := s.start.edgeAt.set i s.clk.elapsed } }
  let s := (s.setFlag Loc.glSbSts 2 true i).postGlobal 2 0xB6 i edges
  .next (if i.val = 2 then (s.setFlag Loc.glSbSts 1 true i).intlkStuck true
    else if 6 ≤ i.val ∧ i.val ≤ 8 then (s.setFlag Loc.glSbSts 1 true i).bayFault (i - 6)
    else s)

/-- CHATTER_CLEAR (R472): 10 ms without an edge; the input is taken again at its filtered level. -/
def execChatterClear (i : Fin 10) (s : State) : Host.Outcome State Fault Refusal :=
  if !s.chattering i then .next s else
  match s.waitUntil (lget 0 s.start.edgeAt i + 10000000) with
  | none => .next s
  | some s => .next ((s.setFlag Loc.glSbSts 2 false i).takeInput i (s.flag Loc.glSbSts 0 i))

/-- INPUT_STUCK (R473): active without a break for STUCK_S seconds. -/
def execInputStuck (i : Fin 10) (s : State) : Host.Outcome State Fault Refusal :=
  let sec := s.fld Loc.glSbCfg 23 16 i
  if sec = 0 ∨ !s.flag Loc.glSbSts 1 i ∨ s.flag Loc.glSbSts 3 i then .next s else
  match s.waitUntil (lget 0 s.start.edgeAt i + sec * 1000000000) with
  | none => .next s
  | some s => .next ((s.setFlag Loc.glSbSts 3 true i).postGlobal 2 0xB7 i 0)

/-! ### SMBus block reads (Table HS-9) -/

/-- The SMBus answers on standby power (R470). -/
def State.smbus (s : State) (b : List Byte) : State := { s with resp := if s.power.closed then .bytes b else .none }

/-- SMBUS_SENSOR_READ. -/
def execSmbusSensorRead (s : State) : Host.Outcome State Fault Refusal :=
  .next (s.smbus ((List.range 30).flatMap fun i => leBytes 2 (s.fld Loc.glTsVal 15 0 i)))

/-- SMBUS_POWER_READ. -/
def execSmbusPowerRead (s : State) : Host.Outcome State Fault Refusal :=
  .next (s.smbus (wordBytes [s.get Loc.glVin, s.get Loc.glIin, s.get Loc.glPin]))

/-- SMBUS_BOOT_READ. -/
def execSmbusBootRead (s : State) : Host.Outcome State Fault Refusal :=
  .next (s.smbus (wordBytes [s.bootWord, s.get Loc.glHostSts]))

/-- SMBUS_SIDEBAND_READ. -/
def execSmbusSidebandRead (s : State) : Host.Outcome State Fault Refusal :=
  .next (s.smbus (wordBytes ((List.range 10).map fun i => s.get Loc.glSbSts i)))

/-- SMBUS_IDENTITY_READ: the serial number, and the order code as the report gives it. -/
def execSmbusIdentityRead (s : State) : Host.Outcome State Fault Refusal :=
  .next (s.smbus (deviceBytes 0 16 ++ leBytes 16 0x383637412D31584B))

end Sys2Proof.Machine
end

