-- ==== Sys2Proof/Machine/Registers.lean ====
section
/-! DEFINITION. Writes and reads of registers by page and offset (R482 to R491, R426, R456). -/

namespace Sys2Proof.Machine

/-! ### Selections -/

/-- The two oculi show one job-tag directory and one window table; the model keeps them at East. -/
def homePage (page : Nat) : Nat := if page = 0xC08 ∨ page = 0xC09 then page - 0x100 else page

/-- Station of a local index (R229). -/
def stOf (e k : Nat) : Nat := if e = 0 then k else 47 - k

/-- The link that LINK_SEL selects: sender, receiver, plane. -/
def State.selLink (s : State) (e : Nat) : Nat × Nat × Nat :=
  let w := s.get (Loc.plLinkSel e)
  let a := stOf e (w.bits 4 0)
  let b := w.bits 13 8
  if w.bit 16 then (b, a, w.bits 15 14) else (a, b, w.bits 15 14)

/-- The row that ROW_SEL selects: station, plane, receive row. -/
def State.selRow (s : State) (e : Nat) : Nat × Nat × Bool :=
  let w := s.get (Loc.plRowSel e)
  (stOf e (w.bits 4 0), w.bits 9 8, w.bit 10)

/-- Selection of a spire's windowed register. DESIGN CHOICE: a read of TSK_DATAk returns word k of the committed descriptor
that TSK_SEL names, as R30 has it for the ephemeris (log entry 170). -/
def State.spireIdx (s : State) (n sub off : Nat) : Nat :=
  let window := decide (0x80 ≤ off ∧ off < 0x100)
  match sub with
  | 2 => if window then s.fld (Loc.spEphSel n) 9 0 else 0
  | 3 => if window then s.fld (Loc.spTskSel n) 13 0 else 0
  | 4 => if off = 0x54 then s.fld (Loc.spXmapSel n) 11 0 else 0
  | 5 => if window ∨ off = 0x44 then s.fld (Loc.spZoneSel n) 7 0 else 0
  | 6 => if off = 0x4C ∨ off = 0x50 then s.fld (Loc.spBankSel n) 9 0 else 0
  | 7 => if off = 0x4C then s.fld (Loc.spBondSel n) 11 0 else 0
  | _ => 0

/-- Selection of a plinth's windowed register. -/
def State.plinthIdx (s : State) (e sub off : Nat) : Nat :=
  let sel := s.get (Loc.plPairSel e)
  let bun := s.get (Loc.plBunSel e)
  match sub with
  | 1 => if off = 0x44 ∨ off = 0x4C then sel.bits 4 0 * 64 + sel.bits 13 8 else 0
  | 2 => if 0x48 ≤ off ∧ off ≤ 0x58 then let k := s.selLink e; linkKey k.1 k.2.1 k.2.2 else 0
  | 3 => if off = 0x44 then bun.bits 4 0 * 16 + bun.bits 11 8 else 0
  | 4 => if off = 0x44 then s.fld (Loc.plSeamSel e) 0 0 else 0
  | _ => 0

/-- Selection of an oculus's windowed register. -/
def State.oculusIdx (s : State) (e sub off : Nat) : Nat :=
  let mcg := s.get (Loc.ocMcgSel e)
  let win := s.get (Loc.ocWinSel 0)
  let cs := s.get (Loc.ocCsSel e)
  match sub with
  | 1 => if 0x44 ≤ off ∧ off ≤ 0x78 then s.fld (Loc.ocPortSel e) 3 0 else 0
  | 2 => if off = 0x44 then s.fld (Loc.ocRouteSel e) 15 0 else 0
  | 3 => if off = 0x44 then mcg.bits 11 0 else if off = 0x48 then mcg.bits 11 0 * 64 + mcg.bits 17 12 else 0
  | 8 => if off = 0x44 then s.fld (Loc.ocTagSel 0) 11 0 else 0
  | 9 => if 0x44 ≤ off ∧ off ≤ 0x50 then win.bits 11 0 * 16 + win.bits 15 12 else 0
  | 0xA => if off = 0x44 then cs.bits 11 0 * 256 + cs.bits 19 12 else 0
  | _ => 0

/-- Selection of the register at an offset: what its page's selection registers name. -/
def State.selIdx (s : State) (page off : Nat) : Nat :=
  match pageInfo page with
  | some (.spire, n, sub) => s.spireIdx n sub off
  | some (.gate, g, 1) => if off = 0x44 then s.fld (Loc.gtChSel g) 5 0 else 0
  | some (.plinth, e, sub) => s.plinthIdx e sub off
  | some (.oculus, e, sub) => s.oculusIdx e sub off
  | some (.global, _, 3) => if 0x54 ≤ off ∧ off ≤ 0x5C then s.fld Loc.glRegSel 5 0 else 0
  | some (.global, _, 6) => if off = 0x5C then s.fld Loc.glStackSel 3 0 else 0
  | some (.global, _, 7) => if 0x44 ≤ off ∧ off ≤ 0x4C then s.fld Loc.glTsSel 4 0 else 0
  | some (.global, _, 8) => if off = 0x44 ∨ off = 0x48 then s.fld Loc.glSbSel 3 0 else 0
  | some (.security, _, 0) =>
    if off = 0x50 then s.laySel else if 0xC4 ≤ off ∧ off ≤ 0x100 then s.fld Loc.seMgrTrustSel 1 0 else 0
  | _ => 0

/-- The place at which the register file keeps the register: link counters at East, CS_VALUE at East. -/
def homeLoc (page off : Nat) : Loc :=
  if page = 0xA02 ∧ 0x48 ≤ off ∧ off ≤ 0x58 then 0x902 * 4096 + off
  else if page = 0xC0A ∧ off = 0x44 then 0xB0A * 4096 + off
  else homePage page * 4096 + off

/-! ### 64-bit registers and records (R488) -/

/-- Offset of a low word of a 64-bit register that software writes. -/
def wideWrite (page off : Nat) : Bool :=
  match pageInfo page with
  | some (.global, _, 2) => off == 0x50
  | some (.global, _, 4) => off == 0x60
  | some (.spire, _, 0) => off == 0x54
  | some (.spire, _, 2) => off == 0x50
  | some (.spire, _, 3) => off == 0x50
  | some (.spire, _, 4) => off == 0x58
  | some (.oculus, _, 2) => off == 0x48
  | some (.oculus, _, 3) => off == 0x50
  | some (.oculus, _, 9) => off == 0x58
  | _ => false

/-- Low word of a counter's EVC_CNT. -/
def evcLow (page off : Nat) : Bool := hasEvc page && decide (0xF00 ≤ off) && off % 0x20 == 0

/-- Offset of a low word whose read latches the word above it. -/
def wideRead (page off : Nat) : Bool :=
  wideWrite page off || evcLow page off || (hasEvc page && decide (0xF00 ≤ off) && off % 0x20 == 0xC) ||
  match pageInfo page with
  | some (.global, _, 2) => off == 0x58
  | some (.global, _, 4) => off == 0x58
  | some (.security, _, 0) => off == 0x60
  | some (.oculus, _, 0xC) => off == 0x40 || off == 0x48
  | some (.oculus, _, 1) => off == 0x68 || off == 0x70
  | some (.spire, _, 0) => off == 0x48
  | some (.gate, _, 1) => off == 0x48 || off == 0x50
  | _ => false

/-- An address pair of a bulk load: bits [7:0] are 0. -/
def addrPair (page off : Nat) : Bool :=
  wideWrite page off && match pageInfo page with
  | some (.global, _, _) => false
  | some (.spire, _, 0) => false
  | _ => true

/-! ### The header and the counters (Tables RG-2 and RG-5) -/

/-- PAGE_CTL written: FREEZE is pending; EVC_CLR needs all eight counters frozen. -/
def State.pageCtlOp (s : State) (page : Nat) (v : Word) : WR :=
  let loc := page * 4096 + 0x00C
  match s.plainWrite loc 0 v with
  | .error c => .error c
  | .ok t =>
    if !v.bit 1 then .ok t
    else if !(List.range 8).all fun k => s.evcFrozen page k then .error 5
    else .ok { t with evc := tclear t.evc (page * 8) (page * 8 + 8) }

/-- PAGE_LOCK written: only the page's owner sets it, and only where it exists (R490). -/
def State.pageLockOp (s : State) (f : Func) (page : Nat) (v : Word) : WR :=
  if !fowns f (s.pageOwner page) then .error 4
  else if !s.lockable page && v != 0 then .error 1
  else s.plainWrite (page * 4096 + 0x024) 0 v

/-- A source that the page lists (R493). -/
def sourceOk (page src : Nat) : Bool :=
  let unit := src / 32 % 64
  match evUnits page (src % 32) with
  | none => false
  | some 0 => unit == 0
  | some n =>
    if src / 2048 = 1 then unit == 0
    else decide (unit < n) && !(page == 0xF00 && src % 32 == 2 && unit == 0)

/-- EVC_SEL written. -/
def State.evcSelOp (s : State) (page off : Nat) (v : Word) : WR :=
  match formCheck (locFields (page * 4096 + off)) v with
  | some c => .error c
  | none =>
    if (8 ≤ v.bits 15 12 ∧ v.bits 15 12 ≤ 13) ∨ !sourceOk page (v.bits 11 0) then .error 2
    else s.plainWrite (page * 4096 + off) 0 v

/-- EVC_CNT_HI written: the count of a frozen or disabled counter (R495). -/
def State.evcHighOp (s : State) (page k : Nat) (v : Word) : WR :=
  let lo := page * 4096 + 0xF00 + 0x20 * k
  let e := tget {} s.evc (page * 8 + k)
  let low := match tget 0 s.lowStage lo with
    | 0 => e.cnt % 2 ^ 32
    | x + 1 => x
  if v.toNat ≥ 65536 then .error 1
  else if !s.evcFrozen page k && s.flag (lo + 8) 18 then .error 5
  else .ok { s with evc := tset {} s.evc (page * 8 + k) { e with cnt := low + v.toNat * 2 ^ 32 } }

/-! ### Registers with a rule of their own -/

/-- MGMT_CFG written: a manager's role needs the manager belfry image. -/
def State.mgmtCfgOp (s : State) (v : Word) : WR :=
  if v.bits 1 0 ≠ 0 ∧ v.toNat < 8 ∧ !s.flag Loc.glMgmtSts 3 then .error 2 else s.plainWrite Loc.glMgmtCfg 0 v

/-- MGMT_HB written: the loss time is at least 4 intervals (Table BF-9). -/
def State.mgmtHbOp (s : State) (v : Word) : WR :=
  if v.bits 15 8 * 10 < 4 * v.bits 7 0 then .error 2 else s.plainWrite Loc.glMgmtHb 0 v

/-- TH_CTL written: the caution rate lies below the act rate (Table PW-9). -/
def State.thCtlOp (s : State) (v : Word) : WR :=
  match s.plainWrite Loc.glThCtl 0 v with
  | .error c => .error c
  | .ok t => if v.bits 23 16 ≤ v.bits 15 8 then .error 2 else .ok t

/-- SB_CFG written for the selected input; INTLK_B has no filter (Table HS-14). -/
def State.sbCfgOp (s : State) (v : Word) : WR :=
  let i := s.fld Loc.glSbSel 3 0
  let v := if i = 2 then v.put 7 0 0 else v
  if v.toNat ≥ 2 ^ 24 then .error 1
  else if (i ≠ 2 ∧ v.bits 7 0 = 0) ∨ v.bits 15 8 = 0 then .error 2
  else .ok (s.put Loc.glSbCfg v i)

/-- TRAIN_CTL written: the forcing limit is no less than the interval (Table GH-10). -/
def State.trainCtlOp (s : State) (g : Nat) (v : Word) : WR :=
  match s.plainWrite (Loc.gtTrainCtl g) 0 v with
  | .error c => .error c
  | .ok t => if v.bits 15 8 < v.bits 7 0 then .error 2 else .ok t

/-- LN_THRESH written: 0 < ADV < SWAP < LOSS ≤ 120 (Table LN-7). -/
def State.lnThreshOp (s : State) (v : Word) : WR :=
  let ok := decide (0 < v.bits 7 0 ∧ v.bits 7 0 < v.bits 15 8 ∧ v.bits 15 8 < v.bits 23 16 ∧ v.bits 23 16 ≤ 120)
  match s.plainWrite Loc.lnLnThresh 0 v with
  | .error c => .error c
  | .ok t => if ok then .ok t else .error 2

/-- Reserved credit of the eleven pools (Table FT-15). -/
def State.poolSum (s : State) (e : Nat) : Nat := ((List.range 11).map fun k => s.fld (Loc.ocPoolRes e k) 10 0).sum

/-- POOL_RES written: the sum stays at 3,072 or less. -/
def State.poolResOp (s : State) (e k : Nat) (v : Word) : WR :=
  match s.plainWrite (Loc.ocPoolRes e k) 0 v with
  | .error c => .error c
  | .ok t => if 3072 < t.poolSum e then .error 2 else .ok t

/-- CAL_CTL written: one schedule serves both plinths. -/
def State.calCtlOp (s : State) (v : Word) : WR :=
  match s.plainWrite (Loc.plCalCtl 0) 0 v with
  | .error c => .error c
  | .ok t => t.plainWrite (Loc.plCalCtl 1) 0 v

/-- TICKET written: only while the partition is stopped (R66). -/
def State.ticketOp (s : State) (n off : Nat) (v : Word) : WR :=
  let loc := (0x400 + 0x40 * n) * 4096 + off
  match s.plainWrite loc 0 v with
  | .error c => .error c
  | .ok t =>
    let p := s.spireOwner n
    if p < 8 ∧ s.pfState p ≠ 0 then .error 5 else .ok t

/-- SEQ_CTL written: in mesh mode a write to STEAL_EN is ignored (R72). -/
def State.seqCtlOp (s : State) (n : Nat) (v : Word) : WR :=
  let loc := Loc.spSeqCtl n
  let fs := locFields loc
  match formCheck fs v with
  | some c => .error c
  | none =>
    .ok (s.writeFields loc 0 v.toNat (s.pendPart (loc / 4096)) (if s.meshOn then fs.filter fun f => f.lo != 0 else fs))

/-- A spire's random-number registers are written only while its partition is stopped (R125). -/
def State.rngOp (s : State) (n : Nat) (r : WR) : WR :=
  match r with
  | .error c => .error c
  | .ok t =>
    let p := s.spireOwner n
    if p < 8 ∧ s.pfState p ≠ 0 then .error 5 else .ok t

/-! ### Staged words and 64-bit registers (R488) -/

/-- The spire whose RNG_SEED an offset belongs to. -/
def seedSpire (page off : Nat) : Option Nat :=
  match pageInfo page with
  | some (.spire, n, 0) => if off = 0x54 ∨ off = 0x58 then some n else none
  | _ => none

/-- A high word written: it joins the last staged low word (R488). -/
def State.highOp (s : State) (page off : Nat) (v : Word) : WR :=
  let lo := homeLoc page (off - 4)
  let x := s.stagedLow lo
  if page = 4 then s.timeSetHiOp v
  else
    let r : WR := match formCheck (locFields (lo + 4)) v with
      | some c => .error c
      | none => if addrPair page (off - 4) && !addrPairOk x then .error 2 else .ok (s.put64 lo (x + v.toNat * 2 ^ 32))
    match seedSpire page off with
    | some n => s.rngOp n r
    | none => r

/-- A low word written: it is staged. -/
def State.lowOp (s : State) (page off : Nat) (v : Word) : WR :=
  if page = 4 then s.timeSetLoOp v
  else match seedSpire page off with
    | some n => s.rngOp n (.ok (s.stageLow (homeLoc page off) v))
    | none => .ok (s.stageLow (homeLoc page off) v)

/-! ### The engine's windows -/

/-- The writer may use the engine's windows: nobody else holds a claim (R424). -/
def State.kxInOp (s : State) (f : Func) (loc : Loc) (v : Word) : WR :=
  if s.seClaim ≠ 15 ∧ s.seClaim ≠ fcode f then .error 3 else .ok (s.put loc v)

/-! ### Writes by block -/

def State.globalOp (s : State) (f : Func) (sub off : Nat) (v : Word) : WR :=
  let loc := sub * 4096 + off
  match sub, off with
  | 0, 0x48 => s.resetCtlOp v
  | 0, 0x58 => s.logAckOp v
  | 1, 0x48 => s.startCtlOp v
  | 1, 0x4C => s.fabIdOp v
  | 3, 0x40 => s.clkCtlOp v
  | 3, 0x4C => s.refCtlOp v
  | 4, 0x40 => s.timeCtlOp v
  | 5, 0x40 => s.mgmtCfgOp v
  | 5, 0x50 => s.mgmtHbOp v
  | 7, 0x50 => s.thCtlOp v
  | 8, 0x44 => s.sbCfgOp v
  | _, _ => if sub ≥ 0x10 ∧ off = 0x40 then s.pfCtlOp f (sub - 0x10) v else s.plainWrite loc (s.selIdx sub off) v

def State.spireOp (s : State) (f : Func) (n sub off : Nat) (v : Word) : WR :=
  let page := 0x400 + 0x40 * n + sub
  let loc := page * 4096 + off
  let k := (off - 0x80) / 4
  match sub with
  | 0 =>
    if off = 0x40 then s.seqCtlOp n v
    else if 0x80 ≤ off ∧ off ≤ 0xBC then s.ticketOp n off v
    else if off = 0x50 then s.rngOp n (s.plainWrite loc 0 v) else s.plainWrite loc 0 v
  | 2 =>
    if off = 0x40 then s.ephSelOp n v else if off = 0x58 then s.ephLoadOp f n v
    else if 0x80 ≤ off ∧ off ≤ 0xBC then s.ephDataOp n k v else s.plainWrite loc 0 v
  | 3 =>
    if off = 0x40 then s.tskSelOp n v else if off = 0x58 then s.tskLoadOp f n v
    else if 0x80 ≤ off ∧ off ≤ 0x9C then s.tskDataOp n k v else s.plainWrite loc 0 v
  | 4 => if off = 0x54 then s.xmapDataOp n v else if off = 0x60 then s.xmapLoadOp f n v else s.plainWrite loc 0 v
  | 5 => if 0x80 ≤ off ∧ off ≤ 0x8C then s.zoneDataOp n k v else s.plainWrite loc (s.selIdx page off) v
  | 6 =>
    if off = 0x40 then s.sramCtlOp n v else if off = 0x60 then s.spRemapOp n v else if off = 0x80 then s.spFlipSelOp n v
    else if 0x84 ≤ off ∧ off ≤ 0xA4 then s.spFlipDataOp n loc v else s.plainWrite loc (s.selIdx page off) v
  | 7 => if off = 0x40 then s.bondCtlOp n v else s.plainWrite loc (s.selIdx page off) v
  | _ => s.plainWrite loc (s.selIdx page off) v

def State.gateOp (s : State) (g sub off : Nat) (v : Word) : WR :=
  let page := 0x800 + 0x20 * g + sub
  let loc := page * 4096 + off
  match sub with
  | 0 => if off = 0x40 then s.memCfgOp g v else if off = 0x50 then s.gctlOp g v else s.plainWrite loc 0 v
  | 1 =>
    if off = 0x80 then s.gtFlipSelOp g v else if 0x84 ≤ off ∧ off ≤ 0xC8 then s.gtFlipDataOp g loc v
    else s.plainWrite loc (s.selIdx page off) v
  | 2 => if off = 0x58 then s.trainCtlOp g v else s.plainWrite loc 0 v
  | _ => if off = 0x40 then s.gtRemapOp g v else s.plainWrite loc 0 v

/-- PAIR_SEL written: DST is another station than the source (R229). -/
def State.pairSelOp (s : State) (e : Nat) (v : Word) : WR :=
  match formCheck (locFields (Loc.plPairSel e)) v with
  | some c => .error c
  | none => if v.bits 13 8 = stOf e (v.bits 4 0) then .error 2 else .ok (s.put (Loc.plPairSel e) v)

def State.plinthOp (s : State) (e sub off : Nat) (v : Word) : WR :=
  let page := plPage e sub
  match sub, off with
  | 1, 0x40 => s.pairSelOp e v
  | 1, 0x4C => s.pairViaOp e v
  | 0x10, 0x40 => s.calCtlOp v
  | 0x10, 0x5C => s.recalOp e v
  | _, _ => s.plainWrite (homeLoc page off) (s.selIdx page off) v

/-- A write to an oculus page. DEDUCED: R300 rejects a local port above 15 with 0x02, which only a set bit of PORT_SEL[31:4]
can name, and Table FT-14 makes those bits reserved (0x01, R8); the rule that speaks of ports is followed for this register,
before R8 (log entry 221). -/
def State.oculusOp (s : State) (f : Func) (e sub off : Nat) (v : Word) : WR :=
  let page := ocPage e sub
  match sub, off with
  | 0, 0x44 => s.ringCtlOp e v
  | 1, 0x40 => if 16 ≤ v.toNat then .error 2 else s.plainWrite (Loc.ocPortSel e) 0 v
  | 1, 0x44 => s.portCtlOp e v
  | 2, 0x44 => s.routeDataOp e v
  | 2, 0x54 => s.routeLoadOp f e v
  | 3, 0x44 => s.mcgHdrOp e v
  | 3, 0x48 => s.mcgTgtOp e v
  | 3, 0x58 => s.mcgLoadOp f e v
  | 9, 0x64 => s.winLoadOp f v
  | 0xA, 0x44 => s.csValueOp e v
  | _, _ =>
    if sub = 4 ∧ 0x40 ≤ off ∧ off ≤ 0x68 then s.poolResOp e ((off - 0x40) / 4) v
    else if sub = 9 ∧ 0x44 ≤ off ∧ off ≤ 0x50 then s.winDataOp ((off - 0x44) / 4) v
    else s.plainWrite (homeLoc page off) (s.selIdx page off) v

def State.securityOp (s : State) (f : Func) (sub off : Nat) (v : Word) : WR :=
  let loc := (0xE00 + sub) * 4096 + off
  if sub = 3 ∨ sub = 4 then (if 0x40 ≤ off ∧ off ≤ 0xEFF then s.kxInOp f loc v else s.plainWrite loc 0 v) else
  if sub ≠ 0 then (if 0x40 ≤ off ∧ off ≤ 0xEFF then (if (sub = 5 ∨ sub = 6) ∧ s.seClaim ≠ 15 ∧ s.seClaim ≠ fcode f then .error 3 else .ok s) else s.plainWrite loc 0 v) else
  match off with
  | 0x48 => s.laySpiresOp v
  | 0x4C => s.layTagsOp v
  | 0x50 => s.layFlagsOp v
  | 0x58 => s.granOwnerOp v
  | 0x5C => s.layCtlOp v
  | 0x70 => s.seCmdOp f v
  | 0x74 => s.seInputOp f loc v
  | 0x78 => s.seStsOp v
  | 0x7C => s.seClaimOp f v
  | 0xB0 => s.attCmdOp f v
  | 0xC0 => s.trustSelOp v
  | _ => s.plainWrite loc (s.selIdx 0xE00 off) v

def State.mboxOp (s : State) (m off : Nat) (v : Word) : WR :=
  match off with
  | 0x40 => s.mbTxOp m v
  | 0x50 => s.mbPopOp m v
  | 0x54 => s.mbCtlOp m v
  | _ => s.plainWrite ((0x180 + m) * 4096 + off) 0 v

/-- The rule of the register at an offset of an implemented page. -/
def State.regOp (s : State) (f : Func) (page off : Nat) (v : Word) : WR :=
  if off = 0x00C then s.pageCtlOp page v
  else if off = 0x024 then s.pageLockOp f page v
  else if off < 0x40 ∨ 0xF00 ≤ off then
    (if hasEvc page ∧ 0xF00 ≤ off ∧ off % 0x20 = 8 then s.evcSelOp page off v else s.plainWrite (page * 4096 + off) 0 v)
  else match pageInfo page with
    | some (.global, _, sub) => s.globalOp f sub off v
    | some (.part, p, _) => s.globalOp f (0x10 + p) off v
    | some (.belfry, e, 0) => if off = 0x44 then s.bfCtlOp e v else s.plainWrite (page * 4096 + off) 0 v
    | some (.mbox, m, _) => s.mboxOp m off v
    | some (.spire, n, sub) => s.spireOp f n sub off v
    | some (.gate, g, sub) => s.gateOp g sub off v
    | some (.plinth, e, sub) => s.plinthOp e sub off v
    | some (.oculus, e, sub) => s.oculusOp f e sub off v
    | some (.lantern, _, _) =>
      if off = 0x40 then s.lnCtlOp v else if off = 0x48 then s.lnThreshOp v else s.plainWrite (page * 4096 + off) 0 v
    | some (.security, _, sub) => s.securityOp f sub off v
    | _ => s.plainWrite (page * 4096 + off) 0 v

/-- MONITOR.UNMAPPED_LAST of a discarded write (Table RG-7): PAGE, FUNC and VALID. -/
def unmappedWord (f : Func) (page : Nat) : Word := BitVec.ofNat 32 (page + fcode f * 16384 + 2 ^ 31)

/-- A write to a page that is not implemented is discarded and counted (R483). -/
def State.unmapped (s : State) (f : Func) (page : Nat) : State :=
  if !s.pageOpen f page then s else
  let s := s.addWrap Loc.moUnmapped 31 0 1
  (s.put Loc.moUnmappedLast (unmappedWord f page)).bump 0x0F00 3 0

/-- A write of one word at an offset of BAR 0 (R485 to R491). -/
def State.writeReg (s : State) (f : Func) (page off : Nat) (v : Word) : State :=
  if (pageInfo page).isNone then s.unmapped f page else
  let loc := page * 4096 + off
  let s :=
    if wideWrite page off then s.write f loc v fun s => s.lowOp page off v
    else if wideWrite page (off - 4) then s.writeHigh f (loc - 4) v fun s => s.highOp page off v
    else if evcLow page off then s.write f loc v fun s => .ok (s.stageLow loc v)
    else if evcLow page (off - 4) ∧ 0xF04 ≤ off then
      s.writeHigh f (loc - 4) v fun s => s.evcHighOp page ((off - 0xF00) / 0x20) v
    else s.write f loc v fun s => s.regOp f page off v
  s.settleAll

/-- A write of consecutive registers is applied as 4-byte writes, the lowest address first (R485). -/
def State.writeSpan (s : State) (f : Func) (loc : Nat) : List Word → State
  | [] => s
  | v :: l => (s.writeReg f (loc / 4096) (loc % 4096) v).writeSpan f (loc + 4) l

/-- REGISTER_WRITE (R486): a host write of fewer than 4 bytes changes nothing and is recorded with 0x02; mailbox pages
take no wider write (R461). -/
def execRegisterWrite (f : Func) (page : Fin 16384) (off : Fin 1024) (v : List Word) (bytes : Nat) (s : State) :
    Host.Outcome State Fault Refusal :=
  let o := 4 * off.val
  if bytes < 4 then
    .next (if (pageInfo page).isNone then s.unmapped f page else s.write f (page * 4096 + o) (v.headD 0) fun _ => .error 2)
  else match pageInfo page with
    | some (.mbox, m, _) => .next (s.mailWidth f m o bytes fun s => s.writeReg f page o (v.headD 0))
    | _ => .next (s.writeSpan f (page * 4096 + o) (v.take (bytes / 4)))

/-- UNMAPPED_WRITE (R483). -/
def execUnmappedWrite (f : Func) (page : Fin 16384) (off : Fin 1024) (v : Word) (s : State) :
    Host.Outcome State Fault Refusal := .next (s.writeReg f page (4 * off.val) v)

/-- PAGE_LOCK: PAGE_LOCK is written with LOCK = 1 (R490). -/
def execPageLock (f : Func) (page : Fin 16384) (v : Word) (s : State) : Host.Outcome State Fault Refusal :=
  .next (s.writeReg f page 0x024 (v.put 0 0 1))

/-- EVC_CLR: PAGE_CTL is written with EVC_CLR = 1. -/
def execEvcClr (f : Func) (page : Fin 16384) (v : Word) (s : State) : Host.Outcome State Fault Refusal :=
  .next (s.writeReg f page 0x00C (v.put 1 1 1))

/-- EVC_CNT_WRITE: EVC_CNT_LO or EVC_CNT_HI of counter k is written (R495). -/
def execEvcCntWrite (f : Func) (page : Fin 16384) (k : Fin 8) (high : Bool) (v : Word) (s : State) :
    Host.Outcome State Fault Refusal :=
  .next (s.writeReg f page (0xF00 + 0x20 * k.val + 4 * b2n high) v)

end Sys2Proof.Machine
end

