-- ==== Sys2Proof/Machine/Reads.lean ====
section
/-! DEFINITION. What the registers read as (R7, R456, R483 to R491, R499). -/

namespace Sys2Proof.Machine

/-! ### The header -/

/-- A load, drain, remap or command of the page is in progress (PAGE_STS.BUSY). -/
def State.pageBusy (s : State) (page : Nat) : Bool :=
  match pageInfo page with
  | some (.global, _, 0) => !s.faults.resets.isEmpty
  | some (.spire, n, 2) => s.flag (Loc.spEphLoad n) 30
  | some (.spire, n, 3) => s.flag (Loc.spTskLoad n) 30
  | some (.spire, n, 4) => s.flag (Loc.spXmapLoad n) 30
  | some (.spire, n, 6) => s.flag (Loc.spRemapSts n) 0
  | some (.gate, g, 0) => (s.gate g).draining
  | some (.gate, g, 3) => s.flag (Loc.gtRemapSts g) 0
  | some (.oculus, e, 2) => s.flag (Loc.ocRouteLoad e) 30
  | some (.oculus, e, 3) => s.flag (Loc.ocMcgLoad e) 30
  | some (.oculus, _, 9) => s.flag (Loc.ocWinLoad 0) 30
  | some (.security, _, 0) => s.seBusy || s.flag Loc.seAttSts 16
  | _ => false

/-- The frame period or guard waits for the tick (FRAME_NEXT). -/
def State.frameWaits (s : State) : Bool := s.get Loc.glFrameNext != s.get Loc.glFrameCfg

/-- A word of an error queue: entry `i`, word `k` (R428, Table FA-3). -/
def State.queueWord (s : State) (page i k : Nat) : Nat :=
  match (s.queue page)[i]? with
  | some e => (e.words false).getD k 0
  | none => 0

/-- A register of the header, the error queue or the counters. -/
def State.headWord (s : State) (page off : Nat) : Nat :=
  let stored := (s.get (page * 4096 + off)).toNat
  let k := (off - 0xF00) / 0x20
  let e := tget {} s.evc (page * 8 + k)
  if off = 0x000 then pageId page
  else if off = 0x008 then b2n (hasErrq page) + 2 * b2n (hasEvc page) + 4 * b2n (hasTsync page) + 8 * b2n (s.lockable page)
  else if off = 0x010 then
    b2n (s.pagePending (homePage page) || (page == 2 && s.frameWaits) || (page == 0xE00 && s.sec.layPend.isSome)) + 2 * b2n (s.pageBusy page) + 4 * b2n (s.pageFrozen page) +
      8 * b2n (s.flag (page * 4096 + 0x024) 0) + 16 * b2n (s.pageOut page)
  else if off = 0x020 then s.pageOwner page
  else if off = 0xE80 then (s.queue page).length + 16 * b2n (s.handling page) + stored / 256 * 256
  else if 0xE00 ≤ off ∧ off < 0xE80 then s.queueWord page ((off - 0xE00) / 16) (off / 4 % 4)
  else if 0xF00 ≤ off then
    match off % 0x20 with
    | 0x00 => e.cnt % 2 ^ 32
    | 0x04 => e.cnt / 2 ^ 32
    | 0x0C => e.shd % 2 ^ 32
    | 0x10 => e.shd / 2 ^ 32
    | 0x14 => s.clk.ticks % 2 ^ 32
    | _ => stored
  else stored

/-! ### Registers read from the state -/

/-- The record that LOG_SEL selects, as words (R430). -/
def State.logWord (s : State) (k : Nat) : Nat :=
  match s.faults.log[s.fld Loc.glLogSel 7 0]? with
  | some r => r.words.getD k 0
  | none => 0

/-- RESET_STS: the reset in progress, or the last. -/
def State.resetWord (s : State) : Nat :=
  let ph := match s.faults.resets.head? with
    | some r => r.phase
    | none => 0
  bitsOf (s.get Loc.glResetSts).toNat 8 1 * 2 + 4096 * bitsOf (s.get Loc.glResetSts).toNat 12 12 +
    b2n (!s.faults.resets.isEmpty) + 512 * ph

/-- GLOBAL pages; `none` where the register file holds the value. -/
def State.globalWord (s : State) (sub off : Nat) : Option Nat :=
  let stored := (s.get (sub * 4096 + off)).toNat
  match sub, off with
  | 0, 0x4C => some s.resetWord
  | 0, 0x50 => some s.faults.log.length
  | 1, 0x40 => some s.bootWord.toNat
  | 2, 0x48 => some (stored % 2 + 2 * b2n (!s.pend.isEmpty || !s.latched.isEmpty || s.frameWaits || s.sec.layPend.isSome) + 4 * b2n s.frameWaits)
  | 2, 0x58 => some (s.clk.ticks % 2 ^ 32)
  | 2, 0x5C => some (s.clk.ticks / 2 ^ 32)
  | 4, 0x58 => some (s.clk.count % 2 ^ 32)
  | 4, 0x5C => some (s.clk.count / 2 ^ 32)
  | 5, 0x58 => some (((s.get Loc.glMgmtSts).put 4 4 (b2n s.sendsTopOk)).put 6 6 (b2n s.partnerSeen)).toNat
  | 0, o => if 0x60 ≤ o ∧ o ≤ 0x7C then some (s.logWord ((o - 0x60) / 4)) else none
  | _, _ => none

/-- A cell has a task queued or in progress. -/
def Cell.busy (c : Cell) : Bool := !c.queue.isEmpty || c.m.isSome || c.v.isSome || c.x.isSome

def State.spireWord (s : State) (n sub off : Nat) : Option Nat :=
  let sp := s.spire n
  match sub, off with
  | 0, 0x40 =>
    let w := s.get (Loc.spSeqCtl n)
    some (if s.meshOn then w.put 0 0 0 else w).toNat
  | 0, 0x44 => some ((sp.cells.filter Cell.busy).length + 256 * sp.du.queue.length + 8192 * b2n s.meshOn)
  | 4, 0x40 =>
    some (sp.du.queue.length + 32 * b2n sp.du.cur.isSome + 64 * min 64 (sp.msgs.filter fun m => m.cell == 64).length)
  | 6, 0x44 => some 0
  | _, _ => none

/-- Channels, lines and drains of a gatehouse. -/
def State.gateWord (s : State) (g sub off : Nat) : Option Nat :=
  match sub, off with
  | 0, 0x54 => some ((s.gate g).lbuf.length + 512 * b2n (s.gate g).draining)
  | _, _ => none

/-- A pair now sends by its relay (R218, R219). -/
def State.onDetour (s : State) (a b : Nat) : Bool :=
  !s.stationOut a && !s.stationOut b && (s.planes a b).isEmpty && s.pathStatus a b == 0

/-- Pairs from a plinth that meet a test. -/
def pairsFrom (e : Nat) (p : Nat → Nat → Bool) : Nat :=
  ((plinthStations e).map fun a => ((peers a).filter fun b => p a b).length).sum

def State.plStsWord (s : State) (e : Nat) : Nat :=
  let up := if (s.plinth e).out = 0 then ((plinthStations e).filter fun a => !s.stationOut a).length else 0
  let m := pairsFrom e fun a b => s.pairMask a b != 0
  let d := if (s.plinth e).out = 0 then pairsFrom e s.onDetour else 0
  up + (s.get (Loc.plPlSts e)).bits 6 5 * 32 + m * 256 + d * 2 ^ 19

/-- PAIR_MASK with its fences, and PAIR_STS, of the selected pair. -/
def State.pairWord (s : State) (e off : Nat) : Nat :=
  let sel := s.get (Loc.plPairSel e)
  let a := stOf e (sel.bits 4 0)
  let b := sel.bits 13 8
  let bitmap (f : Nat → Bool) : Nat := ((List.range 4).map fun p => b2n (f p) * 2 ^ p).sum
  if off = 0x44 then s.pairMask a b + 16 * bitmap fun p => (s.link a b p).fenced
  else
    let via := s.via a b
    bitmap (fun p => s.linkSt a b p == 2) + 16 * b2n (s.onDetour a b) + 32 * b2n via.isSome + 64 * via.getD 0

/-- LINK_STS of the selected link. -/
def State.linkWord2 (s : State) (e : Nat) : Nat :=
  let k := s.selLink e
  let x := s.link k.1 k.2.1 k.2.2
  let st := s.linkSt k.1 k.2.1 k.2.2
  let into := s.flag (Loc.plLinkSel e) 16
  let seq := if into then (if x.any then (x.expect + 1023) % 1024 else 0) else x.next
  let used := if into then 0 else (x.retry.map (·.flits)).sum
  st + 4 * b2n ((st == 1 || st == 2) && x.lost.isNone) + 16 * (seq % 1024) + 2 ^ 14 * min 63 used

/-- ROW_STS, ROW_WIN and RING of the selected row. -/
def State.rowWord (s : State) (e off : Nat) : Nat :=
  let k := s.selRow e
  let key := rowKey k.1 k.2.1 k.2.2
  let r := s.row k.1 k.2.1 k.2.2
  let j := s.fld (Loc.plRingSel e) 5 0
  let up := (s.plinth e).trained
  if off = 0x4C ∧ up then
    r.offOf key + 4 * b2n (!(r.badOf key).isEmpty) + 8 * b2n r.edge + 16 * b2n (s.rowOut k.1 k.2.1) + 64 * wrapNat 13 r.resid
  else if !up then resetAt ((plPage e 0x10) * 4096 + off) 0
  else if off = 0x50 then wrapNat 16 (r.window key).1 + 65536 * wrapNat 16 (r.window key).2
  else
    let st := if (r.badOf key).contains j then 2 else if (r.lineOf key j).isSome then 0 else 1
    (r.codeOf key s.optics.dither j).toNat % 4096 + 4096 * (r.lineOf key j).getD 63 + 2 ^ 18 * st

def State.plinthWord (s : State) (e sub off : Nat) : Option Nat :=
  match sub, off with
  | 0, 0x44 => some (s.plStsWord e)
  | 1, 0x44 => some (s.pairWord e 0x44)
  | 1, 0x48 => some (s.pairWord e 0x48)
  | 2, 0x44 => some (s.linkWord2 e)
  | 0x10, 0x44 =>
    let n := (s.optics.sweeps.filter fun w => w.phase == 2 && w.plane / 2 == e).length
    some ((s.get (Loc.plCalSts e)).put 9 8 (min 3 n)).toNat
  | 0x10, 0x4C => some (s.rowWord e 0x4C)
  | 0x10, 0x50 => some (s.rowWord e 0x50)
  | 0x10, 0x58 => some (s.rowWord e 0x58)
  | _, _ => none

/-- LN_LINE of the selected line. -/
def State.lineWordAt (s : State) : Nat :=
  let x := s.lineSt (s.fld Loc.lnLnSel 0 0) (s.fld Loc.lnLnSel 13 8)
  let avg := x.hist.sum / max 1 x.hist.length
  wrapNat 10 x.margin + 1024 * wrapNat 10 avg + 2 ^ 20 * (x.st % 4) + 2 ^ 22 * min 127 x.links

def State.oculusWord (s : State) (e sub off : Nat) : Option Nat :=
  match sub, off with
  | 0, 0x40 => some (s.ownDev + 65536 * b2n s.hasId + (s.get (Loc.ocOcSts e)).bits 21 17 * 2 ^ 17)
  | 0, 0x48 => some (b2n (s.flag (Loc.ocRingSts e) 0) + 2 * b2n (decide (e = 0) && s.bypassMoves))
  | 1, 0x78 =>
    let p := 16 * e + s.fld (Loc.ocPortSel e) 3 0
    some (((s.samplePort p).get (Loc.ocPortQueue e) (p % 16)).put 12 0 (min 8191 (s.port p).queued)).toNat
  | 4, 0x6C => some (4096 - s.poolSum e)
  | 0xB, 0x48 => some ((s.oculus e).comb.length + 1024 * (s.oculus e).records)
  | 0xB, 0x4C => some s.dups.length
  | _, _ => none

/-- Words of the report and KX_OUT windows, by place in the window (R426). -/
def State.reportWord (s : State) (i : Nat) : Nat := (s.sec.report.getD i 0).toNat
def State.kxOutWord (s : State) (i : Nat) : Nat := leNat ((s.sec.kxOut.drop (4 * i)).take 4)

def State.securityWord (s : State) (sub off : Nat) : Option Nat :=
  let i := (off - 0x40) / 4
  let p := s.laySel
  let inWin := decide (0x40 ≤ off ∧ off ≤ 0xEFF)
  match sub with
  | 0 => match off with
    | 0x40 => some ((s.get Loc.seSecSts).put 8 8 (b2n s.sec.layPend.isSome)).toNat
    | 0x48 => some ((s.spiresOf p).map (2 ^ ·)).sum
    | 0x4C => let r := lget (0, 0) s.lay.tags p; some (r.1 + 4096 * r.2)
    | 0x58 => some (tget 15 s.lay.gran (s.fld Loc.seGranSel 9 0))
    | 0x60 => some (lget 0 s.sec.sess p % 2 ^ 32)
    | 0x64 => some (lget 0 s.sec.sess p / 2 ^ 32)
    | 0x80 => some s.debugLive
    | 0xC0 =>
      let k := s.fld Loc.seMgrTrustSel 1 0
      some (k + 4 * b2n (s.flag Loc.seMgrTrustSel 2 (1 + k)))
    | _ => none
  | 1 => if inWin then some (s.reportWord i) else none
  | 2 => if inWin then some (s.reportWord (944 + i)) else none
  | 3 => if inWin then some (s.kxIn i).toNat else none
  | 4 => if inWin then some (s.kxIn (944 + i)).toNat else none
  | 5 => if inWin then some (s.kxOutWord i) else none
  | _ => if inWin then some (s.kxOutWord (944 + i)) else none

def State.mboxWord (s : State) (m off : Nat) : Option Nat :=
  match off with
  | 0x44 => some (min 16 (s.mbox m).up.length)
  | 0x48 => some (((s.mbox m).down.head?).getD 0).toNat
  | 0x4C => some (min 16 (s.mbox m).down.length)
  | _ => none

/-- EVT_PAGE and EVT_COUNT (R491). -/
def State.monitorWord (s : State) (off : Nat) : Option Nat :=
  let l := allPages.filter s.pageFlagged
  match off with
  | 0x44 => some (match l.head? with | some p => p + 2 ^ 31 | none => 0)
  | 0x48 => some l.length
  | _ => none

/-- A register whose value the state holds elsewhere than in the register file. -/
def State.liveWord (s : State) (page off : Nat) : Option Nat :=
  match pageInfo page with
  | some (.global, _, sub) => s.globalWord sub off
  | some (.mbox, m, _) => s.mboxWord m off
  | some (.mbsts, n, _) =>
    if off = 0x40 then some (min 16 (s.mbox (9 + n)).down.length + 256 * min 16 (s.mbox (9 + n)).up.length) else none
  | some (.spire, n, sub) => s.spireWord n sub off
  | some (.gate, g, sub) => s.gateWord g sub off
  | some (.plinth, e, sub) => s.plinthWord e sub off
  | some (.oculus, e, sub) => s.oculusWord e sub off
  | some (.lantern, _, _) => if off = 0x50 then some s.lineWordAt else none
  | some (.security, _, sub) => s.securityWord sub off
  | some (.monitor, _, _) => s.monitorWord off
  | _ => none

/-- Bits of a register that can read as 1: reserved and write-only bits read as 0 (R7, R8). -/
def readMask (fs : List Fd) : Nat := coverMask (fs.filter fun f => f.acc != .wo)

/-- The word that the belfry recorded of a unit that a reset has taken out (R489). -/
def State.recordedWord (s : State) (page off : Nat) : Option Nat :=
  match tget 0 s.recorded (page * 4096 + off) with
  | 0 => none
  | v + 1 => some v

/-- What a register reads as now. -/
def State.readWord (s : State) (page off : Nat) : Word :=
  if off < 0x40 ∨ 0xF00 ≤ off ∨ (hasErrq page ∧ 0xE00 ≤ off ∧ off ≤ 0xE80) then
    BitVec.ofNat 32 (s.headWord page off &&& readMask (locFields (page * 4096 + off)))
  else match (if s.pageOut page then s.recordedWord page off else none).orElse fun _ => s.liveWord page off with
    | some v => BitVec.ofNat 32 v
    | none =>
      BitVec.ofNat 32 ((s.get (homeLoc page off) (s.selIdx page off)).toNat &&& readMask (locFields (page * 4096 + off)))

/-! ### Reads -/

/-- Pages that a function may read (R456). -/
def State.mayRead (s : State) (f : Func) (page : Nat) : Bool :=
  match f with
  | .vf p => s.pageOwner page == p.val || page == 2 || page == 4 || page == 0xE00 ||
      ((page == 0xE01 || page == 0xE02 || page == 0xE05 || page == 0xE06) && s.seClaim == fcode f)
  | _ => true

/-- Key of a latched high word: the function and the word's place (R488). -/
def latchKey (f : Func) (loc : Loc) : Nat := fcode f * 2 ^ 26 + loc

/-- The fields that a read clears (R7). -/
def State.readClears (s : State) (page off : Nat) : State :=
  let fs := (locFields (page * 4096 + off)).filter fun f => f.acc == .rc
  if fs.isEmpty then s else
  let loc := homeLoc page off
  let i := s.selIdx page off
  fs.foldl (fun (s : State) f => s.setFld loc (f.lo + f.w - 1) f.lo 0 i) s

/-- A read by a function: the value, and the state after it. -/
def State.readReg (s : State) (f : Func) (page off : Nat) : State × Word :=
  if (pageInfo page).isNone || !s.mayRead f page then (s, 0) else
  let loc := page * 4096 + off
  let key := latchKey f loc
  match tget 0 s.hiLatch key with
  | v + 1 => ({ s with hiLatch := tset 0 s.hiLatch key 0 }, BitVec.ofNat 32 v)
  | 0 =>
    let s := if ocPage 0 1 = page ∨ ocPage 1 1 = page then
        let p := 16 * (page / 256 - 0xB) + s.fld (Loc.ocPortSel (page / 256 - 0xB)) 3 0
        (s.samplePort p).stallCount p
      else s
    let w := s.readWord page off
    let s := if wideRead page off then
        { s with hiLatch := tset 0 s.hiLatch (latchKey f (loc + 4)) ((s.readWord page (off + 4)).toNat + 1) } else s
    (s.readClears page off, w)

/-- Consecutive registers from a place on, the lowest first, as little-endian bytes (R485). -/
def State.readSpan (s : State) (f : Func) (loc n : Nat) : State × List Byte :=
  (List.range n).foldl (fun (t : State × List Byte) i =>
    let a := loc + 4 * i
    let r := t.1.readReg f (a / 4096) (a % 4096)
    (r.1, t.2 ++ leBytes 4 r.2.toNat)) (s, [])

/-- REGISTER_READ (R7, R456, R488). A BAR 0 that is not open gives no answer. -/
def execRegisterRead (f : Func) (page : Fin 16384) (at_ : RegSpan) (s : State) : Host.Outcome State Fault Refusal :=
  if !s.pageOpen f page then .next { s with resp := .none } else
  let o := 4 * at_.off.val
  if at_.words ≤ 1 then
    let r := s.readReg f page o
    .next { r.1 with resp := .word r.2 }
  else
    let r := s.readSpan f (page * 4096 + o) at_.words
    .next { r.1 with resp := .bytes r.2 }

end Sys2Proof.Machine
end

