-- ==== Sys2Proof/Machine/Mgmt.lean ====
section
/-! DEFINITION. Register accesses of the management service (R395, R416). -/

namespace Sys2Proof.Machine

/-- Little-endian word `i` of a request's data. -/
def pktWord (k : Pkt) (i : Nat) : Nat := leNat ((dataFlits k |>.drop (4 * i)).take 4)

/-- Entries of a request whose entries have `size` bytes. -/
def pktEntries (k : Pkt) (size : Nat) : Nat := (k.len.toNat + 1) / size

/-- Page and offset of a BAR 0 offset. -/
def barPlace (o : Nat) : Nat × Nat := (o / 4096 % 16384, o % 4096 / 4 * 4)

/-- Registers that R416 opens before a management key is installed. -/
def keylessPlace (o : Nat) : Bool :=
  let p := barPlace o
  (decide (0xE03 ≤ p.1) && decide (p.1 ≤ 0xE06)) || (p.1 == 0xE00 && decide (0x70 ≤ p.2) && decide (p.2 ≤ 0x7C))

/-- An entry writes SE_CMD with KX_ACCEPT or KX_FINISH, which take the blob of the KX_IN window. -/
def takesBlob (e : Nat × Option Nat) : Bool :=
  barPlace e.1 == (0xE00, 0x70) && match e.2 with | some v => decide (v % 16 = 2 ∨ v % 16 = 3) | none => false

/-- The service serves a request with these entries, as place and value written (R395, R416): while the holder has no key,
only what an exchange needs, and only while no MGR_TRUST entry is valid or the exchange names a trusted identity. DEDUCED:
the exchange names one in the command that takes the blob of the KX_IN window, by the digest of the key in it; what
writes the window, or reads, names none yet (log entry 115). -/
def State.mgmtServes (s : State) (k : Pkt) (read : Bool) (entries : List (Nat × Option Nat)) : Bool :=
  if s.fromHolder k then
    !s.preKey || ((entries.all fun e => keylessPlace e.1) && (!s.anyTrust || !entries.any takesBlob || s.identOk true s.kxBytes))
  else read && s.fromPartner k

/-- Entries of a REG_WRITE applied in order: the first rejection, as code and index, stops them. -/
def State.mgmtWrites (s : State) : List (Nat × Nat × Nat) → State × Option (Nat × Nat)
  | [] => (s, none)
  | (i, o, v) :: l =>
    let p := barPlace o
    let t := s.writeReg .mgmt p.1 p.2 (BitVec.ofNat 32 v)
    if t.get Loc.moRejTotal = s.get Loc.moRejTotal then t.mgmtWrites l
    else (t, some (t.fld (p.1 * 4096 + 0x014) 7 0, i))

/-- REG_WRITE (R395, Table BF-5). -/
def execRegWrite (k : Pkt) (s : State) : Host.Outcome State Fault Refusal :=
  match s.takeMgmt k with
  | (s, none) => .next s
  | (s, some k) =>
    let l := (List.range (min 32 (pktEntries k 8))).map fun i => (i, pktWord k (2 * i), pktWord k (2 * i + 1))
    if !s.mgmtServes k false (l.map fun e => (e.2.1, some e.2.2)) then .next (s.mgmtReply k 3 []) else
    match s.mgmtWrites l with
    | (t, none) => .next (t.mgmtReply k 0 [])
    | (t, some (c, i)) => .next (t.mgmtReply k 2 [BitVec.ofNat 8 c, BitVec.ofNat 8 i])

/-- REG_READ (R395, Table BF-5). -/
def execRegRead (k : Pkt) (s : State) : Host.Outcome State Fault Refusal :=
  match s.takeMgmt k with
  | (s, none) => .next s
  | (s, some k) =>
    let l := (List.range (min 64 (pktEntries k 4))).map fun i => pktWord k i
    if !s.mgmtServes k true (l.map fun o => (o, none)) then .next (s.mgmtReply k 3 []) else
    let r := l.foldl (fun (t : State × List Byte) o =>
      let p := barPlace o
      let w := t.1.readReg .mgmt p.1 p.2
      (w.1, t.2 ++ leBytes 4 w.2.toNat)) (s, [])
    .next (r.1.mgmtReply k 0 r.2)

end Sys2Proof.Machine
end

