-- ==== Sys2Proof/Machine/Tick.lean ====
section
/-! DEFINITION. The tick and its cutoff (R21 to R28, R44 to R46, R494). -/

namespace Sys2Proof.Machine

/-! ### Pending values (R25 to R28) -/

/-- Pending values take effect at a tick at count `t`: no HOLD, and not before APPLY_AT (R25, R27). -/
def State.mayApply (s : State) (t : Nat) : Bool := !s.flag Loc.glTickApply 0 && decide (s.get64 Loc.glApplyAtLo ≤ t)

/-- The partition whose command a pending value is (R48). -/
def Pend.cmdOf (x : Pend) : Option Nat :=
  if x.mask = 3 then (List.range 8).find? fun p => x.key == rkey (Loc.ptPfCtl p) 0 else none

/-- A later command of a partition replaces an earlier one that waits (R49). -/
def lastCommands : List Pend → List Pend
  | [] => []
  | x :: l => if x.cmdOf.isSome && l.any fun y => y.cmdOf == x.cmdOf then lastCommands l else x :: lastCommands l

/-- The command that a list of pending values holds for a partition, 0 for none. -/
def commandIn (l : List Pend) (p : Nat) : Nat :=
  match l.find? fun x => x.cmdOf == some p with
  | some x => x.val
  | none => 0

/-- A pending value waits for a later tick: its partition slips (R28), or a start is not ready (R337, R425). DESIGN CHOICE:
a value that waited for a slip whose frame then fails takes effect at the failing tick, where the partition no longer
slips (log entry 156). -/
def State.defers (s : State) (x : Pend) : Bool :=
  (match x.part with | some p => (s.part p).slip | none => false) ||
    match x.cmdOf with
    | some p => x.val != 2 && !s.startReady p
    | none => false

/-- A page and offset of a pending value's register. -/
def Pend.page (x : Pend) : Nat := x.key / 1048576 / 4096
def Pend.off (x : Pend) : Nat := x.key / 1048576 % 4096

/-- The planes that software masks for a pair; the belfry's own masks stand beside them (Table PL-7). New masks are reported
(R13). -/
def State.noteMask (s : State) (x : Pend) (v : Word) : State :=
  let i := x.key % 1048576
  match (List.range 2).find? fun e => x.key / 1048576 == Loc.plPairMask e with
  | some e =>
    let a := stOf e (i / 64)
    let k := pairKey a (i % 64)
    let m := v.bits 3 0
    let fresh := m &&& (tget 0 s.swMask k ^^^ 15) != 0
    let s := { s with swMask := tset 0 s.swMask k m }
    if fresh then s.reportMask 0 a (i % 64 + 256 * m) else s
  | none => s

/-- One pending value takes effect; a counter whose selection changes restarts from 0 (R494). -/
def State.applyOne (s : State) (x : Pend) : State :=
  if x.cmdOf.isSome then s else
  let old := tget (rfDefault x.key) s.rf x.key
  let v := BitVec.ofNat 32 (old.toNat - (old.toNat &&& x.mask) + x.val)
  let s := { s with rf := tset (rfDefault x.key) s.rf x.key v }.noteMask x v
  if 0xF00 ≤ x.off ∧ x.off % 0x20 = 8 ∧ hasEvc x.page ∧ old.toNat % 2 ^ 18 ≠ v.toNat % 2 ^ 18 then
    let k := x.page * 8 + (x.off - 0xF00) / 0x20
    let e := tget {} s.evc k
    { s with evc := tset {} s.evc k { e with cnt := 0, last := [] } }
  else s

/-- PAGE_EVT.APPLIED of the pages of applied values; both oculi show the tag directory and the windows. -/
def State.markApplied (s : State) (l : List Pend) : State :=
  let pages := uniq (l.map (·.page))
  let pages := pages ++ (pages.filter fun p => p == 0xB08 || p == 0xB09).map fun p => p + 0x100
  let s := pages.foldl (fun s p => s.setFlag (p * 4096 + 0x018) 3 true) s
  if l.isEmpty then s else s.bump 0x0F00 4 0

/-- The latched values that take effect at this tick, and those that wait. -/
def State.splitPend (s : State) (go : Bool) : List Pend × List Pend :=
  let l := lastCommands s.latched
  if go then (l.filter fun x => !s.defers x, l.filter s.defers) else ([], l)

/-- Pending values at a tick (R25 to R28). -/
def State.applyPend (s : State) (go : Bool) : State :=
  let r := s.splitPend go
  let s := { s with latched := [], pend := r.2 ++ s.pend }
  (r.1.foldl (fun s x => s.applyOne x) s).markApplied r.1

/-- The frame period and guard change at a tick that meets R24. -/
def State.applyFrame (s : State) (go : Bool) : State :=
  let v := s.get Loc.glFrameNext staging
  let multiple := s.clk.lastTick % (1000 * max 1 (v.bits 9 0)) == 0
  let slips := (List.range 8).any fun p => (s.part p).slip
  if go && multiple && !slips && v != s.get Loc.glFrameCfg then s.put Loc.glFrameCfg v else s

/-! ### Counters (R493, R494) -/

/-- Ticks counted, then every counter copied to its shadow. -/
def State.snapshot (s : State) : State :=
  let s := s.evcListed.foldl (fun s e => s.evcHit e.1 0 0 1 15 e.2) s
  { s with evc := s.evc.filterMap fun (e : Nat × Evc) =>
      let x : Evc := { e.2 with shd := e.2.cnt, seen := false }
      if x = {} then none else some (e.1, x) }

/-! ### The cutoff (R26) -/

/-- A partition stops because the device isolates at the coming tick (R397). -/
def State.isolates (s : State) : Bool := s.mgmt.isolateDue && s.fld Loc.glMgmtSts 1 0 == 1 && !s.topDevice
def State.isolateStops (s : State) (p : Nat) : Bool := s.isolates && !s.flag Loc.glMgmtSurv p

/-- The cutoff of the coming tick: late events so far, then what the tick will make effective is latched. -/
def State.takeCutoff (s : State) : State :=
  let t := s.nextTick
  let s := (s.passTo (t - 50)).raiseOverdue
  let s := { s with latched := s.latched ++ s.pend, pend := [], clk := { s.clk with cutoff := true } }
  let s := s.put Loc.glFrameNext (s.get Loc.glFrameNext) staging
  let go := s.mayApply t
  let cmds := lastCommands s.latched
  let s := (List.range 8).foldl (fun (s : State) p =>
    s.partCutoff p ((go && commandIn cmds p == 2) || s.isolateStops p)) s
  let s := s.regionCutoff.opticsCutoff.modSec fun x => { x with layNow := x.layPend.isSome }
  s.resetCutoff

/-- TICK_CUTOFF: 50 ns before the coming tick. -/
def execTickCutoff (s : State) : Host.Outcome State Fault Refusal :=
  if !s.clk.joined || s.clk.cutoff then .next s else .next s.takeCutoff

/-! ### The tick (R21) -/

/-- Partitions at a tick: every one fails in recovery (R450); else commands, isolation, slips, failures, frames. -/
def State.partsTick (s : State) (cmds : List Pend) (iso : Bool) : State :=
  if s.mgmt.failDue then
    ((List.range 8).filter s.defined).foldl (fun s p => s.failFrame p) (s.modMgmt fun m => { m with failDue := false })
  else (List.range 8).foldl (fun (s : State) p =>
    s.partTick p (if iso && !s.flag Loc.glMgmtSurv p then 2 else commandIn cmds p)) s

/-- Management states at a tick (R396, R397, R399). -/
def State.mgmtTick (s : State) (iso : Bool) : State :=
  let s := if iso then
      (s.setFld Loc.glMgmtSts 1 0 2).postGlobal 2 0x0C 0 (s.fld Loc.glMgmtHolder 15 0) else s
  let s := s.modMgmt fun m => { m with isolateDue := false }
  let s := match s.mgmt.admitAt with
    | some c => if c ≤ s.clk.lastTick ∧ s.admits then
        (s.setFld Loc.glMgmtSts 1 0 1).modMgmt fun m => { m with admitAt := none } else s
    | none => s
  if s.topDevice then s.setFld Loc.glMgmtSts 1 0 1 else s

/-- Lanterns, rows, links and lanes at a tick; a stranded seam or a dark side halves the device (R227, R240, R400). -/
def State.lightTick (s : State) (o : FrameObs) : State :=
  let s := ((s.linkTick.laneTick).controlTick o.ctlTests).seamTick
  let s := if s.seamStranded then s.wantHalve 0 0x63 else s
  let s := s.opticsTick o
  let s := match s.darkSide with
    | some e => (s.post 0xD00 2 0x74 e (s.get Loc.lnLnSts).toNat).wantHalve e 0x74
    | none => s
  s.halveTick.fenceTick.relayTick

/-- Wells, bonds and gatehouses at a tick (R142, R149, R181, R185). -/
def State.storeTick (s : State) : State :=
  let s := (List.range 16).foldl (fun (s : State) n =>
    let s := (s.remapTick n).bondTick n
    let l := (s.spire n).bondOut
    l.foldl (fun s c => s.failCell n c) (s.modSpire n fun sp => { sp with bondOut := [] })) s
  (List.range 8).foldl (fun s g => (s.timingTick g).pageTick g) s

/-- The multicast buffer takes its size (Table FM-9), and a congestion-map epoch ends (R297). -/
def State.epochTick (s : State) : State :=
  (List.range 2).foldl (fun (s : State) e =>
    let s := s.modOculus e fun o => { o with mcCap := s.fld (Loc.ocMcCtl e) 19 16 }
    let n := max 1 (s.fld (Loc.ocMapCtl e) 7 0)
    if (s.clk.lastTick / s.period) % n ≠ 0 then s else
    (s.addWrap (Loc.ocMapEpoch e) 31 0 1).epochEnd e (n * s.period)) s

/-- The belfries at a tick (R386, R388 to R390, R394). -/
def State.belfryTick (s : State) (o : FrameObs) : State :=
  (((s.handoverTick.healthTick o).reportTick o).kickTick).pairTick o.intlkSeen

/-- The registers of a page as they read now are recorded (R489). -/
def State.recordPage (s : State) (page : Nat) : State :=
  match pageInfo page with
  | none => s
  | some (b, _, o) =>
    let offs := (regsOf b o).flatMap fun r => (List.range r.cnt).map fun i => r.off + 4 * i
    let l := offs.map fun off => (page * 4096 + off, (s.readWord page off).toNat + 1)
    { s with recorded := l.foldl (fun t x => tset 0 t x.1 x.2) s.recorded }

/-- Pages of the units that a reset takes out. -/
def State.resetPages (s : State) (r : Reset) : List Nat :=
  let spire (n : Nat) : List Nat := (List.range 9).map fun o => spPage n o
  match r.scope with
  | 3 => allPages.filter fun p => match pageInfo p with
    | some (.spire, n, _) => n / 8 == r.target
    | some (.mbsts, n, _) => n / 8 == r.target
    | some (.gate, g, _) => g / 4 == r.target
    | some (.oculus, e, _) => e == r.target
    | some (.plinth, e, _) => e == r.target
    | some (.belfry, e, _) => e == r.target
    | _ => false
  | 4 => spire r.target
  | 5 => (List.range 4).map fun o => gtPage r.target o
  | 6 => (s.spiresOf r.target).flatMap spire
  | _ => []

/-- Before a reset takes effect the belfry records the registers of its units, which a read gives while they are out; what it
recorded of units that have returned goes (R489). DESIGN CHOICE: it records them at the reset's tick (log entry 247). -/
def State.recordTick (s : State) : State :=
  let s := if s.faults.resets.isEmpty then { s with recorded := s.recorded.filter fun e => s.pageOut (e.1 / 4096) } else s
  ((s.faults.resets.filter fun r => r.phase == 1 && r.ready).flatMap fun r => s.resetPages r).foldl (fun s p => s.recordPage p) s

/-- What happens at a tick, whose count is `clk.lastTick` (R25 and the chapters' rules). DESIGN CHOICE: HOLD and APPLY_AT
are looked at twice, at the cutoff for what a stop prevails over (R50) and at the tick for what takes effect; R27 does not
say when, and a write of them in the last 50 ns acts on this tick (log entry 157). -/
def State.atTick (s : State) (o : FrameObs) : State :=
  let go := s.mayApply s.clk.lastTick
  let applied := (s.splitPend go).1
  let s := (((s.crossTick o.crossStalls).snapshot).applyPend go).applyFrame go
  let iso := s.isolates
  let s := (s.partsTick applied iso).mgmtTick iso
  let s := ((s.clockTick o.notClear).refTick).tickOutPulse
  let s := ((s.lightTick o).wellTick o.bankConflicts o.farGrants o.scratchUpset).storeTick
  let s := s.epochTick.releaseTick
  let s := ((s.layTick go (sealedBy applied)).keyTick).reportNote
  let s := s.designTick.modPower fun p => { p with overLog := [] }
  (s.recordTick.resetTick.belfryTick o).settleAll.seqSettle

/-- TICK: the transit count reaches the next multiple of the frame period. -/
def execTick (o : FrameObs) (s : State) : Host.Outcome State Fault Refusal :=
  if !s.clk.joined then .next s else
  let s := s.takeDeeps
  let s := if s.clk.cutoff then s else s.takeCutoff
  let t := s.nextTick
  let s := s.passTo t
  let s := { s with clk := { s.clk with lastTick := t, cutoff := false, ticked := true, ticks := s.clk.ticks + 1 } }
  .next (s.atTick o)

end Sys2Proof.Machine
end

