-- ==== Sys2Proof/Machine/Window.lean ====
section
/-! DEFINITION. The window of BAR 2 into device memory (R455, R457, R458). -/

namespace Sys2Proof.Machine

/-- What a granule is to a host function (R457): accessible, readable as ciphertext only, or refused. -/
inductive GranAccess where
  | full | cipher | refused
  deriving DecidableEq, Repr

/-- Access of a host function, by number, to the granule of a device address. -/
def State.granAccess (s : State) (m a : Nat) : GranAccess :=
  let o := s.granOwner (a / 2 ^ 30)
  if m ≠ 0 then (if o = m - 1 then .full else .refused)
  else if 8 ≤ o then .full
  else if !s.flag Loc.seDebugCtl 0 then .refused
  else if s.flag Loc.seLayFlags 0 o && s.defined o then .cipher
  else .full

/-- A refused access is logged (R457). -/
def State.granRefused (s : State) (m a : Nat) : State := s.postGlobal 1 0xBA m (a / 2 ^ 30) (some (fnPart m))

/-- The function's BAR 2 answers: the part is up to the link, and the function is one of the host's nine, in D0. -/
def State.barTwo (s : State) (f : Func) : Option Nat := if s.step_ = 0 ∨ !s.fnAwake f then none else fnIdx f

/-- BAR 2 is open: step 6 has ended (R458). -/
def State.windowOpen (s : State) : Bool := decide (7 ≤ s.step_)

/-- Device address that a window offset of a function reaches. -/
def State.windowAddr (s : State) (m offset : Nat) : Nat := s.fld (Loc.mbWin2Base m) 9 0 * 2 ^ 30 + offset

/-- Offset at which BAR 2 shows the function's own mailbox page, and the window's size (Table HS-2). -/
def mailOffset : Nat := 0x1000000000
def windowSize : Nat := 2 ^ 36

/-- The lines of a range. -/
def rangeLines (a len : Nat) : List Nat := (List.range (lineRange a len).2).map fun i => (lineRange a len).1 + i

/-- The first line of a range whose granule refuses the access (R457). -/
def State.windowRefusal (s : State) (m a len : Nat) : Option Nat :=
  (rangeLines a len).find? fun l => s.granAccess m (l * 256) == .refused

/-- The LOAD of a line for a host function: of its ciphertext where that alone may be read (R172, R457). -/
def State.windowLoad (s : State) (m l : Nat) : Hdr :=
  { op := 1, line := BitVec.ofNat 32 l, arg := if s.granAccess m (l * 256) = .cipher then 1 else 0 }

/-- A read of device memory by a host function (R457, R458): refused, or its lines are asked for; the read completes when they have
come (`State.hostOver`). -/
def State.windowReadAt (s : State) (m a offset len : Nat) : State :=
  match s.windowRefusal m a len with
  | some l => { s.granRefused m (l * 256) with resp := .abort }
  | none =>
    ({ s with resp := .none } : State).hostBegin { read := true, m := m, offset := offset, skip := a % 256, len := len }
      ((rangeLines a len).zipIdx.map fun x => (x.2, s.windowLoad m x.1))

/-- A host read of device memory at a window offset. -/
def State.windowRead (s : State) (m offset len : Nat) : State := s.windowReadAt m (s.windowAddr m offset) offset len

/-- The words of the function's mailbox page from an offset on. -/
def State.mailRead (s : State) (f : Func) (m off len : Nat) : State × List Byte :=
  (List.range ((len + 3) / 4)).foldl (fun (t : State × List Byte) i =>
    let r := t.1.readReg f (0x180 + m) (off / 4 * 4 + 4 * i)
    (r.1, t.2 ++ leBytes 4 r.2.toNat)) (s, [])

/-- WINDOW_READ: a host read through BAR 2. -/
def execWindowRead (f : Func) (offset len : Nat) (s : State) : Host.Outcome State Fault Refusal :=
  match s.barTwo f with
  | none => .next { s with resp := .none }
  | some m =>
    if !s.windowOpen then .next { s with resp := .abort }
    else if offset + len ≤ windowSize then .next (s.windowRead m offset len)
    else if mailOffset ≤ offset ∧ offset + len ≤ mailOffset + 4096 then
      let r := s.mailRead f m (offset - mailOffset) len
      .next { r.1 with resp := .bytes (r.2.take len) }
    else .next { s with resp := .bytes (List.replicate len 0) }

/-- Bytes of a write that fall into line `l` of a range that begins at `a`: offset in the line, and the bytes. -/
def linePart (a l : Nat) (b : List Byte) : Nat × List Byte :=
  if l * 256 ≤ a then (a % 256, b.take (256 - a % 256)) else (0, (b.drop (l * 256 - a)).take 256)

/-- The store of a line of a write of device memory by a host function: a full line, or a byte-masked store (R458). -/
def windowStore (a l : Nat) (b : List Byte) : Hdr :=
  let x := linePart a l b
  storeHdr l ((2 ^ x.2.length - 1) * 2 ^ x.1) (layBytes x.1 x.2 (List.replicate 256 0)).1

/-- A write of a range of device memory (R457, R458): each granule that refuses it is logged once, its part discarded, as that of a
sealed partition is; the other lines leave for their gatehouses. -/
def State.windowWriteAt (s : State) (m a : Nat) (b : List Byte) : State :=
  let l := rangeLines a b.length
  let no := ((l.filter fun l => s.granAccess m (l * 256) == .refused).map fun l => l * 256 / 2 ^ 30).eraseDups
  let s1 := no.foldl (fun s g => s.granRefused m (g * 2 ^ 30)) s
  s1.hostBegin { read := false, m := m, skip := a % 256, len := b.length }
    ((l.filter fun l => s.granAccess m (l * 256) == .full).zipIdx.map fun x => (x.2, windowStore a x.1 b))

/-- A write of device memory at a window offset. -/
def State.windowWrite (s : State) (m offset : Nat) (b : List Byte) : State := s.windowWriteAt m (s.windowAddr m offset) b

/-- WINDOW_WRITE: a host write through BAR 2. -/
def execWindowWrite (f : Func) (offset : Nat) (bytes : List Byte) (s : State) : Host.Outcome State Fault Refusal :=
  match s.barTwo f with
  | none => .next s
  | some m =>
    if !s.windowOpen then .next s
    else if offset + bytes.length ≤ windowSize then .next (s.windowWrite m offset bytes)
    else if mailOffset ≤ offset ∧ offset + bytes.length ≤ mailOffset + 4096 then
      let o := offset - mailOffset
      let w := BitVec.ofNat 32 (leNat (bytes.take 4))
      if bytes.length < 4 then .next (s.write f ((0x180 + m) * 4096 + o) w fun _ => .error 2)
      else .next (s.mailWidth f m o bytes.length fun s => s.writeReg f (0x180 + m) o w)
    else .next s

end Sys2Proof.Machine
end

