-- ==== Sys2Proof/Machine/Dispatch.lean ====
section
/-! DEFINITION. The dispatch: one arm per command, each a direct call of the command's meaning. -/

namespace Sys2Proof.Machine

def exec (i : Instr) (s : State) : Host.Outcome State Fault Refusal :=
  match i with
  | .tick x1 => Sys2Proof.Machine.execTick x1 s
  | .partitionStart x1 x2 x3 => Sys2Proof.Machine.execPartitionStart x1 x2 x3 s
  | .partitionStop x1 x2 x3 => Sys2Proof.Machine.execPartitionStop x1 x2 x3 s
  | .partitionResume x1 x2 x3 => Sys2Proof.Machine.execPartitionResume x1 x2 x3 s
  | .ephCommit x1 x2 x3 => Sys2Proof.Machine.execEphCommit x1 x2 x3 s
  | .ephLoad x1 x2 x3 => Sys2Proof.Machine.execEphLoad x1 x2 x3 s
  | .ephLoadSlotCommit x1 => Sys2Proof.Machine.execEphLoadSlotCommit x1 s
  | .slotStartTime x1 x2 => Sys2Proof.Machine.execSlotStartTime x1 x2 s
  | .descriptorDispatch x1 x2 => Sys2Proof.Machine.execDescriptorDispatch x1 x2 s
  | .slotOverBudget x1 x2 x3 => Sys2Proof.Machine.execSlotOverBudget x1 x2 x3 s
  | .slotLate x1 x2 => Sys2Proof.Machine.execSlotLate x1 x2 s
  | .taskCommit x1 x2 x3 => Sys2Proof.Machine.execTaskCommit x1 x2 x3 s
  | .tskLoad x1 x2 x3 => Sys2Proof.Machine.execTskLoad x1 x2 x3 s
  | .tskLoadEntryCommit x1 => Sys2Proof.Machine.execTskLoadEntryCommit x1 s
  | .taskStart x1 x2 => Sys2Proof.Machine.execTaskStart x1 x2 s
  | .mma x1 x2 => Sys2Proof.Machine.execMma x1 x2 s
  | .vop x1 x2 => Sys2Proof.Machine.execVop x1 x2 s
  | .move x1 x2 => Sys2Proof.Machine.execMove x1 x2 s
  | .load x1 x2 => Sys2Proof.Machine.execLoad x1 x2 s
  | .store x1 x2 => Sys2Proof.Machine.execStore x1 x2 s
  | .send x1 x2 => Sys2Proof.Machine.execSend x1 x2 s
  | .fop x1 x2 => Sys2Proof.Machine.execFop x1 x2 s
  | .relay x1 x2 => Sys2Proof.Machine.execRelay x1 x2 s
  | .ticket x1 x2 => Sys2Proof.Machine.execTicket x1 x2 s
  | .zclr x1 x2 => Sys2Proof.Machine.execZclr x1 x2 s
  | .dispatch x1 => Sys2Proof.Machine.execDispatch x1 s
  | .returnRows x1 => Sys2Proof.Machine.execReturnRows x1 s
  | .dispatchRowRefused x1 x2 x3 => Sys2Proof.Machine.execDispatchRowRefused x1 x2 x3 s
  | .taskRetire x1 x2 => Sys2Proof.Machine.execTaskRetire x1 x2 s
  | .relayStripArrival x1 x2 x3 => Sys2Proof.Machine.execRelayStripArrival x1 x2 x3 s
  | .steal x1 x2 => Sys2Proof.Machine.execSteal x1 x2 s
  | .stolenTaskArrival x1 x2 => Sys2Proof.Machine.execStolenTaskArrival x1 x2 s
  | .cellFail x1 x2 => Sys2Proof.Machine.execCellFail x1 x2 s
  | .zoneCommit x1 x2 x3 => Sys2Proof.Machine.execZoneCommit x1 x2 x3 s
  | .xmapWrite x1 x2 x3 => Sys2Proof.Machine.execXmapWrite x1 x2 x3 s
  | .xmapLoad x1 x2 x3 => Sys2Proof.Machine.execXmapLoad x1 x2 x3 s
  | .xmapLoadEntry x1 => Sys2Proof.Machine.execXmapLoadEntry x1 s
  | .messagePartArrival x1 x2 => Sys2Proof.Machine.execMessagePartArrival x1 x2 s
  | .tallyLanding x1 x2 x3 x4 => Sys2Proof.Machine.execTallyLanding x1 x2 x3 x4 s
  | .messageRecordTimeout x1 x2 => Sys2Proof.Machine.execMessageRecordTimeout x1 x2 s
  | .closedRecordExpiry x1 x2 => Sys2Proof.Machine.execClosedRecordExpiry x1 x2 s
  | .messagePartResend x1 x2 x3 => Sys2Proof.Machine.execMessagePartResend x1 x2 x3 s
  | .mergeAgeEvict x1 x2 x3 x4 => Sys2Proof.Machine.execMergeAgeEvict x1 x2 x3 x4 s
  | .sramDrain x1 x2 x3 => Sys2Proof.Machine.execSramDrain x1 x2 x3 s
  | .sramRemap x1 x2 x3 => Sys2Proof.Machine.execSramRemap x1 x2 x3 s
  | .sramRemapCopyDone x1 => Sys2Proof.Machine.execSramRemapCopyDone x1 s
  | .flipArm x1 x2 x3 => Sys2Proof.Machine.execFlipArm x1 x2 x3 s
  | .flipDisarm x1 x2 x3 => Sys2Proof.Machine.execFlipDisarm x1 x2 x3 s
  | .bondSelfTest x1 x2 x3 x4 => Sys2Proof.Machine.execBondSelfTest x1 x2 x3 x4 s
  | .bondRotationOverdue x1 x2 => Sys2Proof.Machine.execBondRotationOverdue x1 x2 s
  | .governorWindow x1 x2 x3 => Sys2Proof.Machine.execGovernorWindow x1 x2 x3 s
  | .governorCorrection x1 x2 => Sys2Proof.Machine.execGovernorCorrection x1 x2 s
  | .arrayPowerCycleDone x1 x2 => Sys2Proof.Machine.execArrayPowerCycleDone x1 x2 s
  | .memCfgWrite x1 x2 x3 => Sys2Proof.Machine.execMemCfgWrite x1 x2 x3 s
  | .lineFillDone x1 x2 x3 => Sys2Proof.Machine.execLineFillDone x1 x2 x3 s
  | .lineIdleWriteback x1 x2 => Sys2Proof.Machine.execLineIdleWriteback x1 x2 s
  | .gatehouseDrain x1 x2 x3 => Sys2Proof.Machine.execGatehouseDrain x1 x2 x3 s
  | .perBankRefresh x1 x2 x3 x4 => Sys2Proof.Machine.execPerBankRefresh x1 x2 x3 x4 s
  | .oscillatorMeasurement x1 x2 x3 x4 => Sys2Proof.Machine.execOscillatorMeasurement x1 x2 x3 x4 s
  | .mr4Readout x1 x2 x3 x4 x5 x6 => Sys2Proof.Machine.execMr4Readout x1 x2 x3 x4 x5 x6 s
  | .retrainDone x1 x2 x3 => Sys2Proof.Machine.execRetrainDone x1 x2 x3 s
  | .mr4LimitRelease x1 x2 => Sys2Proof.Machine.execMr4LimitRelease x1 x2 s
  | .patrolRead x1 x2 x3 => Sys2Proof.Machine.execPatrolRead x1 x2 x3 s
  | .patrolLate x1 => Sys2Proof.Machine.execPatrolLate x1 s
  | .memoryRemap x1 x2 x3 => Sys2Proof.Machine.execMemoryRemap x1 x2 x3 s
  | .memoryRemapCopyDone x1 => Sys2Proof.Machine.execMemoryRemapCopyDone x1 s
  | .gateFlipArm x1 x2 x3 => Sys2Proof.Machine.execGateFlipArm x1 x2 x3 s
  | .gateFlipDisarm x1 x2 x3 => Sys2Proof.Machine.execGateFlipDisarm x1 x2 x3 s
  | .bundleReceive x1 x2 x3 x4 => Sys2Proof.Machine.execBundleReceive x1 x2 x3 x4 s
  | .idleFlitReceive x1 x2 x3 x4 => Sys2Proof.Machine.execIdleFlitReceive x1 x2 x3 x4 s
  | .linkRetryTimeout x1 x2 x3 => Sys2Proof.Machine.execLinkRetryTimeout x1 x2 x3 s
  | .blockLockGain x1 x2 x3 => Sys2Proof.Machine.execBlockLockGain x1 x2 x3 s
  | .blockLockLoss x1 x2 x3 => Sys2Proof.Machine.execBlockLockLoss x1 x2 x3 s
  | .linkFail x1 x2 x3 => Sys2Proof.Machine.execLinkFail x1 x2 x3 s
  | .linkQuery x1 x2 x3 => Sys2Proof.Machine.execLinkQuery x1 x2 x3 s
  | .linkReply x1 x2 x3 x4 => Sys2Proof.Machine.execLinkReply x1 x2 x3 x4 s
  | .linkBackgroundRetrain x1 x2 x3 x4 => Sys2Proof.Machine.execLinkBackgroundRetrain x1 x2 x3 x4 s
  | .detourRelay x1 => Sys2Proof.Machine.execDetourRelay x1 s
  | .pairViaWrite x1 x2 x3 => Sys2Proof.Machine.execPairViaWrite x1 x2 x3 s
  | .laneErrorWindow x1 x2 x3 x4 x5 => Sys2Proof.Machine.execLaneErrorWindow x1 x2 x3 x4 x5 s
  | .lanternFit x1 => Sys2Proof.Machine.execLanternFit x1 s
  | .lanternLock x1 => Sys2Proof.Machine.execLanternLock x1 s
  | .lanternFault x1 => Sys2Proof.Machine.execLanternFault x1 s
  | .emergencySwap x1 => Sys2Proof.Machine.execEmergencySwap x1 s
  | .swapEast x1 x2 => Sys2Proof.Machine.execSwapEast x1 x2 s
  | .swapWest x1 x2 => Sys2Proof.Machine.execSwapWest x1 x2 s
  | .lanternReturn x1 x2 => Sys2Proof.Machine.execLanternReturn x1 x2 s
  | .anomRecord x1 x2 => Sys2Proof.Machine.execAnomRecord x1 x2 s
  | .recalBuffersEmpty x1 x2 => Sys2Proof.Machine.execRecalBuffersEmpty x1 x2 s
  | .recalAbandon x1 x2 => Sys2Proof.Machine.execRecalAbandon x1 x2 s
  | .sweepDone x1 x2 x3 => Sys2Proof.Machine.execSweepDone x1 x2 x3 s
  | .recalGo x1 x2 x3 => Sys2Proof.Machine.execRecalGo x1 x2 x3 s
  | .lightDetect x1 => Sys2Proof.Machine.execLightDetect x1 s
  | .codewordLockGain x1 => Sys2Proof.Machine.execCodewordLockGain x1 s
  | .codewordLockLoss x1 => Sys2Proof.Machine.execCodewordLockLoss x1 s
  | .trainingFlitReceive x1 x2 => Sys2Proof.Machine.execTrainingFlitReceive x1 x2 s
  | .portTrainRetry x1 => Sys2Proof.Machine.execPortTrainRetry x1 s
  | .fabricBundleReceive x1 x2 => Sys2Proof.Machine.execFabricBundleReceive x1 x2 s
  | .fabricIdleFlit x1 x2 => Sys2Proof.Machine.execFabricIdleFlit x1 x2 s
  | .fabricRetryTimeout x1 => Sys2Proof.Machine.execFabricRetryTimeout x1 s
  | .symbolErrorWindow x1 x2 => Sys2Proof.Machine.execSymbolErrorWindow x1 x2 s
  | .portFail x1 x2 => Sys2Proof.Machine.execPortFail x1 x2 s
  | .flinkQuery x1 => Sys2Proof.Machine.execFlinkQuery x1 s
  | .flinkReply x1 => Sys2Proof.Machine.execFlinkReply x1 s
  | .flinkReplyTimeout x1 => Sys2Proof.Machine.execFlinkReplyTimeout x1 s
  | .portRetrain x1 x2 x3 => Sys2Proof.Machine.execPortRetrain x1 x2 x3 s
  | .routeLoad x1 x2 x3 => Sys2Proof.Machine.execRouteLoad x1 x2 x3 s
  | .routeLoadEntry x1 => Sys2Proof.Machine.execRouteLoadEntry x1 s
  | .mcgLoad x1 x2 x3 => Sys2Proof.Machine.execMcgLoad x1 x2 x3 s
  | .mcgLoadEntry x1 => Sys2Proof.Machine.execMcgLoadEntry x1 s
  | .ringCtlWrite x1 x2 x3 => Sys2Proof.Machine.execRingCtlWrite x1 x2 x3 s
  | .cmap x1 => Sys2Proof.Machine.execCmap x1 s
  | .fabLoad x1 x2 => Sys2Proof.Machine.execFabLoad x1 x2 s
  | .fabStore x1 x2 => Sys2Proof.Machine.execFabStore x1 x2 s
  | .storeMasked x1 x2 => Sys2Proof.Machine.execStoreMasked x1 x2 s
  | .atomic x1 x2 => Sys2Proof.Machine.execAtomic x1 x2 s
  | .reduce x1 x2 => Sys2Proof.Machine.execReduce x1 x2 s
  | .mcStore x1 x2 => Sys2Proof.Machine.execMcStore x1 x2 s
  | .mcStoreCopy x1 x2 => Sys2Proof.Machine.execMcStoreCopy x1 x2 s
  | .msg x1 x2 => Sys2Proof.Machine.execMsg x1 x2 s
  | .tally x1 x2 => Sys2Proof.Machine.execTally x1 x2 s
  | .signal x1 x2 => Sys2Proof.Machine.execSignal x1 x2 s
  | .awaitNotify x1 x2 x3 => Sys2Proof.Machine.execAwaitNotify x1 x2 x3 s
  | .combEntryClose x1 x2 x3 => Sys2Proof.Machine.execCombEntryClose x1 x2 x3 s
  | .comp x1 x2 => Sys2Proof.Machine.execComp x1 x2 s
  | .compData x1 x2 => Sys2Proof.Machine.execCompData x1 x2 s
  | .mcRetryResend x1 x2 => Sys2Proof.Machine.execMcRetryResend x1 x2 s
  | .mcTimeout x1 x2 => Sys2Proof.Machine.execMcTimeout x1 x2 s
  | .dupFilterExpiry x1 x2 => Sys2Proof.Machine.execDupFilterExpiry x1 x2 s
  | .windowCommit x1 x2 x3 => Sys2Proof.Machine.execWindowCommit x1 x2 x3 s
  | .winLoad x1 x2 x3 => Sys2Proof.Machine.execWinLoad x1 x2 x3 s
  | .winLoadEntry x1 => Sys2Proof.Machine.execWinLoadEntry x1 s
  | .csValueWrite x1 x2 x3 => Sys2Proof.Machine.execCsValueWrite x1 x2 x3 s
  | .refCtlWrite x1 x2 => Sys2Proof.Machine.execRefCtlWrite x1 x2 s
  | .downStep x1 x2 => Sys2Proof.Machine.execDownStep x1 x2 s
  | .clkModeWrite x1 x2 => Sys2Proof.Machine.execClkModeWrite x1 x2 s
  | .meshEmergency x1 => Sys2Proof.Machine.execMeshEmergency x1 s
  | .westTransitExchange x1 => Sys2Proof.Machine.execWestTransitExchange x1 s
  | .timeSync x1 x2 => Sys2Proof.Machine.execTimeSync x1 x2 s
  | .timeSyncResp x1 x2 x3 => Sys2Proof.Machine.execTimeSyncResp x1 x2 x3 s
  | .ringTimeMessage x1 x2 x3 => Sys2Proof.Machine.execRingTimeMessage x1 x2 x3 s
  | .exchangeTimeout x1 => Sys2Proof.Machine.execExchangeTimeout x1 s
  | .rejoin x1 x2 => Sys2Proof.Machine.execRejoin x1 x2 s
  | .timeSetWrite x1 x2 => Sys2Proof.Machine.execTimeSetWrite x1 x2 s
  | .railFail x1 x2 => Sys2Proof.Machine.execRailFail x1 x2 s
  | .busConverterFail x1 => Sys2Proof.Machine.execBusConverterFail x1 s
  | .stackOverrun x1 => Sys2Proof.Machine.execStackOverrun x1 s
  | .inputMonitorSample x1 x2 => Sys2Proof.Machine.execInputMonitorSample x1 x2 s
  | .sensorSample x1 => Sys2Proof.Machine.execSensorSample x1 s
  | .gatehouseTripResume x1 => Sys2Proof.Machine.execGatehouseTripResume x1 s
  | .plinthTripFence x1 => Sys2Proof.Machine.execPlinthTripFence x1 s
  | .holdPulse x1 x2 => Sys2Proof.Machine.execHoldPulse x1 x2 s
  | .pulseAbsence x1 => Sys2Proof.Machine.execPulseAbsence x1 s
  | .takeoverQuery x1 => Sys2Proof.Machine.execTakeoverQuery x1 s
  | .takeover x1 => Sys2Proof.Machine.execTakeover x1 s
  | .belfryRestart x1 x2 => Sys2Proof.Machine.execBelfryRestart x1 x2 s
  | .belfryRestartCmd x1 x2 x3 => Sys2Proof.Machine.execBelfryRestartCmd x1 x2 x3 s
  | .handover x1 x2 x3 => Sys2Proof.Machine.execHandover x1 x2 x3 s
  | .selfTestRotation x1 => Sys2Proof.Machine.execSelfTestRotation x1 s
  | .heartbeat x1 => Sys2Proof.Machine.execHeartbeat x1 s
  | .regWrite x1 => Sys2Proof.Machine.execRegWrite x1 s
  | .regRead x1 => Sys2Proof.Machine.execRegRead x1 s
  | .admitAt x1 => Sys2Proof.Machine.execAdmit x1 s
  | .pairTakeoverQuery x1 => Sys2Proof.Machine.execPairTakeoverQuery x1 s
  | .mgmtResp x1 => Sys2Proof.Machine.execMgmtResp x1 s
  | .layoutCommit x1 x2 => Sys2Proof.Machine.execLayoutCommit x1 x2 s
  | .layoutDiscard x1 x2 => Sys2Proof.Machine.execLayoutDiscard x1 x2 s
  | .entropyFail x1 => Sys2Proof.Machine.execEntropyFail x1 s
  | .seClaim x1 x2 => Sys2Proof.Machine.execSeClaim x1 x2 s
  | .seRelease x1 x2 => Sys2Proof.Machine.execSeRelease x1 x2 s
  | .kxOffer x1 x2 => Sys2Proof.Machine.execKxOffer x1 x2 s
  | .kxAccept x1 x2 x3 => Sys2Proof.Machine.execKxAccept x1 x2 x3 s
  | .kxFinish x1 x2 x3 => Sys2Proof.Machine.execKxFinish x1 x2 x3 s
  | .kxActivate x1 x2 => Sys2Proof.Machine.execKxActivate x1 x2 s
  | .keyDrop x1 x2 => Sys2Proof.Machine.execKeyDrop x1 x2 s
  | .sessionEnd x1 x2 => Sys2Proof.Machine.execSessionEnd x1 x2 s
  | .oldKeyExpiry x1 => Sys2Proof.Machine.execOldKeyExpiry x1 s
  | .attReport x1 x2 => Sys2Proof.Machine.execAttReport x1 x2 s
  | .spdmGetVersion x1 => Sys2Proof.Machine.execSpdmGetVersion x1 s
  | .spdmGetCapabilities x1 => Sys2Proof.Machine.execSpdmGetCapabilities x1 s
  | .spdmNegotiateAlgorithms x1 => Sys2Proof.Machine.execSpdmNegotiateAlgorithms x1 s
  | .spdmVendorDefined x1 x2 => Sys2Proof.Machine.execSpdmVendorDefined x1 x2 s
  | .spdmKeyExchange x1 => Sys2Proof.Machine.execSpdmKeyExchange x1 s
  | .ideKm x1 x2 => Sys2Proof.Machine.execIdeKm x1 x2 s
  | .logAck x1 x2 => Sys2Proof.Machine.execLogAck x1 x2 s
  | .logClear x1 x2 => Sys2Proof.Machine.execLogClear x1 x2 s
  | .completionTimeout x1 => Sys2Proof.Machine.execCompletionTimeout x1 s
  | .resetCold x1 x2 => Sys2Proof.Machine.execResetCold x1 x2 s
  | .resetModule x1 x2 => Sys2Proof.Machine.execResetModule x1 x2 s
  | .resetPlinth x1 x2 => Sys2Proof.Machine.execResetPlinth x1 x2 s
  | .resetSpire x1 x2 => Sys2Proof.Machine.execResetSpire x1 x2 s
  | .resetGatehouse x1 x2 => Sys2Proof.Machine.execResetGatehouse x1 x2 s
  | .resetPartition x1 x2 => Sys2Proof.Machine.execResetPartition x1 x2 s
  | .resetPort x1 x2 => Sys2Proof.Machine.execResetPort x1 x2 s
  | .resetReturn x1 x2 => Sys2Proof.Machine.execResetReturn x1 x2 s
  | .startStepEnd x1 => Sys2Proof.Machine.execStartStepEnd x1 s
  | .startStepLimit x1 => Sys2Proof.Machine.execStartStepLimit x1 s
  | .continue_ x1 x2 => Sys2Proof.Machine.execContinue x1 x2 s
  | .save x1 x2 => Sys2Proof.Machine.execSave x1 x2 s
  | .fabIdWrite x1 x2 => Sys2Proof.Machine.execFabIdWrite x1 x2 s
  | .hostLinkTrain x1 x2 x3 => Sys2Proof.Machine.execHostLinkTrain x1 x2 x3 s
  | .configRequest x1 => Sys2Proof.Machine.execConfigRequest x1 s
  | .flr x1 => Sys2Proof.Machine.execFlr x1 s
  | .windowRead x1 x2 x3 => Sys2Proof.Machine.execWindowRead x1 x2 x3 s
  | .windowWrite x1 x2 x3 => Sys2Proof.Machine.execWindowWrite x1 x2 x3 s
  | .mbTxData x1 x2 x3 x4 x5 => Sys2Proof.Machine.execMbTxData x1 x2 x3 x4 x5 s
  | .mbRxPop x1 x2 x3 => Sys2Proof.Machine.execMbRxPop x1 x2 x3 s
  | .doorbell x1 x2 x3 => Sys2Proof.Machine.execDoorbell x1 x2 x3 s
  | .flushTx x1 x2 x3 => Sys2Proof.Machine.execFlushTx x1 x2 x3 s
  | .flushRx x1 x2 x3 => Sys2Proof.Machine.execFlushRx x1 x2 x3 s
  | .status x1 x2 => Sys2Proof.Machine.execStatus x1 x2 s
  | .imageWrite x1 x2 x3 x4 x5 => Sys2Proof.Machine.execImageWrite x1 x2 x3 x4 x5 s
  | .imageCommit x1 x2 x3 x4 => Sys2Proof.Machine.execImageCommit x1 x2 x3 x4 s
  | .svnRaise x1 x2 x3 x4 => Sys2Proof.Machine.execSvnRaise x1 x2 x3 x4 s
  | .wellRemap x1 x2 x3 x4 x5 => Sys2Proof.Machine.execWellRemap x1 x2 x3 x4 x5 s
  | .logRead x1 x2 x3 x4 => Sys2Proof.Machine.execLogRead x1 x2 x3 x4 s
  | .setDevId x1 x2 x3 => Sys2Proof.Machine.execSetDevId x1 x2 x3 s
  | .sidebandInputEdge x1 x2 => Sys2Proof.Machine.execSidebandInputEdge x1 x2 s
  | .inputChatter x1 x2 => Sys2Proof.Machine.execInputChatter x1 x2 s
  | .chatterClear x1 => Sys2Proof.Machine.execChatterClear x1 s
  | .inputStuck x1 => Sys2Proof.Machine.execInputStuck x1 s
  | .registerWrite x1 x2 x3 x4 x5 => Sys2Proof.Machine.execRegisterWrite x1 x2 x3 x4 x5 s
  | .unmappedWrite x1 x2 x3 x4 => Sys2Proof.Machine.execUnmappedWrite x1 x2 x3 x4 s
  | .pageLock x1 x2 x3 => Sys2Proof.Machine.execPageLock x1 x2 x3 s
  | .evcClr x1 x2 x3 => Sys2Proof.Machine.execEvcClr x1 x2 x3 s
  | .evcCntWrite x1 x2 x3 x4 x5 => Sys2Proof.Machine.execEvcCntWrite x1 x2 x3 x4 x5 s
  | .stretch x1 x2 => Sys2Proof.Machine.execStretch x1 x2 s
  | .takeoverRefusal x1 => Sys2Proof.Machine.execTakeoverRefusal x1 s
  | .registerRead x1 x2 x3 => Sys2Proof.Machine.execRegisterRead x1 x2 x3 s
  | .tickCutoff => Sys2Proof.Machine.execTickCutoff s
  | .selectorSettled => Sys2Proof.Machine.execSelectorSettled s
  | .rotationRowStart => Sys2Proof.Machine.execRotationRowStart s
  | .thermalMapPublish => Sys2Proof.Machine.execThermalMapPublish s
  | .mapEpochEnd => Sys2Proof.Machine.execMapEpochEnd s
  | .timeRefLoss => Sys2Proof.Machine.execTimeRefLoss s
  | .refReturn => Sys2Proof.Machine.execRefReturn s
  | .modeChangeComplete => Sys2Proof.Machine.execModeChangeComplete s
  | .timeSyncSend => Sys2Proof.Machine.execTimeSyncSend s
  | .arcChange => Sys2Proof.Machine.execArcChange s
  | .arcReturn => Sys2Proof.Machine.execArcReturn s
  | .joinTimeout => Sys2Proof.Machine.execJoinTimeout s
  | .holdover => Sys2Proof.Machine.execHoldover s
  | .hotSwapClose => Sys2Proof.Machine.execHotSwapClose s
  | .inputUndervoltage => Sys2Proof.Machine.execInputUndervoltage s
  | .inputOvervoltageWarn => Sys2Proof.Machine.execInputOvervoltageWarn s
  | .inputCurrentLimit => Sys2Proof.Machine.execInputCurrentLimit s
  | .powerFail => Sys2Proof.Machine.execPowerFail s
  | .guardRecoveryStep => Sys2Proof.Machine.execGuardRecoveryStep s
  | .throttleRecoveryStep => Sys2Proof.Machine.execThrottleRecoveryStep s
  | .stuckHold => Sys2Proof.Machine.execStuckHold s
  | .stuckHolderStopped => Sys2Proof.Machine.execStuckHolderStopped s
  | .stateLogRecord => Sys2Proof.Machine.execStateLogRecord s
  | .heartbeatSend => Sys2Proof.Machine.execHeartbeatSend s
  | .engineLapse => Sys2Proof.Machine.execEngineLapse s
  | .heartbeatLoss => Sys2Proof.Machine.execHeartbeatLoss s
  | .claimLapse => Sys2Proof.Machine.execClaimLapse s
  | .seCommandDone => Sys2Proof.Machine.execSeCommandDone s
  | .attReportDone => Sys2Proof.Machine.execAttReportDone s
  | .errorHandle => Sys2Proof.Machine.execErrorHandle s
  | .plinthResetAssert => Sys2Proof.Machine.execPlinthResetAssert s
  | .recoveryAutoReset => Sys2Proof.Machine.execRecoveryAutoReset s
  | .resetNAssert => Sys2Proof.Machine.execResetNAssert s
  | .resetNRelease => Sys2Proof.Machine.execResetNRelease s
  | .smbusSensorRead => Sys2Proof.Machine.execSmbusSensorRead s
  | .smbusPowerRead => Sys2Proof.Machine.execSmbusPowerRead s
  | .smbusBootRead => Sys2Proof.Machine.execSmbusBootRead s
  | .smbusSidebandRead => Sys2Proof.Machine.execSmbusSidebandRead s
  | .smbusIdentityRead => Sys2Proof.Machine.execSmbusIdentityRead s
  | .inputVoltageReturn => Sys2Proof.Machine.execInputVoltageReturn s
  | .stuckHoldRelease => Sys2Proof.Machine.execStuckHoldRelease s

end Sys2Proof.Machine
end

