-- ==== Sys2Proof/Safety.lean ====
section
/-! DEFINITION. The terms in which statements speak of the part: its pieces, what a command leaves unchanged, the
conditions under which a write is taken, and the canonical form of its tables. -/

namespace Sys2Proof.Machine

/-- The pieces of the state. -/
inductive Piece where
  | pending | free | clk | time | regions | regs | pend | latched | lowStage | hiLatch | resp | evc | recorded | faults | lay | parts
  | spires | gates | sentTo | calls | hostOps | incs | mem | memKey | memFlip | keys | dying | plinths | links | viaBad | relays | swMask | optics
  | oculi | dups | pairKeys | sec | belfries | mgmt | power | mboxes | fns | irqs | start | store
  deriving DecidableEq, Repr

/-- Every piece. -/
def Piece.all : List Piece :=
  [.pending, .free, .clk, .time, .regions, .regs, .pend, .latched, .lowStage, .hiLatch, .resp, .evc, .recorded, .faults, .lay,
   .parts, .spires, .gates, .sentTo, .calls, .hostOps, .incs, .mem, .memKey, .memFlip, .keys, .dying, .plinths, .links, .viaBad, .relays, .swMask,
   .optics, .oculi, .dups, .pairKeys, .sec, .belfries, .mgmt, .power, .mboxes, .fns, .irqs, .start, .store]

/-- A byte of device memory, as stored (R161). -/
def State.memByte (s : State) (a : Nat) : Byte := tget 0 s.mem a

/-- A piece reads the same in two states: registers by place and selection, device memory byte by byte. -/
def Piece.same (s t : State) : Piece → Prop
  | .pending => t.pending = s.pending
  | .free => t.free = s.free
  | .clk => t.clk = s.clk
  | .time => t.time = s.time
  | .regions => t.regions = s.regions
  | .regs => ∀ loc idx, t.get loc idx = s.get loc idx
  | .pend => t.pend = s.pend
  | .latched => t.latched = s.latched
  | .lowStage => t.lowStage = s.lowStage
  | .hiLatch => t.hiLatch = s.hiLatch
  | .resp => t.resp = s.resp
  | .evc => t.evc = s.evc
  | .recorded => t.recorded = s.recorded
  | .faults => t.faults = s.faults
  | .lay => t.lay = s.lay
  | .parts => t.parts = s.parts
  | .spires => t.spires = s.spires
  | .gates => t.gates = s.gates
  | .sentTo => t.sentTo = s.sentTo
  | .calls => t.calls = s.calls ∧ t.nextTid = s.nextTid
  | .hostOps => t.hostOps = s.hostOps ∧ t.nextHost = s.nextHost
  | .incs => t.incs = s.incs
  | .mem => ∀ a, t.memByte a = s.memByte a
  | .memKey => t.memKey = s.memKey
  | .memFlip => t.memFlip = s.memFlip
  | .keys => t.keys = s.keys ∧ t.nextKey = s.nextKey
  | .dying => t.dying = s.dying
  | .plinths => t.plinths = s.plinths
  | .links => t.links = s.links
  | .viaBad => t.viaBad = s.viaBad
  | .relays => t.relays = s.relays
  | .swMask => t.swMask = s.swMask
  | .optics => t.optics = s.optics
  | .oculi => t.oculi = s.oculi
  | .dups => t.dups = s.dups
  | .pairKeys => t.pairKeys = s.pairKeys
  | .sec => t.sec = s.sec
  | .belfries => t.belfries = s.belfries
  | .mgmt => t.mgmt = s.mgmt
  | .power => t.power = s.power
  | .mboxes => t.mboxes = s.mboxes
  | .fns => t.fns = s.fns
  | .irqs => t.irqs = s.irqs
  | .start => t.start = s.start
  | .store => t.store = s.store

/-- Every piece but those listed reads the same. -/
def Frame (but : List Piece) (s t : State) : Prop := ∀ p ∈ Piece.all, p ∉ but → p.same s t

/-- Every register but those at the places listed reads the same, at every selection. -/
def RegsKeep (but : List Loc) (s t : State) : Prop := ∀ loc idx, loc ∉ but → t.get loc idx = s.get loc idx

/-- A write of a word to a register by a function passes the checks of R486 that come before the register's own rule:
its page is open, the function may write it, it is not locked, its unit is up. -/
def State.accepts (s : State) (f : Func) (loc : Loc) (v : Word) : Prop :=
  s.pageOpen f (loc / 4096) = true ∧ s.accessCheck f (loc / 4096) (loc % 4096) v = none

/-- No tick comes before the duration clock reads `t`. -/
def State.reaches (s : State) (t : Nat) : Prop :=
  t ≤ s.clk.elapsed ∨ s.clk.joined = false ∨ s.countAfter (t - s.clk.elapsed) < s.nextTick

/-- The state when the duration clock reads `t`, nothing but time having passed. -/
def State.atTime (s : State) (t : Nat) : State := s.pass (t - s.clk.elapsed)

/-- The duration clock when a region has counted `c`, in 1/80 of a cycle, at its present frequency. -/
def State.cycleAt (s : State) (r : Nat) (c : Int) : Nat :=
  s.clk.elapsed + ((c - s.cycles r).toNat + max 1 (s.regN r) - 1) / max 1 (s.regN r)

/-- A word has no reserved bit set and no field out of its range for the register at a place (R486). -/
def wellFormedFor (loc : Loc) (v : Word) : Prop := formCheck (locFields loc) v = none

/-- The canonical form of device memory: addresses strictly rising, no byte equal to what an unlisted address reads as. -/
def memWf (m : List Host.Cell) : Bool := twf (fun _ => 0) m

/-- The canonical form of the register file and of device memory: keys strictly rising, no entry equal to what an
unlisted key reads as. -/
def State.canon (s : State) : Bool := twf rfDefault s.rf && memWf s.mem

end Sys2Proof.Machine
end

