-- ==== Sys2Proof/Certificates/Slice0/Obligations.lean ====
section
/-! DEFINITION. The statements about the part. Each docstring names the rules of spec/ that it formalises, or says that it
rests on a choice of the model. -/

open Sys2Proof Sys2Proof.Machine

/-- With a command at the front of the queue, a step is that command's effect on the state with the queue's rest. -/
def Obligations.StepRunsTheFrontCommand : Prop :=
  ∀ (c : Instr) (rest : List Instr) (s : State),
    step { s with pending := c :: rest } = exec c { s with pending := rest }

/-- The model's choice for an empty queue (log entry 2): one nanosecond passes; only the clock and the counters of transit
nanoseconds move. -/
def Obligations.EmptyQueueIdles : Prop :=
  ∀ s : State, s.pending = [] →
    step s = .next (s.pass 1) ∧ Frame [.clk, .evc, .regs] s (s.pass 1) ∧ (s.pass 1).clk.elapsed = s.clk.elapsed + 1

/-- Every command of the part has an effect on every state: none faults, none is refused. -/
def Obligations.EveryCommandCompletes : Prop := ∀ (c : Instr) (s : State), ∃ t, exec c s = .next t

/-- The state before the start, from the register map's reset values: nothing waits, no register is listed, memory is
unlisted; the period of the frame, the guard threshold, the clock limit and the loss time read as the spec resets
them; the minimum security versions are 0, the model's choice (log entry 100). -/
def Obligations.ResetHoldsTheStatedValues : Prop :=
  State.reset.canon = true ∧ State.reset.pending = [] ∧ State.reset.rf = [] ∧ State.reset.mem = [] ∧
  State.reset.power.closed = false ∧ State.reset.fld Loc.glFrameCfg 9 0 = 10 ∧ State.reset.fld Loc.glPwrGuard 10 0 = 1760 ∧
  State.reset.fld Loc.glPwrCfg 10 0 = 1600 ∧ State.reset.fld Loc.glTimeCtl 11 4 = 100 ∧
  State.reset.fld Loc.glClkCtl 14 8 = 112 ∧ (∀ k, tget 0 State.reset.store.svn k = 0)

/-- R162: line L lies in gatehouse c mod 8, local channel ⌊c ÷ 8⌋, channel line q = ⌊L ÷ 384⌋, where c = (L mod 384 + h)
mod 384 and h folds the bits of q; every gatehouse, channel and channel line holds exactly one line of device memory;
consecutive lines of one q lie in consecutive gatehouses, and a stride of 384 lines goes to another channel. -/
def Obligations.LinesArePlacedOnce : Prop :=
  (∀ l : Nat, let q := l / 384
    let h := (bitsOf q 8 0 ^^^ bitsOf q 17 9 ^^^ bitsOf q 22 18) % 384
    let c := (l % 384 + h) % 384
    placeLine l = (c % 8, c / 8, q)) ∧
  (∀ g < 8, ∀ ch < 48, ∀ q < 2 ^ 23, ∃ l < 3 * 2 ^ 30, placeLine l = (g, ch, q) ∧
    ∀ m < 3 * 2 ^ 30, placeLine m = (g, ch, q) → m = l) ∧
  (∀ l < 3 * 2 ^ 30, (placeLine l).1 < 8 ∧ (placeLine l).2.1 < 48 ∧ (placeLine l).2.2 < 2 ^ 23) ∧
  (∀ l, l % 384 ≠ 383 → (placeLine (l + 1)).1 = ((placeLine l).1 + 1) % 8) ∧
  (∀ l, l / 384 % 512 ≠ 511 →
    ((placeLine (l + 384)).1, (placeLine (l + 384)).2.1) ≠ ((placeLine l).1, (placeLine l).2.1))

/-- R35: an await of a count C with threshold T is satisfied when (C − T) mod 2^32 is below 2^31; when it consumes, T is
subtracted from C at that moment, so that the increments it took satisfy no other await; no other count changes. -/
def Obligations.AwaitsTakeTheirCounts : Prop :=
  (∀ c t : Nat, c < 2 ^ 32 → t < 2 ^ 32 → (awaitMet c t = true ↔ ((c : Int) - t) % 2 ^ 32 < 2 ^ 31)) ∧
  (∀ (s u : State) (n slot : Nat) (second : Bool), s.awaitTry n slot second = some u →
    let w := s.slotW n slot (if second then 5 else 3)
    let thr := s.slotW n slot (if second then 6 else 4)
    let tag := bitsOf w 11 0
    let i := bitsOf w 19 12
    awaitMet (s.count tag i) thr = true ∧ (bitOf w 21 = false → u = s) ∧
    (bitOf w 21 = true → thr < 2 ^ 32 → u.count tag i = (s.count tag i + 2 ^ 32 - thr) % 2 ^ 32 ∧
      (s.canon = true → ∀ x y, x < 4096 → y < 256 → (x, y) ≠ (tag, i) → u.count x y = s.count x y)))

/-- Whatever command runs, from whatever state, the minimum security version of no image type falls, and no command that
waits is lost or added: the minimum of every type stays above every floor that it was above. (After R418.) -/
def Obligations.MinimumVersionsNeverFall : Prop :=
  ∀ (floor : Nat → Nat) (s t : State), (∀ k, floor k ≤ tget 0 s.store.svn k) → step s = .next t →
    (∀ k, floor k ≤ tget 0 t.store.svn k) ∧ t.pending = s.pending.drop 1

/-- A write of PFp_CTL that passes the checks of its page and of its form, with CMD start, stop or resume. It is taken in
the states that R49 lists, a resume only outside recovery (R450): then the register's other fields are written by
their own rules, CMD waits for the tick as a pending value, and the change joins the state log (R382). Of a write of
the management service only CMD is taken. In every other state, and for an undefined partition, it is rejected with
0x05. (After R48, R49, R52.) Next states are given for PARTITION_START, PARTITION_STOP, PARTITION_RESUME. -/
def Obligations.PartitionCommandsPend : Prop :=
  ∀ (s : State) (f : Func) (p : Fin 8) (v : Word),
    let loc := Loc.ptPfCtl p
    let w := fun cmd => v.put 1 0 cmd
    let ok := fun cmd => s.accepts f loc (w cmd) ∧
      (f = .mgmt → rsvCheck (locFields loc) (w cmd) = none) ∧ (f ≠ .mgmt → wellFormedFor loc (w cmd))
    let waits := fun cmd =>
      ((if f = .mgmt then s else s.writeFields loc 0 (w cmd).toNat (some p.val) (locFields loc)).pendField loc 1 0 cmd).managed
    let refused := s.reject f (loc / 4096) (loc % 4096) 5
    let idle := s.pfState p = 0 ∨ s.pfState p = 3
    (ok 1 → exec (.partitionStart f p v) s = .next (if s.defined p = true ∧ idle then waits 1 else refused)) ∧
    (ok 2 → exec (.partitionStop f p v) s = .next (if s.defined p = true ∧ s.pfState p ≠ 0 then waits 2 else refused)) ∧
    (ok 3 → exec (.partitionResume f p v) s = .next
      (if s.defined p = true ∧ idle ∧ s.flag Loc.glFaultSts 0 = false then waits 3 else refused))

/-- A write of EPH_DATA15 that reaches its register. Sixteen staged words that pass the commit check of R33 are committed,
whole, to the slot that EPH_SEL.SLOT names, SLOT increases with AUTOINC (1,023 is followed by 0), and the change joins
the state log; words that fail it are rejected with its code, then a write while EPH_LOAD.BUSY is 1 with 0x06, then a
slot of a started programme with 0x07. (After R30 to R33.) A write of EPH_LOAD with GO = 1 that passes the checks of
its page, its form and its range. With a target slot of a started programme it is rejected with 0x07. Otherwise BUSY
becomes 1 and the load of COUNT slots from FIRST stands in the spire, its first line asked for at once.
EPH_LOAD_SLOT_COMMIT: while the line of the next slot has not come, the load asks for it; a slot that came is
committed whole when it passes the commit check; one that fails it, or that a started programme holds, is rejected
with that code; one that could not be read changes nothing. After each slot the load goes on with the next, and the
last clears BUSY. (After R31, R32.) Next states are given for EPH_COMMIT, EPH_LOAD, EPH_LOAD_SLOT_COMMIT. -/
def Obligations.EphemerisIsFilled : Prop :=
  (
  ∀ (s : State) (f : Func) (n : Fin 16) (v : Word), s.accepts f (Loc.spEphData n 15) v →
    let w := s.staged (Loc.spEphData n) 16 v
    let slot := s.fld (Loc.spEphSel n) 9 0
    let put := s.putWords (Loc.spEphData n) slot w
    let refused := fun c => s.reject f (Loc.spEphData n 15 / 4096) (Loc.spEphData n 15 % 4096) c
    (∀ c, s.slotCheck (s.spireOwner n) w = some c → exec (.ephCommit f n v) s = .next (refused c)) ∧
    (s.slotCheck (s.spireOwner n) w = none →
      exec (.ephCommit f n v) s = .next
        (if s.flag (Loc.spEphLoad n) 30 = true then refused 6
        else if s.slotLocked n slot = true then refused 7
        else (if put.flag (Loc.spEphSel n) 16 = true
          then put.setFld (Loc.spEphSel n) 9 0 ((put.fld (Loc.spEphSel n) 9 0 + 1) % 1024) else put).managed))) ∧
  (
  ∀ (s : State) (f : Func) (n : Fin 16),
    let loc := Loc.spEphLoad n
    (∀ v : Word, let go := v.put 31 31 1
      s.accepts f loc go →
      let b : BulkLoad := { next := go.bits 9 0, left := go.bits 20 10, addr := s.addrOf (Loc.spEphLoadAddrLo n), f := f }
      s.bulkCheck loc go b.addr b.next b.left 1024 2048 64 = none →
      exec (.ephLoad f n v) s = .next
        (if (List.range b.left).any fun i => s.slotLocked n ((b.next + i) % 1024) then s.reject f (loc / 4096) (loc % 4096) 7
        else (((s.put loc ((go.put 31 31 0).put 30 30 1)).modSpire n fun sp => { sp with ephLoad := some b }).askLoad (.eph n)).managed)) ∧
    (∀ b : BulkLoad, (s.spire n).ephLoad = some b →
      let rest : BulkLoad := { b with next := (b.next + 1) % 1024, left := b.left - 1, addr := b.addr + 64 }
      let goOn := fun t : State =>
        if b.left ≤ 1 then (t.modSpire n fun sp => { sp with ephLoad := none }).setFlag loc 30 false
        else (t.modSpire n fun sp => { sp with ephLoad := some rest }).askLoad (.eph n)
      let refused := fun c => s.reject b.f (loc / 4096) (loc % 4096) c
      (b.entry 64 = none → exec (.ephLoadSlotCommit n) s = .next (s.askLoad (.eph n))) ∧
      (b.entry 64 = some none → exec (.ephLoadSlotCommit n) s = .next (goOn s)) ∧
      (∀ w, b.entry 64 = some (some w) →
        (∀ c, s.slotCheck (s.spireOwner n) w = some c → exec (.ephLoadSlotCommit n) s = .next (goOn (refused c))) ∧
        (s.slotCheck (s.spireOwner n) w = none →
          exec (.ephLoadSlotCommit n) s = .next
            (if s.slotLocked n b.next = true then goOn (refused 7)
            else goOn (s.putWords (Loc.spEphData n) b.next w).managed)))))

/-- TASK_COMMIT, TSK_LOAD and TSK_LOAD_ENTRY_COMMIT. A write of TSK_DATA7 that reaches its register: eight staged words
that pass the commit check are stored at TSK_SEL.INDEX, which increases with AUTOINC; words that fail it are rejected
with its code, then a write while TSK_LOAD.BUSY is 1 with 0x06, then a descriptor of a started programme's slot with
0x07. A write of TSK_LOAD with GO = 1 that passes the checks of its page, form and range: with a target of a started
programme it is rejected with 0x07, otherwise BUSY becomes 1 and the load asks for its first line. A descriptor that
came is committed when it passes the check, rejected with its code when it fails it or is in use, and one that could
not be read changes nothing; the load goes on with the next, and the last clears BUSY. (After R62, R63, R31.) Next
states are given for TASK_COMMIT, TSK_LOAD, TSK_LOAD_ENTRY_COMMIT. -/
def Obligations.DescriptorsAreCommitted : Prop :=
  ∀ (s : State) (f : Func) (n : Fin 16),
    let loc := Loc.spTskLoad n
    (∀ v : Word, s.accepts f (Loc.spTskData n 7) v →
      let w := s.staged (Loc.spTskData n) 8 v
      let i := s.fld (Loc.spTskSel n) 13 0
      let put := s.putWords (Loc.spTskData n) i w
      let refused := fun c => s.reject f (Loc.spTskData n 7 / 4096) (Loc.spTskData n 7 % 4096) c
      (∀ c, s.taskCheck (s.spireOwner n) w = some c → exec (.taskCommit f n v) s = .next (refused c)) ∧
      (s.taskCheck (s.spireOwner n) w = none →
        exec (.taskCommit f n v) s = .next
          (if s.flag loc 30 = true then refused 6
          else if s.taskLocked n i = true then refused 7
          else (if put.flag (Loc.spTskSel n) 16 = true
            then put.setFld (Loc.spTskSel n) 13 0 ((put.fld (Loc.spTskSel n) 13 0 + 1) % 16384) else put).managed))) ∧
    (∀ v : Word, let go := v.put 31 31 1
      s.accepts f loc go →
      let b : BulkLoad := { next := go.bits 13 0, left := go.bits 28 14, addr := s.addrOf (Loc.spTskLoadAddrLo n), f := f }
      s.bulkCheck loc go b.addr b.next b.left 16384 32768 32 = none →
      exec (.tskLoad f n v) s = .next
        (if (List.range b.left).any fun i => s.taskLocked n ((b.next + i) % 16384) then s.reject f (loc / 4096) (loc % 4096) 7
        else (((s.put loc ((go.put 31 31 0).put 30 30 1)).modSpire n fun sp => { sp with tskLoad := some b }).askLoad (.tsk n)).managed)) ∧
    (∀ b : BulkLoad, (s.spire n).tskLoad = some b →
      let rest : BulkLoad := { b with next := (b.next + 1) % 16384, left := b.left - 1, addr := b.addr + 32 }
      let goOn := fun t : State =>
        if b.left ≤ 1 then (t.modSpire n fun sp => { sp with tskLoad := none }).setFlag loc 30 false
        else (t.modSpire n fun sp => { sp with tskLoad := some rest }).askLoad (.tsk n)
      let refused := fun c => s.reject b.f (loc / 4096) (loc % 4096) c
      (b.entry 32 = none → exec (.tskLoadEntryCommit n) s = .next (s.askLoad (.tsk n))) ∧
      (b.entry 32 = some none → exec (.tskLoadEntryCommit n) s = .next (goOn s)) ∧
      (∀ w, b.entry 32 = some (some w) →
        (∀ c, s.taskCheck (s.spireOwner n) w = some c → exec (.tskLoadEntryCommit n) s = .next (goOn (refused c))) ∧
        (s.taskCheck (s.spireOwner n) w = none →
          exec (.tskLoadEntryCommit n) s = .next
            (if s.taskLocked n b.next = true then goOn (refused 7)
            else goOn (s.putWords (Loc.spTskData n) b.next w).managed))))

/-- SLOT_START_TIME: when the count reaches tick + START_NS of a slot of the window that is not eligible yet, before the
next tick, that time passes and the sequencers act on it. What a sequencer does for such a slot: nothing before
START_NS; from then on, in a partition that lets slots run, it looks at the awaits that are enabled and not yet
satisfied; when there is none, the slot becomes eligible, with the PFp_FRAMES of this moment. (After R34.)
DESCRIPTOR_DISPATCH: the first slot of this number in the window that is eligible and has descriptors left, in its
turn. Its next descriptor goes to the tail of the queue that it names, of its cell or of the dispatch unit, when that
has room: one for a cell of a south region through the crossing, which it enters when one of the crossing's 8 places
is free (R334). The slot has then issued one descriptor more and had its turn of this round; at its first one it notes
the cycles of both regions. A full queue changes nothing. (After R37.) SLOT_OVER_BUDGET: for a slot of the window that
has dispatched and whose event is not counted yet, when a region that holds a task of it has counted BUDGET cycles
since the dispatch began, before the next tick: the slot is marked, the page's event 0x05 is counted once for the
owner, and nothing else happens. R43, SLOT_LATE: for a slot of the running programme that has not finished and is not
late yet, in a partition that lets slots run, at its deadline: it is late, and the first late one of its frame; the
page's event 0x06, PFp_LATES and vector 2 of the partition's function tell it, and the sequencers act on it. (After
R39.) Next states are given for SLOT_START_TIME, DESCRIPTOR_DISPATCH, SLOT_OVER_BUDGET, SLOT_LATE. -/
def Obligations.SlotsRun : Prop :=
  (
  ∀ (s : State) (n : Fin 16),
    (∀ (slot : Fin 1024) (e : SlotRun),
      (s.spire n).window.find? (fun e => e.slot == slot.val && !e.elig && !e.fading) = some e →
      let at_ := s.clk.elapsed + s.nsTo (e.t0 + s.slotStart n slot)
      s.reaches at_ → exec (.slotStartTime n slot) s = .next (s.atTime at_).seqSettle) ∧
    (∀ e : SlotRun, e.elig = false → e.fading = false →
      (s.clk.count < e.t0 + s.slotStart n e.slot → s.slotProgress n e = none) ∧
      (e.t0 + s.slotStart n e.slot ≤ s.clk.count → s.mayRun n = true →
        (s.awaitEn n e.slot false = true → e.a0 = true) → (s.awaitEn n e.slot true = true → e.a1 = true) →
        s.slotProgress n e = some (s.modSpire n fun sp => sp.setSlot
          { e with elig := true, frames := (s.get (Loc.ptPfFrames (s.spireOwner n))).toNat })))) ∧
  (
  ∀ (s : State) (n : Fin 16) (slot : Fin 1024) (e : SlotRun), (s.spire n).out = 0 →
    (s.spire n).window.find? (fun e => e.slot == slot.val && (s.nextTask n e).isSome) = some e → s.slotTurn n e = true →
    let i := s.slotBase n e.slot + e.sent
    let q : QTask := { words := s.descriptor n i, slot := e.slot, desc := i, t0 := e.t0, frames := e.frames }
    let sent := fun u : State => ({ e with
      sent := e.sent + 1, turn := true
      cycN := if e.sent = 0 then u.cycles (2 * n) else e.cycN
      cycS := if e.sent = 0 then u.cycles (2 * n + 1) else e.cycS } : SlotRun)
    (q.du = true →
      exec (.descriptorDispatch n slot) s = .next (if 16 ≤ (s.spire n).du.queue.length then s else s.modSpire n fun sp =>
        let x := (sp.turns e).setSlot (sent s)
        { x with du := { x.du with queue := x.du.queue ++ [q] } })) ∧
    (q.du = false → q.cell < 32 →
      exec (.descriptorDispatch n slot) s = .next (if 64 ≤ ((s.spire n).cell q.cell).queue.length then s else s.modSpire n fun sp =>
        ((sp.turns e).setSlot (sent s)).modCell q.cell fun c => { c with queue := c.queue ++ [q] })) ∧
    (q.du = false → 32 ≤ q.cell → 64 ≤ ((s.spire n).cell q.cell).queue.length ∨ s.crossRoom n true = none →
      exec (.descriptorDispatch n slot) s = .next s) ∧
    (q.du = false → 32 ≤ q.cell → ((s.spire n).cell q.cell).queue.length < 64 → ∀ u, s.crossRoom n true = some u →
      let r := u.crossWrite n true
      exec (.descriptorDispatch n slot) s = .next (r.1.modSpire n fun sp =>
        ((sp.turns e).setSlot (sent u)).modCell q.cell fun c => { c with queue := c.queue ++ [{ q with due := r.2 }] }))) ∧
  (
  ∀ (s : State) (n : Fin 16) (slot : Fin 1024),
    (∀ (e : SlotRun) (south : Bool),
      (s.spire n).window.find? (fun e => e.slot == slot.val && decide (0 < e.sent) && !e.overB) = some e →
      s.slotInRegion n slot south = true →
      let at_ := s.cycleAt (2 * n + b2n south) ((if south then e.cycS else e.cycN) + inCycles (s.slotBudget n slot))
      s.reaches at_ →
      let u := s.atTime at_
      exec (.slotOverBudget n slot south) s = .next
        ((u.modSpire n fun sp => sp.setSlot { e with overB := true }).bump (spPage n 0) 5 0 1 (u.spireOwner n))) ∧
    (∀ r, (s.spire n).run = some r → s.slotOpen n r slot = true → r.lates.contains slot.val = false → s.mayRun n = true →
      let at_ := s.clk.elapsed + s.nsTo (s.deadlineAt n slot)
      s.reaches at_ →
      let u := s.atTime at_
      let p := u.spireOwner n
      let w := u.modSpire n fun sp => { sp with
        run := sp.run.map fun r => { r with lates := r.lates ++ [slot.val] }
        rec_ := { sp.rec_ with late := some (sp.rec_.late.getD slot) } }
      let x := ((if w.pfState p = 4 then w.showLate n else w).bump (spPage n 0) 6 0 1 p).modPart p fun x =>
        if x.late then x else { x with late := true, lateSpire := n, lateSlot := slot }
      exec (.slotLate n slot) s = .next ((x.setFld (Loc.ptPfLates p) 31 0 (x.fld (Loc.ptPfLates p) 31 0 + 1)).irq (p + 1) 2).seqSettle))

/-- TICK_CUTOFF, once the device has joined and the cutoff of the coming tick is not taken: every pending value is
latched, behind those that an earlier tick left, and none is pending. What the cutoff decides for a partition in a
running or slipping state that no stop takes: a late event fails the frame under the fail policy or when its slips
would exceed SLIP_MAX, and slips otherwise, with SLIP_RUN one more; an invalid slot fails it (R51). R21, TICK, once
the device has joined: the count comes to the next multiple of the frame period, where the tick is counted and
`State.atTick` answers what is bound to ticks. (After R26, R44 to R46.) Next states are given for TICK_CUTOFF, TICK.
-/
def Obligations.TicksAreCounted : Prop :=
  ∀ (s : State), s.clk.joined = true →
    (s.clk.cutoff = false →
      let u := (s.passTo (s.nextTick - 50)).raiseOverdue
      ∃ t, exec .tickCutoff s = .next t ∧ t.clk = { u.clk with cutoff := true } ∧ t.pend = [] ∧ t.latched = u.latched ++ u.pend ∧
        t.faults.resets = u.faults.resets.map fun r => { r with ready := true }) ∧
    (∀ p : Nat, s.pfState p = 1 ∨ s.pfState p = 2 →
      let x := s.part p
      let slips := s.fld (Loc.ptPfSts p) 11 8
      let fail := x.invalid || (x.late && (s.flag (Loc.ptPfCtl p) 4 || decide (s.fld (Loc.ptPfCtl p) 11 8 < slips + 1)))
      let done := s.modPart p fun y => { y with late := false, invalid := false, slip := x.late && !fail, fail := fail }
      s.partCutoff p false = if x.late = true ∧ fail = false
        then (done.setPfState p 2).setFld (Loc.ptPfSts p) 11 8 (slips + 1) else done.setFld (Loc.ptPfSts p) 11 8 0) ∧
    (∀ o, let d := s.takeDeeps
      let u := if d.clk.cutoff then d else d.takeCutoff
      let v := u.passTo u.nextTick
      let w : State := { v with
        clk := { v.clk with lastTick := u.nextTick, cutoff := false, ticked := true, ticks := v.clk.ticks + 1 } }
      exec (.tick o) s = .next (w.atTick o) ∧ w.clk.lastTick % u.period = 0)

/-- TASK_START and TICKET of a cell. The head of the queue of a working cell, which is through the crossing before the
next tick, whose ticket has come and whose FENCE, if set, finds every unit idle: it starts on the free unit of its
operation, which takes what the cell's receive buffers hold for it; a TICKET retires at once. The head of a failed
cell's queue retires with cause 6. The head of the dispatch unit's queue, whose ticket has come, starts on the idle
unit with the entries of the expert map that it names, as they are at that moment. (After R64, R87, R77, R334.)
TASK_RETIRE: a task whose action is complete, that waits for no completion and whose relayed strips have left the
cell, leaves its unit and retires; the dispatch unit's task retires when it has sent all it collected and nothing of
it is under way. Retiring counts the page's event 0x02 at the cell (64 for the dispatch unit), adds one to the ticket
that it names, and one to the tasks retired of its slot in the window; a task with a cause also marks the slot and is
recorded as a task error. Then the dispatch units and the sequencers act. (After R65, R92.) Next states are given for
TASK_START, TICKET, TASK_RETIRE. -/
def Obligations.TasksStartAndRetire : Prop :=
  (
  ∀ (s : State) (n : Fin 16) (c : Fin 64), (s.spire n).out = 0 →
    (∀ q rest, (s.cell n c).queue = q :: rest →
      ((s.cell n c).failed = true → exec (.taskStart n (some c)) s = .next
        (((s.modCell n c fun x => { x with queue := rest }).retire n c { q := q, done := true, cause := 6 }).settleAll)) ∧
      ((s.cell n c).failed = false → s.ticketOk n q = true →
        (q.fence = true → (s.cell n c).m = none ∧ (s.cell n c).v = none ∧ (s.cell n c).x = none) → s.reaches q.due →
        let u := s.atTime q.due
        (opUnit q.op < 3 → (s.cell n c).unit (opUnit q.op) = none → exec (.taskStart n (some c)) s = .next
          (u.modCell n c fun x => ({ x with queue := rest }.setUnit (opUnit q.op) (some { q := q })).absorb)) ∧
        (q.op = 9 → exec (.ticket n c) s = .next
          (((u.modCell n c fun x => { x with queue := rest }).retire n c { q := q, done := true }).settleAll)))) ∧
    (∀ q rest, (s.spire n).du.cur = none → (s.spire n).du.queue = q :: rest → s.ticketOk n q = true →
      let map := (List.range (bitsOf q.ext1 24 12)).map fun i => (s.get (Loc.spXmapData n) (bitsOf q.ext1 11 0 + i)).toNat
      exec (.taskStart n none) s = .next
        (s.modSpire n fun sp => { sp with du := { queue := rest, cur := some { a := { q := q }, map := map } } }))) ∧
  (
  ∀ (s : State) (n : Fin 16),
    let retires := fun (t : State) (unit : Nat) (a : ATask) =>
      let t := t.bump (spPage n 0) 2 unit 1 (t.spireOwner n)
      let t := if a.q.stEn = true then t.setFld (Loc.spTicket n a.q.st) 15 0 (t.fld (Loc.spTicket n a.q.st) 15 0 + 1) else t
      let t := if a.cause = 0 then t else t.taskError n unit a
      (t.modSpire n fun sp => { sp with window := sp.window.map fun e =>
        if e.slot = a.q.slot ∧ e.t0 = a.q.t0 then { e with retired := e.retired + 1, err := e.err || a.cause != 0 } else e }).settleAll
    (∀ (c : Fin 64) (u : UnitClass) (a : ATask), (s.cell n c).unit (unitNat u) = some a → a.done = true → a.wait = 0 →
      (a.q.aOut = true → (s.cell n c).outE = []) → (a.q.bOut = true → (s.cell n c).outS = []) →
      exec (.taskRetire n (.cell c u)) s = .next (retires (s.modCell n c fun x => x.setUnit (unitNat u) none) c a)) ∧
    (∀ t, (s.spire n).du.cur = some t → t.walked = true → t.items = [] → (s.spire n).duOut = 0 →
      exec (.taskRetire n .du) s = .next (retires (s.modSpire n fun sp => { sp with du := { sp.du with cur := none } }) 64 t.a)))

/-- MMA, for a started task. At an edge of the array that it would relay over it ends with cause 5, and with a destination
outside its memory, when it finishes, with cause 1. Otherwise it reads its A strip, then its B strip: a strip that
does not come yet leaves it as it is, one that cannot be read ends it with its cause. With both strips the
accumulators, cleared first unless it goes on, take every step (`mmaSteps`), an overflow and a mismatch of formats are
counted, the array's cycles are counted, and the strips go on to the neighbours that it relays to. With FINISH the
results, rounded, are written at DST. Each way that ends it marks the task done. (After R55, R67, R105 to R112.)
RELAY, for a started task. At an edge of the array that it would relay over it ends with cause 5, and with a
destination outside its memory with cause 1. It takes the strip from the north with B_IN alone, else from the west
with A_IN, else from SRC_A; with both it takes the strip from the north too. A strip that does not come yet leaves the
task as it is, one that cannot be read ends it with its cause. Then what it took goes on to the neighbours that it
relays to, is written at DST unless DST is relay output alone, and the task is done. (After R67, Table SP-5.) VOP, for
a started task of one, two or three operands. With a destination outside its memory it ends with cause 1. It reads
SRC_A, then SRC_B for a function of two or more operands, then DST for one of three: one that cannot be read ends it
with its cause. Then the codes of its function over COUNT elements (one code of a reduction), packed, with the bits
beyond them free, are written at DST, what their rounding met is counted, and the task is done. R61, R440, MOVE, for a
started task: with a place outside its memory it ends with cause 1; otherwise its lines are copied in order, an
uncorrectable line is left out, and it is done, with cause 2 when there was one. (After R118 to R120.) Next states are
given for MMA, RELAY, VOP, MOVE. -/
def Obligations.ComputeTasksComplete : Prop :=
  (
  ∀ (s : State) (n : Fin 16) (c : Fin 64) (a : ATask), s.running n c 1 = some a →
    let q := a.q
    let ends := fun (t : State) (cause : Nat) => t.modCell n c fun x => x.setUnit (opUnit 1) ((x.unit (opUnit 1)).map fun a => a.fail cause 0)
    let misfit := 2 ≤ q.acc ∧ (spotOf q.cell q.dst).fits 0 (elemBytes q.fmtD 1024) = false
    (noNeighbour c q = true → exec (.mma n c) s = .next (ends s 5)) ∧
    (noNeighbour c q = false → misfit → exec (.mma n c) s = .next (ends s 1)) ∧
    (noNeighbour c q = false → ¬ misfit →
      let ra := s.relayOperand n c q true (stripBytes q.fmtA q.count q.mx)
      let rb := ra.1.relayOperand n c q false (stripBytes q.fmtB q.count q.mx)
      (ra.2 = .wait → exec (.mma n c) s = .next s) ∧
      (∀ k, ra.2 = .bad k → exec (.mma n c) s = .next (ends ra.1 k)) ∧
      (∀ sa, ra.2 = .ok sa →
        (rb.2 = .wait → exec (.mma n c) s = .next s) ∧
        (∀ k, rb.2 = .bad k → exec (.mma n c) s = .next (ends rb.1 k)) ∧
        (∀ sb, rb.2 = .ok sb →
          let arr := (rb.1.cell n c).arr
          let clear := q.acc % 2 == 0
          let mism := !clear && (arr.mode == 0 || arr.fmtA != q.fmtA || arr.fmtB != q.fmtB || arr.mx != q.mx)
          let l := mmaSteps arr q clear mism (leNat sa) (leNat sb)
          let arr := mmaArr arr q clear mism l
          let t := (rb.1.modCell n c fun x => { x with arr := arr }).arithEv n c { ovf := (l.map fun x => x.2.2).sum, mism := b2n mism }
          let t := (t.bump (spPage n 0) 3 c (mmaCycles q.fmtA q.fmtB q.count) (t.spireOwner n)).forward n c q sa sb
          let r := t.mmaFinish n q arr.mode l
          exec (.mma n c) s = .next (ends (if q.acc < 2 then t else
            (t.arithEv n c r.2).spotWrite n (spotOf q.cell q.dst) (taskWriter q) 0 (packBytes q.fmtD r.1)) 0))))) ∧
  (
  ∀ (s : State) (n : Fin 16) (c : Fin 64) (a : ATask), s.running n c 8 = some a →
    let q := a.q
    let len := 256 * q.count
    let ends := fun (t : State) (cause : Nat) => t.modCell n c fun x => x.setUnit (opUnit 8) ((x.unit (opUnit 8)).map fun a => a.fail cause 0)
    let misfit := aspace q.dst ≠ 3 ∧ (spotOf q.cell q.dst).fits 0 len = false
    (noNeighbour c q = true → exec (.relay n c) s = .next (ends s 5)) ∧
    (noNeighbour c q = false → misfit → exec (.relay n c) s = .next (ends s 1)) ∧
    (noNeighbour c q = false → ¬ misfit →
      let ra := s.relayOperand n c q (!(q.bIn && !q.aIn)) len
      let rb := fun x : List Byte => if (q.aIn && q.bIn) = true then ra.1.relayOperand n c q false len else (ra.1, .ok x)
      (ra.2 = .wait → exec (.relay n c) s = .next s) ∧
      (∀ k, ra.2 = .bad k → exec (.relay n c) s = .next (ends ra.1 k)) ∧
      (∀ x, ra.2 = .ok x →
        ((rb x).2 = .wait → exec (.relay n c) s = .next s) ∧
        (∀ k, (rb x).2 = .bad k → exec (.relay n c) s = .next (ends (rb x).1 k)) ∧
        (∀ y, (rb x).2 = .ok y →
          let t := (rb x).1.forward n c q x y
          exec (.relay n c) s = .next
            (ends (if aspace q.dst = 3 then t else t.spotWrite n (spotOf q.cell q.dst) (taskWriter q) 0 x) 0))))) ∧
  (
  ∀ (s : State) (n : Fin 16) (c : Fin 64) (a : ATask),
    let q := a.q
    let ends := fun (u : Nat) (t : State) (cause : Nat) => t.modCell n c fun x => x.setUnit u ((x.unit u).map fun a => a.fail cause 0)
    (s.running n c 2 = some a →
      let fn := q.ext0 % 256
      let outN := if fn ≥ 0xC then 1 else q.count
      let dst := spotOf q.cell q.dst
      let ra := s.operand n (spotOf q.cell q.srcA) 0 (elemBytes q.fmtA q.count)
      let rb := if fn ≤ 5 then ra.1.operand n (spotOf q.cell q.srcB) 0 (elemBytes q.fmtB q.count) else (ra.1, .ok [])
      let rd := if fn = 3 then rb.1.operand n dst 0 (elemBytes q.fmtD q.count) else (rb.1, .ok [])
      (dst.fits 0 (elemBytes q.fmtD outN) = false → exec (.vop n c) s = .next (ends 1 s 1)) ∧
      (dst.fits 0 (elemBytes q.fmtD outN) = true →
        (∀ k, ra.2 = .bad k → exec (.vop n c) s = .next (ends 1 ra.1 k)) ∧
        (∀ xa, ra.2 = .ok xa →
          (∀ k, rb.2 = .bad k → exec (.vop n c) s = .next (ends 1 rb.1 k)) ∧
          (∀ xb, rb.2 = .ok xb →
            (∀ k, rd.2 = .bad k → exec (.vop n c) s = .next (ends 1 rd.1 k)) ∧
            (∀ xd, rd.2 = .ok xd →
              let r := rd.1.vopCodes n q xa xb xd
              let w := (rd.1.arithEv n c r.2).padRun (fmtBits q.fmtD * outN) (packBytes q.fmtD r.1)
              exec (.vop n c) s = .next (ends 1 (w.1.spotWrite n dst (taskWriter q) 0 w.2) 0)))))) ∧
    (s.running n c 3 = some a →
      let src := spotOf q.cell q.srcA
      let dst := spotOf q.cell q.dst
      let fit := src.fits 0 (256 * q.count) && dst.fits 0 (256 * q.count)
      let r := (List.range q.count).foldl (fun (r : State × Bool) i =>
        let x := r.1.spotRead n src (256 * i) 256
        match x.2 with
        | some b => (x.1.spotWrite n dst (taskWriter q) (256 * i) b, r.2)
        | none => (x.1, true)) (s, false)
      (fit = false → exec (.move n c) s = .next (ends 2 s 1)) ∧
      (fit = true → exec (.move n c) s = .next (ends 2 r.1 (if r.2 = true then 2 else 0)))))

/-- LOAD and STORE, for a started task. With a place outside its memory it ends with cause 1. Otherwise it waits for its
lines and issues those for which the spire's station has identifiers, in the order of their addresses: a line that
cannot leave is answered at once with its status, a line of a STORE whose source is uncorrectable is left out. (After
R61, R161, R440.) SEND, for a started task: one whose source cannot be read ends with its cause. Otherwise it becomes
a message of COUNT parts of one line, to a spire of this device or of the device that it names, which enters the
network while the oculus that takes it has a free transaction (`State.sendMsg`, `none` where it has none: then the
task goes on waiting), and the task waits for its completion. R84, ZCLR: FILL of the zone that it names is 0 and the
task is done. (After R85.) FOP, for a started task: it reads its record at SRC_B; a record that cannot be read ends it
with its cause, one that fails its check with cause 4, one whose loaded data would not fit at DST with cause 1. It
then reads its data at SRC_A, where its operation has some, and issues the operation of the record. What leaves waits
for its completion. What ends at once writes its status and its done bit into the record, after the loaded data, when
it succeeded, at DST; a successful one with LCS also increments the count that it names. What cannot leave yet leaves
the task waiting. (After R303.) Next states are given for LOAD, STORE, SEND, ZCLR, FOP. -/
def Obligations.TransferTasksComplete : Prop :=
  (
  ∀ (s : State) (n : Fin 16) (c : Fin 64) (a : ATask),
    let q := a.q
    let misfit := s.modCell n c fun x => x.setUnit 2 ((x.unit 2).map fun a => a.fail 1 0)
    let t := s.modCell n c fun x => x.setX fun a => ({ a with wait := lineTok + 1 } : ATask).linesOver
    let issued := match t.lineTask n c with
      | none => t
      | some a => (List.range (a.q.count - a.next)).foldl (fun s i =>
          if s.tidRoom (spStation n) then s.issueLine n c (a.next + i) a.q else s) t
    (s.running n c 4 = some a → exec (.load n c) s = .next
      (if (spotOf q.cell q.dst).fits 0 (256 * q.count) = true then issued else misfit)) ∧
    (s.running n c 5 = some a → exec (.store n c) s = .next
      (if (spotOf q.cell q.srcA).fits 0 (256 * q.count) = true then issued else misfit))) ∧
  (
  ∀ (s : State) (n : Fin 16) (c : Fin 64) (a : ATask),
    let q := a.q
    (s.running n c 6 = some a →
      let r := s.operand n (spotOf q.cell q.srcA) 0 (256 * q.count)
      (∀ k, r.2 = .bad k → exec (.send n c) s = .next
        (r.1.modCell n c fun x => x.setUnit 2 ((x.unit 2).map fun a => a.fail k 0))) ∧
      (∀ b : List Byte, r.2 = .ok b →
        let p : MsgPart :=
          { srcDev := BitVec.ofNat 16 r.1.ownDev, srcSpire := n, inside := true, partsM1 := q.count - 1,
            zone := BitVec.ofNat 8 (bitsOf q.ext0 28 21), index := BitVec.ofNat 20 (bitsOf q.ext1 31 12),
            jobTag := BitVec.ofNat 12 q.ext1 }
        let m : OutMsg :=
          { cell := c, kind := 0, dev := if bitOf q.ext0 20 then none else some (bitsOf q.ext0 15 0),
            dst := bitsOf q.ext0 19 16, n := q.count,
            parts := (lines256 q.count b).zipIdx.map fun l => { p with part := l.2, data := l.1 } }
        let sent := r.1.sendMsg n m fun s id => s.modCell n c fun x => x.setX fun a => { a with wait := msgTok id + 1 }
        (∀ t, sent = some t → exec (.send n c) s = .next t) ∧ (sent = none → exec (.send n c) s = .next s) ∧
        (bitOf q.ext0 20 = true → ∃ t, sent = some t))) ∧
    (s.running n c 10 = some a →
      let zi := q.ext0 % 256
      exec (.zclr n c) s = .next ((s.setFill n zi (zoneOf (s.zoneWords n zi)) 0).modCell n c fun x =>
        x.setUnit 2 ((x.unit 2).map fun a => a.fail 0 0)))) ∧
  (
  ∀ (s : State) (n : Fin 16) (c : Fin 64) (a : ATask), s.running n c 7 = some a →
    let q := a.q
    let ends := fun (t : State) (cause : Nat) => t.modCell n c fun x => x.setUnit 2 ((x.unit 2).map fun a => a.fail cause 0)
    let r := s.operand n (spotOf q.cell q.srcB) 0 32
    (∀ k, r.2 = .bad k → exec (.fop n c) s = .next (ends r.1 k)) ∧
    (∀ b : List Byte, r.2 = .ok b →
      let k := fopPkt r.1 n b
      let misfit := (fopRoom k).2 ≠ 0 ∧ (spotOf q.cell q.dst).fits (fopRoom k).1 (fopRoom k).2 = false
      let d := if (fopNeed k).2 = 0 then (r.1, .ok []) else r.1.operand n (spotOf q.cell q.srcA) (fopNeed k).1 (fopNeed k).2
      (r.1.fopCheck (s.spireOwner n) b = false → exec (.fop n c) s = .next (ends r.1 4)) ∧
      (r.1.fopCheck (s.spireOwner n) b = true → misfit → exec (.fop n c) s = .next (ends r.1 1)) ∧
      (r.1.fopCheck (s.spireOwner n) b = true → ¬ misfit →
        (∀ k, d.2 = .bad k → exec (.fop n c) s = .next (ends d.1 k)) ∧
        (∀ data : List Byte, d.2 = .ok data →
          let x := fopFlits k data
          let cnt := if x.op = 9 then d.1.nextLine n (65536 + x.dstDev.toNat) else (x.addr.toNat / 256, d.1)
          let ans := cnt.2.issue cnt.1 x (.fop n c) (bitOf (b.getD 1 0).toNat 3)
          (ans = .wait → exec (.fop n c) s = .next s) ∧
          (∀ t seq, ans = .sent t seq → exec (.fop n c) s = .next t.settleAll) ∧
          (∀ t st out, ans = .done t st out →
            let w := t.modCell n c fun y => y.setX fun a => { a with wait := txnTok 65536 + 1 }
            exec (.fop n c) s = .next (((if st = 0 then w.fopLoad n c x out else w).fopDone n c 65536 st
              (if st = 0 ∧ x.op = 4 then out.take 8 else [])).settleAll))))))

/-- DISPATCH: a task of the dispatch unit that has not walked its table yet. With an invalid zone it ends with cause 7,
with a table that is no well place with cause 1; otherwise it walks the COUNT entries of its table once, and holds
what there is to send. R90, RETURN: with a zone that is invalid or not appending, a result zone that is invalid, or a
FILL above the result zone's capacity, it ends with cause 7; otherwise it reads the tag of every entry up to FILL,
logs one that is uncorrectable (0x2A) or incomplete (0x29), and holds the others to send. Then the dispatch units send
what they can and the sequencers act. R91, DISPATCH_ROW_REFUSED: for a row all of whose parts are answered, with a
status other than success: DROP of its choice is set in its entry, the drop is counted and told to the owner zone,
DU_REFUSED counts it, it is logged, its tally is to be sent, and the message is over. (After R86, R87.) The next entry
of the western or northern neighbour's strip comes to the cell while its receive buffer has a place, and the cell's
task takes what is for it. R69, R70, STEAL: a cell that may steal now, with a first candidate whose tail task may be
stolen. When a rival of a lower number wants a task of the same queue, nothing happens. Otherwise the task leaves the
tail of that queue and is on its way, pinned at the thief, for 6 cycles, or across rows 3 and 4 for 10, through the
crossing when that has room (R334); the rivals of higher numbers have lost; event 0x04 is counted at the thief.
STOLEN_TASK_ARRIVAL: when its cycles have passed and the thief's queue has a place, the task joins it, or retires with
cause 6 at a failed thief. R77, CELL_FAIL, of a spire in service: the cell fails (`State.failCell`), and the
sequencers act. (After R67.) Next states are given for DISPATCH, RETURN, DISPATCH_ROW_REFUSED, RELAY_STRIP_ARRIVAL,
STEAL, STOLEN_TASK_ARRIVAL, CELL_FAIL. -/
def Obligations.DispatchAndStealing : Prop :=
  (
  ∀ (s : State) (n : Fin 16) (t : DuTask),
    ((s.spire n).du.cur = some t → (s.spire n).out = 0 → t.walked = false →
      (t.a.q.op = 0x10 →
        let src := s.zoneWords n (bitsOf t.a.q.ext0 7 0)
        let valid := (zoneOf src).valid && (zoneOf (s.zoneWords n (bitsOf t.a.q.ext0 15 8))).valid
        (valid = false → exec (.dispatch n) s = .next (s.duStop n 7).settleAll) ∧
        (valid = true → ∀ cell base, spotOf t.a.q.cell t.a.q.srcA = .well cell base →
          exec (.dispatch n) s = .next (if (Spot.well cell base).fits 0 (32 * t.a.q.count) = true then
            let u := { t with src := src, walked := true }
            let w := s.duEntries n u cell base
            (w.s.duWalked n w.quota (w.items ++ duTallies u w.sent)).settleAll else (s.duStop n 1).settleAll)) ∧
        (valid = true → (∀ cell base, spotOf t.a.q.cell t.a.q.srcA ≠ .well cell base) →
          exec (.dispatch n) s = .next (s.duStop n 1).settleAll)) ∧
      (t.a.q.op = 0x11 →
        let zi := bitsOf t.a.q.ext0 7 0
        let z := zoneOf (s.zoneWords n zi)
        let res := s.zoneWords n (bitsOf t.a.q.ext0 15 8)
        let bad := !z.valid || !z.append || !(zoneOf res).valid || decide ((zoneOf res).cap < s.fill n zi)
        let r := (List.range (s.fill n zi)).foldl (fun (r : State × List DuItem) i =>
          let x := r.1.wellRead n z.tagCell (z.tagRow * 256 + 8 * (i + 1)) 8
          match x.2 with
          | none => (x.1.duPost n 1 0x2A (x.1.ownDev + 0x20 * 2 ^ 24), r.2)
          | some b =>
            if bitOf (leNat b) 63 then (x.1.duPost n 1 0x29 i, r.2)
            else (x.1, r.2 ++ [{ kind := 2, entry := i, word := leNat b }]))
          (s.modSpire n fun sp => { sp with du := { sp.du with cur := some { t with src := res, walked := true } } }, ([] : List DuItem))
        exec (.returnRows n) s = .next (if bad = true then (s.duStop n 7).settleAll else
          (r.1.modSpire n fun sp =>
            { sp with du := { sp.du with cur := sp.du.cur.map fun t => { t with items := r.2 } } }).settleAll))) ∧
    (∀ (msg : Nat) (m : OutMsg) (status : BitVec 8), (s.spire n).msg msg = some m →
      m.kind = 1 → m.n ≤ m.got.length → msgStatus m.got = status.toNat → status.toNat ≠ 0 →
      let r := s.wellRead n (m.txt / 2 ^ 24) (m.txt % 2 ^ 24) 1
      let w := match r.2 with
        | some b => r.1.wellWrite n (m.txt / 2 ^ 24) duWriter (m.txt % 2 ^ 24) [(b.getD 0 0) ||| BitVec.ofNat 8 (2 ^ m.choice)]
        | none => r.1
      let u := w.duDrop n m.retZone
      let u := (u.setFld (Loc.spDuRefused n) 31 0 (u.fld (Loc.spDuRefused n) 31 0 + 1)).rowRefusedLog n m status.toNat
      let it : DuItem := { kind := 3, word := m.count, count := 1 }
      exec (.dispatchRowRefused n msg status) s = .next
        (u.modSpire n fun sp => { sp.dropMsg msg with du := { sp.du with cur := sp.du.cur.map fun t => { t with items := t.items ++ [it] } } }).settleAll)) ∧
  (
  ∀ (s : State) (n : Fin 16) (c : Fin 64),
    (∀ e l, c.val % 8 ≠ 0 → (s.cell n (c.val - 1)).outE = e :: l → (s.cell n c).inW.length < 4 →
      exec (.relayStripArrival n c .eastward) s = .next
        ((s.modCell n (c.val - 1) fun x => { x with outE := l }).modCell n c fun x => { x with inW := x.inW ++ [e] }.absorb)) ∧
    (∀ e l, 8 ≤ c.val → (s.cell n (c.val - 8)).outS = e :: l → (s.cell n c).inN.length < 4 →
      exec (.relayStripArrival n c .southward) s = .next
        ((s.modCell n (c.val - 8) fun x => { x with outS := l }).modCell n c fun x => { x with inN := x.inN ++ [e] }.absorb)) ∧
    (∀ v q, s.mayStealNow n c = true → s.stealFrom n c = some (v, q) →
      let rivals := s.stealRivals n v
      let across := decide (v < 32) != decide (c.val < 32)
      let south := decide (32 ≤ c.val)
      (rivals.any (· < c.val) = true → exec (.steal n c) s = .next s) ∧
      (rivals.any (· < c.val) = false → ∀ u, (if across = true then s.crossRoom n south else some s) = some u →
        let w := if across = true then (u.crossWrite n south).1 else u
        let f : Stolen :=
          { thief := c.val, q := { q with stolen := true }, src := v, cycle := w.cellCycle n c, losers := rivals.filter (c.val < ·)
            due := w.cycles (2 * n.val + c.val / 32) + inCycles (if across = true then 10 else 6) }
        let x := (w.modCell n v fun x => { x with queue := x.queue.dropLast }).modSpire n fun sp => { sp with flight := sp.flight ++ [f] }
        exec (.steal n c) s = .next (x.bump (spPage n 0) 4 c 1 (x.spireOwner n)))) ∧
    (∀ f, ((s.spire n).flight.find? fun f => f.thief == c.val) = some f → (s.cell n c).queue.length < 64 →
      let at_ := s.cycleAt (2 * n.val + c.val / 32) f.due
      s.reaches at_ →
      let u := (s.atTime at_).modSpire n fun sp => { sp with flight := sp.flight.erase f }
      exec (.stolenTaskArrival n c) s = .next (if (u.cell n c).failed = true then
        (u.retire n c { q := f.q, done := true, cause := 6 }).settleAll else u.modCell n c fun x => { x with queue := x.queue ++ [f.q] })) ∧
    ((s.spire n).out = 0 → exec (.cellFail n c) s = .next ((s.failCell n c).settleAll)))

/-- ZONE_COMMIT: a write of ZONE_DATA3 that reaches its register: four staged words that pass the commit check wait for
the tick as the zone that ZONE_SEL names, whole, for the page's partition; words that fail it are rejected with its
code. R87, XMAP_WRITE: an entry with no reserved bit set waits for the tick at XMAP_SEL.INDEX, which increases with
AUTOINC (4,095 is followed by 0, the model's choice, log entry 228); one with a reserved bit is rejected with 0x01.
Each accepted write joins the state log. (After R80, R81.) XMAP_LOAD and XMAP_LOAD_ENTRY. A write of XMAP_LOAD with GO
= 1 that passes the checks of its page, form and range: BUSY becomes 1 and the load stands in the spire, its first
line asked for at once. While the line of the next entry has not come, the load asks for it; an entry that came
without a reserved bit is kept with those before it, one with a reserved bit is rejected with 0x01, and one that could
not be read changes nothing. The load then goes on with the next; after the last BUSY is 0 and every entry kept waits
for the tick. (After R31, R87.) Next states are given for ZONE_COMMIT, XMAP_WRITE, XMAP_LOAD, XMAP_LOAD_ENTRY. -/
def Obligations.ZonesAndMapsPend : Prop :=
  (
  ∀ (s : State) (f : Func) (n : Fin 16) (v : Word),
    (s.accepts f (Loc.spZoneData n 3) v →
      let w := s.staged (Loc.spZoneData n) 4 v
      let zone := s.fld (Loc.spZoneSel n) 7 0
      (∀ c, s.zoneCheck (s.spireOwner n) w = some c →
        exec (.zoneCommit f n v) s = .next (s.reject f (Loc.spZoneData n 3 / 4096) (Loc.spZoneData n 3 % 4096) c)) ∧
      (s.zoneCheck (s.spireOwner n) w = none →
        exec (.zoneCommit f n v) s = .next (w.zipIdx.foldl (fun (s : State) e =>
          s.pendWord (Loc.spZoneData n e.2) (BitVec.ofNat 32 e.1) zone (s.pendPart (spPage n 5))) s).managed)) ∧
    (s.accepts f (Loc.spXmapData n) v →
      let t := s.pendWord (Loc.spXmapData n) v (s.fld (Loc.spXmapSel n) 11 0) (s.pendPart (spPage n 4))
      exec (.xmapWrite f n v) s = .next
        (if bitsOf v.toNat 30 29 ≠ 0 then s.reject f (Loc.spXmapData n / 4096) (Loc.spXmapData n % 4096) 1
        else (if t.flag (Loc.spXmapSel n) 16 = true
          then t.setFld (Loc.spXmapSel n) 11 0 ((t.fld (Loc.spXmapSel n) 11 0 + 1) % 4096) else t).managed))) ∧
  (
  ∀ (s : State) (f : Func) (n : Fin 16),
    let loc := Loc.spXmapLoad n
    (∀ v : Word, let go := v.put 31 31 1
      s.accepts f loc go →
      let b : BulkLoad := { next := go.bits 11 0, left := go.bits 24 12, addr := s.addrOf (Loc.spXmapLoadAddrLo n), f := f }
      s.bulkCheck loc go b.addr b.next b.left 4096 4096 4 = none →
      exec (.xmapLoad f n v) s = .next
        (((s.put loc ((go.put 31 31 0).put 30 30 1)).modSpire n fun sp => { sp with xmapLoad := some b }).askLoad (.xmap n)).managed) ∧
    (∀ b : BulkLoad, (s.spire n).xmapLoad = some b →
      let goOn := fun (t : State) (got : List (Nat × List Nat)) =>
        let rest : BulkLoad := { b with next := (b.next + 1) % 4096, left := b.left - 1, addr := b.addr + 4, got := got }
        if b.left ≤ 1 then
          got.foldl (fun (s : State) e =>
            s.pendWord (Loc.spXmapData n) (BitVec.ofNat 32 (e.2.getD 0 0)) e.1 (s.pendPart (spPage n 4)))
            ((t.modSpire n fun sp => { sp with xmapLoad := none }).setFlag loc 30 false)
        else (t.modSpire n fun sp => { sp with xmapLoad := some rest }).askLoad (.xmap n)
      (b.entry 4 = none → exec (.xmapLoadEntry n) s = .next (s.askLoad (.xmap n))) ∧
      (b.entry 4 = some none → exec (.xmapLoadEntry n) s = .next (goOn s b.got)) ∧
      (∀ w, b.entry 4 = some (some w) →
        exec (.xmapLoadEntry n) s = .next (if bitsOf (w.getD 0 0) 30 29 ≠ 0 then goOn (s.reject b.f (loc / 4096) (loc % 4096) 1) b.got
          else goOn s (b.got ++ [(b.next, w)])))))

/-- At a spire that can take no message the part has the status of that. A part of a message of more than 255 parts is
refused with 4, one whose number is not below its PARTS with 3; each is counted. A part whose message has a record
joins it. The first part of another message has RETRY (6) with 1,024 records open. Otherwise it opens a record with
the zone as it is configured: refused for every part, counted, with the reason of `zoneAdmit`; or accepted, with its
entry, an append message taking the entry FILL and adding one to FILL; and joins it. What joining a record does: a
closed one refuses with 3; a refused one answers with its reason and goes when all its parts are answered; in an open
one the part's line is written at its place, and after the last the tag word of an append entry is written, the zone's
slot gets one increment with CS_EN, the record goes; the status is 0. A part of the spire's own then has its status at
once, and the dispatch units and sequencers act. (After R82, R85.) TALLY_LANDING: a tally of the fabric, or of the
spire's own when a message of it waits. At a spire that can take none its status is that; for an invalid zone it is
refused with 1, for another job tag with 2, and counted; otherwise it adds its count to the zone's counting slot with
CS_EN and nothing without, takes no entry, and its status is 0. The spire's own message completes with the status, and
the dispatch units and sequencers act. (After R82, R88.) 10 ms after its first part an open record that was refused
goes, and one that was accepted is closed, the tag word of an append entry written with INCOMPLETE = 1; its slot is
not incremented. 2 × CTO_FAB after its first part a closed record goes. A part that was answered RETRY leaves again
after its interval, inside the device or through the oculus that sent it. Each before the next tick. (After R85.) Next
states are given for MESSAGE_PART_ARRIVAL, TALLY_LANDING, MESSAGE_RECORD_TIMEOUT, CLOSED_RECORD_EXPIRY,
MESSAGE_PART_RESEND. -/
def Obligations.LandingTakesParts : Prop :=
  (
  ∀ (s : State) (n : Fin 16) (m : MsgPart),
    let answered := fun (x : State × Nat) => ((x.1.answerPart n m x.2).settleAll)
    let k := m.partsM1 + 1
    (s.spireStatus n ≠ 0 → exec (.messagePartArrival n m) s = .next (answered (s, s.spireStatus n))) ∧
    (s.spireStatus n = 0 →
      (255 < k → exec (.messagePartArrival n m) s = .next (answered (s.landRefused n, 4))) ∧
      (k ≤ 255 → k ≤ m.part → exec (.messagePartArrival n m) s = .next (answered (s.landRefused n, 3))) ∧
      (k ≤ 255 → m.part < k →
        (∀ r, ((s.spire n).landings.find? fun r => r.key == partKey m) = some r →
          exec (.messagePartArrival n m) s = .next (answered (s.landJoin n r m 0))) ∧
        (((s.spire n).landings.find? fun r => r.key == partKey m) = none →
          let zi := m.zone.toNat
          let w := s.zoneWords n zi
          let fill := s.fill n zi
          let open_ := fun (t : State) (r : Landing) =>
            (t.modSpire n fun sp => { sp with landings := sp.landings ++ [r] }).landJoin n r m 0
          (1024 ≤ (s.spire n).landings.length → exec (.messagePartArrival n m) s = .next (answered (s, 6))) ∧
          ((s.spire n).landings.length < 1024 →
            (∀ c, zoneAdmit (zoneOf w) fill k m = .error c → exec (.messagePartArrival n m) s = .next
              (answered (open_ (s.landRefused n)
                { key := partKey m, n := k, zone := zi, cfg := w, opened := s.clk.elapsed, refused := c }))) ∧
            (∀ e, zoneAdmit (zoneOf w) fill k m = .ok e →
              let app := m.index.toNat == 0xFFFFF
              exec (.messagePartArrival n m) s = .next
                (answered (open_ (if app = true then s.setFill n zi (zoneOf w) (fill + 1) else s)
                  { key := partKey m, n := k, zone := zi, cfg := w, opened := s.clk.elapsed, entry := e, tag := tagWord m
                    tagged := app }))))))) ∧
    (∀ (r : Landing) (e : Nat),
      let z := zoneOf r.cfg
      let at_ := z.place r.entry m.part
      let t := s.wellWrite n at_.1 landWriter (at_.2 * 256) (m.data.take 256)
      let got := if r.got.contains m.part then r.got else r.got ++ [m.part]
      (r.closed = true → s.landJoin n r m e = (s, 3)) ∧
      (r.closed = false → r.refused ≠ 0 → s.landJoin n r m e = (s.modSpire n fun sp =>
        if r.n ≤ r.answered + 1 then sp.dropLanding r.key else sp.setLanding { r with answered := r.answered + 1 }, r.refused)) ∧
      (r.closed = false → r.refused = 0 → r.n ≤ m.part → s.landJoin n r m e = (s, 3)) ∧
      (r.closed = false → r.refused = 0 → m.part < r.n →
        (got.length < r.n → s.landJoin n r m e = (t.modSpire n fun sp => sp.setLanding { r with got := got }, 0)) ∧
        (r.n ≤ got.length →
          let t := if r.tagged = true then t.tagWrite n z (r.entry + 1) r.tag else t
          let t := if z.csEn = true then t.incr z.tag z.cslot 1 (landIssuer m e) else t
          s.landJoin n r m e = (t.modSpire n fun sp => sp.dropLanding r.key, 0))))) ∧
  (
  ∀ (s : State) (n : Fin 16) (zone : BitVec 8) (tag : BitVec 12) (count : BitVec 16),
    let z := zoneOf (s.zoneWords n zone.toNat)
    let own := s.findTally n zone.toNat tag.toNat count.toNat
    let by_ : Issuer := if own.isSome = true then .spire n else .fabric 0
    let answered := fun (t : State) (st : Nat) => Option.elim own t.settleAll fun m => (t.msgAnswer n m.id 0 st).settleAll
    exec (.tallyLanding n zone tag count) s = .next
      (if s.spireStatus n ≠ 0 then answered s (s.spireStatus n)
      else if z.valid = false then answered (s.landRefused n) 1
      else if tag.toNat ≠ z.tag then answered (s.landRefused n) 2
      else answered (if z.csEn = true then s.incr z.tag z.cslot count.toNat by_ else s) 0)) ∧
  (
  ∀ (s : State) (n : Fin 16),
    (∀ (k : MsgKey) (r : Landing), ((s.spire n).landings.find? fun r => r.key == k) = some r →
      (r.closed = false → s.reaches (r.opened + 10000000) →
        let u := s.atTime (r.opened + 10000000)
        (r.refused ≠ 0 → exec (.messageRecordTimeout n k) s = .next (u.modSpire n fun sp => sp.dropLanding k)) ∧
        (r.refused = 0 → exec (.messageRecordTimeout n k) s = .next
          ((if r.tagged then u.tagWrite n (zoneOf r.cfg) (r.entry + 1) (r.tag + 2 ^ 63) else u).modSpire n fun sp =>
            sp.setLanding { r with closed := true }))) ∧
      (r.closed = true → s.reaches (r.opened + 2 * s.ctoFab) →
        exec (.closedRecordExpiry n k) s = .next
          ((s.atTime (r.opened + 2 * s.ctoFab)).modSpire n fun sp => sp.dropLanding k))) ∧
    (∀ (msg part : Nat) (m : OutMsg) (g : Nat × Nat), (s.spire n).msg msg = some m →
      (m.again.find? fun g => g.1 == part) = some g →
      let after := match m.dev with
        | none => 2000
        | some _ => s.fld (Loc.ocMcCtl (m.seq / 32768 % 2)) 15 8 * 100
      s.reaches (g.2 + after) →
      let u := (s.atTime (g.2 + after)).modSpire n fun sp => sp.setMsg { m with again := m.again.filter fun g => g.1 != part }
      (m.dev = none → exec (.messagePartResend n msg part) s = .next ((u.sendInside n m.id m.dst part).settleAll)) ∧
      (∀ dev p, m.dev = some dev → (m.parts.find? fun p => p.part == part) = some p →
        exec (.messagePartResend n msg part) s = .next
          ((u.sendPart n m.id m.seq dev m.dst (m.kind == 3) m.count p).settleAll))))

/-- MERGE_AGE_EVICT, SRAM_DRAIN and what an eviction does. An entry that has gone 256 cycles of its region without a
merge, the next tick not being before that, is evicted; a cell without that entry is left as it is. A write of
SRAM_CTL that reaches its register evicts every entry of every cell of the spire, or is rejected with the code of its
form. An eviction takes the entry out of its buffer and counts event 0x04. With a full mask the code word takes its
bytes without a read; with a partial mask the code word is read and takes the entry's bytes over those read, and when
it cannot be read nothing is stored, a data error names the cell, the row, the code word and the mask, and event 0x05
is counted. (After R135, R137.) SRAM_REMAP and SRAM_REMAP_COPY_DONE. A write of REMAP with GO = 1 that reaches its
register: a form that is wrong is rejected with its code, a write while BUSY is 1 with 0x06; otherwise CELL and ROW
are kept, and the row enters the mirror state with BUSY 1 when its bank has a free spare row, or NO_SPARE is set. When
the copier has read the row of the mirror state: with each code word read its words are kept for the switch at the
tick; with an uncorrectable one the remap ends, BUSY clears, ABANDONED is set, a data error is posted, and a remap
that firmware wants starts. Without a row to copy nothing changes. (After R142, R143.) FLIP_ARM and FLIP_DISARM of a
spire. A write of FLIP_SEL with ARM = 1, or with ARM = 0, that reaches its register is rejected with its code when its
form is wrong, and with 0x06 when ARM = 1 is written while ARM is 1; otherwise FLIP_SEL takes the word, so ARM, CELL
and BANK are the written values. (After R145.) Next states are given for MERGE_AGE_EVICT, SRAM_DRAIN, SRAM_REMAP,
SRAM_REMAP_COPY_DONE, FLIP_ARM, FLIP_DISARM. -/
def Obligations.StackMemoryIsMaintained : Prop :=
  (
  ∀ (s : State) (n : Fin 16) (c : Fin 64),
    (∀ (row : Nat) (cw : Fin 8),
      ((s.cell n c).mergeOf (row * 8 + cw) = none → exec (.mergeAgeEvict n c row cw) s = .next s) ∧
      (∀ e : Merge, (s.cell n c).mergeOf (row * 8 + cw) = some e →
        let at_ := s.cycleAt (2 * n + c / 32) (e.last + inCycles 256)
        s.reaches at_ → exec (.mergeAgeEvict n c row cw) s = .next ((s.atTime at_).evict n c e))) ∧
    (∀ (f : Func) (v : Word), let w := v.put 0 0 1
      s.accepts f (Loc.spSramCtl n) w →
      (∀ k, formCheck (locFields (Loc.spSramCtl n)) w = some k →
        exec (.sramDrain f n v) s = .next (s.reject f (Loc.spSramCtl n / 4096) (Loc.spSramCtl n % 4096) k)) ∧
      (wellFormedFor (Loc.spSramCtl n) w → exec (.sramDrain f n v) s = .next
        (((List.range 64).foldl (fun s c => (s.cell n c).merge.foldl (fun s e => s.evict n c e) s) s).managed))) ∧
    (∀ e : Merge,
      let u := s.modCell n c fun x => { x with merge := x.merge.filter fun y => y.cw != e.cw }
      let t := u.bump (spPage n 6) 4 c 1 (u.spireOwner n)
      let r := t.cwRead n c e.cw false
      (e.mask = 0xFFFFFFFF → s.evict n c e = t.cwWrite n c e.cw e.data) ∧
      (e.mask ≠ 0xFFFFFFFF →
        (∀ b, r.2 = some b → s.evict n c e = r.1.cwWrite n c e.cw (overlay e.mask b e.data)) ∧
        (r.2 = none → s.evict n c e =
          (r.1.post (spPage n 6) 1 0x32 c (e.cw / 8 + 65536 * (e.cw % 8) + 2 ^ 32 * e.mask)).bump (spPage n 6) 5 c 1 (u.spireOwner n))))) ∧
  (
  ∀ (s : State) (n : Fin 16),
    (∀ (f : Func) (v : Word), let w := v.put 31 31 1
      s.accepts f (Loc.spRemap n) w →
      let refused := fun k => s.reject f (Loc.spRemap n / 4096) (Loc.spRemap n % 4096) k
      let u := s.put (Loc.spRemap n) (w.put 31 31 0)
      (∀ k, formCheck (locFields (Loc.spRemap n)) w = some k → exec (.sramRemap f n v) s = .next (refused k)) ∧
      (wellFormedFor (Loc.spRemap n) w →
        (s.flag (Loc.spRemapSts n) 0 = true → exec (.sramRemap f n v) s = .next (refused 6)) ∧
        (s.flag (Loc.spRemapSts n) 0 = false →
          (u.freeSpares n (w.bits 5 0) (w.bits 21 6) ≠ 0 →
            exec (.sramRemap f n v) s = .next ((u.setFlag (Loc.spRemapSts n) 0 true).modSpire n fun sp =>
              { sp with mirror := some { cell := w.bits 5 0, row := w.bits 21 6 } }).managed) ∧
          (u.freeSpares n (w.bits 5 0) (w.bits 21 6) = 0 →
            exec (.sramRemap f n v) s = .next (u.setFlag (Loc.spRemapSts n) 2 true).managed)))) ∧
    ((s.spire n).mirror = none → exec (.sramRemapCopyDone n) s = .next s) ∧
    (∀ m : Mirror, (s.spire n).mirror = some m →
      let r := s.copyRow n m.cell m.row
      (m.copied = true → exec (.sramRemapCopyDone n) s = .next s) ∧
      (m.copied = false → r.2.2 = true → exec (.sramRemapCopyDone n) s = .next
        (r.1.modSpire n fun sp => { sp with mirror := some { m with copied := true, data := r.2.1, flips := [] } })) ∧
      (m.copied = false → r.2.2 = false → exec (.sramRemapCopyDone n) s = .next
        (((((r.1.modSpire n fun sp => { sp with mirror := none }).setFld (Loc.spRemapSts n) 0 0 0).setFlag
          (Loc.spRemapSts n) 3 true).post (spPage n 6) 1 0x33 m.cell m.row).askRemap n)))) ∧
  (
  ∀ (s : State) (f : Func) (n : Fin 16) (v : Word),
    let loc := Loc.spFlipSel n
    let refused := fun k => s.reject f (loc / 4096) (loc % 4096) k
    (let w := v.put 16 16 1
     s.accepts f loc w →
     (∀ k, formCheck (locFields loc) w = some k → exec (.flipArm f n v) s = .next (refused k)) ∧
     (wellFormedFor loc w → exec (.flipArm f n v) s = .next
       (if s.flag loc 16 = true then refused 6 else (s.put loc w).managed))) ∧
    (let w := v.put 16 16 0
     s.accepts f loc w →
     (∀ k, formCheck (locFields loc) w = some k → exec (.flipDisarm f n v) s = .next (refused k)) ∧
     (wellFormedFor loc w → exec (.flipDisarm f n v) s = .next (s.put loc w).managed)))

/-- BOND_SELF_TEST and BOND_ROTATION_OVERDUE, of a spire in service whose BOND_CTL.EN is 1. A test of a group that finds
no failed lane marks the group in its well's rotation, and with the last group ends the rotation. One that finds one
failed lane also adds 1 to FAILED and counts event 0x03; while spares of the group are left beyond those that wait,
the lane waits for its spare at the tick. Without a spare: in a command or power group the cell waits for the tick
that takes it out of service; in a data group, no lane being covered in these code words, the lane is covered, COVERED
and DEGRADED are set and a service error is posted. A well that has not finished its rotation within four periods has
OVERDUE set and a corrected error posted, once. (After R148 to R150.) GOVERNOR_WINDOW and GOVERNOR_CORRECTION of a
spire in service, each at its time (100 ns and 10 µs after its last), and ARRAY_POWER_CYCLE_DONE of a spire whose
supply is off, 5 ms after it went off. Each region's demand at full duty is estimated from its activity. When the
demands together stay within the budget, every duty is 16 and nothing is held. Otherwise each region takes the
greatest duties, in the order of PRIO, that keep it within its share of the budget, and a region that exceeds it with
both at 1 has its vector unit held to 1; the cycles that duties stall are counted. The correction shows the measured
power and replaces the weights' correction by one that is free. The array comes back tested (`State.startTest`), its
scratch zero, and in service with its test shown, or with its cells mapped anew when a logical cell tested bad; a
spire that was out for another reason stays out. (After R151 to R153, R155.) Next states are given for BOND_SELF_TEST,
BOND_ROTATION_OVERDUE, GOVERNOR_WINDOW, GOVERNOR_CORRECTION, ARRAY_POWER_CYCLE_DONE. -/
def Obligations.BondsAndPowerOfSpires : Prop :=
  (
  ∀ (s : State) (n : Fin 16) (c : Fin 64), s.flag (Loc.spBondCtl n) 8 = true → (s.spire n).out = 0 →
    (∀ g : Fin 37,
      let u := s.modCell n c fun x =>
        let m := x.rotDone ||| 2 ^ g.val
        if m = 2 ^ 37 - 1 then { x with rotDone := 0, rotAt := s.clk.elapsed, rotLate := false } else { x with rotDone := m }
      exec (.bondSelfTest n c g []) s = .next u ∧
      ∀ lane : Fin 68, lane.val < groupLanes g →
        let grp := Loc.spBondGrp n
        let i := c.val + 64 * g.val
        let w := u.setFld grp 15 8 (min (u.fld grp 15 8 i + 1) 255) i
        let w := w.bump (spPage n 7) 3 c 1 (w.spireOwner n)
        (w.bondWaiting n c g < w.fld grp 2 0 i → exec (.bondSelfTest n c g [lane]) s = .next
          (w.modSpire n fun sp => { sp with bondPend := sp.bondPend ++ [(c.val, g.val, lane.val)] })) ∧
        (w.fld grp 2 0 i ≤ w.bondWaiting n c g →
          (32 ≤ g.val → exec (.bondSelfTest n c g [lane]) s = .next
            (w.modSpire n fun sp => { sp with bondOut := if sp.bondOut.contains c.val then sp.bondOut else sp.bondOut ++ [c.val] })) ∧
          (g.val < 32 → ((w.spire n).bondCov.filter fun e => decide (e.1 = c.val ∧ bondWord e.2.1 = bondWord g.val)) = [] →
            exec (.bondSelfTest n c g [lane]) s = .next
              ((((w.modSpire n fun sp => { sp with bondCov := sp.bondCov ++ [(c.val, g.val, lane.val)] }).setFlag grp 3 true i).setFlag
                (Loc.spBondSts n) 2 true).post (spPage n 7) 2 0x36 c g)))) ∧
    (let at_ := (s.cell n c).rotAt + 4 * s.fld (Loc.spBondCtl n) 7 0 * 100000000
     ((s.cell n c).rotLate = true → exec (.bondRotationOverdue n c) s = .next s) ∧
     ((s.cell n c).rotLate = false → s.reaches at_ → exec (.bondRotationOverdue n c) s = .next
        ((((s.atTime at_).modCell n c fun x => { x with rotLate := true }).setFlag (Loc.spBondSts n) 1 true).post
          (spPage n 7) 0 0x37 c 0)))) ∧
  (
  ∀ (s : State) (n : Fin 16),
    ((s.spire n).out = 0 →
      (∀ north south : Activity,
        let at_ := s.nextOf (s.spire n).gov.winAt 100
        let u := s.atTime at_
        let dn := u.govScaled n north 0 16 16
        let ds := u.govScaled n south 1 16 16
        let budget := u.govBudget n
        let fits := fun (a : Activity) (r d ka kw : Nat) => decide (u.govScaled n a r ka kw * (dn + ds) ≤ budget * d)
        let set := fun (kn ks : Nat × Nat) (vn vs : Nat) =>
          (u.put (Loc.spGovSts n) (BitVec.ofNat 32 (kn.1 + 256 * kn.2 + 65536 * ks.1 + 16777216 * ks.2))).modSpire n fun sp =>
            { sp with gov := { sp.gov with vecN := vn, vecS := vs, winAt := some u.clk.elapsed } }
        s.reaches at_ →
        (dn + ds ≤ budget → exec (.governorWindow n north south) s = .next (set (16, 16) (16, 16) 16 16)) ∧
        (budget < dn + ds →
          let kn := govDuties (u.fld (Loc.spGovCtl n) 1 0) (fits north 0 dn)
          let ks := govDuties (u.fld (Loc.spGovCtl n) 1 0) (fits south 1 ds)
          let held := fun (a : Activity) (r d : Nat) (k : Nat × Nat) => if k = (1, 1) ∧ fits a r d 1 1 = false then 1 else 16
          let t := set kn ks (held north 0 dn kn) (held south 1 ds ks)
          let stall := fun (r act k : Nat) => if act = 0 then 0 else 5 * u.fld Loc.glRegSts 7 0 (2 * n + r) * (16 - k) / 64
          let ev := fun (x : State) (code r amt : Nat) => if amt = 0 then x else x.bump (spPage n 8) code r amt (t.spireOwner n)
          exec (.governorWindow n north south) s = .next
            (ev (ev (ev (ev t 2 0 (stall 0 north.arr kn.1)) 3 0 (stall 0 north.well kn.2)) 2 1 (stall 1 south.arr ks.1)) 3 1
              (stall 1 south.well ks.2)))) ∧
      (∀ measured : BitVec 10,
        let at_ := s.nextOf (s.spire n).gov.corrAt 10000
        let u := s.atTime at_
        s.reaches at_ →
        exec (.governorCorrection n measured) s = .next
          ((u.setFld (Loc.spStackPwr n) 9 0 measured.toNat).modSpire n fun sp =>
            { sp with gov := { sp.gov with
              corr := Config.govCorrection measured.toNat sp.gov.corr, corrAt := some u.clk.elapsed } }))) ∧
    (∀ t : SpireTest, s.flag Loc.seSecSts (10 + n) = true → s.reaches ((s.spire n).cycleAt + 5000000) →
      let u := s.atTime ((s.spire n).cycleAt + 5000000)
      let w := ((u.startTest n t).setFlag Loc.seSecSts (10 + n) false).modSpire n fun sp => { sp with scratch := [], scrFlips := [] }
      let bad := w.testedBad n t
      let kept := (w.spire n).out
      let back := if (bad.any fun p => (w.logicalCell n p).isSome) = true then w.buildMap n ((w.spire n).bad ++ bad)
        else (w.showTest n).modSpire n fun sp => { sp with out := 0 }
      exec (.arrayPowerCycleDone n t) s = .next
        (if kept ≤ 1 then back else back.modSpire n fun sp => { sp with out := if sp.out = 0 then kept else sp.out })))

/-- MEM_CFG_WRITE: a write of the MEM_CFG of any gatehouse that reaches its register is rejected with its code when its
form is wrong; otherwise the MEM_CFG of all eight take the word, and read it. (After R159.) LINE_FILL_DONE,
LINE_IDLE_WRITEBACK and GATEHOUSE_DRAIN. The fill of an entry of a gatehouse in service whose channel does not
retrain: a line that can be read gives the entry its bytes, the waiting operations are applied in order of arrival,
entries that wait to drain drain and waiting requests are tried again; one that cannot be read is released, its
waiting operations complete with uncorrectable data (0x20), and waiting requests are tried again. An entry that is not
busy, with changed bytes, idle for 64 cycles, is written back and stays with no byte changed. A write of GCTL that
reaches its register marks every entry and releases each that is not busy and whose channel does not retrain, or is
rejected with the code of its form. (After R174 to R179.) Next states are given for MEM_CFG_WRITE, LINE_FILL_DONE,
LINE_IDLE_WRITEBACK, GATEHOUSE_DRAIN. -/
def Obligations.LineBufferEntriesMove : Prop :=
  (
  ∀ (s : State) (f : Func) (g : Fin 8) (v : Word), s.accepts f (Loc.gtMemCfg g) v →
    (∀ k, formCheck (locFields (Loc.gtMemCfg g)) v = some k →
      exec (.memCfgWrite f g v) s = .next (s.reject f (Loc.gtMemCfg g / 4096) (Loc.gtMemCfg g % 4096) k)) ∧
    (wellFormedFor (Loc.gtMemCfg g) v →
      let t := (List.range 8).foldl (fun s k => s.put (Loc.gtMemCfg k) v) s
      exec (.memCfgWrite f g v) s = .next t.managed ∧
      (s.canon = true → (∀ k < 8, t.get (Loc.gtMemCfg k) = v) ∧ Frame [.regs] s t ∧
        RegsKeep ((List.range 8).map Loc.gtMemCfg) s t))) ∧
  (
  ∀ (s : State) (g : Fin 8) (line : BitVec 32),
    (∀ (e : LEntry), (s.gate g).entry line.toNat = some e → s.lineRetrains line.toNat = false →
      (∀ upset : List (Fin 4 × Nat), e.filling = true → (s.gate g).out = 0 →
        let r := (s.upset line.toNat upset).chanRead line.toNat (some e.key) 0
        (∀ b : List Byte, r.2 = some b → exec (.lineFillDone g line upset) s = .next
          ((((r.1.modGate g fun x => x.setEntry { e with data := b, filling := false, queue := [] }).gateApply
            g line.toNat e.queue).drainOn g).gateRetry g)) ∧
        (r.2 = none → exec (.lineFillDone g line upset) s = .next
          ((e.queue.foldl (fun s o => s.gateDone o 0x20 []) (r.1.modGate g fun x => x.dropEntry line.toNat)).gateRetry g))) ∧
      (let at_ := s.cycleAt (32 + g) (e.last + inCycles 64)
       e.busy = false → s.reaches at_ →
        (e.changed = 0 → exec (.lineIdleWriteback g line) s = .next s) ∧
        (e.changed ≠ 0 → exec (.lineIdleWriteback g line) s = .next
          (((s.atTime at_).chanWrite e.line e.key e.changed e.data).modGate g fun x => x.setEntry { e with changed := 0 })))) ∧
    (∀ (f : Func) (v : Word), let w := v.put 0 0 1
      s.accepts f (Loc.gtGctl g) w →
      let t := s.modGate g fun x => { x with lbuf := x.lbuf.map fun e => { e with drain := true } }
      (∀ k, formCheck (locFields (Loc.gtGctl g)) w = some k →
        exec (.gatehouseDrain f g v) s = .next (s.reject f (Loc.gtGctl g / 4096) (Loc.gtGctl g % 4096) k)) ∧
      (wellFormedFor (Loc.gtGctl g) w → exec (.gatehouseDrain f g v) s = .next
        ((((t.gate g).lbuf.filter fun e => e.drain && !e.busy && !t.lineRetrains e.line).foldl (fun s e => s.release g e) t).managed))))

/-- PER_BANK_REFRESH, MR4_READOUT and MR4_LIMIT_RELEASE, in a gatehouse in service. The refresh command of a rank of a
channel that has not failed: from the beginning of its idle segment, which the command may wait for, it is issued
while the rank's debt is above −16; with a debt of 32 and no idle segment yet it is forced, and counted. A die's mode
register 4 is read 4 ms after its last readout in idle segments of its channels, 8 ms after it at the latest: each
rank of the die takes the refresh interval that it asks for; above its range the die is logged and limits its package;
within it the 10 ms of that limit begin. The limit of a package ends when its dies have been within range for 10 ms.
(After Table GH-5, R183, R371.) OSCILLATOR_MEASUREMENT, of a channel of a gatehouse in service that has not failed and
does not retrain, and RETRAIN_DONE. The measurement comes in an idle segment when OSC_MS has passed since the last,
and when FORCE_MS has at the latest; a drift within the range waits for the tick, one beyond it begins a full retrain,
counted and logged. A retrain that succeeds lets drains and waiting requests go on; one that fails is tried again, and
the third failure in a row fails the channel: its bit is set in CH_FAIL and it is taken off MEM_STS, a service error
is logged, and requests to it end with 0x21. (After Table GH-5, R182, R189.) Next states are given for
PER_BANK_REFRESH, MR4_READOUT, MR4_LIMIT_RELEASE, OSCILLATOR_MEASUREMENT, RETRAIN_DONE. -/
def Obligations.ChannelsAreRefreshedAndTrained : Prop :=
  (
  ∀ (s : State) (g : Fin 8),
    ((s.gate g).out = 0 → ∀ (ch : Fin 48) (rank : Fin 2), s.chFailed g ch = false →
      let k := ch.val * 2 + rank.val
      let paid (u : State) : State := u.modGate g fun x =>
        let r := tget {} x.refresh k
        { x with refresh := tset {} x.refresh k { r with debt := r.debt - 1 } }
      (∀ at_ idle, s.idleFrom g ch = some at_ → (idle = true ∨ at_ ≤ s.clk.elapsed) → s.reaches at_ →
        exec (.perBankRefresh g ch rank idle) s = .next
          (if (s.atTime at_).refreshOwed g k > -16 then paid (s.atTime at_) else s)) ∧
      ((∀ at_, s.idleFrom g ch = some at_ → s.clk.elapsed < at_) →
        exec (.perBankRefresh g ch rank false) s = .next
          (if s.refreshOwed g k ≥ 32 then ((paid s).addWrap (Loc.gtRefForced g) 31 0 1).bump (gtPage g 2) 2 ch else s))) ∧
    ((s.gate g).out = 0 → ∀ (pkg : Fin 12) (die : Fin 6) (idle double : Bool) (value : BitVec 8),
      let d := pkg.val * 6 + die.val
      let last := max (s.gate g).since (tget 0 (s.gate g).mr4 d)
      let at_ := ((dieRanks pkg die).map fun k => s.workAt g (k / 2) idle (last + 4000000) (last + 8000000)).foldl max 0
      let u := (s.atTime at_).modGate g fun x => { x with mr4 := tset 0 x.mr4 d (s.atTime at_).clk.elapsed }
      let t := (dieRanks pkg die).foldl (fun s k => s.setDouble g k double) u
      s.reaches at_ →
      exec (.mr4Readout g pkg die idle value { double := double, above := false }) s = .next
        (t.modGate g fun x => { x with hot := x.hot.map fun h => if h.1 = d ∧ h.2 = 0 then (d, t.clk.elapsed + 1) else h }) ∧
      exec (.mr4Readout g pkg die idle value { double := double, above := true }) s = .next
        ((t.post (gtPage g 2) 2 0x44 pkg value.toNat).modGate g fun x =>
          { x with hot := (x.hot.filter fun h => h.1 != d) ++ [(d, 0)] })) ∧
    (∀ (pkg : Fin 12),
      let mine := (s.gate g).hot.filter fun h => h.1 / 6 == pkg.val
      let at_ := (mine.map (·.2)).foldl max 0 - 1 + 10000000
      (mine.isEmpty || mine.any fun h => h.2 == 0) = false → s.reaches at_ →
      exec (.mr4LimitRelease g pkg) s = .next
        ((s.atTime at_).modGate g fun x => { x with hot := x.hot.filter fun h => h.1 / 6 != pkg.val }))) ∧
  (
  ∀ (s : State) (g : Fin 8) (ch : Fin 48),
    let c := (s.gate g).chan ch
    let retrains := fun t : State =>
      let t := t.modGate g fun x => x.setChan ch { x.chan ch with retraining := true }
      let t := (t.addSat (Loc.gtTrainSts g) 15 0 1).setFld (Loc.gtTrainSts g) 21 16 ch
      (t.post (gtPage g 2) 0 0x42 ch 0).bump (gtPage g 2) 3 ch
    ((s.gate g).out = 0 → s.chFailed g ch = false → c.retraining = false → ∀ (idle : Bool) (drift : Int),
      let last := max (s.gate g).since c.osc
      let at_ := s.workAt g ch idle (last + s.fld (Loc.gtTrainCtl g) 7 0 * 1000000)
        (last + s.fld (Loc.gtTrainCtl g) 15 8 * 1000000)
      let u := (s.atTime at_).modGate g fun x => x.setChan ch { x.chan ch with osc := (s.atTime at_).clk.elapsed }
      s.reaches at_ →
      exec (.oscillatorMeasurement g ch idle (some drift)) s = .next
        (u.modGate g fun x => x.setChan ch { x.chan ch with corrPend := some drift }) ∧
      exec (.oscillatorMeasurement g ch idle none) s = .next (retrains u)) ∧
    (c.retraining = false → ∀ ok, exec (.retrainDone g ch ok) s = .next s) ∧
    (c.retraining = true →
      let third := s.modGate g fun x => x.setChan ch { c with fails := 3 }
      let bit := fun t : State => if ch.val < 32 then t.setFlag (Loc.gtChFailLo g) ch true else t.setFlag (Loc.gtChFailHi g) (ch - 32) true
      let fewer := fun t : State => t.setFld (Loc.gtMemSts g) 8 3 (t.fld (Loc.gtMemSts g) 8 3 - 1)
      let dropped := (third.gate g).lbuf.filter fun e => (placeLine e.line).2.1 == ch.val
      let gone := fun t : State =>
        let t := t.modGate g fun x => x.setChan ch { x.chan ch with retraining := false }
        let t := t.modGate g fun x => { x with lbuf := x.lbuf.filter fun e => (placeLine e.line).2.1 != ch.val }
        (dropped.flatMap (·.queue)).foldl (fun s o => s.gateDone o 0x21 []) (t.post (gtPage g 0) 2 0x45 ch 0)
      exec (.retrainDone g ch true) s = .next
        (((s.modGate g fun x => x.setChan ch { c with retraining := false, fails := 0 }).drainOn g).gateRetry g) ∧
      (c.fails < 2 → exec (.retrainDone g ch false) s = .next
        (retrains (s.modGate g fun x => x.setChan ch { c with fails := c.fails + 1 }))) ∧
      (2 ≤ c.fails → third.chFailed g ch = false →
        exec (.retrainDone g ch false) s = .next ((gone (fewer (bit third))).gateRetry g))))

/-- PATROL_READ and PATROL_LATE, in a gatehouse in service with PATROL_CTL.EN = 1. A patrol read of one of its lines, on a
channel that has not failed and does not retrain, not yet read in this pass, in an idle segment after the pass's
beginning: each code word read that is corrected is recorded and counted in PATROL_CE, the first that is uncorrectable
is recorded and counted in PATROL_UE, and PATROL_STS shows how much of the pass is done; with the last line the pass
ends, PASSES goes up by one and the next pass begins a period after this one began. A line read before in this pass is
not read again. A pass that has not finished in twice its period is flagged and a corrected error posted. (After
R188.) MEMORY_REMAP, MEMORY_REMAP_COPY_DONE, GATE_FLIP_ARM and GATE_FLIP_DISARM. A write of REMAP with GO = 1 that
reaches its register is rejected with its code when its form is wrong, with 0x02 for a row beyond the rank's rows,
with 0x06 while BUSY is 1; otherwise REMAP keeps the page, which enters the mirror state with BUSY 1 while the store
has a free entry, and NO_ENTRY is set when it has none. When the copier has read the page: with no code word
uncorrectable the copy, each word corrected, waits for the tick; with one the remap ends, BUSY clears, ABANDONED is
set, a data error is posted and a remap that firmware wants starts. A write of FLIP_SEL with ARM = 1, or ARM = 0, that
reaches its register is rejected with the code of its form, and with 0x06 when ARM = 1 is written while ARM is 1;
otherwise FLIP_SEL takes the word. (After R185, R186, R169.) Next states are given for PATROL_READ, PATROL_LATE,
MEMORY_REMAP, MEMORY_REMAP_COPY_DONE, GATE_FLIP_ARM, GATE_FLIP_DISARM. -/
def Obligations.MemoryIsPatrolled : Prop :=
  (
  ∀ (s : State) (g : Fin 8), (s.gate g).out = 0 → s.flag (Loc.gtPatrolCtl g) 8 = true →
    (∀ (line : BitVec 32) (upset : List (Fin 4 × Nat)),
      let l := line.toNat
      let ch := (placeLine l).2.1
      (placeLine l).1 = g.val → l * 256 < memSize →
      s.chFailed g ch = false → s.lineRetrains l = false →
      ((s.gate g).patrol.contains l = true → exec (.patrolRead g line upset) s = .next s) ∧
      ((s.gate g).patrol.contains l = false → ∀ from_, s.idleFrom g ch = some from_ →
        let at_ := max (s.gate g).passStart from_
        s.reaches at_ →
        let words := (List.range 4).foldl (fun (r : State × Nat × Bool) cw =>
          match eccRead 16 36 3 (tget 0 r.1.memFlip (l * 4 + cw)) with
          | .corrected sym _ => (r.1.memCorrected g ch l cw sym 1, r.2.1 + 1, r.2.2)
          | .uncorrectable => (if r.2.2 then r.1 else r.1.memUncorrectable g ch l cw 1, r.2.1, true)
          | _ => r) ((s.atTime at_).upset l upset, 0, false)
        let t := words.1.addWrap (Loc.gtPatrolCe g) 31 0 words.2.1
        let t := (List.range words.2.1).foldl (fun s _ => s.bump (gtPage g 2) 5 ch) t
        let t := if words.2.2 = true then t.addWrap (Loc.gtPatrolUe g) 31 0 1 else t
        let t := t.modGate g fun x => { x with patrol := x.patrol ++ [l] }
        let n := t.patrolSeen g
        (n < t.patrolAll g → exec (.patrolRead g line upset) s = .next (t.setFld (Loc.gtPatrolSts g) 22 16 (100 * n / t.patrolAll g))) ∧
        (t.patrolAll g ≤ n →
          let next := max t.clk.elapsed ((t.gate g).passStart + t.fld (Loc.gtPatrolCtl g) 7 0 * 3600000000000)
          exec (.patrolRead g line upset) s = .next
            (((t.modGate g fun x => { x with patrol := [], passAt := next, passLate := false }).addWrap (Loc.gtPatrolSts g) 15 0 1).setFld
              (Loc.gtPatrolSts g) 22 16 0)))) ∧
    ((s.gate g).passLate = true → exec (.patrolLate g) s = .next s) ∧
    ((s.gate g).passLate = false →
      let at_ := (s.gate g).passStart + 2 * s.fld (Loc.gtPatrolCtl g) 7 0 * 3600000000000
      s.reaches at_ → exec (.patrolLate g) s = .next
        ((((s.atTime at_).modGate g fun x => { x with passLate := true }).setFlag (Loc.gtPatrolSts g) 23 true).post
          (gtPage g 2) 0 0x43 0 0))) ∧
  (
  ∀ (s : State) (f : Func) (g : Fin 8) (v : Word),
    (let w := v.put 31 31 1
     s.accepts f (Loc.gtRemap g) w →
     let refused := fun k => s.reject f (Loc.gtRemap g / 4096) (Loc.gtRemap g % 4096) k
     let u := s.put (Loc.gtRemap g) (w.put 31 31 0)
     (∀ k, formCheck (locFields (Loc.gtRemap g)) w = some k → exec (.memoryRemap f g v) s = .next (refused k)) ∧
     (wellFormedFor (Loc.gtRemap g) w → exec (.memoryRemap f g v) s = .next
       (if w.bits 26 11 ≥ (if w.bit 6 = true then 24576 else 49152) then refused 2
       else if s.flag (Loc.gtRemapSts g) 0 = true then refused 6
       else if 64 ≤ (u.gate g).store.length then (u.setFlag (Loc.gtRemapSts g) 2 true).managed
       else ((u.setFlag (Loc.gtRemapSts g) 0 true).modGate g fun x =>
         { x with mirror := some { page := ⟨w.bits 5 0, w.bits 6 6, w.bits 10 7, w.bits 26 11⟩ } }).managed))) ∧
    ((s.gate g).mirror = none → exec (.memoryRemapCopyDone g) s = .next s) ∧
    (∀ m : GMirror, (s.gate g).mirror = some m →
      let bad := (m.page.lines g).1.any fun l => (List.range 4).any fun cw =>
        decide (eccRead 16 36 3 (tget 0 s.memFlip (l * 4 + cw)) = .uncorrectable)
      (m.copied = true → exec (.memoryRemapCopyDone g) s = .next s) ∧
      (m.copied = false → bad = false → exec (.memoryRemapCopyDone g) s = .next
        (s.modGate g fun x => { x with mirror := some { m with
          copied := true
          entry := (m.page.lines g).1.foldl (fun e l => (List.range 4).foldl (fun e cw =>
            tset 0 e (l * 4 + cw) (copiedMask (tget 0 s.memFlip (l * 4 + cw)))) e) [] } })) ∧
      (m.copied = false → bad = true → exec (.memoryRemapCopyDone g) s = .next
        ((((((s.modGate g fun x => { x with mirror := none }).setFlag (Loc.gtRemapSts g) 0 false).setFlag
          (Loc.gtRemapSts g) 3 true).post (gtPage g 0) 1 0x46 m.page.ch
          (m.page.rank * 64 + m.page.bank * 128 + m.page.row * 2048)).askPageRemap g)))) ∧
    (let loc := Loc.gtFlipSel g
     let refused := fun k => s.reject f (loc / 4096) (loc % 4096) k
     (let w := v.put 16 16 1
      s.accepts f loc w →
      (∀ k, formCheck (locFields loc) w = some k → exec (.gateFlipArm f g v) s = .next (refused k)) ∧
      (wellFormedFor loc w → exec (.gateFlipArm f g v) s = .next
        (if s.flag loc 16 = true then refused 6 else (s.put loc w).managed))) ∧
     (let w := v.put 16 16 0
      s.accepts f loc w →
      (∀ k, formCheck (locFields loc) w = some k → exec (.gateFlipDisarm f g v) s = .next (refused k)) ∧
      (wellFormedFor loc w → exec (.gateFlipDisarm f g v) s = .next (s.put loc w).managed))))

/-- BUNDLE_RECEIVE, BLOCK_LOCK_GAIN and BLOCK_LOCK_LOSS. The blocks that bring the first bundle in flight to its end
arrive, while a relay has room for what of it it is to relay; or four blocks, or eight; each with its error bits. A
block of a link that is not up, or of a bundle that a relay has no room for, brings nothing. Another brings its bits,
and the unit in flight that these end lands. Without block lock a unit is dropped; one with an uncorrectable block is
bad: what follows it is skipped, a resend is asked for, and its flits are free again. A bundle that came whole but
fails its CRC, is of a reserved kind or has an NDATA that is not its headers' counts, and is bad too. A good one's
link word serves the reverse link; on a closed link it is dropped. Its flits are free again. With the expected number
every header is delivered in order and the next number is expected; while a resend is awaited another number is
dropped; up to 512 below the expected number it is a duplicate; any other number asks for a resend. (After R198 to
R201, R205, R208, R209.) IDLE_FLIT_RECEIVE and LINK_RETRY_TIMEOUT, on a link that is up, and what it sends next. A
link without a bundle in flight sends an idle flit where none is in flight, and the blocks that bring it arrive. A
link word that is served, of a reverse link that is up, drops the bundles it acknowledges, which starts the timer
anew, returns the credits up to 32, and with NAK has the rest to send again, counted while lock is held. A link with
unacknowledged bundles and no progress for RETRY_TMO has them all to send again, counted while lock is held. A link
that is to send again sends its oldest, for its credits, with its number, counted; else, from the room that its
credits and the 48 flits of the retry buffer leave, a bundle of the headers that wait, which takes the next number.
(After R202, R208 to R210.) Next states are given for BUNDLE_RECEIVE, BLOCK_LOCK_GAIN, BLOCK_LOCK_LOSS,
IDLE_FLIT_RECEIVE, LINK_RETRY_TIMEOUT. -/
def Obligations.LinksDeliverAndRetry : Prop :=
  (
  ∀ (s : State) (a d : Fin 48) (p : Fin 4),
    (∀ errs : List (BitVec 560),
      exec (.bundleReceive a d p errs) s = .next
        (if ((s.link a d p).flight.find? fun u => !u.idle).any (fun u => !s.relayRoom d u) = true then s
        else (s.blocksIn a d p ((s.link a d p).blocksTo fun u => !u.idle) errs).settleAll)) ∧
    (∀ errs : List (BitVec 560), exec (.blockLockGain a d { plane := p, errs := errs }) s = .next (s.blocksIn a d p 4 errs).settleAll ∧
      exec (.blockLockLoss a d { plane := p, errs := errs }) s = .next (s.blocksIn a d p 8 errs).settleAll) ∧
    (∀ (n : Nat) (errs : List (BitVec 560)),
      s.blocksIn a d p n errs = (List.range n).foldl (fun s i => s.blockIn a d p (errs.getD i 0)) s) ∧
    (∀ err : BitVec 560,
      let t := s.moveBlock a d p err
      (s.linkSt a d p ≠ 2 ∨ s.relayHolds a d p = true → s.blockIn a d p err = s) ∧
      (s.linkSt a d p = 2 → s.relayHolds a d p = false →
        ((t.link a d p).landed = none → s.blockIn a d p err = t) ∧
        (∀ (u : LUnit) (k : Option Bundle), (t.link a d p).landed = some (u, k) →
          let w := t.modLink a d p fun x => x.landNext (decide ((s.link a d p).badRun < x.badRun))
          let free := fun (bad : Bool) => w.modLink a d p fun x => { x with skip := bad || x.skip, nak := bad || x.nak, freed := x.freed + u.flits }
          ((w.link a d p).lost.isSome = true → s.blockIn a d p err = if u.idle = true then w else free false) ∧
          ((w.link a d p).lost = none → k = none → s.blockIn a d p err = if u.idle = true then w else free true) ∧
          (∀ b, (w.link a d p).lost = none → k = some b → s.blockIn a d p err = w.takeBundle a d p b)))) ∧
    (∀ k : Bundle,
      let x := s.link a d p
      let sum := (k.hdrs.map hdrData).sum
      let flits := if k.kind = 0 then 0 else 1 + sum
      let broken := !k.good || decide (2 ≤ k.kind) || (k.kind == 1 && k.ndata != sum)
      let u := s.lineWord d a p k
      (broken = true → s.takeBundle a d p k = ((s.linkCount (Loc.plLinkCrc 0) a d p 1).plEvent 4 a 1).modLink a d p fun x =>
        { x with skip := true, nak := true, freed := x.freed + flits }) ∧
      (broken = false →
        (k.kind = 0 ∨ x.closed = true → s.takeBundle a d p k = u) ∧
        (k.kind ≠ 0 → x.closed = false →
          let w := u.modLink a d p fun x => { x with freed := x.freed + flits }
          let below := (x.expect + 1024 - k.seq) % 1024
          (k.seq = x.expect → s.takeBundle a d p k = k.hdrs.foldl (fun (s : State) h => s.deliver a d h)
            (w.modLink a d p fun x => { x with expect := (x.expect + 1) % 1024, any := true, skip := false, nak := false })) ∧
          (k.seq ≠ x.expect → s.takeBundle a d p k =
            if x.skip = true then w
            else if 1 ≤ below ∧ below ≤ 512 then w.modLink a d p fun x => { x with nak := false }
            else w.modLink a d p fun x => { x with nak := true }))))) ∧
  (
  ∀ (s : State) (a d : Fin 48) (p : Fin 4), s.linkSt a d p = 2 →
    (∀ errs : List (BitVec 560), ((s.link a d p).flight.any fun u => !u.idle) = false →
      let u := if (s.link a d p).flight.isEmpty then s.sendUnit a d p true 0 [] else s
      exec (.idleFlitReceive a d p errs) s =
        .next (u.blocksIn a d p ((u.link a d p).blocksTo fun _ => true) errs).settleAll) ∧
    (∀ w : Bundle,
      let x := s.link a d p
      let acked := fun q : LSent => w.ackV && decide ((w.ackSeq + 1024 - q.seq) % 1024 < 512)
      let rest := x.retry.filter fun q => !acked q
      let moved := decide (rest.length < x.retry.length)
      let again := w.nak && !rest.isEmpty
      let base := if moved = true then 0 else x.resent
      let t := s.modLink a d p fun x => { x with
        retry := rest, again := x.again.filter fun q => !acked q, credit := min 32 (x.credit + w.credit)
        ackAt := if moved = true then s.clk.elapsed else x.ackAt
        resent := if (again && x.lost.isNone) = true then base + 1 else base }
      s.lineWord a d p w = (if again = true then t.modLink a d p fun x => { x with again := x.retry } else t).pumpAll a d p) ∧
    ((s.link a d p).retry = [] → exec (.linkRetryTimeout a d p) s = .next s) ∧
    ((s.link a d p).retry ≠ [] →
      let at_ := (s.link a d p).ackAt + 100 * s.fld (Loc.plPlCtl (stPlinth a)) 27 20
      let t := s.atTime at_
      s.reaches at_ → exec (.linkRetryTimeout a d p) s = .next
        (((t.modLink a d p fun x =>
          { x with ackAt := t.clk.elapsed, resent := if x.lost.isNone then x.resent + 1 else x.resent }).modLink a d p fun x =>
            { x with again := x.retry }).pumpAll a d p)) ∧
    (∀ (f : Nat),
      let x := s.link a d p
      let room := min 21 (min x.credit (48 - (x.retry.map (·.flits)).sum))
      let r := takeHdrs 4 (room - 1) x.q
      let fl := 1 + (r.1.map hdrData).sum
      (∀ q l, x.again = q :: l → s.pumpLink a d p (f + 1) = if x.credit < q.flits then s else
        ((((s.modLink a d p fun x => { x with again := x.again.tail, credit := x.credit - q.flits }).sendUnit
          a d p false q.seq q.hdrs).linkCount (Loc.plLinkRetry 0) a d p 1).plEvent 5 a 1).pumpLink a d p f) ∧
      (x.again = [] → s.pumpLink a d p (f + 1) = if room = 0 ∨ r.1 = [] then s else
        ((s.modLink a d p fun x => { x with
          q := r.2, credit := x.credit - fl, next := (x.next + 1) % 1024
          ackAt := if x.retry.isEmpty then s.clk.elapsed else x.ackAt
          retry := x.retry ++ [⟨x.next, r.1, fl⟩] }).sendUnit a d p false x.next r.1).pumpLink a d p f)))

/-- A link that is in training when it fails, has resent RETRY_MAX times in a row, or is without lock for longer than
LOCK_LOSS_US fails with its reverse link, each fenced at once with its mask due, and the belfry probes the lanes of a
row that fails at the seam; a link of a sextant, one that is not up, and one with none of these does not fail. The
query of a failed link closes it unless it was trained again since, and the reply names the last number that it
delivered; one that names no failure is dropped. The reply drops the bundles up to that number and re-issues the
transactions of the rest. A link that has failed and is retrained 10 ms later is up again with its pair, or waits
another 10 ms. (After R212, R215, R217.) A transaction that waits at its relay, or else one for the fabric that waits
at its oculus station, goes on: over the plane that its hash and the masks give, or with the path-unavailable status
(0x33) to its source; into the fabric as its oculus issues it. Without either, and at a station that is no oculus's,
nothing changes. A write of PAIR_VIA that reaches its register: with FORCE = 1 and a VIA that is no oculus station it
is rejected, with 0x01 when a reserved bit is set and 0x02 otherwise; a form that is wrong is rejected with its code;
otherwise it stands for the selected pair. (After R218 to R220.) LANE_ERROR_WINDOW, on a link that is up. At the end
of its millisecond's window the link shows the bits corrected in it and counts anew. On a plinth that exchanges lanes
the spares that the test found bad leave their group. Then, unless an exchange waits for the tick: with more than
1,000 bits on a lane of its own one waits; on an exchanged lane the spare goes back as good and the row goes to
calibration; with fewer on an exchanged lane the old lane goes back as the test judged it. (After R223.) Next states
are given for LINK_FAIL, LINK_QUERY, LINK_REPLY, LINK_BACKGROUND_RETRAIN, DETOUR_RELAY, PAIR_VIA_WRITE,
LANE_ERROR_WINDOW. -/
def Obligations.LinksFailDetourAndExchange : Prop :=
  (
  ∀ (s : State) (a d : Fin 48) (p : Fin 4),
    let fails := fun t : State =>
      ((((((t.failOne a d p 2).failOne d a p 1).askAgain a d p).askAgain d a p).seamTest a p).seamTest d p)
    (isSextant d = true ∨ (s.linkSt a d p ≠ 1 ∧ s.linkSt a d p ≠ 2) → exec (.linkFail a d p) s = .next s) ∧
    (isSextant d = false →
      (s.linkSt a d p = 1 ∨
        (s.linkSt a d p = 2 ∧ s.fld (Loc.plPlCtl (stPlinth a)) 8 4 ≤ (s.link a d p).resent) →
        exec (.linkFail a d p) s = .next (fails s)) ∧
      (s.linkSt a d p = 2 → (s.link a d p).resent < s.fld (Loc.plPlCtl (stPlinth a)) 8 4 →
        ((s.link a d p).lost = none → exec (.linkFail a d p) s = .next s) ∧
        (∀ t0 : Nat, (s.link a d p).lost = some t0 →
          let at_ := t0 + 1000 * s.fld (Loc.plPlCtl (stPlinth d)) 19 12 + 1
          s.reaches at_ → exec (.linkFail a d p) s = .next (fails (s.atTime at_))))) ∧
    ((s.link a d p).asked = [] → exec (.linkQuery a d p) s = .next s ∧ ∀ seq, exec (.linkReply a d p seq) s = .next s) ∧
    (∀ t l, (s.link a d p).asked = t :: l →
      (((s.link a d p).heard.find? fun e => e.1 % 16 == t % 16) = none → exec (.linkQuery a d p) s = .next s) ∧
      (∀ u v, ((s.link a d p).heard.find? fun e => e.1 % 16 == t % 16) = some (u, v) →
        let c := s.modLink a d p fun x => { x with closed := x.closed || u == x.trains }
        exec (.linkQuery a d p) s = .next (c.sendHdr d a
          { op := 0x31, arg := BitVec.ofNat 16 (v - 1 + 1024 * p.val + 4096 * (t % 16)) }).1) ∧
      (∀ seq : BitVec 10,
        let rest := (s.link a d p).doubt.filter fun q => q.1 == t && !decide ((seq.toNat + 1024 - q.2.seq) % 1024 < 512)
        exec (.linkReply a d p seq) s = .next
          (((rest.flatMap fun q => q.2.hdrs).filter fun h => !(h.op == 0x30)).foldl
            (fun (s : State) h => s.reissue a d h)
            (s.modLink a d p fun x => { x with asked := x.asked.erase t, doubt := x.doubt.filter fun q => q.1 != t, heard := tset 0 x.heard t 0 })))) ∧
    ((s.link a d p).st = some 3 →
      let at_ := (s.link a d p).failedAt + 10000000
      let t := s.atTime at_
      s.reaches at_ →
      exec (.linkBackgroundRetrain a d p true) s = .next ((t.trainLink a d p).trainLink d a p) ∧
      exec (.linkBackgroundRetrain a d p false) s = .next
        ((t.modLink a d p fun x => { x with failedAt := t.clk.elapsed }).modLink d a p fun x =>
          { x with failedAt := t.clk.elapsed }))) ∧
  (
  ∀ (s : State),
    (∀ (r : Fin 48), stationOculus r = none → exec (.detourRelay r) s = .next s) ∧
    (∀ (r : Fin 48) (e : Nat), stationOculus r = some e →
      (∀ x, ((s.oculus e).detour.find? fun x => x.1 == r.val) = some x →
        let u := s.modOculus e fun o => { o with detour := o.detour.erase x }
        let c := u.hdrHash r x.2.final.toNat x.2 (hdrOnLine x.2)
        (∀ p : Nat, c.2.planeFor r x.2.final.toNat c.1 = some p →
          exec (.detourRelay r) s = .next (c.2.sendOn r x.2.final.toNat p x.2).settleAll) ∧
        (c.2.planeFor r x.2.final.toNat c.1 = none →
          exec (.detourRelay r) s = .next (c.2.endHdr r x.2 0x33).settleAll)) ∧
      (((s.oculus e).detour.find? fun x => x.1 == r.val) = none →
        (((s.oculus e).fabWait.find? fun x => x.1 == r.val) = none → exec (.detourRelay r) s = .next s) ∧
        (∀ x, ((s.oculus e).fabWait.find? fun x => x.1 == r.val) = some x →
          let src := hdrSource r x.2
          let u := s.modOculus e fun o => { o with fabWait := o.fabWait.erase x }
          let i := u.issueAt e (hdrPkt src x.2) (.link r src x.2) false
          (i = .wait → exec (.detourRelay r) s = .next
            (u.modOculus e fun o => { o with fabWait := o.fabWait ++ [(r.val, hdrMark src x.2)] }).settleAll) ∧
          (∀ t st data, i = .done t st data → exec (.detourRelay r) s = .next (t.replyHdr r src x.2 st data).settleAll) ∧
          (∀ t q, i = .sent t q → exec (.detourRelay r) s = .next t.settleAll)))) ∧
    (∀ (f : Func) (e : Side) (v : Word), let loc := Loc.plPairVia (sideNat e)
      s.accepts f loc v →
      let refused := fun k => s.reject f (loc / 4096) (loc % 4096) k
      let sel := s.get (Loc.plPairSel (sideNat e))
      let astray := v.bit 6 = true ∧ stationOculus (v.bits 5 0) = none
      (astray → exec (.pairViaWrite f e v) s = .next
        (refused (if v.toNat &&& coverMask (locFields loc) ≠ v.toNat then 1 else 2))) ∧
      (¬ astray → (∀ k, formCheck (locFields loc) v = some k → exec (.pairViaWrite f e v) s = .next (refused k)) ∧
        (wellFormedFor loc v → exec (.pairViaWrite f e v) s = .next
          ((locFields loc).foldl (fun (t : State) fd =>
            t.writeField loc (sel.bits 4 0 * 64 + sel.bits 13 8) v.toNat (s.pendPart (loc / 4096)) fd) s).managed)))) ∧
  (
  ∀ (s : State) (a d : Fin 48) (p : Fin 4) (rx ok : Bool) (bad : Fin 5), s.linkSt a d p = 2 →
    let at_ := (s.link a d p).winAt + 1000000
    let t := s.atTime at_
    let bits := (t.link a d p).errs
    let u := (t.setFld (Loc.plLinkBiterr 0) 31 0 bits (linkKey a d p)).modLink a d p fun x =>
      { x with errs := 0, winAt := t.clk.elapsed }
    let g := laneGroup a d p rx
    let v := u.sparesOut g.1 g.2 bad
    let x := v.link a d p
    let own := v.modLink a d p fun x => { x with lane := 0 }
    let old := laneGroup a d p (x.lane == 2)
    let cmd := Instr.laneErrorWindow a d p rx { oldOk := ok, sparesBad := bad }
    s.reaches at_ →
    (u.flag (Loc.plBunCtl (stPlinth (if rx = true then d else a))) 8 = false → exec cmd s = .next u) ∧
    (u.flag (Loc.plBunCtl (stPlinth (if rx = true then d else a))) 8 = true → exec cmd s = .next
      (if x.lanePend ≠ 0 then v
      else if bits > 1000 then
        (if x.lane = 0 then v.modLink a d p fun x => { x with lanePend := if rx = true then 2 else 1 }
        else (own.laneBack old true).wantRescue (if x.lane = 2 then d else a) p)
      else if x.lane = 0 then v else own.laneBack old ok)))

/-- LANTERN_FIT, LANTERN_LOCK and LANTERN_FAULT. A module fitted in an absent or faulted bay warms, its record is read and
its rail comes on when step 2 of the rails has come; in another bay nothing changes. A warming or faulted bay whose LF
input is quiet locks: L2 serves when the selector, at rest, names a side, and is locked otherwise; a primary serves
unless L2's switch stands at its side, and is then locked while L2 serves and shut while it does not. Another bay, or
one whose input is not quiet, does not lock. A fault of a bay that is not absent is shown; with L2's, a primary that
was locked beside it is shut. Each time the moment from which a side is dark is kept. (After R230, R232, R240 to R242,
R255.) SELECTOR_SETTLED, EMERGENCY_SWAP, SWAP_EAST, SWAP_WEST and LANTERN_RETURN. The selector comes to rest, at the
side that it was sent to, if any. With L2 spare-ready, or locked and on its way to a side, an emergency swap gives L2
a side at once: its serving primary is shut, L2 serves it, its links are held for 20 µs, the swap is counted and a
service error posted; without, nothing changes. A write of LN_CTL that reaches its register is rejected with the code
of its form; a command to swap is rejected with 0x05 unless L2 is spare-ready, and then the selector starts to move; a
command to return is rejected with 0x05 unless L2 serves a side whose primary is locked or shut, and then the return
is wanted. (After R231, R236 to R238, R241.) Next states are given for LANTERN_FIT, LANTERN_LOCK, LANTERN_FAULT,
SELECTOR_SETTLED, EMERGENCY_SWAP, SWAP_EAST, SWAP_WEST, LANTERN_RETURN. -/
def Obligations.BaysAndSidesOfLight : Prop :=
  (
  ∀ (s : State) (b : Fin 3),
    let held := if s.optics.swapTo.isNone = true then s.l2Side else none
    (∀ r : LanternRecord,
      let t := (s.setBay b 1).modOptics fun o => { o with lanterns := tset {} o.lanterns b r }
      (s.bay b ≠ 0 → s.bay b ≠ 4 → exec (.lanternFit { bay := b, record := r }) s = .next s) ∧
      (s.bay b = 0 ∨ s.bay b = 4 → exec (.lanternFit { bay := b, record := r }) s = .next
        (if t.power.rails < 2 then t else { t with power := { t.power with
          lnOn := b.val :: t.power.lnOn.filter (· != b.val), railFailed := t.power.railFailed.filter (· != 10 + b.val) } }))) ∧
    ((s.bay b ≠ 1 ∧ s.bay b ≠ 4) ∨ s.fld Loc.glSbSts 2 1 (6 + b) ≠ 0 → exec (.lanternLock b) s = .next s) ∧
    ((s.bay b = 1 ∨ s.bay b = 4) → s.fld Loc.glSbSts 2 1 (6 + b) = 0 → exec (.lanternLock b) s = .next
      (s.setBay b (if b.val = 2 then (if held.isSome = true then 3 else 2)
        else if held ≠ some b.val then 3 else if s.bay 2 = 3 then 2 else 5)).markDark) ∧
    (s.bay b = 0 → exec (.lanternFault b) s = .next s) ∧
    (s.bay b ≠ 0 →
      let t := s.setBay b 4
      (t.heldSide = none → exec (.lanternFault b) s = .next t.markDark) ∧
      (∀ e, t.heldSide = some e → exec (.lanternFault b) s = .next
        (if b.val = 2 ∧ t.bay e = 2 then t.setBay e 5 else t).markDark))) ∧
  (
  ∀ (s : State) (f : Func) (v : Word),
    (let t := s.setFlag Loc.lnLnSts 11 false
     (t.optics.swapTo = none → exec .selectorSettled s = .next t) ∧
     (∀ e, t.optics.swapTo = some e →
       exec .selectorSettled s = .next ((t.setFld Loc.lnLnSts 10 9 (e + 1)).modOptics fun o => { o with settled := true }))) ∧
    (∀ e : Side,
      let n := sideNat e
      let t := ((if s.bay n = 3 then s.setBay n 5 else s).setBay 2 3).setFld Loc.lnLnSts 10 9 (n + 1)
      let t := (t.modOptics fun o => { o with swapTo := none, settled := false, swapNow := false, ret := false }).sideMoved n
      let ready := s.spareReady || (s.bay 2 == 2 && s.optics.swapTo.isSome)
      (ready = false → exec (.emergencySwap e) s = .next s) ∧
      (ready = true → exec (.emergencySwap e) s = .next
        (((t.markDark.addWrap Loc.lnLnSwaps 31 16 1).bump 0xD00 3 n).post 0xD00 2 0x73 n 0))) ∧
    (let refused := fun k => s.reject f (Loc.lnLnCtl / 4096) (Loc.lnLnCtl % 4096) k
     let keep := fun w : Word => s.put Loc.lnLnCtl (BitVec.ofNat 32 (w.bits 1 0))
     (∀ (side : Nat) (c : Instr), (side, c) ∈ [(0, Instr.swapEast f v), (1, Instr.swapWest f v)] →
      let w := v.put 3 2 (side + 1)
      s.accepts f Loc.lnLnCtl w →
      (∀ k, formCheck (locFields Loc.lnLnCtl) w = some k → exec c s = .next (refused k)) ∧
      (wellFormedFor Loc.lnLnCtl w → exec c s = .next
        (if s.spareReady = true then (((keep w).setFlag Loc.lnLnSts 11 true).modOptics fun o =>
          { o with swapTo := some side, swapLine := 0, settled := false }).managed else refused 5))) ∧
     (let w := v.put 3 2 3
      s.accepts f Loc.lnLnCtl w →
      (∀ k, formCheck (locFields Loc.lnLnCtl) w = some k → exec (.lanternReturn f v) s = .next (refused k)) ∧
      (wellFormedFor Loc.lnLnCtl w →
        (s.l2Side = none → exec (.lanternReturn f v) s = .next (refused 5)) ∧
        (∀ e, s.l2Side = some e → exec (.lanternReturn f v) s = .next
          (if s.bay 2 = 3 ∧ (s.bay e = 2 ∨ s.bay e = 5) then ((keep w).modOptics fun o => { o with ret := true }).managed
          else refused 5))))))

/-- ANOM_RECORD: when a side's nominal amplitudes are due, those of the links whose source lies on that side are recorded
and they are due no more; those of every other link stay, and no other part of the device changes. When they are not
due nothing changes. (After R233.) ROTATION_ROW_START, RECAL_BUFFERS_EMPTY, RECAL_ABANDON, SWEEP_DONE and RECAL_GO.
With a holder, CAL_CTL.EN 1 and no row of the rotation under way, the next row of the rotation is taken when it falls
due, or skipped and counted when its station has trouble. A row whose buffers are empty within 20 µs goes to the
sextant, which it sends a probe; one whose buffers are not is given up when 20 µs have passed, and counted; each
leaves the other alone. A finished sweep, once the side's links are no longer held, puts what it found in force and
the links train. A write of RECAL with GO = 1 that reaches its register is rejected with the code of its form, and
with 0x06 when the selected row is masked for a sweep or in one; otherwise a recalibration of it is wanted. (After
R250 to R254.) THERMAL_MAP_PUBLISH: when the map is due, every 64 ticks, both plinths publish theirs, the sums of the
rows start anew and the map is due no more; nothing but registers and the optics' own record changes. When it is not
due nothing changes. (After R257.) Next states are given for ANOM_RECORD, ROTATION_ROW_START, RECAL_BUFFERS_EMPTY,
RECAL_ABANDON, SWEEP_DONE, RECAL_GO, THERMAL_MAP_PUBLISH. -/
def Obligations.RowsAndAmplitudesAreFollowed : Prop :=
  (
  ∀ (s : State) (e : Side) (amps : List (Fin 48 × Fin 48 × Fin 4 × Nat)),
    (lget false s.optics.anomDue (sideNat e) = false → exec (.anomRecord e amps) s = .next s) ∧
    (lget false s.optics.anomDue (sideNat e) = true →
      let t := s.modOptics fun o => { o with
        anomDue := o.anomDue.set (sideNat e) false
        anom := amps.foldl (fun t a => if stSide a.1 = sideNat e then tset 0 t (linkKey a.1 a.2.1 a.2.2.1) a.2.2.2 else t) o.anom }
      exec (.anomRecord e amps) s = .next t ∧ Frame [.optics] s t ∧ lget false t.optics.anomDue (sideNat e) = false ∧
      ∀ key, (∀ a ∈ amps, stSide a.1 = sideNat e → linkKey a.1 a.2.1 a.2.2.1 ≠ key) → twf (fun _ => 0) s.optics.anom = true →
        tget 0 t.optics.anom key = tget 0 s.optics.anom key)) ∧
  (
  ∀ (s : State),
    (s.holder ≠ none → s.flag (Loc.plCalCtl 0) 8 = true → (∀ w ∈ s.optics.sweeps, w.rescue = true) →
      let at_ := s.optics.rotAt + s.fld (Loc.plCalCtl 0) 7 0 * 100000000 / 184
      let t := s.atTime at_
      let pos := t.fld (Loc.plCalSts 0) 7 0
      let r := rotRow pos
      let u := ((t.modOptics fun o => { o with rotAt := t.clk.elapsed }).setFld (Loc.plCalSts 0) 7 0 ((pos + 1) % 184)).setFld
        (Loc.plCalSts 1) 7 0 ((pos + 1) % 184)
      s.reaches at_ → exec .rotationRowStart s = .next
        (if u.rowTrouble r.1 = true then
          ((u.addSat (Loc.plCalSts (stPlinth r.1)) 31 16 1).plEvent 9 r.1 1).calEvent 5 r.1
        else u.modOptics fun o => { o with sweeps := o.sweeps ++ [({ st := r.1, plane := r.2 } : Sweeping)] })) ∧
    (∀ (st : Fin 48) (p : Fin 4),
      (s.sweepOf st p 1 = none → exec (.recalBuffersEmpty st p) s = .next s ∧ exec (.recalAbandon st p) s = .next s) ∧
      (∀ w : Sweeping, s.sweepOf st p 1 = some w →
        let empty := s.rowEmpty w.st w.plane && decide (s.clk.elapsed ≤ w.since + 20000)
        let x := 23 + p.val / 2
        let t := s.setSweep w 2
        let q := (t.link st x p).next
        let u := (s.atTime (w.since + 20000)).setSweep w 3
        (empty = true → exec (.recalAbandon st p) s = .next s ∧ exec (.recalBuffersEmpty st p) s = .next
          ((t.sendUnit st x p false q [{ op := 0x32 }]).modLink st x p fun y => { y with next := (q + 1) % 1024 })) ∧
        (empty = false → exec (.recalBuffersEmpty st p) s = .next s ∧
          (s.reaches (w.since + 20000) → exec (.recalAbandon st p) s = .next
            (((u.addSat (Loc.plCalSts (stPlinth st)) 31 16 1).plEvent 9 st 1).calEvent 5 st))))) ∧
    (∀ (st : Fin 48) (p : Fin 4) (r : Sweep),
      (s.sweepOf st p 2 = none → exec (.sweepDone st p r) s = .next s) ∧
      (∀ w : Sweeping, s.sweepOf st p 2 = some w →
        let at_ := lget 0 s.optics.hold (stSide st)
        let u := ((s.atTime at_).sweptRow st p false r.tx).sweptRow st p true r.rx
        s.reaches at_ →
        exec (.sweepDone st p r) s = .next ((((u.calEvent 3 st).trainRow st p r.linksUp).setSweep w 3).settleAll))) ∧
    (∀ (f : Func) (e : Side) (v : Word),
      let w := v.put 0 0 1
      let loc := Loc.plRecal (sideNat e)
      s.accepts f loc w →
      let refused := fun k => s.reject f (loc / 4096) (loc % 4096) k
      let sel := s.get (Loc.plRowSel (sideNat e))
      let st := if sideNat e = 0 then sel.bits 4 0 else 47 - sel.bits 4 0
      let p := sel.bits 9 8
      (∀ k, formCheck (locFields loc) w = some k → exec (.recalGo f e v) s = .next (refused k)) ∧
      (wellFormedFor loc w → exec (.recalGo f e v) s = .next
        (if (s.optics.sweeps.any fun x => x.st == st && x.plane == p && (x.phase == 1 || x.phase == 2)) = true then refused 6
        else (s.wantRescue st p).managed)))) ∧
  (
  ∀ s : State,
    (s.optics.mapDue = false → exec .thermalMapPublish s = .next s) ∧
    (s.optics.mapDue = true →
      let t := ((s.publishMap 0).publishMap 1).modOptics fun o => { o with
        mapDue := false
        rows := o.rows.filterMap fun e =>
          let r : Row := { e.2 with sum := 0, gap := false }
          if r = {} then none else some (e.1, r) }
      exec .thermalMapPublish s = .next t ∧ t.optics.mapDue = false ∧
      (∀ e ∈ t.optics.rows, e.2.sum = 0 ∧ e.2.gap = false) ∧ Frame [.regs, .optics] s t))

/-- LIGHT_DETECT, CODEWORD_LOCK_GAIN, CODEWORD_LOCK_LOSS and PORT_TRAIN_RETRY. An enabled port that is off, with light on
its lanes and its fibre whole, locks its rings on all eight lanes and begins to train; another does not. The code
words that come to a port without lock, or with it, are read one by one. A word at a port that is off, failed, without
light or cut brings nothing. Another is decoded and its corrections counted: four in a row with matching CW_SEQ give
an unlocked port lock, which brings one with light to locked and lets one that is up send again; eight uncorrectable
in a row take the lock of a port, which brings one in training back to light and marks the stall of one that is up;
the flits of any other word at a locked port are taken in order. Training that has taken 1 s fails, and begins again
100 ms later; a port that is off, up, failed or not enabled does not. (After R264 to R268, R273.)
TRAINING_FLIT_RECEIVE. The code words that come to a port in training are read one by one; at another port nothing
changes. At a port in training a flit that is no whole training flit ends the run. A training flit, unless training
has failed: without ACK it begins the run anew; with ACK it lengthens the run when its contents are those of the last,
apart from the times, and begins one of its own otherwise. The sixteenth of a run fails the training when the mean
round trip is above 10 µs; otherwise, once 16 of the port's own flits have left, the link is up with the partner's
pools. (After R272, R273.) Next states are given for LIGHT_DETECT, CODEWORD_LOCK_GAIN, CODEWORD_LOCK_LOSS,
PORT_TRAIN_RETRY, TRAINING_FLIT_RECEIVE. -/
def Obligations.PortsComeUp : Prop :=
  (
  ∀ (s : State) (port : Fin 32),
    (let ready := s.portLive port && !s.portCut port && decide (s.portState port = 0) && decide (s.portCtl port 0 0 ≠ 0)
     (ready = false → exec (.lightDetect port) s = .next s) ∧
     (ready = true → exec (.lightDetect port) s = .next
        (((s.setFld (Loc.ocPortSts (port / 16)) 10 3 0xFF (port % 16)).setPortState port 1).modPort port fun x =>
          { x with train := { since := s.clk.elapsed } }))) ∧
    (∀ words : List (BitVec 5440),
      let t := (words.foldl (fun (s : State) w => s.wordIn port w) s).settleAll
      exec (.codewordLockGain { port := port, words := words }) s = .next (if (s.port port).locked = true then s else t) ∧
      exec (.codewordLockLoss { port := port, words := words }) s = .next (if (s.port port).locked = true then t else s)) ∧
    (∀ w : BitVec 5440,
      let h := (s.port port).hear (s.portState port ≠ 4) w.toNat
      let u := (s.modPort port fun _ => h.1).wordCount port h.2.1
      let deaf := s.portState port = 0 ∨ s.portState port = 5 ∨ s.portLive port = false ∨ s.portCut port = true
      (deaf → s.wordIn port w = s) ∧
      (¬ deaf → (s.port port).locked = false →
        let v := u.modPort port fun x => { x with locked := true }
        s.wordIn port w = if h.1.okRun < 4 then u
          else if v.portState port = 1 then v.setPortState port 2 else if v.portState port = 4 then v.pump port else v) ∧
      (¬ deaf → (s.port port).locked = true →
        let v := u.modPort port fun x => { x with locked := false, lostAt := u.clk.elapsed, part := none }
        s.wordIn port w = if h.1.badRun < 8 then h.2.2.foldl (fun (s : State) x => s.unitIn port x) u
          else if v.portState port = 2 ∨ v.portState port = 3 then v.portDown port 1 else v.stallMark port)) ∧
    (let trains := (s.portState port = 1 ∨ s.portState port = 2 ∨ s.portState port = 3) ∧ s.portCtl port 0 0 ≠ 0
     let again := fun t : State => t.portDown port (if (t.port port).locked = true then 2 else 1)
     ((s.portState port = 0 ∨ 4 ≤ s.portState port ∨ s.portCtl port 0 0 = 0) → exec (.portTrainRetry port) s = .next s) ∧
     (trains → (s.port port).train.failed = none →
        let at_ := (s.port port).train.since + 1000000000
        s.reaches at_ → exec (.portTrainRetry port) s = .next ((again (s.atTime at_)).modPort port fun x =>
          { x with train := { x.train with failed := some (s.atTime at_).clk.elapsed } })) ∧
     (trains → ∀ t0 : Nat, (s.port port).train.failed = some t0 → s.reaches (t0 + 100000000) →
        exec (.portTrainRetry port) s = .next (again (s.atTime (t0 + 100000000)))))) ∧
  (
  ∀ (s : State) (port : Fin 32),
    (s.portState port ≠ 2 → s.portState port ≠ 3 → ∀ words, exec (.trainingFlitReceive port words) s = .next s) ∧
    ((s.portState port = 2 ∨ s.portState port = 3) →
     (∀ words : List (BitVec 5440), exec (.trainingFlitReceive port words) s = .next
        (words.foldl (fun (s : State) w => s.wordIn port w) s).settleAll) ∧
     (∀ x : FUnit, s.unitIn port x = if x.spoiled = false ∧ x.v % 4 = 2 ∧ (readFabric x.v 1).good = true then s.trainFlit port (trainOf x.v)
        else s.modPort port fun y => { y with train := { y.train with run := 0 } }) ∧
     (∀ f : TrainFlit,
        let u := s.setPortState port 3
        let x := (u.port port).train
        let rt := (u.clk.count + 2 ^ 33 - f.echoTime.toNat - f.holdNs.toNat) % 2 ^ 32
        let same := decide (x.last = none ∨ x.last = some (steady f))
        let acked := some (x.acked.getD u.clk.elapsed)
        let run := if same = true then x.run + 1 else 1
        let rtt := if same = true then x.rtt + rt else rt
        let v := u.modPort port fun y => { y with train := { x with run := run, rtt := rtt, last := some (steady f), acked := acked } }
        let at_ := x.acked.getD u.clk.elapsed + 11
        ((s.port port).train.failed ≠ none → s.trainFlit port f = s) ∧
        ((s.port port).train.failed = none →
          (f.ack = false → s.trainFlit port f = u.modPort port fun y =>
            { y with train := { since := x.since, last := some (steady f), acked := acked } }) ∧
          (f.ack = true →
            (run < 16 → s.trainFlit port f = v) ∧
            (16 ≤ run → 10000 < rtt / run → s.trainFlit port f = v.trainFails port) ∧
            (16 ≤ run → rtt / run ≤ 10000 → v.reaches at_ → s.trainFlit port f = (v.atTime at_).linkUp port (rtt / run) f))))))

/-- FABRIC_BUNDLE_RECEIVE, FABRIC_IDLE_FLIT and FABRIC_RETRY_TIMEOUT. At a port that is up the code words that come are
read one by one; at another nothing changes. A bundle with a bad CRC, of a reserved kind or with an empty first slot
is counted, asks for a resend and is discarded: its flits are free again. One of the training kind brings nothing. The
link word of a good one acknowledges, returns credits to its pool, and with NAK has the rest sent again. A bundle with
the expected number is delivered packet by packet and its head flit is free again; while a resend is awaited another
is discarded; so is a duplicate, up to 2,048 below; any other number asks for a resend. A port that is up with
unacknowledged bundles and no progress for RETRY_TMO sends them again, or fails after RETRY_MAX times with lock.
(After R209, R270, R271, R274.) SYMBOL_ERROR_WINDOW and PORT_FAIL. At the end of a millisecond the symbols corrected
in it, those of its last code words too, are judged and counted anew. From 8,500 on a corrected error is posted once
per crossing. From 85,000 on a port that is up trains anew, or fails when it did so within the last second. A port
that is up fails when it has been without lock for longer than LOCK_LOSS_US, for RETRY_MAX resends of one bundle, or
for its error rate; a port that is not up, or for which the cause does not hold, does not fail. (After R269, R274.)
Next states are given for FABRIC_BUNDLE_RECEIVE, FABRIC_IDLE_FLIT, FABRIC_RETRY_TIMEOUT, SYMBOL_ERROR_WINDOW,
PORT_FAIL. -/
def Obligations.FabricLinksMoveAndFail : Prop :=
  (
  ∀ (s : State) (port : Fin 32),
    (∀ words : List (BitVec 5440),
      let t := if s.portState port = 4 then (words.foldl (fun (s : State) w => s.wordIn port w) s).settleAll else s
      exec (.fabricBundleReceive port words) s = .next t ∧ exec (.fabricIdleFlit port words) s = .next t) ∧
    (∀ b : FBundle,
      let e := port.val / 16
      let i := port.val % 16
      let drop := fun t : State => if b.pkts.isEmpty = true then t
        else t.freeFlits port (if b.sh = true then 11 else pktPool (b.pkts.headD {})) (1 + (b.pkts.map pktData).sum)
      let broken := !b.good || b.kind == 3 || (b.kind == 1 && b.pkts.isEmpty)
      let w := s.ackTo port b.ackSeq
      let w := if b.cpool ≤ 11 then w.modPort port fun x => { x with credit := lmod x.credit b.cpool fun c => c + 8 * b.credit } else w
      let u := (if b.nak = true then w.resendAll port else w).pump port
      let x := u.port port
      (broken = true → s.takeFabric port b = drop
        ((((s.addWrap (Loc.ocPortCrc e) 31 0 1 i).ocEvent e 5 i 1).modPort port fun x => { x with skip := true, nak := true }))) ∧
      (broken = false →
        (b.kind = 2 → s.takeFabric port b = s) ∧
        (b.kind = 0 → s.takeFabric port b = u) ∧
        (b.kind = 1 → s.takeFabric port b =
          if b.seq = x.expect then
            (b.pkts.foldl (fun (s : State) k => s.arrive port b.sh k) (u.modPort port fun x =>
              { x with expect := (x.expect + 1) % 4096, any := true, skip := false, nak := false })).freeFlits port
                (if b.sh = true then 11 else pktPool (b.pkts.headD {})) 1
          else if x.skip = true then drop u
          else if 1 ≤ seqDist x.expect b.seq ∧ seqDist x.expect b.seq ≤ 2048 then drop (u.modPort port fun x => { x with nak := false })
          else drop (u.modPort port fun x => { x with nak := true })))) ∧
    ((s.portState port ≠ 4 ∨ (s.port port).retry = []) → exec (.fabricRetryTimeout port) s = .next s) ∧
    (s.portState port = 4 → (s.port port).retry ≠ [] →
      let at_ := (s.port port).ackAt + 100 * s.portCtl port 28 21
      s.reaches at_ → exec (.fabricRetryTimeout port) s = .next (((s.atTime at_).resendAll port).pump port).settleAll) ∧
    ((s.port port).retry ≠ [] →
      let x := s.port port
      let t := s.modPort port fun y =>
        { y with again := y.retry, ackAt := s.clk.elapsed, resent := if x.locked = true then y.resent + 1 else y.resent }
      s.resendAll port = if x.locked = true ∧ x.resent + 1 ≥ t.portCtl port 20 16 then t.failPort port 1 else t)) ∧
  (
  ∀ (s : State) (port : Fin 32),
    (∀ words : List (BitVec 5440),
     let at_ := (s.port port).winAt + 1000000
     let t := words.foldl (fun (s : State) w => s.wordIn port w) (s.atTime at_)
     let n := (t.port port).syms
     let e := port.val / 16
     let u := t.modPort port fun x => { x with syms := 0, winAt := t.clk.elapsed }
     let v := if n ≥ 8500 ∧ (u.port port).crossed = false then u.post (ocPage e 1) 0 0x80 (port % 16) n else u
     let w := v.modPort port fun x => { x with crossed := decide (n ≥ 8500) }
     let soon := fun r : Nat => decide (w.clk.elapsed < r + 1000000000)
     let anew := ((w.portDown port 3).showPorts e).modPort port fun x => { x with retrained := some w.clk.elapsed }
     s.reaches at_ →
     (n < 85000 ∨ w.portState port ≠ 4 → exec (.symbolErrorWindow port words) s = .next w.settleAll) ∧
     (85000 ≤ n → w.portState port = 4 →
       ((w.port port).retrained.any soon = false → exec (.symbolErrorWindow port words) s = .next anew.settleAll) ∧
       ((w.port port).retrained.any soon = true → exec (.symbolErrorWindow port words) s = .next
         ((w.modPort port fun x => { x with tooMany := true }).failPort port 2).settleAll))) ∧
    (s.portState port ≠ 4 → ∀ cause, exec (.portFail port cause) s = .next s) ∧
    (s.portState port = 4 →
      ((s.port port).locked = true → exec (.portFail port 0) s = .next s) ∧
      ((s.port port).locked = false →
        let at_ := (s.port port).lostAt + 1000 * s.portCtl port 15 8 + 1
        s.reaches at_ → exec (.portFail port 0) s = .next ((s.atTime at_).failPort port 0).settleAll) ∧
      exec (.portFail port 1) s = .next
        (if (s.port port).resent < s.portCtl port 20 16 then s else (s.failPort port 1).settleAll) ∧
      exec (.portFail port 2) s = .next (if (s.port port).tooMany = true then (s.failPort port 2).settleAll else s)))

/-- FLINK_QUERY, FLINK_REPLY and FLINK_REPLY_TIMEOUT. A packet that waits at a port is taken from it. A query about the
failed link to a port of the sender is answered with the last number delivered on it, 4,095 before the first; one
about a link to no port of it is dropped. A reply that is awaited drops the bundles up to its number and routes the
packets of the rest afresh; one that is not awaited is dropped. When no reply has come for 200 µs the packets of the
bundles asked about are lost with 0x32. (After R291.) MAP_EPOCH_END and CMAP. At the end of an epoch each oculus sends
its map, East first; one that has none due does not, one whose maps are not enabled or have no destination drops it;
else the 32 records of the epoch, those of the other oculus zero, go in a CMAP packet to MAP_DST.DEV, to the module's
own manager without leaving it, and sealed into the fabric otherwise. A map that opens under the management key, or
needs none, is accepted, and any other is discarded and counted. (After R297, R416.) Next states are given for
FLINK_QUERY, FLINK_REPLY, FLINK_REPLY_TIMEOUT, MAP_EPOCH_END, CMAP. -/
def Obligations.FailedPortsAndMaps : Prop :=
  (
  ∀ (s : State),
    (∀ (k : Pkt),
      let u := s.takeHeld k
      let link := (List.range 32).find? fun p =>
        let w := u.get (Loc.ocPortPeer (p / 16)) (p % 16)
        w.bits 15 0 == k.srcDev.toNat && w.bits 20 16 == k.opt.toNat % 32 && w != 0
      (link = none → exec (.flinkQuery k) s = .next u) ∧
      (∀ p, link = some p →
        let last := if (u.port p).any = true then ((u.port p).expect + 4095) % 4096 else 4095
        exec (.flinkQuery k) s = .next ((u.sendOrDrop (s.heldAt k)
          { op := 0x2C, dstDev := k.srcDev, srcDev := BitVec.ofNat 16 u.ownDev, seq := k.seq
            opt := BitVec.ofNat 24 (k.opt.toNat % 32 + last * 32) }).settleAll))) ∧
    (∀ k : Pkt, let u := s.takeHeld k
      let p := k.opt.toNat % 32
      ((u.port p).askedAt = none → exec (.flinkReply k) s = .next u) ∧
      ((u.port p).askedAt ≠ none →
        let rest := (u.port p).asked.dropWhile fun b => decide (seqDist (bitsOf k.opt.toNat 16 5) b.seq < 2048)
        exec (.flinkReply k) s = .next
          (((rest.flatMap fun (b : Sent) => b.pkts).foldl (fun (s : State) k => s.reroute (p / 16) k)
            (u.modPort p fun x => { x with asked := [], askedAt := none })).settleAll))) ∧
    (∀ (port : Fin 32),
      ((s.port port).askedAt = none → exec (.flinkReplyTimeout port) s = .next s) ∧
      (∀ at_, (s.port port).askedAt = some at_ → s.reaches (at_ + 200000) →
        let t := s.atTime (at_ + 200000)
        exec (.flinkReplyTimeout port) s = .next
          ((((t.port port).asked.flatMap fun (b : Sent) => b.pkts).foldl (fun (s : State) k => s.lostPkt (port / 16) k 0x32)
            (t.modPort port fun x => { x with asked := [], askedAt := none })).settleAll)))) ∧
  (
  ∀ (s : State), exec .mapEpochEnd s = .next ((s.sendMap 0).sendMap 1) ∧
    (∀ (e : Side), let n := sideNat e
      ((s.oculus n).mapDue = none → s.sendMap n = s) ∧
      (∀ l, (s.oculus n).mapDue = some l →
        let t := s.modOculus n fun o => { o with mapDue := none }
        let dst := t.get (Loc.ocMapDst n)
        let data := (List.range 32).flatMap fun i => leBytes 8 (if i / 16 = n then l.getD (i % 16) 0 else 0)
        let k : Pkt := { op := 0x1B, dstDev := BitVec.ofNat 16 (dst.bits 15 0), srcDev := BitVec.ofNat 16 t.ownDev
                         opt := BitVec.ofNat 24 (t.get (Loc.ocMapEpoch n)).toNat, nflit := 4, data := data }
        s.sendMap n = if t.flag (Loc.ocMapCtl n) 8 = false ∨ dst.bit 16 = false then t
          else if t.isOwn (dst.bits 15 0) = true then t.modPort (16 * n) fun x => { x with held := x.held ++ [(k, 12)] }
          else (t.sealMap n k).1.forwardMap n (t.sealMap n k).2)) ∧
    (∀ (k : Pkt) (r : State × Pkt), (s.takeHeld k).openMgmt k = some r → exec (.cmap k) s = .next r.1) ∧
    (∀ k : Pkt, (s.takeHeld k).openMgmt k = none →
      exec (.cmap k) s = .next (((s.takeHeld k).ocEvent (s.heldAt k) 0xB 0 1).mgmtDrop k)))

/-- ROUTE_LOAD, MCG_LOAD, ROUTE_LOAD_ENTRY and MCG_LOAD_ENTRY. A write of ROUTE_LOAD or MCG_LOAD with GO = 1 that reaches
its register is rejected with the code of the bulk-load check; otherwise BUSY becomes 1 and the load asks for its
first line. While the line of the next entry has not come, the load asks for it; an entry that came is kept with those
before it when its form is right and rejected with its code when it is wrong; one that could not be read changes
nothing. The load then goes on with the next; after the last BUSY is 0 and every entry kept waits for the tick.
Without a load nothing changes. (After R31, R290, R292.) PORT_RETRAIN and RING_CTL_WRITE. A write of PORT_CTL with
RETRAIN = 1 that reaches its register is rejected with the code of its form; otherwise PORT_CTL of the selected port
keeps the word without RETRAIN, and the port trains anew when it is enabled, goes down when it was enabled and is no
more, and stays as it is else. A write of RING_CTL that reaches its register is rejected with the code of its form,
and with 0x02 when it sets FORCE_BYPASS of the West; otherwise RING_CTL takes the word; at the East FORCE_BYPASS moves
the bypass to its through state, and clearing it moves it back while the East oculus is in service and no fault of the
whole module is shown. (After Table FT-15, R294.) Next states are given for ROUTE_LOAD, MCG_LOAD, ROUTE_LOAD_ENTRY,
MCG_LOAD_ENTRY, PORT_RETRAIN, RING_CTL_WRITE. -/
def Obligations.FabricTablesLoad : Prop :=
  (
  ∀ (s : State) (f : Func) (e : Side) (v : Word),
    let n := sideNat e
    let go := v.put 31 31 1
    let start := fun (loc : Loc) (w : LoadAt) (b : BulkLoad) =>
      (((s.put loc ((go.put 31 31 0).put 30 30 1)).setLoad w (some b)).askLoad w).managed
    let more := fun (t : State) (loc : Loc) (w : LoadAt) (b : BulkLoad) (size m : Nat) (got : List (Nat × List Nat)) =>
      if b.left ≤ 1 then (t.setLoad w none).setFlag loc 30 false
      else (t.setLoad w (some { b with next := (b.next + 1) % m, left := b.left - 1, addr := b.addr + size, got := got })).askLoad w
    (let loc := Loc.ocRouteLoad n
     let b : BulkLoad := { next := s.fld (Loc.ocRouteFirst n) 15 0, left := go.bits 16 0, addr := s.addrOf (Loc.ocRouteBaseLo n), f := f }
     let check := s.bulkCheck loc go b.addr b.next b.left 65536 65536 4
     (s.accepts f loc go → (∀ k, check = some k → exec (.routeLoad f e v) s = .next (s.reject f (loc / 4096) (loc % 4096) k)) ∧
       (check = none → exec (.routeLoad f e v) s = .next (start loc (.route n) b)))) ∧
    (let loc := Loc.ocMcgLoad n
     let b : BulkLoad := { next := go.bits 11 0, left := go.bits 24 12, addr := s.addrOf (Loc.ocMcgBaseLo n), f := f }
     let check := s.bulkCheck loc go b.addr b.next b.left 4096 4096 256
     (s.accepts f loc go → (∀ k, check = some k → exec (.mcgLoad f e v) s = .next (s.reject f (loc / 4096) (loc % 4096) k)) ∧
       (check = none → exec (.mcgLoad f e v) s = .next (start loc (.mcg n) b)))) ∧
    ((s.oculus n).routeLoad = none → exec (.routeLoadEntry e) s = .next s) ∧
    ((s.oculus n).mcgLoad = none → exec (.mcgLoadEntry e) s = .next s) ∧
    (∀ b : BulkLoad, (s.oculus n).routeLoad = some b →
      let loc := Loc.ocRouteLoad n
      let goOn := fun (t : State) (got : List (Nat × List Nat)) =>
        let t := more t loc (.route n) b 4 65536 got
        if b.left ≤ 1 then got.foldl (fun (s : State) g => s.pendWord (Loc.ocRouteData n) (BitVec.ofNat 32 (g.2.getD 0 0)) g.1) t else t
      (b.entry 4 = none → exec (.routeLoadEntry e) s = .next (s.askLoad (.route n))) ∧
      (b.entry 4 = some none → exec (.routeLoadEntry e) s = .next (goOn s b.got)) ∧
      (∀ w, b.entry 4 = some (some w) → exec (.routeLoadEntry e) s = .next
        (if bitsOf (w.getD 0 0) 30 25 ≠ 0 then goOn (s.reject b.f (loc / 4096) (loc % 4096) 1) b.got
        else goOn s (b.got ++ [(b.next, w)])))) ∧
    (∀ b : BulkLoad, (s.oculus n).mcgLoad = some b →
      let loc := Loc.ocMcgLoad n
      let goOn := fun (t : State) (got : List (Nat × List Nat)) =>
        let t := more t loc (.mcg n) b 256 4096 got
        if b.left ≤ 1 then got.foldl (fun (s : State) g => s.pendGroup n g.1 g.2) t else t
      (b.entry 256 = none → exec (.mcgLoadEntry e) s = .next (s.askLoad (.mcg n))) ∧
      (b.entry 256 = some none → exec (.mcgLoadEntry e) s = .next (goOn s b.got)) ∧
      (∀ w, b.entry 256 = some (some w) →
        (∀ k, mcgCheck (w.getD 0 0) = some k → exec (.mcgLoadEntry e) s = .next (goOn (s.reject b.f (loc / 4096) (loc % 4096) k) b.got)) ∧
        (mcgCheck (w.getD 0 0) = none → exec (.mcgLoadEntry e) s = .next (goOn s (b.got ++ [(b.next, w)])))))) ∧
  (
  ∀ (s : State) (f : Func) (e : Side) (v : Word),
    (let w := v.put 1 1 1
     let n := sideNat e
     let loc := Loc.ocPortCtl n
     s.accepts f loc w →
     let i := s.fld (Loc.ocPortSel n) 3 0
     let p := 16 * n + i
     let t := s.put loc (w.put 1 1 0) i
     (∀ k, formCheck (locFields loc) w = some k → exec (.portRetrain f e v) s = .next (s.reject f (loc / 4096) (loc % 4096) k).settleAll) ∧
     (wellFormedFor loc w → exec (.portRetrain f e v) s = .next
       ((if w.bit 0 = true then t.retrainPort p
        else if s.portCtl p 0 0 = 1 then ((t.portDown p 0).showPorts n).flinkAsk p else t).managed).settleAll)) ∧
    (let n := sideNat e
     let loc := Loc.ocRingCtl n
     s.accepts f loc v →
     let refused := fun k => s.reject f (loc / 4096) (loc % 4096) k
     let t := s.put loc v
     (∀ k, formCheck (locFields loc) v = some k → exec (.ringCtlWrite f e v) s = .next (refused k)) ∧
     (wellFormedFor loc v → exec (.ringCtlWrite f e v) s = .next
       (if n = 1 then (if v.bit 0 = true then refused 2 else t.managed)
       else if v.bit 0 = true then (t.moveBypass true).managed
       else if s.flag loc 0 = true ∧ (t.oculus 0).out = 0 ∧ t.flag Loc.glFaultSts 0 = false then (t.moveBypass false).managed
       else t.managed))))

/-- FAB_LOAD, FAB_STORE, STORE_MASKED, ATOMIC, REDUCE, MSG, TALLY and SIGNAL. A packet of another operation, or for an
oculus that is out, changes nothing; a packet for another device is passed on. A request of this device leaves the
port that held it and is checked; one that fails is answered with its status. One that passes goes to its die at once
where nothing combines it: it waits unchanged while it cannot be sent, is on its way, or is answered with the status
met at once; where the combining engine takes it in, it waits unchanged while there is no room. Its completion is
sealed when the request was. (After R301, R307.) The receive-side check asks in this order: the form (0x10), the
authentication (0x14), and then, where the operation is not a message or tally, the entry of the tag (0x11), for
SIGNAL the right and the counting slots of its tag (0x13), for any other the window that holds its bytes (0x11), the
window's right for its operation (0x12) and, where it asks for an increment, the counting slots of its tag (0x13).
Each failure is counted and the first recorded in WIN_REJ. A sealed packet that opens under no key of its tag fails
its authentication, and so does one of another device that is not sealed when its tag is sealed. (After R307, R320,
R321.) Next states are given for FAB_LOAD, FAB_STORE, STORE_MASKED, ATOMIC, REDUCE, MSG, TALLY, SIGNAL. -/
def Obligations.RequestsOfOtherDevices : Prop :=
  (
  ∀ (s : State) (e : Side) (k : Pkt) (c : Instr) (op : Nat),
    (c, op) ∈ [(Instr.fabLoad e k, 1), (.fabStore e k, 2), (.storeMasked e k, 3), (.atomic e k, 4), (.reduce e k, 5), (.msg e k, 7),
      (.tally e k, 8), (.signal e k, 9)] →
    let n := sideNat e
    (k.op ≠ BitVec.ofNat 6 op ∨ (s.oculus n).out ≠ 0 → exec c s = .next s) ∧
    (k.op = BitVec.ofNat 6 op → (s.oculus n).out = 0 →
      (s.isOwn k.dstDev.toNat = false → exec c s = .next (s.passOn n 0 k)) ∧
      (s.isOwn k.dstDev.toNat = true →
        (∀ t st, (s.takeHeld k).checkReq n k = .fail t st → exec c s = .next (t.answer n k st []).settleAll) ∧
        (∀ t q w, (s.takeHeld k).checkReq n k = .pass t q w ∨ ((s.takeHeld k).checkReq n k = .land t q ∧ w = 0) →
          let r : Pkt := { q with tagf := k.tagf }
          (t.direct n r w = true →
            (t.letIn n r w none = none → exec c s = .next s) ∧
            (∀ u, t.letIn n r w none = some (u, none) → exec c s = .next u.settleAll) ∧
            (∀ u st, t.letIn n r w none = some (u, some st) → exec c s = .next (u.answer n r st []).settleAll)) ∧
          (t.direct n r w = false →
            (t.joinComb n r w = none → exec c s = .next s) ∧
            (∀ u, t.joinComb n r w = some u → exec c s = .next u.settleAll)))))) ∧
  (
  ∀ (s : State) (n : Nat) (k : Pkt),
    (formOk k = false → s.checkReq n k = .fail (s.winReject n k 0x10) 0x10) ∧
    (formOk k = true →
      let sealed := s.flag (Loc.ocTagDir 0) 5 k.jobTag.toNat = true
      let other := k.srcDev.toNat ≠ s.ownDev
      let rest := fun (t : State) (q : Pkt) =>
        let tag := q.jobTag.toNat
        (q.op = 7 ∨ q.op = 8 → s.checkReq n k = .land t q) ∧
        (q.op ≠ 7 → q.op ≠ 8 →
          let bad := fun st => s.checkReq n k = .fail (t.winReject n q st) st
          (t.flag (Loc.ocTagDir 0) 0 tag = false → bad 0x11) ∧
          (t.flag (Loc.ocTagDir 0) 0 tag = true →
            (q.op = 9 →
              (t.flag (Loc.ocTagDir 0) 4 tag = false ∨ t.tagSlots tag = false → bad 0x13) ∧
              (t.flag (Loc.ocTagDir 0) 4 tag = true → t.tagSlots tag = true → s.checkReq n k = .pass t q 0)) ∧
            (q.op ≠ 9 →
              (t.findWin tag q.addr.toNat q.len.toNat = none → bad 0x11) ∧
              (∀ w, t.findWin tag q.addr.toNat q.len.toNat = some w →
                let right := (t.winWord tag w 0).bit (rightBit q.op.toNat)
                (right = false → bad 0x12) ∧
                (right = true → q.csEn = true → t.tagSlots tag = false → bad 0x13) ∧
                (right = true → (q.csEn = false ∨ t.tagSlots tag = true) → s.checkReq n k = .pass t q w)))))
      (k.tagf = false → sealed → other → s.checkReq n k = .fail (s.winReject n k 0x14) 0x14) ∧
      (k.tagf = false → ¬(sealed ∧ other) → rest s k) ∧
      (k.tagf = true → s.openPkt false k = none → s.checkReq n k = .fail (s.winReject n k 0x14) 0x14) ∧
      (k.tagf = true → ∀ r, s.openPkt false k = some r → rest r.1 r.2)))

/-- How an admitted request goes to its die and ends. A load, store, atomic or reduction is asked of the gatehouse of its
line; a transaction for a die takes the oculus station that its hash number chooses, waits while that has no
identifier free, and is answered at once with the status of its destination, or with 0x33 without a path. A SIGNAL
waits while the home of its tag is in reset. When the die has answered, a load, store, atomic or reduction that was
applied has its increment counted, an answer RETRY is counted, and the completion goes, with data only for status 0,
to the device that sent the request or to the own transaction that it belongs to. (After R285, R309.) Requests combine
at the target. An arrival keeps the entries of its line open for 64 ns more. It waits while all 65,536 records are in
use; it joins an entry of its tag, line, window and class that is not full and whose requests it may share one with,
counted for its class; else it waits while all 512 line entries are in use, or opens one. A full entry closes at once
unless a survivor of its line is outstanding. COMB_ENTRY_CLOSE: an entry closes 64 ns after the last arrival for its
line; without an entry, while a survivor of the line is outstanding, or while none can be sent, nothing changes. A
closing entry counts the stores that were discarded and sends its survivor. (After R312 to R315.) Its next state is
given for COMB_ENTRY_CLOSE. -/
def Obligations.AdmittedRequestsAreApplied : Prop :=
  (
  ∀ (s : State) (n : Nat) (k : Pkt) (own : Option Nat),
    (∀ w, k.op ∈ [1, 2, 3, 4, 5] →
      let line := winDev (s.window k.jobTag.toNat w) k.addr.toNat / 256
      s.letIn n k w own = s.askInside n line (lineStation line) (s.fabLineStatus n line) (.req n k own) (reqHdr k line)) ∧
    (∀ w, k.op = 9 →
      let home := s.tagHome k.jobTag.toNat
      let h : Hdr := { op := 9, jobTag := k.jobTag, cslot := k.cslot, csEn := true, arg := BitVec.ofNat 16 k.opt.toNat }
      ((s.spire home).out = 1 → s.letIn n k w own = none) ∧
      ((s.spire home).out = 0 → s.letIn n k w own =
        s.askInside n k.seq.toNat (spStation home) (s.fabSpireStatus n home k.seq.toNat) (.req n k own) h)) ∧
    (∀ (l dst st : Nat) (who : Caller) (h : Hdr),
      (st ≠ 0 → s.askInside n l dst st who h = some (s, some st)) ∧
      (s.ocStation n l = none → s.askInside n l dst 0 who h = some (s, some 0x33)) ∧
      (∀ a, s.ocStation n l = some a →
        (s.tidRoom a = false → s.askInside n l dst 0 who h = none) ∧
        (s.tidRoom a = true → s.askInside n l dst 0 who h =
          some ((s.openCall a dst who h).1, if (s.openCall a dst who h).2 = true then none else some 0x33)))) ∧
    (∀ (a tid st : Nat) (data : List Byte) (c : Call), s.callAt a tid = some c → c.who = .req n k own →
      let t := s.dropCall c
      let u := if st = 0 ∧ k.op.toNat ≤ 5 then t.reqSignal n k else t
      let v := if st = 6 then u.retried n k else u
      let d := if st = 0 then reqData k data else []
      s.answerCall a tid st data =
        match own with
        | none => v.answer n k st d
        | some q => match v.txn q with
          | some x => v.comeBack x k.addr.toNat st d
          | none => v)) ∧
  (
  ∀ (s : State),
    (∀ (n : Nat) (k : Pkt) (w : Nat),
      let tag := k.jobTag.toNat
      let line := k.addr.toNat / 256
      let win := s.window tag w
      let t := s.touchLine n tag line
      let cls := (combClass k).getD 0
      let full := fun (u : State) (c : Comb) => if u.combFull n c = true then (u.closeComb n c).getD u else u
      let mate := (t.oculus n).comb.find? fun c => c.tag == tag && c.line == line && c.win == win && c.cls == cls &&
        !t.combFull n c && c.pkts.all fun j => joinTarget j k
      (65536 ≤ (t.oculus n).records → s.joinComb n k w = none) ∧
      ((t.oculus n).records < 65536 →
        (∀ c, mate = some c →
          let c' := { c with pkts := c.pkts ++ [k] }
          s.joinComb n k w = some (full ((t.bump (ocPage n 0xB) 4 cls 1 (t.tagOwner tag)).modOculus n fun o =>
            { o with comb := o.comb.map fun x => if x = c then c' else x }) c')) ∧
        (mate = none →
          let c : Comb := { tag := tag, line := line, win := win, cls := cls, pkts := [k], last := t.clk.elapsed }
          (512 ≤ (t.oculus n).comb.length → s.joinComb n k w = none) ∧
          ((t.oculus n).comb.length < 512 → s.joinComb n k w =
            some (full (t.modOculus n fun o => { o with comb := o.comb ++ [c] }) c))))) ∧
    (∀ (e : Side) (tag : BitVec 12) (line : Nat),
      let n := sideNat e
      let entry := (s.oculus n).comb.find? fun c => c.tag == tag.toNat && c.line == line
      (entry = none → exec (.combEntryClose e tag line) s = .next s) ∧
      (∀ c, entry = some c → s.reaches (c.last + 64) →
        let t := s.atTime (c.last + 64)
        (t.closeComb n c = none → exec (.combEntryClose e tag line) s = .next s) ∧
        (∀ u, t.closeComb n c = some u → exec (.combEntryClose e tag line) s = .next u.settleAll))) ∧
    (∀ (n : Nat) (c : Comb),
      (s.combOut n (combLine c) = true → s.closeComb n c = none) ∧
      (s.combOut n (combLine c) = false →
        let gone := if c.cls = 1 then discardedStores c.pkts else 0
        let t := if gone = 0 then s else s.bump (ocPage n 0xB) 5 0 gone (s.tagOwner c.tag)
        s.closeComb n c = (t.modOculus n fun o => { o with comb := o.comb.erase c }).combSend n c (combHdrs c (combLine c)))))

/-- MC_STORE, MC_STORE_COPY, MC_RETRY_RESEND, MC_TIMEOUT and DUP_FILTER_EXPIRY. An MC_STORE that a FOP issued is expanded,
and so is another that meets the form rules when a transaction number is free; any other changes nothing. A copy for
another device is passed on; a copy at its target is answered unless it waits in the multicast buffer. Copies answered
RETRY leave again the interval after the latest such answer; without one nothing changes. The timeout of an expanded
MC_STORE counts, and completes it with its bitmap; an entry of the duplicate filter is released at its time; without a
transaction or entry nothing changes. (After R292, R317 to R319.) COMP, COMP_DATA and AWAIT_NOTIFY. A completion of
another operation, or for an oculus that is out, changes nothing; one for another device is passed on. One that does
not authenticate is counted for the partition of its tag, one for no transaction is discarded and counted; one of a
copy answers that copy of its MC_STORE; any other ends its transaction, or its part of a message, with its status, and
with its flits when it carries data. AWAIT_NOTIFY marks the await of the slot, in the occurrence that asked, as
satisfied; without an answer of the home nothing changes. (After R303, R309, R439.) Next states are given for
MC_STORE, MC_STORE_COPY, MC_RETRY_RESEND, MC_TIMEOUT, DUP_FILTER_EXPIRY, COMP, COMP_DATA, AWAIT_NOTIFY. -/
def Obligations.CompletionsAndMulticast : Prop :=
  (
  ∀ (s : State) (e : Side),
    let n := sideNat e
    (∀ k : Pkt,
      (k.op ≠ 6 ∨ (s.oculus n).out ≠ 0 → exec (.mcStore e k) s = .next s ∧ exec (.mcStoreCopy e k) s = .next s) ∧
      (k.op = 6 → (s.oculus n).out = 0 →
        let issued := (s.oculus n).txns.find? fun t => t.pkt.op == 6 && t.copies.isEmpty && t.pkt.addr == k.addr &&
          t.pkt.opt == k.opt && t.pkt.jobTag == k.jobTag && t.pkt.data == k.data
        (∀ t, issued = some t → exec (.mcStore e k) s = .next (s.expandMc n t).settleAll) ∧
        (issued = none →
          (formOk k = false ∨ 32768 ≤ (s.oculus n).txns.length ∨ s.freeSeq n = none → exec (.mcStore e k) s = .next s) ∧
          (∀ i t, formOk k = true → (s.oculus n).txns.length < 32768 → s.freeSeq n = some i →
            let seq := i + 32768 * n
            let u := s.openTxn seq { k with srcDev := BitVec.ofNat 16 s.ownDev, seq := BitVec.ofNat 16 seq } (.absorbed [])
            u.txn seq = some t → exec (.mcStore e k) s = .next (u.expandMc n t).settleAll)) ∧
        (s.isOwn k.dstDev.toNat = false → exec (.mcStoreCopy e k) s = .next (s.passOn n 0 k)) ∧
        (s.isOwn k.dstDev.toNat = true →
          let r := (s.takeHeld k).mcCopy n k
          (∀ st, r.2 = some st → exec (.mcStoreCopy e k) s = .next (r.1.answer n k st []).settleAll) ∧
          (r.2 = none → exec (.mcStoreCopy e k) s = .next r.1)))) ∧
    (∀ k : Pkt,
      (∀ t st, s.checkReq n k = .fail t st → s.mcCopy n k = (t, some st)) ∧
      (∀ t q w, s.checkReq n k = .pass t q w →
        (t.dups.any (dupOf q) = true → s.mcCopy n k = (t, some 0)) ∧
        (t.dups.any (dupOf q) = false →
          (16384 ≤ t.dups.length ∨ (t.oculus n).mcRoom q = false → s.mcCopy n k = (t.retried n q, some 6)) ∧
          (t.dups.length < 16384 → (t.oculus n).mcRoom q = true →
            s.mcCopy n k = t.acceptCopy n (k, q, winDev (t.window q.jobTag.toNat w) q.addr.toNat / 256))))) ∧
    (∀ seq : BitVec 16,
      let own := (s.oculus n).txns.find? fun t => t.seq == seq.toNat
      (own = none → exec (.mcRetryResend e seq) s = .next s) ∧
      (∀ t, own = some t →
        let due := (t.copies.filter (·.again)).map (·.sentAt)
        (due = [] → exec (.mcRetryResend e seq) s = .next s) ∧
        (∀ d ds, due = d :: ds →
          let at_ := ds.foldl max d + 100 * s.fld (Loc.ocMcCtl n) 15 8
          s.reaches at_ → exec (.mcRetryResend e seq) s = .next
            ((t.copies.zipIdx.foldl (fun (s : State) c => if c.1.again = true then s.sendCopy n t.pkt c.2 c.1.dev else s)
              ((s.atTime at_).setTxn { t with copies := t.copies.map fun c => { c with again := false } })).settleAll)))) ∧
    (∀ seq : BitVec 16,
      let own := (s.oculus n).txns.find? fun t => t.seq == seq.toNat && !t.copies.isEmpty
      (own = none → exec (.mcTimeout e seq) s = .next s) ∧
      (∀ t, own = some t →
        let at_ := t.opened + 1000 * s.fld (Loc.ocMcCtl n) 7 0
        let u := s.atTime at_
        s.reaches at_ → exec (.mcTimeout e seq) s = .next
          (((u.bump (ocPage n 0xB) 7 0 1 (u.tagOwner t.pkt.jobTag.toNat)).mcDone t).settleAll))) ∧
    (∀ src seq : BitVec 16,
      let entry := s.dups.find? fun d => d.src == src.toNat && d.seq == seq.toNat
      (entry = none → exec (.dupFilterExpiry src seq) s = .next s) ∧
      (∀ d, entry = some d → s.reaches d.until_ →
        let u := s.atTime d.until_
        exec (.dupFilterExpiry src seq) s = .next { u with dups := u.dups.erase d }))) ∧
  (
  ∀ (s : State) (e : Side) (k : Pkt) (c : Instr) (op : BitVec 6),
    ((c, op) ∈ [(Instr.comp e k, 0x20), (.compData e k, 0x21)] →
      let n := sideNat e
      (k.op ≠ op ∨ (s.oculus n).out ≠ 0 → exec c s = .next s) ∧
      (k.op = op → (s.oculus n).out = 0 →
        (s.isOwn k.dstDev.toNat = false → exec c s = .next (s.passOn n 1 k)) ∧
        (s.isOwn k.dstDev.toNat = true →
          let u := s.takeHeld k
          (u.openComp k = none → exec c s = .next (u.bump (ocPage n 0xB) 3 0 1 (s.tagOwner k.jobTag.toNat))) ∧
          (∀ r : State × Pkt, u.openComp k = some r →
            let st := r.2.status.toNat
            (r.1.txn r.2.seq.toNat = none → exec c s = .next (r.1.ocEvent n 0xB 0 1)) ∧
            (∀ t, r.1.txn r.2.seq.toNat = some t →
              (t.pkt.op = 6 → exec c s = .next (r.1.mcAnswer t.seq r.2.mcTgt.toNat st).settleAll) ∧
              (t.pkt.op ≠ 6 → exec c s = .next
                (r.1.comeBack t r.2.addr.toNat st (if r.2.op = 0x21 then dataFlits r.2 else [])).settleAll)))))) ∧
    (∀ (m : Fin 16) (slot : Fin 1024) (second : Bool),
      let told := (s.spire m).notes.find? fun x => x.1 == slot.val && x.2.2 == second
      (told = none → exec (.awaitNotify m slot second) s = .next s) ∧
      (∀ x, told = some x → exec (.awaitNotify m slot second) s = .next ((s.modSpire m fun sp =>
        { sp with
          notes := sp.notes.erase x
          window := sp.window.map fun w =>
            if w.slot = slot.val ∧ w.t0 = x.2.1 then { w with a1 := w.a1 || second, a0 := w.a0 || !second } else w }).settleAll))))

/-- WINDOW_COMMIT, WIN_LOAD, WIN_LOAD_ENTRY and CS_VALUE_WRITE. WIN_DATA3 written by a function that may is rejected with
the code of the window check, or makes the staged window of WIN_SEL wait for the tick; with AUTOINC WIN_SEL moves to
the next entry. A load of windows is rejected with the code of the bulk-load check; otherwise BUSY becomes 1 and the
load asks for its first line. While the line of the next entry has not come, the load asks for it; an entry that
passes its check is kept with those before it, one that fails is rejected with its code, one that could not be read
changes nothing; the load goes on, and after the last BUSY is 0 and every entry kept waits for the tick. Without a
load nothing changes. CS_VALUE is rejected with 0x05 unless the partition of its tag is stopped and the tag has
counting slots, and sets the count otherwise. (After R31, R305, R306, R309.) Next states are given for WINDOW_COMMIT,
WIN_LOAD, WIN_LOAD_ENTRY, CS_VALUE_WRITE. -/
def Obligations.WindowsAndCountsAreWritten : Prop :=
  ∀ (s : State) (f : Func) (e : Side) (v : Word),
    let n := sideNat e
    (s.accepts f (Loc.ocWinData n 3) v →
      let loc := Loc.ocWinData n 3
      let sel := s.get (Loc.ocWinSel 0)
      let i := sel.bits 11 0 * 16 + sel.bits 15 12
      let w := s.staged (Loc.ocWinData 0) 4 v
      let check := s.winCheck (sel.bits 11 0) (sel.bits 15 12) w
      let t := s.pendWindow i w
      let j := (i + 1) % 65536
      (∀ k, check = some k → exec (.windowCommit f e v) s = .next (s.reject f (loc / 4096) (loc % 4096) k)) ∧
      (check = none → exec (.windowCommit f e v) s = .next
        (if sel.bit 16 = true then (t.put (Loc.ocWinSel 0) ((sel.put 15 12 (j % 16)).put 11 0 (j / 16))).managed else t.managed))) ∧
    (let go := v.put 31 31 1
     let loc := Loc.ocWinLoad n
     let b : BulkLoad := { next := s.fld (Loc.ocWinFirst 0) 15 0, left := go.bits 16 0, addr := s.addrOf (Loc.ocWinBaseLo 0), f := f }
     let check := s.bulkCheck (Loc.ocWinLoad 0) go b.addr b.next b.left 65536 65536 16
     s.accepts f loc go →
     (∀ k, check = some k → exec (.winLoad f e v) s = .next (s.reject f (loc / 4096) (loc % 4096) k)) ∧
     (check = none → exec (.winLoad f e v) s = .next
       (((s.put (Loc.ocWinLoad 0) ((go.put 31 31 0).put 30 30 1)).setLoad .win (some b)).askLoad .win).managed)) ∧
    ((s.oculus 0).winLoad = none → exec (.winLoadEntry e) s = .next s) ∧
    (∀ b : BulkLoad, (s.oculus 0).winLoad = some b →
      let loc := Loc.ocWinLoad 0
      let goOn := fun (t : State) (got : List (Nat × List Nat)) =>
        if b.left ≤ 1 then got.foldl (fun (s : State) g => s.pendWindow g.1 g.2) ((t.setLoad .win none).setFlag loc 30 false)
        else (t.setLoad .win (some { b with next := (b.next + 1) % 65536, left := b.left - 1, addr := b.addr + 16, got := got })).askLoad .win
      (b.entry 16 = none → exec (.winLoadEntry e) s = .next (s.askLoad .win)) ∧
      (b.entry 16 = some none → exec (.winLoadEntry e) s = .next (goOn s b.got)) ∧
      (∀ w, b.entry 16 = some (some w) →
        let check := s.winCheck (b.next / 16) (b.next % 16) w
        (∀ k, check = some k → exec (.winLoadEntry e) s = .next (goOn (s.reject b.f (loc / 4096) (loc % 4096) k) b.got)) ∧
        (check = none → exec (.winLoadEntry e) s = .next (goOn s (b.got ++ [(b.next, w)]))))) ∧
    (s.accepts f (Loc.ocCsValue n) v →
      let loc := Loc.ocCsValue n
      let tag := s.fld (Loc.ocCsSel n) 11 0
      let owner := s.tagOwner tag
      let may := owner < 8 ∧ s.pfState owner = 0 ∧ s.tagSlots tag = true
      (¬may → exec (.csValueWrite f e v) s = .next (s.reject f (loc / 4096) (loc % 4096) 5).settleAll) ∧
      (may → exec (.csValueWrite f e v) s = .next
        ((s.setCount tag (s.fld (Loc.ocCsSel n) 19 12) v.toNat).managed).settleAll))

/-- TIME_REF_LOSS, REF_RETURN and REF_CTL_WRITE. The loss of the reference input is counted and waits for the tick; it is
posted as a corrected error under auto and as a service error under external. Its return is kept for the tick under
auto while the input is not in use. A write of REF_CTL that reaches its register is rejected with the code of its
form; otherwise REF_CTL takes the word, a choice of the oscillator acts at once, and one of a present input not in use
waits for the tick. (After R325, Table CK-1.) STRETCH, DOWN_STEP and MESH_EMERGENCY. A depth of 0 changes nothing; a
deeper report of the vanes is kept, and in native mode a stretch is counted and lengthens the period by depth/8. In
native mode depth 4 held for four cycles decides a down-step, which acts 16 cycles later and starts a new window; when
a tick comes before, the down-step stays decided. A window that reached its limit decides one 16 cycles after its end;
without such a window nothing changes. N falls by DOWN_N, to 64 at least, and a region at 64 counts a floor event,
posted once per frame. In mesh mode DOWN_STEP changes nothing, and depth 4 is an emergency that lengthens a period of
the whole mesh by 1/2, counted, and posted once per frame; in native mode it changes nothing. (After R329 to R332,
R338, R339.) CLK_MODE_WRITE and MODE_CHANGE_COMPLETE. A write of CLK_CTL with MODE changed that reaches its register
is rejected with the code of its form, and with 0x05 unless every partition is stopped; otherwise CLK_CTL takes the
word as its fields are written, and in mesh mode every region takes the new MESH_N. The end of a mode change clears
CHANGING. (After R328, R337, R338.) Next states are given for TIME_REF_LOSS, REF_RETURN, REF_CTL_WRITE, STRETCH,
DOWN_STEP, MESH_EMERGENCY, CLK_MODE_WRITE, MODE_CHANGE_COMPLETE. -/
def Obligations.ClocksFollowReferenceAndMode : Prop :=
  (
  ∀ (s : State),
    (let u := ({ s with time := { s.time with refIn := false, refBack := false, refLost := true } } : State).bump 0x0004 7 0
     let sel := u.fld Loc.glRefCtl 1 0
     (sel = 0 → exec .timeRefLoss s = .next (u.postGlobal 0 0x03 0 0)) ∧
     (sel = 1 → exec .timeRefLoss s = .next u) ∧
     (2 ≤ sel → exec .timeRefLoss s = .next (u.postGlobal 2 0x03 0 0))) ∧
    exec .refReturn s = .next { s with time := { s.time with
      refIn := true, refBack := s.time.refBack || (s.fld Loc.glRefCtl 1 0 == 0 && !s.flag Loc.glClkSts 2) } } ∧
    (∀ (f : Func) (v : Word), let loc := Loc.glRefCtl
      s.accepts f loc v →
      let u := s.put loc v
      (∀ k, formCheck (locFields loc) v = some k → exec (.refCtlWrite f v) s = .next (s.reject f (loc / 4096) (loc % 4096) k)) ∧
      (wellFormedFor loc v →
        (v.bits 1 0 = 1 → exec (.refCtlWrite f v) s = .next
          (State.managed { u.setFlag Loc.glClkSts 2 false with time := { u.time with refBack := false } })) ∧
        (v.bits 1 0 ≠ 1 → exec (.refCtlWrite f v) s = .next
          (State.managed { u with time := { u.time with refBack := u.time.refIn && !u.flag Loc.glClkSts 2 } }))))) ∧
  (
  ∀ (s : State) (r : Fin 40),
    (∀ d : Fin 5,
      let v := s.modRegion r fun x => { x with depth := max x.depth d, stirred := true }
      (d = 0 → exec (.stretch r d) s = .next s) ∧
      (d ≠ 0 → s.meshOn = true → exec (.stretch r d) s = .next v) ∧
      (d ≠ 0 → s.meshOn = false → exec (.stretch r d) s = .next
        (((((v.addWrap Loc.glRegStretch 31 0 1 r).rollWindow r).holdCycles r d).modRegion r fun x =>
          { x with cnt := x.cnt + 1, busy := true }).bump 0x0003 (1 + d) r))) ∧
    (∀ deep, s.meshOn = true → exec (.downStep r deep) s = .next s) ∧
    (s.meshOn = false →
      (let due := s.cycles r + inCycles 16
       let t := (s.modRegion r fun x => { x with depth := max x.depth 4, stirred := true }).modRegion r fun x =>
        { x with deepU := x.deepU.orElse fun _ => some due }
       (∀ c, (t.region r).deepU = some c →
         let at_ := t.cycleAt r c
         let u := (t.atTime at_).rollWindow r
         (t.reaches at_ → exec (.downStep r true) s = .next
           ((u.modRegion r fun x => { x with winU := u.cycles r, cnt := 0, deepU := none }).stepDown r)) ∧
         (¬ t.reaches at_ → exec (.downStep r true) s = .next t))) ∧
      (s.stepDue r = none → exec (.downStep r false) s = .next s) ∧
      (∀ c : Int, s.stepDue r = some c →
        let at_ := s.cycleAt r c
        let u := ((s.atTime at_).rollWindow r).modRegion r fun x => { x with stepU := none }
        s.reaches at_ → exec (.downStep r false) s = .next (if u.regN r = 64 then u.floorEvent r else u.stepDown r))) ∧
    (let n := s.regN r
     let m := max 64 (n - s.fld Loc.glClkCtl 19 16)
     let t := s.modRegion r fun x => { x with stirred := true }
     s.stepDown r = if m = n then t else ((t.setRegN r m).addWrap Loc.glRegSteps 15 0 1 r).bump 0x0003 6 r) ∧
    (let t := ((s.modRegion r fun x => { x with floor := true }).bump 0x0003 8 r).setFlag Loc.glRegSts 8 true r
     s.floorEvent r = if (s.region r).floor = true then t else t.postGlobal 0 0x09 r 0) ∧
    (s.meshOn = false → exec (.meshEmergency r) s = .next s) ∧
    (s.meshOn = true →
      let v := s.modRegion r fun x => { x with depth := max x.depth 4, stirred := true }
      let w := (meshOf r).foldl (fun (s : State) q => (s.addWrap Loc.glRegStretch 31 0 1 q).holdCycles q 4) v
      let u := (w.modRegion r fun x => { x with emerg := true }).bump 0x0003 0xA r
      exec (.meshEmergency r) s = .next (if (s.region r).emerg = true then u else u.postGlobal 0 0x0A r 0))) ∧
  (
  ∀ (s : State),
    (∀ (f : Func) (v : Word), let w := v.put 0 0 (1 - s.fld Loc.glClkCtl 0 0)
      let loc := Loc.glClkCtl
      s.accepts f loc w →
      let refused := fun k => s.reject f (loc / 4096) (loc % 4096) k
      let u := s.writeFields loc 0 w.toNat none (locFields loc)
      (∀ k, formCheck (locFields loc) w = some k → exec (.clkModeWrite f v) s = .next (refused k)) ∧
      (wellFormedFor loc w →
        (s.allStopped = false → exec (.clkModeWrite f v) s = .next (refused 5)) ∧
        (s.allStopped = true → exec (.clkModeWrite f v) s = .next
          (if u.meshOn = true then (List.range 40).foldl (fun (s : State) r => s.setRegN r (w.bits 7 1)) u else u).managed))) ∧
    exec .modeChangeComplete s = .next (s.setFlag Loc.glClkSts 1 false))

/-- Once per frame, with both plinths in service, the West takes the offset of the exchange with the smallest delay among
those on planes that join stations 22 and 25 both ways; without such a plane it holds and posts that once; without an
exchange on one it keeps what it followed. A joined device answers a time request on a port that is up with its own
count, after checking the sender's period; an unjoined one does not, and a message of the ring or on a port not up
changes nothing. An exchange without an answer in 100 µs is dropped, counted. A joined device in direct or counted
mode that is no root and has had no valid estimate for 10 ms enters holdover, counted and posted; any other does not.
(After R343, R347, R348, R350.) Every SYNC_US a device in counted mode that is no root asks its parent, when it has
one; while the East oculus is in service a root of a ring, and a device in direct mode, asks the neighbours at its two
ring ports, then the root sends its messages both ways round and the device sends on the message that has come on each
arc; an unjoined device, a free non-root and a root in counted mode send nothing. An answer on a port not up or to no
exchange changes nothing; one after 100 µs is counted and its exchange dropped. One in time gives offset and delay,
and is counted: of a ring neighbour it gives the delay of that port's hop; in counted mode the latest sixteen are
kept, less what slewing has removed since, and the one with the smallest delay is followed, or while joining, once
sixteen are kept, joined by. The frequency term is a free value. (After R344 to R347, R349.) An estimate of the offset
is slewed out and shown in TIME_OFS; it is the device's latest valid one, ends holdover, and is counted while beyond
STEP_LIMIT: the eighth in a row loses the transit, counted, posted once. (After R341, R350, R351.) Next states are
given for WEST_TRANSIT_EXCHANGE, TIME_SYNC, EXCHANGE_TIMEOUT, HOLDOVER, TIME_SYNC_SEND, TIME_SYNC_RESP. -/
def Obligations.TimeIsExchanged : Prop :=
  (
  ∀ (s : State),
    (∀ l : List WestExchange,
      ((s.plinth 0).out ≠ 0 ∨ (s.plinth 1).out ≠ 0 ∨ s.time.westAt = s.clk.ticks + 1 →
        exec (.westTransitExchange l) s = .next s) ∧
      ((s.plinth 0).out = 0 → (s.plinth 1).out = 0 → s.time.westAt ≠ s.clk.ticks + 1 →
        let t := s.modTime fun x => { x with westAt := s.clk.ticks + 1 }
        let held := t.modTime fun x => { x with westHeld := true }
        (t.westPlanes = [] → exec (.westTransitExchange l) s = .next
          (if t.time.westHeld = true then held else held.post (plPage 1 0) 0 0x64 0 0)) ∧
        (t.westPlanes ≠ [] →
          let best := bestExchange ((l.filter fun x => t.westPlanes.contains x.plane).map fun x => (x.offset, (x.delay : Int)))
          (best = none → exec (.westTransitExchange l) s = .next t) ∧
          (∀ th de, best = some (th, de) → exec (.westTransitExchange l) s = .next
            (t.modTime fun x => { x with westHeld := false, westOfs := th }))))) ∧
    (∀ (port : Fin 32) (m : TimeMsg),
      (s.portState port ≠ 4 ∨ m.ring = true → exec (.timeSync port m) s = .next s) ∧
      (s.portState port = 4 → m.ring = false →
        let u := s.checkPeriod m.srcDev.toNat m.periodUs
        (u.timeState < 2 → exec (.timeSync port m) s = .next u) ∧
        (2 ≤ u.timeState → exec (.timeSync port m) s = .next (u.sendOrDrop (port / 16)
          (timePkt u 0x29 m.srcDev.toNat (timeFlit u m.t1 u.now256 u.now256 m.exch.toNat u.timePlace.1 u.timePlace.2 0)))))) ∧
    (∀ dev us,
      (us * 1000 = s.period → s.checkPeriod dev us = s.modTime fun x => { x with period := 0 }) ∧
      (us * 1000 ≠ s.period → s.checkPeriod dev us = if s.time.period = us then s
        else (s.modTime fun x => { x with period := us }).postGlobal 0 0x08 0 (dev + us % 1024 * 65536))) ∧
    (∀ exch : BitVec 16,
      let asked := s.time.out.find? fun x => x.num == exch.toNat
      (asked = none → exec (.exchangeTimeout exch) s = .next s) ∧
      (∀ x, asked = some x → s.reaches (x.at_ + 100000) → exec (.exchangeTimeout exch) s = .next
        (((s.atTime (x.at_ + 100000)).modTime fun y => { y with out := y.out.filter fun z => z.num != x.num }).bump 0x0004 3 0))) ∧
    (s.timeState ≠ 2 ∨ s.timeMode = 0 ∨ s.timeRoot = true → exec .holdover s = .next s) ∧
    (s.timeState = 2 → s.timeMode ≠ 0 → s.timeRoot = false →
      let at_ := s.time.valid + 10000000
      s.reaches at_ → exec .holdover s = .next ((((s.atTime at_).setTimeState 3).bump 0x0004 5 0).postGlobal 0 0x04 0 0))) ∧
  (
  ∀ (s : State),
    (s.timeState = 0 ∨ (s.timeMode = 0 ∧ s.timeRoot = false) ∨ (s.timeMode = 2 ∧ s.timeRoot = true) →
      exec .timeSyncSend s = .next s) ∧
    (¬(s.timeState = 0 ∨ (s.timeMode = 0 ∧ s.timeRoot = false) ∨ (s.timeMode = 2 ∧ s.timeRoot = true)) →
      let t := s.atTime s.syncDue
      let u := t.modTime fun x => { x with sentAt := some t.clk.elapsed }
      s.reaches s.syncDue →
      (u.timeMode = 2 →
        let w := u.get Loc.glTimeParent
        exec .timeSyncSend s = .next (if w.bit 16 = true then u.askTime (w.bits 15 0) none else u)) ∧
      (u.timeMode ≠ 2 → (u.oculus 0).out ≠ 0 → exec .timeSyncSend s = .next u) ∧
      (u.timeMode ≠ 2 → (u.oculus 0).out = 0 →
        let v := (u.askHop 0).askHop 1
        exec .timeSyncSend s = .next (if s.timeRoot = true then (v.ringSend 1 0 v.ownDev).ringSend 0 0 v.ownDev
          else (v.ringForward 0 1).ringForward 1 0))) ∧
    (∀ (port : Fin 32) (m : TimeMsg) (frac : Fin 256),
      let asked := s.time.out.find? fun x => x.num == m.exch.toNat
      (s.portState port ≠ 4 ∨ asked = none → exec (.timeSyncResp port m frac) s = .next s) ∧
      (∀ x, s.portState port = 4 → asked = some x →
        let u := (s.checkPeriod m.srcDev.toNat m.periodUs).modTime fun y => { y with out := y.out.filter fun z => z.num != x.num }
        (x.at_ + 100000 < u.clk.elapsed → exec (.timeSyncResp port m frac) s = .next (u.bump 0x0004 3 0)) ∧
        (u.clk.elapsed ≤ x.at_ + 100000 →
          let a : Int := (m.t2 : Int) - x.t1
          let b : Int := ((u.now256 + frac : Nat) : Int) - m.t3
          let c := u.bump 0x0004 2 0
          (∀ p, x.ring = some p → exec (.timeSyncResp port m frac) s = .next
            (c.modTime fun y => { y with arcs := lmod y.arcs (p % 2) fun z => { z with delay := ((a + b) / 2).toNat } })) ∧
          (x.ring = none → c.timeMode ≠ 2 → exec (.timeSyncResp port m frac) s = .next c) ∧
          (x.ring = none → c.timeMode = 2 →
            let v := c.modTime fun y => { y with hist := (((a - b) / 2 + c.slewed256, (a + b) / 2) :: y.hist).take 16,
                                                 level := m.hopsRoot + 1, root := m.rootDev.toNat }
            ∀ th de, bestExchange v.time.hist = some (th, de) →
              let th := th - v.slewed256
              let y := v.setFld Loc.glTimeDelay 23 0 (wrapNat 24 (de / 16))
              (y.timeState ≠ 1 → exec (.timeSyncResp port m frac) s = .next (y.estimate th)) ∧
              (y.timeState = 1 → y.time.hist.length < 16 → exec (.timeSyncResp port m frac) s = .next y) ∧
              (y.timeState = 1 → 16 ≤ y.time.hist.length →
                let z := y.estimate th
                exec (.timeSyncResp port m frac) s = .next (z.joinCount ((z.clk.count : Int) + th / 256).toNat)))))) ∧
    (∀ l : List (Int × Int), l ≠ [] → ∃ x ∈ l, bestExchange l = some x ∧ ∀ y ∈ l, x.2 ≤ y.2)) ∧
  (
  ∀ (s : State) (th : Int),
    let far := s.fld Loc.glTimeCtl 27 20 * 2560 < th.natAbs
    let n := if far then s.time.bad + 1 else 0
    let t := (s.drawFreq.setSlew th).put Loc.glTimeOfs (BitVec.ofNat 32 (wrapNat 32 (th / 16)))
    let u := t.modTime fun x => { x with bad := n, valid := s.clk.elapsed }
    (8 ≤ n → s.estimate th = if u.timeState = 4 then u
      else ((u.setTimeState 4).bump 0x0004 6 0).postGlobal 2 0x05 0 (wrapNat 64 (th / 256))) ∧
    (n < 8 → s.estimate th =
      if u.timeState = 3 ∨ (u.timeState = 4 ∧ n = 0) then u.setTimeState 2 else u))

/-- RING_TIME_MESSAGE, ARC_CHANGE, ARC_RETURN and JOIN_TIMEOUT. In direct mode a message of an arc on a ring port that is
up is recorded with its offset, hops and root, after the sender's period is checked; one with more than 1,023 hops is
counted and discarded; outside direct mode, at a root and at an unjoined device nothing changes. A joining device
steps to the count of four messages in a row of one arc that agree within 10 ns and follows the arc with fewer hops; a
joined one slews to the messages of the arc that it follows, which becomes the other when its own has been silent for
4 × SYNC_US, posted. It changes to the other arc when its own is silent that long, which is posted, and back to the
shorter arc when that arc's messages have resumed for 100 ms. Joining that has taken 1 s is posted once and goes on.
(After R344, R345, R349.) REJOIN and TIME_SET_WRITE. A write of TIME_CTL with REJOIN that reaches its register is
rejected with the code of its form, and with 0x05 when it changes MODE or ROOT of a device that is not unjoined, or
while a partition is not stopped; otherwise TIME_CTL takes the word without REJOIN and a device that is not unjoined
begins its join anew: on its own time base with one step to TIME_SET, else in the joining state. A write of
TIME_SET_HI that reaches its register sets TIME_SET, with the low word staged before it, in an unjoined device; in any
other it is rejected with 0x05, and the staged low word is discarded. (After R349, R351, R488.) Next states are given
for RING_TIME_MESSAGE, ARC_CHANGE, ARC_RETURN, JOIN_TIMEOUT, REJOIN, TIME_SET_WRITE. -/
def Obligations.TimeIsFollowedAndSet : Prop :=
  (
  ∀ (s : State),
    (∀ (port : Fin 2) (m : TimeMsg) (frac : Fin 256),
      let deaf := s.portState port ≠ 4 ∨ s.timeMode ≠ 1 ∨ s.timeRoot = true ∨ s.timeState = 0
      (deaf → exec (.ringTimeMessage port m frac) s = .next s) ∧
      (¬deaf → 1023 < m.hopsRoot → exec (.ringTimeMessage port m frac) s = .next (s.bump 0x0004 3 0)) ∧
      (¬deaf → m.hopsRoot ≤ 1023 →
        let u := s.checkPeriod m.srcDev.toNat m.periodUs
        let arc := b2n m.arcCcw
        let off : Int := ((m.t1 + (lget {} u.time.arcs port).delay : Nat) : Int) - (u.now256 + frac : Nat)
        let silent := fun (a : Arc) => a.last == 0 || decide (a.last - 1 + 4 * u.syncNs ≤ u.clk.elapsed)
        let v := u.modTime fun x => { x with arcs := lmod x.arcs arc fun a =>
          { a with offs := ((off + u.slewed256) :: (if silent a = true then [] else a.offs)).take 4, last := u.clk.elapsed + 1, fresh := true,
                   resumed := if silent a = true then u.clk.elapsed + 1 else a.resumed, hops := m.hopsRoot + 1,
                   root := m.rootDev.toNat } }
        let a := lget {} v.time.arcs arc
        let alive := fun (i : Nat) => !silent (lget {} v.time.arcs i)
        let agree := a.offs.length = 4 ∧ ∀ x ∈ a.offs, ∀ y ∈ a.offs, (x - y).natAbs ≤ 2560
        (v.timeState = 1 → agree → exec (.ringTimeMessage port m frac) s = .next
          ((v.joinCount ((v.clk.count : Int) + off / 256).toNat).showArc (v.shortArc alive arc))) ∧
        (v.timeState = 1 → ¬agree → exec (.ringTimeMessage port m frac) s = .next v) ∧
        (v.timeState ≠ 1 →
          let w := if alive v.arcNow = true then v else (v.changeArc arc).postGlobal 0 0x07 arc 0
          exec (.ringTimeMessage port m frac) s = .next (if w.arcNow = arc then (w.estimate off).showArc arc else w)))) ∧
    (let apart := s.timeMode ≠ 1 ∨ s.timeRoot = true ∨ s.timeState < 2
     (apart → exec .arcChange s = .next s ∧ exec .arcReturn s = .next s) ∧
     (¬apart →
      (let at_ := (lget {} s.time.arcs s.arcNow).last - 1 + 4 * s.syncNs
       let t := s.atTime at_
       s.reaches at_ → exec .arcChange s = .next ((t.changeArc (1 - t.arcNow)).postGlobal 0 0x07 (1 - t.arcNow) 0)) ∧
      (let other := 1 - s.arcNow
       let a := lget {} s.time.arcs s.arcNow
       let b := lget {} s.time.arcs other
       let shorter := b.hops < a.hops ∨ (b.hops = a.hops ∧ other = 0)
       (b.last = 0 ∨ ¬shorter → exec .arcReturn s = .next s) ∧
       (let at_ := b.resumed - 1 + 100000000
        b.last ≠ 0 → shorter → s.reaches at_ → exec .arcReturn s = .next ((s.atTime at_).changeArc other))))) ∧
    (s.timeState ≠ 1 ∨ s.time.late = true → exec .joinTimeout s = .next s) ∧
    (s.timeState = 1 → s.time.late = false →
      let at_ := s.time.joinAt + 1000000000
      s.reaches at_ → exec .joinTimeout s = .next
        (((s.atTime at_).modTime fun x => { x with late := true }).postGlobal 2 0x06 0 0))) ∧
  (
  ∀ (s : State) (f : Func) (v : Word),
    (let w := v.put 3 3 1
     let loc := Loc.glTimeCtl
     s.accepts f loc w →
     let refused := fun k => s.reject f (loc / 4096) (loc % 4096) k
     (∀ k, formCheck (locFields loc) w = some k → exec (.rejoin f v) s = .next (refused k)) ∧
     (wellFormedFor loc w →
       let bars := (s.timeState ≠ 0 ∧ w.bits 2 0 ≠ s.fld loc 2 0) ∨ s.allStopped = false
       let u := s.put loc (w.put 3 3 0)
       (bars → exec (.rejoin f v) s = .next (refused 5)) ∧
       (¬bars → exec (.rejoin f v) s = .next (if u.timeState ≠ 0 then u.startJoin else u).managed))) ∧
    ((s.timeMode = 0 ∨ s.timeRoot = true → s.startJoin = s.joinCount (s.get64 Loc.glTimeSetLo)) ∧
     (s.timeMode ≠ 0 → s.timeRoot = false → s.startJoin = (s.setTimeState 1).modTime fun x =>
       { x with joinAt := s.clk.elapsed, late := false, hist := [], bad := 0, arcs := x.arcs.map fun a => { a with offs := [] } })) ∧
    (let lo := Loc.glTimeSetLo
     s.accepts f (lo + 4) v →
     (s.timeState = 0 → exec (.timeSetWrite f v) s = .next (s.put64 lo (s.stagedLow lo + v.toNat * 2 ^ 32)).managed) ∧
     (s.timeState ≠ 0 → exec (.timeSetWrite f v) s = .next ((s.reject f ((lo + 4) / 4096) ((lo + 4) % 4096) 5).dropLow lo))))

/-- HOT_SWAP_CLOSE, INPUT_VOLTAGE_RETURN, INPUT_UNDERVOLTAGE, INPUT_OVERVOLTAGE_WARN, POWER_FAIL and INPUT_CURRENT_LIMIT.
An open hot-swap closes, which brings up the rails of step 1, and the start begins unless RESET_N is held; a closed
one stays as it is. While it is closed, each voltage flag is set and posted once per crossing; a return into the range
clears both. A power fail, and the current limit, open a closed hot-swap: the fault is posted, the holder saves the
last 16 records of the device log and of those that still wait, and the module keeps the commands that wait, the count
of elapsed time, the free values, the non-volatile store, the levels of its pins and what was burnt into its dies.
With the hot-swap open neither changes anything. (After R356 to R358, R475.) RAIL_FAIL and BUS_CONVERTER_FAIL. A rail
that is not up, or fails with the hot-swap open, changes nothing. Any other is logged with its number and value, fatal
for rails 4 to 9, counted, and is not up from then on; and what it supplies stops: the module (VSB, VDD_HI), a belfry,
an oculus, a plinth, the 48 channels of a gatehouse, a spire, a spire with its SRAM; a lantern rail is logged only. A
failed bus converter leaves the other, DERATED, with every cap set for 900 W, posted; one that has failed already
changes nothing. (After R359 to R361.) A design power of W watts gives every stack a cap of floor(4 × (0.8875 × W −
540) ÷ 16); the limit of a stack is the larger of 56 and of its cap less the larger of its two reductions in percent;
no other register changes. (After R362, R363.) Next states are given for HOT_SWAP_CLOSE, INPUT_VOLTAGE_RETURN,
INPUT_UNDERVOLTAGE, INPUT_OVERVOLTAGE_WARN, POWER_FAIL, INPUT_CURRENT_LIMIT, RAIL_FAIL, BUS_CONVERTER_FAIL. -/
def Obligations.SupplyAndRails : Prop :=
  (
  ∀ (s : State),
    (s.power.closed = true → exec .hotSwapClose s = .next s) ∧
    (s.power.closed = false →
      let t := s.modPower fun x => { x with closed := true, rails := 1 }
      exec .hotSwapClose s = .next (if s.start.resetN = true then t else t.startUp)) ∧
    exec .inputVoltageReturn s = .next (s.setFld Loc.glPwrSts 5 4 0) ∧
    (s.power.closed = false ∨ s.flag Loc.glPwrSts 4 = true → exec .inputUndervoltage s = .next s) ∧
    (s.power.closed = false ∨ s.flag Loc.glPwrSts 5 = true → exec .inputOvervoltageWarn s = .next s) ∧
    (s.power.closed = false → exec .powerFail s = .next s ∧ exec .inputCurrentLimit s = .next s) ∧
    (s.power.closed = true →
      (s.flag Loc.glPwrSts 4 = false → exec .inputUndervoltage s = .next
        (((s.setFlag Loc.glPwrSts 4 true).setFlag Loc.glPwrSts 5 false).postGlobal 2 0x16 0 (s.get Loc.glVin).toNat)) ∧
      (s.flag Loc.glPwrSts 5 = false → exec .inputOvervoltageWarn s = .next
        (((s.setFlag Loc.glPwrSts 5 true).setFlag Loc.glPwrSts 4 false).postGlobal 0 0x17 0 (s.get Loc.glVin).toNat)) ∧
      (let u := s.postGlobal 3 0x18 0 ((s.get Loc.glVin).toNat + 2 ^ 32 * (s.get Loc.glIin).toNat)
       let v := if u.holder.isSome = true then u.saveLog true else u
       exec .powerFail s = .next (v.keepPins v.bare) ∧ exec .inputCurrentLimit s = .next (v.keepPins v.bare))) ∧
    (let t := s.keepPins s.bare
     t.pending = s.pending ∧ t.store = s.store ∧ t.faults.saved = s.faults.saved ∧ t.power = {} ∧ t.mem = [] ∧ t.memKey = [] ∧
     t.pairKeys = [] ∧ t.keys = List.replicate 9 0 ∧ t.calls = [] ∧ t.lay = {} ∧ t.faults.log = [] ∧ t.faults.queues = [] ∧
     t.clk = { elapsed := s.clk.elapsed } ∧ (∀ i : Fin 10, t.fld Loc.glSbSts 1 0 i = s.fld Loc.glSbSts 1 0 i)) ∧
    (∀ waits, (s.saveLog waits).faults.saved.length ≤ 16)) ∧
  (
  ∀ (s : State),
    (∀ (r : Fin 85) (mv : BitVec 32),
      (s.power.closed = false ∨ s.railUp r = false → exec (.railFail r mv) s = .next s) ∧
      (s.power.closed = true → s.railUp r = true →
        let u := ((s.postGlobal (if 4 ≤ r.val ∧ r.val ≤ 9 then 3 else 2) 0x14 r mv.toNat).bump 6 5 0).modPower fun p =>
          { p with railFailed := p.railFailed ++ [r.val] }
        (r.val = 0 ∨ r.val = 3 → exec (.railFail r mv) s = .next u.powerFail) ∧
        (∀ e : Side, r.val = 1 + sideNat e → exec (.railFail r mv) s = .next (u.belfryStop (sideNat e) 0x14)) ∧
        (∀ e : Side, r.val = 4 + sideNat e → exec (.railFail r mv) s = .next (u.oculusFatal (sideNat e) 0x14).settleAll) ∧
        (∀ e : Side, (r.val = 6 + sideNat e ∨ r.val = 8 + sideNat e) →
          exec (.railFail r mv) s = .next (u.wantHalve (sideNat e) 0x14)) ∧
        (10 ≤ r.val ∧ r.val ≤ 12 → exec (.railFail r mv) s = .next u) ∧
        (∀ (g : Fin 8) (k : Fin 5), r.val = 13 + 8 * k + g → exec (.railFail r mv) s = .next
          ((((List.range 48).foldl (fun v ch => v.channelFail g ch) u).gateRetry g).settleAll)) ∧
        (∀ n : Fin 16, r.val = 53 + n → exec (.railFail r mv) s = .next (u.spireDown n).settleAll) ∧
        (∀ n : Fin 16, r.val = 69 + n → exec (.railFail r mv) s = .next ((u.spireDown n).spireBlank n).settleAll))) ∧
    (∀ b : Bool,
      (s.power.closed = false ∨ s.flag Loc.glPwrSts (b2n b) = false → exec (.busConverterFail b) s = .next s) ∧
      (s.power.closed = true → s.flag Loc.glPwrSts (b2n b) = true → exec (.busConverterFail b) s = .next
        ((((s.setFlag Loc.glPwrSts (b2n b) false).setFlag Loc.glPwrSts 2 true).setCaps 900).postGlobal 2 0x15 (b2n b) 0)))) ∧
  (
  (∀ w : Nat, 900 ≤ w → w ≤ 1700 → (capOf w : Int) = ⌊4 * ((0.8875 : Rat) * w - 540) / 16⌋) ∧
  (∀ (s : State) (w : Nat) (n : Fin 16), s.canon = true → 900 ≤ w → w ≤ 1700 →
    (s.setCaps w).fld (Loc.spStackCap n) 9 0 = capOf w) ∧
  (∀ (s : State) (n : Fin 16), s.canon = true →
    (s.setLimit n).fld (Loc.spStackLimit n) 9 0 =
      max (s.fld (Loc.spStackCap n) 9 0 *
        (100 - max (s.fld Loc.glTsSts 22 16 n) (s.fld Loc.glStackRed 6 0 n)) / 100) 56 ∧
    (∀ loc idx, loc ≠ Loc.spStackLimit n → idx < 1048576 →
      (s.setLimit n).get loc idx = s.get loc idx) ∧
    Frame [.regs] s (s.setLimit n)))

/-- STACK_OVERRUN, INPUT_MONITOR_SAMPLE and GUARD_RECOVERY_STEP. A stack of a spire in service that is over its limit is
flagged and counted, and logged once in a frame. While the hot-swap is closed, a sample of the input, 1 µs after the
last, shows the means of the last 100 samples and the highest power; above the guard every stack's RED_G rises by 5
points, to 75 at most, at once and every 100 µs; at or below it the next excess acts at once again. A millisecond
below the guard less 60 W gives back 1 point; without such a time, or without a reduction, nothing changes. (After
R364, R365, R502.) SENSOR_SAMPLE, THROTTLE_RECOVERY_STEP, GATEHOUSE_TRIP_RESUME and PLINTH_TRIP_FENCE. While the
hot-swap is closed, a sample of the sensors, 20 µs after the last, is taken sensor by sensor and then acts on each of
the 24 reductions: a failed sensor is not read again, one that is open, or out of −40 to 150 °C, fails: it is logged
and the reductions it feeds become 25. A reduction that a failed sensor feeds stays; at act, by reading or rate, any
other rises by 5 points, to 75 at most, at once and every 100 µs; and a millisecond with every feeding sensor below
caution gives back 1 point. A tripped gatehouse resumes after 10 ms below act. A tripped plinth that is still at act,
by reading or rate, after 10 ms is to be fenced, and one below is not. Where none of this is due nothing changes.
(After R366 to R370, Table PW-5.) Next states are given for STACK_OVERRUN, INPUT_MONITOR_SAMPLE, GUARD_RECOVERY_STEP,
SENSOR_SAMPLE, THROTTLE_RECOVERY_STEP, GATEHOUSE_TRIP_RESUME, PLINTH_TRIP_FENCE. -/
def Obligations.PowerAndTemperatureAct : Prop :=
  (
  ∀ (s : State),
    (∀ n : Fin 16,
      ((s.spire n).out ≠ 0 → exec (.stackOverrun n) s = .next s) ∧
      ((s.spire n).out = 0 →
        let o := s.spireOwner n
        let u := ((s.setFlag Loc.glStackRed 8 true n).bump 6 4 n 1 o).bump (spPage n 8) 4 0 1 o
        (n.val ∈ u.power.overLog → exec (.stackOverrun n) s = .next u) ∧
        (n.val ∉ u.power.overLog → exec (.stackOverrun n) s = .next
          ((u.modPower fun x => { x with overLog := n.val :: x.overLog }).postGlobal 0 0x19 n 0 (some o))))) ∧
    (s.power.closed = false → ∀ v i, exec (.inputMonitorSample v i) s = .next s) ∧
    (s.power.closed = true → ∀ v i : Nat,
      let at_ := s.nextOf s.power.sampledAt 1000
      let t := s.atTime at_
      let l := ((v, i) :: t.power.samples).take 100
      let now := (l.map fun e => e.1 * e.2).sum / (10000 * max 1 l.length)
      let u := ((t.modPower fun x => { x with samples := l, sampledAt := some t.clk.elapsed }).setFld Loc.glVin 13 0
        (meanOf (·.1) l)).setFld Loc.glIin 13 0 (meanOf (·.2) l)
      let w := (u.setFld Loc.glPin 11 0 now).setFld Loc.glPin 27 16 (max (u.fld Loc.glPin 27 16) (now % 4096))
      let g := w.fld Loc.glPwrGuard 10 0
      let x := w.modPower fun x => { x with lowAt := w.sinceWhen (decide (now + 60 < g)) x.lowAt }
      s.reaches at_ →
      (now ≤ g → exec (.inputMonitorSample v i) s = .next (x.modPower fun x => { x with guard := none })) ∧
      (g < now → x.nextOf x.power.guard 100000 ≤ x.clk.elapsed →
        exec (.inputMonitorSample v i) s = .next
          ((x.modPower fun y => { y with guard := some x.clk.elapsed }).setGuard (min 75 (x.fld Loc.glStackRed 6 0 0 + 5)))) ∧
      (g < now → x.clk.elapsed < x.nextOf x.power.guard 100000 → exec (.inputMonitorSample v i) s = .next x)) ∧
    (s.fld Loc.glStackRed 6 0 0 = 0 ∨ s.power.lowAt = none → exec .guardRecoveryStep s = .next s) ∧
    (s.fld Loc.glStackRed 6 0 0 ≠ 0 → ∀ t0 : Nat, s.power.lowAt = some t0 → s.reaches (t0 + 1000000) →
      let t := s.atTime (t0 + 1000000)
      exec .guardRecoveryStep s = .next
        ((t.modPower fun x => { x with lowAt := some t.clk.elapsed }).setGuard (t.fld Loc.glStackRed 6 0 0 - 1))) ∧
    (∀ v, s.setGuard v = (((List.range 16).foldl (fun (s : State) n => (s.setFld Loc.glStackRed 6 0 v n).setLimit n) s).setFlag
      Loc.glPwrSts 3 (v != 0)).bump 6 2 0)) ∧
  (
  ∀ (s : State),
    (s.power.closed = false → ∀ t, exec (.sensorSample t) s = .next s) ∧
    (s.power.closed = true → ∀ t : List (Option Int),
      let at_ := s.nextOf s.power.sensedAt 20000
      let u := (s.atTime at_).modPower fun p => { p with sensedAt := some (s.atTime at_).clk.elapsed }
      s.reaches at_ → exec (.sensorSample t) s = .next
        ((List.range 24).foldl (fun (v : State) u => v.redRise u)
          ((t.take 30).zipIdx.foldl (fun (v : State) e => v.senseOne e.2 e.1) u)).coolDown.settleAll) ∧
    (∀ i : Nat, s.sensorFailed i = true → ∀ x : Option Int, s.senseOne i x = s) ∧
    (∀ i : Nat, s.sensorFailed i = false →
      let fails := (List.range 24).foldl (fun (s : State) u => if i ∈ feeds u then s.setRed u 25 else s)
        (((s.setFlag Loc.glTsVal 16 true i).setFld Loc.glTsSts 3 0 0 i).postGlobal 2 0x13 i 0)
      s.senseOne i none = fails ∧
      (∀ x : Int, (x < -2560 ∨ 9600 < x) → s.senseOne i (some x) = fails) ∧
      (∀ x : Int, -2560 ≤ x → x ≤ 9600 → s.senseOne i (some x) = s.sampleSensor i x)) ∧
    (∀ u : Nat,
      let bad := ∃ i ∈ feeds u, s.sensorFailed i = true
      let act := ∃ i ∈ feeds u, s.level i = 2
      let below := decide (∀ i ∈ feeds u, s.level i = 0)
      let t := s.modPower fun p => { p with cool := lmod p.cool u (s.sinceWhen below) }
      let calm := t.modPower fun p => { p with rise := p.rise.set u none }
      (bad → s.redRise u = s) ∧
      (¬bad → ¬act → s.redRise u = calm) ∧
      (¬bad → act → t.clk.elapsed < t.nextOf (lget none t.power.rise u) 100000 → s.redRise u = t) ∧
      (¬bad → act → t.nextOf (lget none t.power.rise u) 100000 ≤ t.clk.elapsed → s.redRise u =
        (t.modPower fun p => { p with rise := p.rise.set u (some t.clk.elapsed) }).setRed u (min 75 (t.fld Loc.glTsSts 22 16 u + 5)))) ∧
    (s.fallDue = none → exec .throttleRecoveryStep s = .next s) ∧
    (∀ at_ : Nat, s.fallDue = some at_ → s.reaches at_ → exec .throttleRecoveryStep s = .next
      ((List.range 24).foldl (fun (v : State) u => v.redFall u) (s.atTime at_))) ∧
    (∀ u : Nat,
      let red := s.fld Loc.glTsSts 22 16 u
      let bad := ∃ i ∈ feeds u, s.sensorFailed i = true
      (lget none s.power.cool u = none ∨ red = 0 ∨ bad → s.redFall u = s) ∧
      (∀ t0, lget none s.power.cool u = some t0 → red ≠ 0 → ¬bad → s.redFall u =
        if s.clk.elapsed < t0 + 1000000 then s
        else (s.modPower fun p => { p with cool := p.cool.set u (some s.clk.elapsed) }).setRed u (red - 1))) ∧
    (∀ g : Fin 8,
      ((s.gate g).trip = false ∨ lget none s.power.below g = none → exec (.gatehouseTripResume g) s = .next s) ∧
      (∀ t0 : Nat, (s.gate g).trip = true → lget none s.power.below g = some t0 → s.reaches (t0 + 10000000) →
        exec (.gatehouseTripResume g) s = .next
          (((s.atTime (t0 + 10000000)).modGate g fun x => { x with trip := false }).gateRetry g))) ∧
    (∀ e : Side,
      let i := sideNat e
      let trip := s.power.plTrip.find? fun x => x.1 == i
      (trip = none → exec (.plinthTripFence e) s = .next s) ∧
      (∀ x, trip = some x → s.reaches (x.2 + 10000000) →
        let u := (s.atTime (x.2 + 10000000)).modPower fun p => { p with plTrip := p.plTrip.filter fun x => x.1 != i }
        exec (.plinthTripFence e) s = .next (if 2 ≤ u.level (24 + i) then u.wantHalve i 0x12 else u))))

/-- HOLD_PULSE, PULSE_ABSENCE, TAKEOVER_QUERY, TAKEOVER_REFUSAL and TAKEOVER. The holder drives a pulse, 49 µs after its
latest at the earliest. Each circuit senses the line at its own pin: low for 0.5 to 5 µs it is a hold pulse, low for
longer a stuck hold. Three pulses in a row that the holder's own pin does not show are shown in LINE_FAULT and posted.
A standby that may take over and has asked nothing sends its query after 200 µs without a pulse, 10 ms after its
latest refusal at the earliest; the holder refuses a query that reaches it, and the standby then asks no more for 10
ms. 50 µs after its query without a refusal, or at once without a path for it, it takes over; a holder that the query
reaches has refused it within 10 µs. A belfry that does not hold drives no pulse and refuses nothing; one that may not
take over, or has not asked, does not take over. (After R377 to R380.) STUCK_HOLD, STUCK_HOLD_RELEASE and
STUCK_HOLDER_STOPPED. A stuck line is flagged and posted at both belfries, once; with both belfries off nothing senses
it. Its release takes the flags away, and both pins see it as at a pulse. With a stuck hold, no holder and a stopped
one, and a standby, the standby posts a fatal record 10 ms after both, and the device recovers; in any other case
nothing changes. (After R380, Table BF-7.) Next states are given for HOLD_PULSE, PULSE_ABSENCE, TAKEOVER_QUERY,
TAKEOVER_REFUSAL, TAKEOVER, STUCK_HOLD, STUCK_HOLD_RELEASE, STUCK_HOLDER_STOPPED. -/
def Obligations.InterlockIsHeld : Prop :=
  (
  ∀ (s : State) (e : Side), let i := sideNat e
    (∀ w : PulseSeen,
      (s.role i ≠ 3 → exec (.holdPulse e w) s = .next s) ∧
      (s.role i = 3 →
        let at_ := s.nextOf (s.belfry i).drove 49000
        let low := fun (s : State) (k ns : Nat) =>
          if 5000 < ns then s.stuckHold else if 500 ≤ ns then s.modBelfry k fun b => { b with seenAt := s.clk.elapsed } else s
        let t := low (low ((s.atTime at_).modBelfry i fun b => { b with drove := some (s.atTime at_).clk.elapsed }) i w.own) (1 - i) w.other
        let n := (t.belfry i).missed + 1
        let u := (t.modBelfry i fun b => { b with missed := n }).bump (bfPage i) 6 0
        s.reaches at_ →
        (500 ≤ w.own → exec (.holdPulse e w) s = .next (t.modBelfry i fun b => { b with missed := 0 })) ∧
        (w.own < 500 → n ≠ 3 → exec (.holdPulse e w) s = .next u) ∧
        (w.own < 500 → n = 3 → exec (.holdPulse e w) s = .next ((u.setFlag (Loc.bfBfSts i) 5 true).post (bfPage i) 2 0xA1 0 0)))) ∧
    (s.mayTake i = false ∨ (s.belfry i).asked ≠ none → exec (.pulseAbsence e) s = .next s) ∧
    (s.mayTake i = true → (s.belfry i).asked = none →
      let at_ := max ((s.belfry i).seenAt + 200000) (match (s.belfry i).refused with | some r => r + 10000000 | none => 0)
      let t := s.atTime at_
      s.reaches at_ → exec (.pulseAbsence e) s = .next (t.modBelfry i fun b =>
        { b with asked := some t.clk.elapsed, noPath := !(t.pathStatus (bfStation i) (bfStation (1 - i)) == 0),
                 refusal := false })) ∧
    (let o := s.belfry (1 - i)
     let hears := o.asked ≠ none ∧ o.noPath = false ∧ s.role i = 3
     (¬hears → exec (.takeoverQuery e) s = .next s) ∧
     (hears → exec (.takeoverQuery e) s = .next
        ((s.modBelfry (1 - i) fun b => { b with refusal := true }).bump (bfPage i) 4 0))) ∧
    ((s.belfry i).refusal = false → exec (.takeoverRefusal e) s = .next s) ∧
    ((s.belfry i).refusal = true → exec (.takeoverRefusal e) s = .next
      (s.modBelfry i fun b => { b with asked := none, refusal := false, refused := some s.clk.elapsed })) ∧
    ((s.belfry i).asked = none ∨ (s.belfry i).refusal = true ∨ s.mayTake i = false → exec (.takeover e) s = .next s) ∧
    (∀ a, (s.belfry i).asked = some a → (s.belfry i).refusal = false → s.mayTake i = true →
      let refused := (s.belfry i).noPath = false ∧ s.role (1 - i) = 3
      (refused → s.reaches (a + 10000) →
        let t := s.atTime (a + 10000)
        exec (.takeover e) s = .next
          ((t.modBelfry i fun b => { b with asked := none, refused := some t.clk.elapsed }).bump (bfPage (1 - i)) 4 0)) ∧
      (let at_ := if (s.belfry i).noPath = true then a else a + 50000
       ¬refused → s.reaches at_ → exec (.takeover e) s = .next ((s.atTime at_).takeOver i)))) ∧
  (
  ∀ (s : State),
    (s.mgmt.stuckAt ≠ none ∨ (s.role 0 = 0 ∧ s.role 1 = 0) → exec .stuckHold s = .next s) ∧
    (s.mgmt.stuckAt = none → ¬(s.role 0 = 0 ∧ s.role 1 = 0) →
      let u := s.modMgmt fun m => { m with stuckAt := some s.clk.elapsed }
      let v := (u.setFlag (Loc.bfBfSts 0) 4 true).post (bfPage 0) 2 0xA2 0 0
      exec .stuckHold s = .next ((v.setFlag (Loc.bfBfSts 1) 4 true).post (bfPage 1) 2 0xA2 0 0)) ∧
    (s.mgmt.stuckAt = none → exec .stuckHoldRelease s = .next s) ∧
    (s.mgmt.stuckAt ≠ none →
      let u := s.modMgmt fun m => { m with stuckAt := none }
      let seen := fun (s : State) (e : Nat) => s.modBelfry e fun b => { b with seenAt := s.clk.elapsed }
      exec .stuckHoldRelease s = .next
        (((seen (seen u 0) 1).setFlag (Loc.bfBfSts 0) 4 false).setFlag (Loc.bfBfSts 1) 4 false)) ∧
    (let standby := (List.range 2).find? fun e => s.role e == 2
     (s.mgmt.stuckAt = none ∨ s.mgmt.stoppedAt = none ∨ standby = none ∨ s.holder ≠ none ∨ s.flag Loc.glFaultSts 0 = true →
       exec .stuckHolderStopped s = .next s) ∧
     (∀ a b e, s.mgmt.stuckAt = some a → s.mgmt.stoppedAt = some b → standby = some e →
       s.holder = none → s.flag Loc.glFaultSts 0 = false → s.reaches (max a b + 10000000) →
       exec .stuckHolderStopped s = .next (((s.atTime (max a b + 10000000)).post (bfPage e) 3 0xA5 0 0).recovery 0xA5))))

/-- When no belfry holds, one that takes over becomes the holder and the other keeps its role; no record of the state log
is held or on its way, no holder is stopped, the engines are kicked, and every mailbox is empty. (After R378, R381.)
STATE_LOG_RECORD, BELFRY_RESTART, BELFRY_RESTART_CMD, HANDOVER, SELF_TEST_ROTATION and ENGINE_LAPSE. The oldest record
of the state log reaches the standby while they have a path. A stopped belfry restarts beside a holder, counted and
with every mailbox aborted: as a ready standby with an empty state log, or not, and off for good after its third
failure within an hour, posted; one that is standby, holds, or was left off, does not restart. A write of BF_CTL that
reaches its register is rejected with the code of its form, and with 0x05 when it restarts the holder, or hands over
without holding beside a ready standby; otherwise a restart stops the belfry, unless it was left off, to boot anew,
and a handover begins at the next tick. A rotation of the standby's self-test, 1 s after the last, leaves its result.
400 µs after the last kick the engines stop. Without a standby, a path or a kick nothing changes. (After R382, R383,
R386, R387, R394.) Next states are given for STATE_LOG_RECORD, SELF_TEST_ROTATION, BELFRY_RESTART, BELFRY_RESTART_CMD,
HANDOVER, ENGINE_LAPSE. -/
def Obligations.BelfriesServe : Prop :=
  (
  ∀ (s : State) (e : Side), s.canon = true → s.holder = none →
    let t := s.takeOver (sideNat e)
    t.holder = some (sideNat e) ∧ t.role (1 - sideNat e) = s.role (1 - sideNat e) ∧
      t.mgmt.logHeld = [] ∧ t.mgmt.logWait = [] ∧ t.mgmt.stoppedAt = none ∧ t.mgmt.kickAt = some s.clk.elapsed ∧
      (∀ m < 25, (t.mbox m).up = [] ∧ (t.mbox m).down = [])) ∧
  (
  ∀ (s : State),
    (s.standby = none → exec .stateLogRecord s = .next s ∧ ∀ x, exec (.selfTestRotation x) s = .next s) ∧
    (∀ e, s.standby = some e →
      let a := bfStation (1 - e)
      (s.pathStatus a (bfStation e) ≠ 0 → exec .stateLogRecord s = .next s) ∧
      (s.pathStatus a (bfStation e) = 0 →
        let l := s.mgmt.logHeld.take 1
        let t := s.modMgmt fun m => { m with logHeld := m.logHeld.drop 1, logWait := m.logWait ++ l }
        exec .stateLogRecord s = .next
          ((t.setFld (Loc.bfBfSts e) 31 16 (min 65535 t.mgmt.logWait.length)).bump (bfPage e) 7 0 l.length))) ∧
    (∀ (e : Side) (ok : Bool), let i := sideNat e
      (2 ≤ s.role i ∨ (s.belfry i).left = true ∨ s.holder = none → exec (.belfryRestart e ok) s = .next s) ∧
      (s.role i < 2 → (s.belfry i).left = false → s.holder ≠ none →
        let u := (s.addSat (Loc.bfBfSts i) 15 8 1).abortAll
        let l := u.clk.elapsed :: (u.belfry i).fails.filter fun x => decide (u.clk.elapsed < x + 3600000000000)
        let v := (u.setRole i 0).modBelfry i fun b => { b with fails := l, left := decide (3 ≤ l.length) }
        let fresh := fun (b : Belfry) =>
          ({ left := b.left, fails := b.fails, failCount := b.failCount, lastFail := b.lastFail, rotAt := some u.clk.elapsed } : Belfry)
        (ok = true → exec (.belfryRestart e ok) s = .next
          (((((u.modBelfry i fresh).setRole i 2).setFlag (Loc.bfBfSts i) 2 true).setFld (Loc.bfBfSts i) 31 16 0).modMgmt fun m =>
            { m with logHeld := [], logWait := [] })) ∧
        (ok = false → l.length < 3 → exec (.belfryRestart e ok) s = .next v) ∧
        (ok = false → 3 ≤ l.length → exec (.belfryRestart e ok) s = .next
          (v.post (bfPage i) 2 0xA3 0 (v.fld (Loc.bfBfSts i) 15 8))))) ∧
    (∀ (f : Func) (e : Side) (v : Word), let i := sideNat e
      let loc := Loc.bfBfCtl i
      let refused := fun k => s.reject f (loc / 4096) (loc % 4096) k
      let ready := s.role i = 3 ∧ s.role (1 - i) = 2 ∧ s.flag (Loc.bfBfSts (1 - i)) 2 = true
      let due := s.modBelfry i fun b => { b with handDue := true }
      (let w := v.put 1 1 1
       s.accepts f loc w →
       (∀ k, formCheck (locFields loc) w = some k → exec (.belfryRestartCmd f e v) s = .next (refused k)) ∧
       (wellFormedFor loc w →
         (s.role i = 3 ∨ w.bit 0 = true → exec (.belfryRestartCmd f e v) s = .next (refused 5)) ∧
         (s.role i ≠ 3 → w.bit 0 = false → exec (.belfryRestartCmd f e v) s = .next
           (if (s.belfry i).left = true then s else (s.belfryStop i 0).setRole i 1).managed))) ∧
      (let w := v.put 0 0 1
       s.accepts f loc w →
       (∀ k, formCheck (locFields loc) w = some k → exec (.handover f e v) s = .next (refused k)) ∧
       (wellFormedFor loc w →
         (¬ready ∨ w.bit 1 = true → exec (.handover f e v) s = .next (refused 5)) ∧
         (ready → w.bit 1 = false → exec (.handover f e v) s = .next due.managed)))) ∧
    (∀ e, s.standby = some e →
      let at_ := s.nextOf (s.belfry e).rotAt 1000000000
      let t := s.atTime at_
      s.reaches at_ →
      exec (.selfTestRotation 0) s = .next (t.modBelfry e fun b => { b with rotAt := some t.clk.elapsed, selfOk := true }) ∧
      (∀ x : BitVec 8, x ≠ 0 → exec (.selfTestRotation x) s = .next (t.modBelfry e fun b =>
        { b with rotAt := some t.clk.elapsed, selfOk := false, lastFail := x.toNat, failCount := min 255 (b.failCount + 1) }))) ∧
    (s.mgmt.kickAt = none → exec .engineLapse s = .next s) ∧
    (∀ k : Nat, s.mgmt.kickAt = some k → s.reaches (k + 400000) →
      exec .engineLapse s = .next
        (((s.atTime (k + 400000)).setFlag Loc.glMgmtSts 2 false).modMgmt fun m => { m with kickAt := none })))

/-- HEARTBEAT, HEARTBEAT_SEND and HEARTBEAT_LOSS. A heartbeat leaves the port that held it; without a holder nothing takes
it, and one that does not open under the management key is discarded and counted. One of no device of the upper pair,
or before the join has come to heartbeats, is counted as ignored; any other names the upper holder, is counted, and
leaves its time and TOP_OK; an attached device that is not the top isolates at the next tick when TOP_OK is 0 or
LOSS_US had passed, and an isolated one is readmitting with TOP_OK. A manager that holds its pair and whose engine
runs sends one to every device of its groups but itself every HB_US; any other sends none. An attached device that is
not the top isolates at the next tick after LOSS_US without a heartbeat, or at once after one without TOP_OK; any
other does not. (After R393, R396, R416, R476, Table BF-6.) Next states are given for HEARTBEAT, HEARTBEAT_SEND,
HEARTBEAT_LOSS. -/
def Obligations.HeartbeatsAttach : Prop :=
  ∀ (s : State),
    (∀ (k : Pkt), let r := s.takeHeld k
      (r.holder = none → exec (.heartbeat k) s = .next r) ∧
      (∀ h, r.holder = some h →
        (r.openMgmt k = none → exec (.heartbeat k) s = .next (r.mgmtDrop k)) ∧
        (∀ u j, r.openMgmt k = some (u, j) →
          (u.isUpper j.srcDev.toNat = false ∨ u.admits = false → exec (.heartbeat k) s = .next (u.bump (bfPage h) 9 0)) ∧
          (u.isUpper j.srcDev.toNat = true → u.admits = true →
            let top := j.addr.toNat % 2 == 1
            let due := u.fld Loc.glMgmtSts 1 0 == 1 && !u.topDevice && (!top || decide (u.mgmt.hbAt + u.lossNs ≤ u.clk.elapsed))
            let v := ((u.setFld Loc.glMgmtHolder 15 0 j.srcDev.toNat).bump (bfPage h) 8 0)
            let w := v.modMgmt fun m => { m with hbAt := v.clk.elapsed, topOk := top, isolateDue := m.isolateDue || due }
            exec (.heartbeat k) s = .next
              (if u.fld Loc.glMgmtSts 1 0 = 2 ∧ j.addr.toNat % 2 = 1 then w.setFld Loc.glMgmtSts 1 0 3 else w))))) ∧
    (let sends := s.fld Loc.glMgmtCfg 1 0 ≠ 0 ∧ s.flag Loc.glMgmtSts 2 = true ∧ s.mgmt.kickAt ≠ none
     (¬sends → exec .heartbeatSend s = .next s) ∧
     (sends →
      let at_ := s.nextOf s.mgmt.hbSent (1000 * s.fld Loc.glMgmtHb 7 0)
      let t := s.atTime at_
      s.reaches at_ →
      exec .heartbeatSend s = .next (t.hbTargets.foldl
        (fun (v : State) d => if v.isOwn d = true then v else (v.sendMgmt 0 (v.hbPkt t.mgmt.hbSeq d)).1)
        (t.modMgmt fun m => { m with hbSeq := (t.mgmt.hbSeq + 1) % 2 ^ 24, hbSent := some t.clk.elapsed })))) ∧
    (s.fld Loc.glMgmtSts 1 0 ≠ 1 ∨ s.topDevice = true → exec .heartbeatLoss s = .next s) ∧
    (s.fld Loc.glMgmtSts 1 0 = 1 → s.topDevice = false →
      (s.mgmt.topOk = false → exec .heartbeatLoss s = .next (s.modMgmt fun m => { m with isolateDue := true })) ∧
      (let at_ := s.mgmt.hbAt + 10000 * s.fld Loc.glMgmtHb 15 8
       s.mgmt.topOk = true → s.reaches at_ →
        exec .heartbeatLoss s = .next ((s.atTime at_).modMgmt fun m => { m with isolateDue := true })))

/-- ADMIT, PAIR_TAKEOVER_QUERY, MGMT_RESP, REG_WRITE and REG_READ. A request that the service does not take has no other
effect than leaving its port, or being counted as discarded. ADMIT of the upper holder, once the join has come to
admission, is answered with 0 when its count is a tick of the device at least 100 µs ahead, and sets the admission
tick, and with 2 otherwise; any other is answered with 3. The query of the partner is refused with 1 by a holder of
the pair and not answered by another; a query of anyone else is answered with 3. The partner's refusal of the query
asked ends the takeover of the pair; any other response changes nothing. REG_WRITE and REG_READ that the service
serves are answered with 0; REG_WRITE applies its entries in order and stops at the first rejected one, answered with
2, its code and its index; REG_READ returns the words in order; any other is answered with 3. (After R390, R395, R399,
R416, R476, Table BF-5.) Next states are given for ADMIT, PAIR_TAKEOVER_QUERY, MGMT_RESP, REG_WRITE, REG_READ. -/
def Obligations.RequestsAreAnswered : Prop :=
  ∀ (s : State) (k : Pkt), let u := (s.takeMgmt k).1
    (∀ c ∈ [Instr.admitAt k, .pairTakeoverQuery k, .mgmtResp k, .regWrite k, .regRead k],
      (s.takeMgmt k).2 = none → exec c s = .next u) ∧
    (∀ j : Pkt, (s.takeMgmt k).2 = some j →
      (u.fromHolder j = true → u.admits = true →
        let c := leNat (j.data.take 8)
        (c % u.period = 0 → u.clk.count + 100000 ≤ c →
          exec (.admitAt k) s = .next ((u.modMgmt fun m => { m with admitAt := some c }).mgmtReply j 0 [])) ∧
        ((c % u.period ≠ 0 ∨ c < u.clk.count + 100000) → exec (.admitAt k) s = .next (u.mgmtReply j 2 []))) ∧
      ((u.fromHolder j = false ∨ u.admits = false) → exec (.admitAt k) s = .next (u.mgmtReply j 3 [])) ∧
      (u.fromPartner j = false → exec (.pairTakeoverQuery k) s = .next (u.mgmtReply j 3 [])) ∧
      (u.fromPartner j = true → exec (.pairTakeoverQuery k) s = .next
        (if u.flag Loc.glMgmtSts 2 = true then u.mgmtReply j 1 [] else u)) ∧
      (let ends := u.mgmt.pairAsked ≠ none ∧ u.fromPartner j = true ∧ mgCmd j = 4 ∧ mgMid j = u.mgmt.mid ∧ j.status = 1
       exec (.mgmtResp k) s = .next
         (if ends then u.modMgmt fun m => { m with pairAsked := none, pairRefused := some u.clk.elapsed } else u)) ∧
      (let l := (List.range (min 32 (pktEntries j 8))).map fun i => (i, pktWord j (2 * i), pktWord j (2 * i + 1))
       let w := u.mgmtWrites l
       let serves := u.mgmtServes j false (l.map fun e => (e.2.1, some e.2.2))
       (serves = false → exec (.regWrite k) s = .next (u.mgmtReply j 3 [])) ∧
       (serves = true → w.2 = none → exec (.regWrite k) s = .next (w.1.mgmtReply j 0 [])) ∧
       (∀ c i : Nat, serves = true → w.2 = some (c, i) →
        exec (.regWrite k) s = .next (w.1.mgmtReply j 2 [BitVec.ofNat 8 c, BitVec.ofNat 8 i]))) ∧
      (let l := (List.range (min 64 (pktEntries j 4))).map fun i => pktWord j i
       let serves := u.mgmtServes j true (l.map fun o => (o, none))
       let r := l.foldl
         (fun (x : State × List Byte) o =>
           ((x.1.readReg .mgmt (barPlace o).1 (barPlace o).2).1,
            x.2 ++ leBytes 4 (x.1.readReg .mgmt (barPlace o).1 (barPlace o).2).2.toNat)) (u, [])
       (serves = false → exec (.regRead k) s = .next (u.mgmtReply j 3 [])) ∧
       (serves = true → exec (.regRead k) s = .next (r.1.mgmtReply j 0 r.2)))) ∧
    (∀ t : State, t.mgmtWrites [] = (t, none) ∧
      ∀ i o v l,
        let x := t.writeReg .mgmt (barPlace o).1 (barPlace o).2 (BitVec.ofNat 32 v)
        let rejected := x.get Loc.moRejTotal ≠ t.get Loc.moRejTotal
        (¬rejected → t.mgmtWrites ((i, o, v) :: l) = x.mgmtWrites l) ∧
        (rejected → t.mgmtWrites ((i, o, v) :: l) = (x, some (x.fld ((barPlace o).1 * 4096 + 0x014) 7 0, i))))

/-- LAYOUT_COMMIT and LAYOUT_DISCARD. A write of LAY_CTL with COMMIT, or with DISCARD, that reaches its register is
rejected with the code of its form, and with 0x02 when it sets both. A commit is rejected with 0x02 when the staged
layout conflicts or has too many tags, else with 0x05 when it needs a stopped partition, else with 0x06 when it
defines a partition without a sound entropy source, or when a layout waits already; otherwise the staged layout waits
for the tick, counted. DISCARD takes back the layout in force. (After R405, Table SE-1.) Next states are given for
LAYOUT_COMMIT, LAYOUT_DISCARD. -/
def Obligations.LayoutsAreCommitted : Prop :=
  ∀ (s : State) (f : Func) (v : Word),
    let loc := Loc.seLayCtl
    let refused := fun k => s.reject f (loc / 4096) (loc % 4096) k
    (let w := v.put 0 0 1
     s.accepts f loc w →
     (∀ k, formCheck (locFields loc) w = some k → exec (.layoutCommit f v) s = .next (refused k)) ∧
     (wellFormedFor loc w →
       (w.bit 1 = true → exec (.layoutCommit f v) s = .next (refused 2)) ∧
       (w.bit 1 = false →
         (s.layoutForm = false ∨ s.layoutTags = false → exec (.layoutCommit f v) s = .next (refused 2)) ∧
         (s.layoutForm = true → s.layoutTags = true → s.layoutStopped = false →
           exec (.layoutCommit f v) s = .next (refused 5)) ∧
         (s.layoutForm = true → s.layoutTags = true → s.layoutStopped = true → (s.layoutEntropy = false ∨ s.sec.layPend ≠ none) →
           exec (.layoutCommit f v) s = .next (refused 6)) ∧
         (s.layoutForm = true → s.layoutTags = true → s.layoutStopped = true → s.layoutEntropy = true → s.sec.layPend = none →
           exec (.layoutCommit f v) s = .next
             ((s.modSec fun x => { x with layPend := some s.stagedLayout }).bump 0x0E00 6 0).managed)))) ∧
    (let w := v.put 1 1 1
     s.accepts f loc w →
     (∀ k, formCheck (locFields loc) w = some k → exec (.layoutDiscard f v) s = .next (refused k)) ∧
     (wellFormedFor loc w →
       (w.bit 0 = true → exec (.layoutDiscard f v) s = .next (refused 2)) ∧
       (w.bit 0 = false → exec (.layoutDiscard f v) s = .next (s.modSec fun x =>
         { x with spires := (List.range 8).map fun p => ((s.spiresOf p).map fun n => 2 ^ n).sum, tags := s.lay.tags,
                  gran := s.lay.gran }).managed)))

/-- SE_CLAIM, SE_RELEASE, CLAIM_LAPSE and ENTROPY_FAIL. A write of SE_CLAIM with CLAIM, or with RELEASE alone, that
reaches its register is rejected with the code of its form, and with 0x03 under another function's claim; otherwise a
claim makes the function the engine's, and a release frees it. A claim lapses 10 ms after its latest command; a free
or running engine has none to lapse. A failed test of the entropy source is flagged and posted. (After R408, R424.)
KX_OFFER, KX_ACCEPT, KX_FINISH, KX_ACTIVATE, KEY_DROP and SESSION_END. A write of SE_CMD that reaches its register is
rejected with 0x03 under another function's claim, else with the code of its form, with 0x05 without a claim or for a
SESSION_END of a partition that is not stopped, and with 0x06 while the engine runs; otherwise the engine runs the
command, counted, with the operand and the blob that it reads. A write of fewer than four bytes is rejected with 0x02
(R485). A command for the tick is judged at once: 0x5 for a key or session that is not the function's, 0x8 without the
entry or session, 0x7 for a SESSION_END without a sound entropy source; else it waits for the tick. (After R407, R413,
R415, R424, Table SE-4.) Next states are given for SE_CLAIM, SE_RELEASE, CLAIM_LAPSE, ENTROPY_FAIL, KX_ACCEPT,
KX_FINISH, KX_OFFER, KX_ACTIVATE, KEY_DROP, SESSION_END. -/
def Obligations.EngineIsClaimedAndStarts : Prop :=
  (
  ∀ (s : State) (f : Func) (v : Word),
    let loc := Loc.seSeClaim
    let refused := fun k => s.reject f (loc / 4096) (loc % 4096) k
    let other := s.seClaim ≠ 15 ∧ s.seClaim ≠ fcode f
    (let w := v.put 0 0 1
     s.accepts f loc w →
     (∀ k, formCheck (locFields loc) w = some k → exec (.seClaim f v) s = .next (refused k)) ∧
     (wellFormedFor loc w →
       (other → exec (.seClaim f v) s = .next (refused 3)) ∧
       (¬other → exec (.seClaim f v) s = .next
         ((s.setFld Loc.seSeSts 11 8 (fcode f)).modSec fun x =>
           { x with cmdAt := s.clk.elapsed, claimDone := s.seClaim == fcode f && x.claimDone }).managed))) ∧
    (let w := (v.put 1 1 1).put 0 0 0
     s.accepts f loc w →
     (∀ k, formCheck (locFields loc) w = some k → exec (.seRelease f v) s = .next (refused k)) ∧
     (wellFormedFor loc w →
       (other → exec (.seRelease f v) s = .next (refused 3)) ∧
       (¬other → exec (.seRelease f v) s = .next (s.setFld Loc.seSeSts 11 8 15).managed))) ∧
    (s.seClaim = 15 ∨ s.seBusy = true → exec .claimLapse s = .next s) ∧
    (s.seClaim ≠ 15 → s.seBusy = false → s.reaches (s.sec.cmdAt + 10000000) →
      exec .claimLapse s = .next ((s.atTime (s.sec.cmdAt + 10000000)).setFld Loc.seSeSts 11 8 15)) ∧
    (∀ x : BitVec 8, exec (.entropyFail x) s = .next
      ((s.setFlag Loc.seSeSts 2 false).post 0x0E00 2 0xA8 0 x.toNat))) ∧
  (
  ∀ (s : State) (f : Func) (v : Word) (n : Nat),
    let loc := Loc.seSeCmd
    let refused := fun k => s.reject f (loc / 4096) (loc % 4096) k
    (n < 4 → (s.accepts f loc (v.put 3 0 2) → exec (.kxAccept f v n) s = .next (refused 2)) ∧
      (s.accepts f loc (v.put 3 0 3) → exec (.kxFinish f v n) s = .next (refused 2))) ∧
    (4 ≤ n → ∀ x ∈ [(1, Instr.kxOffer f v), (2, .kxAccept f v n), (3, .kxFinish f v n), (4, .kxActivate f v), (5, .keyDrop f v),
        (6, .sessionEnd f v)],
      let w := v.put 3 0 x.1
      let entry := s.keyEntry (w.bit 4) (w.bits 19 8) (s.fld Loc.seSeArg 15 0)
      let r : SeRun := { cmd := x.1, mgmt := w.bit 4, tag := w.bits 19 8, peer := s.fld Loc.seSeArg 15 0, func := fcode f
                         input := if x.1 = 2 ∨ x.1 = 3 then s.kxBytes else []
                         wasDue := match entry with | some (_, k) => k.due | none => false }
      let q : Nat × State := if x.1 ≤ 3 then (0, s) else s.tickCommand r
      s.accepts f loc w →
      (s.seClaim ≠ 15 → s.seClaim ≠ fcode f → exec x.2 s = .next (refused 3)) ∧
      (s.seClaim = 15 ∨ s.seClaim = fcode f →
        (∀ k, formCheck (locFields loc) w = some k → exec x.2 s = .next (refused k)) ∧
        (wellFormedFor loc w →
          let early := s.seClaim = 15 ∨ (x.1 = 6 ∧ s.pfState (w.bits 10 8) ≠ 0)
          (early → exec x.2 s = .next (refused 5)) ∧
          (¬early → s.seBusy = true → exec x.2 s = .next (refused 6)) ∧
          (¬early → s.seBusy = false →
            let u := (q.2.setFlag Loc.seSeSts 0 true).bump 0x0E00 2 0
            exec x.2 s = .next (u.modSec fun y =>
              { y with run := some { r with res := q.1 }, cmdAt := u.clk.elapsed, claimDone := false }).managed)))) ∧
    (∀ r : SeRun,
      (r.cmd = 6 →
        let p := r.tag % 8
        let mine := r.func = 0 ∨ r.func = p + 1
        (¬mine → s.tickCommand r = (5, s)) ∧
        (mine → s.defined p = false → s.tickCommand r = (8, s)) ∧
        (mine → s.defined p = true → s.flag Loc.seSeSts 2 = false → s.tickCommand r = (7, s)) ∧
        (mine → s.defined p = true → s.flag Loc.seSeSts 2 = true →
          s.tickCommand r = (0, s.modSec fun x => { x with endDue := x.endDue ++ [p] }))) ∧
      (r.cmd ≠ 6 →
        (s.keyOwner r.func r.mgmt r.tag = false → s.tickCommand r = (5, s)) ∧
        (s.keyOwner r.func r.mgmt r.tag = true →
          (s.keyEntry r.mgmt r.tag r.peer = none → s.tickCommand r = (8, s)) ∧
          (∀ i k, s.keyEntry r.mgmt r.tag r.peer = some (i, k) → s.tickCommand r =
            (0, s.setKey i (some (if r.cmd = 4 then { k with due := k.due || !k.sealing } else { k with drop := true }))))))))

/-- SE_COMMAND_DONE and OLD_KEY_EXPIRY. A running command ends while a belfry is active, one for the tick once that has
acted or it has failed: BUSY falls, DONE and the result stand, the claim's command is done, and the claiming
function's vector fires; a failed exchange is counted. The older receive key of an entry ends at its moment, 1 ms
after the new one was first seen used, and at the command where none has been. Without a running command, without a
belfry, before the tick, and without an entry nothing changes. (After R413, R424.) How an exchange's command ends. One
that has failed already keeps its result, and one for a key that is not the function's ends 0x5. An offer ends 0x6
without an entry for its key, 0x7 without a sound entropy source, else it leaves a blob of 4,864 bytes in the KX_OUT
window and is outstanding. An acceptance ends with the first check of the blob that fails, then 0x6 and 0x7 in turn,
else it answers and installs its entry, to seal with once the peer does. A finish ends 0x8 without its offer, which is
over now, 0x5 when the offer's tag has left its partition, with the first check that fails, and 0x6 without an entry;
else it installs the initiator's entry. The checks of a blob are its form (0x2), its signature (0x3) and the sender's
identity (0x4), in this order. (After R411, R412, R416, Table SE-4.) Next states are given for SE_COMMAND_DONE,
OLD_KEY_EXPIRY. -/
def Obligations.EngineEndsWithKeys : Prop :=
  (
  ∀ (s : State),
    (s.sec.run = none → exec .seCommandDone s = .next s) ∧
    (∀ r : SeRun, s.sec.run = some r →
      let over_ := s.holder ≠ none ∧ (r.res ≠ 0 ∨ s.ticked r = true)
      (¬over_ → exec .seCommandDone s = .next s) ∧
      (over_ →
        let q := if r.cmd ≤ 3 then s.kxDone r else (r.res, s)
        let u := q.2.modSec fun x => { x with run := none, claimDone := true }
        let t := if q.1 ≠ 0 ∧ r.cmd ≤ 3 then u.bump 0x0E00 3 0 else u
        exec .seCommandDone s = .next (((t.setFlag Loc.seSeSts 0 false).setFlag Loc.seSeSts 1 true).setFld Loc.seSeSts 7 4 q.1).doneIrq)) ∧
    (∀ i : Fin 4096,
      (tget none s.pairKeys i = none → exec (.oldKeyExpiry i) s = .next s) ∧
      (∀ k : PairKey, tget none s.pairKeys i = some k →
        (k.oldEnd = none → exec (.oldKeyExpiry i) s = .next (s.setKey i (some { k with oldRx := none, oldEnd := none }))) ∧
        (∀ x : Nat, k.oldEnd = some x → s.reaches x →
          exec (.oldKeyExpiry i) s = .next ((s.atTime x).setKey i (some { k with oldRx := none, oldEnd := none })))))) ∧
  (
  ∀ (s : State) (r : SeRun),
    let tag := if r.mgmt = true then 0 else r.tag
    let slot := s.keySlot r.mgmt tag r.peer
    let sound := s.flag Loc.seSeSts 2 = true
    (r.res ≠ 0 → s.kxDone r = (r.res, s)) ∧
    (r.res = 0 → s.keyOwner r.func r.mgmt r.tag = false → s.kxDone r = (5, s)) ∧
    (r.res = 0 → s.keyOwner r.func r.mgmt r.tag = true →
      (r.cmd = 1 →
        (slot = none → s.kxDone r = (6, s)) ∧
        (slot ≠ none → ¬sound → s.kxDone r = (7, s)) ∧
        (slot ≠ none → sound → s.kxDone r = (0, s.kxOffer r tag))) ∧
      (r.cmd = 2 →
        let c := s.blobCheck r 1 2 []
        (c ≠ 0 → s.kxDone r = (c, s)) ∧
        (c = 0 → slot = none → s.kxDone r = (6, s)) ∧
        (c = 0 → slot ≠ none → ¬sound → s.kxDone r = (7, s)) ∧
        (∀ i, c = 0 → slot = some i → sound → s.kxDone r = (0, s.kxAnswer r tag i))) ∧
      (r.cmd = 3 →
        let mine := fun (o : KxOffer) => o.mgmt == r.mgmt && o.tag == tag && o.peer == r.peer
        (s.sec.offers.find? mine = none → s.kxDone r = (8, s)) ∧
        (∀ o, s.sec.offers.find? mine = some o →
          let u := s.modSec fun x => { x with offers := x.offers.filter fun o => !mine o }
          let c := u.blobCheck r 0x11 0x12 (digest64 o.blob)
          (o.lost = true → s.kxDone r = (5, u)) ∧
          (o.lost = false → c ≠ 0 → s.kxDone r = (c, u)) ∧
          (o.lost = false → c = 0 → slot = none → s.kxDone r = (6, u)) ∧
          (∀ i, o.lost = false → c = 0 → slot = some i → s.kxDone r = (0, u.kxInstall r o tag i))))) ∧
    (let t := s.kxOffer r tag
     t.sec.kxOut.length = 4864 ∧ Frame [.sec, .free] s t ∧
     ∃ o ∈ t.sec.offers, o.mgmt = r.mgmt ∧ o.tag = tag ∧ o.peer = r.peer ∧ o.lost = false ∧ o.blob = t.sec.kxOut) ∧
    (∀ i, r.mgmt = false →
      let t := s.kxAnswer r tag i
      Frame [.sec, .free, .pairKeys, .regs, .mgmt] s t ∧
      (tget none t.pairKeys i).any (fun k => !k.mgmt && !k.due && !k.sealing && k.tag == tag && k.peer == r.peer) = true) ∧
    (∀ i o, r.mgmt = false →
      let t := s.kxInstall r o tag i
      Frame [.pairKeys, .regs, .mgmt] s t ∧
      (tget none t.pairKeys i).any (fun k => !k.mgmt && k.due && !k.sealing && k.tag == tag && k.peer == r.peer) = true) ∧
    (∀ job mgmt offer,
      let b := r.input
      let signed := Config.falconOk (slice b 1632 1793) (offer ++ b.take 3584) (slice b 3584 1280)
      s.blobCheck r job mgmt offer =
        if s.blobForm r (if r.mgmt = true then mgmt else job) = false then 2 else if signed = false then 3
        else if s.identOk r.mgmt b = false then 4 else 0))

/-- ATT_REPORT, ATT_REPORT_DONE, the five SPDM_ commands and IDE_KM. A write of ATT_CMD with GO that reaches its register
is rejected with the code of its form, and with 0x06 while a report is under way; otherwise one is. It ends while a
belfry is active: the report with its signature and the public key stands in the report window, and is counted. A
request of a function without a DOE mailbox changes nothing; of a host function it is answered Busy before step 1 has
passed and without an active belfry, dropped when it comes before the requests that it follows, and else answered:
GET_VERSION begins the connection anew, the next two carry it on, a vendor-defined request is answered with the report
and the public key, a key exchange with a signature made with the ECDSA key, and the key of IDE_KM is kept for the
function. (After R419 to R422, R479.) Next states are given for ATT_REPORT, ATT_REPORT_DONE, SPDM_GET_VERSION,
SPDM_GET_CAPABILITIES, SPDM_NEGOTIATE_ALGORITHMS, SPDM_VENDOR_DEFINED, SPDM_KEY_EXCHANGE, IDE_KM. -/
def Obligations.ReportsAndSessionsRun : Prop :=
  ∀ (s : State),
    (∀ (f : Func) (v : Word), let w := v.put 0 0 1
      let loc := Loc.seAttCmd
      let refused := fun k => s.reject f (loc / 4096) (loc % 4096) k
      s.accepts f loc w →
      (∀ k, formCheck (locFields loc) w = some k → exec (.attReport f v) s = .next (refused k)) ∧
      (wellFormedFor loc w →
        (s.flag Loc.seAttSts 16 = true → exec (.attReport f v) s = .next (refused 6)) ∧
        (s.flag Loc.seAttSts 16 = false → exec (.attReport f v) s = .next
          ((s.setFlag Loc.seAttSts 16 true).modSec fun x => { x with attBy := fcode f }).managed))) ∧
    (s.flag Loc.seAttSts 16 = false ∨ s.holder = none → exec .attReportDone s = .next s) ∧
    (s.flag Loc.seAttSts 16 = true → s.holder ≠ none →
      let nonce := wordBytes ((List.range 8).map fun k => s.get (Loc.seAttNonce k))
      let r := s.reportAll (if s.sec.attBy = 9 then 0xFE else s.sec.attBy) nonce
      exec .attReportDone s = .next
        ((r.2.setFlag Loc.seAttSts 16 false).modSec fun x => { x with report := bytesWords r.1 1473 }).reportCount) ∧
    (∀ req nonce, let d := s.draw
      let body := s.reportBody req nonce
      s.reportAll req nonce = (body ++ falconSign body d.1 ++ falconKey, d.2)) ∧
    (∀ (f : Func) (nonce : List Byte) (key : BitVec 256),
      let asks := [(0, Instr.spdmGetVersion f), (1, .spdmGetCapabilities f), (2, .spdmNegotiateAlgorithms f),
        (3, .spdmVendorDefined f nonce), (3, .spdmKeyExchange f), (4, .ideKm f key)]
      (fnIdx f = none → ∀ x ∈ asks, exec x.2 s = .next s) ∧
      (∀ i, fnIdx f = some i →
        (s.step1Over = false ∨ s.holder = none → ∀ x ∈ asks, exec x.2 s = .next { s with resp := .retry }) ∧
        (s.step1Over = true → s.holder ≠ none →
          (∀ x ∈ asks, (s.fn i).spdm < x.1 → exec x.2 s = .next { s with resp := .none }) ∧
          (let at_ := (s.fn i).spdm
           let ok : State := { s with resp := .done }
           let r := s.reportAll (if i = 0 then 0xFF else i) nonce
           let d := s.draw
           let sig := (List.range 96).map fun k => Config.ecdsaSign (deviceBytes 1 64) d.1 k
           exec (.spdmGetVersion f) s = .next (ok.modFn i fun x => { x with spdm := 1 }) ∧
           (1 ≤ at_ → exec (.spdmGetCapabilities f) s = .next (ok.modFn i fun x => { x with spdm := max x.spdm 2 })) ∧
           (2 ≤ at_ → exec (.spdmNegotiateAlgorithms f) s = .next (ok.modFn i fun x => { x with spdm := max x.spdm 3 })) ∧
           (3 ≤ at_ → exec (.spdmVendorDefined f nonce) s = .next { r.2.reportCount with resp := .bytes r.1 }) ∧
           (3 ≤ at_ → exec (.spdmKeyExchange f) s = .next
             (({ d.2 with resp := .bytes sig } : State).modFn i fun x => { x with spdm := 4 })) ∧
           (4 ≤ at_ → exec (.ideKm f key) s = .next (ok.modFn i fun x => { x with ide := some key }))))))

/-- ERROR_HANDLE: the fault service of the active belfry takes an entry that heads its queue, a fatal one before any
other, and among those of one kind none that another precedes. It merges into the newest record of its class, code,
unit and page that is not acknowledged, adding its repeats, or becomes a record of its own with the next number: a log
with room takes it behind the others, and a full log never grows. Without an active belfry, and with empty queues,
nothing changes. (After R432 to R436.) LOG_ACK and LOG_CLEAR. A write of LOG_ACK that reaches its register is rejected
with the code of its form; otherwise with ACK the selected record is acknowledged, and with CLEAR the acknowledged
records go, and with the last restored one of them the mark and the copy of the saved log. (After R438.)
COMPLETION_TIMEOUT and RECOVERY_AUTO_RESET. A transaction of the fabric that has no completion CTO_FAB after its
acceptance, and a transaction inside the device that has none CTO_INT after it was sent, ends by its timeout, and so
does a message of a spire to itself. A timed-out transaction inside the device is answered with 0x35, after a record
of 0x0B. How the number of the command names a transaction is the model's choice (log entry 248). A number that names
no open transaction, and a multicast with copies still open, end nothing. In recovery with AUTO_RESET the module is
reset 100 ms after recovery began; in any other case nothing changes. (After R439, R450.) Next states are given for
ERROR_HANDLE, LOG_ACK, LOG_CLEAR, COMPLETION_TIMEOUT, RECOVERY_AUTO_RESET. -/
def Obligations.ErrorsAreLogged : Prop :=
  (
  ∀ (s : State),
    (s.holder = none ∨ s.nextEntry = none → exec .errorHandle s = .next s) ∧
    (∀ e : ErrEntry, s.holder ≠ none → s.nextEntry = some e →
      let u := s.setQueue e.page ((s.queue e.page).drop 1)
      (∃ q ∈ s.faults.queues, q.2.head? = some e) ∧
      (∀ q ∈ s.faults.queues, ∀ x, q.2.head? = some x → x.cls = 3 → e.cls = 3) ∧
      (∀ q ∈ s.faults.queues, ∀ x, q.2.head? = some x → (x.cls = 3 ↔ e.cls = 3) → e.time ≤ x.time) ∧
      (∀ i, mergePlace s.faults.log e = some i → exec .errorHandle s = .next (u.modFaults fun f => { f with
        log := lmod f.log i fun r => { r with e := { r.e with rep := min 255 (r.e.rep + e.rep + 1), last := e.last } } })) ∧
      (mergePlace s.faults.log e = none →
        exec .errorHandle s = .next (u.logAppend e).managed ∧
        (s.faults.log.length < 256 → (u.logAppend e).faults.log = s.faults.log ++ [{ e := e, seq := s.faults.nextSeq }]) ∧
        (e.cls ≤ 3 → (u.logAppend e).faults.log.length ≤ max 256 s.faults.log.length)))) ∧
  (
  ∀ (s : State) (f : Func) (v : Word),
    let loc := Loc.glLogAck
    let refused := fun k => s.reject f (loc / 4096) (loc % 4096) k
    let acked := s.modFaults fun x => { x with log := lmod x.log (s.fld Loc.glLogSel 7 0) fun r => { r with ack := true } }
    let cleared := fun (s : State) =>
      let u := s.modFaults fun x => { x with log := x.log.filter fun r => !r.ack }
      if u.faults.log.any (·.prior) = true ∨ s.flag Loc.glFaultSts 1 = false then u
      else (u.setFlag Loc.glFaultSts 1 false).modFaults fun x => { x with saved := [] }
    (let w := v.put 0 0 1
     s.accepts f loc w →
     (∀ k, formCheck (locFields loc) w = some k → exec (.logAck f v) s = .next (refused k)) ∧
     (wellFormedFor loc w →
       (w.bit 1 = false → exec (.logAck f v) s = .next acked.managed) ∧
       (w.bit 1 = true → exec (.logAck f v) s = .next (cleared acked).managed))) ∧
    (let w := v.put 1 1 1
     s.accepts f loc w →
     (∀ k, formCheck (locFields loc) w = some k → exec (.logClear f v) s = .next (refused k)) ∧
     (wellFormedFor loc w →
       (w.bit 0 = false → exec (.logClear f v) s = .next (cleared s).managed) ∧
       (w.bit 0 = true → exec (.logClear f v) s = .next (cleared acked).managed)))) ∧
  (
  ∀ (s : State),
    (∀ n : Nat, n < 65536 →
      (s.txn n = none → exec (.completionTimeout n) s = .next s) ∧
      (∀ x : Txn, s.txn n = some x →
        (x.copies ≠ [] → exec (.completionTimeout n) s = .next s) ∧
        (let at_ := x.opened + 1000000 * s.fld Loc.glFaultCtl 17 10
         x.copies = [] → s.reaches at_ →
          exec (.completionTimeout n) s = .next ((s.atTime at_).txnTimeout x).settleAll))) ∧
    (∀ a tid : Nat, tid < 65536 → let n := 65536 * (a + 32) + tid
      (s.callAt a tid = none → exec (.completionTimeout n) s = .next s) ∧
      (∀ c : Call, s.callAt a tid = some c →
        let at_ := c.sent + 10000 * s.fld Loc.glFaultCtl 9 0
        s.reaches at_ → exec (.completionTimeout n) s = .next ((s.atTime at_).callTimeout c).settleAll)) ∧
    (∀ (n : Fin 16) (id : Nat), id < 65536 → let k := 65536 * (n + 1) + id
      ((s.spire n).msg id = none → exec (.completionTimeout k) s = .next s) ∧
      (∀ m : OutMsg, (s.spire n).msg id = some m →
        (m.dev ≠ none ∨ m.dst ≠ n → exec (.completionTimeout k) s = .next s) ∧
        (let at_ := m.sent + 10000 * s.fld Loc.glFaultCtl 9 0
         m.dev = none → m.dst = n → s.reaches at_ →
          exec (.completionTimeout k) s = .next ((s.atTime at_).msgTimeout n id m).settleAll))) ∧
    (∀ c : Call, s.callTimeout c =
      (s.postGlobal 2 0x0B c.st (c.dst + c.tid * 65536) (some (s.callPart c))).answerCall c.st c.tid 0x35 []) ∧
    (s.flag Loc.glFaultSts 0 = false ∨ s.flag Loc.glFaultCtl 18 = false → exec .recoveryAutoReset s = .next s) ∧
    (s.flag Loc.glFaultSts 0 = true → s.flag Loc.glFaultCtl 18 = true → s.reaches (s.faults.recoveryAt + 100000000) →
      exec .recoveryAutoReset s = .next (s.atTime (s.faults.recoveryAt + 100000000)).moduleReset))

/-- RESET_COLD, RESET_MODULE, RESET_PLINTH, RESET_SPIRE, RESET_GATEHOUSE, RESET_PARTITION and RESET_PORT. A write of
RESET_CTL with GO that reaches its register is rejected with the code of its form, with 0x02 for a target out of its
range or an undefined partition, then with 0x05 for the plinth under the holder, for a plinth in halved mode and for a
tripped spire, then with 0x06 for a target inside a reset in progress. A cold or a module reset starts at once; any
other is shown in RESET_STS and waits for the tick. (After R445, R446.) PLINTH_RESET_ASSERT and RESET_RETURN. The
reset of a plinth that waits for its links is asserted when their retry buffers are empty, or 20 µs after its tick.
The parts of the oldest asserted reset return: each spire that was out comes back by its tests, those of a plinth with
the next tick, a gatehouse at once. A spire that does not come back, and parts that fail, set FAILED in RESET_STS, and
parts that fail stay out. The requests held for it are applied, and the finished reset goes. Where no reset is at that
phase nothing changes. (After R448, R449.) RESET_N_ASSERT and RESET_N_RELEASE. A level of RESET_N that has held for
FILTER_US counts as a change of the input, which sets its level and its active flag and clears STUCK at the release;
an active reset empties and holds the module, and the release starts it. A level that the input shows already changes
nothing, and a chattering input only its level and count. (After R470, R471, R475.) Next states are given for
RESET_COLD, RESET_MODULE, RESET_PLINTH, RESET_SPIRE, RESET_GATEHOUSE, RESET_PARTITION, RESET_PORT,
PLINTH_RESET_ASSERT, RESET_RETURN, RESET_N_ASSERT, RESET_N_RELEASE. -/
def Obligations.ResetsAreAskedAndRun : Prop :=
  (
  ∀ (s : State) (f : Func) (v : Word),
    let loc := Loc.glResetCtl
    let refused := fun k => s.reject f (loc / 4096) (loc % 4096) k
    ∀ x ∈ [(1, Instr.resetCold f v), (2, .resetModule f v), (3, .resetPlinth f v), (4, .resetSpire f v),
        (5, .resetGatehouse f v), (6, .resetPartition f v), (7, .resetPort f v)],
      let w := (v.put 31 31 1).put 2 0 x.1
      let g := w.bits 7 3
      let bad := (3 ≤ x.1 ∧ [2, 16, 8, 8, 32].getD (x.1 - 3) 0 ≤ g) ∨ (x.1 = 6 ∧ s.defined g = false)
      let barred := (x.1 = 3 ∧ (s.role g = 3 ∨ s.halved = true)) ∨ (x.1 = 4 ∧ s.power.tripped.contains g = true)
      s.accepts f loc w →
      (∀ k, formCheck (locFields loc) w = some k → exec x.2 s = .next (refused k)) ∧
      (wellFormedFor loc w →
        (bad → exec x.2 s = .next (refused 2)) ∧
        (¬bad → barred → exec x.2 s = .next (refused 5)) ∧
        (¬bad → ¬barred → s.insideReset x.1 g = true → exec x.2 s = .next (refused 6)) ∧
        (¬bad → ¬barred → s.insideReset x.1 g = false →
          (x.1 = 1 → exec x.2 s = .next s.coldReset.managed) ∧
          (x.1 = 2 → exec x.2 s = .next s.moduleReset.managed) ∧
          (3 ≤ x.1 → exec x.2 s = .next ((s.put Loc.glResetSts (BitVec.ofNat 32 (x.1 * 2 + g * 16))).modFaults fun y =>
            { y with resets := y.resets ++ [{ scope := x.1, target := g }] }).managed)))) ∧
  (
  ∀ (s : State),
    (let waiting := s.faults.resets.find? fun x => x.scope == 3 && x.phase == 2
     (waiting = none → exec .plinthResetAssert s = .next s) ∧
     (∀ r : Reset, waiting = some r →
       let idle : Bool := (s.links.filter fun x => x.1 % 4 / 2 == r.target).all fun x => x.2.retry.isEmpty
       (idle = true → exec .plinthResetAssert s = .next (s.plinthAssert r.target).settleAll) ∧
       (idle = false → s.reaches (r.since + 20000) →
         exec .plinthResetAssert s = .next ((s.atTime (r.since + 20000)).plinthAssert r.target).settleAll))) ∧
    (∀ (tests : List (Fin 16 × SpireTest)), let asserted := s.faults.resets.find? fun x => x.phase == 3
      (∀ ok, asserted = none → exec (.resetReturn tests ok) s = .next s) ∧
      (∀ r : Reset, asserted = some r →
        let ends := fun (u : State) => (u.applyHeld.modFaults fun f =>
          { f with resets := f.resets.filter fun x => !(x.scope == r.scope && x.target == r.target) }).settleAll
        let spires := s.resetSpires r
        let lost := spires.foldl (fun s n => s.modSpire n fun x => { x with out := if x.out = 1 then 2 else x.out }) s
        let back := spires.foldl (fun s n => if (s.spire n).out = 1 then s.spireBack n (testOf tests n) else s) s
        let gated := if r.scope = 5 then back.modGate r.target fun g => { g with out := if g.out = 1 then 0 else g.out } else back
        exec (.resetReturn tests false) s = .next (ends (State.resetFailed
          (if r.scope = 5 then lost.modGate r.target fun g => { g with out := 2 }
           else if r.scope = 3 then lost.modPlinth r.target fun x => { x with out := 2 } else lost))) ∧
        (r.scope = 3 → exec (.resetReturn tests true) s = .next ((spires.foldl (fun s n =>
            s.modSpire n fun x => { x with out := if x.out = 0 then 1 else x.out }) back).modFaults fun f =>
          { f with resets := f.resets.map fun x => if x.scope = 3 ∧ x.target = r.target then { x with phase := 4, up := true } else x })) ∧
        (r.scope ≠ 3 → (∀ n ∈ spires, (gated.spire n).out = 0) → exec (.resetReturn tests true) s = .next (ends gated)) ∧
        (r.scope ≠ 3 → (∃ n ∈ spires, (gated.spire n).out ≠ 0) → exec (.resetReturn tests true) s = .next (ends gated.resetFailed))))) ∧
  (
  ∀ (s : State),
    let at_ := lget 0 s.start.edgeAt 0 + 1000 * s.fld Loc.glSbCfg 7 0 0
    let t := s.atTime at_
    let u (high : Bool) : State := (State.setFlag { t with start := { t.start with
       edgeAt := t.start.edgeAt.set 0 t.clk.elapsed } } Loc.glSbSts 0 high 0).addSat Loc.glSbSts 31 16 1 0
    s.reaches at_ →
    (∀ x ∈ [(false, Instr.resetNAssert), (true, .resetNRelease)],
      let same := t.flag Loc.glSbSts 0 0 = x.1 ∧ t.flag Loc.glSbSts 1 0 ≠ x.1
      (same → exec x.2 s = .next t) ∧
      (¬same → (u x.1).chattering 0 = true → exec x.2 s = .next (u x.1))) ∧
    (¬(t.flag Loc.glSbSts 0 0 = false ∧ t.flag Loc.glSbSts 1 0 ≠ false) → (u false).chattering 0 = false →
      exec .resetNAssert s = .next ((u false).setFlag Loc.glSbSts 1 true 0).resetHeld) ∧
    (¬(t.flag Loc.glSbSts 0 0 = true ∧ t.flag Loc.glSbSts 1 0 ≠ true) → (u true).chattering 0 = false →
      exec .resetNRelease s = .next (((u true).setFlag Loc.glSbSts 1 false 0).setFlag Loc.glSbSts 3 false 0).resetFreed))

/-- START_STEP_END. A step of the start that is under way, and step 4 while a side without light holds it, ends: step 1
when East and its images pass, with East as holder; step 2 in step 3 or, with a failed fuse check, in the halt; the
lanes and bonds of step 3 are chosen, and the planes of step 5 are trained; step 4 ends when both sides are lit;
memory and the cell maps of steps 6 and 7 stand; step 8 ends when the time is joined, and step 9 opens the fabric;
with a manager above, step 9 ends attached, else when its ports have settled or 1 s has passed. A step whose condition
does not hold goes on, and with no step under way nothing changes. (After R475, Table HS-11.) START_STEP_LIMIT. A step
from 1 to 9 that is under way, and step 4 while a side without light holds it, reaches its limit and posts 0xB3, a
join that was late already excepted. Step 1 ends without an image when the images fail or neither belfry passes, else
with East or West as holder; step 2 in the halt; step 3, 5, 6 and 7 as at their ends; step 4 with the side replaced or
fenced; the join of step 8 is marked late, posted, and goes on; and step 9 completes. With no such step nothing
changes. (After R475, R478, Table HS-11.) Next states are given for START_STEP_END, START_STEP_LIMIT. -/
def Obligations.StartUpProceeds : Prop :=
  (
  ∀ (s : State) (r : StepResult),
    let runs := s.stepState = 0 ∨ (s.stepState = 3 ∧ s.step_ = 4)
    let ends := fun (t : State) => exec (.startStepEnd r) s = .next t.settleAll
    (¬runs → exec (.startStepEnd r) s = .next s) ∧
    (runs →
      (s.step_ = 1 →
        (r.eastPass = true → s.imagesPass r = true → ends (s.bootEast r.westPass)) ∧
        (r.eastPass = false ∨ s.imagesPass r = false → ends s)) ∧
      (s.step_ = 2 → (r.pass = true → ends (s.beginStep 3)) ∧ (r.pass = false → ends (s.fuseFail r.fuseBlock))) ∧
      (s.step_ = 3 → ends (s.lanesStep r)) ∧
      (s.step_ = 4 → (s.bothLit = true → ends (s.beginStep 5)) ∧ (s.bothLit = false → ends s)) ∧
      (s.step_ = 5 → ends (s.trainStep r)) ∧
      (s.step_ = 6 → ends (s.memoryStep r)) ∧
      (s.step_ = 7 → ends s.mapStep) ∧
      (s.step_ = 8 → (s.timeState = 2 → ends (s.beginStep 9).openFabric) ∧ (s.timeState ≠ 2 → ends s)) ∧
      (s.step_ = 9 →
        (s.hasUpper = true → (s.fld Loc.glMgmtSts 1 0 = 1 → ends s.startDone) ∧ (s.fld Loc.glMgmtSts 1 0 ≠ 1 → ends s)) ∧
        (s.hasUpper = false →
          (s.portsSettled = true → ends s.startDone) ∧
          (s.portsSettled = false → s.reaches (s.start.stepAt + 1000000000) →
            ends (s.atTime (s.start.stepAt + 1000000000)).startDone))) ∧
      (s.step_ = 0 ∨ 9 < s.step_ → ends s))) ∧
  (
  ∀ (s : State) (r : StepResult),
    let runs := (s.stepState = 0 ∧ 1 ≤ s.step_ ∧ s.step_ ≤ 9) ∨ (s.stepState = 3 ∧ s.step_ = 4)
    let t := s.atTime (s.start.stepAt + stepLimit s.step_)
    let u := if t.step_ = 8 ∧ t.time.late = true then t else t.startCode 2 0xB3 t.step_ 0
    let ends := fun (t : State) => exec (.startStepLimit r) s = .next t.settleAll
    (¬runs → exec (.startStepLimit r) s = .next s) ∧
    (runs → s.reaches (s.start.stepAt + stepLimit s.step_) →
      (t.step_ = 1 →
        ((u.imagesPass r = false ∨ (r.eastPass = false ∧ r.westPass = false)) → ends (u.noImage r)) ∧
        (u.imagesPass r = true → r.eastPass = true → ends (u.bootEast r.westPass)) ∧
        (u.imagesPass r = true → r.eastPass = false → r.westPass = true → ends u.bootWest)) ∧
      (t.step_ = 2 → ends (u.fuseFail r.fuseBlock)) ∧
      (t.step_ = 3 → ends (u.lanesStep r)) ∧
      (t.step_ = 4 → ends u.lightLimit) ∧
      (t.step_ = 5 → ends (u.trainStep r)) ∧
      (t.step_ = 6 → ends (u.memoryStep r)) ∧
      (t.step_ = 7 → ends u.mapStep) ∧
      (t.step_ = 8 →
        (u.timeState ≠ 1 ∨ u.time.late = true → ends u) ∧
        (u.timeState = 1 → u.time.late = false →
          ends ((u.modTime fun x => { x with late := true }).postGlobal 2 0x06 0 0))) ∧
      (t.step_ = 9 → ends u.startDone)))

/-- Step 6 of the start with no failed channel leaves every byte of device memory 0, no code word with a key of its own
and no error in it, and an administrative key that is the next one never used. (After R170, R173.) CONTINUE, SAVE and
FAB_ID_WRITE. A write of START_CTL that reaches its register is rejected with the code of its form, and with CONTINUE
outside the pause with 0x05; otherwise SAVE stores the join set and CONTINUE begins the join. A write of FAB_ID is
rejected with the code of its form and with 0x05 once the fabric is open or step 9 has begun; otherwise it is taken.
(After R476, R477.) HOST_LINK_TRAIN, CONFIG_REQUEST and FLR. The trained rate, width and encoding are shown, a link
below 64 GT/s x8 in FLIT mode also as DOWN and posted, and a retrain is posted; without power or in reset no link
trains. A configuration request of a host function is retried until step 1 has passed or 1 s after the start, then
answered with its register's word or taken; a function that is no host function, and a device without power or in
reset, answers nothing. A function-level reset clears the function's mailbox, notices, claim, configuration and window
base. (After R453 to R455, R465, R479.) Next states are given for CONTINUE, SAVE, FAB_ID_WRITE, HOST_LINK_TRAIN,
CONFIG_REQUEST, FLR. -/
def Obligations.HostLinkAndFreshMemory : Prop :=
  (
  ∀ (s : State) (r : StepResult), r.chansFailed = [] →
    (∀ a, (s.memoryStep r).memByte a = 0) ∧ (s.memoryStep r).memKey = [] ∧ (s.memoryStep r).memFlip = [] ∧
    (s.keys.length = 9 → (s.memoryStep r).keys.getD 8 0 = s.nextKey) ∧ (s.memoryStep r).nextKey = s.nextKey + 1) ∧
  (
  ∀ (s : State) (f : Func) (v : Word),
    let loc := Loc.glStartCtl
    let refused := fun (l k : Nat) => s.reject f (l / 4096) (l % 4096) k
    (let w := v.put 0 0 1
     s.accepts f loc w →
     (∀ k, formCheck (locFields loc) w = some k → exec (.continue_ f v) s = .next (refused loc k)) ∧
     (wellFormedFor loc w →
       (s.stepState ≠ 1 → exec (.continue_ f v) s = .next (refused loc 5)) ∧
       (s.stepState = 1 → exec (.continue_ f v) s = .next (if w.bit 1 = true then s.saveJoin else s).beginJoin.managed))) ∧
    (let w := v.put 1 1 1
     s.accepts f loc w →
     (∀ k, formCheck (locFields loc) w = some k → exec (.save f v) s = .next (refused loc k)) ∧
     (wellFormedFor loc w →
       (w.bit 0 = false → exec (.save f v) s = .next s.saveJoin.managed) ∧
       (w.bit 0 = true → s.stepState ≠ 1 → exec (.save f v) s = .next (refused loc 5)) ∧
       (w.bit 0 = true → s.stepState = 1 → exec (.save f v) s = .next s.saveJoin.beginJoin.managed))) ∧
    (s.accepts f Loc.glFabId v →
     (∀ k, formCheck (locFields Loc.glFabId) v = some k → exec (.fabIdWrite f v) s = .next (refused Loc.glFabId k)) ∧
     (wellFormedFor Loc.glFabId v →
       (s.start.fabric = true ∨ 9 ≤ s.step_ → exec (.fabIdWrite f v) s = .next (refused Loc.glFabId 5)) ∧
       (s.start.fabric = false → s.step_ < 9 → exec (.fabIdWrite f v) s = .next (s.put Loc.glFabId v).managed)))) ∧
  (
  ∀ (s : State),
    (∀ (rate : BitVec 3) (width : BitVec 4) (flit : Bool),
      let down : Bool := !(rate == 6 && width == 8 && flit)
      let sts : Nat := rate.toNat + 8 * width.toNat + 128 * b2n flit + 256 * s.fld Loc.glHostSts 8 8 + 512 * b2n down
      let shown := s.put Loc.glHostSts (BitVec.ofNat 32 sts)
      let lower := if down = true then shown.postGlobal 0 0xB8 0 sts else shown
      (s.power.closed = false ∨ s.start.resetN = true → exec (.hostLinkTrain rate width flit) s = .next s) ∧
      (s.power.closed = true → s.start.resetN = false →
        (s.fld Loc.glHostSts 2 0 = 0 → exec (.hostLinkTrain rate width flit) s = .next lower) ∧
        (s.fld Loc.glHostSts 2 0 ≠ 0 → exec (.hostLinkTrain rate width flit) s = .next (lower.postGlobal 0 0xB9 0 sts)))) ∧
    (∀ a : ConfigAccess,
      let on := s.power.closed = true ∧ s.start.resetN = false
      let up := s.step1Over = true ∨ s.start.since + 1000000000 ≤ s.clk.elapsed
      (fnIdx a.f = none ∨ ¬on → exec (.configRequest a) s = .next { s with resp := .none }) ∧
      (∀ i, fnIdx a.f = some i → on →
        (¬up → exec (.configRequest a) s = .next { s with resp := .retry }) ∧
        (up → a.val = none → exec (.configRequest a) s = .next { s with resp := .word (s.cfgRead i a.reg) }) ∧
        (∀ v, up → a.val = some v → exec (.configRequest a) s = .next { s.cfgWrite i v a.reg with resp := .done }))) ∧
    (∀ f : Func,
      (fnIdx f = none → exec (.flr f) s = .next s) ∧
      (∀ i, fnIdx f = some i →
        let u := (s.abortMbox i 0 false true).put (Loc.mbMbSts i) 0
        let freed := if u.seClaim = i then u.setFld Loc.seSeSts 11 8 15 else u
        exec (.flr f) s = .next ((freed.modFn i fun x => { ide := x.ide }).put (Loc.mbWin2Base i) 0))))

/-- WINDOW_READ and WINDOW_WRITE. BAR 2 of a function that has none, or whose BARs are closed, answers nothing. Until step
6 has completed a read is aborted and a write discarded. A read of the window that touches a granule refused to the
function is aborted and posted, and any other sends a load of each of its lines; a write posts each granule refused to
the function once, and sends a byte-masked store of each line of the granules it may write. The bytes of the
function's mailbox page are its registers', at most four a write, and fewer than four are rejected with 0x02; every
other offset reads 0 and takes no write. A read's last line completes it: with the bytes asked for, else with
Completer Abort, an uncorrectable line also as an AER error. (After R455, R457, R458.) Next states are given for
WINDOW_READ, WINDOW_WRITE. -/
def Obligations.WindowReachesMemory : Prop :=
  ∀ (s : State) (f : Func) (offset : Nat),
    (s.barTwo f = none → ∀ len b, exec (.windowRead f offset len) s = .next { s with resp := .none } ∧
      exec (.windowWrite f offset b) s = .next s) ∧
    (∀ i, s.barTwo f = some i →
      (s.windowOpen = false → ∀ len b, exec (.windowRead f offset len) s = .next { s with resp := .abort } ∧
        exec (.windowWrite f offset b) s = .next s) ∧
      (s.windowOpen = true →
        let mailbox := fun len => mailOffset ≤ offset ∧ offset + len ≤ mailOffset + 4096
        (∀ len : Nat,
          (offset + len ≤ windowSize →
            exec (.windowRead f offset len) s = .next (s.windowReadAt i (s.windowAddr i offset) offset len)) ∧
          (windowSize < offset + len →
            let r := s.mailRead f i (offset - mailOffset) len
            (mailbox len → exec (.windowRead f offset len) s = .next { r.1 with resp := .bytes (r.2.take len) }) ∧
            (¬mailbox len → exec (.windowRead f offset len) s = .next { s with resp := .bytes (List.replicate len 0) }))) ∧
        (∀ b : List Byte,
          (offset + b.length ≤ windowSize →
            exec (.windowWrite f offset b) s = .next (s.windowWriteAt i (s.windowAddr i offset) b)) ∧
          (windowSize < offset + b.length →
            let o := offset - mailOffset
            let w := BitVec.ofNat 32 (leNat (b.take 4))
            (mailbox b.length → b.length < 4 → s.accepts f ((0x180 + i) * 4096 + o) w →
              exec (.windowWrite f offset b) s = .next (s.reject f (((0x180 + i) * 4096 + o) / 4096) (((0x180 + i) * 4096 + o) % 4096) 2)) ∧
            (mailbox b.length → b.length = 4 → exec (.windowWrite f offset b) s = .next (s.writeReg f (0x180 + i) o w)) ∧
            (mailbox b.length → 4 < b.length → s.pageOpen f (0x180 + i) = true → fowns f (s.pageOwner (0x180 + i)) = true →
              exec (.windowWrite f offset b) s = .next (s.mailReject i o b.length)) ∧
            (¬mailbox b.length → exec (.windowWrite f offset b) s = .next s))))) ∧
    (∀ i a len : Nat,
      s.windowAddr i offset = s.fld (Loc.mbWin2Base i) 9 0 * 2 ^ 30 + offset ∧
      (∀ l, s.windowRefusal i a len = some l →
        s.windowReadAt i a offset len = { s.granRefused i (l * 256) with resp := .abort }) ∧
      (s.windowRefusal i a len = none →
        let op : HostOp := { read := true, m := i, offset := offset, skip := a % 256, len := len }
        s.windowReadAt i a offset len = ({ s with resp := .none } : State).hostBegin op
          ((rangeLines a len).zipIdx.map fun x => (x.2, s.windowLoad i x.1)))) ∧
    (∀ (i a : Nat) (b : List Byte),
      let lines := rangeLines a b.length
      let barred := ((lines.filter fun l => s.granAccess i (l * 256) == .refused).map fun l => l * 256 / 2 ^ 30).eraseDups
      let posted := barred.foldl (fun s g => s.granRefused i (g * 2 ^ 30)) s
      let op : HostOp := { read := false, m := i, skip := a % 256, len := b.length }
      s.windowWriteAt i a b = posted.hostBegin op
        ((lines.filter fun l => s.granAccess i (l * 256) == .full).zipIdx.map fun x => (x.2, windowStore a x.1 b))) ∧
    (∀ (o : HostOp) (i st : Nat) (data : List Byte), s.hostOp o.id = some o → o.left = 1 →
      let last := { o with left := 0, got := tset [] o.got i data, status := if o.status = 0 then st else o.status }
      let u := { s with hostOps := s.hostOps.filter fun x => x.id != o.id }
      (o.read = false → s.hostLine o.id i st data = u) ∧
      (o.read = true →
        (last.status = 0 → s.hostLine o.id i st data = { u with resp := .bytes last.bytes }) ∧
        (last.status = 0x20 → s.hostLine o.id i st data = { u.aerAbort o.m o.offset with resp := .abort }) ∧
        (last.status ≠ 0 → last.status ≠ 0x20 → s.hostLine o.id i st data = { u with resp := .abort })))

/-- MB_TX_DATA and MB_RX_POP. A host function's word for the belfry joins a queue of fewer than 16, which a longer message
leaves for its part; a full queue rejects it with a notice, 0xB4 and an AER error. While the mailboxes are aborted,
and for the rest of a refused message, words are discarded. A write wider than four bytes is rejected in the same way,
at another function's page with 0x04 and an AER error of the writer, and a narrower one with 0x02. A word of the
belfry, or of a spire's sequencer, joins its queue while both ends serve, and a full queue aborts it. A pop takes the
head word. (After R460, R461, R464.) DOORBELL, FLUSH_TX and FLUSH_RX. A doorbell raises the receiver's event: at the
belfry, which then refuses unknown messages that head the queue, at a host function, whose notice and vector fire only
while BELL is clear, and at a sequencer. A flush of the outgoing queue empties it and sets the receiver's FLUSHED; a
flush of the incoming queue empties it. Nothing happens of a sequencer that does not serve, and of a belfry while none
is active. (After R462, R463.) Next states are given for MB_TX_DATA, MB_RX_POP, DOORBELL, FLUSH_TX, FLUSH_RX. -/
def Obligations.MailboxesCarryWords : Prop :=
  (
  ∀ (s : State) (f : Func),
    (∀ (m : Fin 25) (w : Word) (n : Nat), m.val < 9 → let loc := Loc.mbMbTxData m
      (n < 4 → s.accepts f loc w → exec (.mbTxData f m true w n) s = .next (s.reject f (loc / 4096) (loc % 4096) 2)) ∧
      (n = 4 → s.accepts f loc w →
        let x := s.mbox m
        (s.mailAborted = true → exec (.mbTxData f m true w n) s = .next s.managed) ∧
        (s.mailAborted = false → x.skip ≠ 0 →
          exec (.mbTxData f m true w n) s = .next (s.modMbox m fun x => { x with skip := x.skip - 1 }).managed) ∧
        (s.mailAborted = false → x.skip = 0 → x.up.length < 16 → exec (.mbTxData f m true w n) s = .next
          (s.modMbox m fun x => { x with up := x.up ++ [w] }.flow (s.mailLive m)).managed) ∧
        (s.mailAborted = false → x.skip = 0 → 16 ≤ x.up.length →
          exec (.mbTxData f m true w n) s = .next (s.mailReject m 0x40).managed)) ∧
      (4 < n → let page := 0x180 + m.val
        let u := (s.reject f page 0x40 4).postGlobal 1 0xB4 m 0 (some (fnPart m))
        (s.pageOpen f page = false → exec (.mbTxData f m true w n) s = .next s) ∧
        (s.pageOpen f page = true →
          (fowns f (s.pageOwner page) = true → exec (.mbTxData f m true w n) s = .next (s.mailReject m 0x40 n)) ∧
          (fowns f (s.pageOwner page) = false →
            (fnIdx f = none → exec (.mbTxData f m true w n) s = .next u) ∧
            (∀ i, fnIdx f = some i → exec (.mbTxData f m true w n) s = .next (u.aerAbort i 0x40 n)))))) ∧
    (∀ (m : Fin 25) (w : Word) (n : Nat),
      (9 ≤ m.val →
        (s.seqMail m = false → exec (.mbTxData f m true w n) s = .next s) ∧
        (s.seqMail m = true →
          ((s.mbox m).up.length < 16 → exec (.mbTxData f m true w n) s = .next
            (s.modMbox m fun x => { x with up := x.up ++ [w] })) ∧
          (16 ≤ (s.mbox m).up.length → exec (.mbTxData f m true w n) s = .next { s with resp := .abort }))) ∧
      (let serves := s.holder ≠ none ∧ (m.val < 9 ∨ s.seqMail m = true)
       (¬serves → exec (.mbTxData f m false w n) s = .next s) ∧
       (serves →
        ((s.mbox m).down.length < 16 → exec (.mbTxData f m false w n) s = .next
          (s.modMbox m fun x => { x with down := x.down ++ [w] })) ∧
        (16 ≤ (s.mbox m).down.length → exec (.mbTxData f m false w n) s = .next { s with resp := .abort })))) ∧
    (∀ (m : Fin 9) (v : Word), let loc := Loc.mbMbRxPop m
      let w := v.put 0 0 1
      s.accepts f loc w →
      (∀ k, formCheck (locFields loc) w = some k → exec (.mbRxPop f m v) s = .next (s.reject f (loc / 4096) (loc % 4096) k)) ∧
      (wellFormedFor loc w → exec (.mbRxPop f m v) s = .next (s.modMbox m fun x => { x with down := x.down.drop 1 }).managed))) ∧
  (
  ∀ (s : State) (f : Func) (m : Fin 25),
    let loc := Loc.mbMbCtl m
    let up := fun (u : State) => u.modMbox m fun x => { x with up := [], part := [], skip := 0, flushUp := true }
    let notice := fun (u : State) (bit : Nat) =>
      let v := if bit = 0 then (if m.val = 0 then 1 else 0) else if m.val = 0 then 2 else 1
      if bit = 0 ∧ u.flag (Loc.mbMbSts m) 0 = true then u else (u.setFlag (Loc.mbMbSts m) bit true).irq m v
    (m.val < 9 →
      (s.accepts f loc 1 → exec (.doorbell f m true) s = .next
        ((s.modMbox m fun x => { x with bellUp := true }).refuseUnknown m).managed) ∧
      (s.accepts f loc 2 → exec (.flushTx f m false) s = .next (up s).managed) ∧
      (s.accepts f loc 4 → exec (.flushRx f m false) s = .next (s.modMbox m fun x => { x with down := x.down.drop 16 }).managed)) ∧
    (9 ≤ m.val →
      (s.seqMail m = false → exec (.doorbell f m true) s = .next s ∧ exec (.flushTx f m false) s = .next s ∧
        exec (.flushRx f m false) s = .next s) ∧
      (s.seqMail m = true →
        exec (.doorbell f m true) s = .next (s.modMbox m fun x => { x with bellUp := true }) ∧
        exec (.flushTx f m false) s = .next (up s) ∧
        exec (.flushRx f m false) s = .next (s.modMbox m fun x => { x with down := [] }))) ∧
    (s.holder = none → exec (.doorbell f m false) s = .next s ∧ exec (.flushTx f m true) s = .next s ∧
      exec (.flushRx f m true) s = .next s) ∧
    (s.holder ≠ none →
      (m.val < 9 → exec (.doorbell f m false) s = .next (notice s 0) ∧
        exec (.flushTx f m true) s = .next (notice (s.modMbox m fun x => { x with down := [] }) 3)) ∧
      (9 ≤ m.val → exec (.doorbell f m false) s = .next (s.modMbox m fun x => { x with bellDown := true }) ∧
        exec (.flushTx f m true) s = .next (s.modMbox m fun x => { x with down := [], flushDown := true })) ∧
      exec (.flushRx f m true) s = .next (s.modMbox m fun x => { x with up := [], part := [] })))

/-- STATUS, IMAGE_WRITE, IMAGE_COMMIT, SVN_RAISE, WELL_REMAP, LOG_READ and SET_DEV_ID. The belfry serves the message that
heads the queue whole, and only such a one: it takes its words away and answers with the status of the command, 0x01
or 0x03 for a command that the function may not give now, and its data. IMAGE_WRITE stages words of a known image;
IMAGE_COMMIT makes a sound one the next image; SVN_RAISE raises a minimum version and never lowers one; WELL_REMAP is
a write of REMAP of a spire that the function owns; LOG_READ gives up to 31 records from a number on, a virtual
function those of its partition; SET_DEV_ID is a valid FAB_ID. (After R466, R467, Table HS-6.) Next states are given
for STATUS, IMAGE_WRITE, IMAGE_COMMIT, SVN_RAISE, WELL_REMAP, LOG_READ, SET_DEV_ID. -/
def Obligations.MessagesAreAnswered : Prop :=
  ∀ (s : State) (m : Fin 9) (mid : BitVec 16),
    (∀ (type offset length svn count spire cell row : Nat) (seq id : Word) (words : List Word),
      ∀ x ∈ [(1, ([] : List Word), Instr.status m mid),
          (2, BitVec.ofNat 32 type :: BitVec.ofNat 32 offset :: words, .imageWrite m mid type offset words),
          (3, [BitVec.ofNat 32 type, BitVec.ofNat 32 length], .imageCommit m mid type length),
          (4, [BitVec.ofNat 32 type, BitVec.ofNat 32 svn], .svnRaise m mid type svn),
          (5, [BitVec.ofNat 32 spire, BitVec.ofNat 32 cell, BitVec.ofNat 32 row], .wellRemap m mid spire cell row),
          (6, [seq, BitVec.ofNat 32 count], .logRead m mid seq count), (7, [id], .setDevId m mid id)],
        let u := s.mailTaken m (x.2.1.length + 1)
        (s.mailHeads m x.1 mid x.2.1 = false → exec x.2.2 s = .next s) ∧
        (s.mailHeads m x.1 mid x.2.1 = true →
          ∀ c, u.mailStatus m x.1 = some c → exec x.2.2 s = .next (u.mailAnswer m x.1 mid c []))) ∧
    (let args : List Word := []
     let u := s.mailTaken m (args.length + 1)
     s.mailHeads m 1 mid args = true → u.mailStatus m 1 = none → exec (.status m mid) s = .next
      (u.mailAnswer m 1 mid 0 [u.bootWord, u.get Loc.glHostSts, u.get (Loc.bfBfSts 0), u.get (Loc.bfBfSts 1)])) ∧
    (∀ (type offset : Nat) (words : List Word), let args := BitVec.ofNat 32 type :: BitVec.ofNat 32 offset :: words
      let u := s.mailTaken m (args.length + 1)
      s.mailHeads m 2 mid args = true → u.mailStatus m 2 = none →
      (imageType type = true →
        let st := tset [] u.store.staged type (stageWords (tget [] u.store.staged type) offset words)
        let t := { u with store := { u.store with staged := st } }
        exec (.imageWrite m mid type offset words) s = .next (State.mailAnswer t m 2 mid 0 [])) ∧
      (imageType type = false → exec (.imageWrite m mid type offset words) s = .next (u.mailAnswer m 2 mid 2 []))) ∧
    (∀ type length : Nat, let args := [BitVec.ofNat 32 type, BitVec.ofNat 32 length]
      let u := s.mailTaken m (args.length + 1)
      s.mailHeads m 3 mid args = true → u.mailStatus m 3 = none →
      (imageType type = false → exec (.imageCommit m mid type length) s = .next (u.mailAnswer m 3 mid 2 [])) ∧
      (imageType type = true → u.imageOk type length = true →
        let im := tset [] u.store.images (type + 16) (tget [] u.store.staged type)
        let t := { u with store := { u.store with staged := tset [] u.store.staged type [], images := im } }
        exec (.imageCommit m mid type length) s = .next (State.mailAnswer t m 3 mid 0 [])) ∧
      (imageType type = true → u.imageOk type length = false →
        exec (.imageCommit m mid type length) s = .next (u.mailAnswer m 3 mid 5 []))) ∧
    (∀ type svn : Nat, let args := [BitVec.ofNat 32 type, BitVec.ofNat 32 svn]
      let u := s.mailTaken m (args.length + 1)
      let v := svn % 2 ^ 32
      s.mailHeads m 4 mid args = true → u.mailStatus m 4 = none →
      (imageType type = true → tget 0 u.store.svn type ≤ v →
        let t := { u with store := { u.store with svn := tset 0 u.store.svn type v } }
        exec (.svnRaise m mid type svn) s = .next (State.mailAnswer t m 4 mid 0 [])) ∧
      (imageType type = false ∨ v < tget 0 u.store.svn type →
        exec (.svnRaise m mid type svn) s = .next (u.mailAnswer m 4 mid 2 []))) ∧
    (∀ (n c row : Nat), let args := [BitVec.ofNat 32 n, BitVec.ofNat 32 c, BitVec.ofNat 32 row]
      let u := s.mailTaken m (args.length + 1)
      let answer := fun (t : State) (k : Nat) => exec (.wellRemap m mid n c row) s = .next (t.mailAnswer m 5 mid k [])
      s.mailHeads m 5 mid args = true → u.mailStatus m 5 = none →
      (16 ≤ n ∨ 64 ≤ c ∨ 49152 ≤ row → answer u 2) ∧
      (n < 16 → c < 64 → row < 49152 →
        (m.val ≠ 0 → u.spireOwner n ≠ m.val - 1 → answer u 3) ∧
        (m.val = 0 ∨ u.spireOwner n = m.val - 1 →
          ((u.spire n).out ≠ 0 → answer u 4) ∧
          ((u.spire n).out = 0 →
            let w := remapWord c row
            (∀ t, u.spRemapOp n w = .ok t → answer t 0) ∧
            (∀ k, u.spRemapOp n w = .error k → answer u (if k = 6 then 4 else 2)))))) ∧
    (∀ (seq : Word) (count : Nat), let args := [seq, BitVec.ofNat 32 count]
      let u := s.mailTaken m (args.length + 1)
      s.mailHeads m 6 mid args = true → u.mailStatus m 6 = none →
      (count = 0 ∨ 31 < count → exec (.logRead m mid seq count) s = .next (u.mailAnswer m 6 mid 2 [])) ∧
      (1 ≤ count → count ≤ 31 →
        let l := u.faults.log.filter fun r => decide (seq.toNat ≤ r.seq) && (m.val == 0 || r.e.part == m.val - 1)
        exec (.logRead m mid seq count) s = .next
          (u.mailAnswer m 6 mid 0 ((l.take count).flatMap fun r => r.words.map fun w => BitVec.ofNat 32 w)))) ∧
    (∀ id : Word, let args := [id]
      let u := s.mailTaken m (args.length + 1)
      let w := id.put 16 16 1
      s.mailHeads m 7 mid args = true → u.mailStatus m 7 = none →
      (∀ t, u.fabIdOp w = .ok t → exec (.setDevId m mid id) s = .next (t.mailAnswer m 7 mid 0 [])) ∧
      (∀ k, u.fabIdOp w = .error k → exec (.setDevId m mid id) s = .next (u.mailAnswer m 7 mid (if k = 6 then 4 else 2) [])))

/-- SIDEBAND_INPUT_EDGE, INPUT_CHATTER, CHATTER_CLEAR and INPUT_STUCK. A level that has held for FILTER_US and that the
input does not show already is counted, and taken unless the input chatters. More edges in a millisecond than CHATTER
make an input chatter, posted: INTLK_B is then active and judged stuck, and a lantern's fault line active with the bay
faulted. 10 ms without an edge end that, and the level is taken. An input active for STUCK_S, where that is not 0, is
shown stuck and posted, once. In any other case nothing changes. (After R471 to R474.) The five SMBUS_ reads. With
power each block read is answered with its registers, and nothing but the answer changes; without power it is not
answered. (After R470, Table HS-9.) Next states are given for SIDEBAND_INPUT_EDGE, INPUT_CHATTER, CHATTER_CLEAR,
INPUT_STUCK, SMBUS_SENSOR_READ, SMBUS_POWER_READ, SMBUS_BOOT_READ, SMBUS_SIDEBAND_READ, SMBUS_IDENTITY_READ. -/
def Obligations.SidebandAnswers : Prop :=
  (
  ∀ (s : State) (i : Fin 10),
    (∀ high : Bool, let at_ := lget 0 s.start.edgeAt i + 1000 * s.fld Loc.glSbCfg 7 0 i
      let t := s.atTime at_
      let shown := t.flag Loc.glSbSts 0 i = high ∧ t.flag Loc.glSbSts 1 i ≠ high
      s.reaches at_ →
      (shown → exec (.sidebandInputEdge i high) s = .next t) ∧
      (¬shown →
        let u := (State.setFlag { t with start := { t.start with edgeAt := t.start.edgeAt.set i t.clk.elapsed } }
          Loc.glSbSts 0 high i).addSat Loc.glSbSts 31 16 1 i
        (u.chattering i = false → exec (.sidebandInputEdge i high) s = .next (u.takeInput i high)) ∧
        (u.chattering i = true → exec (.sidebandInputEdge i high) s = .next u))) ∧
    (∀ n : Nat,
      let begins := s.chattering i = false ∧ s.fld Loc.glSbCfg 15 8 i < n
      let edge : State := { s with start := { s.start with edgeAt := s.start.edgeAt.set i s.clk.elapsed } }
      let u := (edge.setFlag Loc.glSbSts 2 true i).postGlobal 2 0xB6 i n
      (¬begins → exec (.inputChatter i n) s = .next s) ∧
      (begins →
        (i.val = 2 → exec (.inputChatter i n) s = .next ((u.setFlag Loc.glSbSts 1 true i).intlkStuck true)) ∧
        (6 ≤ i.val → i.val ≤ 8 → exec (.inputChatter i n) s = .next ((u.setFlag Loc.glSbSts 1 true i).bayFault (i - 6))) ∧
        (i.val ≠ 2 → (i.val < 6 ∨ i.val = 9) → exec (.inputChatter i n) s = .next u))) ∧
    (s.chattering i = false → exec (.chatterClear i) s = .next s) ∧
    (let at_ := lget 0 s.start.edgeAt i + 10000000
     let t := s.atTime at_
     s.chattering i = true → s.reaches at_ →
      exec (.chatterClear i) s = .next ((t.setFlag Loc.glSbSts 2 false i).takeInput i (t.flag Loc.glSbSts 0 i))) ∧
    (let sec := s.fld Loc.glSbCfg 23 16 i
     let due := sec ≠ 0 ∧ s.flag Loc.glSbSts 1 i = true ∧ s.flag Loc.glSbSts 3 i = false
     let at_ := lget 0 s.start.edgeAt i + sec * 1000000000
     (¬due → exec (.inputStuck i) s = .next s) ∧
     (due → s.reaches at_ →
       exec (.inputStuck i) s = .next (((s.atTime at_).setFlag Loc.glSbSts 3 true i).postGlobal 2 0xB7 i 0)))) ∧
  (
  ∀ (s : State),
    (∀ x ∈ [Instr.smbusSensorRead, .smbusPowerRead, .smbusBootRead, .smbusSidebandRead, .smbusIdentityRead],
      s.power.closed = false → exec x s = .next { s with resp := .none }) ∧
    (s.power.closed = true →
      let ans (b : List Byte) : State := { s with resp := .bytes b }
      exec .smbusSensorRead s = .next (ans ((List.range 30).flatMap fun i => leBytes 2 (s.fld Loc.glTsVal 15 0 i))) ∧
      exec .smbusPowerRead s = .next (ans (wordBytes [s.get Loc.glVin, s.get Loc.glIin, s.get Loc.glPin])) ∧
      exec .smbusBootRead s = .next (ans (wordBytes [s.bootWord, s.get Loc.glHostSts])) ∧
      exec .smbusSidebandRead s = .next (ans (wordBytes ((List.range 10).map fun i => s.get Loc.glSbSts i))) ∧
      exec .smbusIdentityRead s = .next (ans (deviceBytes 0 16 ++ leBytes 16 0x383637412D31584B))))

/-- R381, R461, R487: a rejected write is recorded on its page with its code, offset and writer and VALID, over any
earlier record; the page's event is set and MONITOR.REJ_TOTAL counts it, and it gives the host no error report, no
vector and no answer. On a mailbox page its function's AER records it. A write of the belfry that does not hold is
only counted. A word with an illegal field is rejected whole by a register of the plain kind. -/
def Obligations.RejectedWritesAreRecorded : Prop :=
  ∀ (s : State) (f : Func), s.canon = true →
    (∀ page off code : Nat, page < 16384 → off < 4096 → code < 256 → f ≠ .otherBelfry →
      let t := s.reject f page off code
      t.get (page * 4096 + 0x014) = rejWord f off code ∧ (rejWord f off code).bits 7 0 = code ∧
      (rejWord f off code).bits 19 8 = off ∧ (rejWord f off code).bits 23 20 = fcode f ∧ (rejWord f off code).bit 31 = true ∧
      t.flag (page * 4096 + 0x018) 0 = true ∧ t.get Loc.moRejTotal = s.get Loc.moRejTotal + 1 ∧ t.fns = s.fns ∧
      t.irqs = s.irqs ∧ t.resp = s.resp) ∧
    (∀ page off code : Nat, f = .otherBelfry →
      s.reject f page off code = s.bump (if s.holder = some 0 then 0x140 else 0x100) 5 0) ∧
    (∀ m off len : Nat, m < s.fns.length → let x := (s.mailReject m off len).fn m
      x.aer = true ∧ x.aerAt = off ∧ x.aerLen = len) ∧
    (∀ (loc idx : Nat) (v : Word) (c : Nat), formCheck (locFields loc) v = some c → s.plainWrite loc idx v = .error c)

/-- A write of a page that is not open to its function changes nothing. Any other write of an implemented register meets
the checks in order: the owner, 0x04; the lock, 0x03; the unit out, 0x06, but for the page's event and rejection
registers; only then the register's own rule, whose rejection is recorded; one that it accepts takes effect.
REGISTER_WRITE of fewer than four bytes changes nothing and is recorded with 0x02. (After R479, R485, R486.)
REGISTER_WRITE, UNMAPPED_WRITE and REGISTER_READ. A write of four bytes or more goes register by register in rising
order, at a mailbox page only one of four bytes. A register of the plain kind takes its fields, the low word of a pair
is staged, and its high word joins it. A write to a page that Table RG-1 does not list is discarded, counted and
recorded. A read of one register gives its word, a longer one the bytes of consecutive registers; a page that is not
listed, or not readable for the function, reads 0, and the high word of a pair reads the value taken with its low
word. With the BARs closed nothing is answered and nothing written. (After R483, R485, R488.) Next states are given
for REGISTER_WRITE, UNMAPPED_WRITE, REGISTER_READ. -/
def Obligations.WritesAreChecked : Prop :=
  (
  ∀ (s : State) (f : Func) (loc : Loc) (v : Word) (op : State → WR),
    let page := loc / 4096
    let off := loc % 4096
    (s.pageOpen f page = false → s.write f loc v op = s) ∧
    (s.pageOpen f page = true →
      (s.mayWrite f page off v = false → s.write f loc v op = s.reject f page off 4) ∧
      (s.mayWrite f page off v = true → s.flag (page * 4096 + 0x024) 0 = true → lockCovers off = true →
        s.write f loc v op = s.reject f page off 3) ∧
      (s.mayWrite f page off v = true → (s.flag (page * 4096 + 0x024) 0 = false ∨ lockCovers off = false) →
        s.pageClosed page = true → off ≠ 0x014 → off ≠ 0x018 → off ≠ 0x01C → s.write f loc v op = s.reject f page off 6) ∧
      (s.mayWrite f page off v = true → (s.flag (page * 4096 + 0x024) 0 = false ∨ lockCovers off = false) →
        (s.pageClosed page = false ∨ off = 0x014 ∨ off = 0x018 ∨ off = 0x01C) →
        (∀ t, op s = .ok t → s.write f loc v op = t.managed) ∧
        (∀ c, op s = .error c → s.write f loc v op = s.reject f page off c))) ∧
    (∀ (p : Fin 16384) (o : Fin 1024) (l : List Word) (n : Nat), n < 4 → (pageInfo p).isSome = true →
      let at_ := p.val * 4096 + 4 * o.val
      (s.accepts f at_ (l.headD 0) →
        exec (.registerWrite f p o l n) s = .next (s.reject f (at_ / 4096) (at_ % 4096) 2)) ∧
      (∀ c, s.pageOpen f (at_ / 4096) = true → s.accessCheck f (at_ / 4096) (at_ % 4096) (l.headD 0) = some c →
        exec (.registerWrite f p o l n) s = .next (s.reject f (at_ / 4096) (at_ % 4096) c)))) ∧
  (
  ∀ (s : State) (f : Func),
    (∀ (p : Fin 16384) (o : Fin 1024) (l : List Word) (n : Nat), 4 ≤ n →
      (∀ m k : Nat, pageInfo p = some (.mbox, m, k) →
        (n = 4 → exec (.registerWrite f p o l n) s = .next (s.writeReg f p (4 * o) (l.headD 0))) ∧
        (4 < n → exec (.registerWrite f p o l n) s = .next (s.mailWidth f m (4 * o) n fun s => s.writeReg f p (4 * o) (l.headD 0)))) ∧
      ((∀ m k : Nat, pageInfo p ≠ some (.mbox, m, k)) →
        exec (.registerWrite f p o l n) s = .next (s.writeSpan f (p * 4096 + 4 * o) (l.take (n / 4))))) ∧
    (∀ (loc : Nat) (v : Word) (l : List Word), s.writeSpan f loc [] = s ∧
      s.writeSpan f loc (v :: l) = (s.writeReg f (loc / 4096) (loc % 4096) v).writeSpan f (loc + 4) l) ∧
    (∀ v : Word, s.accepts f Loc.glPwrGuard v → wellFormedFor Loc.glPwrGuard v →
      s.writeReg f 0x006 0x044 v = (s.setFld Loc.glPwrGuard 10 0 (v.bits 10 0)).managed.settleAll) ∧
    (∀ v : Word, s.accepts f (Loc.spEphLoadAddrLo 0) v →
      s.writeReg f 0x402 0x050 v = (s.stageLow (Loc.spEphLoadAddrLo 0) v).managed.settleAll) ∧
    (∀ (p : Fin 16384) (o : Fin 1024) (v : Word), pageInfo p = none →
      let u := (s.addWrap Loc.moUnmapped 31 0 1).put Loc.moUnmappedLast (unmappedWord f p)
      (s.pageOpen f p = false → exec (.unmappedWrite f p o v) s = .next s) ∧
      (s.pageOpen f p = true → exec (.unmappedWrite f p o v) s = .next (u.bump 0x0F00 3 0)) ∧
      (∀ (l : List Word) (n : Nat), n < 4 →
        exec (.registerWrite f p o l n) s = .next (if s.pageOpen f p = true then u.bump 0x0F00 3 0 else s))) ∧
    (∀ (p : Fin 16384) (o : Fin 1024) (v : Word), pageInfo p ≠ none →
      exec (.unmappedWrite f p o v) s = .next (s.writeReg f p (4 * o) v)) ∧
    (∀ (p : Fin 16384) (a : RegSpan),
      (s.pageOpen f p = false → exec (.registerRead f p a) s = .next { s with resp := .none }) ∧
      (s.pageOpen f p = true →
        (a.words ≤ 1 → let r := s.readReg f p (4 * a.off)
          exec (.registerRead f p a) s = .next { r.1 with resp := .word r.2 }) ∧
        (1 < a.words → let r := s.readSpan f (p * 4096 + 4 * a.off) a.words
          exec (.registerRead f p a) s = .next { r.1 with resp := .bytes r.2 }))) ∧
    (∀ page off : Nat,
      (pageInfo page = none ∨ s.mayRead f page = false → s.readReg f page off = (s, 0)) ∧
      (pageInfo page ≠ none → s.mayRead f page = true →
        ∀ x, tget 0 s.hiLatch (latchKey f (page * 4096 + off)) = x + 1 → s.readReg f page off =
          ({ s with hiLatch := tset 0 s.hiLatch (latchKey f (page * 4096 + off)) 0 }, BitVec.ofNat 32 x))))

/-- PAGE_LOCK. A write of PAGE_LOCK with LOCK that passes the checks of its page is rejected with 0x04 of a function that
does not own the page, with 0x01 where the page cannot be locked, and with the code of its form; otherwise the lock is
set. On a page that is not listed it is discarded. While a page is locked, a write to its registers, PAGE_CTL or
counters is rejected with 0x03 or 0x04, whoever the writer is. (After R490.) EVC_CLR and EVC_CNT_WRITE. A write of
PAGE_CTL with EVC_CLR of a page with counters that passes the page's checks is rejected with the code of its form, and
with 0x05 unless all eight counters are frozen; otherwise the counters and shadows are cleared. The low word of
EVC_CNT is staged; its high word is rejected with 0x01 above 16 bits and with 0x05 while the counter counts, and
otherwise sets the count with the staged low word, or with the low word in force where none is staged; a rejected one
drops the staged word. A frozen or disabled counter keeps its value at every event. (After R484, R488, R495, R497,
Table RG-2.) Next states are given for PAGE_LOCK, EVC_CLR, EVC_CNT_WRITE. -/
def Obligations.LocksAndFrozenCounters : Prop :=
  (
  ∀ (s : State) (f : Func) (p : Fin 16384) (v : Word),
    let loc := p.val * 4096 + 0x024
    let w := v.put 0 0 1
    (pageInfo p = none → exec (.pageLock f p v) s = .next (s.unmapped f p)) ∧
    ((pageInfo p).isSome = true → s.accepts f loc w →
      let refused := fun k => (s.reject f (loc / 4096) (loc % 4096) k).settleAll
      (fowns f (s.pageOwner p) = false → exec (.pageLock f p v) s = .next (refused 4)) ∧
      (fowns f (s.pageOwner p) = true → s.lockable p = false → exec (.pageLock f p v) s = .next (refused 1)) ∧
      (fowns f (s.pageOwner p) = true → s.lockable p = true →
        (∀ k, formCheck (locFields loc) w = some k → exec (.pageLock f p v) s = .next (refused k)) ∧
        (wellFormedFor loc w → exec (.pageLock f p v) s = .next (s.setFlag loc 0 true).managed.settleAll))) ∧
    (s.flag loc 0 = true → ∀ (g : Func) (off : Nat) (op : State → WR), off < 4096 → s.pageOpen g p = true →
      lockCovers off = true → ∃ c, (c = 3 ∨ c = 4) ∧ s.write g (p * 4096 + off) v op = s.reject g p off c)) ∧
  (
  ∀ (s : State) (f : Func) (p : Fin 16384),
    (pageInfo p = none → (∀ v, exec (.evcClr f p v) s = .next (s.unmapped f p)) ∧
      ∀ k high v, exec (.evcCntWrite f p k high v) s = .next (s.unmapped f p)) ∧
    (hasEvc p = true →
      (∀ v : Word, let w := v.put 1 1 1
        let loc := p.val * 4096 + 0x00C
        let set := s.writeFields loc 0 w.toNat (s.pendPart (loc / 4096)) (locFields loc)
        s.accepts f loc w →
        (∀ k, formCheck (locFields loc) w = some k →
          exec (.evcClr f p v) s = .next (s.reject f (loc / 4096) (loc % 4096) k).settleAll) ∧
        (wellFormedFor loc w →
          ((∀ k < 8, s.evcFrozen p k = true) → exec (.evcClr f p v) s = .next
            (State.managed { set with evc := tclear set.evc (p * 8) (p * 8 + 8) }).settleAll) ∧
          ((∃ k < 8, s.evcFrozen p k = false) →
            exec (.evcClr f p v) s = .next (s.reject f (loc / 4096) (loc % 4096) 5).settleAll))) ∧
      (∀ (k : Fin 8) (v : Word), let lo := p.val * 4096 + (0xF00 + 0x20 * k.val)
        (s.accepts f lo v → exec (.evcCntWrite f p k false v) s = .next (s.stageLow lo v).managed.settleAll) ∧
        (s.accepts f (lo + 4) v →
          let refused := fun c => ((s.reject f ((lo + 4) / 4096) ((lo + 4) % 4096) c).dropLow lo).settleAll
          let counts := s.evcFrozen p k = false ∧ s.flag (p * 4096 + 0xF00 + 0x20 * k + 8) 18 = true
          (65536 ≤ v.toNat → exec (.evcCntWrite f p k true v) s = .next (refused 1)) ∧
          (v.toNat < 65536 → counts → exec (.evcCntWrite f p k true v) s = .next (refused 5)) ∧
          (v.toNat < 65536 → ¬counts →
            ∃ t, s.evcHighOp p k v = .ok t ∧ exec (.evcCntWrite f p k true v) s = .next t.managed.settleAll ∧
              ∀ x, tget 0 s.lowStage (p * 4096 + 0xF00 + 0x20 * k) = x + 1 →
                t = { s with evc := tset {} s.evc (p * 8 + k) { tget {} s.evc (p * 8 + k) with cnt := x + v.toNat * 2 ^ 32 } })))) ∧
    (∀ (k : Fin 8) (code unit amt part : Nat),
      (s.evcFrozen p k = true ∨ s.flag (p * 4096 + 0xF08 + 0x20 * k) 18 = false) →
      s.evcHit p code unit amt part k = s))

/-- R496: a count wraps modulo 2^48, which sets EVC_SEL.OVF of the counter and PAGE_EVT.CNT_OVF of the page; no other
counter changes, without a wrap no register does, and nothing else of the state. -/
def Obligations.CountsWrap : Prop :=
  ∀ (s : State) (page k amt : Nat), s.canon = true → k < 8 → page < 16384 →
    let t := s.evcAdd page k amt
    let n := (tget {} s.evc (page * 8 + k)).cnt + amt
    (twf (fun _ => ({} : Evc)) s.evc = true →
      (tget {} t.evc (page * 8 + k)).cnt = n % 2 ^ 48 ∧
      ∀ key, key ≠ page * 8 + k → tget {} t.evc key = tget {} s.evc key) ∧
    (n < 2 ^ 48 → t.rf = s.rf) ∧
    (2 ^ 48 ≤ n → t.flag (page * 4096 + 0xF08 + 0x20 * k) 20 = true ∧ t.flag (page * 4096 + 0x018) 2 = true) ∧
    Frame [.regs, .evc] s t
end

