-- ==== Sys2Proof/Laws/KeepCore.lean ====
section
/-! SUPPORT. What the shared operations leave alone: no operation of registers, events, links, frame programs and gatehouse operations takes or adds a waiting command, and none
moves a minimum security version. -/

namespace Sys2Proof.Machine

theorem foldl_keeps {α : Type} (f : State → α → State) (l : List α) (s : State)
    (h : ∀ s x, (f s x).pending = s.pending ∧ (f s x).store.svn = s.store.svn) :
    (l.foldl f s).pending = s.pending ∧ (l.foldl f s).store.svn = s.store.svn := by
  induction l generalizing s with
  | nil => exact ⟨rfl, rfl⟩
  | cons a l ih => exact ⟨(ih _).1.trans (h s a).1, (ih _).2.trans (h s a).2⟩


theorem foldl_keeps1 {α β : Type} (f : State × β → α → State × β) (l : List α) (p : State × β)
    (h : ∀ p x, (f p x).1.pending = p.1.pending ∧ (f p x).1.store.svn = p.1.store.svn) :
    (l.foldl f p).1.pending = p.1.pending ∧ (l.foldl f p).1.store.svn = p.1.store.svn := by
  induction l generalizing p with
  | nil => exact ⟨rfl, rfl⟩
  | cons a l ih => exact ⟨(ih _).1.trans (h p a).1, (ih _).2.trans (h p a).2⟩


theorem keeps_trans {a b c : State} (h : a.pending = b.pending ∧ a.store.svn = b.store.svn)
    (g : b.pending = c.pending ∧ b.store.svn = c.store.svn) : a.pending = c.pending ∧ a.store.svn = c.store.svn :=
  ⟨h.1.trans g.1, h.2.trans g.2⟩

theorem next_keeps {a uu s : State} (h : (Host.Outcome.next a : Host.Outcome State Fault Refusal) = .next uu)
    (g : a.pending = s.pending ∧ a.store.svn = s.store.svn) : uu.pending = s.pending ∧
        uu.store.svn = s.store.svn := by
  injection h with e
  rw [← e]
  exact g


theorem foldl_keeps2 {α β : Type} (g : β → State) (f : β → α → β) (l : List α) (b : β)
    (h : ∀ b x, (g (f b x)).pending = (g b).pending ∧ (g (f b x)).store.svn = (g b).store.svn) :
    (g (l.foldl f b)).pending = (g b).pending ∧ (g (l.foldl f b)).store.svn = (g b).store.svn := by
  induction l generalizing b with
  | nil => exact ⟨rfl, rfl⟩
  | cons a l ih => exact ⟨(ih _).1.trans (h b a).1, (ih _).2.trans (h b a).2⟩


theorem ite_keeps (c : Prop) [Decidable c] (a b : State) :
    (if c then a else b).pending = (if c then a.pending else b.pending) ∧
    (if c then a else b).store.svn = (if c then a.store.svn else b.store.svn) := by
  split <;> exact ⟨rfl, rfl⟩


theorem ite_fst {α β : Type} (c : Prop) [Decidable c] (a b : α × β) : (if c then a else b).1 = (if c then a.1 else b.1) := by
  split <;> rfl


theorem ite_snd {α β : Type} (c : Prop) [Decidable c] (a b : α × β) : (if c then a else b).2 = (if c then a.2 else b.2) := by
  split <;> rfl

theorem put_keeps (s : State) (loc : Loc) (w : Word) (idx : Nat) :
    (State.put s loc w idx).pending = s.pending ∧ (State.put s loc w idx).store.svn = s.store.svn := by
  simp [State.put]

theorem setFld_keeps (s : State) (loc : Loc) (hi lo v : Nat) (idx : Nat) :
    (State.setFld s loc hi lo v idx).pending = s.pending ∧
        (State.setFld s loc hi lo v idx).store.svn = s.store.svn := by
  simp [State.setFld, put_keeps]

theorem setFlag_keeps (s : State) (loc : Loc) (b : Nat) (v : Bool) (idx : Nat) :
    (State.setFlag s loc b v idx).pending = s.pending ∧ (State.setFlag s loc b v idx).store.svn = s.store.svn := by
  simp [State.setFlag, setFld_keeps]

theorem addSat_keeps (s : State) (loc : Loc) (hi lo v : Nat) (idx : Nat) :
    (State.addSat s loc hi lo v idx).pending = s.pending ∧
        (State.addSat s loc hi lo v idx).store.svn = s.store.svn := by
  simp [State.addSat, setFld_keeps]

theorem addWrap_keeps (s : State) (loc : Loc) (hi lo v : Nat) (idx : Nat) :
    (State.addWrap s loc hi lo v idx).pending = s.pending ∧
        (State.addWrap s loc hi lo v idx).store.svn = s.store.svn := by
  simp [State.addWrap, setFld_keeps]

theorem clearReg_keeps (s : State) (loc : Loc) :
    (State.clearReg s loc).pending = s.pending ∧ (State.clearReg s loc).store.svn = s.store.svn := by
  simp [State.clearReg]

theorem put64_keeps (s : State) (lo : Loc) (v : Nat) (idx : Nat) :
    (State.put64 s lo v idx).pending = s.pending ∧ (State.put64 s lo v idx).store.svn = s.store.svn := by
  simp [State.put64, put_keeps]

theorem draw_keeps (s : State) :
    ((State.draw s).2).pending = s.pending ∧ ((State.draw s).2).store.svn = s.store.svn := by
  simp [State.draw]

theorem modPart_keeps (s : State) (p : Nat) (f : Part → Part) :
    (State.modPart s p f).pending = s.pending ∧ (State.modPart s p f).store.svn = s.store.svn := by
  simp [State.modPart]

theorem modSpire_keeps (s : State) (n : Nat) (f : Spire → Spire) :
    (State.modSpire s n f).pending = s.pending ∧ (State.modSpire s n f).store.svn = s.store.svn := by
  simp [State.modSpire]

theorem modGate_keeps (s : State) (g : Nat) (f : Gate → Gate) :
    (State.modGate s g f).pending = s.pending ∧ (State.modGate s g f).store.svn = s.store.svn := by
  simp [State.modGate]

theorem modPlinth_keeps (s : State) (e : Nat) (f : Plinth → Plinth) :
    (State.modPlinth s e f).pending = s.pending ∧ (State.modPlinth s e f).store.svn = s.store.svn := by
  simp [State.modPlinth]

theorem modOculus_keeps (s : State) (e : Nat) (f : Oculus → Oculus) :
    (State.modOculus s e f).pending = s.pending ∧ (State.modOculus s e f).store.svn = s.store.svn := by
  simp [State.modOculus]

theorem modBelfry_keeps (s : State) (e : Nat) (f : Belfry → Belfry) :
    (State.modBelfry s e f).pending = s.pending ∧ (State.modBelfry s e f).store.svn = s.store.svn := by
  simp [State.modBelfry]

theorem modCell_keeps (s : State) (n c : Nat) (f : Cell → Cell) :
    (State.modCell s n c f).pending = s.pending ∧ (State.modCell s n c f).store.svn = s.store.svn := by
  simp [State.modCell, modSpire_keeps]

theorem evcAdd_keeps (s : State) (page k amt : Nat) :
    (State.evcAdd s page k amt).pending = s.pending ∧ (State.evcAdd s page k amt).store.svn = s.store.svn := by
  grind [State.evcAdd, setFlag_keeps]

theorem evcHit_keeps (s : State) (page code unit amt part k : Nat) :
    (State.evcHit s page code unit amt part k).pending = s.pending ∧
        (State.evcHit s page code unit amt part k).store.svn = s.store.svn := by
  grind [State.evcHit, evcAdd_keeps]

theorem bump_keeps (s : State) (page code unit : Nat) (amt : Nat) (part : Nat) :
    (State.bump s page code unit amt part).pending = s.pending ∧
        (State.bump s page code unit amt part).store.svn = s.store.svn := by
  simp [State.bump, evcHit_keeps, foldl_keeps]

theorem pass_keeps (s : State) (d : Nat) :
    (State.pass s d).pending = s.pending ∧ (State.pass s d).store.svn = s.store.svn := by
  simp [State.pass, evcHit_keeps, foldl_keeps, ite_keeps]

theorem passTo_keeps (s : State) (c : Nat) :
    (State.passTo s c).pending = s.pending ∧ (State.passTo s c).store.svn = s.store.svn := by
  unfold State.passTo; (repeat' split) <;> simp_all [pass_keeps]

theorem idle_keeps (s : State) :
    (State.idle s).pending = s.pending ∧ (State.idle s).store.svn = s.store.svn := by
  simp [State.idle, pass_keeps]

theorem westKeeps_keeps (s : State) :
    (State.westKeeps s).pending = s.pending ∧ (State.westKeeps s).store.svn = s.store.svn := by
  simp [State.westKeeps]

theorem waitUntil_keeps (s : State) (t : Nat) (uu : State) (h : State.waitUntil s t = some uu) :
    (uu).pending = s.pending ∧ (uu).store.svn = s.store.svn := by
  grind [State.waitUntil, pass_keeps]

theorem modRegion_keeps (s : State) (r : Nat) (f : Region → Region) :
    (State.modRegion s r f).pending = s.pending ∧ (State.modRegion s r f).store.svn = s.store.svn := by
  simp [State.modRegion]

theorem holdCycles_keeps (s : State) (r d : Nat) :
    (State.holdCycles s r d).pending = s.pending ∧ (State.holdCycles s r d).store.svn = s.store.svn := by
  simp [State.holdCycles, modRegion_keeps]

theorem setRegN_keeps (s : State) (r n : Nat) :
    (State.setRegN s r n).pending = s.pending ∧ (State.setRegN s r n).store.svn = s.store.svn := by
  simp [State.setRegN, holdCycles_keeps, setFld_keeps]

theorem waitCycles_keeps (s : State) (r : Nat) (c : Int) (uu : State) (h : State.waitCycles s r c = some uu) :
    (uu).pending = s.pending ∧ (uu).store.svn = s.store.svn := by
  grind [State.waitCycles, waitUntil_keeps]

theorem irq_keeps (s : State) (f v : Nat) :
    (State.irq s f v).pending = s.pending ∧ (State.irq s f v).store.svn = s.store.svn := by
  simp [State.irq]

theorem setQueue_keeps (s : State) (page : Nat) (q : List ErrEntry) :
    (State.setQueue s page q).pending = s.pending ∧ (State.setQueue s page q).store.svn = s.store.svn := by
  simp [State.setQueue]

theorem post_keeps (s : State) (page cls code unit info : Nat) (part : Option Nat) :
    (State.post s page cls code unit info part).pending = s.pending ∧
        (State.post s page cls code unit info part).store.svn = s.store.svn := by
  unfold State.post; dsimp only; (repeat' split) <;> simp [addSat_keeps, setQueue_keeps, setFlag_keeps]

theorem postGlobal_keeps (s : State) (cls code unit info : Nat) (part : Option Nat) :
    (State.postGlobal s cls code unit info part).pending = s.pending ∧
        (State.postGlobal s cls code unit info part).store.svn = s.store.svn := by
  simp [State.postGlobal, post_keeps]

theorem reject_keeps (s : State) (f : Func) (page off code : Nat) :
    (State.reject s f page off code).pending = s.pending ∧
        (State.reject s f page off code).store.svn = s.store.svn := by
  simp [State.reject, addWrap_keeps, bump_keeps, put_keeps, setFlag_keeps, ite_keeps]

theorem managed_keeps (s : State) :
    (State.managed s).pending = s.pending ∧ (State.managed s).store.svn = s.store.svn := by
  simp [State.managed, ite_keeps]

theorem settle_keeps (s : State) (f : Func) (loc : Loc) (r : WR)
    (h : ∀ t, r = .ok t → t.pending = s.pending ∧ t.store.svn = s.store.svn) :
    (State.settle s f loc r).pending = s.pending ∧ (State.settle s f loc r).store.svn = s.store.svn := by
  unfold State.settle; split
  · exact keeps_trans (managed_keeps _) (h _ rfl)
  · simp [reject_keeps]

theorem pendField_keeps (s : State) (loc : Loc) (hi lo v : Nat) (idx : Nat) (part : Option Nat) :
    (State.pendField s loc hi lo v idx part).pending = s.pending ∧
        (State.pendField s loc hi lo v idx part).store.svn = s.store.svn := by
  simp [State.pendField]

theorem pendWord_keeps (s : State) (loc : Loc) (w : Word) (idx : Nat) (part : Option Nat) :
    (State.pendWord s loc w idx part).pending = s.pending ∧
        (State.pendWord s loc w idx part).store.svn = s.store.svn := by
  simp [State.pendWord]

theorem write_keeps (s : State) (f : Func) (loc : Loc) (v : Word) (op : State → WR)
    (h : ∀ t, op s = .ok t → t.pending = s.pending ∧ t.store.svn = s.store.svn) :
    (State.write s f loc v op).pending = s.pending ∧ (State.write s f loc v op).store.svn = s.store.svn := by
  unfold State.write
  split
  · simp
  · split
    · simp [reject_keeps]
    · exact settle_keeps s f loc _ h

theorem writeField_keeps (s : State) (loc idx : Nat) (v : Nat) (part : Option Nat) (f : Fd) :
    (State.writeField s loc idx v part f).pending = s.pending ∧
        (State.writeField s loc idx v part f).store.svn = s.store.svn := by
  unfold State.writeField; (repeat' split) <;> simp_all [pendField_keeps, setFld_keeps]

theorem writeFields_keeps (s : State) (loc idx : Nat) (v : Nat) (part : Option Nat) (fs : List Fd) :
    (State.writeFields s loc idx v part fs).pending = s.pending ∧
        (State.writeFields s loc idx v part fs).store.svn = s.store.svn := by
  simp [State.writeFields, writeField_keeps, foldl_keeps]

theorem plainWrite_keeps (s : State) (loc idx : Nat) (v : Word) (uu : State) (h : State.plainWrite s loc idx v = .ok uu) :
    (uu).pending = s.pending ∧ (uu).store.svn = s.store.svn := by
  grind [State.plainWrite, writeFields_keeps]

theorem setCount_keeps (s : State) (tag slot v : Nat) :
    (State.setCount s tag slot v).pending = s.pending ∧ (State.setCount s tag slot v).store.svn = s.store.svn := by
  simp [State.setCount, put_keeps]

theorem dropIncr_keeps (s : State) (tag : Nat) (i : Issuer) : (s.dropIncr tag i).pending = s.pending ∧
    (s.dropIncr tag i).store.svn = s.store.svn := by
  cases i <;> simp [State.dropIncr, bump_keeps]

theorem incr_keeps (s : State) (tag slot amt : Nat) (by_ : Issuer) :
    (State.incr s tag slot amt by_).pending = s.pending ∧
        (State.incr s tag slot amt by_).store.svn = s.store.svn := by
  simp [State.incr, dropIncr_keeps, setCount_keeps, ite_keeps]

theorem applyHeld_keeps (s : State) :
    (State.applyHeld s).pending = s.pending ∧ (State.applyHeld s).store.svn = s.store.svn := by
  unfold State.applyHeld; dsimp only; refine foldl_keeps _ _ _ ?_; intro p x; (repeat' split) <;> grind [State.applyHeld, incr_keeps]

theorem clearTag_keeps (s : State) (tag : Nat) :
    (State.clearTag s tag).pending = s.pending ∧ (State.clearTag s tag).store.svn = s.store.svn := by
  simp [State.clearTag]

theorem modLink_keeps (s : State) (a b p : Nat) (f : Link → Link) :
    (State.modLink s a b p f).pending = s.pending ∧ (State.modLink s a b p f).store.svn = s.store.svn := by
  simp [State.modLink]

theorem startRemap_keeps (s : State) (n cell row : Nat) :
    (State.startRemap s n cell row).pending = s.pending ∧
        (State.startRemap s n cell row).store.svn = s.store.svn := by
  unfold State.startRemap; (repeat' split) <;> simp_all [modSpire_keeps, setFlag_keeps]

theorem askRemap_keeps (s : State) (n : Nat) :
    (State.askRemap s n).pending = s.pending ∧ (State.askRemap s n).store.svn = s.store.svn := by
  unfold State.askRemap; dsimp only; refine foldl_keeps _ _ _ ?_; intro p x; (repeat' split) <;> grind [State.askRemap, modSpire_keeps, put_keeps, startRemap_keeps]

theorem countRow_keeps (s : State) (n cell row : Nat) :
    (State.countRow s n cell row).pending = s.pending ∧ (State.countRow s n cell row).store.svn = s.store.svn := by
  simp [State.countRow, askRemap_keeps, modSpire_keeps]

theorem ceRecord_keeps (s : State) (n cell bank brow cw sym : Nat) :
    (State.ceRecord s n cell bank brow cw sym).pending = s.pending ∧
        (State.ceRecord s n cell bank brow cw sym).store.svn = s.store.svn := by
  simp [State.ceRecord, addSat_keeps, bump_keeps, post_keeps, put_keeps]

theorem wellCorrected_keeps (s : State) (n cell row cw sym : Nat) :
    (State.wellCorrected s n cell row cw sym).pending = s.pending ∧
        (State.wellCorrected s n cell row cw sym).store.svn = s.store.svn := by
  simp [State.wellCorrected, countRow_keeps, ceRecord_keeps]

theorem wellUncorrectable_keeps (s : State) (n cell row cw : Nat) :
    (State.wellUncorrectable s n cell row cw).pending = s.pending ∧
        (State.wellUncorrectable s n cell row cw).store.svn = s.store.svn := by
  simp [State.wellUncorrectable, bump_keeps, post_keeps]

theorem cwRead_keeps (s : State) (n cell cw : Nat) (report : Bool) :
    ((State.cwRead s n cell cw report).1).pending = s.pending ∧
        ((State.cwRead s n cell cw report).1).store.svn = s.store.svn := by
  grind [State.cwRead, wellCorrected_keeps, wellUncorrectable_keeps]

theorem cwReadMerged_keeps (s : State) (n cell cw : Nat) :
    ((State.cwReadMerged s n cell cw).1).pending = s.pending ∧
        ((State.cwReadMerged s n cell cw).1).store.svn = s.store.svn := by
  grind [State.cwReadMerged, cwRead_keeps]

theorem cwsRead_keeps (s : State) (n cell a k : Nat) : ((s.cwsRead n cell a k).1).pending = s.pending ∧
    ((s.cwsRead n cell a k).1).store.svn = s.store.svn := by
  induction k generalizing s a with
  | zero => simp [State.cwsRead]
  | succ k ih =>
    unfold State.cwsRead
    dsimp only
    split <;> simp [ih, cwReadMerged_keeps]

theorem wellRead_keeps (s : State) (n cell a len : Nat) :
    ((State.wellRead s n cell a len).1).pending = s.pending ∧
        ((State.wellRead s n cell a len).1).store.svn = s.store.svn := by
  simp [State.wellRead, cwsRead_keeps, ite_keeps, ite_fst]

theorem cwWrite_keeps (s : State) (n cell cw : Nat) (b : List Byte) :
    (State.cwWrite s n cell cw b).pending = s.pending ∧ (State.cwWrite s n cell cw b).store.svn = s.store.svn := by
  grind [State.cwWrite, modSpire_keeps, setFlag_keeps]

theorem evict_keeps (s : State) (n cell : Nat) (e : Merge) :
    (State.evict s n cell e).pending = s.pending ∧ (State.evict s n cell e).store.svn = s.store.svn := by
  grind [State.evict, cwWrite_keeps, post_keeps, bump_keeps, cwRead_keeps, modCell_keeps]

theorem mergeWrite_keeps (s : State) (n cell cw : Nat) (b : List Byte) (mask writer : Nat) :
    (State.mergeWrite s n cell cw b mask writer).pending = s.pending ∧
        (State.mergeWrite s n cell cw b mask writer).store.svn = s.store.svn := by
  grind [State.mergeWrite, evict_keeps, modCell_keeps]

theorem wellWriteFrom_keeps (s : State) (n cell w f a : Nat) (b : List Byte) : (s.wellWriteFrom n cell w f a b).pending = s.pending ∧ (s.wellWriteFrom n cell w f a b).store.svn = s.store.svn := by
  induction f generalizing s a b with
  | zero => simp [State.wellWriteFrom]
  | succ f ih =>
    unfold State.wellWriteFrom
    split
    · simp
    · dsimp only
      refine ⟨(ih _ _ _).1.trans ?_, (ih _ _ _).2.trans ?_⟩ <;> split <;> simp [cwWrite_keeps, mergeWrite_keeps,
          modCell_keeps]

theorem wellWrite_keeps (s : State) (n cell writer a : Nat) (b : List Byte) :
    (State.wellWrite s n cell writer a b).pending = s.pending ∧
        (State.wellWrite s n cell writer a b).store.svn = s.store.svn := by
  simp [State.wellWrite, wellWriteFrom_keeps]

theorem drainSpire_keeps (s : State) (n : Nat) :
    (State.drainSpire s n).pending = s.pending ∧ (State.drainSpire s n).store.svn = s.store.svn := by
  simp [State.drainSpire, evict_keeps, foldl_keeps]

theorem scrRead_keeps (s : State) (n cell cw : Nat) (report : Bool) :
    ((State.scrRead s n cell cw report).1).pending = s.pending ∧
        ((State.scrRead s n cell cw report).1).store.svn = s.store.svn := by
  grind [State.scrRead, ceRecord_keeps, wellUncorrectable_keeps]

theorem scrsRead_keeps (s : State) (n cell a k : Nat) :
    ((s.scrsRead n cell a k).1).pending = s.pending ∧ ((s.scrsRead n cell a k).1).store.svn = s.store.svn := by
  induction k generalizing s a with
  | zero => exact ⟨rfl, rfl⟩
  | succ k ih =>
    unfold State.scrsRead
    dsimp only
    split <;> exact keeps_trans (ih _ _) (scrRead_keeps _ _ _ _ _)


theorem scratchRead_keeps (s : State) (n cell a len : Nat) :
    ((State.scratchRead s n cell a len).1).pending = s.pending ∧
        ((State.scratchRead s n cell a len).1).store.svn = s.store.svn := by
  unfold State.scratchRead
  split
  · exact ⟨rfl, rfl⟩
  · exact scrsRead_keeps _ _ _ _ _


theorem scrWrite_keeps (s : State) (n cell cw : Nat) (b : List Byte) :
    (State.scrWrite s n cell cw b).pending = s.pending ∧ (State.scrWrite s n cell cw b).store.svn = s.store.svn := by
  simp [State.scrWrite, modSpire_keeps, setFlag_keeps, ite_keeps]

theorem scrModify_keeps (s : State) (n cell cw : Nat) (b : List Byte) (mask : Nat) :
    (State.scrModify s n cell cw b mask).pending = s.pending ∧
        (State.scrModify s n cell cw b mask).store.svn = s.store.svn := by
  grind [State.scrModify, bump_keeps, post_keeps, scrWrite_keeps, scrRead_keeps]

theorem scratchWriteFrom_keeps (s : State) (n cell f a : Nat) (b : List Byte) :
    (s.scratchWriteFrom n cell f a b).pending = s.pending ∧
        (s.scratchWriteFrom n cell f a b).store.svn = s.store.svn := by
  induction f generalizing s a b with
  | zero => exact ⟨rfl, rfl⟩
  | succ f ih =>
    unfold State.scratchWriteFrom
    split
    · exact ⟨rfl, rfl⟩
    · refine keeps_trans (ih _ _ _) ?_
      split
      · exact scrWrite_keeps _ _ _ _ _
      · exact scrModify_keeps _ _ _ _ _ _


theorem scratchWrite_keeps (s : State) (n cell a : Nat) (b : List Byte) :
    (State.scratchWrite s n cell a b).pending = s.pending ∧
        (State.scratchWrite s n cell a b).store.svn = s.store.svn :=
  scratchWriteFrom_keeps _ _ _ _ _ _


theorem showSpares_keeps (s : State) (n : Nat) (t : Tab (List Nat)) (hi lo : Nat) :
    (State.showSpares s n t hi lo).pending = s.pending ∧ (State.showSpares s n t hi lo).store.svn = s.store.svn := by
  refine foldl_keeps _ _ _ fun s e => ?_
  split
  · exact setFld_keeps _ _ _ _ _ _
  · exact ⟨rfl, rfl⟩


theorem showTest_keeps (s : State) (n : Nat) :
    (State.showTest s n).pending = s.pending ∧ (State.showTest s n).store.svn = s.store.svn := by
  simp [State.showTest, clearReg_keeps, post_keeps, put_keeps, showSpares_keeps, foldl_keeps]

theorem buildMap_keeps (s : State) (n : Nat) (tested : List Nat) :
    (State.buildMap s n tested).pending = s.pending ∧ (State.buildMap s n tested).store.svn = s.store.svn := by
  unfold State.buildMap; dsimp only; (repeat' split) <;> simp [modSpire_keeps, post_keeps, put_keeps, showTest_keeps,
      foldl_keeps]

theorem startTest_keeps (s : State) (n : Nat) (t : SpireTest) :
    (State.startTest s n t).pending = s.pending ∧ (State.startTest s n t).store.svn = s.store.svn := by
  unfold State.startTest; dsimp only; (repeat' split) <;> simp [modSpire_keeps, put_keeps]

theorem tagWrite_keeps (s : State) (n : Nat) (z : Zone) (i v : Nat) :
    (State.tagWrite s n z i v).pending = s.pending ∧ (State.tagWrite s n z i v).store.svn = s.store.svn := by
  simp [State.tagWrite, wellWrite_keeps]

theorem setFill_keeps (s : State) (n zi : Nat) (z : Zone) (v : Nat) :
    (State.setFill s n zi z v).pending = s.pending ∧ (State.setFill s n zi z v).store.svn = s.store.svn := by
  unfold State.setFill; (repeat' split) <;> simp_all [put_keeps, tagWrite_keeps]

theorem landRefused_keeps (s : State) (n : Nat) :
    (State.landRefused s n).pending = s.pending ∧ (State.landRefused s n).store.svn = s.store.svn := by
  simp [State.landRefused, bump_keeps, addWrap_keeps]

theorem landJoin_keeps (s : State) (n : Nat) (r : Landing) (m : MsgPart) (e : Nat) :
    ((State.landJoin s n r m e).1).pending = s.pending ∧ ((State.landJoin s n r m e).1).store.svn = s.store.svn := by
  simp [State.landJoin, incr_keeps, modSpire_keeps, tagWrite_keeps, wellWrite_keeps, ite_keeps, ite_fst]

theorem landPart_keeps (s : State) (n : Nat) (m : MsgPart) (oc : Nat) :
    ((State.landPart s n m oc).1).pending = s.pending ∧ ((State.landPart s n m oc).1).store.svn = s.store.svn := by
  grind [State.landPart, landJoin_keeps, modSpire_keeps, landRefused_keeps, setFill_keeps]

theorem landTally_keeps (s : State) (n zone tag count : Nat) (by_ : Issuer) :
    ((State.landTally s n zone tag count by_).1).pending = s.pending ∧
        ((State.landTally s n zone tag count by_).1).store.svn = s.store.svn := by
  grind [State.landTally, incr_keeps, landRefused_keeps]

theorem zclr_keeps (s : State) (n zi : Nat) :
    (State.zclr s n zi).pending = s.pending ∧ (State.zclr s n zi).store.svn = s.store.svn := by
  simp [State.zclr, setFill_keeps]

theorem duPost_keeps (s : State) (n cls code info : Nat) :
    (State.duPost s n cls code info).pending = s.pending ∧
        (State.duPost s n cls code info).store.svn = s.store.svn := by
  simp [State.duPost, post_keeps]

theorem rowRefusedLog_keeps (s : State) (n : Nat) (m : OutMsg) (st : Nat) :
    (State.rowRefusedLog s n m st).pending = s.pending ∧ (State.rowRefusedLog s n m st).store.svn = s.store.svn := by
  simp [State.rowRefusedLog, duPost_keeps]

theorem msgDone_keeps (s : State) (n : Nat) (m : OutMsg) (st : Nat) :
    (State.msgDone s n m st).pending = s.pending ∧ (State.msgDone s n m st).store.svn = s.store.svn := by
  grind [State.msgDone, modCell_keeps, modSpire_keeps, rowRefusedLog_keeps]

theorem msgAnswer_keeps (s : State) (n id part st : Nat) :
    (State.msgAnswer s n id part st).pending = s.pending ∧
        (State.msgAnswer s n id part st).store.svn = s.store.svn := by
  grind [State.msgAnswer, modSpire_keeps, msgDone_keeps]

theorem spotRead_keeps (s : State) (n : Nat) (p : Spot) (off len : Nat) :
    ((State.spotRead s n p off len).1).pending = s.pending ∧
        ((State.spotRead s n p off len).1).store.svn = s.store.svn := by
  unfold State.spotRead; (repeat' split) <;> simp_all [scratchRead_keeps, wellRead_keeps]

theorem spotWrite_keeps (s : State) (n : Nat) (p : Spot) (writer off : Nat) (b : List Byte) :
    (State.spotWrite s n p writer off b).pending = s.pending ∧
        (State.spotWrite s n p writer off b).store.svn = s.store.svn := by
  unfold State.spotWrite; (repeat' split) <;> simp_all [scratchWrite_keeps, wellWrite_keeps]

theorem modPort_keeps (s : State) (p : Nat) (f : Port → Port) :
    (State.modPort s p f).pending = s.pending ∧ (State.modPort s p f).store.svn = s.store.svn := by
  simp [State.modPort, modOculus_keeps]

theorem setPortState_keeps (s : State) (p st : Nat) :
    (State.setPortState s p st).pending = s.pending ∧ (State.setPortState s p st).store.svn = s.store.svn := by
  simp [State.setPortState, setFld_keeps]

theorem ocEvent_keeps (s : State) (e code unit amt : Nat) :
    (State.ocEvent s e code unit amt).pending = s.pending ∧
        (State.ocEvent s e code unit amt).store.svn = s.store.svn := by
  simp [State.ocEvent, bump_keeps]

theorem samplePort_keeps (s : State) (p : Nat) :
    (State.samplePort s p).pending = s.pending ∧ (State.samplePort s p).store.svn = s.store.svn := by
  grind [State.samplePort, modPort_keeps, setFld_keeps]

theorem departing_keeps (s : State) (l : List Pkt) :
    ((State.departing s l).1).pending = s.pending ∧ ((State.departing s l).1).store.svn = s.store.svn := by
  simp [State.departing]

theorem sendBundle_keeps (s : State) (p : Nat) (b : List Pkt) (pool : Nat) (rest : List Pkt) :
    (State.sendBundle s p b pool rest).pending = s.pending ∧
        (State.sendBundle s p b pool rest).store.svn = s.store.svn := by
  simp [State.sendBundle, ocEvent_keeps, modPort_keeps, departing_keeps, put64_keeps]

theorem sendAnew_keeps (s : State) (p : Nat) (b : Sent) (pool : Nat) (rest : List Sent) :
    (State.sendAnew s p b pool rest).pending = s.pending ∧
        (State.sendAnew s p b pool rest).store.svn = s.store.svn := by
  simp [State.sendAnew, addWrap_keeps, ocEvent_keeps, modPort_keeps, departing_keeps, put64_keeps]

theorem stallCount_keeps (s : State) (p : Nat) :
    (State.stallCount s p).pending = s.pending ∧ (State.stallCount s p).store.svn = s.store.svn := by
  unfold State.stallCount; (repeat' split) <;> simp_all [ocEvent_keeps, addWrap_keeps, modPort_keeps, ite_keeps]

theorem stallMark_keeps (s : State) (p : Nat) :
    (State.stallMark s p).pending = s.pending ∧ (State.stallMark s p).store.svn = s.store.svn := by
  grind [State.stallMark, modPort_keeps, stallCount_keeps]

theorem pumpPort_keeps (s : State) (p f : Nat) : (s.pumpPort p f).pending = s.pending ∧
    (s.pumpPort p f).store.svn = s.store.svn := by
  induction f generalizing s with
  | zero => exact ⟨rfl, rfl⟩
  | succ f ih =>
    unfold State.pumpPort
    dsimp only
    repeat' split
    all_goals first | exact ⟨rfl, rfl⟩ | (refine keeps_trans (ih _) ?_; simp [sendAnew_keeps, sendBundle_keeps])

theorem pump_keeps (s : State) (p : Nat) :
    (State.pump s p).pending = s.pending ∧ (State.pump s p).store.svn = s.store.svn := by
  simp [State.pump, pumpPort_keeps, samplePort_keeps, stallMark_keeps]

theorem setTxn_keeps (s : State) (t : Txn) :
    (State.setTxn s t).pending = s.pending ∧ (State.setTxn s t).store.svn = s.store.svn := by
  simp [State.setTxn, modOculus_keeps]

theorem dropTxn_keeps (s : State) (seq : Nat) :
    (State.dropTxn s seq).pending = s.pending ∧ (State.dropTxn s seq).store.svn = s.store.svn := by
  simp [State.dropTxn, modOculus_keeps]

theorem addTxn_keeps (s : State) (t : Txn) :
    (State.addTxn s t).pending = s.pending ∧ (State.addTxn s t).store.svn = s.store.svn := by
  simp [State.addTxn, modOculus_keeps]

theorem absorb_keeps (s : State) (p : Nat) (k : Pkt) (uu : State) (h : State.absorb s p k = some uu) :
    (uu).pending = s.pending ∧ (uu).store.svn = s.store.svn := by
  grind [State.absorb, addTxn_keeps, bump_keeps, dropTxn_keeps, modPort_keeps]

theorem toPort_keeps (s : State) (p : Nat) (k : Pkt) :
    (State.toPort s p k).pending = s.pending ∧ (State.toPort s p k).store.svn = s.store.svn := by
  grind [State.toPort, pump_keeps, absorb_keeps, modPort_keeps, samplePort_keeps]

theorem tryForward_keeps (s : State) (e : Nat) (k : Pkt) (uu : State) (h : State.tryForward s e k = some uu) :
    (uu).pending = s.pending ∧ (uu).store.svn = s.store.svn := by
  simp [State.tryForward] at h; grind [toPort_keeps]

theorem sendOrDrop_keeps (s : State) (e : Nat) (k : Pkt) :
    (State.sendOrDrop s e k).pending = s.pending ∧ (State.sendOrDrop s e k).store.svn = s.store.svn := by
  grind [State.sendOrDrop, modPort_keeps, ocEvent_keeps, tryForward_keeps]

theorem giveBack_keeps (s : State) (p : Nat) :
    (State.giveBack s p).pending = s.pending ∧ (State.giveBack s p).store.svn = s.store.svn := by
  simp [State.giveBack, modPort_keeps]

theorem freeFlits_keeps (s : State) (p pool n : Nat) :
    (State.freeFlits s p pool n).pending = s.pending ∧ (State.freeFlits s p pool n).store.svn = s.store.svn := by
  simp [State.freeFlits, giveBack_keeps, modPort_keeps]

theorem portDown_keeps (s : State) (p st : Nat) :
    (State.portDown s p st).pending = s.pending ∧ (State.portDown s p st).store.svn = s.store.svn := by
  simp [State.portDown, modPort_keeps, stallCount_keeps, setPortState_keeps]

theorem showPorts_keeps (s : State) (e : Nat) :
    (State.showPorts s e).pending = s.pending ∧ (State.showPorts s e).store.svn = s.store.svn := by
  simp [State.showPorts, setFld_keeps]

theorem startPageRemap_keeps (s : State) (g : Nat) (p : MPage) :
    (State.startPageRemap s g p).pending = s.pending ∧ (State.startPageRemap s g p).store.svn = s.store.svn := by
  unfold State.startPageRemap; (repeat' split) <;> simp_all [modGate_keeps, setFlag_keeps]

theorem askPageRemap_keeps (s : State) (g : Nat) :
    (State.askPageRemap s g).pending = s.pending ∧ (State.askPageRemap s g).store.svn = s.store.svn := by
  unfold State.askPageRemap; dsimp only; refine foldl_keeps _ _ _ ?_; intro p x; (repeat' split) <;> grind [State.askPageRemap, modGate_keeps, put_keeps, startPageRemap_keeps]

theorem countPage_keeps (s : State) (g : Nat) (p : MPage) :
    (State.countPage s g p).pending = s.pending ∧ (State.countPage s g p).store.svn = s.store.svn := by
  simp [State.countPage, askPageRemap_keeps, modGate_keeps]

theorem memCorrected_keeps (s : State) (g ch line cw sym src : Nat) :
    (State.memCorrected s g ch line cw sym src).pending = s.pending ∧
        (State.memCorrected s g ch line cw sym src).store.svn = s.store.svn := by
  simp [State.memCorrected, addSat_keeps, bump_keeps, countPage_keeps, post_keeps, put_keeps]

theorem memUncorrectable_keeps (s : State) (g ch line cw src : Nat) :
    (State.memUncorrectable s g ch line cw src).pending = s.pending ∧
        (State.memUncorrectable s g ch line cw src).store.svn = s.store.svn := by
  simp [State.memUncorrectable, bump_keeps, post_keeps, put_keeps]

theorem memCwRead_keeps (s : State) (g ch line cw : Nat) (key : Option Nat) (src : Nat) :
    ((State.memCwRead s g ch line cw key src).1).pending = s.pending ∧
        ((State.memCwRead s g ch line cw key src).1).store.svn = s.store.svn := by
  unfold State.memCwRead; (repeat' split) <;> simp_all [memCorrected_keeps, memUncorrectable_keeps]

theorem chanUsed_keeps (s : State) (line : Nat) :
    (State.chanUsed s line).pending = s.pending ∧ (State.chanUsed s line).store.svn = s.store.svn := by
  simp [State.chanUsed, modGate_keeps]

theorem chanRead_keeps (s : State) (line : Nat) (key : Option Nat) (src : Nat) :
    ((State.chanRead s line key src).1).pending = s.pending ∧
        ((State.chanRead s line key src).1).store.svn = s.store.svn := by
  unfold State.chanRead; dsimp only; refine foldl_keeps1 _ _ _ ?_; intro p x; (repeat' split) <;> grind [State.chanRead, memCwRead_keeps, chanUsed_keeps]

theorem memCwWrite_keeps (s : State) (line cw key : Nat) (b : List Byte) :
    (State.memCwWrite s line cw key b).pending = s.pending ∧
        (State.memCwWrite s line cw key b).store.svn = s.store.svn := by
  grind [State.memCwWrite, modGate_keeps, setFlag_keeps]

theorem chanWrite_keeps (s : State) (line key changed : Nat) (data : List Byte) :
    (State.chanWrite s line key changed data).pending = s.pending ∧
        (State.chanWrite s line key changed data).store.svn = s.store.svn := by
  simp [State.chanWrite, chanUsed_keeps, memCwWrite_keeps, foldl_keeps, ite_keeps]

theorem writeBack_keeps (s : State) (g : Nat) (e : LEntry) :
    (State.writeBack s g e).pending = s.pending ∧ (State.writeBack s g e).store.svn = s.store.svn := by
  unfold State.writeBack; (repeat' split) <;> simp_all [modGate_keeps, chanWrite_keeps]

theorem release_keeps (s : State) (g : Nat) (e : LEntry) :
    (State.release s g e).pending = s.pending ∧ (State.release s g e).store.svn = s.store.svn := by
  simp [State.release, modGate_keeps, writeBack_keeps]

theorem lbufRoom_keeps (s : State) (g : Nat) :
    ((State.lbufRoom s g).1).pending = s.pending ∧ ((State.lbufRoom s g).1).store.svn = s.store.svn := by
  grind [State.lbufRoom, bump_keeps, release_keeps]

theorem rekey_keeps (s : State) (line key : Nat) :
    (State.rekey s line key).pending = s.pending ∧ (State.rekey s line key).store.svn = s.store.svn := by
  grind [State.rekey, release_keeps]

theorem memLoadAs_keeps (s : State) (line key : Nat) :
    ((State.memLoadAs s line key).1).pending = s.pending ∧
        ((State.memLoadAs s line key).1).store.svn = s.store.svn := by
  grind [State.memLoadAs, chanRead_keeps, modGate_keeps, rekey_keeps]

theorem memModifyAs_keeps (s : State) (line key : Nat) (full : Bool) (f : List Byte → List Byte × Nat) :
    ((State.memModifyAs s line key full f).1).pending = s.pending ∧
        ((State.memModifyAs s line key full f).1).store.svn = s.store.svn := by
  grind [State.memModifyAs, put_keeps, bump_keeps, chanRead_keeps, lbufRoom_keeps, modGate_keeps, rekey_keeps]

theorem plEvent_keeps (s : State) (code st amt : Nat) :
    (State.plEvent s code st amt).pending = s.pending ∧ (State.plEvent s code st amt).store.svn = s.store.svn := by
  unfold State.plEvent; (repeat' split) <;> simp_all [bump_keeps]

theorem linkCount_keeps (s : State) (reg : Loc) (a b p amt : Nat) :
    (State.linkCount s reg a b p amt).pending = s.pending ∧
        (State.linkCount s reg a b p amt).store.svn = s.store.svn := by
  unfold State.linkCount; (repeat' split) <;> simp_all [addWrap_keeps]

theorem sendUnit_keeps (s : State) (a b p : Nat) (idle : Bool) (seq : Nat) (hdrs : List Hdr) :
    (State.sendUnit s a b p idle seq hdrs).pending = s.pending ∧
        (State.sendUnit s a b p idle seq hdrs).store.svn = s.store.svn := by
  simp [State.sendUnit, modLink_keeps]

theorem sendAgain_keeps (s : State) (a b p : Nat) (q : LSent) :
    (State.sendAgain s a b p q).pending = s.pending ∧ (State.sendAgain s a b p q).store.svn = s.store.svn := by
  simp [State.sendAgain, linkCount_keeps, plEvent_keeps, modLink_keeps, sendUnit_keeps]

theorem pumpLink_keeps (s : State) (a b p f : Nat) : (s.pumpLink a b p f).pending = s.pending ∧
    (s.pumpLink a b p f).store.svn = s.store.svn := by
  induction f generalizing s with
  | zero => exact ⟨rfl, rfl⟩
  | succ f ih =>
    unfold State.pumpLink
    dsimp only
    repeat' split
    all_goals first
      | exact ⟨rfl, rfl⟩
      | exact keeps_trans (ih _) (sendAgain_keeps _ _ _ _ _)
      | exact keeps_trans (ih _) (keeps_trans (sendUnit_keeps _ _ _ _ _ _ _) (modLink_keeps _ _ _ _ _))

theorem pumpAll_keeps (s : State) (a b p : Nat) :
    (State.pumpAll s a b p).pending = s.pending ∧ (State.pumpAll s a b p).store.svn = s.store.svn := by
  simp [State.pumpAll, pumpLink_keeps]

theorem resendLink_keeps (s : State) (a b p : Nat) :
    (State.resendLink s a b p).pending = s.pending ∧ (State.resendLink s a b p).store.svn = s.store.svn := by
  unfold State.resendLink; (repeat' split) <;> simp [modLink_keeps] <;> grind [modLink_keeps]

theorem sendOn_keeps (s : State) (a b p : Nat) (h : Hdr) :
    (State.sendOn s a b p h).pending = s.pending ∧ (State.sendOn s a b p h).store.svn = s.store.svn := by
  simp [State.sendOn, pumpAll_keeps, modLink_keeps]

theorem fillLine_keeps (s : State) (a b p : Nat) :
    (State.fillLine s a b p).pending = s.pending ∧ (State.fillLine s a b p).store.svn = s.store.svn := by
  simp [State.fillLine, sendUnit_keeps, ite_keeps]

theorem judgeBlock_keeps (s : State) (a b p : Nat) (bits : Option Nat) :
    (State.judgeBlock s a b p bits).pending = s.pending ∧
        (State.judgeBlock s a b p bits).store.svn = s.store.svn := by
  unfold State.judgeBlock; (repeat' split) <;> simp_all [plEvent_keeps, linkCount_keeps, modLink_keeps]

theorem moveBlock_keeps (s : State) (a b p : Nat) (err : BitVec 560) :
    (State.moveBlock s a b p err).pending = s.pending ∧ (State.moveBlock s a b p err).store.svn = s.store.svn := by
  simp [State.moveBlock, modLink_keeps, fillLine_keeps, judgeBlock_keeps]

theorem hdrHash_keeps (s : State) (a b : Nat) (h : Hdr) (onLine : Bool) :
    ((State.hdrHash s a b h onLine).2).pending = s.pending ∧
        ((State.hdrHash s a b h onLine).2).store.svn = s.store.svn := by
  unfold State.hdrHash; (repeat' split) <;> simp_all

theorem sendFor_keeps (s : State) (a b : Nat) (h : Hdr) (onLine : Bool) :
    ((State.sendFor s a b h onLine).1).pending = s.pending ∧
        ((State.sendFor s a b h onLine).1).store.svn = s.store.svn := by
  grind [State.sendFor, hdrHash_keeps, plEvent_keeps, sendOn_keeps]

theorem sendHdr_keeps (s : State) (a b : Nat) (h : Hdr) :
    ((State.sendHdr s a b h).1).pending = s.pending ∧ ((State.sendHdr s a b h).1).store.svn = s.store.svn := by
  grind [State.sendHdr, sendFor_keeps]

theorem replyHdr_keeps (s : State) (b src : Nat) (h : Hdr) (st : Nat) (data : List Byte) :
    (State.replyHdr s b src h st data).pending = s.pending ∧
        (State.replyHdr s b src h st data).store.svn = s.store.svn := by
  simp [State.replyHdr, sendFor_keeps]

theorem openCall_keeps (s : State) (a b : Nat) (who : Caller) (h : Hdr) :
    ((State.openCall s a b who h).1).pending = s.pending ∧
        ((State.openCall s a b who h).1).store.svn = s.store.svn := by
  simp [State.openCall, sendHdr_keeps, ite_keeps, ite_fst]

theorem dropCall_keeps (s : State) (c : Call) :
    (State.dropCall s c).pending = s.pending ∧ (State.dropCall s c).store.svn = s.store.svn := by
  simp [State.dropCall]

theorem forgetCalls_keeps (s : State) (f : Call → Bool) :
    (State.forgetCalls s f).pending = s.pending ∧ (State.forgetCalls s f).store.svn = s.store.svn := by
  simp [State.forgetCalls]

theorem lineWord_keeps (s : State) (a b p : Nat) (w : Bundle) :
    (State.lineWord s a b p w).pending = s.pending ∧ (State.lineWord s a b p w).store.svn = s.store.svn := by
  simp [State.lineWord, pumpAll_keeps, modLink_keeps, resendLink_keeps, ite_keeps]

end Sys2Proof.Machine
end

