-- ==== Sys2Proof/Laws/KeepServe.lean ====
section
/-! SUPPORT. What the shared operations leave alone: no operation of fabric service, sequencers, frames, tasks, transport, clocks and gatehouses takes or adds a waiting command, and none
moves a minimum security version. -/

namespace Sys2Proof.Machine

theorem setKey_keeps (s : State) (i : Nat) (k : Option PairKey) :
    (State.setKey s i k).pending = s.pending ∧ (State.setKey s i k).store.svn = s.store.svn := by
  simp [State.setKey, setFld_keeps]

theorem sealPkt_keeps1 (s : State) (e : Nat) (g : Bool) (k : Pkt) (t : State) (x : Pkt) (h : s.sealPkt e g k = .sealed t x) :
    (t).pending = s.pending ∧ (t).store.svn = s.store.svn := by
  unfold State.sealPkt at h; dsimp only at h
  (repeat' split at h) <;> simp_all <;> (obtain ⟨rfl, _⟩ := h; simp [setKey_keeps])

theorem sealPkt_keeps2 (s : State) (e : Nat) (g : Bool) (k : Pkt) (t : State) (h : s.sealPkt e g k = .exhausted t) :
    (t).pending = s.pending ∧ (t).store.svn = s.store.svn := by
  unfold State.sealPkt at h; dsimp only at h
  (repeat' split at h) <;> simp_all <;> (subst h; simp [post_keeps, setKey_keeps])

theorem openPkt_keeps (s : State) (mgmt : Bool) (k : Pkt) (uu : State) (xx : Pkt) (h : State.openPkt s mgmt k = some (uu, xx)) :
    (uu).pending = s.pending ∧ (uu).store.svn = s.store.svn := by
  grind [State.openPkt, setKey_keeps]

theorem winReject_keeps (s : State) (e : Nat) (k : Pkt) (st : Nat) :
    (State.winReject s e k st).pending = s.pending ∧ (State.winReject s e k st).store.svn = s.store.svn := by
  grind [State.winReject, bump_keeps, put_keeps]

theorem authCheck_keeps (s : State) (k : Pkt) (uu : State) (xx : Pkt) (h : State.authCheck s k = some (uu, xx)) :
    (uu).pending = s.pending ∧ (uu).store.svn = s.store.svn := by
  grind [State.authCheck, openPkt_keeps]

theorem checkReq_keeps1 (s : State) (e : Nat) (k : Pkt) (t : State) (x : Nat) (h : s.checkReq e k = .fail t x) :
    (t).pending = s.pending ∧ (t).store.svn = s.store.svn := by
  unfold State.checkReq at h
  (repeat' split at h) <;> grind [winReject_keeps, authCheck_keeps]

theorem checkReq_keeps2 (s : State) (e : Nat) (k : Pkt) (t : State) (x : Pkt) (h : s.checkReq e k = .land t x) :
    (t).pending = s.pending ∧ (t).store.svn = s.store.svn := by
  unfold State.checkReq at h
  (repeat' split at h) <;> grind [winReject_keeps, authCheck_keeps]

theorem checkReq_keeps3 (s : State) (e : Nat) (k : Pkt) (t : State) (x : Pkt) (w : Nat) (h : s.checkReq e k = .pass t x w) :
    (t).pending = s.pending ∧ (t).store.svn = s.store.svn := by
  unfold State.checkReq at h
  (repeat' split at h) <;> grind [winReject_keeps, authCheck_keeps]

theorem reqSignal_keeps (s : State) (e : Nat) (k : Pkt) :
    (State.reqSignal s e k).pending = s.pending ∧ (State.reqSignal s e k).store.svn = s.store.svn := by
  unfold State.reqSignal; (repeat' split) <;> simp_all [incr_keeps]

theorem askInside_keeps (s : State) (e l dst st : Nat) (who : Caller) (h : Hdr) (uu : State) (xx : Option Nat) (h : State.askInside s e l dst st who h = some (uu, xx)) :
    (uu).pending = s.pending ∧ (uu).store.svn = s.store.svn := by
  grind [State.askInside, openCall_keeps]

theorem askLine_keeps (s : State) (e line : Nat) (who : Caller) (h : Hdr) (uu : State) (xx : Option Nat) (h : State.askLine s e line who h = some (uu, xx)) :
    (uu).pending = s.pending ∧ (uu).store.svn = s.store.svn := by
  grind [State.askLine, askInside_keeps]

theorem admitSignal_keeps (s : State) (e : Nat) (k : Pkt) (own : Option Nat) (uu : State) (xx : Option Nat) (h : State.admitSignal s e k own = some (uu, xx)) :
    (uu).pending = s.pending ∧ (uu).store.svn = s.store.svn := by
  grind [State.admitSignal, askInside_keeps, reqSignal_keeps]

theorem letIn_keeps (s : State) (e : Nat) (k : Pkt) (w : Nat) (own : Option Nat) (uu : State) (xx : Option Nat) (h : State.letIn s e k w own = some (uu, xx)) :
    (uu).pending = s.pending ∧ (uu).store.svn = s.store.svn := by
  grind [State.letIn, admitSignal_keeps, askInside_keeps, askLine_keeps]

theorem answer_keeps (s : State) (e : Nat) (k : Pkt) (st : Nat) (data : List Byte) :
    (State.answer s e k st data).pending = s.pending ∧ (State.answer s e k st data).store.svn = s.store.svn := by
  grind [State.answer, sealPkt_keeps1, sealPkt_keeps2, sendOrDrop_keeps]

theorem fopDone_keeps (s : State) (n c seq st : Nat) (data : List Byte) :
    (State.fopDone s n c seq st data).pending = s.pending ∧
        (State.fopDone s n c seq st data).store.svn = s.store.svn := by
  grind [State.fopDone, incr_keeps, modCell_keeps, spotRead_keeps, spotWrite_keeps]

theorem fopLoad_keeps (s : State) (n c : Nat) (k : Pkt) (data : List Byte) :
    (State.fopLoad s n c k data).pending = s.pending ∧ (State.fopLoad s n c k data).store.svn = s.store.svn := by
  unfold State.fopLoad; (repeat' split) <;> simp_all [spotWrite_keeps]

theorem senderDone_keeps (s : State) (t : Txn) (st : Nat) (data : List Byte) :
    (State.senderDone s t st data).pending = s.pending ∧ (State.senderDone s t st data).store.svn = s.store.svn := by
  unfold State.senderDone; (repeat' split) <;> simp_all [fopDone_keeps, fopLoad_keeps, msgAnswer_keeps, post_keeps,
      replyHdr_keeps]

theorem answerAbsorbed_keeps (s : State) (e : Nat) (k : Pkt) (st : Nat) (data : List Byte) :
    (State.answerAbsorbed s e k st data).pending = s.pending ∧
        (State.answerAbsorbed s e k st data).store.svn = s.store.svn := by
  unfold State.answerAbsorbed; (repeat' split) <;> simp_all [answer_keeps, dropTxn_keeps, senderDone_keeps]

theorem finishTxn_keeps (s : State) (t : Txn) (st : Nat) (data : List Byte) :
    (State.finishTxn s t st data).pending = s.pending ∧ (State.finishTxn s t st data).store.svn = s.store.svn := by
  unfold State.finishTxn; (repeat' split) <;> simp_all [answerAbsorbed_keeps, dropTxn_keeps, senderDone_keeps, foldl_keeps]

theorem partAnswer_keeps (s : State) (n id part st seq : Nat) :
    (State.partAnswer s n id part st seq).pending = s.pending ∧
        (State.partAnswer s n id part st seq).store.svn = s.store.svn := by
  grind [State.partAnswer, dropTxn_keeps, msgAnswer_keeps]

theorem comeBack_keeps (s : State) (t : Txn) (addr st : Nat) (data : List Byte) :
    (State.comeBack s t addr st data).pending = s.pending ∧
        (State.comeBack s t addr st data).store.svn = s.store.svn := by
  unfold State.comeBack; (repeat' split) <;> simp_all [finishTxn_keeps, partAnswer_keeps]

theorem tellReq_keeps (s : State) (e : Nat) (k : Pkt) (own : Option Nat) (st : Nat) (data : List Byte) :
    (State.tellReq s e k own st data).pending = s.pending ∧
        (State.tellReq s e k own st data).store.svn = s.store.svn := by
  unfold State.tellReq; (repeat' split) <;> simp_all [answer_keeps, comeBack_keeps]

theorem retried_keeps (s : State) (e : Nat) (k : Pkt) :
    (State.retried s e k).pending = s.pending ∧ (State.retried s e k).store.svn = s.store.svn := by
  simp [State.retried, bump_keeps]

theorem reqDone_keeps (s : State) (e : Nat) (k : Pkt) (own : Option Nat) (st : Nat) (data : List Byte) :
    (State.reqDone s e k own st data).pending = s.pending ∧
        (State.reqDone s e k own st data).store.svn = s.store.svn := by
  simp [State.reqDone, reqSignal_keeps, retried_keeps, tellReq_keeps, ite_keeps]

theorem combSignals_keeps (s : State) (e : Nat) (l : List Pkt) :
    (State.combSignals s e l).pending = s.pending ∧ (State.combSignals s e l).store.svn = s.store.svn := by
  unfold State.combSignals; dsimp only; refine foldl_keeps _ _ _ ?_; intro p x; (repeat' split) <;> grind [State.combSignals, incr_keeps]

theorem combAnswer_keeps (s : State) (e : Nat) (c : Comb) (st : Nat) (data : List Byte) :
    (State.combAnswer s e c st data).pending = s.pending ∧
        (State.combAnswer s e c st data).store.svn = s.store.svn := by
  simp [State.combAnswer, answer_keeps, combSignals_keeps, foldl_keeps, ite_keeps]

theorem combSend_keeps (s : State) (e : Nat) (c : Comb) (l : List Hdr) (uu : State) (h : State.combSend s e c l = some uu) :
    (uu).pending = s.pending ∧ (uu).store.svn = s.store.svn := by
  cases l with
  | nil => unfold State.combSend at h; injection h with e; rw [← e]; exact combAnswer_keeps _ _ _ _ _
  | cons x l =>
    unfold State.combSend at h
    obtain ⟨r, hr, e⟩ := Option.map_eq_some_iff.mp h
    have := askLine_keeps _ _ _ _ _ r.1 r.2 hr
    rw [← e]
    split
    · exact this
    · exact keeps_trans (combAnswer_keeps _ _ _ _ _) this

theorem closeComb_keeps (s : State) (e : Nat) (c : Comb) (uu : State) (h : State.closeComb s e c = some uu) :
    (uu).pending = s.pending ∧ (uu).store.svn = s.store.svn := by
  unfold State.closeComb at h
  dsimp only at h
  (repeat' split at h) <;> first | contradiction | (have := combSend_keeps _ _ _ _ _ h; simp_all [modOculus_keeps,
      bump_keeps])

theorem combDone_keeps (s : State) (e : Nat) (c : Comb) (rest : List Hdr) (st : Nat) (data : List Byte) :
    (State.combDone s e c rest st data).pending = s.pending ∧
        (State.combDone s e c rest st data).store.svn = s.store.svn := by
  unfold State.combDone
  split
  · rename_i t h
    split at h
    · exact combSend_keeps _ _ _ _ _ h
    · contradiction
  · dsimp only
    split
    · rename_i x _
      cases h : (s.combAnswer e c st data).closeComb e x with
      | none => exact combAnswer_keeps _ _ _ _ _
      | some u => exact keeps_trans (closeComb_keeps _ _ _ _ h) (combAnswer_keeps _ _ _ _ _)
    · exact combAnswer_keeps _ _ _ _ _

theorem mcEnd_keeps (s : State) (t : Txn) (st : Nat) (bitmap : List Byte) :
    (State.mcEnd s t st bitmap).pending = s.pending ∧ (State.mcEnd s t st bitmap).store.svn = s.store.svn := by
  unfold State.mcEnd; (repeat' split) <;> simp_all [fopDone_keeps, replyHdr_keeps]

theorem mcDone_keeps (s : State) (t : Txn) :
    (State.mcDone s t).pending = s.pending ∧ (State.mcDone s t).store.svn = s.store.svn := by
  unfold State.mcDone; (repeat' split) <;> simp_all [dropTxn_keeps, mcEnd_keeps, modOculus_keeps]

theorem mcAnswer_keeps (s : State) (seq i st : Nat) :
    (State.mcAnswer s seq i st).pending = s.pending ∧ (State.mcAnswer s seq i st).store.svn = s.store.svn := by
  grind [State.mcAnswer, mcDone_keeps, setTxn_keeps]

theorem addDup_keeps (s : State) (e : Nat) (k : Pkt) :
    (State.addDup s e k).pending = s.pending ∧ (State.addDup s e k).store.svn = s.store.svn := by
  simp [State.addDup]

theorem dropCopy_keeps (s : State) (e : Nat) (b : Pkt × Pkt × Nat) :
    (State.dropCopy s e b).pending = s.pending ∧ (State.dropCopy s e b).store.svn = s.store.svn := by
  simp [State.dropCopy, modOculus_keeps]

theorem dropDup_keeps (s : State) (k : Pkt) :
    (State.dropDup s k).pending = s.pending ∧ (State.dropDup s k).store.svn = s.store.svn := by
  simp [State.dropDup]

theorem acceptCopy_keeps (s : State) (e : Nat) (b : Pkt × Pkt × Nat) :
    ((State.acceptCopy s e b).1).pending = s.pending ∧ ((State.acceptCopy s e b).1).store.svn = s.store.svn := by
  grind [State.acceptCopy, modOculus_keeps, addDup_keeps, retried_keeps, askLine_keeps]

theorem mcCopy_keeps (s : State) (e : Nat) (k0 : Pkt) :
    ((State.mcCopy s e k0).1).pending = s.pending ∧ ((State.mcCopy s e k0).1).store.svn = s.store.svn := by
  grind [State.mcCopy, pass_keeps, acceptCopy_keeps, checkReq_keeps1, checkReq_keeps2, checkReq_keeps3, retried_keeps]

theorem copyDone_keeps (s : State) (e : Nat) (b : Pkt × Pkt × Nat) (st : Nat) :
    (State.copyDone s e b st).pending = s.pending ∧ (State.copyDone s e b st).store.svn = s.store.svn := by
  simp [State.copyDone, answer_keeps, dropCopy_keeps, dropDup_keeps, mcAnswer_keeps, reqSignal_keeps, ite_keeps]

theorem sendReq_keeps (s : State) (e : Nat) (k : Pkt) :
    ((State.sendReq s e k).1).pending = s.pending ∧ ((State.sendReq s e k).1).store.svn = s.store.svn := by
  unfold State.sendReq
  split
  · rename_i h; exact sealPkt_keeps2 _ _ _ _ _ h
  · split
    · rename_i h; exact tryForward_keeps _ _ _ _ h
    · simp [ocEvent_keeps]
  · rename_i h
    have q := sealPkt_keeps1 _ _ _ _ _ _ h
    split
    · rename_i h'; have := tryForward_keeps _ _ _ _ h'; exact ⟨this.1.trans q.1, this.2.trans q.2⟩
    · simp [ocEvent_keeps, q]

theorem sendCopy_keeps (s : State) (e : Nat) (k : Pkt) (i dev : Nat) :
    (State.sendCopy s e k i dev).pending = s.pending ∧ (State.sendCopy s e k i dev).store.svn = s.store.svn := by
  grind [State.sendCopy, mcAnswer_keeps, mcCopy_keeps, sendReq_keeps]

theorem waitTxn_keeps (s : State) (q : Nat) (w : Sender) : (s.waitTxn q w).pending = s.pending ∧
    (s.waitTxn q w).store.svn = s.store.svn := by
  cases w <;> simp [State.waitTxn, modCell_keeps]

theorem openTxn_keeps (s : State) (seq : Nat) (k : Pkt) (who : Sender) :
    (State.openTxn s seq k who).pending = s.pending ∧ (State.openTxn s seq k who).store.svn = s.store.svn := by
  simp [State.openTxn, addTxn_keeps, waitTxn_keeps]

theorem expandMc_keeps (s : State) (e : Nat) (t : Txn) :
    (State.expandMc s e t).pending = s.pending ∧ (State.expandMc s e t).store.svn = s.store.svn := by
  unfold State.expandMc; (repeat' split) <;> simp_all [mcEnd_keeps, dropTxn_keeps, sendCopy_keeps, setTxn_keeps, foldl_keeps,
      ite_keeps]

theorem issueHere_keeps1 (s : State) (e seq : Nat) (k : Pkt) (w : Sender) (t : State) (x : Nat) (d : List Byte)
    (h : s.issueHere e seq k w = .done t x d) : (t).pending = s.pending ∧ (t).store.svn = s.store.svn := by
  unfold State.issueHere at h; dsimp only at h
  (repeat' split at h) <;> grind [checkReq_keeps1, checkReq_keeps2, checkReq_keeps3, openTxn_keeps, letIn_keeps, dropTxn_keeps]

theorem issueHere_keeps2 (s : State) (e seq : Nat) (k : Pkt) (w : Sender) (t : State) (x : Nat)
    (h : s.issueHere e seq k w = .sent t x) : (t).pending = s.pending ∧ (t).store.svn = s.store.svn := by
  unfold State.issueHere at h; dsimp only at h
  (repeat' split at h) <;> grind [checkReq_keeps1, checkReq_keeps2, checkReq_keeps3, openTxn_keeps, letIn_keeps, dropTxn_keeps]

theorem issueAway_keeps1 (s : State) (e seq : Nat) (k : Pkt) (w : Sender) (t : State) (x : Nat) (d : List Byte)
    (h : s.issueAway e seq k w = .done t x d) : (t).pending = s.pending ∧ (t).store.svn = s.store.svn := by
  grind [State.issueAway, sendReq_keeps]

theorem issueAway_keeps2 (s : State) (e seq : Nat) (k : Pkt) (w : Sender) (t : State) (x : Nat)
    (h : s.issueAway e seq k w = .sent t x) : (t).pending = s.pending ∧ (t).store.svn = s.store.svn := by
  grind [State.issueAway, sendReq_keeps, openTxn_keeps]

theorem issueAt_keeps1 (s : State) (l : Nat) (k : Pkt) (w : Sender) (b : Bool) (t : State) (x : Nat) (d : List Byte)
    (h : s.issueAt l k w b = .done t x d) : (t).pending = s.pending ∧ (t).store.svn = s.store.svn := by
  unfold State.issueAt at h; dsimp only at h
  (repeat' split at h) <;> grind [issueHere_keeps1, issueAway_keeps1, openTxn_keeps]

theorem issueAt_keeps2 (s : State) (l : Nat) (k : Pkt) (w : Sender) (b : Bool) (t : State) (x : Nat)
    (h : s.issueAt l k w b = .sent t x) : (t).pending = s.pending ∧ (t).store.svn = s.store.svn := by
  unfold State.issueAt at h; dsimp only at h
  (repeat' split at h) <;> grind [issueHere_keeps2, issueAway_keeps2, openTxn_keeps]

theorem issue_keeps1 (s : State) (l : Nat) (k : Pkt) (w : Sender) (b : Bool) (t : State) (x : Nat) (d : List Byte)
    (h : s.issue l k w b = .done t x d) : (t).pending = s.pending ∧ (t).store.svn = s.store.svn := by
  unfold State.issue at h
  split at h <;> grind [issueAt_keeps1]

theorem issue_keeps2 (s : State) (l : Nat) (k : Pkt) (w : Sender) (b : Bool) (t : State) (x : Nat)
    (h : s.issue l k w b = .sent t x) : (t).pending = s.pending ∧ (t).store.svn = s.store.svn := by
  unfold State.issue at h
  split at h <;> grind [issueAt_keeps2]

theorem nextLine_keeps (s : State) (n dest : Nat) :
    ((State.nextLine s n dest).2).pending = s.pending ∧ ((State.nextLine s n dest).2).store.svn = s.store.svn := by
  simp [State.nextLine]

theorem remoteSignal_keeps (s : State) (n tag slot dev inc : Nat) :
    ((State.remoteSignal s n tag slot dev inc).1).pending = s.pending ∧
        ((State.remoteSignal s n tag slot dev inc).1).store.svn = s.store.svn := by
  unfold State.remoteSignal
  dsimp only
  split
  · exact ⟨rfl, rfl⟩
  · rename_i h
    have := keeps_trans (issue_keeps1 _ _ _ _ _ _ _ _ h) (nextLine_keeps _ _ _)
    split
    · exact this
    · exact keeps_trans (post_keeps _ _ _ _ _ _ _) this
  · rename_i h
    exact keeps_trans (issue_keeps2 _ _ _ _ _ _ _ h) (nextLine_keeps _ _ _)

theorem lostPkt_keeps (s : State) (e : Nat) (k : Pkt) (st : Nat) :
    (State.lostPkt s e k st).pending = s.pending ∧ (State.lostPkt s e k st).store.svn = s.store.svn := by
  unfold State.lostPkt; (repeat' split) <;> simp_all [finishTxn_keeps, mcAnswer_keeps, msgAnswer_keeps, ocEvent_keeps,
      sendOrDrop_keeps]

theorem reroute_keeps (s : State) (e : Nat) (k : Pkt) :
    (State.reroute s e k).pending = s.pending ∧ (State.reroute s e k).store.svn = s.store.svn := by
  grind [State.reroute, lostPkt_keeps, tryForward_keeps]

theorem flinkAsk_keeps (s : State) (p : Nat) :
    (State.flinkAsk s p).pending = s.pending ∧ (State.flinkAsk s p).store.svn = s.store.svn := by
  simp [State.flinkAsk, lostPkt_keeps, modPort_keeps, reroute_keeps, samplePort_keeps, sendOrDrop_keeps, stallCount_keeps,
      foldl_keeps, ite_keeps]

theorem failPort_keeps (s : State) (p cause : Nat) :
    (State.failPort s p cause).pending = s.pending ∧ (State.failPort s p cause).store.svn = s.store.svn := by
  unfold State.failPort; (repeat' split) <;> simp_all [flinkAsk_keeps, modPort_keeps, post_keeps, setPortState_keeps,
      showPorts_keeps]

theorem modFn_keeps (s : State) (i : Nat) (f : HostFn → HostFn) :
    (State.modFn s i f).pending = s.pending ∧ (State.modFn s i f).store.svn = s.store.svn := by
  simp [State.modFn]

theorem aerAbort_keeps (s : State) (m at_ : Nat) (len : Nat) :
    (State.aerAbort s m at_ len).pending = s.pending ∧ (State.aerAbort s m at_ len).store.svn = s.store.svn := by
  simp [State.aerAbort, postGlobal_keeps, modFn_keeps]

theorem modHostOp_keeps (s : State) (id : Nat) (f : HostOp → HostOp) :
    (State.modHostOp s id f).pending = s.pending ∧ (State.modHostOp s id f).store.svn = s.store.svn := by
  simp [State.modHostOp]

theorem hostOver_keeps (s : State) (o : HostOp) :
    (State.hostOver s o).pending = s.pending ∧ (State.hostOver s o).store.svn = s.store.svn := by
  simp [State.hostOver, aerAbort_keeps, ite_keeps]

theorem hostLine_keeps (s : State) (id i st : Nat) (data : List Byte) :
    (State.hostLine s id i st data).pending = s.pending ∧
        (State.hostLine s id i st data).store.svn = s.store.svn := by
  unfold State.hostLine; (repeat' split) <;> simp_all [hostOver_keeps, modHostOp_keeps, ite_keeps]

theorem hostGo_keeps (s : State) (id : Nat) (x : Nat × Nat × Hdr) :
    (State.hostGo s id x).pending = s.pending ∧ (State.hostGo s id x).store.svn = s.store.svn := by
  simp [State.hostGo, hostLine_keeps, openCall_keeps, ite_keeps]

theorem hostSend_keeps (s : State) (id : Nat) :
    (State.hostSend s id).pending = s.pending ∧ (State.hostSend s id).store.svn = s.store.svn := by
  unfold State.hostSend; (repeat' split) <;> simp_all [hostGo_keeps, modHostOp_keeps, foldl_keeps, ite_keeps]

theorem hostBegin_keeps (s : State) (o : HostOp) (l : List (Nat × Hdr)) :
    (State.hostBegin s o l).pending = s.pending ∧ (State.hostBegin s o l).store.svn = s.store.svn := by
  simp [State.hostBegin, hostSend_keeps, ite_keeps]

theorem hostArrived_keeps (s : State) (id i st : Nat) (data : List Byte) :
    (State.hostArrived s id i st data).pending = s.pending ∧
        (State.hostArrived s id i st data).store.svn = s.store.svn := by
  simp [State.hostArrived, hostLine_keeps, hostSend_keeps, foldl_keeps]

theorem setPfState_keeps (s : State) (p v : Nat) :
    (State.setPfState s p v).pending = s.pending ∧ (State.setPfState s p v).store.svn = s.store.svn := by
  unfold State.setPfState; (repeat' split) <;> simp_all [irq_keeps, setFld_keeps]

theorem modRun_keeps (s : State) (n : Nat) (f : Run → Run) :
    (State.modRun s n f).pending = s.pending ∧ (State.modRun s n f).store.svn = s.store.svn := by
  simp [State.modRun, modSpire_keeps]

theorem enterSlot_keeps (s : State) (n : Nat) (uu : State) (h : State.enterSlot s n = some uu) :
    (uu).pending = s.pending ∧ (uu).store.svn = s.store.svn := by
  grind [State.enterSlot, modPart_keeps, modRun_keeps, modSpire_keeps, post_keeps]

theorem awaitTry_keeps (s : State) (n slot : Nat) (second : Bool) (uu : State) (h : State.awaitTry s n slot second = some uu) :
    (uu).pending = s.pending ∧ (uu).store.svn = s.store.svn := by
  grind [State.awaitTry, setCount_keeps]

theorem slotAwait_keeps (s : State) (n : Nat) (e : SlotRun) (second : Bool) (uu : State) (h : State.slotAwait s n e second = some uu) :
    (uu).pending = s.pending ∧ (uu).store.svn = s.store.svn := by
  grind [State.slotAwait, awaitTry_keeps, modSpire_keeps]

theorem slotElig_keeps (s : State) (n : Nat) (e : SlotRun) (uu : State) (h : State.slotElig s n e = some uu) :
    (uu).pending = s.pending ∧ (uu).store.svn = s.store.svn := by
  grind [State.slotElig, modSpire_keeps]

theorem localSignal_keeps (s : State) (n : Nat) (e : SlotRun) (i tag slot inc : Nat) :
    ((State.localSignal s n e i tag slot inc).1).pending = s.pending ∧
        ((State.localSignal s n e i tag slot inc).1).store.svn = s.store.svn := by
  simp [State.localSignal, dropIncr_keeps, incr_keeps, modSpire_keeps, openCall_keeps, ite_keeps, ite_fst]

theorem slotSignal_keeps (s : State) (n : Nat) (e : SlotRun) (i : Nat) (uu : State) (h : State.slotSignal s n e i = some uu) :
    (uu).pending = s.pending ∧ (uu).store.svn = s.store.svn := by
  grind [State.slotSignal, localSignal_keeps, modSpire_keeps, remoteSignal_keeps]

theorem drainCheck_keeps (s : State) (p : Nat) :
    (State.drainCheck s p).pending = s.pending ∧ (State.drainCheck s p).store.svn = s.store.svn := by
  simp [State.drainCheck, modSpire_keeps, setPfState_keeps, foldl_keeps, ite_keeps]

theorem showRecord_keeps (s : State) (n : Nat) (r : FrameRec) :
    (State.showRecord s n r).pending = s.pending ∧ (State.showRecord s n r).store.svn = s.store.svn := by
  simp [State.showRecord, put_keeps]

theorem recordFinish_keeps (s : State) (n : Nat) (e : SlotRun) :
    (State.recordFinish s n e).pending = s.pending ∧ (State.recordFinish s n e).store.svn = s.store.svn := by
  simp [State.recordFinish, modSpire_keeps, showRecord_keeps, ite_keeps]

theorem slotLeave_keeps (s : State) (n : Nat) (e : SlotRun) :
    (State.slotLeave s n e).pending = s.pending ∧ (State.slotLeave s n e).store.svn = s.store.svn := by
  simp [State.slotLeave, modSpire_keeps, drainCheck_keeps, recordFinish_keeps]

theorem slotFinish_keeps (s : State) (n : Nat) (e : SlotRun) (uu : State) (h : State.slotFinish s n e = some uu) :
    (uu).pending = s.pending ∧ (uu).store.svn = s.store.svn := by
  grind [State.slotFinish, slotLeave_keeps, slotSignal_keeps]

theorem slotProgress_keeps (s : State) (n : Nat) (e : SlotRun) (uu : State) (h : State.slotProgress s n e = some uu) :
    (uu).pending = s.pending ∧ (uu).store.svn = s.store.svn := by
  grind [State.slotProgress, slotAwait_keeps, slotElig_keeps, slotFinish_keeps]

theorem seqProgress_keeps (s : State) (n : Nat) (t : State) (h : s.seqProgress n = some t) : (t).pending = s.pending ∧ (t).store.svn = s.store.svn := by
  unfold State.seqProgress at h
  split at h
  · simp at h
  · split at h
    · rename_i h'; simp at h; subst h; exact enterSlot_keeps _ _ _ h'
    · obtain ⟨e, _, he⟩ := List.exists_of_findSome?_eq_some h
      exact slotProgress_keeps _ _ _ _ he

theorem settleN_keeps (f : Nat) (s : State) : (State.settleN f s).pending = s.pending ∧
    (State.settleN f s).store.svn = s.store.svn := by
  induction f generalizing s with
  | zero => simp [State.settleN]
  | succ f ih =>
    unfold State.settleN
    split
    · simp
    · rename_i t h
      obtain ⟨n, _, hn⟩ := List.exists_of_findSome?_eq_some h
      have := seqProgress_keeps _ _ _ hn
      exact ⟨(ih t).1.trans this.1, (ih t).2.trans this.2⟩

theorem seqSettle_keeps (s : State) :
    (State.seqSettle s).pending = s.pending ∧ (State.seqSettle s).store.svn = s.store.svn := by
  simp [State.seqSettle, settleN_keeps]

theorem putLate_keeps (s : State) (n : Nat) (l : Option Nat) :
    (State.putLate s n l).pending = s.pending ∧ (State.putLate s n l).store.svn = s.store.svn := by
  simp [State.putLate, put_keeps]

theorem showLate_keeps (s : State) (n : Nat) :
    (State.showLate s n).pending = s.pending ∧ (State.showLate s n).store.svn = s.store.svn := by
  unfold State.showLate; (repeat' split) <;> simp_all [putLate_keeps]

theorem raiseLate_keeps (s : State) (n slot : Nat) :
    (State.raiseLate s n slot).pending = s.pending ∧ (State.raiseLate s n slot).store.svn = s.store.svn := by
  simp [State.raiseLate, irq_keeps, addWrap_keeps, bump_keeps, modPart_keeps, modRun_keeps, modSpire_keeps, showLate_keeps,
      seqSettle_keeps, ite_keeps]

theorem raiseOverdue_keeps (s : State) : (s.raiseOverdue).pending = s.pending ∧
    (s.raiseOverdue).store.svn = s.store.svn := by
  unfold State.raiseOverdue
  refine foldl_keeps _ _ _ ?_
  intro s n
  split
  · refine foldl_keeps _ _ _ ?_
    intro s i
    (repeat' split) <;> simp [raiseLate_keeps]
  · simp

theorem pfCtlOp_keeps (s : State) (f : Func) (p : Nat) (v : Word) (uu : State) (h : State.pfCtlOp s f p v = .ok uu) :
    (uu).pending = s.pending ∧ (uu).store.svn = s.store.svn := by
  grind [State.pfCtlOp, pendField_keeps, writeFields_keeps]

theorem pfCmd_keeps (s : State) (f : Func) (p : Fin 8) (v : Word) (cmd : Nat) :
    (State.pfCmd s f p v cmd).pending = s.pending ∧ (State.pfCmd s f p v cmd).store.svn = s.store.svn := by
  unfold State.pfCmd; dsimp only; exact write_keeps _ _ _ _ _ (fun t h => by grind [pfCtlOp_keeps, write_keeps, put_keeps])

theorem putWords_keeps (s : State) (loc : Nat → Loc) (idx : Nat) (w : List Nat) :
    (State.putWords s loc idx w).pending = s.pending ∧ (State.putWords s loc idx w).store.svn = s.store.svn := by
  simp [State.putWords, put_keeps, foldl_keeps]

theorem autoInc_keeps (s : State) (sel : Loc) (hi m : Nat) :
    (State.autoInc s sel hi m).pending = s.pending ∧ (State.autoInc s sel hi m).store.svn = s.store.svn := by
  unfold State.autoInc; (repeat' split) <;> simp_all [setFld_keeps]

theorem bulkStore_keeps (s : State) (loc : Loc) (v : Word) (busy : Bool) :
    (State.bulkStore s loc v busy).pending = s.pending ∧ (State.bulkStore s loc v busy).store.svn = s.store.svn := by
  simp [State.bulkStore, put_keeps]

theorem setLoad_keeps (s : State) (w : LoadAt) (b : Option BulkLoad) :
    (State.setLoad s w b).pending = s.pending ∧ (State.setLoad s w b).store.svn = s.store.svn := by
  unfold State.setLoad; (repeat' split) <;> simp_all [modOculus_keeps, modSpire_keeps]

theorem loadArrived_keeps (s : State) (w : LoadAt) (st : Nat) (data : List Byte) :
    (State.loadArrived s w st data).pending = s.pending ∧
        (State.loadArrived s w st data).store.svn = s.store.svn := by
  unfold State.loadArrived; (repeat' split) <;> simp_all [setLoad_keeps]

theorem askLoad_keeps (s : State) (w : LoadAt) :
    (State.askLoad s w).pending = s.pending ∧ (State.askLoad s w).store.svn = s.store.svn := by
  grind [State.askLoad, setLoad_keeps, loadArrived_keeps, openCall_keeps]

theorem startLoad_keeps (s : State) (w : LoadAt) (b : BulkLoad) :
    (State.startLoad s w b).pending = s.pending ∧ (State.startLoad s w b).store.svn = s.store.svn := by
  simp [State.startLoad, askLoad_keeps, setLoad_keeps]

theorem loadNext_keeps (s : State) (w : LoadAt) (loc : Loc) (b : Option BulkLoad) :
    (State.loadNext s w loc b).pending = s.pending ∧ (State.loadNext s w loc b).store.svn = s.store.svn := by
  unfold State.loadNext; (repeat' split) <;> simp_all [setLoad_keeps, startLoad_keeps, setFlag_keeps]

theorem slotCommit_keeps (s : State) (n slot : Nat) (w : List Nat) (uu : State) (h : State.slotCommit s n slot w = .ok uu) :
    (uu).pending = s.pending ∧ (uu).store.svn = s.store.svn := by
  grind [State.slotCommit, putWords_keeps]

theorem ephDataOp_keeps (s : State) (n k : Nat) (v : Word) (uu : State) (h : State.ephDataOp s n k v = .ok uu) :
    (uu).pending = s.pending ∧ (uu).store.svn = s.store.svn := by
  grind [State.ephDataOp, put_keeps, slotCommit_keeps, autoInc_keeps]

theorem ephSelOp_keeps (s : State) (n : Nat) (v : Word) (uu : State) (h : State.ephSelOp s n v = .ok uu) :
    (uu).pending = s.pending ∧ (uu).store.svn = s.store.svn := by
  grind [State.ephSelOp, put_keeps]

theorem ephLoadOp_keeps (s : State) (f : Func) (n : Nat) (v : Word) (uu : State) (h : State.ephLoadOp s f n v = .ok uu) :
    (uu).pending = s.pending ∧ (uu).store.svn = s.store.svn := by
  grind [State.ephLoadOp, bulkStore_keeps, startLoad_keeps]

theorem crossStall_keeps (s : State) (r k : Nat) :
    (State.crossStall s r k).pending = s.pending ∧ (State.crossStall s r k).store.svn = s.store.svn := by
  simp [State.crossStall, bump_keeps, ite_keeps]

theorem crossRoom_keeps (s : State) (n : Nat) (south : Bool) (uu : State) (h : State.crossRoom s n south = some uu) :
    (uu).pending = s.pending ∧ (uu).store.svn = s.store.svn := by
  unfold State.crossRoom at h
  split at h
  · split at h
    · injection h with e; rw [← e]; exact ⟨rfl, rfl⟩
    · dsimp only at h
      obtain ⟨v, hv, e⟩ := Option.map_eq_some_iff.mp h
      rw [← e]
      exact keeps_trans (crossStall_keeps _ _ _) (waitUntil_keeps _ _ _ hv)
  · injection h with e; rw [← e]; exact ⟨rfl, rfl⟩

theorem crossWrite_keeps (s : State) (n : Nat) (south : Bool) :
    ((State.crossWrite s n south).1).pending = s.pending ∧
        ((State.crossWrite s n south).1).store.svn = s.store.svn := by
  simp [State.crossWrite, modSpire_keeps, draw_keeps, ite_keeps, ite_fst, ite_snd]

theorem dispatchOne_keeps (s : State) (n : Nat) (e : SlotRun) (q : QTask) :
    (State.dispatchOne s n e q).pending = s.pending ∧ (State.dispatchOne s n e q).store.svn = s.store.svn := by
  simp [State.dispatchOne, modSpire_keeps, crossWrite_keeps, ite_keeps, ite_fst, ite_snd]

theorem overBudget_keeps (s : State) (n : Nat) (e : SlotRun) :
    (State.overBudget s n e).pending = s.pending ∧ (State.overBudget s n e).store.svn = s.store.svn := by
  simp [State.overBudget, bump_keeps, modSpire_keeps]

theorem taskError_keeps (s : State) (n unit : Nat) (a : ATask) :
    (State.taskError s n unit a).pending = s.pending ∧ (State.taskError s n unit a).store.svn = s.store.svn := by
  unfold State.taskError; (repeat' split) <;> simp_all [put_keeps, post_keeps]

theorem retire_keeps (s : State) (n unit : Nat) (a : ATask) :
    (State.retire s n unit a).pending = s.pending ∧ (State.retire s n unit a).store.svn = s.store.svn := by
  grind [State.retire, addWrap_keeps, bump_keeps, modSpire_keeps, taskError_keeps]

theorem retireLost_keeps (s : State) (n unit : Nat) (q : QTask) :
    (State.retireLost s n unit q).pending = s.pending ∧ (State.retireLost s n unit q).store.svn = s.store.svn := by
  simp [State.retireLost, retire_keeps]

theorem cellTasksOut_keeps (s : State) (n c : Nat) :
    (State.cellTasksOut s n c).pending = s.pending ∧ (State.cellTasksOut s n c).store.svn = s.store.svn := by
  unfold State.cellTasksOut; dsimp only; refine foldl_keeps _ _ _ ?_; intro p x; (repeat' split) <;> grind [State.cellTasksOut, forgetCalls_keeps, modCell_keeps, retireLost_keeps]

theorem failCell_keeps (s : State) (n c : Nat) :
    (State.failCell s n c).pending = s.pending ∧ (State.failCell s n c).store.svn = s.store.svn := by
  grind [State.failCell, cellTasksOut_keeps, modCell_keeps, post_keeps]

theorem spireTasksOut_keeps (s : State) (n : Nat) :
    (State.spireTasksOut s n).pending = s.pending ∧ (State.spireTasksOut s n).store.svn = s.store.svn := by
  simp [State.spireTasksOut, modSpire_keeps, cellTasksOut_keeps, forgetCalls_keeps, retireLost_keeps, foldl_keeps]

theorem arithEv_keeps (s : State) (n c : Nat) (e : AEv) :
    (State.arithEv s n c e).pending = s.pending ∧ (State.arithEv s n c e).store.svn = s.store.svn := by
  simp [State.arithEv, bump_keeps, setFlag_keeps, ite_keeps]

theorem partHere_keeps (s : State) (n id seq part : Nat) (k : Pkt) :
    (State.partHere s n id seq part k).pending = s.pending ∧
        (State.partHere s n id seq part k).store.svn = s.store.svn := by
  unfold State.partHere
  split
  · rename_i h; exact keeps_trans (partAnswer_keeps _ _ _ _ _ _) (checkReq_keeps1 _ _ _ _ _ h)
  · rename_i h; exact keeps_trans (partAnswer_keeps _ _ _ _ _ _) (checkReq_keeps3 _ _ _ _ _ _ h)
  · rename_i h
    have := checkReq_keeps2 _ _ _ _ _ h
    split
    · exact keeps_trans (partAnswer_keeps _ _ _ _ _ _) this
    · rename_i g; exact keeps_trans (letIn_keeps _ _ _ _ _ _ _ g) this
    · rename_i g; exact keeps_trans (partAnswer_keeps _ _ _ _ _ _) (keeps_trans (letIn_keeps _ _ _ _ _ _ _ g) this)

theorem sendPart_keeps (s : State) (n id seq dev spire : Nat) (tally : Bool) (count : Nat) (p : MsgPart) :
    (State.sendPart s n id seq dev spire tally count p).pending = s.pending ∧
        (State.sendPart s n id seq dev spire tally count p).store.svn = s.store.svn := by
  grind [State.sendPart, partAnswer_keeps, partHere_keeps, sendReq_keeps]

theorem sendInside_keeps (s : State) (n id dst part : Nat) :
    (State.sendInside s n id dst part).pending = s.pending ∧
        (State.sendInside s n id dst part).store.svn = s.store.svn := by
  grind [State.sendInside, msgAnswer_keeps, openCall_keeps]

theorem sendMsg_keeps (s : State) (n : Nat) (m : OutMsg) (own : State → Nat → State)
    (ho : ∀ s i, (own s i).pending = s.pending ∧ (own s i).store.svn = s.store.svn) (t : State)
    (h : s.sendMsg n m own = some t) : (t).pending = s.pending ∧ (t).store.svn = s.store.svn := by
  unfold State.sendMsg at h
  dsimp only at h
  (repeat' split at h) <;> first | contradiction | (simp at h; subst h; simp [foldl_keeps, ho, modSpire_keeps,
      sendInside_keeps,
    nextLine_keeps, msgAnswer_keeps, sendPart_keeps, openTxn_keeps])

theorem zoneRow_keeps (s : State) (n : Nat) (z : Zone) (i : Nat) :
    ((State.zoneRow s n z i).1).pending = s.pending ∧ ((State.zoneRow s n z i).1).store.svn = s.store.svn := by
  unfold State.zoneRow; dsimp only; refine foldl_keeps1 _ _ _ ?_; intro p x; (repeat' split) <;> grind [State.zoneRow, wellRead_keeps]

theorem duDrop_keeps (s : State) (n retZone : Nat) :
    (State.duDrop s n retZone).pending = s.pending ∧ (State.duDrop s n retZone).store.svn = s.store.svn := by
  grind [State.duDrop, bump_keeps, addWrap_keeps, incr_keeps]

theorem duSend_keeps (s : State) (n : Nat) (t : DuTask) (it : DuItem) (uu : State) (h : State.duSend s n t it = some uu) :
    (uu).pending = s.pending ∧ (uu).store.svn = s.store.svn := by
  grind [State.duSend, modSpire_keeps, rowRefusedLog_keeps, sendMsg_keeps, zoneRow_keeps]

theorem duPumpN_keeps (s : State) (n f : Nat) : (s.duPumpN n f).pending = s.pending ∧
    (s.duPumpN n f).store.svn = s.store.svn := by
  induction f generalizing s with
  | zero => simp [State.duPumpN]
  | succ f ih =>
    unfold State.duPumpN
    split
    · simp
    · split
      · simp
      · split
        · simp
        · split
          · simp
          · rename_i h
            have q := duSend_keeps _ _ _ _ _ h
            exact ⟨(ih _).1.trans q.1, (ih _).2.trans q.2⟩

theorem duPump_keeps (s : State) (n : Nat) :
    (State.duPump s n).pending = s.pending ∧ (State.duPump s n).store.svn = s.store.svn := by
  unfold State.duPump; (repeat' split) <;> simp_all [duPumpN_keeps]

theorem settleAll_keeps (s : State) :
    (State.settleAll s).pending = s.pending ∧ (State.settleAll s).store.svn = s.store.svn := by
  simp [State.settleAll, duPump_keeps, seqSettle_keeps, foldl_keeps]

theorem lockGained_keeps (s : State) (p : Nat) :
    (State.lockGained s p).pending = s.pending ∧ (State.lockGained s p).store.svn = s.store.svn := by
  simp [State.lockGained, modPort_keeps, pump_keeps, setPortState_keeps, ite_keeps]

theorem lockLost_keeps (s : State) (p : Nat) :
    (State.lockLost s p).pending = s.pending ∧ (State.lockLost s p).store.svn = s.store.svn := by
  simp [State.lockLost, modPort_keeps, portDown_keeps, stallMark_keeps, ite_keeps]

theorem linkUp_keeps (s : State) (p rtt : Nat) (t : TrainFlit) :
    (State.linkUp s p rtt t).pending = s.pending ∧ (State.linkUp s p rtt t).store.svn = s.store.svn := by
  grind [State.linkUp, pump_keeps, put_keeps, modPort_keeps, post_keeps, samplePort_keeps, setPortState_keeps, showPorts_keeps]

theorem trainFails_keeps (s : State) (p : Nat) :
    (State.trainFails s p).pending = s.pending ∧ (State.trainFails s p).store.svn = s.store.svn := by
  simp [State.trainFails, modPort_keeps, portDown_keeps]

theorem trainFlit_keeps (s : State) (p : Nat) (t : TrainFlit) :
    (State.trainFlit s p t).pending = s.pending ∧ (State.trainFlit s p t).store.svn = s.store.svn := by
  grind [State.trainFlit, linkUp_keeps, modPort_keeps, setPortState_keeps, trainFails_keeps, waitUntil_keeps]

theorem ackTo_keeps (s : State) (p ack : Nat) :
    (State.ackTo s p ack).pending = s.pending ∧ (State.ackTo s p ack).store.svn = s.store.svn := by
  grind [State.ackTo, modPort_keeps]

theorem resendAll_keeps (s : State) (p : Nat) :
    (State.resendAll s p).pending = s.pending ∧ (State.resendAll s p).store.svn = s.store.svn := by
  grind [State.resendAll, failPort_keeps, modPort_keeps]

theorem linkWord_keeps (s : State) (p : Nat) (b : FBundle) :
    (State.linkWord s p b).pending = s.pending ∧ (State.linkWord s p b).store.svn = s.store.svn := by
  unfold State.linkWord; (repeat' split) <;> simp_all [ackTo_keeps, modPort_keeps, pump_keeps, resendAll_keeps]

theorem passOn_keeps (s : State) (e cls : Nat) (k : Pkt) :
    (State.passOn s e cls k).pending = s.pending ∧ (State.passOn s e cls k).store.svn = s.store.svn := by
  grind [State.passOn, ocEvent_keeps, sendOrDrop_keeps, tryForward_keeps]

theorem arrive_keeps (s : State) (p : Nat) (sh : Bool) (k : Pkt) :
    (State.arrive s p sh k).pending = s.pending ∧ (State.arrive s p sh k).store.svn = s.store.svn := by
  unfold State.arrive; (repeat' split) <;> simp_all [freeFlits_keeps, modPort_keeps, ocEvent_keeps, passOn_keeps]

theorem badFabric_keeps (s : State) (p : Nat) :
    (State.badFabric s p).pending = s.pending ∧ (State.badFabric s p).store.svn = s.store.svn := by
  simp [State.badFabric, modPort_keeps]

theorem discardBundle_keeps (s : State) (p : Nat) (b : FBundle) :
    (State.discardBundle s p b).pending = s.pending ∧ (State.discardBundle s p b).store.svn = s.store.svn := by
  simp [State.discardBundle, freeFlits_keeps, ite_keeps]

theorem takeFabric_keeps (s : State) (p : Nat) (b : FBundle) :
    (State.takeFabric s p b).pending = s.pending ∧ (State.takeFabric s p b).store.svn = s.store.svn := by
  simp [State.takeFabric, badFabric_keeps, discardBundle_keeps, ocEvent_keeps, addWrap_keeps, arrive_keeps, freeFlits_keeps,
      linkWord_keeps, modPort_keeps, foldl_keeps, ite_keeps]

theorem unitIn_keeps (s : State) (p : Nat) (u : FUnit) :
    (State.unitIn s p u).pending = s.pending ∧ (State.unitIn s p u).store.svn = s.store.svn := by
  simp [State.unitIn, discardBundle_keeps, ocEvent_keeps, badFabric_keeps, modPort_keeps, put64_keeps, trainFlit_keeps,
      takeFabric_keeps, ite_keeps]

theorem wordCount_keeps (s : State) (p : Nat) (n : Option Nat) :
    (State.wordCount s p n).pending = s.pending ∧ (State.wordCount s p n).store.svn = s.store.svn := by
  unfold State.wordCount; (repeat' split) <;> simp_all [ocEvent_keeps, addWrap_keeps]

theorem wordIn_keeps (s : State) (p : Nat) (w : BitVec 5440) :
    (State.wordIn s p w).pending = s.pending ∧ (State.wordIn s p w).store.svn = s.store.svn := by
  simp [State.wordIn, lockGained_keeps, lockLost_keeps, modPort_keeps, unitIn_keeps, wordCount_keeps, foldl_keeps, ite_keeps]

theorem wordsIn_keeps (s : State) (p : Nat) (words : List (BitVec 5440)) :
    (State.wordsIn s p words).pending = s.pending ∧ (State.wordsIn s p words).store.svn = s.store.svn := by
  simp [State.wordsIn, wordIn_keeps, foldl_keeps]

theorem errorRate_keeps (s : State) (p symbols : Nat) :
    (State.errorRate s p symbols).pending = s.pending ∧ (State.errorRate s p symbols).store.svn = s.store.svn := by
  simp [State.errorRate, failPort_keeps, modPort_keeps, portDown_keeps, post_keeps, showPorts_keeps, ite_keeps]

theorem takeHeld_keeps (s : State) (k : Pkt) :
    (State.takeHeld s k).pending = s.pending ∧ (State.takeHeld s k).store.svn = s.store.svn := by
  unfold State.takeHeld; (repeat' split) <;> simp_all [freeFlits_keeps, modPort_keeps]

theorem retrainPort_keeps (s : State) (p : Nat) :
    (State.retrainPort s p).pending = s.pending ∧ (State.retrainPort s p).store.svn = s.store.svn := by
  simp [State.retrainPort, portDown_keeps, showPorts_keeps]

theorem portCtlOp_keeps (s : State) (e : Nat) (v : Word) (uu : State) (h : State.portCtlOp s e v = .ok uu) :
    (uu).pending = s.pending ∧ (uu).store.svn = s.store.svn := by
  grind [State.portCtlOp, flinkAsk_keeps, portDown_keeps, put_keeps, retrainPort_keeps, showPorts_keeps]

theorem routeDataOp_keeps (s : State) (e : Nat) (v : Word) (uu : State) (h : State.routeDataOp s e v = .ok uu) :
    (uu).pending = s.pending ∧ (uu).store.svn = s.store.svn := by
  grind [State.routeDataOp, autoInc_keeps, pendWord_keeps]

theorem routeLoadOp_keeps (s : State) (f : Func) (e : Nat) (v : Word) (uu : State) (h : State.routeLoadOp s f e v = .ok uu) :
    (uu).pending = s.pending ∧ (uu).store.svn = s.store.svn := by
  grind [State.routeLoadOp, bulkStore_keeps, startLoad_keeps]

theorem routeGot_keeps (s : State) (e : Nat) (b : BulkLoad) (r : Option (List Nat)) :
    ((State.routeGot s e b r).1).pending = s.pending ∧ ((State.routeGot s e b r).1).store.svn = s.store.svn := by
  simp [State.routeGot]; grind [settle_keeps]

theorem mcgHdrOp_keeps (s : State) (e : Nat) (v : Word) (uu : State) (h : State.mcgHdrOp s e v = .ok uu) :
    (uu).pending = s.pending ∧ (uu).store.svn = s.store.svn := by
  grind [State.mcgHdrOp, pendWord_keeps]

theorem mcgTgtOp_keeps (s : State) (e : Nat) (v : Word) (uu : State) (h : State.mcgTgtOp s e v = .ok uu) :
    (uu).pending = s.pending ∧ (uu).store.svn = s.store.svn := by
  grind [State.mcgTgtOp, pendWord_keeps]

theorem mcgLoadOp_keeps (s : State) (f : Func) (e : Nat) (v : Word) (uu : State) (h : State.mcgLoadOp s f e v = .ok uu) :
    (uu).pending = s.pending ∧ (uu).store.svn = s.store.svn := by
  grind [State.mcgLoadOp, bulkStore_keeps, startLoad_keeps]

theorem pendGroup_keeps (s : State) (e g : Nat) (w : List Nat) :
    (State.pendGroup s e g w).pending = s.pending ∧ (State.pendGroup s e g w).store.svn = s.store.svn := by
  unfold State.pendGroup; dsimp only; refine foldl_keeps _ _ _ ?_; intro p x; (repeat' split) <;> grind [State.pendGroup, pendWord_keeps]

theorem mcgGot_keeps (s : State) (e : Nat) (b : BulkLoad) (r : Option (List Nat)) :
    ((State.mcgGot s e b r).1).pending = s.pending ∧ ((State.mcgGot s e b r).1).store.svn = s.store.svn := by
  simp [State.mcgGot]; grind [settle_keeps]

theorem breakRing_keeps (s : State) (p : Nat) :
    (State.breakRing s p).pending = s.pending ∧ (State.breakRing s p).store.svn = s.store.svn := by
  simp [State.breakRing, lockLost_keeps, portDown_keeps, setFld_keeps, ite_keeps]

theorem moveBypass_keeps (s : State) (through : Bool) :
    (State.moveBypass s through).pending = s.pending ∧ (State.moveBypass s through).store.svn = s.store.svn := by
  unfold State.moveBypass; (repeat' split) <;> simp_all [breakRing_keeps, modOculus_keeps, ocEvent_keeps, setFlag_keeps]

theorem ringCtlOp_keeps (s : State) (e : Nat) (v : Word) (uu : State) (h : State.ringCtlOp s e v = .ok uu) :
    (uu).pending = s.pending ∧ (uu).store.svn = s.store.svn := by
  grind [State.ringCtlOp, moveBypass_keeps, put_keeps]

theorem epochReset_keeps (s : State) (p : Nat) :
    (State.epochReset s p).pending = s.pending ∧ (State.epochReset s p).store.svn = s.store.svn := by
  simp [State.epochReset, modPort_keeps]

theorem epochEnd_keeps (s : State) (e ns : Nat) :
    (State.epochEnd s e ns).pending = s.pending ∧ (State.epochEnd s e ns).store.svn = s.store.svn := by
  simp [State.epochEnd, modOculus_keeps, epochReset_keeps, samplePort_keeps, stallCount_keeps, foldl_keeps]

theorem sealMap_keeps (s : State) (e : Nat) (k : Pkt) :
    (s.sealMap e k).1.pending = s.pending ∧ (s.sealMap e k).1.store.svn = s.store.svn := by
  unfold State.sealMap
  split
  · rename_i h; exact sealPkt_keeps1 _ _ _ _ _ _ h
  · exact ⟨rfl, rfl⟩
  · rename_i h; exact sealPkt_keeps2 _ _ _ _ _ h

theorem forwardMap_keeps (s : State) (e : Nat) (k : Option Pkt) :
    (s.forwardMap e k).pending = s.pending ∧ (s.forwardMap e k).store.svn = s.store.svn := by
  unfold State.forwardMap
  split
  · rename_i h
    cases k with
    | none => contradiction
    | some k => exact tryForward_keeps _ _ _ _ h
  · exact ocEvent_keeps _ _ _ _ _

theorem sendMap_keeps (s : State) (e : Nat) :
    (s.sendMap e).pending = s.pending ∧ (s.sendMap e).store.svn = s.store.svn := by
  unfold State.sendMap
  split
  · exact ⟨rfl, rfl⟩
  · have hb : ∀ f : Oculus → Oculus, _ := fun f => modOculus_keeps s e f
    dsimp only
    split
    · exact hb _
    · split
      · exact keeps_trans (modPort_keeps _ _ _) (hb _)
      · exact keeps_trans (forwardMap_keeps _ _ _) (keeps_trans (sealMap_keeps _ _ _) (hb _))


theorem openMgmt_keeps (s : State) (k : Pkt) (uu : State) (xx : Pkt) (h : State.openMgmt s k = some (uu, xx)) :
    (uu).pending = s.pending ∧ (uu).store.svn = s.store.svn := by
  grind [State.openMgmt, openPkt_keeps]

theorem mgmtDrop_keeps (s : State) (k : Pkt) :
    (State.mgmtDrop s k).pending = s.pending ∧ (State.mgmtDrop s k).store.svn = s.store.svn := by
  unfold State.mgmtDrop; (repeat' split) <;> simp_all [bump_keeps]

theorem stageLow_keeps (s : State) (lo : Loc) (v : Word) :
    (State.stageLow s lo v).pending = s.pending ∧ (State.stageLow s lo v).store.svn = s.store.svn := by
  simp [State.stageLow]

theorem dropLow_keeps (s : State) (lo : Loc) :
    (State.dropLow s lo).pending = s.pending ∧ (State.dropLow s lo).store.svn = s.store.svn := by
  simp [State.dropLow]

theorem refCtlOp_keeps (s : State) (v : Word) (uu : State) (h : State.refCtlOp s v = .ok uu) :
    (uu).pending = s.pending ∧ (uu).store.svn = s.store.svn := by
  grind [State.refCtlOp, put_keeps, setFlag_keeps]

theorem refTick_keeps (s : State) :
    (State.refTick s).pending = s.pending ∧ (State.refTick s).store.svn = s.store.svn := by
  grind [State.refTick, setFlag_keeps]

theorem rollWindow_keeps (s : State) (r : Nat) :
    (State.rollWindow s r).pending = s.pending ∧ (State.rollWindow s r).store.svn = s.store.svn := by
  grind [State.rollWindow, modRegion_keeps]

theorem vaneDepth_keeps (s : State) (r depth : Nat) :
    (State.vaneDepth s r depth).pending = s.pending ∧ (State.vaneDepth s r depth).store.svn = s.store.svn := by
  simp [State.vaneDepth, modRegion_keeps]

theorem stretchOne_keeps (s : State) (r depth : Nat) :
    (State.stretchOne s r depth).pending = s.pending ∧ (State.stretchOne s r depth).store.svn = s.store.svn := by
  simp [State.stretchOne, bump_keeps, holdCycles_keeps, rollWindow_keeps, addWrap_keeps, modRegion_keeps]

theorem stepDown_keeps (s : State) (r : Nat) :
    (State.stepDown s r).pending = s.pending ∧ (State.stepDown s r).store.svn = s.store.svn := by
  grind [State.stepDown, addWrap_keeps, bump_keeps, modRegion_keeps, setRegN_keeps]

theorem floorEvent_keeps (s : State) (r : Nat) :
    (State.floorEvent s r).pending = s.pending ∧ (State.floorEvent s r).store.svn = s.store.svn := by
  grind [State.floorEvent, bump_keeps, modRegion_keeps, postGlobal_keeps, setFlag_keeps]

theorem windowStep_keeps (s : State) (r : Nat) :
    (State.windowStep s r).pending = s.pending ∧ (State.windowStep s r).store.svn = s.store.svn := by
  simp [State.windowStep, modRegion_keeps, floorEvent_keeps, rollWindow_keeps, stepDown_keeps, ite_keeps]

theorem deepStep_keeps (s : State) (r : Nat) :
    (State.deepStep s r).pending = s.pending ∧ (State.deepStep s r).store.svn = s.store.svn := by
  simp [State.deepStep, modRegion_keeps, rollWindow_keeps, stepDown_keeps]

theorem deepDecide_keeps (s : State) (r : Nat) :
    (State.deepDecide s r).pending = s.pending ∧ (State.deepDecide s r).store.svn = s.store.svn := by
  simp [State.deepDecide, modRegion_keeps, vaneDepth_keeps]

theorem takeDeep_keeps (s : State) (r : Nat) :
    (State.takeDeep s r).pending = s.pending ∧ (State.takeDeep s r).store.svn = s.store.svn := by
  grind [State.takeDeep, waitCycles_keeps, deepStep_keeps]

theorem takeDeeps_keeps (s : State) :
    (State.takeDeeps s).pending = s.pending ∧ (State.takeDeeps s).store.svn = s.store.svn := by
  simp [State.takeDeeps, takeDeep_keeps, foldl_keeps]

theorem clkCtlOp_keeps (s : State) (v : Word) (uu : State) (h : State.clkCtlOp s v = .ok uu) :
    (uu).pending = s.pending ∧ (uu).store.svn = s.store.svn := by
  unfold State.clkCtlOp at h; dsimp only at h; (repeat' split at h) <;> first | contradiction | (simp at h; subst h; simp [setRegN_keeps, writeFields_keeps, foldl_keeps]) | grind [setRegN_keeps, writeFields_keeps, foldl_keeps, foldl_keeps1, ite_keeps, ite_fst, ite_snd]

theorem regionCutoff_keeps (s : State) :
    (State.regionCutoff s).pending = s.pending ∧ (State.regionCutoff s).store.svn = s.store.svn := by
  simp [State.regionCutoff]

theorem regionTick_keeps (s : State) (change want : Bool) (notClear : List (Fin 40)) (r : Nat) :
    (State.regionTick s change want notClear r).pending = s.pending ∧
        (State.regionTick s change want notClear r).store.svn = s.store.svn := by
  simp [State.regionTick, addWrap_keeps, bump_keeps, modRegion_keeps, rollWindow_keeps, setFld_keeps, setRegN_keeps, ite_keeps]

theorem crossTick_keeps (s : State) (stalls : List (Fin 40 × Nat)) :
    (State.crossTick s stalls).pending = s.pending ∧ (State.crossTick s stalls).store.svn = s.store.svn := by
  simp [State.crossTick, crossStall_keeps, foldl_keeps]

theorem clockTick_keeps (s : State) (notClear : List (Fin 40)) :
    (State.clockTick s notClear).pending = s.pending ∧ (State.clockTick s notClear).store.svn = s.store.svn := by
  unfold State.clockTick; dsimp only; (repeat' split) <;> simp [regionTick_keeps, setFlag_keeps, foldl_keeps]

theorem setTimeState_keeps (s : State) (v : Nat) :
    (State.setTimeState s v).pending = s.pending ∧ (State.setTimeState s v).store.svn = s.store.svn := by
  simp [State.setTimeState, setFld_keeps]

theorem modTime_keeps (s : State) (f : TimeEng → TimeEng) :
    (State.modTime s f).pending = s.pending ∧ (State.modTime s f).store.svn = s.store.svn := by
  simp [State.modTime]

theorem joinCount_keeps (s : State) (c : Nat) :
    (State.joinCount s c).pending = s.pending ∧ (State.joinCount s c).store.svn = s.store.svn := by
  simp [State.joinCount, modTime_keeps, setTimeState_keeps]

theorem startJoin_keeps (s : State) :
    (State.startJoin s).pending = s.pending ∧ (State.startJoin s).store.svn = s.store.svn := by
  unfold State.startJoin; (repeat' split) <;> simp_all [modTime_keeps, joinCount_keeps, setTimeState_keeps]

theorem askTime_keeps (s : State) (dev : Nat) (ring : Option Nat) :
    (State.askTime s dev ring).pending = s.pending ∧ (State.askTime s dev ring).store.svn = s.store.svn := by
  grind [State.askTime, modTime_keeps, sendOrDrop_keeps, toPort_keeps]

theorem ringSend_keeps (s : State) (p hops root : Nat) :
    (State.ringSend s p hops root).pending = s.pending ∧ (State.ringSend s p hops root).store.svn = s.store.svn := by
  unfold State.ringSend; (repeat' split) <;> simp_all [toPort_keeps]

theorem askHop_keeps (s : State) (p : Nat) :
    (State.askHop s p).pending = s.pending ∧ (State.askHop s p).store.svn = s.store.svn := by
  simp [State.askHop, askTime_keeps, ite_keeps]

theorem ringForward_keeps (s : State) (arc port : Nat) :
    (State.ringForward s arc port).pending = s.pending ∧ (State.ringForward s arc port).store.svn = s.store.svn := by
  simp [State.ringForward, ringSend_keeps, modTime_keeps, ite_keeps]

theorem checkPeriod_keeps (s : State) (dev : Nat) (us : Nat) :
    (State.checkPeriod s dev us).pending = s.pending ∧ (State.checkPeriod s dev us).store.svn = s.store.svn := by
  unfold State.checkPeriod; (repeat' split) <;> simp_all [postGlobal_keeps, modTime_keeps]

theorem setSlew_keeps (s : State) (theta : Int) :
    (State.setSlew s theta).pending = s.pending ∧ (State.setSlew s theta).store.svn = s.store.svn := by
  simp [State.setSlew]

theorem drawFreq_keeps (s : State) :
    (State.drawFreq s).pending = s.pending ∧ (State.drawFreq s).store.svn = s.store.svn := by
  simp [State.drawFreq, put_keeps, draw_keeps]

theorem judgeOffset_keeps (s : State) (theta : Int) (n : Nat) :
    (State.judgeOffset s theta n).pending = s.pending ∧ (State.judgeOffset s theta n).store.svn = s.store.svn := by
  grind [State.judgeOffset, bump_keeps, postGlobal_keeps, setTimeState_keeps]

theorem estimate_keeps (s : State) (theta : Int) :
    (State.estimate s theta).pending = s.pending ∧ (State.estimate s theta).store.svn = s.store.svn := by
  simp [State.estimate, judgeOffset_keeps, put_keeps, drawFreq_keeps, setSlew_keeps, modTime_keeps]

theorem showArc_keeps (s : State) (arc : Nat) :
    (State.showArc s arc).pending = s.pending ∧ (State.showArc s arc).store.svn = s.store.svn := by
  simp [State.showArc, setFlag_keeps, setFld_keeps]

theorem changeArc_keeps (s : State) (arc : Nat) :
    (State.changeArc s arc).pending = s.pending ∧ (State.changeArc s arc).store.svn = s.store.svn := by
  grind [State.changeArc, bump_keeps, setSlew_keeps, showArc_keeps]

theorem timeCtlOp_keeps (s : State) (v : Word) (uu : State) (h : State.timeCtlOp s v = .ok uu) :
    (uu).pending = s.pending ∧ (uu).store.svn = s.store.svn := by
  grind [State.timeCtlOp, put_keeps, startJoin_keeps]

theorem timeSetLoOp_keeps (s : State) (v : Word) (uu : State) (h : State.timeSetLoOp s v = .ok uu) :
    (uu).pending = s.pending ∧ (uu).store.svn = s.store.svn := by
  grind [State.timeSetLoOp, stageLow_keeps]

theorem timeSetHiOp_keeps (s : State) (v : Word) (uu : State) (h : State.timeSetHiOp s v = .ok uu) :
    (uu).pending = s.pending ∧ (uu).store.svn = s.store.svn := by
  grind [State.timeSetHiOp, put64_keeps]

theorem writeHigh_keeps (s : State) (f : Func) (lo : Loc) (v : Word) (op : State → WR)
    (h : ∀ t, op s = .ok t → t.pending = s.pending ∧
        t.store.svn = s.store.svn) : (s.writeHigh f lo v op).pending = s.pending ∧
            (s.writeHigh f lo v op).store.svn = s.store.svn := by
  have q := write_keeps s f (lo + 4) v op h
  unfold State.writeHigh
  dsimp only
  (repeat' split) <;> simp [dropLow_keeps, q]

theorem tickOutPulse_keeps (s : State) :
    (State.tickOutPulse s).pending = s.pending ∧ (State.tickOutPulse s).store.svn = s.store.svn := by
  grind [State.tickOutPulse]

theorem gateDone_keeps (s : State) (o : GOp) (st : Nat) (old : List Byte) :
    (State.gateDone s o st old).pending = s.pending ∧ (State.gateDone s o st old).store.svn = s.store.svn := by
  unfold State.gateDone; (repeat' split) <;> simp_all [incr_keeps, replyHdr_keeps]

theorem cipherLine_keeps (s : State) (line : Nat) :
    ((State.cipherLine s line).1).pending = s.pending ∧ ((State.cipherLine s line).1).store.svn = s.store.svn := by
  grind [State.cipherLine, chanRead_keeps]

theorem gateNow_keeps (s : State) (o : GOp) :
    (State.gateNow s o).pending = s.pending ∧ (State.gateNow s o).store.svn = s.store.svn := by
  unfold State.gateNow; (repeat' split) <;> simp_all [gateDone_keeps, cipherLine_keeps, memLoadAs_keeps, memModifyAs_keeps]

theorem gateHold_keeps (s : State) (g : Nat) (o : GOp) :
    (State.gateHold s g o).pending = s.pending ∧ (State.gateHold s g o).store.svn = s.store.svn := by
  simp [State.gateHold, modGate_keeps]

theorem gateFill_keeps (s : State) (g : Nat) (o : GOp) :
    (State.gateFill s g o).pending = s.pending ∧ (State.gateFill s g o).store.svn = s.store.svn := by
  grind [State.gateFill, bump_keeps, gateHold_keeps, lbufRoom_keeps, modGate_keeps]

theorem gateTry_keeps (s : State) (g : Nat) (o : GOp) :
    (State.gateTry s g o).pending = s.pending ∧ (State.gateTry s g o).store.svn = s.store.svn := by
  grind [State.gateTry, gateHold_keeps, gateNow_keeps, gateDone_keeps, gateFill_keeps, lbufRoom_keeps, modGate_keeps, rekey_keeps]

theorem gateTake_keeps (s : State) (g : Nat) (o : GOp) :
    (State.gateTake s g o).pending = s.pending ∧ (State.gateTake s g o).store.svn = s.store.svn := by
  grind [State.gateTake, gateTry_keeps]

theorem gateRetry_keeps (s : State) (g : Nat) :
    (State.gateRetry s g).pending = s.pending ∧ (State.gateRetry s g).store.svn = s.store.svn := by
  unfold State.gateRetry; dsimp only; refine foldl_keeps _ _ _ ?_; intro p x; (repeat' split) <;> grind [State.gateRetry, gateTry_keeps, modGate_keeps]

theorem gateApply_keeps (s : State) (g line : Nat) (l : List GOp) :
    (s.gateApply g line l).pending = s.pending ∧ (s.gateApply g line l).store.svn = s.store.svn := by
  refine keeps_trans (foldl_keeps _ _ _ fun s o => ?_) (foldl_keeps _ _ _ fun s x => bump_keeps _ _ _ _ _ _)
  split
  · exact keeps_trans (gateDone_keeps _ _ _ _) (modGate_keeps _ _ _)
  · exact ⟨rfl, rfl⟩

theorem drainOn_keeps (s : State) (g : Nat) :
    (State.drainOn s g).pending = s.pending ∧ (State.drainOn s g).store.svn = s.store.svn := by
  simp [State.drainOn, release_keeps, foldl_keeps]

theorem upset_keeps (s : State) (line : Nat) (l : List (Fin 4 × Nat)) :
    (State.upset s line l).pending = s.pending ∧ (State.upset s line l).store.svn = s.store.svn := by
  unfold State.upset; dsimp only; refine foldl_keeps _ _ _ ?_; intro p x; dsimp only; (repeat' split) <;> simp

theorem memCfgOp_keeps (s : State) (g : Nat) (v : Word) (uu : State) (h : State.memCfgOp s g v = .ok uu) :
    uu.pending = s.pending ∧ uu.store.svn = s.store.svn := by
  unfold State.memCfgOp at h
  split at h
  · contradiction
  · cases h
    exact foldl_keeps _ _ _ fun s k => put_keeps _ _ _ _

theorem drainGate_keeps (s : State) (g : Nat) :
    (State.drainGate s g).pending = s.pending ∧ (State.drainGate s g).store.svn = s.store.svn :=
  keeps_trans (drainOn_keeps _ _) (modGate_keeps _ _ _)


theorem gctlOp_keeps (s : State) (g : Nat) (v : Word) (uu : State) (h : State.gctlOp s g v = .ok uu) :
    (uu).pending = s.pending ∧ (uu).store.svn = s.store.svn := by
  grind [State.gctlOp, drainGate_keeps]

theorem refreshed_keeps (s : State) (g k : Nat) :
    (State.refreshed s g k).pending = s.pending ∧ (State.refreshed s g k).store.svn = s.store.svn := by
  simp [State.refreshed, modGate_keeps]

theorem startRetrain_keeps (s : State) (g ch : Nat) :
    (State.startRetrain s g ch).pending = s.pending ∧ (State.startRetrain s g ch).store.svn = s.store.svn := by
  simp [State.startRetrain, bump_keeps, addSat_keeps, modGate_keeps, post_keeps, setFld_keeps]

theorem timingTick_keeps (s : State) (g : Nat) :
    (State.timingTick s g).pending = s.pending ∧ (State.timingTick s g).store.svn = s.store.svn := by
  simp [State.timingTick, modGate_keeps]

theorem channelFail_keeps (s : State) (g ch : Nat) :
    (State.channelFail s g ch).pending = s.pending ∧ (State.channelFail s g ch).store.svn = s.store.svn := by
  simp [State.channelFail, gateDone_keeps, modGate_keeps, post_keeps, setFlag_keeps, setFld_keeps, foldl_keeps, ite_keeps]

theorem setDouble_keeps (s : State) (g k : Nat) (dbl : Bool) :
    (State.setDouble s g k dbl).pending = s.pending ∧ (State.setDouble s g k dbl).store.svn = s.store.svn := by
  simp [State.setDouble, modGate_keeps]

theorem mr4Read_keeps (s : State) (g pkg die value : Nat) (double above : Bool) :
    (State.mr4Read s g pkg die value double above).pending = s.pending ∧
        (State.mr4Read s g pkg die value double above).store.svn = s.store.svn := by
  simp [State.mr4Read, modGate_keeps, post_keeps, setDouble_keeps, foldl_keeps, ite_keeps]

theorem patrolWord_keeps (s : State) (g ch l cw : Nat) (r : Nat × Bool) :
    ((State.patrolWord s g ch l cw r).1).pending = s.pending ∧
        ((State.patrolWord s g ch l cw r).1).store.svn = s.store.svn := by
  unfold State.patrolWord; (repeat' split) <;> simp_all [memCorrected_keeps, memUncorrectable_keeps]

theorem patrolStep_keeps (s : State) (g line : Nat) :
    (State.patrolStep s g line).pending = s.pending ∧ (State.patrolStep s g line).store.svn = s.store.svn := by
  simp [State.patrolStep, addWrap_keeps, modGate_keeps, setFld_keeps, ite_keeps]

theorem patrolLine_keeps (s : State) (g l : Nat) :
    (State.patrolLine s g l).pending = s.pending ∧ (State.patrolLine s g l).store.svn = s.store.svn := by
  simp [State.patrolLine, addWrap_keeps, patrolWord_keeps, bump_keeps, patrolStep_keeps, foldl_keeps, foldl_keeps1, ite_keeps]

theorem showStore_keeps (s : State) (g : Nat) :
    (State.showStore s g).pending = s.pending ∧ (State.showStore s g).store.svn = s.store.svn := by
  simp [State.showStore, put_keeps]

theorem gtRemapOp_keeps (s : State) (g : Nat) (v : Word) (uu : State) (h : State.gtRemapOp s g v = .ok uu) :
    (uu).pending = s.pending ∧ (uu).store.svn = s.store.svn := by
  grind [State.gtRemapOp, put_keeps, startPageRemap_keeps]

theorem pageCopied_keeps (s : State) (g : Nat) (m : GMirror) :
    (State.pageCopied s g m).pending = s.pending ∧ (State.pageCopied s g m).store.svn = s.store.svn := by
  simp [State.pageCopied, modGate_keeps]

theorem pageTick_keeps (s : State) (g : Nat) :
    (State.pageTick s g).pending = s.pending ∧ (State.pageTick s g).store.svn = s.store.svn := by
  unfold State.pageTick; dsimp only; (repeat' split) <;> simp [askPageRemap_keeps, bump_keeps, managed_keeps,
      modGate_keeps, setFld_keeps, showStore_keeps, foldl_keeps]

theorem gtFlipSelOp_keeps (s : State) (g : Nat) (v : Word) (uu : State) (h : State.gtFlipSelOp s g v = .ok uu) :
    (uu).pending = s.pending ∧ (uu).store.svn = s.store.svn := by
  grind [State.gtFlipSelOp, put_keeps]

theorem gtFlipDataOp_keeps (s : State) (g : Nat) (loc : Loc) (v : Word) (uu : State) (h : State.gtFlipDataOp s g loc v = .ok uu) :
    (uu).pending = s.pending ∧ (uu).store.svn = s.store.svn := by
  grind [State.gtFlipDataOp, put_keeps]

end Sys2Proof.Machine
end

