-- ==== Sys2Proof/Laws/KeepUnits.lean ====
section
/-! SUPPORT. What the shared operations leave alone: no operation of rows, tasks, recovery of links, plinths, lanterns, the array, the module and power takes or adds a waiting command, and none
moves a minimum security version. -/

namespace Sys2Proof.Machine

theorem modOptics_keeps (s : State) (f : Optics → Optics) :
    (State.modOptics s f).pending = s.pending ∧ (State.modOptics s f).store.svn = s.store.svn := by
  simp [State.modOptics]

theorem modRow_keeps (s : State) (st p : Nat) (rx : Bool) (f : Row → Row) :
    (State.modRow s st p rx f).pending = s.pending ∧ (State.modRow s st p rx f).store.svn = s.store.svn := by
  simp [State.modRow, modOptics_keeps]

theorem setMask_keeps (s : State) (a b p : Nat) (on : Bool) :
    (State.setMask s a b p on).pending = s.pending ∧ (State.setMask s a b p on).store.svn = s.store.svn := by
  simp [State.setMask, setFlag_keeps]

theorem modLine_keeps (s : State) (e l : Nat) (f : LineSt → LineSt) :
    (State.modLine s e l f).pending = s.pending ∧ (State.modLine s e l f).store.svn = s.store.svn := by
  simp [State.modLine, modOptics_keeps]

theorem unmask_keeps (s : State) (a b p : Nat) :
    (State.unmask s a b p).pending = s.pending ∧ (State.unmask s a b p).store.svn = s.store.svn := by
  unfold State.unmask; (repeat' split) <;> simp_all [setMask_keeps]

theorem maskBoth_keeps (s : State) (a b p : Nat) :
    (State.maskBoth s a b p).pending = s.pending ∧ (State.maskBoth s a b p).store.svn = s.store.svn := by
  simp [State.maskBoth, setMask_keeps]

theorem unmaskBoth_keeps (s : State) (a b p : Nat) :
    (State.unmaskBoth s a b p).pending = s.pending ∧ (State.unmaskBoth s a b p).store.svn = s.store.svn := by
  simp [State.unmaskBoth, unmask_keeps]

theorem reportMask_keeps (s : State) (kind st info : Nat) :
    (State.reportMask s kind st info).pending = s.pending ∧
        (State.reportMask s kind st info).store.svn = s.store.svn := by
  simp [State.reportMask, post_keeps]

theorem maskRow_keeps (s : State) (st p : Nat) :
    (State.maskRow s st p).pending = s.pending ∧ (State.maskRow s st p).store.svn = s.store.svn := by
  simp [State.maskRow, maskBoth_keeps, foldl_keeps]

theorem unmaskRow_keeps (s : State) (st p : Nat) :
    (State.unmaskRow s st p).pending = s.pending ∧ (State.unmaskRow s st p).store.svn = s.store.svn := by
  simp [State.unmaskRow, unmaskBoth_keeps, foldl_keeps]

theorem maskSwept_keeps (s : State) (st p : Nat) :
    (State.maskSwept s st p).pending = s.pending ∧ (State.maskSwept s st p).store.svn = s.store.svn := by
  simp [State.maskSwept, reportMask_keeps, maskRow_keeps]

theorem calEvent_keeps (s : State) (code st : Nat) :
    (State.calEvent s code st).pending = s.pending ∧ (State.calEvent s code st).store.svn = s.store.svn := by
  simp [State.calEvent, bump_keeps]

theorem askRescue_keeps (s : State) (st p : Nat) (seam : Bool) :
    (State.askRescue s st p seam).pending = s.pending ∧ (State.askRescue s st p seam).store.svn = s.store.svn := by
  simp [State.askRescue, modOptics_keeps, ite_keeps]

theorem wantRescue_keeps (s : State) (st p : Nat) :
    (State.wantRescue s st p).pending = s.pending ∧ (State.wantRescue s st p).store.svn = s.store.svn := by
  unfold State.wantRescue; (repeat' split) <;> simp_all [askRescue_keeps]

theorem tskCommit_keeps (s : State) (n i : Nat) (w : List Nat) (uu : State) (h : State.tskCommit s n i w = .ok uu) :
    (uu).pending = s.pending ∧ (uu).store.svn = s.store.svn := by
  grind [State.tskCommit, putWords_keeps]

theorem tskDataOp_keeps (s : State) (n k : Nat) (v : Word) (uu : State) (h : State.tskDataOp s n k v = .ok uu) :
    (uu).pending = s.pending ∧ (uu).store.svn = s.store.svn := by
  grind [State.tskDataOp, put_keeps, tskCommit_keeps, autoInc_keeps]

theorem tskSelOp_keeps (s : State) (n : Nat) (v : Word) (uu : State) (h : State.tskSelOp s n v = .ok uu) :
    (uu).pending = s.pending ∧ (uu).store.svn = s.store.svn := by
  grind [State.tskSelOp, put_keeps]

theorem tskLoadOp_keeps (s : State) (f : Func) (n : Nat) (v : Word) (uu : State) (h : State.tskLoadOp s f n v = .ok uu) :
    (uu).pending = s.pending ∧ (uu).store.svn = s.store.svn := by
  grind [State.tskLoadOp, bulkStore_keeps, startLoad_keeps]

theorem arriving_keeps (s : State) (q : QTask) (uu : State) (h : State.arriving s q = some uu) :
    (uu).pending = s.pending ∧ (uu).store.svn = s.store.svn := by
  grind [State.arriving, waitUntil_keeps]

theorem acted_keeps (s : State) (n c op cause status : Nat) :
    (State.acted s n c op cause status).pending = s.pending ∧
        (State.acted s n c op cause status).store.svn = s.store.svn := by
  simp [State.acted, modCell_keeps]

theorem operand_keeps (s : State) (n : Nat) (p : Spot) (off len : Nat) :
    ((State.operand s n p off len).1).pending = s.pending ∧
        ((State.operand s n p off len).1).store.svn = s.store.svn := by
  unfold State.operand; (repeat' split) <;> simp_all [spotRead_keeps]

theorem relayOperand_keeps (s : State) (n c : Nat) (q : QTask) (isA : Bool) (len : Nat) :
    ((State.relayOperand s n c q isA len).1).pending = s.pending ∧
        ((State.relayOperand s n c q isA len).1).store.svn = s.store.svn := by
  grind [State.relayOperand, operand_keeps]

theorem forward_keeps (s : State) (n c : Nat) (q : QTask) (a b : List Byte) :
    (State.forward s n c q a b).pending = s.pending ∧ (State.forward s n c q a b).store.svn = s.store.svn := by
  simp [State.forward, modCell_keeps]

theorem mmaRun_keeps (s : State) (n c : Nat) (q : QTask) (a b : List Byte) :
    (State.mmaRun s n c q a b).pending = s.pending ∧ (State.mmaRun s n c q a b).store.svn = s.store.svn := by
  unfold State.mmaRun; (repeat' split) <;> simp_all [arithEv_keeps, bump_keeps, forward_keeps, modCell_keeps, spotWrite_keeps]

theorem padRun_keeps (s : State) (bits : Nat) (b : List Byte) :
    ((State.padRun s bits b).1).pending = s.pending ∧ ((State.padRun s bits b).1).store.svn = s.store.svn := by
  unfold State.padRun; (repeat' split) <;> simp_all [draw_keeps]

theorem moveLines_keeps (s : State) (n : Nat) (q : QTask) :
    ((State.moveLines s n q).1).pending = s.pending ∧ ((State.moveLines s n q).1).store.svn = s.store.svn := by
  unfold State.moveLines; dsimp only; refine foldl_keeps1 _ _ _ ?_; intro p x; (repeat' split) <;> grind [State.moveLines, spotRead_keeps, spotWrite_keeps]

theorem lineDone_keeps (s : State) (n c i st : Nat) (data : List Byte) :
    (State.lineDone s n c i st data).pending = s.pending ∧
        (State.lineDone s n c i st data).store.svn = s.store.svn := by
  unfold State.lineDone; (repeat' split) <;> simp_all [modCell_keeps, spotWrite_keeps]

theorem storeBytes_keeps (s : State) (n : Nat) (q : QTask) (i : Nat) :
    ((State.storeBytes s n q i).1).pending = s.pending ∧ ((State.storeBytes s n q i).1).store.svn = s.store.svn := by
  simp [State.storeBytes, spotRead_keeps, ite_keeps, ite_fst]

theorem issueLine_keeps (s : State) (n c i : Nat) (q : QTask) :
    (State.issueLine s n c i q).pending = s.pending ∧ (State.issueLine s n c i q).store.svn = s.store.svn := by
  unfold State.issueLine; dsimp only; (repeat' split) <;> simp [lineDone_keeps, modCell_keeps, openCall_keeps,
      storeBytes_keeps]

theorem issueLines_keeps (s : State) (n c : Nat) :
    (State.issueLines s n c).pending = s.pending ∧ (State.issueLines s n c).store.svn = s.store.svn := by
  unfold State.issueLines; (repeat' split) <;> simp_all [issueLine_keeps, foldl_keeps, ite_keeps]

theorem signalDone_keeps (s : State) (n slot t0 i st : Nat) :
    (State.signalDone s n slot t0 i st).pending = s.pending ∧
        (State.signalDone s n slot t0 i st).store.svn = s.store.svn := by
  simp [State.signalDone, dropIncr_keeps, modSpire_keeps, ite_keeps]

theorem answerCall_keeps (s : State) (a tid st : Nat) (data : List Byte) :
    (State.answerCall s a tid st data).pending = s.pending ∧
        (State.answerCall s a tid st data).store.svn = s.store.svn := by
  unfold State.answerCall; (repeat' split) <;> simp_all [issueLines_keeps, combDone_keeps, copyDone_keeps, dropCall_keeps,
      hostArrived_keeps, lineDone_keeps, loadArrived_keeps, msgAnswer_keeps, plEvent_keeps, reqDone_keeps, signalDone_keeps]

theorem startLines_keeps (s : State) (n c : Nat) :
    (State.startLines s n c).pending = s.pending ∧ (State.startLines s n c).store.svn = s.store.svn := by
  simp [State.startLines, issueLines_keeps, modCell_keeps]

theorem duStop_keeps (s : State) (n cause : Nat) :
    (State.duStop s n cause).pending = s.pending ∧ (State.duStop s n cause).store.svn = s.store.svn := by
  simp [State.duStop, modSpire_keeps]

theorem Walk_choice_keeps (w : Walk) (n : Nat) (t : DuTask) (i token k x place : Nat) :
    (w.choice n t i token k x place).1.s.pending = w.s.pending ∧
        (w.choice n t i token k x place).1.s.store.svn = w.s.store.svn := by
  unfold Walk.choice
  dsimp only
  split
  · simp [duDrop_keeps, duPost_keeps]
  · split <;> simp [duDrop_keeps]

theorem duMark_keeps (s : State) (n cell place v : Nat) :
    (s.duMark n cell place v).pending = s.pending ∧
        (s.duMark n cell place v).store.svn = s.store.svn := wellWrite_keeps _ _ _ _ _ _

theorem Walk_choices_keeps (w : Walk) (n : Nat) (t : DuTask) (i cell place : Nat) (x : Nat → Nat) :
    (w.choices n t i cell place x).1.s.pending = w.s.pending ∧
        (w.choices n t i cell place x).1.s.store.svn = w.s.store.svn :=
  foldl_keeps2 (fun r : Walk × Nat => r.1.s) _ _ _ fun _ _ => Walk_choice_keeps _ _ _ _ _ _ _ _

theorem duTooMany_keeps (s : State) (n : Nat) (t : DuTask) (i k : Nat) :
    (s.duTooMany n t i k).pending = s.pending ∧ (s.duTooMany n t i k).store.svn = s.store.svn :=
  foldl_keeps _ _ _ fun s x => by simp [duDrop_keeps, duPost_keeps]

theorem Walk_row_keeps (w : Walk) (n : Nat) (t : DuTask) (cell place i : Nat) (x : Nat → Nat) :
    (w.row n t cell place i x).s.pending = w.s.pending ∧ (w.row n t cell place i x).s.store.svn = w.s.store.svn := by
  unfold Walk.row
  split
  · exact ⟨rfl, rfl⟩
  · split
    · simp [duMark_keeps, duTooMany_keeps]
    · simp [duMark_keeps, Walk_choices_keeps]

theorem Walk_entry_keeps (w : Walk) (n : Nat) (t : DuTask) (cell base i : Nat) :
    (w.entry n t cell base i).s.pending = w.s.pending ∧ (w.entry n t cell base i).s.store.svn = w.s.store.svn := by
  unfold Walk.entry
  dsimp only
  split
  · simp [modSpire_keeps, wellRead_keeps]
  · simp [Walk_row_keeps, wellRead_keeps]

theorem duEntries_keeps (s : State) (n : Nat) (t : DuTask) (cell base : Nat) :
    (s.duEntries n t cell base).s.pending = s.pending ∧ (s.duEntries n t cell base).s.store.svn = s.store.svn := by
  have h := foldl_keeps2 (fun w : Walk => w.s) (fun w i => w.entry n t cell base i) (List.range t.a.q.count)
    { s := s.modSpire n fun sp => { sp with du := { sp.du with cur := some t } },
      sent := List.replicate (bitsOf t.a.q.ext1 24 12) 0, items := [],
          quota := 0 } (fun w i => Walk_entry_keeps w n t cell base i)
  exact ⟨h.1.trans (modSpire_keeps _ _ _).1, h.2.trans (modSpire_keeps _ _ _).2⟩

theorem duWalked_keeps (s : State) (n : Nat) (quota : Nat) (items : List DuItem) :
    (State.duWalked s n quota items).pending = s.pending ∧
        (State.duWalked s n quota items).store.svn = s.store.svn := by
  simp [State.duWalked, modSpire_keeps, duPost_keeps, ite_keeps]

theorem duWalk_keeps (s : State) (n : Nat) (t : DuTask) : (s.duWalk n t).pending = s.pending ∧
    (s.duWalk n t).store.svn = s.store.svn := by
  unfold State.duWalk
  dsimp only
  split
  · exact duStop_keeps s n 7
  · split
    · split
      · exact duStop_keeps s n 1
      · exact ⟨(duWalked_keeps _ _ _ _).1.trans (duEntries_keeps _ _ _ _ _).1,
          (duWalked_keeps _ _ _ _).2.trans (duEntries_keeps _ _ _ _ _).2⟩
    · exact duStop_keeps s n 1

theorem duReturns_keeps (s : State) (n : Nat) (t : DuTask) :
    (s.duReturns n t).pending = s.pending ∧ (s.duReturns n t).store.svn = s.store.svn := by
  unfold State.duReturns
  dsimp only
  split
  · simp [duStop_keeps]
  · refine ⟨(modSpire_keeps _ _ _).1.trans ?_, (modSpire_keeps _ _ _).2.trans ?_⟩
    · refine ((foldl_keeps1 _ _ _ ?_).1).trans (modSpire_keeps _ _ _).1
      intro p i
      (repeat' split) <;> simp [duPost_keeps, wellRead_keeps]
    · refine ((foldl_keeps1 _ _ _ ?_).2).trans (modSpire_keeps _ _ _).2
      intro p i
      (repeat' split) <;> simp [duPost_keeps, wellRead_keeps]

theorem endReq_keeps (s : State) (a tid st : Nat) :
    (State.endReq s a tid st).pending = s.pending ∧ (State.endReq s a tid st).store.svn = s.store.svn := by
  simp [State.endReq, answerCall_keeps, ite_keeps]

theorem endAtSource_keeps (s : State) (src : Nat) (h : Hdr) (st : Nat) :
    (State.endAtSource s src h st).pending = s.pending ∧ (State.endAtSource s src h st).store.svn = s.store.svn := by
  unfold State.endAtSource; (repeat' split) <;> simp_all [endReq_keeps]

theorem endReqs_keeps (s : State) (dst st : Nat) :
    (State.endReqs s dst st).pending = s.pending ∧ (State.endReqs s dst st).store.svn = s.store.svn := by
  simp [State.endReqs, endReq_keeps, foldl_keeps]

theorem stationsDown_keeps (s : State) (f : Nat → Bool) (st : Nat) :
    (State.stationsDown s f st).pending = s.pending ∧ (State.stationsDown s f st).store.svn = s.store.svn := by
  unfold State.stationsDown; dsimp only; refine foldl_keeps _ _ _ ?_; intro p x; (repeat' split) <;> grind [State.stationsDown, forgetCalls_keeps, endReq_keeps]

theorem endHdr_keeps (s : State) (a : Nat) (h : Hdr) (st : Nat) :
    (State.endHdr s a h st).pending = s.pending ∧ (State.endHdr s a h st).store.svn = s.store.svn := by
  simp [State.endHdr, endAtSource_keeps, replyHdr_keeps, ite_keeps]

theorem sendOrEnd_keeps (s : State) (a b : Nat) (h : Hdr) :
    (State.sendOrEnd s a b h).pending = s.pending ∧ (State.sendOrEnd s a b h).store.svn = s.store.svn := by
  simp [State.sendOrEnd, endHdr_keeps, sendHdr_keeps, ite_keeps]

theorem relayOn_keeps (s : State) (r : Nat) (h : Hdr) :
    (State.relayOn s r h).pending = s.pending ∧ (State.relayOn s r h).store.svn = s.store.svn := by
  grind [State.relayOn, endHdr_keeps, sendOn_keeps, hdrHash_keeps]

theorem reissue_keeps (s : State) (a b : Nat) (h : Hdr) :
    (State.reissue s a b h).pending = s.pending ∧ (State.reissue s a b h).store.svn = s.store.svn := by
  simp [State.reissue, relayOn_keeps, sendOrEnd_keeps, ite_keeps]

theorem askOne_keeps (s : State) (a b p t : Nat) :
    (State.askOne s a b p t).pending = s.pending ∧ (State.askOne s a b p t).store.svn = s.store.svn := by
  simp [State.askOne, modLink_keeps, sendHdr_keeps]

theorem askLink_keeps (s : State) (a b p : Nat) :
    (State.askLink s a b p).pending = s.pending ∧ (State.askLink s a b p).store.svn = s.store.svn := by
  simp [State.askLink, askOne_keeps, modLink_keeps, foldl_keeps]

theorem failOne_keeps (s : State) (a b p due : Nat) :
    (State.failOne s a b p due).pending = s.pending ∧ (State.failOne s a b p due).store.svn = s.store.svn := by
  simp [State.failOne, askOne_keeps, modLink_keeps, plEvent_keeps, reissue_keeps, foldl_keeps, ite_keeps]

theorem askAgain_keeps (s : State) (a b p : Nat) :
    (State.askAgain s a b p).pending = s.pending ∧ (State.askAgain s a b p).store.svn = s.store.svn := by
  simp [State.askAgain, askLink_keeps, foldl_keeps, ite_keeps]

theorem failPair_keeps (s : State) (a b p : Nat) :
    (State.failPair s a b p).pending = s.pending ∧ (State.failPair s a b p).store.svn = s.store.svn := by
  simp [State.failPair, askAgain_keeps, failOne_keeps]

theorem trainLink_keeps (s : State) (a b p : Nat) :
    (State.trainLink s a b p).pending = s.pending ∧ (State.trainLink s a b p).store.svn = s.store.svn := by
  simp [State.trainLink, modLink_keeps]

theorem linkAnswered_keeps (s : State) (a b p seq t16 : Nat) :
    (State.linkAnswered s a b p seq t16).pending = s.pending ∧
        (State.linkAnswered s a b p seq t16).store.svn = s.store.svn := by
  unfold State.linkAnswered; dsimp only; (repeat' split) <;> simp [modLink_keeps, reissue_keeps, foldl_keeps]

theorem discardHdr_keeps (s : State) (d : Nat) :
    (State.discardHdr s d).pending = s.pending ∧ (State.discardHdr s d).store.svn = s.store.svn := by
  simp [State.discardHdr, plEvent_keeps]

theorem hdrFabric_keeps (s : State) (e st src : Nat) (h : Hdr) :
    (State.hdrFabric s e st src h).pending = s.pending ∧ (State.hdrFabric s e st src h).store.svn = s.store.svn := by
  grind [State.hdrFabric, issueAt_keeps1, issueAt_keeps2, modOculus_keeps, replyHdr_keeps]

theorem deliverHere_keeps (s : State) (d src : Nat) (h : Hdr) :
    (State.deliverHere s d src h).pending = s.pending ∧ (State.deliverHere s d src h).store.svn = s.store.svn := by
  unfold State.deliverHere; (repeat' split) <;> simp_all [replyHdr_keeps, answerCall_keeps, discardHdr_keeps,
      gateTake_keeps, hdrFabric_keeps, incr_keeps, landPart_keeps, landTally_keeps, ite_keeps]

theorem answerQuery_keeps (s : State) (d src p t16 : Nat) :
    (State.answerQuery s d src p t16).pending = s.pending ∧
        (State.answerQuery s d src p t16).store.svn = s.store.svn := by
  grind [State.answerQuery, modLink_keeps, sendHdr_keeps]

theorem deliver_keeps (s : State) (a d : Nat) (h : Hdr) :
    (State.deliver s a d h).pending = s.pending ∧ (State.deliver s a d h).store.svn = s.store.svn := by
  grind [State.deliver, answerQuery_keeps, deliverHere_keeps, discardHdr_keeps, linkAnswered_keeps, modOculus_keeps]

theorem badUnit_keeps (s : State) (a b p flits : Nat) :
    (State.badUnit s a b p flits).pending = s.pending ∧ (State.badUnit s a b p flits).store.svn = s.store.svn := by
  simp [State.badUnit, modLink_keeps]

theorem takeBundle_keeps (s : State) (a b p : Nat) (k : Bundle) :
    (State.takeBundle s a b p k).pending = s.pending ∧ (State.takeBundle s a b p k).store.svn = s.store.svn := by
  unfold State.takeBundle; dsimp only; (repeat' split) <;> simp [badUnit_keeps, plEvent_keeps, deliver_keeps,
      lineWord_keeps, linkCount_keeps, modLink_keeps, foldl_keeps]

theorem landUnit_keeps (s : State) (a b p : Nat) (u : LUnit) (k : Option Bundle) :
    (State.landUnit s a b p u k).pending = s.pending ∧ (State.landUnit s a b p u k).store.svn = s.store.svn := by
  unfold State.landUnit; (repeat' split) <;> simp_all [badUnit_keeps, modLink_keeps, takeBundle_keeps]

theorem blockIn_keeps (s : State) (a b p : Nat) (err : BitVec 560) :
    (State.blockIn s a b p err).pending = s.pending ∧ (State.blockIn s a b p err).store.svn = s.store.svn := by
  grind [State.blockIn, landUnit_keeps, modLink_keeps, moveBlock_keeps]

theorem blocksIn_keeps (s : State) (a b p n : Nat) (errs : List (BitVec 560)) :
    (State.blocksIn s a b p n errs).pending = s.pending ∧
        (State.blocksIn s a b p n errs).store.svn = s.store.svn := by
  simp [State.blocksIn, blockIn_keeps, foldl_keeps]

theorem laneProbe_keeps (s : State) (st p : Nat) (rx : Bool) :
    (State.laneProbe s st p rx).pending = s.pending ∧ (State.laneProbe s st p rx).store.svn = s.store.svn := by
  simp [State.laneProbe, modPlinth_keeps, draw_keeps, ite_keeps]

theorem seamTest_keeps (s : State) (st p : Nat) :
    (State.seamTest s st p).pending = s.pending ∧ (State.seamTest s st p).store.svn = s.store.svn := by
  grind [State.seamTest, laneProbe_keeps]

theorem linkFails_keeps (s : State) (a b p : Nat) :
    (State.linkFails s a b p).pending = s.pending ∧ (State.linkFails s a b p).store.svn = s.store.svn := by
  simp [State.linkFails, failPair_keeps, seamTest_keeps]

theorem pairViaOp_keeps (s : State) (e : Nat) (v : Word) (uu : State) (h : State.pairViaOp s e v = .ok uu) :
    (uu).pending = s.pending ∧ (uu).store.svn = s.store.svn := by
  grind [State.pairViaOp, plainWrite_keeps]

theorem sparesOut_keeps (s : State) (loc : Loc) (i n : Nat) :
    (State.sparesOut s loc i n).pending = s.pending ∧ (State.sparesOut s loc i n).store.svn = s.store.svn := by
  simp [State.sparesOut, addSat_keeps, setFld_keeps]

theorem laneBack_keeps (s : State) (g : Loc × Nat) (ok : Bool) :
    (State.laneBack s g ok).pending = s.pending ∧ (State.laneBack s g ok).store.svn = s.store.svn := by
  simp [State.laneBack, addSat_keeps, ite_keeps]

theorem judgeLane_keeps (s : State) (a d p bits : Nat) (rx oldOk : Bool) :
    (State.judgeLane s a d p bits rx oldOk).pending = s.pending ∧
        (State.judgeLane s a d p bits rx oldOk).store.svn = s.store.svn := by
  simp [State.judgeLane, laneBack_keeps, modLink_keeps, wantRescue_keeps, ite_keeps]

theorem gateOut_keeps (s : State) (g : Nat) (st : Nat) :
    (State.gateOut s g st).pending = s.pending ∧ (State.gateOut s g st).store.svn = s.store.svn := by
  unfold State.gateOut; dsimp only; refine foldl_keeps _ _ _ ?_; intro p x; (repeat' split) <;> grind [State.gateOut,
      gateDone_keeps, modGate_keeps]

theorem portsOut_keeps (s : State) (e cause : Nat) :
    (State.portsOut s e cause).pending = s.pending ∧ (State.portsOut s e cause).store.svn = s.store.svn := by
  simp [State.portsOut, failPort_keeps, foldl_keeps, ite_keeps]

theorem endDetour_keeps (s : State) (st : Nat) (h : Hdr) (v : Nat) :
    (State.endDetour s st h v).pending = s.pending ∧ (State.endDetour s st h v).store.svn = s.store.svn := by
  simp [State.endDetour, endAtSource_keeps, endReq_keeps, ite_keeps]

theorem detoursLost_keeps (s : State) (st : Nat) :
    (State.detoursLost s st).pending = s.pending ∧ (State.detoursLost s st).store.svn = s.store.svn := by
  unfold State.detoursLost; dsimp only; (repeat' split) <;> simp [endDetour_keeps, modOculus_keeps, foldl_keeps]

theorem oculusDetoursLost_keeps (s : State) (e : Nat) :
    (State.oculusDetoursLost s e).pending = s.pending ∧ (State.oculusDetoursLost s e).store.svn = s.store.svn := by
  simp [State.oculusDetoursLost, detoursLost_keeps, foldl_keeps]

theorem stationLoss_keeps (s : State) (st : Nat) :
    (State.stationLoss s st).pending = s.pending ∧ (State.stationLoss s st).store.svn = s.store.svn := by
  grind [State.stationLoss, endReqs_keeps, detoursLost_keeps, gateOut_keeps, modSpire_keeps, portsOut_keeps, post_keeps,
      setFlag_keeps, spireTasksOut_keeps]

theorem linkTick_keeps (s : State) :
    (State.linkTick s).pending = s.pending ∧ (State.linkTick s).store.svn = s.store.svn := by
  unfold State.linkTick; dsimp only; (repeat' split) <;> simp [askLink_keeps, modLink_keeps, post_keeps, setMask_keeps,
      unmask_keeps, foldl_keeps, ite_keeps]

theorem fenceTick_keeps (s : State) :
    (State.fenceTick s).pending = s.pending ∧ (State.fenceTick s).store.svn = s.store.svn := by
  unfold State.fenceTick; dsimp only; refine foldl_keeps _ _ _ ?_; intro p x; (repeat' split) <;> grind [State.fenceTick, modLink_keeps]

theorem laneLost_keeps (s : State) (a b p : Nat) (rx : Bool) :
    (State.laneLost s a b p rx).pending = s.pending ∧ (State.laneLost s a b p rx).store.svn = s.store.svn := by
  simp [State.laneLost, maskBoth_keeps, reportMask_keeps, addSat_keeps, modLink_keeps, setFld_keeps, stationLoss_keeps, ite_keeps]

theorem laneTick_keeps (s : State) :
    (State.laneTick s).pending = s.pending ∧ (State.laneTick s).store.svn = s.store.svn := by
  unfold State.laneTick; dsimp only; (repeat' split) <;> simp [modLink_keeps, laneLost_keeps, setFld_keeps, foldl_keeps,
      ite_keeps]

theorem controlTick_keeps (s : State) (l : List (Fin 48 × Bool)) :
    (State.controlTick s l).pending = s.pending ∧ (State.controlTick s l).store.svn = s.store.svn := by
  unfold State.controlTick; dsimp only; refine foldl_keeps _ _ _ ?_; intro p x; (repeat' split) <;> grind [State.controlTick, addSat_keeps, modPlinth_keeps, setFld_keeps, stationLoss_keeps]

theorem seamLost_keeps (s : State) (p st : Nat) (rx : Bool) :
    (State.seamLost s p st rx).pending = s.pending ∧ (State.seamLost s p st rx).store.svn = s.store.svn := by
  simp [State.seamLost, maskRow_keeps, modRow_keeps, post_keeps, setFld_keeps, setFlag_keeps]

theorem seamRow_keeps (s : State) (p st : Nat) (rx : Bool) :
    (State.seamRow s p st rx).pending = s.pending ∧ (State.seamRow s p st rx).store.svn = s.store.svn := by
  grind [State.seamRow, askRescue_keeps, seamLost_keeps, setFld_keeps]

theorem seamTick_keeps (s : State) :
    (State.seamTick s).pending = s.pending ∧ (State.seamTick s).store.svn = s.store.svn := by
  simp [State.seamTick, modPlinth_keeps, seamRow_keeps, foldl_keeps]

theorem relayTick_keeps (s : State) :
    (State.relayTick s).pending = s.pending ∧ (State.relayTick s).store.svn = s.store.svn := by
  simp [State.relayTick, reportMask_keeps, foldl_keeps, ite_keeps]

theorem trackRow_keeps (s : State) (st p : Nat) (rx : Bool) (l : List LinkLevels) :
    (State.trackRow s st p rx l).pending = s.pending ∧ (State.trackRow s st p rx l).store.svn = s.store.svn := by
  grind [State.trackRow, calEvent_keeps, modRow_keeps, wantRescue_keeps]

theorem heldRow_keeps (s : State) (st p : Nat) (rx : Bool) (l : List LinkLevels) :
    (State.heldRow s st p rx l).pending = s.pending ∧ (State.heldRow s st p rx l).store.svn = s.store.svn := by
  simp [State.heldRow, wantRescue_keeps, ite_keeps]

theorem setEyes_keeps (s : State) (l : List LinkLevels) :
    (State.setEyes s l).pending = s.pending ∧ (State.setEyes s l).store.svn = s.store.svn := by
  simp [State.setEyes, modOptics_keeps]

theorem trackTick_keeps (s : State) (o : FrameObs) :
    (State.trackTick s o).pending = s.pending ∧ (State.trackTick s o).store.svn = s.store.svn := by
  simp [State.trackTick, heldRow_keeps, modOptics_keeps, setEyes_keeps, trackRow_keeps, foldl_keeps, ite_keeps]

theorem windowTick_keeps (s : State) :
    (State.windowTick s).pending = s.pending ∧ (State.windowTick s).store.svn = s.store.svn := by
  unfold State.windowTick; dsimp only; (repeat' split) <;> simp [maskRow_keeps, modRow_keeps, post_keeps, foldl_keeps,
      ite_keeps]

theorem setBay_keeps (s : State) (b v : Nat) :
    (State.setBay s b v).pending = s.pending ∧ (State.setBay s b v).store.svn = s.store.svn := by
  simp [State.setBay, setFld_keeps]

theorem sideMoved_keeps (s : State) (e : Nat) :
    (State.sideMoved s e).pending = s.pending ∧ (State.sideMoved s e).store.svn = s.store.svn := by
  simp [State.sideMoved, modOptics_keeps, setFlag_keeps]

theorem markDark_keeps (s : State) :
    (State.markDark s).pending = s.pending ∧ (State.markDark s).store.svn = s.store.svn := by
  simp [State.markDark, modOptics_keeps]

theorem lanternRail_keeps (s : State) (b : Nat) :
    (State.lanternRail s b).pending = s.pending ∧ (State.lanternRail s b).store.svn = s.store.svn := by
  simp [State.lanternRail, ite_keeps]

theorem loseBay_keeps (s : State) (b v : Nat) :
    (State.loseBay s b v).pending = s.pending ∧ (State.loseBay s b v).store.svn = s.store.svn := by
  grind [State.loseBay, markDark_keeps, setBay_keeps]

theorem bayFault_keeps (s : State) (b : Nat) :
    (State.bayFault s b).pending = s.pending ∧ (State.bayFault s b).store.svn = s.store.svn := by
  unfold State.bayFault; (repeat' split) <;> simp_all [loseBay_keeps]

theorem swapSide_keeps (s : State) (e : Nat) :
    (State.swapSide s e).pending = s.pending ∧ (State.swapSide s e).store.svn = s.store.svn := by
  unfold State.swapSide; (repeat' split) <;> simp_all [markDark_keeps, modOptics_keeps, setBay_keeps, sideMoved_keeps,
      setFld_keeps]

theorem lnCtlOp_keeps (s : State) (v : Word) (uu : State) (h : State.lnCtlOp s v = .ok uu) :
    (uu).pending = s.pending ∧ (uu).store.svn = s.store.svn := by
  grind [State.lnCtlOp, modOptics_keeps, put_keeps, setFlag_keeps]

theorem calSkip_keeps (s : State) (st : Nat) :
    (State.calSkip s st).pending = s.pending ∧ (State.calSkip s st).store.svn = s.store.svn := by
  simp [State.calSkip, calEvent_keeps, addSat_keeps, plEvent_keeps]

theorem setSweep_keeps (s : State) (w : Sweeping) (ph : Nat) :
    (State.setSweep s w ph).pending = s.pending ∧ (State.setSweep s w ph).store.svn = s.store.svn := by
  simp [State.setSweep, modOptics_keeps]

theorem sendProbe_keeps (s : State) (st p : Nat) :
    (State.sendProbe s st p).pending = s.pending ∧ (State.sendProbe s st p).store.svn = s.store.svn := by
  simp [State.sendProbe, modLink_keeps, sendUnit_keeps]

theorem sweptRow_keeps (s : State) (st p : Nat) (rx : Bool) (w : SweptRow) (start : Bool) :
    (State.sweptRow s st p rx w start).pending = s.pending ∧
        (State.sweptRow s st p rx w start).store.svn = s.store.svn := by
  unfold State.sweptRow; dsimp only; (repeat' split) <;> simp [managed_keeps, calEvent_keeps, modRow_keeps, post_keeps]

theorem trainRow_keeps (s : State) (st p : Nat) (up : Bool) :
    (State.trainRow s st p up).pending = s.pending ∧ (State.trainRow s st p up).store.svn = s.store.svn := by
  unfold State.trainRow; dsimp only; (repeat' split) <;> simp [failPair_keeps, trainLink_keeps, foldl_keeps, ite_keeps]

theorem recalOp_keeps (s : State) (e : Nat) (v : Word) (uu : State) (h : State.recalOp s e v = .ok uu) :
    (uu).pending = s.pending ∧ (uu).store.svn = s.store.svn := by
  grind [State.recalOp, wantRescue_keeps]

theorem publishMap_keeps (s : State) (e : Nat) :
    (State.publishMap s e).pending = s.pending ∧ (State.publishMap s e).store.svn = s.store.svn := by
  simp [State.publishMap, put_keeps, setFld_keeps, foldl_keeps]

theorem judgeLine_keeps (s : State) (e l : Nat) (levels : List LinkLevels) :
    (State.judgeLine s e l levels).pending = s.pending ∧ (State.judgeLine s e l levels).store.svn = s.store.svn := by
  unfold State.judgeLine; dsimp only; (repeat' split) <;> simp [post_keeps, bump_keeps, modLine_keeps]

theorem decideSwap_keeps (s : State) :
    (State.decideSwap s).pending = s.pending ∧ (State.decideSwap s).store.svn = s.store.svn := by
  unfold State.decideSwap; (repeat' split) <;> simp_all [modOptics_keeps, setFlag_keeps]

theorem dropSwap_keeps (s : State) :
    (State.dropSwap s).pending = s.pending ∧ (State.dropSwap s).store.svn = s.store.svn := by
  simp [State.dropSwap, modOptics_keeps, setFld_keeps, setFlag_keeps]

theorem swapTick_keeps (s : State) :
    (State.swapTick s).pending = s.pending ∧ (State.swapTick s).store.svn = s.store.svn := by
  unfold State.swapTick; (repeat' split) <;> simp_all [addWrap_keeps, post_keeps, bump_keeps, dropSwap_keeps, swapSide_keeps]

theorem returnTick_keeps (s : State) :
    (State.returnTick s).pending = s.pending ∧ (State.returnTick s).store.svn = s.store.svn := by
  grind [State.returnTick, post_keeps, bump_keeps, markDark_keeps, addWrap_keeps, modOptics_keeps, setBay_keeps, setFld_keeps,
      sideMoved_keeps]

theorem lineMasks_keeps (s : State) (e l : Nat) :
    (State.lineMasks s e l).pending = s.pending ∧ (State.lineMasks s e l).store.svn = s.store.svn := by
  simp [State.lineMasks, maskBoth_keeps, modLine_keeps, post_keeps, unmaskBoth_keeps, foldl_keeps, ite_keeps]

theorem anomTick_keeps (s : State) :
    (State.anomTick s).pending = s.pending ∧ (State.anomTick s).store.svn = s.store.svn := by
  simp [State.anomTick, modOptics_keeps]

theorem maskRescues_keeps (s : State) :
    (State.maskRescues s).pending = s.pending ∧ (State.maskRescues s).store.svn = s.store.svn := by
  unfold State.maskRescues; dsimp only; refine foldl_keeps _ _ _ ?_; intro p x; (repeat' split) <;> grind [State.maskRescues, maskSwept_keeps, modOptics_keeps]

theorem startSweep_keeps (s : State) (p : Nat) :
    (State.startSweep s p).pending = s.pending ∧ (State.startSweep s p).store.svn = s.store.svn := by
  unfold State.startSweep; (repeat' split) <;> simp_all [calEvent_keeps, maskSwept_keeps, modOptics_keeps]

theorem sweepTick_keeps (s : State) :
    s.sweepTick.pending = s.pending ∧ s.sweepTick.store.svn = s.store.svn := by
  unfold State.sweepTick
  split
  · exact ⟨rfl, rfl⟩
  · exact keeps_trans (foldl_keeps _ _ _ fun t p => startSweep_keeps t p)
      (keeps_trans (maskRescues_keeps _) (keeps_trans (foldl_keeps _ _ _ fun s w => unmaskRow_keeps _ _ _) (modOptics_keeps _ _)))

theorem mapTick_keeps (s : State) :
    (State.mapTick s).pending = s.pending ∧ (State.mapTick s).store.svn = s.store.svn := by
  simp [State.mapTick, modOptics_keeps]

theorem opticsTick_keeps (s : State) (o : FrameObs) :
    (State.opticsTick s o).pending = s.pending ∧ (State.opticsTick s o).store.svn = s.store.svn := by
  simp [State.opticsTick, returnTick_keeps, anomTick_keeps, swapTick_keeps, decideSwap_keeps, mapTick_keeps, judgeLine_keeps,
      lineMasks_keeps, windowTick_keeps, sweepTick_keeps, trackTick_keeps, foldl_keeps]

theorem opticsCutoff_keeps (s : State) :
    (State.opticsCutoff s).pending = s.pending ∧ (State.opticsCutoff s).store.svn = s.store.svn := by
  simp [State.opticsCutoff, modOptics_keeps]

theorem sramCtlOp_keeps (s : State) (n : Nat) (v : Word) (uu : State) (h : State.sramCtlOp s n v = .ok uu) :
    (uu).pending = s.pending ∧ (uu).store.svn = s.store.svn := by
  grind [State.sramCtlOp, drainSpire_keeps]

theorem spRemapOp_keeps (s : State) (n : Nat) (v : Word) (uu : State) (h : State.spRemapOp s n v = .ok uu) :
    (uu).pending = s.pending ∧ (uu).store.svn = s.store.svn := by
  grind [State.spRemapOp, put_keeps, startRemap_keeps]

theorem copyRow_keeps (s : State) (n cell row : Nat) :
    ((State.copyRow s n cell row).1).pending = s.pending ∧
        ((State.copyRow s n cell row).1).store.svn = s.store.svn := by
  unfold State.copyRow; dsimp only; refine foldl_keeps1 _ _ _ ?_; intro p x; (repeat' split) <;> grind [State.copyRow, cwRead_keeps]

theorem abandonRemap_keeps (s : State) (n cell row : Nat) :
    (State.abandonRemap s n cell row).pending = s.pending ∧
        (State.abandonRemap s n cell row).store.svn = s.store.svn := by
  simp [State.abandonRemap, askRemap_keeps, post_keeps, modSpire_keeps, setFlag_keeps, setFld_keeps]

theorem remapTick_keeps (s : State) (n : Nat) :
    (State.remapTick s n).pending = s.pending ∧ (State.remapTick s n).store.svn = s.store.svn := by
  unfold State.remapTick; (repeat' split) <;> simp_all [askRemap_keeps, addSat_keeps, bump_keeps, modSpire_keeps, setFld_keeps]

theorem spFlipSelOp_keeps (s : State) (n : Nat) (v : Word) (uu : State) (h : State.spFlipSelOp s n v = .ok uu) :
    (uu).pending = s.pending ∧ (uu).store.svn = s.store.svn := by
  grind [State.spFlipSelOp, put_keeps]

theorem spFlipDataOp_keeps (s : State) (n : Nat) (loc : Loc) (v : Word) (uu : State) (h : State.spFlipDataOp s n loc v = .ok uu) :
    (uu).pending = s.pending ∧ (uu).store.svn = s.store.svn := by
  grind [State.spFlipDataOp, put_keeps]

theorem bondNoSpare_keeps (s : State) (n c g lane : Nat) :
    (State.bondNoSpare s n c g lane).pending = s.pending ∧
        (State.bondNoSpare s n c g lane).store.svn = s.store.svn := by
  grind [State.bondNoSpare, modSpire_keeps, post_keeps, setFlag_keeps]

theorem bondLaneFail_keeps (s : State) (n c g lane : Nat) :
    (State.bondLaneFail s n c g lane).pending = s.pending ∧
        (State.bondLaneFail s n c g lane).store.svn = s.store.svn := by
  grind [State.bondLaneFail, addSat_keeps, bondNoSpare_keeps, bump_keeps, modSpire_keeps]

theorem bondTest_keeps (s : State) (n c g : Nat) (lanes : List Nat) :
    (State.bondTest s n c g lanes).pending = s.pending ∧ (State.bondTest s n c g lanes).store.svn = s.store.svn := by
  unfold State.bondTest; dsimp only; refine foldl_keeps _ _ _ ?_; intro p x; (repeat' split) <;> grind [State.bondTest, bondLaneFail_keeps, modCell_keeps]

theorem bondTick_keeps (s : State) (n : Nat) :
    (State.bondTick s n).pending = s.pending ∧ (State.bondTick s n).store.svn = s.store.svn := by
  unfold State.bondTick; dsimp only; refine foldl_keeps _ _ _ ?_; intro p x; (repeat' split) <;> grind [State.bondTick, bump_keeps, modSpire_keeps, post_keeps, setFld_keeps]

theorem bondCtlOp_keeps (s : State) (n : Nat) (v : Word) (uu : State) (h : State.bondCtlOp s n v = .ok uu) :
    (uu).pending = s.pending ∧ (uu).store.svn = s.store.svn := by
  grind [State.bondCtlOp, modSpire_keeps, put_keeps]

theorem rotOverdue_keeps (s : State) (n c : Nat) :
    (State.rotOverdue s n c).pending = s.pending ∧ (State.rotOverdue s n c).store.svn = s.store.svn := by
  simp [State.rotOverdue, post_keeps, modCell_keeps, setFlag_keeps]

theorem wellTick_keeps (s : State) (conflicts grants : List (Fin 16 × Fin 64 × Nat)) (upsets : List (Fin 16 × Fin 64 × Fin 32768 × Nat)) :
    (State.wellTick s conflicts grants upsets).pending = s.pending ∧
        (State.wellTick s conflicts grants upsets).store.svn = s.store.svn := by
  simp [State.wellTick, bump_keeps, modSpire_keeps, foldl_keeps]

theorem governorWindow_keeps (s : State) (n : Nat) (north south : Activity) :
    (State.governorWindow s n north south).pending = s.pending ∧
        (State.governorWindow s n north south).store.svn = s.store.svn := by
  simp [State.governorWindow, bump_keeps, modSpire_keeps, put_keeps, ite_keeps, ite_fst, ite_snd]

theorem governorCorrect_keeps (s : State) (n measured : Nat) :
    (State.governorCorrect s n measured).pending = s.pending ∧
        (State.governorCorrect s n measured).store.svn = s.store.svn := by
  simp [State.governorCorrect, modSpire_keeps, setFld_keeps]

theorem arrayBack_keeps (s : State) (n : Nat) (t : SpireTest) :
    (State.arrayBack s n t).pending = s.pending ∧ (State.arrayBack s n t).store.svn = s.store.svn := by
  simp [State.arrayBack, modSpire_keeps, buildMap_keeps, showTest_keeps, startTest_keeps, setFlag_keeps, ite_keeps]

theorem railsOn_keeps (s : State) :
    (State.railsOn s).pending = s.pending ∧ (State.railsOn s).store.svn = s.store.svn := by
  simp [State.railsOn]

theorem modMgmt_keeps (s : State) (f : Mgmt → Mgmt) :
    (State.modMgmt s f).pending = s.pending ∧ (State.modMgmt s f).store.svn = s.store.svn := by
  simp [State.modMgmt]

theorem modPower_keeps (s : State) (f : Power → Power) :
    (State.modPower s f).pending = s.pending ∧ (State.modPower s f).store.svn = s.store.svn := by
  simp [State.modPower]

theorem modSec_keeps (s : State) (f : Sec → Sec) :
    (State.modSec s f).pending = s.pending ∧ (State.modSec s f).store.svn = s.store.svn := by
  simp [State.modSec]

theorem modFaults_keeps (s : State) (f : Faults → Faults) :
    (State.modFaults s f).pending = s.pending ∧ (State.modFaults s f).store.svn = s.store.svn := by
  simp [State.modFaults]

theorem setBoot_keeps (s : State) (step st : Nat) :
    (State.setBoot s step st).pending = s.pending ∧ (State.setBoot s step st).store.svn = s.store.svn := by
  grind [State.setBoot, irq_keeps, setFld_keeps]

theorem modMbox_keeps (s : State) (m : Nat) (f : Mbox → Mbox) :
    (State.modMbox s m f).pending = s.pending ∧ (State.modMbox s m f).store.svn = s.store.svn := by
  simp [State.modMbox]

theorem hostNotice_keeps (s : State) (m bit : Nat) :
    (State.hostNotice s m bit).pending = s.pending ∧ (State.hostNotice s m bit).store.svn = s.store.svn := by
  simp [State.hostNotice, irq_keeps, setFlag_keeps, ite_keeps]

theorem abortMbox_keeps (s : State) (m scope : Nat) (atHost atBelfry : Bool) :
    (State.abortMbox s m scope atHost atBelfry).pending = s.pending ∧
        (State.abortMbox s m scope atHost atBelfry).store.svn = s.store.svn := by
  unfold State.abortMbox; (repeat' split) <;> simp_all [hostNotice_keeps, modMbox_keeps, postGlobal_keeps]

theorem abortAll_keeps (s : State) :
    (State.abortAll s).pending = s.pending ∧ (State.abortAll s).store.svn = s.store.svn := by
  simp [State.abortAll, abortMbox_keeps, foldl_keeps]

theorem spireDown_keeps (s : State) (n : Nat) :
    (State.spireDown s n).pending = s.pending ∧ (State.spireDown s n).store.svn = s.store.svn := by
  simp [State.spireDown, modSpire_keeps, spireTasksOut_keeps]

theorem spireBlank_keeps (s : State) (n : Nat) :
    (State.spireBlank s n).pending = s.pending ∧ (State.spireBlank s n).store.svn = s.store.svn := by
  simp [State.spireBlank, modSpire_keeps]

theorem oculusFatal_keeps (s : State) (e cause : Nat) :
    (State.oculusFatal s e cause).pending = s.pending ∧ (State.oculusFatal s e cause).store.svn = s.store.svn := by
  unfold State.oculusFatal; (repeat' split) <;> simp_all [portsOut_keeps, modOculus_keeps, moveBypass_keeps, post_keeps,
      stationsDown_keeps]

theorem saveLog_keeps (s : State) (queues : Bool) :
    (State.saveLog s queues).pending = s.pending ∧ (State.saveLog s queues).store.svn = s.store.svn := by
  simp [State.saveLog, modFaults_keeps]

theorem recovery_keeps (s : State) (cause : Nat) :
    (State.recovery s cause).pending = s.pending ∧ (State.recovery s cause).store.svn = s.store.svn := by
  unfold State.recovery; (repeat' split) <;> simp_all [modMgmt_keeps, moveBypass_keeps, modFaults_keeps, postGlobal_keeps,
      saveLog_keeps, setFlag_keeps]

theorem setRole_keeps (s : State) (e r : Nat) :
    (State.setRole s e r).pending = s.pending ∧ (State.setRole s e r).store.svn = s.store.svn := by
  simp [State.setRole, setFld_keeps]

theorem belfryStop_keeps (s : State) (e cause : Nat) :
    (State.belfryStop s e cause).pending = s.pending ∧ (State.belfryStop s e cause).store.svn = s.store.svn := by
  grind [State.belfryStop, modBelfry_keeps, modMgmt_keeps, recovery_keeps, setRole_keeps, setFlag_keeps]

theorem restartWork_keeps (s : State) :
    (State.restartWork s).pending = s.pending ∧ (State.restartWork s).store.svn = s.store.svn := by
  simp [State.restartWork, modOptics_keeps]

theorem undoTick_keeps (s : State) :
    (State.undoTick s).pending = s.pending ∧ (State.undoTick s).store.svn = s.store.svn := by
  unfold State.undoTick; (repeat' split) <;> simp_all

theorem engineLost_keeps (s : State) :
    (State.engineLost s).pending = s.pending ∧ (State.engineLost s).store.svn = s.store.svn := by
  unfold State.engineLost; (repeat' split) <;> simp_all [put_keeps, setFlag_keeps, undoTick_keeps]

theorem enterHold_keeps (s : State) (e : Nat) :
    (State.enterHold s e).pending = s.pending ∧ (State.enterHold s e).store.svn = s.store.svn := by
  grind [State.enterHold, modBelfry_keeps, modMgmt_keeps, setFld_keeps, setRole_keeps, setFlag_keeps]

theorem takeOver_keeps (s : State) (e : Nat) :
    (State.takeOver s e).pending = s.pending ∧ (State.takeOver s e).store.svn = s.store.svn := by
  simp [State.takeOver, addSat_keeps, post_keeps, abortAll_keeps, restartWork_keeps, engineLost_keeps, bump_keeps,
      enterHold_keeps, ite_keeps]

theorem wantHalve_keeps (s : State) (e cause : Nat) :
    (State.wantHalve s e cause).pending = s.pending ∧ (State.wantHalve s e cause).store.svn = s.store.svn := by
  unfold State.wantHalve; (repeat' split) <;> simp_all [modMgmt_keeps]

theorem fencePlinth_keeps (s : State) (e cause : Nat) :
    (State.fencePlinth s e cause).pending = s.pending ∧ (State.fencePlinth s e cause).store.svn = s.store.svn := by
  simp [State.fencePlinth, modBelfry_keeps, modMgmt_keeps, modOculus_keeps, postGlobal_keeps, endReqs_keeps, gateOut_keeps,
      modPlinth_keeps, moveBypass_keeps, oculusDetoursLost_keeps, portsOut_keeps, recovery_keeps, setFlag_keeps, setFld_keeps,
          setRole_keeps, spireDown_keeps, stationsDown_keeps, westKeeps_keeps, foldl_keeps, ite_keeps]

theorem halveTick_keeps (s : State) :
    (State.halveTick s).pending = s.pending ∧ (State.halveTick s).store.svn = s.store.svn := by
  unfold State.halveTick; dsimp only; refine foldl_keeps _ _ _ ?_; intro p x; (repeat' split) <;> grind [State.halveTick, fencePlinth_keeps, modMgmt_keeps]

set_option maxRecDepth 2000 in
theorem bare_keeps (s : State) :
    (State.bare s).pending = s.pending ∧ (State.bare s).store.svn = s.store.svn := by
  simp [State.bare]

theorem moduleLose_keeps (s : State) :
    (State.moduleLose s).pending = s.pending ∧ (State.moduleLose s).store.svn = s.store.svn := by
  simp [State.moduleLose, bare_keeps]

theorem keepPins_keeps (s t : State) : (s.keepPins t).pending = t.pending ∧ (s.keepPins t).store.svn = t.store.svn := by
  unfold State.keepPins
  dsimp only
  refine keeps_trans (foldl_keeps _ _ _ fun u i => put_keeps _ _ _ _) ?_
  split <;> first | exact put_keeps _ _ _ _ | exact ⟨rfl, rfl⟩

theorem startUp_keeps (s : State) : s.startUp.pending = s.pending ∧ s.startUp.store.svn = s.store.svn := by
  have hb : ∀ (l : List Nat) (t : State),
      (l.foldl (fun s b => if s.flag Loc.glSbSts 1 (3 + b) ∧ s.bay b = 0 then s.setBay b 1 else s) t).pending =
      t.pending ∧ (l.foldl (fun s b => if s.flag Loc.glSbSts 1 (3 + b) ∧
          s.bay b = 0 then s.setBay b 1 else s) t).store.svn = t.store.svn := by
    intro l t
    refine foldl_keeps _ _ _ fun s b => ?_
    split
    · exact setBay_keeps _ _ _
    · exact ⟨rfl, rfl⟩
  have hf : ∀ (l : List Nat) (t : State),
      (l.foldl (fun s i => s.setFlag Loc.glTsVal 16 false i) t).pending = t.pending ∧
      (l.foldl (fun s i => s.setFlag Loc.glTsVal 16 false i) t).store.svn = t.store.svn := fun l t =>
    foldl_keeps _ _ _ fun s i => setFlag_keeps _ _ _ _ _
  have hc : ∀ (l : List Nat) (t : State),
      (l.foldl (fun s n => (s.setFld (Loc.spStackCap n) 9 0 64).setFld (Loc.spStackLimit n) 9 0 64) t).pending =
      t.pending ∧ (l.foldl (fun s n => (s.setFld (Loc.spStackCap n) 9 0 64).setFld (Loc.spStackLimit n) 9 0 64) t).store.svn = t.store.svn :=
    fun l t => foldl_keeps _ _ _ fun s n => keeps_trans (setFld_keeps _ _ _ _ _ _) (setFld_keeps _ _ _ _ _ _)
  unfold State.startUp
  dsimp only
  split <;> simp [hb, hf, hc, setBoot_keeps, setFlag_keeps, setFld_keeps, setRole_keeps, Store.promote]

theorem moduleReset_keeps (s : State) :
    (State.moduleReset s).pending = s.pending ∧ (State.moduleReset s).store.svn = s.store.svn := by
  grind [State.moduleReset, moduleLose_keeps, startUp_keeps]

theorem coldReset_keeps (s : State) :
    (State.coldReset s).pending = s.pending ∧ (State.coldReset s).store.svn = s.store.svn := by
  simp [State.coldReset, bare_keeps, keepPins_keeps, put_keeps, startUp_keeps, foldl_keeps, ite_keeps]

theorem powerFail_keeps (s : State) :
    (State.powerFail s).pending = s.pending ∧ (State.powerFail s).store.svn = s.store.svn := by
  simp [State.powerFail, bare_keeps, keepPins_keeps, postGlobal_keeps, saveLog_keeps, ite_keeps]

theorem railLog_keeps (s : State) (rail mv : Nat) :
    (State.railLog s rail mv).pending = s.pending ∧ (State.railLog s rail mv).store.svn = s.store.svn := by
  simp [State.railLog, bump_keeps, postGlobal_keeps]

theorem setLimit_keeps (s : State) (n : Nat) :
    (State.setLimit s n).pending = s.pending ∧ (State.setLimit s n).store.svn = s.store.svn := by
  simp [State.setLimit, setFld_keeps]

theorem setCaps_keeps (s : State) (w : Nat) :
    (State.setCaps s w).pending = s.pending ∧ (State.setCaps s w).store.svn = s.store.svn := by
  simp [State.setCaps, setFld_keeps, setLimit_keeps, foldl_keeps]

theorem designTick_keeps (s : State) :
    (State.designTick s).pending = s.pending ∧ (State.designTick s).store.svn = s.store.svn := by
  grind [State.designTick, setCaps_keeps]

theorem setGuard_keeps (s : State) (v : Nat) :
    (State.setGuard s v).pending = s.pending ∧ (State.setGuard s v).store.svn = s.store.svn := by
  simp [State.setGuard, bump_keeps, setFlag_keeps, setFld_keeps, setLimit_keeps, foldl_keeps]

theorem judgeGuard_keeps (s : State) (now : Nat) :
    (State.judgeGuard s now).pending = s.pending ∧ (State.judgeGuard s now).store.svn = s.store.svn := by
  simp [State.judgeGuard, modPower_keeps, setGuard_keeps, ite_keeps]

theorem inputSample_keeps (s : State) (v i : Nat) :
    (State.inputSample s v i).pending = s.pending ∧ (State.inputSample s v i).store.svn = s.store.svn := by
  simp [State.inputSample, judgeGuard_keeps, modPower_keeps, setFld_keeps]

theorem setRed_keeps (s : State) (u v : Nat) :
    (State.setRed s u v).pending = s.pending ∧ (State.setRed s u v).store.svn = s.store.svn := by
  unfold State.setRed; (repeat' split) <;> simp_all [bump_keeps, setFld_keeps, setLimit_keeps]

theorem failSensor_keeps (s : State) (i : Nat) :
    (State.failSensor s i).pending = s.pending ∧ (State.failSensor s i).store.svn = s.store.svn := by
  unfold State.failSensor; dsimp only; (repeat' split) <;> simp [postGlobal_keeps, setFlag_keeps, setRed_keeps,
      setFld_keeps, foldl_keeps, ite_keeps]

theorem gateTrip_keeps (s : State) (g : Nat) :
    (State.gateTrip s g).pending = s.pending ∧ (State.gateTrip s g).store.svn = s.store.svn := by
  unfold State.gateTrip; dsimp only; refine foldl_keeps _ _ _ ?_; intro p x; (repeat' split) <;> grind [State.gateTrip, gateDone_keeps, modGate_keeps, modPower_keeps]

theorem tripLog_keeps (s : State) (i : Nat) :
    (State.tripLog s i).pending = s.pending ∧ (State.tripLog s i).store.svn = s.store.svn := by
  simp [State.tripLog, postGlobal_keeps, addSat_keeps, bump_keeps]

theorem spireTrip_keeps (s : State) (n : Nat) :
    (State.spireTrip s n).pending = s.pending ∧ (State.spireTrip s n).store.svn = s.store.svn := by
  grind [State.spireTrip, modPower_keeps, spireDown_keeps, tripLog_keeps, spireBlank_keeps]

theorem tripSensor_keeps (s : State) (i : Nat) :
    (State.tripSensor s i).pending = s.pending ∧ (State.tripSensor s i).store.svn = s.store.svn := by
  simp [State.tripSensor, belfryStop_keeps, gateTrip_keeps, modPower_keeps, oculusFatal_keeps, spireTrip_keeps, tripLog_keeps,
      foldl_keeps, ite_keeps]

theorem showRate_keeps (s : State) (i : Nat) (r : Int) :
    (State.showRate s i r).pending = s.pending ∧ (State.showRate s i r).store.svn = s.store.svn := by
  unfold State.showRate; (repeat' split) <;> simp_all [setFld_keeps, draw_keeps]

theorem sampleSensor_keeps (s : State) (i : Nat) (t : Int) :
    (State.sampleSensor s i t).pending = s.pending ∧ (State.sampleSensor s i t).store.svn = s.store.svn := by
  grind [State.sampleSensor, bump_keeps, modPower_keeps, postGlobal_keeps, setFld_keeps, tripSensor_keeps, showRate_keeps]

theorem senseOne_keeps (s : State) (i : Nat) (x : Option Int) :
    (State.senseOne s i x).pending = s.pending ∧ (State.senseOne s i x).store.svn = s.store.svn := by
  unfold State.senseOne; (repeat' split) <;> simp_all [failSensor_keeps, sampleSensor_keeps]

theorem redRise_keeps (s : State) (u : Nat) :
    (State.redRise s u).pending = s.pending ∧ (State.redRise s u).store.svn = s.store.svn := by
  grind [State.redRise, modPower_keeps, setRed_keeps]

theorem coolDown_keeps (s : State) :
    (State.coolDown s).pending = s.pending ∧ (State.coolDown s).store.svn = s.store.svn := by
  simp [State.coolDown, modPower_keeps]

theorem redFall_keeps (s : State) (u : Nat) :
    (State.redFall s u).pending = s.pending ∧ (State.redFall s u).store.svn = s.store.svn := by
  unfold State.redFall; (repeat' split) <;> simp_all [modPower_keeps, setRed_keeps, ite_keeps]

end Sys2Proof.Machine
end

