-- ==== Sys2Proof/Laws/KeepPart.lean ====
section
/-! SUPPORT. What the shared operations leave alone: no operation of belfries, windows, partitions, faults, landings, resets, security and the start takes or adds a waiting command, and none
moves a minimum security version. -/

namespace Sys2Proof.Machine

theorem stuckHold_keeps (s : State) :
    (State.stuckHold s).pending = s.pending ∧ (State.stuckHold s).store.svn = s.store.svn := by
  simp [State.stuckHold, post_keeps, modMgmt_keeps, setFlag_keeps, foldl_keeps, ite_keeps]

theorem lineLow_keeps (s : State) (e ns : Nat) :
    (State.lineLow s e ns).pending = s.pending ∧ (State.lineLow s e ns).store.svn = s.store.svn := by
  simp [State.lineLow, modBelfry_keeps, stuckHold_keeps, ite_keeps]

theorem drivePulse_keeps (s : State) (i : Nat) (w : PulseSeen) :
    (State.drivePulse s i w).pending = s.pending ∧ (State.drivePulse s i w).store.svn = s.store.svn := by
  simp [State.drivePulse, bump_keeps, lineLow_keeps, post_keeps, modBelfry_keeps, setFlag_keeps, ite_keeps]

theorem sendLog_keeps (s : State) (e n : Nat) :
    (State.sendLog s e n).pending = s.pending ∧ (State.sendLog s e n).store.svn = s.store.svn := by
  simp [State.sendLog, bump_keeps, modMgmt_keeps, setFld_keeps, ite_keeps]

theorem logTick_keeps (s : State) (e : Nat) :
    (State.logTick s e).pending = s.pending ∧ (State.logTick s e).store.svn = s.store.svn := by
  simp [State.logTick, modMgmt_keeps, sendLog_keeps]

theorem bfCtlOp_keeps (s : State) (e : Nat) (v : Word) (uu : State) (h : State.bfCtlOp s e v = .ok uu) :
    (uu).pending = s.pending ∧ (uu).store.svn = s.store.svn := by
  simp [State.bfCtlOp] at h; grind [belfryStop_keeps, modBelfry_keeps, setRole_keeps]

theorem handoverTick_keeps (s : State) :
    (State.handoverTick s).pending = s.pending ∧ (State.handoverTick s).store.svn = s.store.svn := by
  unfold State.handoverTick; dsimp only; (repeat' split) <;> simp [bump_keeps, modBelfry_keeps, setRole_keeps, foldl_keeps,
      ite_keeps]

theorem healthTick_keeps (s : State) (o : FrameObs) :
    (State.healthTick s o).pending = s.pending ∧ (State.healthTick s o).store.svn = s.store.svn := by
  unfold State.healthTick; (repeat' split) <;> simp_all [logTick_keeps, put_keeps, setFlag_keeps]

theorem reportTick_keeps (s : State) (o : FrameObs) :
    (State.reportTick s o).pending = s.pending ∧ (State.reportTick s o).store.svn = s.store.svn := by
  grind [State.reportTick, post_keeps, modMgmt_keeps, setRole_keeps, setFlag_keeps]

theorem kickTick_keeps (s : State) :
    (State.kickTick s).pending = s.pending ∧ (State.kickTick s).store.svn = s.store.svn := by
  unfold State.kickTick; (repeat' split) <;> simp_all [modMgmt_keeps]

theorem sendMgmt_keeps (s : State) (e : Nat) (k : Pkt) : ((s.sendMgmt e k).1).pending = s.pending ∧
    ((s.sendMgmt e k).1).store.svn = s.store.svn := by
  have h1 := sealPkt_keeps1 s e true k
  have h2 := sealPkt_keeps2 s e true k
  unfold State.sendMgmt
  cases hs : s.sealPkt e true k with
  | sealed t x =>
    have q := h1 t x hs
    dsimp only
    split
    · rename_i h
      have := tryForward_keeps _ _ _ _ h
      exact ⟨this.1.trans q.1, this.2.trans q.2⟩
    · simp [ocEvent_keeps, q]
  | plain =>
    dsimp only
    split
    · rename_i h
      exact tryForward_keeps _ _ _ _ h
    · simp [ocEvent_keeps]
  | exhausted t =>
    have q := h2 t hs
    simp [ocEvent_keeps, q]

theorem sendBeats_keeps (s : State) :
    (State.sendBeats s).pending = s.pending ∧ (State.sendBeats s).store.svn = s.store.svn := by
  unfold State.sendBeats; dsimp only; refine foldl_keeps _ _ _ ?_; intro p x; (repeat' split) <;> grind [State.sendBeats, modMgmt_keeps, sendMgmt_keeps]

theorem takeMgmt_keeps (s : State) (k : Pkt) :
    ((State.takeMgmt s k).1).pending = s.pending ∧ ((State.takeMgmt s k).1).store.svn = s.store.svn := by
  grind [State.takeMgmt, mgmtDrop_keeps, openMgmt_keeps, takeHeld_keeps]

theorem mgmtReply_keeps (s : State) (k : Pkt) (st : Nat) (data : List Byte) :
    (State.mgmtReply s k st data).pending = s.pending ∧ (State.mgmtReply s k st data).store.svn = s.store.svn := by
  simp [State.mgmtReply, sendMgmt_keeps]

theorem holdPair_keeps (s : State) :
    (State.holdPair s).pending = s.pending ∧ (State.holdPair s).store.svn = s.store.svn := by
  simp [State.holdPair, modMgmt_keeps, setFlag_keeps]

theorem askPair_keeps (s : State) :
    (State.askPair s).pending = s.pending ∧ (State.askPair s).store.svn = s.store.svn := by
  grind [State.askPair, holdPair_keeps, modMgmt_keeps, sendMgmt_keeps]

theorem pairPulses_keeps (s : State) (seen : List Bool) :
    (State.pairPulses s seen).pending = s.pending ∧ (State.pairPulses s seen).store.svn = s.store.svn := by
  unfold State.pairPulses
  split
  · exact modMgmt_keeps _ _
  · refine foldl_keeps _ _ _ fun t ok => ?_
    dsimp only
    (repeat' split) <;> simp [modMgmt_keeps, post_keeps, setFlag_keeps]

theorem intlkStuck_keeps (s : State) (on : Bool) :
    (State.intlkStuck s on).pending = s.pending ∧ (State.intlkStuck s on).store.svn = s.store.svn := by
  grind [State.intlkStuck, post_keeps, setFlag_keeps]

theorem pairTick_keeps (s : State) (seen : List Bool) :
    (State.pairTick s seen).pending = s.pending ∧ (State.pairTick s seen).store.svn = s.store.svn := by
  unfold State.pairTick; dsimp only; (repeat' split) <;> simp [modMgmt_keeps, pairPulses_keeps, askPair_keeps,
      holdPair_keeps, intlkStuck_keeps, setFlag_keeps]

theorem touchLine_keeps (s : State) (e tag line : Nat) :
    (State.touchLine s e tag line).pending = s.pending ∧ (State.touchLine s e tag line).store.svn = s.store.svn := by
  simp [State.touchLine, modOculus_keeps]

theorem fillComb_keeps (s : State) (e : Nat) (c : Comb) :
    (State.fillComb s e c).pending = s.pending ∧ (State.fillComb s e c).store.svn = s.store.svn := by
  unfold State.fillComb
  split
  · cases h : s.closeComb e c with
    | none => exact ⟨rfl, rfl⟩
    | some u => exact closeComb_keeps _ _ _ _ h
  · exact ⟨rfl, rfl⟩

theorem joinComb_keeps (s : State) (e : Nat) (k : Pkt) (w : Nat) (uu : State) (h : State.joinComb s e k w = some uu) :
    (uu).pending = s.pending ∧ (uu).store.svn = s.store.svn := by
  grind [State.joinComb, fillComb_keeps, bump_keeps, modOculus_keeps, touchLine_keeps]

theorem takeReq_keeps (s : State) (e : Nat) (k : Pkt) (w : Nat) (uu : State) (h : State.takeReq s e k w = some uu) :
    (uu).pending = s.pending ∧ (uu).store.svn = s.store.svn := by
  unfold State.takeReq at h
  split at h
  · obtain ⟨r, hr, e⟩ := Option.map_eq_some_iff.mp h
    have := letIn_keeps _ _ _ _ _ r.1 r.2 hr
    rw [← e]
    split
    · exact this
    · exact keeps_trans (tellReq_keeps _ _ _ _ _ _) this
  · grind [State.joinComb, joinComb_keeps]

theorem request_keeps (s : State) (e : Nat) (k : Pkt) (op : Nat) :
    (s.request e k op).pending = s.pending ∧ (s.request e k op).store.svn = s.store.svn := by
  have h1 := fun t x h => checkReq_keeps1 (s.takeHeld k) e k t x h
  have h2 := fun t x h => checkReq_keeps2 (s.takeHeld k) e k t x h
  have h3 := fun t x w h => checkReq_keeps3 (s.takeHeld k) e k t x w h
  simp only [takeHeld_keeps] at h1 h2 h3
  unfold State.request
  dsimp only
  (repeat' split)
  · exact ⟨rfl, rfl⟩
  · exact passOn_keeps _ _ _ _
  · rename_i h; exact keeps_trans (settleAll_keeps _) (keeps_trans (answer_keeps _ _ _ _ _) (h1 _ _ h))
  · rename_i h _ _ h'; exact keeps_trans (settleAll_keeps _) (keeps_trans (takeReq_keeps _ _ _ _ _ h') (h2 _ _ h))
  · exact ⟨rfl, rfl⟩
  · rename_i h _ _ h'; exact keeps_trans (settleAll_keeps _) (keeps_trans (takeReq_keeps _ _ _ _ _ h') (h3 _ _ _ h))
  · exact ⟨rfl, rfl⟩

theorem openComp_keeps (s : State) (k : Pkt) (uu : State) (xx : Pkt) (h : State.openComp s k = some (uu, xx)) :
    (uu).pending = s.pending ∧ (uu).store.svn = s.store.svn := by
  grind [State.openComp, openPkt_keeps]

theorem completion_keeps (s : State) (e : Nat) (k : Pkt) :
    (State.completion s e k).pending = s.pending ∧ (State.completion s e k).store.svn = s.store.svn := by
  grind [State.completion, bump_keeps, openComp_keeps, comeBack_keeps, mcAnswer_keeps, ocEvent_keeps, passOn_keeps,
      takeHeld_keeps, settleAll_keeps]

theorem pendWindow_keeps (s : State) (i : Nat) (w : List Nat) :
    (State.pendWindow s i w).pending = s.pending ∧ (State.pendWindow s i w).store.svn = s.store.svn := by
  simp [State.pendWindow, pendWord_keeps, foldl_keeps]

theorem winDataOp_keeps (s : State) (k : Nat) (v : Word) (uu : State) (h : State.winDataOp s k v = .ok uu) :
    (uu).pending = s.pending ∧ (uu).store.svn = s.store.svn := by
  grind [State.winDataOp, put_keeps, pendWindow_keeps]

theorem winLoadOp_keeps (s : State) (f : Func) (v : Word) (uu : State) (h : State.winLoadOp s f v = .ok uu) :
    (uu).pending = s.pending ∧ (uu).store.svn = s.store.svn := by
  grind [State.winLoadOp, bulkStore_keeps, startLoad_keeps]

theorem winGot_keeps (s : State) (b : BulkLoad) (r : Option (List Nat)) :
    ((State.winGot s b r).1).pending = s.pending ∧ ((State.winGot s b r).1).store.svn = s.store.svn := by
  simp [State.winGot]; grind [settle_keeps]

theorem csValueOp_keeps (s : State) (e : Nat) (v : Word) (uu : State) (h : State.csValueOp s e v = .ok uu) :
    (uu).pending = s.pending ∧ (uu).store.svn = s.store.svn := by
  grind [State.csValueOp, setCount_keeps]

theorem dropSlots_keeps (s : State) (n : Nat) :
    (State.dropSlots s n).pending = s.pending ∧ (State.dropSlots s n).store.svn = s.store.svn := by
  simp [State.dropSlots, modSpire_keeps]

theorem failFrame_keeps (s : State) (p : Nat) :
    (State.failFrame s p).pending = s.pending ∧ (State.failFrame s p).store.svn = s.store.svn := by
  simp [State.failFrame, dropSlots_keeps, modPart_keeps, postGlobal_keeps, setPfState_keeps, showLate_keeps, seqSettle_keeps,
      setFld_keeps, foldl_keeps]

theorem slipFrame_keeps (s : State) (p : Nat) :
    (State.slipFrame s p).pending = s.pending ∧ (State.slipFrame s p).store.svn = s.store.svn := by
  simp [State.slipFrame, modSpire_keeps, modRun_keeps, postGlobal_keeps, foldl_keeps]

theorem startProg_keeps (s : State) (n first : Nat) :
    (State.startProg s n first).pending = s.pending ∧ (State.startProg s n first).store.svn = s.store.svn := by
  unfold State.startProg; (repeat' split) <;> simp_all [modSpire_keeps, put_keeps]

theorem frameRecord_keeps (s : State) (n : Nat) :
    (State.frameRecord s n).pending = s.pending ∧ (State.frameRecord s n).store.svn = s.store.svn := by
  simp [State.frameRecord, putLate_keeps, modSpire_keeps, showRecord_keeps]

theorem newFrame_keeps (s : State) (p : Nat) :
    (State.newFrame s p).pending = s.pending ∧ (State.newFrame s p).store.svn = s.store.svn := by
  simp [State.newFrame, modPart_keeps]

theorem advanceFrame_keeps (s : State) (p : Nat) :
    (s.advanceFrame p).pending = s.pending ∧ (s.advanceFrame p).store.svn = s.store.svn := by
  refine keeps_trans (foldl_keeps _ _ _ fun s n => ?_) (keeps_trans (newFrame_keeps _ _) (keeps_trans (addWrap_keeps _ _ _ _ _ _) (setPfState_keeps _ _ _)))
  split
  · exact ⟨rfl, rfl⟩
  · exact keeps_trans (startProg_keeps _ _ _) (frameRecord_keeps _ _)


theorem freshSeed_keeps (s : State) (n : Nat) :
    (State.freshSeed s n).pending = s.pending ∧ (State.freshSeed s n).store.svn = s.store.svn := by
  unfold State.freshSeed; (repeat' split) <;> simp_all [put64_keeps, draw_keeps]

theorem startPart_keeps (s : State) (p : Nat) (fresh : Bool) :
    (State.startPart s p fresh).pending = s.pending ∧ (State.startPart s p fresh).store.svn = s.store.svn := by
  simp [State.startPart, frameRecord_keeps, newFrame_keeps, put_keeps, freshSeed_keeps, modPart_keeps, setPfState_keeps,
      setFld_keeps, startProg_keeps, foldl_keeps, ite_keeps]

theorem stopPart_keeps (s : State) (p : Nat) :
    (State.stopPart s p).pending = s.pending ∧ (State.stopPart s p).store.svn = s.store.svn := by
  simp [State.stopPart, drainCheck_keeps, setFld_keeps, setPfState_keeps, showLate_keeps, foldl_keeps, ite_keeps]

theorem partCutoff_keeps (s : State) (p : Nat) (stop : Bool) :
    (State.partCutoff s p stop).pending = s.pending ∧ (State.partCutoff s p stop).store.svn = s.store.svn := by
  grind [State.partCutoff, modPart_keeps, setFld_keeps, setPfState_keeps]

theorem partTick_keeps (s : State) (p cmd : Nat) :
    (State.partTick s p cmd).pending = s.pending ∧ (State.partTick s p cmd).store.svn = s.store.svn := by
  grind [State.partTick, advanceFrame_keeps, failFrame_keeps, modPart_keeps, slipFrame_keeps, startPart_keeps, stopPart_keeps]

theorem logDrop_keeps (s : State) (cls : Nat) :
    (State.logDrop s cls).pending = s.pending ∧ (State.logDrop s cls).store.svn = s.store.svn := by
  unfold State.logDrop; (repeat' split) <;> simp_all [addSat_keeps]

theorem logAppend_keeps (s : State) (e : ErrEntry) :
    (State.logAppend s e).pending = s.pending ∧ (State.logAppend s e).store.svn = s.store.svn := by
  grind [State.logAppend, irq_keeps, logDrop_keeps, modFaults_keeps, pendField_keeps]

theorem logEntry_keeps (s : State) (e : ErrEntry) :
    (State.logEntry s e).pending = s.pending ∧ (State.logEntry s e).store.svn = s.store.svn := by
  unfold State.logEntry; (repeat' split) <;> simp_all [managed_keeps, logAppend_keeps, modFaults_keeps]

theorem logAckOp_keeps (s : State) (v : Word) (uu : State) (h : State.logAckOp s v = .ok uu) :
    (uu).pending = s.pending ∧ (uu).store.svn = s.store.svn := by
  grind [State.logAckOp, modFaults_keeps, setFlag_keeps]

theorem txnTimeout_keeps (s : State) (t : Txn) :
    (State.txnTimeout s t).pending = s.pending ∧ (State.txnTimeout s t).store.svn = s.store.svn := by
  unfold State.txnTimeout; dsimp only; (repeat' split) <;> simp [dropTxn_keeps, finishTxn_keeps, partAnswer_keeps,
      postGlobal_keeps, foldl_keeps]

theorem callTimeout_keeps (s : State) (c : Call) :
    (State.callTimeout s c).pending = s.pending ∧ (State.callTimeout s c).store.svn = s.store.svn := by
  simp [State.callTimeout, answerCall_keeps, postGlobal_keeps]

theorem msgTimeout_keeps (s : State) (n id : Nat) (m : OutMsg) :
    (State.msgTimeout s n id m).pending = s.pending ∧ (State.msgTimeout s n id m).store.svn = s.store.svn := by
  simp [State.msgTimeout, msgAnswer_keeps, postGlobal_keeps, foldl_keeps]

theorem zoneDataOp_keeps (s : State) (n k : Nat) (v : Word) (uu : State) (h : State.zoneDataOp s n k v = .ok uu) :
    (uu).pending = s.pending ∧ (uu).store.svn = s.store.svn := by
  unfold State.zoneDataOp at h; dsimp only at h; (repeat' split at h) <;> first | contradiction | (simp at h; subst h; simp [pendWord_keeps, put_keeps, foldl_keeps]) | grind [pendWord_keeps, put_keeps, foldl_keeps, foldl_keeps1, ite_keeps, ite_fst, ite_snd]

theorem xmapDataOp_keeps (s : State) (n : Nat) (v : Word) (uu : State) (h : State.xmapDataOp s n v = .ok uu) :
    (uu).pending = s.pending ∧ (uu).store.svn = s.store.svn := by
  grind [State.xmapDataOp, autoInc_keeps, pendWord_keeps]

theorem xmapLoadOp_keeps (s : State) (f : Func) (n : Nat) (v : Word) (uu : State) (h : State.xmapLoadOp s f n v = .ok uu) :
    (uu).pending = s.pending ∧ (uu).store.svn = s.store.svn := by
  grind [State.xmapLoadOp, bulkStore_keeps, startLoad_keeps]

theorem xmapGot_keeps (s : State) (n : Nat) (b : BulkLoad) (r : Option (List Nat)) :
    ((State.xmapGot s n b r).1).pending = s.pending ∧ ((State.xmapGot s n b r).1).store.svn = s.store.svn := by
  simp [State.xmapGot]; grind [settle_keeps]

theorem answerPart_keeps (s : State) (n : Nat) (m : MsgPart) (st : Nat) :
    (State.answerPart s n m st).pending = s.pending ∧ (State.answerPart s n m st).store.svn = s.store.svn := by
  grind [State.answerPart, msgAnswer_keeps]

theorem resetCtlOp_keeps (s : State) (v : Word) (uu : State) (h : State.resetCtlOp s v = .ok uu) :
    (uu).pending = s.pending ∧ (uu).store.svn = s.store.svn := by
  grind [State.resetCtlOp, coldReset_keeps, modFaults_keeps, moduleReset_keeps, put_keeps]

theorem resetCmd_keeps (s : State) (f : Func) (v : Word) (scope : Nat) :
    (State.resetCmd s f v scope).pending = s.pending ∧ (State.resetCmd s f v scope).store.svn = s.store.svn := by
  unfold State.resetCmd; dsimp only; exact write_keeps _ _ _ _ _ (fun t h => by grind [put_keeps, resetCtlOp_keeps,
      write_keeps])

theorem resetPart_keeps (s : State) (p : Nat) :
    (State.resetPart s p).pending = s.pending ∧ (State.resetPart s p).store.svn = s.store.svn := by
  simp [State.resetPart, dropSlots_keeps, failFrame_keeps, setPfState_keeps, foldl_keeps, ite_keeps]

theorem spireReset_keeps (s : State) (n : Nat) :
    (State.spireReset s n).pending = s.pending ∧ (State.spireReset s n).store.svn = s.store.svn := by
  simp [State.spireReset, modSpire_keeps, clearReg_keeps, drainSpire_keeps, put_keeps, setFlag_keeps, stationsDown_keeps,
      foldl_keeps]

theorem clearPartTags_keeps (s : State) (p : Nat) :
    (State.clearPartTags s p).pending = s.pending ∧ (State.clearPartTags s p).store.svn = s.store.svn := by
  simp [State.clearPartTags]

theorem gateReset_keeps (s : State) (g : Nat) :
    (State.gateReset s g).pending = s.pending ∧ (State.gateReset s g).store.svn = s.store.svn := by
  simp [State.gateReset, gateDone_keeps, modGate_keeps, setFlag_keeps, writeBack_keeps, foldl_keeps]

theorem maskPlinth_keeps (s : State) (e : Nat) :
    (State.maskPlinth s e).pending = s.pending ∧ (State.maskPlinth s e).store.svn = s.store.svn := by
  simp [State.maskPlinth, setFld_keeps, foldl_keeps, ite_keeps]

theorem unmaskPlinth_keeps (s : State) (e : Nat) :
    (State.unmaskPlinth s e).pending = s.pending ∧ (State.unmaskPlinth s e).store.svn = s.store.svn := by
  simp [State.unmaskPlinth, unmask_keeps, foldl_keeps, ite_keeps]

theorem resetEffect_keeps (s : State) (r : Reset) :
    (State.resetEffect s r).pending = s.pending ∧ (State.resetEffect s r).store.svn = s.store.svn := by
  unfold State.resetEffect; (repeat' split) <;> simp_all [clearPartTags_keeps, retrainPort_keeps, abortMbox_keeps,
      failPort_keeps, gateReset_keeps, maskPlinth_keeps, modFaults_keeps, resetPart_keeps, spireReset_keeps, setFld_keeps,
          foldl_keeps]

theorem plinthBack_keeps (s : State) (r : Reset) :
    (State.plinthBack s r).pending = s.pending ∧ (State.plinthBack s r).store.svn = s.store.svn := by
  simp [State.plinthBack, applyHeld_keeps, modFaults_keeps, modGate_keeps, modOculus_keeps, modPlinth_keeps, modSpire_keeps,
      setFld_keeps, unmaskPlinth_keeps, foldl_keeps]

theorem resetTick_keeps (s : State) :
    s.resetTick.pending = s.pending ∧ s.resetTick.store.svn = s.store.svn := by
  have h1 : ∀ (l : List Reset) (t : State), (l.foldl (fun s r => s.resetEffect r) t).pending = t.pending ∧
      (l.foldl (fun s r => s.resetEffect r) t).store.svn = t.store.svn := fun l t => foldl_keeps State.resetEffect l t resetEffect_keeps
  have h2 : ∀ (l : List Reset) (t : State), (l.foldl (fun s r => s.plinthBack r) t).pending = t.pending ∧
      (l.foldl (fun s r => s.plinthBack r) t).store.svn = t.store.svn := fun l t => foldl_keeps State.plinthBack l t plinthBack_keeps
  unfold State.resetTick
  exact keeps_trans (h2 _ _) (h1 _ _)

theorem resetCutoff_keeps (s : State) :
    (State.resetCutoff s).pending = s.pending ∧ (State.resetCutoff s).store.svn = s.store.svn := by
  simp [State.resetCutoff, modFaults_keeps]

theorem linksReset_keeps (s : State) (e : Nat) :
    (s.linksReset e).pending = s.pending ∧ (s.linksReset e).store.svn = s.store.svn := by
  refine keeps_trans (foldl_keeps _ _ _ fun s x => ?_) ⟨rfl, rfl⟩
  refine foldl_keeps _ _ _ fun s h => ?_
  dsimp only
  split
  · exact ⟨rfl, rfl⟩
  · exact endReq_keeps _ _ _ _

theorem txnReset_keeps (s : State) (e : Nat) (t : Txn) :
    (State.txnReset s e t).pending = s.pending ∧ (State.txnReset s e t).store.svn = s.store.svn := by
  unfold State.txnReset; (repeat' split) <;> simp_all [finishTxn_keeps, fopDone_keeps, partAnswer_keeps, foldl_keeps]

theorem plinthAssert_keeps (s : State) (e : Nat) :
    (State.plinthAssert s e).pending = s.pending ∧ (State.plinthAssert s e).store.svn = s.store.svn := by
  simp [State.plinthAssert, linksReset_keeps, belfryStop_keeps, clearTag_keeps, drainSpire_keeps, endReqs_keeps,
      gateReset_keeps, modFaults_keeps, modGate_keeps, modOculus_keeps, modPlinth_keeps, modSpire_keeps, moveBypass_keeps,
          oculusDetoursLost_keeps, portsOut_keeps, txnReset_keeps, stationsDown_keeps, westKeeps_keeps, foldl_keeps, ite_keeps]

theorem spireBack_keeps (s : State) (n : Nat) (t : SpireTest) :
    (State.spireBack s n t).pending = s.pending ∧ (State.spireBack s n t).store.svn = s.store.svn := by
  simp [State.spireBack, buildMap_keeps, modSpire_keeps, startTest_keeps, ite_keeps]

theorem resetFailed_keeps (s : State) :
    (State.resetFailed s).pending = s.pending ∧ (State.resetFailed s).store.svn = s.store.svn := by
  simp [State.resetFailed, setFlag_keeps]

theorem layDiscard_keeps (s : State) :
    (State.layDiscard s).pending = s.pending ∧ (State.layDiscard s).store.svn = s.store.svn := by
  simp [State.layDiscard, modSec_keeps]

theorem layCtlOp_keeps (s : State) (v : Word) (uu : State) (h : State.layCtlOp s v = .ok uu) :
    (uu).pending = s.pending ∧ (uu).store.svn = s.store.svn := by
  grind [State.layCtlOp, bump_keeps, layDiscard_keeps, modSec_keeps]

theorem laySpiresOp_keeps (s : State) (v : Word) (uu : State) (h : State.laySpiresOp s v = .ok uu) :
    (uu).pending = s.pending ∧ (uu).store.svn = s.store.svn := by
  grind [State.laySpiresOp, modSec_keeps]

theorem layTagsOp_keeps (s : State) (v : Word) (uu : State) (h : State.layTagsOp s v = .ok uu) :
    (uu).pending = s.pending ∧ (uu).store.svn = s.store.svn := by
  grind [State.layTagsOp, modSec_keeps]

theorem granOwnerOp_keeps (s : State) (v : Word) (uu : State) (h : State.granOwnerOp s v = .ok uu) :
    (uu).pending = s.pending ∧ (uu).store.svn = s.store.svn := by
  grind [State.granOwnerOp, autoInc_keeps, modSec_keeps]

theorem layFlagsOp_keeps (s : State) (v : Word) (uu : State) (h : State.layFlagsOp s v = .ok uu) :
    (uu).pending = s.pending ∧ (uu).store.svn = s.store.svn := by
  grind [State.layFlagsOp, pendField_keeps]

theorem dropTagKeys_keeps (s : State) (tag : Nat) :
    (State.dropTagKeys s tag).pending = s.pending ∧ (State.dropTagKeys s tag).store.svn = s.store.svn := by
  simp [State.dropTagKeys, setFld_keeps]

theorem loseTag_keeps (s : State) (tag : Nat) :
    (State.loseTag s tag).pending = s.pending ∧ (State.loseTag s tag).store.svn = s.store.svn := by
  simp [State.loseTag, modSec_keeps, dropTagKeys_keeps]

theorem openSession_keeps (s : State) (p : Nat) :
    (State.openSession s p).pending = s.pending ∧ (State.openSession s p).store.svn = s.store.svn := by
  simp [State.openSession, draw_keeps, modSec_keeps, setFlag_keeps]

theorem closeSession_keeps (s : State) (p : Nat) (keep : Bool) :
    (State.closeSession s p keep).pending = s.pending ∧ (State.closeSession s p keep).store.svn = s.store.svn := by
  unfold State.closeSession; dsimp only; (repeat' split) <;> simp [dropTagKeys_keeps, modSec_keeps, setFlag_keeps,
      foldl_keeps, ite_keeps]

theorem destroyKeys_keeps (s : State) :
    (State.destroyKeys s).pending = s.pending ∧ (State.destroyKeys s).store.svn = s.store.svn := by
  simp [State.destroyKeys]

theorem tagMove_keeps (s : State) (a b : Layout) (tag : Nat) :
    (State.tagMove s a b tag).pending = s.pending ∧ (State.tagMove s a b tag).store.svn = s.store.svn := by
  grind [State.tagMove, clearTag_keeps, loseTag_keeps, setFld_keeps]

theorem spireMove_keeps (s : State) (n : Nat) :
    (State.spireMove s n).pending = s.pending ∧ (State.spireMove s n).store.svn = s.store.svn := by
  unfold State.spireMove; dsimp only; refine foldl_keeps _ _ _ ?_; intro p x; dsimp only; (repeat' split) <;> simp [put_keeps]

theorem windowsCheck_keeps (s : State) :
    (State.windowsCheck s).pending = s.pending ∧ (State.windowsCheck s).store.svn = s.store.svn := by
  unfold State.windowsCheck; dsimp only; (repeat' split) <;> simp [setFlag_keeps, foldl_keeps, ite_keeps]

theorem layoutEffect_keeps (s : State) (l : Layout) (sealed : List Nat) :
    (State.layoutEffect s l sealed).pending = s.pending ∧
        (State.layoutEffect s l sealed).store.svn = s.store.svn := by
  simp [State.layoutEffect, managed_keeps, closeSession_keeps, openSession_keeps, spireMove_keeps, tagMove_keeps,
      windowsCheck_keeps, foldl_keeps]

theorem sessionTick_keeps (s : State) (sealed : List Nat) :
    (State.sessionTick s sealed).pending = s.pending ∧ (State.sessionTick s sealed).store.svn = s.store.svn := by
  unfold State.sessionTick; dsimp only; (repeat' split) <;> simp [openSession_keeps, closeSession_keeps, modSec_keeps,
      foldl_keeps, ite_keeps]

theorem layTick_keeps (s : State) (go : Bool) (sealed : List Nat) :
    (State.layTick s go sealed).pending = s.pending ∧ (State.layTick s go sealed).store.svn = s.store.svn := by
  unfold State.layTick; (repeat' split) <;> simp_all [destroyKeys_keeps, modSec_keeps, layoutEffect_keeps, sessionTick_keeps]

theorem keyTick_keeps (s : State) :
    (State.keyTick s).pending = s.pending ∧ (State.keyTick s).store.svn = s.store.svn := by
  simp [State.keyTick, setFld_keeps]

theorem releaseTick_keeps (s : State) :
    (State.releaseTick s).pending = s.pending ∧ (State.releaseTick s).store.svn = s.store.svn := by
  unfold State.releaseTick; dsimp only; (repeat' split) <;> simp [clearTag_keeps, setFlag_keeps, foldl_keeps, ite_keeps]

theorem seClaimOp_keeps (s : State) (f : Func) (v : Word) (uu : State) (h : State.seClaimOp s f v = .ok uu) :
    (uu).pending = s.pending ∧ (uu).store.svn = s.store.svn := by
  grind [State.seClaimOp, modSec_keeps, setFld_keeps]

theorem seStsOp_keeps (s : State) (v : Word) (uu : State) (h : State.seStsOp s v = .ok uu) :
    (uu).pending = s.pending ∧ (uu).store.svn = s.store.svn := by
  grind [State.seStsOp, setFlag_keeps, setFld_keeps]

theorem seInputOp_keeps (s : State) (f : Func) (loc : Loc) (v : Word) (uu : State) (h : State.seInputOp s f loc v = .ok uu) :
    (uu).pending = s.pending ∧ (uu).store.svn = s.store.svn := by
  grind [State.seInputOp, plainWrite_keeps]

theorem tickCommand_keeps (s : State) (r : SeRun) :
    ((State.tickCommand s r).2).pending = s.pending ∧ ((State.tickCommand s r).2).store.svn = s.store.svn := by
  grind [State.tickCommand, modSec_keeps, setKey_keeps]

theorem seCmdOp_keeps (s : State) (f : Func) (v : Word) (uu : State) (h : State.seCmdOp s f v = .ok uu) :
    (uu).pending = s.pending ∧ (uu).store.svn = s.store.svn := by
  grind [State.seCmdOp, bump_keeps, setFlag_keeps, modSec_keeps, tickCommand_keeps]

theorem seCmd_keeps (s : State) (f : Func) (v : Word) (cmd : Nat) :
    (State.seCmd s f v cmd).pending = s.pending ∧ (State.seCmd s f v cmd).store.svn = s.store.svn := by
  unfold State.seCmd; dsimp only; exact write_keeps _ _ _ _ _ (fun t h => by grind [seCmdOp_keeps, write_keeps, put_keeps])

theorem seBytes_keeps (s : State) (f : Func) (v : Word) (cmd bytes : Nat) :
    (State.seBytes s f v cmd bytes).pending = s.pending ∧
        (State.seBytes s f v cmd bytes).store.svn = s.store.svn := by
  simp [State.seBytes, seCmd_keeps, write_keeps, ite_keeps]

theorem installKey_keeps (s : State) (i : Nat) (mgmt : Bool) (tag peer : Nat) (tx rx : BitVec 256) (due : Bool) :
    (State.installKey s i mgmt tag peer tx rx due).pending = s.pending ∧
        (State.installKey s i mgmt tag peer tx rx due).store.svn = s.store.svn := by
  simp [State.installKey, managed_keeps, setKey_keeps]

theorem firstTrust_keeps (s : State) (peer : Nat) (b : List Byte) :
    (State.firstTrust s peer b).pending = s.pending ∧ (State.firstTrust s peer b).store.svn = s.store.svn := by
  simp [State.firstTrust, post_keeps, put_keeps, setFlag_keeps, foldl_keeps, ite_keeps]

theorem kxSeed_keeps (s : State) :
    ((State.kxSeed s).2).pending = s.pending ∧ ((State.kxSeed s).2).store.svn = s.store.svn := by
  simp [State.kxSeed]

theorem kxOffer_keeps (s : State) (r : SeRun) (tag : Nat) :
    (State.kxOffer s r tag).pending = s.pending ∧ (State.kxOffer s r tag).store.svn = s.store.svn := by
  simp [State.kxOffer, modSec_keeps, kxSeed_keeps]

theorem kxAnswer_keeps (s : State) (r : SeRun) (tag i : Nat) :
    (State.kxAnswer s r tag i).pending = s.pending ∧ (State.kxAnswer s r tag i).store.svn = s.store.svn := by
  simp [State.kxAnswer, modSec_keeps, installKey_keeps, firstTrust_keeps, kxSeed_keeps, ite_keeps]

theorem kxInstall_keeps (s : State) (r : SeRun) (o : KxOffer) (tag i : Nat) :
    (State.kxInstall s r o tag i).pending = s.pending ∧ (State.kxInstall s r o tag i).store.svn = s.store.svn := by
  simp [State.kxInstall, firstTrust_keeps, installKey_keeps, ite_keeps]

theorem kxDone_keeps (s : State) (r : SeRun) :
    ((State.kxDone s r).2).pending = s.pending ∧ ((State.kxDone s r).2).store.svn = s.store.svn := by
  unfold State.kxDone; dsimp only; (repeat' split) <;> simp [kxAnswer_keeps, kxInstall_keeps, kxOffer_keeps, modSec_keeps]

theorem doneIrq_keeps (s : State) :
    (State.doneIrq s).pending = s.pending ∧ (State.doneIrq s).store.svn = s.store.svn := by
  grind [State.doneIrq, irq_keeps]

theorem trustSelOp_keeps (s : State) (v : Word) (uu : State) (h : State.trustSelOp s v = .ok uu) :
    (uu).pending = s.pending ∧ (uu).store.svn = s.store.svn := by
  grind [State.trustSelOp, put_keeps, setFlag_keeps]

theorem reportNote_keeps (s : State) :
    (State.reportNote s).pending = s.pending ∧ (State.reportNote s).store.svn = s.store.svn := by
  simp [State.reportNote, modSec_keeps]

theorem reportAll_keeps (s : State) (req : Nat) (nonce : List Byte) :
    ((State.reportAll s req nonce).2).pending = s.pending ∧
        ((State.reportAll s req nonce).2).store.svn = s.store.svn := by
  simp [State.reportAll, draw_keeps]

theorem reportCount_keeps (s : State) :
    (State.reportCount s).pending = s.pending ∧ (State.reportCount s).store.svn = s.store.svn := by
  simp [State.reportCount, bump_keeps, addWrap_keeps]

theorem attCmdOp_keeps (s : State) (f : Func) (v : Word) (uu : State) (h : State.attCmdOp s f v = .ok uu) :
    (uu).pending = s.pending ∧ (uu).store.svn = s.store.svn := by
  grind [State.attCmdOp, modSec_keeps, setFlag_keeps]

theorem doe_keeps (s : State) (f : Func) (need : Nat) (ok : State → Nat → State)
    (h : ∀ s i, (ok s i).pending = s.pending ∧ (ok s i).store.svn = s.store.svn) :
    (s.doe f need ok).pending = s.pending ∧ (s.doe f need ok).store.svn = s.store.svn := by
  unfold State.doe
  (repeat' split) <;> simp [h]

theorem startCode_keeps (s : State) (cls code unit info : Nat) :
    (State.startCode s cls code unit info).pending = s.pending ∧
        (State.startCode s cls code unit info).store.svn = s.store.svn := by
  simp [State.startCode, postGlobal_keeps, setFld_keeps]

theorem beginStep_keeps (s : State) (n : Nat) :
    (State.beginStep s n).pending = s.pending ∧ (State.beginStep s n).store.svn = s.store.svn := by
  simp [State.beginStep, setBoot_keeps]

theorem haltStart_keeps (s : State) :
    (State.haltStart s).pending = s.pending ∧ (State.haltStart s).store.svn = s.store.svn := by
  simp [State.haltStart, setBoot_keeps]

theorem restoreLog_keeps (s : State) :
    (State.restoreLog s).pending = s.pending ∧ (State.restoreLog s).store.svn = s.store.svn := by
  simp [State.restoreLog, modFaults_keeps, setFlag_keeps]

theorem bootEast_keeps (s : State) (west : Bool) :
    (State.bootEast s west).pending = s.pending ∧ (State.bootEast s west).store.svn = s.store.svn := by
  unfold State.bootEast; (repeat' split) <;> simp_all [enterHold_keeps, restoreLog_keeps, railsOn_keeps, beginStep_keeps,
      setRole_keeps, setFlag_keeps]

theorem bootWest_keeps (s : State) :
    (State.bootWest s).pending = s.pending ∧ (State.bootWest s).store.svn = s.store.svn := by
  grind [State.bootWest, restoreLog_keeps, railsOn_keeps, beginStep_keeps, setRole_keeps, waitUntil_keeps, takeOver_keeps]

theorem recoveryBoot_keeps (s : State) (type check : Nat) :
    (State.recoveryBoot s type check).pending = s.pending ∧
        (State.recoveryBoot s type check).store.svn = s.store.svn := by
  simp [State.recoveryBoot, haltStart_keeps, setFlag_keeps, setRole_keeps, startCode_keeps]

theorem fuseFail_keeps (s : State) (block : Nat) :
    (State.fuseFail s block).pending = s.pending ∧ (State.fuseFail s block).store.svn = s.store.svn := by
  simp [State.fuseFail, haltStart_keeps, startCode_keeps]

theorem groupTest_keeps (s : State) (st g failed : Nat) :
    (State.groupTest s st g failed).pending = s.pending ∧
        (State.groupTest s st g failed).store.svn = s.store.svn := by
  unfold State.groupTest; (repeat' split) <;> simp_all [setFld_keeps, stationLoss_keeps]

theorem groupDiff_keeps (s : State) (st g : Nat) :
    (State.groupDiff s st g).pending = s.pending ∧ (State.groupDiff s st g).store.svn = s.store.svn := by
  simp [State.groupDiff, post_keeps, setFlag_keeps]

theorem seamTestStart_keeps (s : State) (p failed : Nat) :
    (State.seamTestStart s p failed).pending = s.pending ∧
        (State.seamTestStart s p failed).store.svn = s.store.svn := by
  simp [State.seamTestStart, setFld_keeps]

theorem seamDiffStart_keeps (s : State) (p : Nat) :
    (State.seamDiffStart s p).pending = s.pending ∧ (State.seamDiffStart s p).store.svn = s.store.svn := by
  simp [State.seamDiffStart, post_keeps, setFlag_keeps]

theorem plinthsUp_keeps (s : State) :
    (State.plinthsUp s).pending = s.pending ∧ (State.plinthsUp s).store.svn = s.store.svn := by
  simp [State.plinthsUp]

theorem dieUnlocked_keeps (s : State) (i : Nat) :
    (State.dieUnlocked s i).pending = s.pending ∧ (State.dieUnlocked s i).store.svn = s.store.svn := by
  simp [State.dieUnlocked, belfryStop_keeps, fencePlinth_keeps, modGate_keeps, oculusFatal_keeps, spireDown_keeps, ite_keeps]

theorem lanesStep_keeps (s : State) (r : StepResult) :
    (State.lanesStep s r).pending = s.pending ∧ (State.lanesStep s r).store.svn = s.store.svn := by
  simp [State.lanesStep, dieUnlocked_keeps, groupDiff_keeps, groupTest_keeps, modSpire_keeps, plinthsUp_keeps, beginStep_keeps,
      seamDiffStart_keeps, seamLost_keeps, seamTestStart_keeps, startTest_keeps, stationLoss_keeps, foldl_keeps, ite_keeps]

theorem darkStart_keeps (s : State) (e : Nat) :
    (State.darkStart s e).pending = s.pending ∧ (State.darkStart s e).store.svn = s.store.svn := by
  unfold State.darkStart; (repeat' split) <;> simp_all [fencePlinth_keeps, post_keeps, swapSide_keeps]

theorem lightLimit_keeps (s : State) :
    (State.lightLimit s).pending = s.pending ∧ (State.lightLimit s).store.svn = s.store.svn := by
  grind [State.lightLimit, startCode_keeps, beginStep_keeps, darkStart_keeps, haltStart_keeps]

theorem startRow_keeps (s : State) (st p : Nat) (rx : Bool) (w : SweptRow) :
    (State.startRow s st p rx w).pending = s.pending ∧ (State.startRow s st p rx w).store.svn = s.store.svn := by
  simp [State.startRow, post_keeps, sweptRow_keeps, ite_keeps]

theorem rowStart_keeps (s : State) (st p : Nat) (r : Sweep) :
    (State.rowStart s st p r).pending = s.pending ∧ (State.rowStart s st p r).store.svn = s.store.svn := by
  grind [State.rowStart, maskRow_keeps, startRow_keeps]

theorem trainStep_keeps (s : State) (r : StepResult) :
    (State.trainStep s r).pending = s.pending ∧ (State.trainStep s r).store.svn = s.store.svn := by
  simp [State.trainStep, beginStep_keeps, modOculus_keeps, modOptics_keeps, rowStart_keeps, foldl_keeps]

theorem repairStart_keeps (s : State) (g : Nat) (ok : List Nat) :
    (State.repairStart s g ok).pending = s.pending ∧ (State.repairStart s g ok).store.svn = s.store.svn := by
  simp [State.repairStart, modGate_keeps, showStore_keeps]

theorem memoryStep_keeps (s : State) (r : StepResult) :
    (State.memoryStep s r).pending = s.pending ∧ (State.memoryStep s r).store.svn = s.store.svn := by
  simp [State.memoryStep, beginStep_keeps, channelFail_keeps, modGate_keeps, put_keeps, repairStart_keeps, foldl_keeps, ite_keeps]

theorem openFabric_keeps (s : State) :
    (State.openFabric s).pending = s.pending ∧ (State.openFabric s).store.svn = s.store.svn := by
  simp [State.openFabric, moveBypass_keeps, pump_keeps, foldl_keeps, ite_keeps]

theorem saveJoin_keeps (s : State) :
    (State.saveJoin s).pending = s.pending ∧ (State.saveJoin s).store.svn = s.store.svn := by
  simp [State.saveJoin]

theorem loadJoin_keeps (s : State) :
    (State.loadJoin s).pending = s.pending ∧ (State.loadJoin s).store.svn = s.store.svn := by
  simp [State.loadJoin, put_keeps, foldl_keeps]

theorem beginJoin_keeps (s : State) :
    (State.beginJoin s).pending = s.pending ∧ (State.beginJoin s).store.svn = s.store.svn := by
  grind [State.beginJoin, beginStep_keeps, openFabric_keeps, startJoin_keeps]

theorem mapStep_keeps (s : State) :
    (State.mapStep s).pending = s.pending ∧ (State.mapStep s).store.svn = s.store.svn := by
  simp [State.mapStep, buildMap_keeps, loadJoin_keeps, beginJoin_keeps, modSpire_keeps, setBoot_keeps, foldl_keeps, ite_keeps]

theorem startDone_keeps (s : State) :
    (State.startDone s).pending = s.pending ∧ (State.startDone s).store.svn = s.store.svn := by
  simp [State.startDone, setBoot_keeps]

theorem noImage_keeps (s : State) (r : StepResult) :
    (State.noImage s r).pending = s.pending ∧ (State.noImage s r).store.svn = s.store.svn := by
  unfold State.noImage; (repeat' split) <;> simp_all [recoveryBoot_keeps]

theorem stepEnd_keeps (s : State) (r : StepResult) :
    (State.stepEnd s r).pending = s.pending ∧ (State.stepEnd s r).store.svn = s.store.svn := by
  grind [State.stepEnd, openFabric_keeps, pass_keeps, beginStep_keeps, bootEast_keeps, fuseFail_keeps, lanesStep_keeps,
      mapStep_keeps, memoryStep_keeps, startDone_keeps, trainStep_keeps, waitUntil_keeps]

theorem stepLimitEnd_keeps (s : State) (r : StepResult) :
    (State.stepLimitEnd s r).pending = s.pending ∧ (State.stepLimitEnd s r).store.svn = s.store.svn := by
  grind [State.stepLimitEnd, postGlobal_keeps, bootEast_keeps, bootWest_keeps, fuseFail_keeps, lanesStep_keeps,
      lightLimit_keeps, mapStep_keeps, memoryStep_keeps, modTime_keeps, noImage_keeps, startCode_keeps, startDone_keeps,
          trainStep_keeps]

theorem startCtlOp_keeps (s : State) (v : Word) (uu : State) (h : State.startCtlOp s v = .ok uu) :
    (uu).pending = s.pending ∧ (uu).store.svn = s.store.svn := by
  grind [State.startCtlOp, beginJoin_keeps, saveJoin_keeps]

theorem fabIdOp_keeps (s : State) (v : Word) (uu : State) (h : State.fabIdOp s v = .ok uu) :
    (uu).pending = s.pending ∧ (uu).store.svn = s.store.svn := by
  grind [State.fabIdOp, put_keeps]

end Sys2Proof.Machine
end

