-- ==== Sys2Proof/Laws/KeepHost.lean ====
section
/-! SUPPORT. What the shared operations leave alone: no operation of mailboxes, sideband, registers, management, ticks and host windows takes or adds a waiting command, and none
moves a minimum security version. -/

namespace Sys2Proof.Machine

theorem mailReject_keeps (s : State) (m off : Nat) (len : Nat) :
    (State.mailReject s m off len).pending = s.pending ∧ (State.mailReject s m off len).store.svn = s.store.svn := by
  simp [State.mailReject, aerAbort_keeps, postGlobal_keeps, hostNotice_keeps]

theorem mbTxOp_keeps (s : State) (m : Nat) (v : Word) (uu : State) (h : State.mbTxOp s m v = .ok uu) :
    (uu).pending = s.pending ∧ (uu).store.svn = s.store.svn := by
  grind [State.mbTxOp, mailReject_keeps, modMbox_keeps]

theorem mailWidth_keeps (s : State) (f : Func) (m off bytes : Nat) (op : State → State)
    (h : (op s).pending = s.pending ∧ (op s).store.svn = s.store.svn) :
    (s.mailWidth f m off bytes op).pending = s.pending ∧ (s.mailWidth f m off bytes op).store.svn = s.store.svn := by
  unfold State.mailWidth
  (repeat' split) <;> simp [h, mailReject_keeps, aerAbort_keeps, postGlobal_keeps, reject_keeps]

theorem mbPopOp_keeps (s : State) (m : Nat) (v : Word) (uu : State) (h : State.mbPopOp s m v = .ok uu) :
    (uu).pending = s.pending ∧ (uu).store.svn = s.store.svn := by
  grind [State.mbPopOp, modMbox_keeps]

theorem flushUp_keeps (s : State) (m : Nat) :
    (State.flushUp s m).pending = s.pending ∧ (State.flushUp s m).store.svn = s.store.svn := by
  simp [State.flushUp, modMbox_keeps]

theorem flushDown_keeps (s : State) (m : Nat) :
    (State.flushDown s m).pending = s.pending ∧ (State.flushDown s m).store.svn = s.store.svn := by
  unfold State.flushDown; (repeat' split) <;> simp_all [hostNotice_keeps, modMbox_keeps]

theorem dropDown_keeps (s : State) (m : Nat) :
    (State.dropDown s m).pending = s.pending ∧ (State.dropDown s m).store.svn = s.store.svn := by
  simp [State.dropDown, modMbox_keeps]

theorem dropUp_keeps (s : State) (m : Nat) :
    (State.dropUp s m).pending = s.pending ∧ (State.dropUp s m).store.svn = s.store.svn := by
  simp [State.dropUp, modMbox_keeps]

theorem refuseHead_keeps (s : State) (m : Nat) :
    (State.refuseHead s m).pending = s.pending ∧ (State.refuseHead s m).store.svn = s.store.svn := by
  unfold State.refuseHead; (repeat' split) <;> simp_all [modMbox_keeps, ite_keeps]

theorem refuseUnknown_keeps (s : State) (m : Nat) :
    (State.refuseUnknown s m).pending = s.pending ∧ (State.refuseUnknown s m).store.svn = s.store.svn := by
  simp [State.refuseUnknown, refuseHead_keeps, foldl_keeps]

theorem mbCtlOp_keeps (s : State) (m : Nat) (v : Word) (uu : State) (h : State.mbCtlOp s m v = .ok uu) :
    (uu).pending = s.pending ∧ (uu).store.svn = s.store.svn := by
  grind [State.mbCtlOp, refuseUnknown_keeps, dropDown_keeps, flushUp_keeps, modMbox_keeps]

theorem mailTaken_keeps (s : State) (m n : Nat) :
    (State.mailTaken s m n).pending = s.pending ∧ (State.mailTaken s m n).store.svn = s.store.svn := by
  simp [State.mailTaken, modMbox_keeps]

theorem mailAnswer_keeps (s : State) (m cmd : Nat) (mid : BitVec 16) (status : Nat) (data : List Word) :
    (State.mailAnswer s m cmd mid status data).pending = s.pending ∧
        (State.mailAnswer s m cmd mid status data).store.svn = s.store.svn := by
  simp [State.mailAnswer, refuseUnknown_keeps, modMbox_keeps]

theorem mailServe_keeps (s : State) (m : Nat) (mid : BitVec 16) (cmd : Nat) (args : List Word) (run : State → Nat × List Word × State)
    (h : ∀ t, (run t).2.2.pending = t.pending ∧ (run t).2.2.store.svn = t.store.svn) :
    (s.mailServe m mid cmd args run).pending = s.pending ∧
        (s.mailServe m mid cmd args run).store.svn = s.store.svn := by
  unfold State.mailServe
  split
  · simp
  · rw [(mailAnswer_keeps _ _ _ _ _ _).1, (mailAnswer_keeps _ _ _ _ _ _).2]
    split <;> simp [h, mailTaken_keeps]

theorem resetHeld_keeps (s : State) :
    (State.resetHeld s).pending = s.pending ∧ (State.resetHeld s).store.svn = s.store.svn := by
  grind [State.resetHeld, moduleLose_keeps]

theorem resetFreed_keeps (s : State) :
    (State.resetFreed s).pending = s.pending ∧ (State.resetFreed s).store.svn = s.store.svn := by
  grind [State.resetFreed, startUp_keeps]

theorem bayPresent_keeps (s : State) (b : Nat) (there : Bool) :
    (State.bayPresent s b there).pending = s.pending ∧ (State.bayPresent s b there).store.svn = s.store.svn := by
  unfold State.bayPresent; (repeat' split) <;> simp_all [lanternRail_keeps, loseBay_keeps, setBay_keeps]

theorem intlkLevel_keeps (s : State) (high : Bool) :
    (State.intlkLevel s high).pending = s.pending ∧ (State.intlkLevel s high).store.svn = s.store.svn := by
  unfold State.intlkLevel; (repeat' split) <;> simp_all [intlkStuck_keeps, modMgmt_keeps]

theorem takeInput_keeps (s : State) (i : Nat) (high : Bool) :
    (State.takeInput s i high).pending = s.pending ∧ (State.takeInput s i high).store.svn = s.store.svn := by
  unfold State.takeInput; (repeat' split) <;> simp_all [bayFault_keeps, bayPresent_keeps, intlkLevel_keeps,
      resetFreed_keeps, resetHeld_keeps, setFlag_keeps]

theorem inputEdge_keeps (s : State) (i : Nat) (high : Bool) :
    (State.inputEdge s i high).pending = s.pending ∧ (State.inputEdge s i high).store.svn = s.store.svn := by
  grind [State.inputEdge, addSat_keeps, setFlag_keeps, takeInput_keeps]

theorem filteredEdge_keeps (s : State) (i : Nat) (high : Bool) :
    (State.filteredEdge s i high).pending = s.pending ∧ (State.filteredEdge s i high).store.svn = s.store.svn := by
  grind [State.filteredEdge, inputEdge_keeps, waitUntil_keeps]

theorem smbus_keeps (s : State) (b : List Byte) :
    (State.smbus s b).pending = s.pending ∧ (State.smbus s b).store.svn = s.store.svn := by
  simp [State.smbus]

theorem pageCtlOp_keeps (s : State) (page : Nat) (v : Word) (uu : State) (h : State.pageCtlOp s page v = .ok uu) :
    (uu).pending = s.pending ∧ (uu).store.svn = s.store.svn := by
  grind [State.pageCtlOp, plainWrite_keeps]

theorem pageLockOp_keeps (s : State) (f : Func) (page : Nat) (v : Word) (uu : State) (h : State.pageLockOp s f page v = .ok uu) :
    (uu).pending = s.pending ∧ (uu).store.svn = s.store.svn := by
  grind [State.pageLockOp, plainWrite_keeps]

theorem evcSelOp_keeps (s : State) (page off : Nat) (v : Word) (uu : State) (h : State.evcSelOp s page off v = .ok uu) :
    (uu).pending = s.pending ∧ (uu).store.svn = s.store.svn := by
  grind [State.evcSelOp, plainWrite_keeps]

theorem evcHighOp_keeps (s : State) (page k : Nat) (v : Word) (uu : State) (h : State.evcHighOp s page k v = .ok uu) :
    (uu).pending = s.pending ∧ (uu).store.svn = s.store.svn := by
  grind [State.evcHighOp]

theorem mgmtCfgOp_keeps (s : State) (v : Word) (uu : State) (h : State.mgmtCfgOp s v = .ok uu) :
    (uu).pending = s.pending ∧ (uu).store.svn = s.store.svn := by
  grind [State.mgmtCfgOp, plainWrite_keeps]

theorem mgmtHbOp_keeps (s : State) (v : Word) (uu : State) (h : State.mgmtHbOp s v = .ok uu) :
    (uu).pending = s.pending ∧ (uu).store.svn = s.store.svn := by
  grind [State.mgmtHbOp, plainWrite_keeps]

theorem thCtlOp_keeps (s : State) (v : Word) (uu : State) (h : State.thCtlOp s v = .ok uu) :
    (uu).pending = s.pending ∧ (uu).store.svn = s.store.svn := by
  grind [State.thCtlOp, plainWrite_keeps]

theorem sbCfgOp_keeps (s : State) (v : Word) (uu : State) (h : State.sbCfgOp s v = .ok uu) :
    (uu).pending = s.pending ∧ (uu).store.svn = s.store.svn := by
  grind [State.sbCfgOp, put_keeps]

theorem trainCtlOp_keeps (s : State) (g : Nat) (v : Word) (uu : State) (h : State.trainCtlOp s g v = .ok uu) :
    (uu).pending = s.pending ∧ (uu).store.svn = s.store.svn := by
  grind [State.trainCtlOp, plainWrite_keeps]

theorem lnThreshOp_keeps (s : State) (v : Word) (uu : State) (h : State.lnThreshOp s v = .ok uu) :
    (uu).pending = s.pending ∧ (uu).store.svn = s.store.svn := by
  grind [State.lnThreshOp, plainWrite_keeps]

theorem poolResOp_keeps (s : State) (e k : Nat) (v : Word) (uu : State) (h : State.poolResOp s e k v = .ok uu) :
    (uu).pending = s.pending ∧ (uu).store.svn = s.store.svn := by
  grind [State.poolResOp, plainWrite_keeps]

theorem calCtlOp_keeps (s : State) (v : Word) (uu : State) (h : State.calCtlOp s v = .ok uu) :
    uu.pending = s.pending ∧ uu.store.svn = s.store.svn := by
  unfold State.calCtlOp at h
  split at h
  · contradiction
  · rename_i t e
    have h1 := plainWrite_keeps _ _ _ _ _ e
    have h2 := plainWrite_keeps _ _ _ _ _ h
    exact ⟨h2.1.trans h1.1, h2.2.trans h1.2⟩

theorem ticketOp_keeps (s : State) (n off : Nat) (v : Word) (uu : State) (h : State.ticketOp s n off v = .ok uu) :
    (uu).pending = s.pending ∧ (uu).store.svn = s.store.svn := by
  grind [State.ticketOp, plainWrite_keeps]

theorem seqCtlOp_keeps (s : State) (n : Nat) (v : Word) (uu : State) (h : State.seqCtlOp s n v = .ok uu) :
    (uu).pending = s.pending ∧ (uu).store.svn = s.store.svn := by
  grind [State.seqCtlOp, writeFields_keeps]

theorem rngOp_keeps (s : State) (n : Nat) (r : WR) (hr : ∀ t,
    r = .ok t → t.pending = s.pending ∧ t.store.svn = s.store.svn)
    (uu : State) (h : State.rngOp s n r = .ok uu) : uu.pending = s.pending ∧ uu.store.svn = s.store.svn := by
  unfold State.rngOp at h
  split at h
  · contradiction
  · rename_i t
    dsimp only at h
    split at h
    · contradiction
    · cases h; exact hr _ rfl

theorem highOp_keeps (s : State) (page off : Nat) (v : Word) (uu : State) (h : State.highOp s page off v = .ok uu) :
    uu.pending = s.pending ∧ uu.store.svn = s.store.svn := by
  have hr : ∀ t, (match formCheck (locFields (homeLoc page (off - 4) + 4)) v with
      | some c => .error c
      | none => if addrPair page (off - 4) && !addrPairOk (s.stagedLow (homeLoc page (off - 4))) then .error 2
        else .ok (s.put64 (homeLoc page (off - 4)) (s.stagedLow (homeLoc page (off - 4)) + v.toNat * 2 ^ 32)) : WR) = .ok t →
      t.pending = s.pending ∧ t.store.svn = s.store.svn := by
    intro t e
    split at e
    · contradiction
    · split at e
      · contradiction
      · cases e; exact put64_keeps _ _ _ _
  unfold State.highOp at h
  dsimp only at h
  split at h
  · exact timeSetHiOp_keeps _ _ _ h
  · split at h
    · exact rngOp_keeps s _ _ hr uu h
    · exact hr uu h

theorem lowOp_keeps (s : State) (page off : Nat) (v : Word) (uu : State) (h : State.lowOp s page off v = .ok uu) :
    uu.pending = s.pending ∧ uu.store.svn = s.store.svn := by
  unfold State.lowOp at h
  split at h
  · exact timeSetLoOp_keeps _ _ _ h
  · split at h
    · exact rngOp_keeps s _ _ (fun t e => by cases e; exact stageLow_keeps _ _ _) uu h
    · cases h; exact stageLow_keeps _ _ _

theorem kxInOp_keeps (s : State) (f : Func) (loc : Loc) (v : Word) (uu : State) (h : State.kxInOp s f loc v = .ok uu) :
    (uu).pending = s.pending ∧ (uu).store.svn = s.store.svn := by
  grind [State.kxInOp, put_keeps]

theorem globalOp_keeps (s : State) (f : Func) (sub off : Nat) (v : Word) (uu : State) (h : State.globalOp s f sub off v = .ok uu) :
    uu.pending = s.pending ∧ uu.store.svn = s.store.svn := by
  unfold State.globalOp at h
  dsimp only at h
  split at h
  · exact resetCtlOp_keeps _ _ _ h
  · exact logAckOp_keeps _ _ _ h
  · exact startCtlOp_keeps _ _ _ h
  · exact fabIdOp_keeps _ _ _ h
  · exact clkCtlOp_keeps _ _ _ h
  · exact refCtlOp_keeps _ _ _ h
  · exact timeCtlOp_keeps _ _ _ h
  · exact mgmtCfgOp_keeps _ _ _ h
  · exact mgmtHbOp_keeps _ _ _ h
  · exact thCtlOp_keeps _ _ _ h
  · exact sbCfgOp_keeps _ _ _ h
  · split at h
    · exact pfCtlOp_keeps _ _ _ _ _ h
    · exact plainWrite_keeps _ _ _ _ _ h

theorem spireOp_keeps (s : State) (f : Func) (n sub off : Nat) (v : Word) (uu : State) (h : State.spireOp s f n sub off v = .ok uu) :
    uu.pending = s.pending ∧ uu.store.svn = s.store.svn := by
  have hp := fun loc i => plainWrite_keeps s loc i v uu
  unfold State.spireOp at h
  dsimp only at h
  split at h
  · split at h
    · exact seqCtlOp_keeps _ _ _ _ h
    · split at h
      · exact ticketOp_keeps _ _ _ _ _ h
      · split at h
        · exact rngOp_keeps s n _ (fun t e => plainWrite_keeps _ _ _ _ _ e) uu h
        · exact hp _ _ h
  · split at h
    · exact ephSelOp_keeps _ _ _ _ h
    · split at h
      · exact ephLoadOp_keeps _ _ _ _ _ h
      · split at h
        · exact ephDataOp_keeps _ _ _ _ _ h
        · exact hp _ _ h
  · split at h
    · exact tskSelOp_keeps _ _ _ _ h
    · split at h
      · exact tskLoadOp_keeps _ _ _ _ _ h
      · split at h
        · exact tskDataOp_keeps _ _ _ _ _ h
        · exact hp _ _ h
  · split at h
    · exact xmapDataOp_keeps _ _ _ _ h
    · split at h
      · exact xmapLoadOp_keeps _ _ _ _ _ h
      · exact hp _ _ h
  · split at h
    · exact zoneDataOp_keeps _ _ _ _ _ h
    · exact hp _ _ h
  · split at h
    · exact sramCtlOp_keeps _ _ _ _ h
    · split at h
      · exact spRemapOp_keeps _ _ _ _ h
      · split at h
        · exact spFlipSelOp_keeps _ _ _ _ h
        · split at h
          · exact spFlipDataOp_keeps _ _ _ _ _ h
          · exact hp _ _ h
  · split at h
    · exact bondCtlOp_keeps _ _ _ _ h
    · exact hp _ _ h
  · exact hp _ _ h


theorem gateOp_keeps (s : State) (g sub off : Nat) (v : Word) (uu : State) (h : State.gateOp s g sub off v = .ok uu) :
    (uu).pending = s.pending ∧ (uu).store.svn = s.store.svn := by
  simp [State.gateOp] at h; grind [gctlOp_keeps, gtFlipDataOp_keeps, gtFlipSelOp_keeps, gtRemapOp_keeps, memCfgOp_keeps,
      plainWrite_keeps, trainCtlOp_keeps]

theorem pairSelOp_keeps (s : State) (e : Nat) (v : Word) (uu : State) (h : State.pairSelOp s e v = .ok uu) :
    (uu).pending = s.pending ∧ (uu).store.svn = s.store.svn := by
  grind [State.pairSelOp, put_keeps]

theorem plinthOp_keeps (s : State) (e sub off : Nat) (v : Word) (uu : State) (h : State.plinthOp s e sub off v = .ok uu) :
    (uu).pending = s.pending ∧ (uu).store.svn = s.store.svn := by
  simp [State.plinthOp] at h; grind [calCtlOp_keeps, pairSelOp_keeps, pairViaOp_keeps, plainWrite_keeps, recalOp_keeps]

theorem oculusOp_keeps (s : State) (f : Func) (e sub off : Nat) (v : Word) (uu : State) (h : State.oculusOp s f e sub off v = .ok uu) :
    (uu).pending = s.pending ∧ (uu).store.svn = s.store.svn := by
  simp [State.oculusOp] at h; grind [csValueOp_keeps, mcgHdrOp_keeps, mcgLoadOp_keeps, mcgTgtOp_keeps, plainWrite_keeps,
      poolResOp_keeps, portCtlOp_keeps, ringCtlOp_keeps, routeDataOp_keeps, routeLoadOp_keeps, winDataOp_keeps, winLoadOp_keeps]

theorem securityOp_keeps (s : State) (f : Func) (sub off : Nat) (v : Word) (uu : State) (h : State.securityOp s f sub off v = .ok uu) :
    (uu).pending = s.pending ∧ (uu).store.svn = s.store.svn := by
  simp [State.securityOp] at h; grind [attCmdOp_keeps, granOwnerOp_keeps, kxInOp_keeps, layCtlOp_keeps, layFlagsOp_keeps,
      laySpiresOp_keeps, layTagsOp_keeps, plainWrite_keeps, seClaimOp_keeps, seCmdOp_keeps, seInputOp_keeps, seStsOp_keeps,
          trustSelOp_keeps]

theorem mboxOp_keeps (s : State) (m off : Nat) (v : Word) (uu : State) (h : State.mboxOp s m off v = .ok uu) :
    (uu).pending = s.pending ∧ (uu).store.svn = s.store.svn := by
  simp [State.mboxOp] at h; grind [mbCtlOp_keeps, mbPopOp_keeps, mbTxOp_keeps, plainWrite_keeps]

theorem regOp_keeps (s : State) (f : Func) (page off : Nat) (v : Word) (uu : State) (h : State.regOp s f page off v = .ok uu) :
    (uu).pending = s.pending ∧ (uu).store.svn = s.store.svn := by
  simp [State.regOp] at h; grind [bfCtlOp_keeps, evcSelOp_keeps, gateOp_keeps, globalOp_keeps, lnCtlOp_keeps, lnThreshOp_keeps,
      mboxOp_keeps, oculusOp_keeps, pageCtlOp_keeps, pageLockOp_keeps, plainWrite_keeps, plinthOp_keeps, securityOp_keeps,
          spireOp_keeps]

theorem unmapped_keeps (s : State) (f : Func) (page : Nat) :
    (State.unmapped s f page).pending = s.pending ∧ (State.unmapped s f page).store.svn = s.store.svn := by
  unfold State.unmapped; (repeat' split) <;> simp_all [bump_keeps, addWrap_keeps, put_keeps]

theorem writeReg_keeps (s : State) (f : Func) (page off : Nat) (v : Word) :
    (s.writeReg f page off v).pending = s.pending ∧ (s.writeReg f page off v).store.svn = s.store.svn := by
  unfold State.writeReg
  dsimp only
  split
  · exact unmapped_keeps _ _ _
  · refine ⟨(settleAll_keeps _).1.trans ?_, (settleAll_keeps _).2.trans ?_⟩ <;> split
    · exact (write_keeps _ _ _ _ _ fun t e => lowOp_keeps _ _ _ _ _ e).1
    · split
      · exact (writeHigh_keeps _ _ _ _ _ fun t e => highOp_keeps _ _ _ _ _ e).1
      · split
        · exact (write_keeps _ _ _ _ _ fun t e => by cases e; exact stageLow_keeps _ _ _).1
        · split
          · exact (writeHigh_keeps _ _ _ _ _ fun t e => evcHighOp_keeps _ _ _ _ _ e).1
          · exact (write_keeps _ _ _ _ _ fun t e => regOp_keeps _ _ _ _ _ _ e).1
    · exact (write_keeps _ _ _ _ _ fun t e => lowOp_keeps _ _ _ _ _ e).2
    · split
      · exact (writeHigh_keeps _ _ _ _ _ fun t e => highOp_keeps _ _ _ _ _ e).2
      · split
        · exact (write_keeps _ _ _ _ _ fun t e => by cases e; exact stageLow_keeps _ _ _).2
        · split
          · exact (writeHigh_keeps _ _ _ _ _ fun t e => evcHighOp_keeps _ _ _ _ _ e).2
          · exact (write_keeps _ _ _ _ _ fun t e => regOp_keeps _ _ _ _ _ _ e).2

theorem readClears_keeps (s : State) (page off : Nat) :
    (State.readClears s page off).pending = s.pending ∧ (State.readClears s page off).store.svn = s.store.svn := by
  simp [State.readClears, setFld_keeps, foldl_keeps, ite_keeps]

theorem readReg_keeps (s : State) (f : Func) (page off : Nat) :
    ((State.readReg s f page off).1).pending = s.pending ∧
        ((State.readReg s f page off).1).store.svn = s.store.svn := by
  grind [State.readReg, readClears_keeps, samplePort_keeps, stallCount_keeps]

theorem readSpan_keeps (s : State) (f : Func) (loc n : Nat) :
    ((State.readSpan s f loc n).1).pending = s.pending ∧ ((State.readSpan s f loc n).1).store.svn = s.store.svn := by
  unfold State.readSpan; dsimp only; refine foldl_keeps1 _ _ _ ?_; intro p x; dsimp only; (repeat' split) <;> simp [readReg_keeps]

theorem mgmtWrites_keeps (s : State) (l : List (Nat × Nat × Nat)) :
    (s.mgmtWrites l).1.pending = s.pending ∧ (s.mgmtWrites l).1.store.svn = s.store.svn := by
  induction l generalizing s with
  | nil => exact ⟨rfl, rfl⟩
  | cons e l ih =>
    obtain ⟨i, o, v⟩ := e
    unfold State.mgmtWrites
    dsimp only
    split
    · exact keeps_trans (ih _) (writeReg_keeps _ _ _ _ _)
    · exact writeReg_keeps _ _ _ _ _

theorem noteMask_keeps (s : State) (x : Pend) (v : Word) :
    (State.noteMask s x v).pending = s.pending ∧ (State.noteMask s x v).store.svn = s.store.svn := by
  unfold State.noteMask; (repeat' split) <;> simp_all [reportMask_keeps, ite_keeps]

theorem applyOne_keeps (s : State) (x : Pend) :
    (State.applyOne s x).pending = s.pending ∧ (State.applyOne s x).store.svn = s.store.svn := by
  grind [State.applyOne, noteMask_keeps]

theorem markApplied_keeps (s : State) (l : List Pend) :
    (State.markApplied s l).pending = s.pending ∧ (State.markApplied s l).store.svn = s.store.svn := by
  simp [State.markApplied, bump_keeps, setFlag_keeps, foldl_keeps, ite_keeps]

theorem applyPend_keeps (s : State) (go : Bool) :
    (State.applyPend s go).pending = s.pending ∧ (State.applyPend s go).store.svn = s.store.svn := by
  simp [State.applyPend, markApplied_keeps, applyOne_keeps, foldl_keeps]

theorem applyFrame_keeps (s : State) (go : Bool) :
    (State.applyFrame s go).pending = s.pending ∧ (State.applyFrame s go).store.svn = s.store.svn := by
  grind [State.applyFrame, put_keeps]

theorem snapshot_keeps (s : State) :
    (State.snapshot s).pending = s.pending ∧ (State.snapshot s).store.svn = s.store.svn := by
  unfold State.snapshot; dsimp only; refine foldl_keeps _ _ _ ?_; intro p x; (repeat' split) <;> grind [State.snapshot, evcHit_keeps]

theorem takeCutoff_keeps (s : State) :
    (State.takeCutoff s).pending = s.pending ∧ (State.takeCutoff s).store.svn = s.store.svn := by
  simp [State.takeCutoff, raiseOverdue_keeps, partCutoff_keeps, passTo_keeps, put_keeps, regionCutoff_keeps,
      opticsCutoff_keeps, modSec_keeps, resetCutoff_keeps, foldl_keeps]

theorem partsTick_keeps (s : State) (cmds : List Pend) (iso : Bool) :
    (State.partsTick s cmds iso).pending = s.pending ∧ (State.partsTick s cmds iso).store.svn = s.store.svn := by
  simp [State.partsTick, failFrame_keeps, modMgmt_keeps, partTick_keeps, foldl_keeps, ite_keeps]

theorem mgmtTick_keeps (s : State) (iso : Bool) :
    (State.mgmtTick s iso).pending = s.pending ∧ (State.mgmtTick s iso).store.svn = s.store.svn := by
  grind [State.mgmtTick, modMgmt_keeps, postGlobal_keeps, setFld_keeps]

theorem lightTick_keeps (s : State) (o : FrameObs) :
    (State.lightTick s o).pending = s.pending ∧ (State.lightTick s o).store.svn = s.store.svn := by
  grind [State.lightTick, controlTick_keeps, halveTick_keeps, fenceTick_keeps, relayTick_keeps, linkTick_keeps, laneTick_keeps,
      opticsTick_keeps, post_keeps, wantHalve_keeps, seamTick_keeps]

theorem storeTick_keeps (s : State) :
    (State.storeTick s).pending = s.pending ∧ (State.storeTick s).store.svn = s.store.svn := by
  simp [State.storeTick, bondTick_keeps, pageTick_keeps, failCell_keeps, modSpire_keeps, remapTick_keeps, timingTick_keeps,
      foldl_keeps]

theorem epochTick_keeps (s : State) :
    (State.epochTick s).pending = s.pending ∧ (State.epochTick s).store.svn = s.store.svn := by
  unfold State.epochTick; dsimp only; (repeat' split) <;> simp [epochEnd_keeps, addWrap_keeps, modOculus_keeps,
      foldl_keeps, ite_keeps]

theorem belfryTick_keeps (s : State) (o : FrameObs) :
    (State.belfryTick s o).pending = s.pending ∧ (State.belfryTick s o).store.svn = s.store.svn := by
  simp [State.belfryTick, kickTick_keeps, pairTick_keeps, reportTick_keeps, handoverTick_keeps, healthTick_keeps]

theorem recordPage_keeps (s : State) (page : Nat) :
    (State.recordPage s page).pending = s.pending ∧ (State.recordPage s page).store.svn = s.store.svn := by
  unfold State.recordPage; (repeat' split) <;> simp_all

theorem recordTick_keeps (s : State) :
    (State.recordTick s).pending = s.pending ∧ (State.recordTick s).store.svn = s.store.svn := by
  simp [State.recordTick, recordPage_keeps, foldl_keeps, ite_keeps]

theorem atTick_keeps (s : State) (o : FrameObs) :
    (State.atTick s o).pending = s.pending ∧ (State.atTick s o).store.svn = s.store.svn := by
  simp [State.atTick, applyFrame_keeps, applyPend_keeps, keyTick_keeps, mgmtTick_keeps, refTick_keeps, reportNote_keeps,
      clockTick_keeps, crossTick_keeps, designTick_keeps, modPower_keeps, epochTick_keeps, releaseTick_keeps, layTick_keeps,
          lightTick_keeps, partsTick_keeps, recordTick_keeps, resetTick_keeps, belfryTick_keeps, settleAll_keeps,
              seqSettle_keeps, snapshot_keeps, storeTick_keeps, tickOutPulse_keeps, wellTick_keeps]

theorem granRefused_keeps (s : State) (m a : Nat) :
    (State.granRefused s m a).pending = s.pending ∧ (State.granRefused s m a).store.svn = s.store.svn := by
  simp [State.granRefused, postGlobal_keeps]

theorem windowReadAt_keeps (s : State) (m a offset len : Nat) :
    (s.windowReadAt m a offset len).pending = s.pending ∧
        (s.windowReadAt m a offset len).store.svn = s.store.svn := by
  unfold State.windowReadAt
  split
  · exact granRefused_keeps s m _
  · exact keeps_trans (hostBegin_keeps _ _ _) ⟨rfl, rfl⟩

theorem windowRead_keeps (s : State) (m offset len : Nat) :
    (State.windowRead s m offset len).pending = s.pending ∧
        (State.windowRead s m offset len).store.svn = s.store.svn := by
  simp [State.windowRead, windowReadAt_keeps]

theorem mailRead_keeps (s : State) (f : Func) (m off len : Nat) :
    ((State.mailRead s f m off len).1).pending = s.pending ∧
        ((State.mailRead s f m off len).1).store.svn = s.store.svn := by
  unfold State.mailRead; dsimp only; refine foldl_keeps1 _ _ _ ?_; intro p x; dsimp only; (repeat' split) <;> simp [readReg_keeps]

theorem windowWriteAt_keeps (s : State) (m a : Nat) (b : List Byte) :
    (State.windowWriteAt s m a b).pending = s.pending ∧ (State.windowWriteAt s m a b).store.svn = s.store.svn := by
  simp [State.windowWriteAt, granRefused_keeps, hostBegin_keeps, foldl_keeps]

theorem windowWrite_keeps (s : State) (m offset : Nat) (b : List Byte) :
    (State.windowWrite s m offset b).pending = s.pending ∧
        (State.windowWrite s m offset b).store.svn = s.store.svn := by
  simp [State.windowWrite, windowWriteAt_keeps]

end Sys2Proof.Machine
end

