-- ==== Sys2Proof/Laws/KeepCommandsA.lean ====
section
/-! SUPPORT. What the commands leave alone, one lemma per command: the waiting commands and the minimum security
versions; an SVN_RAISE never lowers one. -/

namespace Sys2Proof.Machine

theorem execHoldPulse_keeps (e : Side) (seen : PulseSeen) (s : State) (uu : State) (h : execHoldPulse e seen s = .next uu) :
    uu.pending = s.pending ∧ uu.store.svn = s.store.svn := by
  unfold execHoldPulse at h; dsimp only at h; (repeat' split at h) <;> cases h <;> grind [drivePulse_keeps,
      waitUntil_keeps]

theorem execPulseAbsence_keeps (e : Side) (s : State) (uu : State) (h : execPulseAbsence e s = .next uu) :
    uu.pending = s.pending ∧ uu.store.svn = s.store.svn := by
  unfold execPulseAbsence at h; dsimp only at h; (repeat' split at h) <;> cases h <;> grind [modBelfry_keeps,
      waitUntil_keeps]

theorem execStuckHold_keeps (s : State) (uu : State) (h : execStuckHold s = .next uu) :
    uu.pending = s.pending ∧ uu.store.svn = s.store.svn := by
  unfold execStuckHold at h; (repeat' split at h) <;> cases h <;> simp [stuckHold_keeps]

theorem execStuckHoldRelease_keeps (s : State) (uu : State) (h : execStuckHoldRelease s = .next uu) :
    uu.pending = s.pending ∧ uu.store.svn = s.store.svn := by
  unfold execStuckHoldRelease at h; (repeat' split at h) <;> cases h <;> simp [modBelfry_keeps, modMgmt_keeps,
      setFlag_keeps, foldl_keeps]

theorem execTakeoverQuery_keeps (e : Side) (s : State) (uu : State) (h : execTakeoverQuery e s = .next uu) :
    uu.pending = s.pending ∧ uu.store.svn = s.store.svn := by
  unfold execTakeoverQuery at h; dsimp only at h; (repeat' split at h) <;> cases h <;> simp_all [bump_keeps,
      modBelfry_keeps]

theorem execTakeoverRefusal_keeps (e : Side) (s : State) (uu : State) (h : execTakeoverRefusal e s = .next uu) :
    uu.pending = s.pending ∧ uu.store.svn = s.store.svn := by
  unfold execTakeoverRefusal at h; dsimp only at h; (repeat' split at h) <;> cases h <;> simp_all [modBelfry_keeps]

theorem execTakeover_keeps (e : Side) (s : State) (uu : State) (h : execTakeover e s = .next uu) :
    uu.pending = s.pending ∧ uu.store.svn = s.store.svn := by
  grind [execTakeover, bump_keeps, modBelfry_keeps, takeOver_keeps, waitUntil_keeps]

theorem execStuckHolderStopped_keeps (s : State) (uu : State) (h : execStuckHolderStopped s = .next uu) :
    uu.pending = s.pending ∧ uu.store.svn = s.store.svn := by
  grind [execStuckHolderStopped, post_keeps, recovery_keeps, waitUntil_keeps]

theorem execStateLogRecord_keeps (s : State) (uu : State) (h : execStateLogRecord s = .next uu) :
    uu.pending = s.pending ∧ uu.store.svn = s.store.svn := by
  unfold execStateLogRecord at h; (repeat' split at h) <;> cases h <;> simp [sendLog_keeps]

theorem execBelfryRestart_keeps (e : Side) (romOk : Bool) (s : State) (uu : State) (h : execBelfryRestart e romOk s = .next uu) :
    uu.pending = s.pending ∧ uu.store.svn = s.store.svn := by
  grind [execBelfryRestart, abortAll_keeps, addSat_keeps, modBelfry_keeps, modMgmt_keeps, post_keeps, setFlag_keeps,
      setFld_keeps, setRole_keeps]

theorem execBelfryRestartCmd_keeps (f : Func) (e : Side) (v : Word) (s : State) (uu : State) (h : execBelfryRestartCmd f e v s = .next uu) :
    uu.pending = s.pending ∧ uu.store.svn = s.store.svn := by
  unfold execBelfryRestartCmd at h; cases h; exact write_keeps _ _ _ _ _ fun t h => by grind [bfCtlOp_keeps, put_keeps,
      write_keeps]

theorem execHandover_keeps (f : Func) (e : Side) (v : Word) (s : State) (uu : State) (h : execHandover f e v s = .next uu) :
    uu.pending = s.pending ∧ uu.store.svn = s.store.svn := by
  unfold execHandover at h; cases h; exact write_keeps _ _ _ _ _ fun t h => by grind [bfCtlOp_keeps, put_keeps, write_keeps]

theorem execSelfTestRotation_keeps (failed : BitVec 8) (s : State) (uu : State) (h : execSelfTestRotation failed s = .next uu) :
    uu.pending = s.pending ∧ uu.store.svn = s.store.svn := by
  grind [execSelfTestRotation, modBelfry_keeps, waitUntil_keeps]

theorem execEngineLapse_keeps (s : State) (uu : State) (h : execEngineLapse s = .next uu) :
    uu.pending = s.pending ∧ uu.store.svn = s.store.svn := by
  grind [execEngineLapse, modMgmt_keeps, setFlag_keeps, waitUntil_keeps]

theorem execHeartbeatSend_keeps (s : State) (uu : State) (h : execHeartbeatSend s = .next uu) :
    uu.pending = s.pending ∧ uu.store.svn = s.store.svn := by
  grind [execHeartbeatSend, sendBeats_keeps, waitUntil_keeps]

theorem execHeartbeat_keeps (k : Pkt) (s : State) (uu : State) (h : execHeartbeat k s = .next uu) :
    uu.pending = s.pending ∧ uu.store.svn = s.store.svn := by
  unfold execHeartbeat at h; dsimp only at h; (repeat' split at h) <;> cases h <;> grind [bump_keeps, mgmtDrop_keeps,
      modMgmt_keeps, openMgmt_keeps, setFld_keeps, takeHeld_keeps]

theorem execHeartbeatLoss_keeps (s : State) (uu : State) (h : execHeartbeatLoss s = .next uu) :
    uu.pending = s.pending ∧ uu.store.svn = s.store.svn := by
  grind [execHeartbeatLoss, modMgmt_keeps, waitUntil_keeps]

theorem execAdmit_keeps (k : Pkt) (s : State) (uu : State) (h : execAdmit k s = .next uu) :
    uu.pending = s.pending ∧ uu.store.svn = s.store.svn := by
  unfold execAdmit at h; dsimp only at h; (repeat' split at h) <;> cases h <;> grind [mgmtReply_keeps, modMgmt_keeps,
      takeMgmt_keeps]

theorem execPairTakeoverQuery_keeps (k : Pkt) (s : State) (uu : State) (h : execPairTakeoverQuery k s = .next uu) :
    uu.pending = s.pending ∧ uu.store.svn = s.store.svn := by
  grind [execPairTakeoverQuery, mgmtReply_keeps, takeMgmt_keeps]

theorem execMgmtResp_keeps (k : Pkt) (s : State) (uu : State) (h : execMgmtResp k s = .next uu) :
    uu.pending = s.pending ∧ uu.store.svn = s.store.svn := by
  grind [execMgmtResp, modMgmt_keeps, takeMgmt_keeps]

theorem execTimeRefLoss_keeps (s : State) (uu : State) (h : execTimeRefLoss s = .next uu) :
    uu.pending = s.pending ∧ uu.store.svn = s.store.svn := by
  unfold execTimeRefLoss at h; dsimp only at h; (repeat' split at h) <;> cases h <;> simp_all [bump_keeps,
      postGlobal_keeps]

theorem execRefReturn_keeps (s : State) (uu : State) (h : execRefReturn s = .next uu) :
    uu.pending = s.pending ∧ uu.store.svn = s.store.svn := by
  unfold execRefReturn at h; cases h; simp

theorem execRefCtlWrite_keeps (f : Func) (v : Word) (s : State) (uu : State) (h : execRefCtlWrite f v s = .next uu) :
    uu.pending = s.pending ∧ uu.store.svn = s.store.svn := by
  unfold execRefCtlWrite at h; cases h; exact write_keeps _ _ _ _ _ fun t h => by grind [refCtlOp_keeps, write_keeps]

theorem execStretch_keeps (r : Fin 40) (depth : Fin 5) (s : State) (uu : State) (h : execStretch r depth s = .next uu) :
    uu.pending = s.pending ∧ uu.store.svn = s.store.svn := by
  unfold execStretch at h; (repeat' split at h) <;> cases h <;> simp [stretchOne_keeps, vaneDepth_keeps]

theorem execDownStep_keeps (r : Fin 40) (deep : Bool) (s : State) (uu : State) (h : execDownStep r deep s = .next uu) :
    uu.pending = s.pending ∧ uu.store.svn = s.store.svn := by
  grind [execDownStep, deepDecide_keeps, takeDeep_keeps, waitCycles_keeps, windowStep_keeps]

theorem execClkModeWrite_keeps (f : Func) (v : Word) (s : State) (uu : State) (h : execClkModeWrite f v s = .next uu) :
    uu.pending = s.pending ∧ uu.store.svn = s.store.svn := by
  unfold execClkModeWrite at h; cases h; exact write_keeps _ _ _ _ _ fun t h => by grind [clkCtlOp_keeps, put_keeps,
      write_keeps]

theorem execModeChangeComplete_keeps (s : State) (uu : State) (h : execModeChangeComplete s = .next uu) :
    uu.pending = s.pending ∧ uu.store.svn = s.store.svn := by
  unfold execModeChangeComplete at h; cases h; simp [setFlag_keeps]

theorem execMeshEmergency_keeps (r : Fin 40) (s : State) (uu : State) (h : execMeshEmergency r s = .next uu) :
    uu.pending = s.pending ∧ uu.store.svn = s.store.svn := by
  unfold execMeshEmergency at h; (repeat' split at h) <;> cases h <;> simp [addWrap_keeps, bump_keeps, holdCycles_keeps,
      modRegion_keeps, postGlobal_keeps, vaneDepth_keeps, foldl_keeps, ite_keeps]

theorem execTimeSyncSend_keeps (s uu : State) (h : execTimeSyncSend s = .next uu) :
    uu.pending = s.pending ∧ uu.store.svn = s.store.svn := by
  unfold execTimeSyncSend at h
  dsimp only at h
  split at h
  · exact next_keeps h ⟨rfl, rfl⟩
  · split at h
    · exact next_keeps h ⟨rfl, rfl⟩
    · rename_i e
      have hw := fun f => keeps_trans (modTime_keeps _ f) (waitUntil_keeps _ _ _ e)
      split at h
      · refine next_keeps h ?_
        split
        · exact keeps_trans (askTime_keeps _ _ _) (hw _)
        · exact hw _
      · split at h
        · exact next_keeps h (hw _)
        · have hh := fun f => keeps_trans (askHop_keeps _ 1) (keeps_trans (askHop_keeps _ 0) (hw f))
          split at h
          · exact next_keeps h (keeps_trans (ringSend_keeps _ _ _ _) (keeps_trans (ringSend_keeps _ _ _ _) (hh _)))
          · exact next_keeps h (keeps_trans (ringForward_keeps _ _ _) (keeps_trans (ringForward_keeps _ _ _) (hh _)))

theorem execTimeSync_keeps (port : Fin 32) (m : TimeMsg) (s : State) (uu : State) (h : execTimeSync port m s = .next uu) :
    uu.pending = s.pending ∧ uu.store.svn = s.store.svn := by
  unfold execTimeSync at h; dsimp only at h; (repeat' split at h) <;> cases h <;> simp_all [checkPeriod_keeps,
      sendOrDrop_keeps]

theorem execTimeSyncResp_keeps (port : Fin 32) (m : TimeMsg) (frac : Fin 256) (s : State) (uu : State) (h : execTimeSyncResp port m frac s = .next uu) :
    uu.pending = s.pending ∧ uu.store.svn = s.store.svn := by
  unfold execTimeSyncResp at h; dsimp only at h; (repeat' split at h) <;> cases h <;> simp_all [bump_keeps,
      checkPeriod_keeps, estimate_keeps, joinCount_keeps, modTime_keeps, setFld_keeps]

theorem execRingTimeMessage_keeps (port : Fin 2) (m : TimeMsg) (frac : Fin 256) (s : State) (uu : State) (h : execRingTimeMessage port m frac s = .next uu) :
    uu.pending = s.pending ∧ uu.store.svn = s.store.svn := by
  unfold execRingTimeMessage at h; dsimp only at h; (repeat' split at h) <;> cases h <;> simp_all [bump_keeps,
      changeArc_keeps, checkPeriod_keeps, estimate_keeps, joinCount_keeps, modTime_keeps, postGlobal_keeps, showArc_keeps]

theorem execExchangeTimeout_keeps (exch : BitVec 16) (s : State) (uu : State) (h : execExchangeTimeout exch s = .next uu) :
    uu.pending = s.pending ∧ uu.store.svn = s.store.svn := by
  grind [execExchangeTimeout, bump_keeps, modTime_keeps, waitUntil_keeps]

theorem execArcChange_keeps (s : State) (uu : State) (h : execArcChange s = .next uu) :
    uu.pending = s.pending ∧ uu.store.svn = s.store.svn := by
  unfold execArcChange at h; dsimp only at h; (repeat' split at h) <;> cases h <;> grind [changeArc_keeps,
      postGlobal_keeps, waitUntil_keeps]

theorem execArcReturn_keeps (s : State) (uu : State) (h : execArcReturn s = .next uu) :
    uu.pending = s.pending ∧ uu.store.svn = s.store.svn := by
  unfold execArcReturn at h; dsimp only at h; (repeat' split at h) <;> cases h <;> grind [changeArc_keeps,
      waitUntil_keeps]

theorem execJoinTimeout_keeps (s : State) (uu : State) (h : execJoinTimeout s = .next uu) :
    uu.pending = s.pending ∧ uu.store.svn = s.store.svn := by
  grind [execJoinTimeout, modTime_keeps, postGlobal_keeps, waitUntil_keeps]

theorem execHoldover_keeps (s : State) (uu : State) (h : execHoldover s = .next uu) :
    uu.pending = s.pending ∧ uu.store.svn = s.store.svn := by
  grind [execHoldover, bump_keeps, postGlobal_keeps, setTimeState_keeps, waitUntil_keeps]

theorem execRejoin_keeps (f : Func) (v : Word) (s : State) (uu : State) (h : execRejoin f v s = .next uu) :
    uu.pending = s.pending ∧ uu.store.svn = s.store.svn := by
  unfold execRejoin at h; cases h; exact write_keeps _ _ _ _ _ fun t h => by grind [put_keeps, timeCtlOp_keeps, write_keeps]

theorem execTimeSetWrite_keeps (f : Func) (v : Word) (s uu : State) (h : execTimeSetWrite f v s = .next uu) :
    uu.pending = s.pending ∧ uu.store.svn = s.store.svn := by
  exact next_keeps h (writeHigh_keeps _ _ _ _ _ fun t e => timeSetHiOp_keeps _ _ _ e)

theorem execWestTransitExchange_keeps (l : List WestExchange) (s : State) (uu : State) (h : execWestTransitExchange l s = .next uu) :
    uu.pending = s.pending ∧ uu.store.svn = s.store.svn := by
  unfold execWestTransitExchange at h; dsimp only at h; (repeat' split at h) <;> cases h <;> simp_all [modTime_keeps,
      post_keeps]

theorem execFabLoad_keeps (e : Side) (k : Pkt) (s : State) (uu : State) (h : execFabLoad e k s = .next uu) :
    uu.pending = s.pending ∧ uu.store.svn = s.store.svn := by
  unfold execFabLoad at h; cases h; simp [request_keeps]

theorem execFabStore_keeps (e : Side) (k : Pkt) (s : State) (uu : State) (h : execFabStore e k s = .next uu) :
    uu.pending = s.pending ∧ uu.store.svn = s.store.svn := by
  unfold execFabStore at h; cases h; simp [request_keeps]

theorem execStoreMasked_keeps (e : Side) (k : Pkt) (s : State) (uu : State) (h : execStoreMasked e k s = .next uu) :
    uu.pending = s.pending ∧ uu.store.svn = s.store.svn := by
  unfold execStoreMasked at h; cases h; simp [request_keeps]

theorem execAtomic_keeps (e : Side) (k : Pkt) (s : State) (uu : State) (h : execAtomic e k s = .next uu) :
    uu.pending = s.pending ∧ uu.store.svn = s.store.svn := by
  unfold execAtomic at h; cases h; simp [request_keeps]

theorem execReduce_keeps (e : Side) (k : Pkt) (s : State) (uu : State) (h : execReduce e k s = .next uu) :
    uu.pending = s.pending ∧ uu.store.svn = s.store.svn := by
  unfold execReduce at h; cases h; simp [request_keeps]

theorem execMcStore_keeps (e : Side) (k : Pkt) (s : State) (uu : State) (h : execMcStore e k s = .next uu) :
    uu.pending = s.pending ∧ uu.store.svn = s.store.svn := by
  grind [execMcStore, expandMc_keeps, openTxn_keeps, settleAll_keeps]

theorem execMcStoreCopy_keeps (e : Side) (k : Pkt) (s : State) (uu : State) (h : execMcStoreCopy e k s = .next uu) :
    uu.pending = s.pending ∧ uu.store.svn = s.store.svn := by
  grind [execMcStoreCopy, answer_keeps, mcCopy_keeps, passOn_keeps, settleAll_keeps, takeHeld_keeps]

theorem execMsg_keeps (e : Side) (k : Pkt) (s : State) (uu : State) (h : execMsg e k s = .next uu) :
    uu.pending = s.pending ∧ uu.store.svn = s.store.svn := by
  unfold execMsg at h; cases h; simp [request_keeps]

theorem execTally_keeps (e : Side) (k : Pkt) (s : State) (uu : State) (h : execTally e k s = .next uu) :
    uu.pending = s.pending ∧ uu.store.svn = s.store.svn := by
  unfold execTally at h; cases h; simp [request_keeps]

theorem execSignal_keeps (e : Side) (k : Pkt) (s : State) (uu : State) (h : execSignal e k s = .next uu) :
    uu.pending = s.pending ∧ uu.store.svn = s.store.svn := by
  grind [execSignal, request_keeps]

theorem execAwaitNotify_keeps (n : Fin 16) (slot : Fin 1024) (second : Bool) (s : State) (uu : State) (h : execAwaitNotify n slot second s = .next uu) :
    uu.pending = s.pending ∧ uu.store.svn = s.store.svn := by
  grind [execAwaitNotify, modSpire_keeps, settleAll_keeps]

theorem execCombEntryClose_keeps (e : Side) (tag : BitVec 12) (line : Nat) (s uu : State)
    (h : execCombEntryClose e tag line s = .next uu) :
    uu.pending = s.pending ∧ uu.store.svn = s.store.svn := by
  unfold execCombEntryClose at h
  dsimp only at h
  split at h
  · exact next_keeps h ⟨rfl, rfl⟩
  · split at h
    · exact next_keeps h ⟨rfl, rfl⟩
    · rename_i hw
      split at h
      · rename_i hc
        exact next_keeps h (keeps_trans (settleAll_keeps _) (keeps_trans (closeComb_keeps _ _ _ _ hc) (waitUntil_keeps _ _ _ hw)))
      · exact next_keeps h ⟨rfl, rfl⟩

theorem execComp_keeps (e : Side) (k : Pkt) (s : State) (uu : State) (h : execComp e k s = .next uu) :
    uu.pending = s.pending ∧ uu.store.svn = s.store.svn := by
  unfold execComp at h; (repeat' split at h) <;> cases h <;> simp [completion_keeps]

theorem execCompData_keeps (e : Side) (k : Pkt) (s : State) (uu : State) (h : execCompData e k s = .next uu) :
    uu.pending = s.pending ∧ uu.store.svn = s.store.svn := by
  unfold execCompData at h; (repeat' split at h) <;> cases h <;> simp [completion_keeps]

theorem execMcRetryResend_keeps (e : Side) (seq : BitVec 16) (s uu : State) (h : execMcRetryResend e seq s = .next uu) :
    uu.pending = s.pending ∧ uu.store.svn = s.store.svn := by
  unfold execMcRetryResend at h
  dsimp only at h
  split at h
  · exact next_keeps h (⟨rfl, rfl⟩)
  · split at h
    · exact next_keeps h (⟨rfl, rfl⟩)
    · split at h
      · exact next_keeps h (⟨rfl, rfl⟩)
      · rename_i e
        refine next_keeps h ?_
        exact keeps_trans (settleAll_keeps _) (keeps_trans (foldl_keeps _ _ _ fun s x => by split <;> simp [sendCopy_keeps])
          (keeps_trans (setTxn_keeps _ _) (waitUntil_keeps _ _ _ e)))

theorem execMcTimeout_keeps (e : Side) (seq : BitVec 16) (s : State) (uu : State) (h : execMcTimeout e seq s = .next uu) :
    uu.pending = s.pending ∧ uu.store.svn = s.store.svn := by
  grind [execMcTimeout, bump_keeps, mcDone_keeps, settleAll_keeps, waitUntil_keeps]

theorem execDupFilterExpiry_keeps (srcDev seq : BitVec 16) (s : State) (uu : State) (h : execDupFilterExpiry srcDev seq s = .next uu) :
    uu.pending = s.pending ∧ uu.store.svn = s.store.svn := by
  grind [execDupFilterExpiry, waitUntil_keeps]

theorem execWindowCommit_keeps (f : Func) (e : Side) (v : Word) (s : State) (uu : State) (h : execWindowCommit f e v s = .next uu) :
    uu.pending = s.pending ∧ uu.store.svn = s.store.svn := by
  unfold execWindowCommit at h; cases h; exact write_keeps _ _ _ _ _ fun t h => by grind [winDataOp_keeps, write_keeps]

theorem execWinLoad_keeps (f : Func) (e : Side) (v : Word) (s : State) (uu : State) (h : execWinLoad f e v s = .next uu) :
    uu.pending = s.pending ∧ uu.store.svn = s.store.svn := by
  unfold execWinLoad at h; cases h; exact write_keeps _ _ _ _ _ fun t h => by grind [put_keeps, winLoadOp_keeps, write_keeps]

theorem execWinLoadEntry_keeps (e : Side) (s uu : State) (h : execWinLoadEntry e s = .next uu) :
    uu.pending = s.pending ∧ uu.store.svn = s.store.svn := by
  unfold execWinLoadEntry at h
  dsimp only at h
  split at h
  · exact next_keeps h ⟨rfl, rfl⟩
  · split at h
    · exact next_keeps h (askLoad_keeps _ _)
    · refine next_keeps h ?_
      split
      · exact keeps_trans (loadNext_keeps _ _ _ _) (winGot_keeps _ _ _)
      · exact keeps_trans (foldl_keeps _ _ _ fun s g => pendWindow_keeps _ _ _) (keeps_trans (loadNext_keeps _ _ _ _) (winGot_keeps _ _ _))

theorem execCsValueWrite_keeps (f : Func) (e : Side) (v : Word) (s uu : State) (h : execCsValueWrite f e v s = .next uu) :
    uu.pending = s.pending ∧ uu.store.svn = s.store.svn := by
  exact next_keeps h (keeps_trans (settleAll_keeps _) (write_keeps _ _ _ _ _ fun t e => csValueOp_keeps _ _ _ _ e))

theorem execErrorHandle_keeps (s : State) (uu : State) (h : execErrorHandle s = .next uu) :
    uu.pending = s.pending ∧ uu.store.svn = s.store.svn := by
  unfold execErrorHandle at h; (repeat' split at h) <;> cases h <;> simp [logEntry_keeps, setQueue_keeps]

theorem execLogAck_keeps (f : Func) (v : Word) (s : State) (uu : State) (h : execLogAck f v s = .next uu) :
    uu.pending = s.pending ∧ uu.store.svn = s.store.svn := by
  unfold execLogAck at h; cases h; exact write_keeps _ _ _ _ _ fun t h => by grind [logAckOp_keeps, put_keeps, write_keeps]

theorem execLogClear_keeps (f : Func) (v : Word) (s : State) (uu : State) (h : execLogClear f v s = .next uu) :
    uu.pending = s.pending ∧ uu.store.svn = s.store.svn := by
  unfold execLogClear at h; cases h; exact write_keeps _ _ _ _ _ fun t h => by grind [logAckOp_keeps, put_keeps, write_keeps]

theorem execCompletionTimeout_keeps (txn : Nat) (s : State) (uu : State) (h : execCompletionTimeout txn s = .next uu) :
    uu.pending = s.pending ∧ uu.store.svn = s.store.svn := by
  grind [execCompletionTimeout, callTimeout_keeps, msgTimeout_keeps, settleAll_keeps, txnTimeout_keeps, waitUntil_keeps]

theorem execPartitionStart_keeps (f : Func) (p : Fin 8) (v : Word) (s : State) (uu : State) (h : execPartitionStart f p v s = .next uu) :
    uu.pending = s.pending ∧ uu.store.svn = s.store.svn := by
  unfold execPartitionStart at h; cases h; simp [pfCmd_keeps]

theorem execPartitionStop_keeps (f : Func) (p : Fin 8) (v : Word) (s : State) (uu : State) (h : execPartitionStop f p v s = .next uu) :
    uu.pending = s.pending ∧ uu.store.svn = s.store.svn := by
  unfold execPartitionStop at h; cases h; simp [pfCmd_keeps]

theorem execPartitionResume_keeps (f : Func) (p : Fin 8) (v : Word) (s : State) (uu : State) (h : execPartitionResume f p v s = .next uu) :
    uu.pending = s.pending ∧ uu.store.svn = s.store.svn := by
  unfold execPartitionResume at h; cases h; simp [pfCmd_keeps]

theorem execEphCommit_keeps (f : Func) (n : Fin 16) (v : Word) (s : State) (uu : State) (h : execEphCommit f n v s = .next uu) :
    uu.pending = s.pending ∧ uu.store.svn = s.store.svn := by
  unfold execEphCommit at h; cases h; exact write_keeps _ _ _ _ _ fun t h => by grind [ephDataOp_keeps, write_keeps]

theorem execEphLoad_keeps (f : Func) (n : Fin 16) (v : Word) (s : State) (uu : State) (h : execEphLoad f n v s = .next uu) :
    uu.pending = s.pending ∧ uu.store.svn = s.store.svn := by
  unfold execEphLoad at h; cases h; exact write_keeps _ _ _ _ _ fun t h => by grind [ephLoadOp_keeps, put_keeps, write_keeps]

theorem execEphLoadSlotCommit_keeps (n : Fin 16) (s uu : State) (h : execEphLoadSlotCommit n s = .next uu) :
    uu.pending = s.pending ∧ uu.store.svn = s.store.svn := by
  unfold execEphLoadSlotCommit at h
  split at h
  · exact next_keeps h ⟨rfl, rfl⟩
  · split at h
    · exact next_keeps h (askLoad_keeps _ _)
    · refine next_keeps h (keeps_trans (loadNext_keeps _ _ _ _) ?_)
      split
      · exact ⟨rfl, rfl⟩
      · exact settle_keeps _ _ _ _ fun t e => slotCommit_keeps _ _ _ _ _ e

theorem execSlotStartTime_keeps (n : Fin 16) (slot : Fin 1024) (s : State) (uu : State) (h : execSlotStartTime n slot s = .next uu) :
    uu.pending = s.pending ∧ uu.store.svn = s.store.svn := by
  grind [execSlotStartTime, seqSettle_keeps, waitUntil_keeps]

theorem execDescriptorDispatch_keeps (n : Fin 16) (slot : Fin 1024) (s uu : State)
    (h : execDescriptorDispatch n slot s = .next uu) :
    uu.pending = s.pending ∧ uu.store.svn = s.store.svn := by
  unfold execDescriptorDispatch at h
  split at h
  · exact next_keeps h ⟨rfl, rfl⟩
  · split at h
    · exact next_keeps h ⟨rfl, rfl⟩
    · split at h
      · exact next_keeps h ⟨rfl, rfl⟩
      · split at h
        · split at h
          · rename_i e
            refine next_keeps h (keeps_trans (dispatchOne_keeps _ _ _ _) ?_)
            split at e
            · exact crossRoom_keeps _ _ _ _ e
            · cases e; exact ⟨rfl, rfl⟩
          · exact next_keeps h ⟨rfl, rfl⟩
        · exact next_keeps h ⟨rfl, rfl⟩

theorem execSlotOverBudget_keeps (n : Fin 16) (slot : Fin 1024) (south : Bool) (s : State) (uu : State) (h : execSlotOverBudget n slot south s = .next uu) :
    uu.pending = s.pending ∧ uu.store.svn = s.store.svn := by
  grind [execSlotOverBudget, overBudget_keeps, waitCycles_keeps]

theorem execSlotLate_keeps (n : Fin 16) (slot : Fin 1024) (s : State) (uu : State) (h : execSlotLate n slot s = .next uu) :
    uu.pending = s.pending ∧ uu.store.svn = s.store.svn := by
  grind [execSlotLate, raiseLate_keeps, waitUntil_keeps]

theorem execMemCfgWrite_keeps (f : Func) (g : Fin 8) (v : Word) (s : State) (uu : State) (h : execMemCfgWrite f g v s = .next uu) :
    uu.pending = s.pending ∧ uu.store.svn = s.store.svn := by
  unfold execMemCfgWrite at h; cases h; exact write_keeps _ _ _ _ _ fun t h => by grind [memCfgOp_keeps, write_keeps]

theorem execLineIdleWriteback_keeps (g : Fin 8) (line : BitVec 32) (s : State) (uu : State) (h : execLineIdleWriteback g line s = .next uu) :
    uu.pending = s.pending ∧ uu.store.svn = s.store.svn := by
  grind [execLineIdleWriteback, waitCycles_keeps, writeBack_keeps]

theorem execGatehouseDrain_keeps (f : Func) (g : Fin 8) (v : Word) (s : State) (uu : State) (h : execGatehouseDrain f g v s = .next uu) :
    uu.pending = s.pending ∧ uu.store.svn = s.store.svn := by
  unfold execGatehouseDrain at h; cases h; exact write_keeps _ _ _ _ _ fun t h => by grind [gctlOp_keeps, put_keeps,
      write_keeps]

theorem execPerBankRefresh_keeps (g : Fin 8) (ch : Fin 48) (rank : Fin 2) (idle : Bool) (s : State) (uu : State) (h : execPerBankRefresh g ch rank idle s = .next uu) :
    uu.pending = s.pending ∧ uu.store.svn = s.store.svn := by
  unfold execPerBankRefresh at h; dsimp only at h; (repeat' split at h) <;> cases h <;> grind [addWrap_keeps,
      bump_keeps, idle_keeps, refreshed_keeps, waitUntil_keeps]

theorem execOscillatorMeasurement_keeps (g : Fin 8) (ch : Fin 48) (idle : Bool) (drift : Option Int) (s : State) (uu : State) (h : execOscillatorMeasurement g ch idle drift s = .next uu) :
    uu.pending = s.pending ∧ uu.store.svn = s.store.svn := by
  unfold execOscillatorMeasurement at h; dsimp only at h; (repeat' split at h) <;> cases h <;> grind [idle_keeps,
      modGate_keeps, startRetrain_keeps, waitUntil_keeps]

theorem execRetrainDone_keeps (g : Fin 8) (ch : Fin 48) (ok : Bool) (s : State) (uu : State) (h : execRetrainDone g ch ok s = .next uu) :
    uu.pending = s.pending ∧ uu.store.svn = s.store.svn := by
  unfold execRetrainDone at h; dsimp only at h; (repeat' split at h) <;> cases h <;> simp_all [channelFail_keeps,
      drainOn_keeps, gateRetry_keeps, modGate_keeps, startRetrain_keeps]

theorem execMr4Readout_keeps (g : Fin 8) (pkg : Fin 12) (die : Fin 6) (idle : Bool) (value : BitVec 8) (r : Mr4) (s : State) (uu : State) (h : execMr4Readout g pkg die idle value r s = .next uu) :
    uu.pending = s.pending ∧ uu.store.svn = s.store.svn := by
  grind [execMr4Readout, idle_keeps, mr4Read_keeps, waitUntil_keeps]

theorem execMr4LimitRelease_keeps (g : Fin 8) (pkg : Fin 12) (s : State) (uu : State) (h : execMr4LimitRelease g pkg s = .next uu) :
    uu.pending = s.pending ∧ uu.store.svn = s.store.svn := by
  unfold execMr4LimitRelease at h
  split at h
  · exact next_keeps h ⟨rfl, rfl⟩
  · rename_i t e
    obtain ⟨a, -, e⟩ := Option.bind_eq_some_iff.1 e
    exact next_keeps h (keeps_trans (modGate_keeps _ _ _) (waitUntil_keeps _ _ _ e))


theorem execPatrolRead_keeps (g : Fin 8) (line : BitVec 32) (upset : List (Fin 4 × Nat)) (s uu : State)
    (h : execPatrolRead g line upset s = .next uu) :
    uu.pending = s.pending ∧ uu.store.svn = s.store.svn := by
  unfold execPatrolRead at h
  dsimp only at h
  split at h
  · exact next_keeps h ⟨rfl, rfl⟩
  · split at h
    · exact next_keeps h ⟨rfl, rfl⟩
    · rename_i e
      refine next_keeps h (keeps_trans (patrolLine_keeps _ _ _) (keeps_trans (upset_keeps _ _ _) ?_))
      cases hi : s.idleFrom g (placeLine line.toNat).2.1 with
      | none => rw [hi] at e; cases e
      | some t => rw [hi] at e; exact waitUntil_keeps _ _ _ e

theorem execPatrolLate_keeps (g : Fin 8) (s : State) (uu : State) (h : execPatrolLate g s = .next uu) :
    uu.pending = s.pending ∧ uu.store.svn = s.store.svn := by
  unfold execPatrolLate at h; dsimp only at h; (repeat' split at h) <;> cases h <;> grind [modGate_keeps, post_keeps,
      setFlag_keeps, waitUntil_keeps]

theorem execMemoryRemap_keeps (f : Func) (g : Fin 8) (v : Word) (s : State) (uu : State) (h : execMemoryRemap f g v s = .next uu) :
    uu.pending = s.pending ∧ uu.store.svn = s.store.svn := by
  unfold execMemoryRemap at h; cases h; exact write_keeps _ _ _ _ _ fun t h => by grind [gtRemapOp_keeps, put_keeps,
      write_keeps]

theorem execMemoryRemapCopyDone_keeps (g : Fin 8) (s : State) (uu : State) (h : execMemoryRemapCopyDone g s = .next uu) :
    uu.pending = s.pending ∧ uu.store.svn = s.store.svn := by
  unfold execMemoryRemapCopyDone at h; dsimp only at h; (repeat' split at h) <;> cases h <;> simp_all [askPageRemap_keeps, modGate_keeps, pageCopied_keeps, post_keeps, setFlag_keeps]

theorem execGateFlipArm_keeps (f : Func) (g : Fin 8) (v : Word) (s : State) (uu : State) (h : execGateFlipArm f g v s = .next uu) :
    uu.pending = s.pending ∧ uu.store.svn = s.store.svn := by
  unfold execGateFlipArm at h; cases h; exact write_keeps _ _ _ _ _ fun t h => by grind [gtFlipSelOp_keeps, put_keeps,
      write_keeps]

theorem execGateFlipDisarm_keeps (f : Func) (g : Fin 8) (v : Word) (s : State) (uu : State) (h : execGateFlipDisarm f g v s = .next uu) :
    uu.pending = s.pending ∧ uu.store.svn = s.store.svn := by
  unfold execGateFlipDisarm at h; cases h; exact write_keeps _ _ _ _ _ fun t h => by grind [gtFlipSelOp_keeps, put_keeps,
      write_keeps]

theorem execLineFillDone_keeps (g : Fin 8) (line : BitVec 32) (upset : List (Fin 4 × Nat)) (s : State) (uu : State) (h : execLineFillDone g line upset s = .next uu) :
    uu.pending = s.pending ∧ uu.store.svn = s.store.svn := by
  unfold execLineFillDone at h; dsimp only at h; (repeat' split at h) <;> cases h <;> simp_all [chanRead_keeps,
      drainOn_keeps, gateApply_keeps, gateDone_keeps, gateRetry_keeps, modGate_keeps, upset_keeps, foldl_keeps]

theorem execZoneCommit_keeps (f : Func) (n : Fin 16) (v : Word) (s : State) (uu : State) (h : execZoneCommit f n v s = .next uu) :
    uu.pending = s.pending ∧ uu.store.svn = s.store.svn := by
  unfold execZoneCommit at h; cases h; exact write_keeps _ _ _ _ _ fun t h => by grind [write_keeps, zoneDataOp_keeps]

theorem execXmapWrite_keeps (f : Func) (n : Fin 16) (v : Word) (s : State) (uu : State) (h : execXmapWrite f n v s = .next uu) :
    uu.pending = s.pending ∧ uu.store.svn = s.store.svn := by
  unfold execXmapWrite at h; cases h; exact write_keeps _ _ _ _ _ fun t h => by grind [write_keeps, xmapDataOp_keeps]

theorem execXmapLoad_keeps (f : Func) (n : Fin 16) (v : Word) (s : State) (uu : State) (h : execXmapLoad f n v s = .next uu) :
    uu.pending = s.pending ∧ uu.store.svn = s.store.svn := by
  unfold execXmapLoad at h; cases h; exact write_keeps _ _ _ _ _ fun t h => by grind [put_keeps, write_keeps,
      xmapLoadOp_keeps]

theorem execXmapLoadEntry_keeps (n : Fin 16) (s uu : State) (h : execXmapLoadEntry n s = .next uu) :
    uu.pending = s.pending ∧ uu.store.svn = s.store.svn := by
  unfold execXmapLoadEntry at h
  dsimp only at h
  split at h
  · exact next_keeps h ⟨rfl, rfl⟩
  · split at h
    · exact next_keeps h (askLoad_keeps _ _)
    · refine next_keeps h ?_
      split
      · exact keeps_trans (loadNext_keeps _ _ _ _) (xmapGot_keeps _ _ _ _)
      · exact keeps_trans (foldl_keeps _ _ _ fun s g => pendWord_keeps _ _ _ _ _) (keeps_trans (loadNext_keeps _ _ _ _) (xmapGot_keeps _ _ _ _))

theorem execMessagePartArrival_keeps (n : Fin 16) (m : MsgPart) (s : State) (uu : State) (h : execMessagePartArrival n m s = .next uu) :
    uu.pending = s.pending ∧ uu.store.svn = s.store.svn := by
  grind [execMessagePartArrival, answerPart_keeps, landPart_keeps, settleAll_keeps]

theorem execTallyLanding_keeps (n : Fin 16) (zone : BitVec 8) (tag : BitVec 12) (count : BitVec 16) (s : State) (uu : State) (h : execTallyLanding n zone tag count s = .next uu) :
    uu.pending = s.pending ∧ uu.store.svn = s.store.svn := by
  grind [execTallyLanding, landTally_keeps, msgAnswer_keeps, settleAll_keeps]

theorem execMessageRecordTimeout_keeps (n : Fin 16) (k : MsgKey) (s : State) (uu : State) (h : execMessageRecordTimeout n k s = .next uu) :
    uu.pending = s.pending ∧ uu.store.svn = s.store.svn := by
  unfold execMessageRecordTimeout at h; dsimp only at h; (repeat' split at h) <;> cases h <;> grind [modSpire_keeps,
      tagWrite_keeps, waitUntil_keeps]

theorem execClosedRecordExpiry_keeps (n : Fin 16) (k : MsgKey) (s : State) (uu : State) (h : execClosedRecordExpiry n k s = .next uu) :
    uu.pending = s.pending ∧ uu.store.svn = s.store.svn := by
  grind [execClosedRecordExpiry, modSpire_keeps, waitUntil_keeps]

theorem execMessagePartResend_keeps (n : Fin 16) (msg part : Nat) (s uu : State) (h : execMessagePartResend n msg part s = .next uu) :
    uu.pending = s.pending ∧ uu.store.svn = s.store.svn := by
  unfold execMessagePartResend at h
  split at h
  · exact next_keeps h ⟨rfl, rfl⟩
  · split at h
    · exact next_keeps h ⟨rfl, rfl⟩
    · split at h
      · exact next_keeps h ⟨rfl, rfl⟩
      · rename_i e
        have hw := fun f => keeps_trans (modSpire_keeps _ n f) (waitUntil_keeps _ _ _ e)
        dsimp only at h
        split at h
        · exact next_keeps h (keeps_trans (settleAll_keeps _) (keeps_trans (sendInside_keeps _ _ _ _ _) (hw _)))
        · split at h
          · exact next_keeps h (keeps_trans (settleAll_keeps _) (keeps_trans (sendPart_keeps _ _ _ _ _ _ _ _ _) (hw _)))
          · exact next_keeps h (hw _)

theorem execLanternFit_keeps (m : LanternModule) (s : State) (uu : State) (h : execLanternFit m s = .next uu) :
    uu.pending = s.pending ∧ uu.store.svn = s.store.svn := by
  unfold execLanternFit at h; (repeat' split at h) <;> cases h <;> simp [lanternRail_keeps, modOptics_keeps, setBay_keeps]

theorem execLanternLock_keeps (bay : Fin 3) (s : State) (uu : State) (h : execLanternLock bay s = .next uu) :
    uu.pending = s.pending ∧ uu.store.svn = s.store.svn := by
  unfold execLanternLock at h; (repeat' split at h) <;> cases h <;> simp [markDark_keeps, setBay_keeps]

theorem execLanternFault_keeps (bay : Fin 3) (s : State) (uu : State) (h : execLanternFault bay s = .next uu) :
    uu.pending = s.pending ∧ uu.store.svn = s.store.svn := by
  unfold execLanternFault at h; (repeat' split at h) <;> cases h <;> simp [bayFault_keeps]

theorem execSelectorSettled_keeps (s : State) (uu : State) (h : execSelectorSettled s = .next uu) :
    uu.pending = s.pending ∧ uu.store.svn = s.store.svn := by
  unfold execSelectorSettled at h; dsimp only at h; (repeat' split at h) <;> cases h <;> simp_all [modOptics_keeps,
      setFlag_keeps, setFld_keeps]

theorem execEmergencySwap_keeps (e : Side) (s : State) (uu : State) (h : execEmergencySwap e s = .next uu) :
    uu.pending = s.pending ∧ uu.store.svn = s.store.svn := by
  unfold execEmergencySwap at h; (repeat' split at h) <;> cases h <;> simp [addWrap_keeps, bump_keeps, post_keeps,
      swapSide_keeps]

theorem execSwapEast_keeps (f : Func) (v : Word) (s : State) (uu : State) (h : execSwapEast f v s = .next uu) :
    uu.pending = s.pending ∧ uu.store.svn = s.store.svn := by
  unfold execSwapEast at h; cases h; exact write_keeps _ _ _ _ _ fun t h => by grind [lnCtlOp_keeps, put_keeps, write_keeps]

theorem execSwapWest_keeps (f : Func) (v : Word) (s : State) (uu : State) (h : execSwapWest f v s = .next uu) :
    uu.pending = s.pending ∧ uu.store.svn = s.store.svn := by
  unfold execSwapWest at h; cases h; exact write_keeps _ _ _ _ _ fun t h => by grind [lnCtlOp_keeps, put_keeps, write_keeps]

theorem execLanternReturn_keeps (f : Func) (v : Word) (s : State) (uu : State) (h : execLanternReturn f v s = .next uu) :
    uu.pending = s.pending ∧ uu.store.svn = s.store.svn := by
  unfold execLanternReturn at h; cases h; exact write_keeps _ _ _ _ _ fun t h => by grind [lnCtlOp_keeps, put_keeps,
      write_keeps]

theorem execAnomRecord_keeps (e : Side) (amps : List (Fin 48 × Fin 48 × Fin 4 × Nat)) (s : State) (uu : State) (h : execAnomRecord e amps s = .next uu) :
    uu.pending = s.pending ∧ uu.store.svn = s.store.svn := by
  unfold execAnomRecord at h; dsimp only at h; (repeat' split at h) <;> cases h <;> simp_all [modOptics_keeps]

theorem execRotationRowStart_keeps (s : State) (uu : State) (h : execRotationRowStart s = .next uu) :
    uu.pending = s.pending ∧ uu.store.svn = s.store.svn := by
  unfold execRotationRowStart at h; dsimp only at h; (repeat' split at h) <;> cases h <;> grind [calSkip_keeps,
      modOptics_keeps, setFld_keeps, waitUntil_keeps]

theorem execRecalBuffersEmpty_keeps (st : Fin 48) (p : Fin 4) (s : State) (uu : State) (h : execRecalBuffersEmpty st p s = .next uu) :
    uu.pending = s.pending ∧ uu.store.svn = s.store.svn := by
  unfold execRecalBuffersEmpty at h; (repeat' split at h) <;> cases h <;> simp [sendProbe_keeps, setSweep_keeps]

theorem execRecalAbandon_keeps (st : Fin 48) (p : Fin 4) (s : State) (uu : State) (h : execRecalAbandon st p s = .next uu) :
    uu.pending = s.pending ∧ uu.store.svn = s.store.svn := by
  grind [execRecalAbandon, calSkip_keeps, setSweep_keeps, waitUntil_keeps]

theorem execSweepDone_keeps (st : Fin 48) (p : Fin 4) (r : Sweep) (s : State) (uu : State) (h : execSweepDone st p r s = .next uu) :
    uu.pending = s.pending ∧ uu.store.svn = s.store.svn := by
  grind [execSweepDone, calEvent_keeps, setSweep_keeps, settleAll_keeps, sweptRow_keeps, trainRow_keeps, waitUntil_keeps]

theorem execRecalGo_keeps (f : Func) (e : Side) (v : Word) (s : State) (uu : State) (h : execRecalGo f e v s = .next uu) :
    uu.pending = s.pending ∧ uu.store.svn = s.store.svn := by
  unfold execRecalGo at h; cases h; exact write_keeps _ _ _ _ _ fun t h => by grind [put_keeps, recalOp_keeps, write_keeps]

theorem execThermalMapPublish_keeps (s : State) (uu : State) (h : execThermalMapPublish s = .next uu) :
    uu.pending = s.pending ∧ uu.store.svn = s.store.svn := by
  grind [execThermalMapPublish, modOptics_keeps, publishMap_keeps]

theorem execHostLinkTrain_keeps (rate : BitVec 3) (width : BitVec 4) (flit : Bool) (s : State) (uu : State) (h : execHostLinkTrain rate width flit s = .next uu) :
    uu.pending = s.pending ∧ uu.store.svn = s.store.svn := by
  unfold execHostLinkTrain at h; (repeat' split at h) <;> cases h <;> simp [postGlobal_keeps, put_keeps, ite_keeps]

theorem cfgWrite_keeps (s : State) (i : Nat) (v : Word) (r : CfgReg) :
    (s.cfgWrite i v r).pending = s.pending ∧ (s.cfgWrite i v r).store.svn = s.store.svn := by
  cases r <;> unfold State.cfgWrite <;> dsimp only <;> (repeat' split) <;> simp [modFn_keeps]

theorem execConfigRequest_keeps (a : ConfigAccess) (s uu : State) (h : execConfigRequest a s = .next uu) :
    uu.pending = s.pending ∧ uu.store.svn = s.store.svn := by
  unfold execConfigRequest at h
  dsimp only at h
  (repeat' split at h) <;> first
    | exact next_keeps h ⟨rfl, rfl⟩
    | exact next_keeps h (cfgWrite_keeps s _ _ _)

theorem execFlr_keeps (f : Func) (s : State) (uu : State) (h : execFlr f s = .next uu) :
    uu.pending = s.pending ∧ uu.store.svn = s.store.svn := by
  unfold execFlr at h; (repeat' split at h) <;> cases h <;> simp [abortMbox_keeps, modFn_keeps, put_keeps, setFld_keeps,
      ite_keeps]

theorem execMbTxData_keeps (f : Func) (m : Fin 25) (toBelfry : Bool) (w : Word) (bytes : Nat) (s uu : State)
    (h : execMbTxData f m toBelfry w bytes s = .next uu) : uu.pending = s.pending ∧ uu.store.svn = s.store.svn := by
  unfold execMbTxData at h
  split at h
  · refine next_keeps h ?_
    refine mailWidth_keeps _ _ _ _ _ _ ?_
    split
    · exact write_keeps _ _ _ _ _ fun t e => by contradiction
    · exact write_keeps _ _ _ _ _ fun t e => mbTxOp_keeps _ _ _ _ e
  · dsimp only at h
    (repeat' split at h) <;> exact next_keeps h (by simp [modMbox_keeps])

theorem execMbRxPop_keeps (f : Func) (m : Fin 9) (v : Word) (s : State) (uu : State) (h : execMbRxPop f m v s = .next uu) :
    uu.pending = s.pending ∧ uu.store.svn = s.store.svn := by
  unfold execMbRxPop at h; cases h; exact write_keeps _ _ _ _ _ fun t h => by grind [mbPopOp_keeps, put_keeps, write_keeps]

theorem execDoorbell_keeps (f : Func) (m : Fin 25) (toBelfry : Bool) (s uu : State)
    (h : execDoorbell f m toBelfry s = .next uu) : uu.pending = s.pending ∧ uu.store.svn = s.store.svn := by
  unfold execDoorbell at h
  split at h
  · split at h
    · exact next_keeps h (write_keeps _ _ _ _ _ fun t e => mbCtlOp_keeps _ _ _ _ e)
    · exact next_keeps h (by split <;> simp [modMbox_keeps])
  · (repeat' split at h) <;> exact next_keeps h (by simp [modMbox_keeps, hostNotice_keeps])

theorem execFlushTx_keeps (f : Func) (m : Fin 25) (b : Bool) (s uu : State)
    (h : execFlushTx f m b s = .next uu) : uu.pending = s.pending ∧ uu.store.svn = s.store.svn := by
  unfold execFlushTx at h
  split at h
  · exact next_keeps h (by split <;> simp [flushDown_keeps])
  · split at h
    · exact next_keeps h (write_keeps _ _ _ _ _ fun t e => mbCtlOp_keeps _ _ _ _ e)
    · exact next_keeps h (by split <;> simp [flushUp_keeps])

theorem execFlushRx_keeps (f : Func) (m : Fin 25) (b : Bool) (s uu : State)
    (h : execFlushRx f m b s = .next uu) : uu.pending = s.pending ∧ uu.store.svn = s.store.svn := by
  unfold execFlushRx at h
  split at h
  · exact next_keeps h (by split <;> simp [dropUp_keeps])
  · split at h
    · exact next_keeps h (write_keeps _ _ _ _ _ fun t e => mbCtlOp_keeps _ _ _ _ e)
    · exact next_keeps h (by split <;> simp [modMbox_keeps])

theorem execStatus_keeps (m : Fin 9) (mid : BitVec 16) (s : State) (uu : State) (h : execStatus m mid s = .next uu) :
    uu.pending = s.pending ∧ uu.store.svn = s.store.svn := by
  unfold execStatus at h; cases h; simp [mailServe_keeps]

theorem execImageWrite_keeps (m : Fin 9) (mid : BitVec 16) (type : Nat) (offset : Nat) (words : List Word) (s : State) (uu : State) (h : execImageWrite m mid type offset words s = .next uu) :
    uu.pending = s.pending ∧ uu.store.svn = s.store.svn := by
  unfold execImageWrite at h; cases h; simp [mailServe_keeps, ite_keeps, ite_snd]

theorem execImageCommit_keeps (m : Fin 9) (mid : BitVec 16) (type length : Nat) (s : State) (uu : State) (h : execImageCommit m mid type length s = .next uu) :
    uu.pending = s.pending ∧ uu.store.svn = s.store.svn := by
  unfold execImageCommit at h; cases h; simp [mailServe_keeps, ite_keeps, ite_snd]

theorem mailServe_floor (floor : Nat → Nat) (s : State) (m : Nat) (mid : BitVec 16) (cmd : Nat) (args : List Word)
    (run : State → Nat × List Word × State) (hs : ∀ k, floor k ≤ tget 0 s.store.svn k)
    (h : ∀ t, (∀ k, floor k ≤ tget 0 t.store.svn k) →
      (run t).2.2.pending = t.pending ∧ ∀ k, floor k ≤ tget 0 (run t).2.2.store.svn k) :
    (s.mailServe m mid cmd args run).pending = s.pending ∧ ∀ k,
        floor k ≤ tget 0 (s.mailServe m mid cmd args run).store.svn k := by
  unfold State.mailServe
  split
  · exact ⟨rfl, hs⟩
  · rw [(mailAnswer_keeps _ _ _ _ _ _).1, (mailAnswer_keeps _ _ _ _ _ _).2]
    have ht : ∀ k, floor k ≤ tget 0 (s.mailTaken m (args.length + 1)).store.svn k := by
      rw [(mailTaken_keeps _ _ _).2]; exact hs
    split
    · exact ⟨(mailTaken_keeps _ _ _).1, ht⟩
    · exact ⟨(h _ ht).1.trans (mailTaken_keeps _ _ _).1, (h _ ht).2⟩

theorem le_tset (t : Tab Nat) (n v k : Nat) : (if k = n then v else tget 0 t k) ≤ tget 0 (tset 0 t n v) k := by
  induction t with
  | nil => grind [tset, tget]
  | cons e t ih => grind [tset, tget]

theorem tset_floor (floor : Nat → Nat) (t : Tab Nat) (n v : Nat) (h : ∀ k, floor k ≤ tget 0 t k) (hv : floor n ≤ v) :
    ∀ k, floor k ≤ tget 0 (tset 0 t n v) k := by
  intro k
  have := le_tset t n v k
  have := h k
  split at * <;> grind

theorem execSvnRaise_floor (floor : Nat → Nat) (m : Fin 9) (mid : BitVec 16) (type svn : Nat) (s uu : State)
    (hs : ∀ k, floor k ≤ tget 0 s.store.svn k) (h : execSvnRaise m mid type svn s = .next uu) :
    uu.pending = s.pending ∧ ∀ k, floor k ≤ tget 0 uu.store.svn k := by
  unfold execSvnRaise at h
  injection h with e
  rw [← e]
  refine mailServe_floor _ _ _ _ _ _ _ hs fun t ht => ?_
  dsimp only
  split
  · exact ⟨rfl, ht⟩
  · rename_i hn
    refine ⟨rfl, tset_floor _ _ _ _ ht ?_⟩
    have := ht type
    omega

theorem execWellRemap_keeps (m : Fin 9) (mid : BitVec 16) (spire cell row : Nat) (s uu : State)
    (h : execWellRemap m mid spire cell row s = .next uu) : uu.pending = s.pending ∧ uu.store.svn = s.store.svn := by
  refine next_keeps h ?_
  refine mailServe_keeps _ _ _ _ _ _ fun t => ?_
  split
  · exact ⟨rfl, rfl⟩
  · split
    · exact ⟨rfl, rfl⟩
    · split
      · exact ⟨rfl, rfl⟩
      · split
        · rename_i e; exact spRemapOp_keeps _ _ _ _ e
        · exact ⟨rfl, rfl⟩

theorem execLogRead_keeps (m : Fin 9) (mid : BitVec 16) (seq : Word) (count : Nat) (s : State) (uu : State) (h : execLogRead m mid seq count s = .next uu) :
    uu.pending = s.pending ∧ uu.store.svn = s.store.svn := by
  unfold execLogRead at h; cases h; simp [mailServe_keeps, ite_snd]

theorem execSetDevId_keeps (m : Fin 9) (mid : BitVec 16) (id : Word) (s uu : State)
    (h : execSetDevId m mid id s = .next uu) : uu.pending = s.pending ∧ uu.store.svn = s.store.svn := by
  refine next_keeps h ?_
  refine mailServe_keeps _ _ _ _ _ _ fun t => ?_
  split
  · rename_i e; exact fabIdOp_keeps _ _ _ e
  · exact ⟨rfl, rfl⟩

theorem execRegWrite_keeps (k : Pkt) (s : State) (uu : State) (h : execRegWrite k s = .next uu) :
    uu.pending = s.pending ∧ uu.store.svn = s.store.svn := by
  unfold execRegWrite at h; dsimp only at h; (repeat' split at h) <;> cases h <;> grind [mgmtReply_keeps,
      mgmtWrites_keeps, takeMgmt_keeps]

theorem execRegRead_keeps (k : Pkt) (s uu : State) (h : execRegRead k s = .next uu) :
    uu.pending = s.pending ∧ uu.store.svn = s.store.svn := by
  unfold execRegRead at h
  have ht := takeMgmt_keeps s k
  split at h
  · rename_i e; rw [e] at ht; exact next_keeps h ht
  · rename_i e
    rw [e] at ht
    dsimp only at h
    split at h
    · exact next_keeps h (keeps_trans (mgmtReply_keeps _ _ _ _) ht)
    · exact next_keeps h (keeps_trans (mgmtReply_keeps _ _ _ _) (keeps_trans (foldl_keeps1 _ _ _ fun t o => readReg_keeps _ _ _ _) ht))

theorem execBundleReceive_keeps (a d : Fin 48) (p : Fin 4) (errs : List (BitVec 560)) (s : State) (uu : State) (h : execBundleReceive a d p errs s = .next uu) :
    uu.pending = s.pending ∧ uu.store.svn = s.store.svn := by
  grind [execBundleReceive, blocksIn_keeps, idle_keeps, settleAll_keeps]

theorem execIdleFlitReceive_keeps (a d : Fin 48) (p : Fin 4) (errs : List (BitVec 560)) (s : State) (uu : State) (h : execIdleFlitReceive a d p errs s = .next uu) :
    uu.pending = s.pending ∧ uu.store.svn = s.store.svn := by
  grind [execIdleFlitReceive, blocksIn_keeps, idle_keeps, sendUnit_keeps, settleAll_keeps]

theorem execLinkRetryTimeout_keeps (a d : Fin 48) (p : Fin 4) (s : State) (uu : State) (h : execLinkRetryTimeout a d p s = .next uu) :
    uu.pending = s.pending ∧ uu.store.svn = s.store.svn := by
  unfold execLinkRetryTimeout at h; dsimp only at h; (repeat' split at h) <;> cases h <;> grind [modLink_keeps,
      pumpAll_keeps, resendLink_keeps, waitUntil_keeps]

theorem execBlockLockGain_keeps (a d : Fin 48) (b : LinkBlocks) (s : State) (uu : State) (h : execBlockLockGain a d b s = .next uu) :
    uu.pending = s.pending ∧ uu.store.svn = s.store.svn := by
  grind [execBlockLockGain, blocksIn_keeps, settleAll_keeps]

theorem execBlockLockLoss_keeps (a d : Fin 48) (b : LinkBlocks) (s : State) (uu : State) (h : execBlockLockLoss a d b s = .next uu) :
    uu.pending = s.pending ∧ uu.store.svn = s.store.svn := by
  grind [execBlockLockLoss, blocksIn_keeps, settleAll_keeps]

theorem execLinkFail_keeps (a d : Fin 48) (p : Fin 4) (s : State) (uu : State) (h : execLinkFail a d p s = .next uu) :
    uu.pending = s.pending ∧ uu.store.svn = s.store.svn := by
  unfold execLinkFail at h; dsimp only at h; (repeat' split at h) <;> cases h <;> grind [linkFails_keeps, waitUntil_keeps]

theorem execLinkQuery_keeps (a d : Fin 48) (p : Fin 4) (s : State) (uu : State) (h : execLinkQuery a d p s = .next uu) :
    uu.pending = s.pending ∧ uu.store.svn = s.store.svn := by
  unfold execLinkQuery at h; (repeat' split at h) <;> cases h <;> simp [deliver_keeps]

theorem execLinkReply_keeps (a d : Fin 48) (p : Fin 4) (seq : BitVec 10) (s : State) (uu : State) (h : execLinkReply a d p seq s = .next uu) :
    uu.pending = s.pending ∧ uu.store.svn = s.store.svn := by
  unfold execLinkReply at h; (repeat' split at h) <;> cases h <;> simp [linkAnswered_keeps]

theorem execLinkBackgroundRetrain_keeps (a d : Fin 48) (p : Fin 4) (up : Bool) (s : State) (uu : State) (h : execLinkBackgroundRetrain a d p up s = .next uu) :
    uu.pending = s.pending ∧ uu.store.svn = s.store.svn := by
  unfold execLinkBackgroundRetrain at h; dsimp only at h; (repeat' split at h) <;> cases h <;> grind [modLink_keeps,
      trainLink_keeps, waitUntil_keeps]

theorem execDetourRelay_keeps (r : Fin 48) (s : State) (uu : State) (h : execDetourRelay r s = .next uu) :
    uu.pending = s.pending ∧ uu.store.svn = s.store.svn := by
  grind [execDetourRelay, hdrFabric_keeps, modOculus_keeps, relayOn_keeps, settleAll_keeps]

theorem execPairViaWrite_keeps (f : Func) (e : Side) (v : Word) (s : State) (uu : State) (h : execPairViaWrite f e v s = .next uu) :
    uu.pending = s.pending ∧ uu.store.svn = s.store.svn := by
  unfold execPairViaWrite at h; cases h; exact write_keeps _ _ _ _ _ fun t h => by grind [pairViaOp_keeps, write_keeps]

theorem execLaneErrorWindow_keeps (a d : Fin 48) (p : Fin 4) (rx : Bool) (t : LaneTest) (s : State) (uu : State) (h : execLaneErrorWindow a d p rx t s = .next uu) :
    uu.pending = s.pending ∧ uu.store.svn = s.store.svn := by
  unfold execLaneErrorWindow at h; dsimp only at h; (repeat' split at h) <;> cases h <;> grind [judgeLane_keeps,
      modLink_keeps, setFld_keeps, sparesOut_keeps, waitUntil_keeps]

end Sys2Proof.Machine
end

