-- ==== Sys2Proof/Laws/KeepCommandsB.lean ====
section
/-! SUPPORT. What the commands leave alone, one lemma per command: the waiting commands and the minimum security
versions; an SVN_RAISE never lowers one. -/

namespace Sys2Proof.Machine

theorem execInputUndervoltage_keeps (s : State) (uu : State) (h : execInputUndervoltage s = .next uu) :
    uu.pending = s.pending ∧ uu.store.svn = s.store.svn := by
  unfold execInputUndervoltage at h; (repeat' split at h) <;> cases h <;> simp [postGlobal_keeps, setFlag_keeps]

theorem execInputOvervoltageWarn_keeps (s : State) (uu : State) (h : execInputOvervoltageWarn s = .next uu) :
    uu.pending = s.pending ∧ uu.store.svn = s.store.svn := by
  unfold execInputOvervoltageWarn at h; (repeat' split at h) <;> cases h <;> simp [postGlobal_keeps, setFlag_keeps]

theorem execInputVoltageReturn_keeps (s : State) (uu : State) (h : execInputVoltageReturn s = .next uu) :
    uu.pending = s.pending ∧ uu.store.svn = s.store.svn := by
  unfold execInputVoltageReturn at h; cases h; simp [setFld_keeps]

theorem execInputCurrentLimit_keeps (s : State) (uu : State) (h : execInputCurrentLimit s = .next uu) :
    uu.pending = s.pending ∧ uu.store.svn = s.store.svn := by
  unfold execInputCurrentLimit at h; cases h; simp [powerFail_keeps]

theorem execPowerFail_keeps (s : State) (uu : State) (h : execPowerFail s = .next uu) :
    uu.pending = s.pending ∧ uu.store.svn = s.store.svn := by
  unfold execPowerFail at h; cases h; simp [powerFail_keeps]

theorem execRailFail_keeps (rail : Fin 85) (mv : BitVec 32) (s uu : State) (h : execRailFail rail mv s = .next uu) :
    uu.pending = s.pending ∧ uu.store.svn = s.store.svn := by
  have hl := railLog_keeps s rail.val mv.toNat
  unfold execRailFail at h
  split at h
  · exact next_keeps h ⟨rfl, rfl⟩
  dsimp only at h
  (repeat' split at h) <;> refine next_keeps h ?_
  · exact keeps_trans (powerFail_keeps _) hl
  · exact keeps_trans (belfryStop_keeps _ _ _) hl
  · exact keeps_trans (settleAll_keeps _) (keeps_trans (oculusFatal_keeps _ _ _) hl)
  · exact keeps_trans (wantHalve_keeps _ _ _) hl
  · exact hl
  · exact keeps_trans (settleAll_keeps _) (keeps_trans (gateRetry_keeps _ _) (keeps_trans (foldl_keeps _ _ _ fun s x => channelFail_keeps _ _ _) hl))
  · exact keeps_trans (settleAll_keeps _) (keeps_trans (spireDown_keeps _ _) hl)
  · exact keeps_trans (settleAll_keeps _) (keeps_trans (spireBlank_keeps _ _) (keeps_trans (spireDown_keeps _ _) hl))

theorem execBusConverterFail_keeps (b : Bool) (s : State) (uu : State) (h : execBusConverterFail b s = .next uu) :
    uu.pending = s.pending ∧ uu.store.svn = s.store.svn := by
  unfold execBusConverterFail at h; dsimp only at h; (repeat' split at h) <;> cases h <;> simp_all [postGlobal_keeps,
      setCaps_keeps, setFlag_keeps]

theorem execStackOverrun_keeps (n : Fin 16) (s : State) (uu : State) (h : execStackOverrun n s = .next uu) :
    uu.pending = s.pending ∧ uu.store.svn = s.store.svn := by
  unfold execStackOverrun at h; dsimp only at h; (repeat' split at h) <;> cases h <;> simp_all [bump_keeps,
      modPower_keeps, postGlobal_keeps, setFlag_keeps]

theorem execInputMonitorSample_keeps (v i : Nat) (s : State) (uu : State) (h : execInputMonitorSample v i s = .next uu) :
    uu.pending = s.pending ∧ uu.store.svn = s.store.svn := by
  grind [execInputMonitorSample, inputSample_keeps, waitUntil_keeps]

theorem execGuardRecoveryStep_keeps (s : State) (uu : State) (h : execGuardRecoveryStep s = .next uu) :
    uu.pending = s.pending ∧ uu.store.svn = s.store.svn := by
  grind [execGuardRecoveryStep, modPower_keeps, setGuard_keeps, waitUntil_keeps]

theorem execSensorSample_keeps (t : List (Option Int)) (s : State) (uu : State) (h : execSensorSample t s = .next uu) :
    uu.pending = s.pending ∧ uu.store.svn = s.store.svn := by
  unfold execSensorSample at h
  split at h
  · exact next_keeps h ⟨rfl, rfl⟩
  · split at h
    · exact next_keeps h ⟨rfl, rfl⟩
    · rename_i t e
      exact next_keeps h (keeps_trans (settleAll_keeps _) (keeps_trans (coolDown_keeps _) (keeps_trans (foldl_keeps _ _ _ fun s x => redRise_keeps _ _)
        (keeps_trans (foldl_keeps _ _ _ fun s x => senseOne_keeps _ _ _) (keeps_trans (modPower_keeps _ _) (waitUntil_keeps _ _ _ e))))))


theorem execThrottleRecoveryStep_keeps (s : State) (uu : State) (h : execThrottleRecoveryStep s = .next uu) :
    uu.pending = s.pending ∧ uu.store.svn = s.store.svn := by
  unfold execThrottleRecoveryStep at h
  split at h
  · exact next_keeps h ⟨rfl, rfl⟩
  · rename_i t e
    obtain ⟨a, -, e⟩ := Option.bind_eq_some_iff.1 e
    exact next_keeps h (keeps_trans (foldl_keeps _ _ _ fun s x => redFall_keeps _ _) (waitUntil_keeps _ _ _ e))


theorem execGatehouseTripResume_keeps (g : Fin 8) (s : State) (uu : State) (h : execGatehouseTripResume g s = .next uu) :
    uu.pending = s.pending ∧ uu.store.svn = s.store.svn := by
  unfold execGatehouseTripResume at h
  split at h
  · exact next_keeps h ⟨rfl, rfl⟩
  · split at h
    · exact next_keeps h ⟨rfl, rfl⟩
    · rename_i t e
      obtain ⟨a, -, e⟩ := Option.bind_eq_some_iff.1 e
      exact next_keeps h (keeps_trans (gateRetry_keeps _ _) (keeps_trans (modGate_keeps _ _ _) (waitUntil_keeps _ _ _ e)))


theorem execPlinthTripFence_keeps (e : Side) (s : State) (uu : State) (h : execPlinthTripFence e s = .next uu) :
    uu.pending = s.pending ∧ uu.store.svn = s.store.svn := by
  unfold execPlinthTripFence at h
  dsimp only at h
  split at h
  · exact next_keeps h ⟨rfl, rfl⟩
  · rename_i t e
    obtain ⟨a, -, e⟩ := Option.bind_eq_some_iff.1 e
    split at h
    · exact next_keeps h (keeps_trans (wantHalve_keeps _ _ _) (keeps_trans (modPower_keeps _ _) (waitUntil_keeps _ _ _ e)))
    · exact next_keeps h (keeps_trans (modPower_keeps _ _) (waitUntil_keeps _ _ _ e))

theorem execRegisterRead_keeps (f : Func) (page : Fin 16384) (at_ : RegSpan) (s : State) (uu : State) (h : execRegisterRead f page at_ s = .next uu) :
    uu.pending = s.pending ∧ uu.store.svn = s.store.svn := by
  unfold execRegisterRead at h; (repeat' split at h) <;> cases h <;> simp [readReg_keeps, readSpan_keeps]

theorem writeSpan_keeps (s : State) (f : Func) (loc : Nat) (l : List Word) :
    (s.writeSpan f loc l).pending = s.pending ∧ (s.writeSpan f loc l).store.svn = s.store.svn := by
  induction l generalizing s loc with
  | nil => exact ⟨rfl, rfl⟩
  | cons v l ih => exact keeps_trans (ih _ _) (writeReg_keeps _ _ _ _ _)

theorem execRegisterWrite_keeps (f : Func) (page : Fin 16384) (off : Fin 1024) (v : List Word) (bytes : Nat) (s uu : State)
    (h : execRegisterWrite f page off v bytes s = .next uu) :
    uu.pending = s.pending ∧ uu.store.svn = s.store.svn := by
  unfold execRegisterWrite at h
  dsimp only at h
  split at h
  · refine next_keeps h ?_
    split
    · exact unmapped_keeps _ _ _
    · exact write_keeps _ _ _ _ _ fun t e => by cases e
  · split at h
    · exact next_keeps h (mailWidth_keeps _ _ _ _ _ _ (writeReg_keeps _ _ _ _ _))
    · exact next_keeps h (writeSpan_keeps _ _ _ _)

theorem execUnmappedWrite_keeps (f : Func) (page : Fin 16384) (off : Fin 1024) (v : Word) (s : State) (uu : State) (h : execUnmappedWrite f page off v s = .next uu) :
    uu.pending = s.pending ∧ uu.store.svn = s.store.svn := by
  unfold execUnmappedWrite at h; cases h; simp [writeReg_keeps]

theorem execPageLock_keeps (f : Func) (page : Fin 16384) (v : Word) (s : State) (uu : State) (h : execPageLock f page v s = .next uu) :
    uu.pending = s.pending ∧ uu.store.svn = s.store.svn := by
  unfold execPageLock at h; cases h; simp [writeReg_keeps]

theorem execEvcClr_keeps (f : Func) (page : Fin 16384) (v : Word) (s : State) (uu : State) (h : execEvcClr f page v s = .next uu) :
    uu.pending = s.pending ∧ uu.store.svn = s.store.svn := by
  unfold execEvcClr at h; cases h; simp [writeReg_keeps]

theorem execEvcCntWrite_keeps (f : Func) (page : Fin 16384) (k : Fin 8) (high : Bool) (v : Word) (s : State) (uu : State) (h : execEvcCntWrite f page k high v s = .next uu) :
    uu.pending = s.pending ∧ uu.store.svn = s.store.svn := by
  unfold execEvcCntWrite at h; cases h; simp [writeReg_keeps]

theorem execResetCold_keeps (f : Func) (v : Word) (s : State) (uu : State) (h : execResetCold f v s = .next uu) :
    uu.pending = s.pending ∧ uu.store.svn = s.store.svn := by
  unfold execResetCold at h; cases h; simp [resetCmd_keeps]

theorem execResetModule_keeps (f : Func) (v : Word) (s : State) (uu : State) (h : execResetModule f v s = .next uu) :
    uu.pending = s.pending ∧ uu.store.svn = s.store.svn := by
  unfold execResetModule at h; cases h; simp [resetCmd_keeps]

theorem execResetPlinth_keeps (f : Func) (v : Word) (s : State) (uu : State) (h : execResetPlinth f v s = .next uu) :
    uu.pending = s.pending ∧ uu.store.svn = s.store.svn := by
  unfold execResetPlinth at h; cases h; simp [resetCmd_keeps]

theorem execResetSpire_keeps (f : Func) (v : Word) (s : State) (uu : State) (h : execResetSpire f v s = .next uu) :
    uu.pending = s.pending ∧ uu.store.svn = s.store.svn := by
  unfold execResetSpire at h; cases h; simp [resetCmd_keeps]

theorem execResetGatehouse_keeps (f : Func) (v : Word) (s : State) (uu : State) (h : execResetGatehouse f v s = .next uu) :
    uu.pending = s.pending ∧ uu.store.svn = s.store.svn := by
  unfold execResetGatehouse at h; cases h; simp [resetCmd_keeps]

theorem execResetPartition_keeps (f : Func) (v : Word) (s : State) (uu : State) (h : execResetPartition f v s = .next uu) :
    uu.pending = s.pending ∧ uu.store.svn = s.store.svn := by
  unfold execResetPartition at h; cases h; simp [resetCmd_keeps]

theorem execResetPort_keeps (f : Func) (v : Word) (s : State) (uu : State) (h : execResetPort f v s = .next uu) :
    uu.pending = s.pending ∧ uu.store.svn = s.store.svn := by
  unfold execResetPort at h; cases h; simp [resetCmd_keeps]

theorem execPlinthResetAssert_keeps (s : State) (uu : State) (h : execPlinthResetAssert s = .next uu) :
    uu.pending = s.pending ∧ uu.store.svn = s.store.svn := by
  grind [execPlinthResetAssert, plinthAssert_keeps, settleAll_keeps, waitUntil_keeps]

theorem execResetReturn_keeps (tests : List (Fin 16 × SpireTest)) (ok : Bool) (s uu : State) (h : execResetReturn tests ok s = .next uu) :
    uu.pending = s.pending ∧ uu.store.svn = s.store.svn := by
  unfold execResetReturn at h
  split at h
  · exact next_keeps h ⟨rfl, rfl⟩
  · have hi : ∀ (c : Prop) [Decidable c] (a b : State), (a.pending = b.pending ∧ a.store.svn = b.store.svn) →
        (if c then a else b).pending = b.pending ∧ (if c then a else b).store.svn = b.store.svn := by
      intro c _ a b h
      split
      · exact h
      · exact ⟨rfl, rfl⟩
    dsimp only at h
    split at h
    · exact next_keeps h (keeps_trans (settleAll_keeps _) (keeps_trans (modFaults_keeps _ _) (keeps_trans (applyHeld_keeps _) (keeps_trans (resetFailed_keeps _)
        (keeps_trans (hi _ _ _ (modPlinth_keeps _ _ _)) (keeps_trans (hi _ _ _ (modGate_keeps _ _ _)) (foldl_keeps _ _ _ fun s n => modSpire_keeps _ _ _)))))))
    · have hb := foldl_keeps (fun s n => if (State.spire s n).out = 1 then s.spireBack n (testOf tests n) else s)
      split at h
      · exact next_keeps h (keeps_trans (modFaults_keeps _ _) (keeps_trans (foldl_keeps _ _ _ fun s n => modSpire_keeps _ _ _)
          (foldl_keeps _ _ _ fun s n => hi _ _ _ (spireBack_keeps _ _ _))))
      · exact next_keeps h (keeps_trans (settleAll_keeps _) (keeps_trans (modFaults_keeps _ _) (keeps_trans (applyHeld_keeps _)
          (keeps_trans (hi _ _ _ (resetFailed_keeps _)) (keeps_trans (hi _ _ _ (modGate_keeps _ _ _))
          (foldl_keeps _ _ _ fun s n => hi _ _ _ (spireBack_keeps _ _ _)))))))


theorem execRecoveryAutoReset_keeps (s : State) (uu : State) (h : execRecoveryAutoReset s = .next uu) :
    uu.pending = s.pending ∧ uu.store.svn = s.store.svn := by
  grind [execRecoveryAutoReset, moduleReset_keeps, waitUntil_keeps]

theorem execLayoutCommit_keeps (f : Func) (v : Word) (s : State) (uu : State) (h : execLayoutCommit f v s = .next uu) :
    uu.pending = s.pending ∧ uu.store.svn = s.store.svn := by
  unfold execLayoutCommit at h; cases h; exact write_keeps _ _ _ _ _ fun t h => by grind [layCtlOp_keeps, put_keeps,
      write_keeps]

theorem execLayoutDiscard_keeps (f : Func) (v : Word) (s : State) (uu : State) (h : execLayoutDiscard f v s = .next uu) :
    uu.pending = s.pending ∧ uu.store.svn = s.store.svn := by
  unfold execLayoutDiscard at h; cases h; exact write_keeps _ _ _ _ _ fun t h => by grind [layCtlOp_keeps, put_keeps,
      write_keeps]

theorem execSeClaim_keeps (f : Func) (v : Word) (s : State) (uu : State) (h : execSeClaim f v s = .next uu) :
    uu.pending = s.pending ∧ uu.store.svn = s.store.svn := by
  unfold execSeClaim at h; cases h; exact write_keeps _ _ _ _ _ fun t h => by grind [put_keeps, seClaimOp_keeps, write_keeps]

theorem execSeRelease_keeps (f : Func) (v : Word) (s : State) (uu : State) (h : execSeRelease f v s = .next uu) :
    uu.pending = s.pending ∧ uu.store.svn = s.store.svn := by
  unfold execSeRelease at h; cases h; exact write_keeps _ _ _ _ _ fun t h => by grind [put_keeps, seClaimOp_keeps,
      write_keeps]

theorem execClaimLapse_keeps (s : State) (uu : State) (h : execClaimLapse s = .next uu) :
    uu.pending = s.pending ∧ uu.store.svn = s.store.svn := by
  grind [execClaimLapse, setFld_keeps, waitUntil_keeps]

theorem execKxOffer_keeps (f : Func) (v : Word) (s : State) (uu : State) (h : execKxOffer f v s = .next uu) :
    uu.pending = s.pending ∧ uu.store.svn = s.store.svn := by
  unfold execKxOffer at h; cases h; simp [seCmd_keeps]

theorem execKxAccept_keeps (f : Func) (v : Word) (bytes : Nat) (s : State) (uu : State) (h : execKxAccept f v bytes s = .next uu) :
    uu.pending = s.pending ∧ uu.store.svn = s.store.svn := by
  unfold execKxAccept at h; cases h; simp [seBytes_keeps]

theorem execKxFinish_keeps (f : Func) (v : Word) (bytes : Nat) (s : State) (uu : State) (h : execKxFinish f v bytes s = .next uu) :
    uu.pending = s.pending ∧ uu.store.svn = s.store.svn := by
  unfold execKxFinish at h; cases h; simp [seBytes_keeps]

theorem execKxActivate_keeps (f : Func) (v : Word) (s : State) (uu : State) (h : execKxActivate f v s = .next uu) :
    uu.pending = s.pending ∧ uu.store.svn = s.store.svn := by
  unfold execKxActivate at h; cases h; simp [seCmd_keeps]

theorem execKeyDrop_keeps (f : Func) (v : Word) (s : State) (uu : State) (h : execKeyDrop f v s = .next uu) :
    uu.pending = s.pending ∧ uu.store.svn = s.store.svn := by
  unfold execKeyDrop at h; cases h; simp [seCmd_keeps]

theorem execSessionEnd_keeps (f : Func) (v : Word) (s : State) (uu : State) (h : execSessionEnd f v s = .next uu) :
    uu.pending = s.pending ∧ uu.store.svn = s.store.svn := by
  unfold execSessionEnd at h; cases h; simp [seCmd_keeps]

theorem execSeCommandDone_keeps (s : State) (uu : State) (h : execSeCommandDone s = .next uu) :
    uu.pending = s.pending ∧ uu.store.svn = s.store.svn := by
  unfold execSeCommandDone at h; (repeat' split at h) <;> cases h <;> simp [bump_keeps, doneIrq_keeps, kxDone_keeps,
      modSec_keeps, setFlag_keeps, setFld_keeps, ite_keeps]

theorem execOldKeyExpiry_keeps (entry : Fin 4096) (s : State) (uu : State) (h : execOldKeyExpiry entry s = .next uu) :
    uu.pending = s.pending ∧ uu.store.svn = s.store.svn := by
  unfold execOldKeyExpiry at h; dsimp only at h; (repeat' split at h) <;> cases h <;> grind [setKey_keeps,
      waitUntil_keeps]

theorem execEntropyFail_keeps (test : BitVec 8) (s : State) (uu : State) (h : execEntropyFail test s = .next uu) :
    uu.pending = s.pending ∧ uu.store.svn = s.store.svn := by
  unfold execEntropyFail at h; cases h; simp [post_keeps, setFlag_keeps]

theorem execAttReport_keeps (f : Func) (v : Word) (s : State) (uu : State) (h : execAttReport f v s = .next uu) :
    uu.pending = s.pending ∧ uu.store.svn = s.store.svn := by
  unfold execAttReport at h; cases h; exact write_keeps _ _ _ _ _ fun t h => by grind [attCmdOp_keeps, put_keeps, write_keeps]

theorem execAttReportDone_keeps (s : State) (uu : State) (h : execAttReportDone s = .next uu) :
    uu.pending = s.pending ∧ uu.store.svn = s.store.svn := by
  unfold execAttReportDone at h; (repeat' split at h) <;> cases h <;> simp [modSec_keeps, reportAll_keeps,
      reportCount_keeps, setFlag_keeps]

theorem execSpdmGetVersion_keeps (f : Func) (s : State) (uu : State) (h : execSpdmGetVersion f s = .next uu) :
    uu.pending = s.pending ∧ uu.store.svn = s.store.svn := by
  unfold execSpdmGetVersion at h; cases h; simp [doe_keeps, modFn_keeps]

theorem execSpdmGetCapabilities_keeps (f : Func) (s : State) (uu : State) (h : execSpdmGetCapabilities f s = .next uu) :
    uu.pending = s.pending ∧ uu.store.svn = s.store.svn := by
  unfold execSpdmGetCapabilities at h; cases h; simp [doe_keeps, modFn_keeps]

theorem execSpdmNegotiateAlgorithms_keeps (f : Func) (s : State) (uu : State) (h : execSpdmNegotiateAlgorithms f s = .next uu) :
    uu.pending = s.pending ∧ uu.store.svn = s.store.svn := by
  unfold execSpdmNegotiateAlgorithms at h; cases h; simp [doe_keeps, modFn_keeps]

theorem execSpdmVendorDefined_keeps (f : Func) (nonce : List Byte) (s : State) (uu : State) (h : execSpdmVendorDefined f nonce s = .next uu) :
    uu.pending = s.pending ∧ uu.store.svn = s.store.svn := by
  unfold execSpdmVendorDefined at h; cases h; simp [doe_keeps, reportAll_keeps, reportCount_keeps]

theorem execSpdmKeyExchange_keeps (f : Func) (s : State) (uu : State) (h : execSpdmKeyExchange f s = .next uu) :
    uu.pending = s.pending ∧ uu.store.svn = s.store.svn := by
  unfold execSpdmKeyExchange at h; cases h; simp [doe_keeps, draw_keeps, modFn_keeps]

theorem execIdeKm_keeps (f : Func) (key : BitVec 256) (s : State) (uu : State) (h : execIdeKm f key s = .next uu) :
    uu.pending = s.pending ∧ uu.store.svn = s.store.svn := by
  unfold execIdeKm at h; cases h; simp [doe_keeps, modFn_keeps]

theorem execSidebandInputEdge_keeps (i : Fin 10) (high : Bool) (s : State) (uu : State) (h : execSidebandInputEdge i high s = .next uu) :
    uu.pending = s.pending ∧ uu.store.svn = s.store.svn := by
  unfold execSidebandInputEdge at h; cases h; simp [filteredEdge_keeps]

theorem execResetNAssert_keeps (s : State) (uu : State) (h : execResetNAssert s = .next uu) :
    uu.pending = s.pending ∧ uu.store.svn = s.store.svn := by
  unfold execResetNAssert at h; cases h; simp [filteredEdge_keeps]

theorem execResetNRelease_keeps (s : State) (uu : State) (h : execResetNRelease s = .next uu) :
    uu.pending = s.pending ∧ uu.store.svn = s.store.svn := by
  unfold execResetNRelease at h; cases h; simp [filteredEdge_keeps]

theorem execInputChatter_keeps (i : Fin 10) (edges : Nat) (s : State) (uu : State) (h : execInputChatter i edges s = .next uu) :
    uu.pending = s.pending ∧ uu.store.svn = s.store.svn := by
  unfold execInputChatter at h; (repeat' split at h) <;> cases h <;> simp [bayFault_keeps, intlkStuck_keeps,
      postGlobal_keeps, setFlag_keeps]

theorem execChatterClear_keeps (i : Fin 10) (s : State) (uu : State) (h : execChatterClear i s = .next uu) :
    uu.pending = s.pending ∧ uu.store.svn = s.store.svn := by
  grind [execChatterClear, setFlag_keeps, takeInput_keeps, waitUntil_keeps]

theorem execInputStuck_keeps (i : Fin 10) (s : State) (uu : State) (h : execInputStuck i s = .next uu) :
    uu.pending = s.pending ∧ uu.store.svn = s.store.svn := by
  unfold execInputStuck at h; dsimp only at h; (repeat' split at h) <;> cases h <;> grind [postGlobal_keeps,
      setFlag_keeps, waitUntil_keeps]

theorem execSmbusSensorRead_keeps (s : State) (uu : State) (h : execSmbusSensorRead s = .next uu) :
    uu.pending = s.pending ∧ uu.store.svn = s.store.svn := by
  unfold execSmbusSensorRead at h; cases h; simp [smbus_keeps]

theorem execSmbusPowerRead_keeps (s : State) (uu : State) (h : execSmbusPowerRead s = .next uu) :
    uu.pending = s.pending ∧ uu.store.svn = s.store.svn := by
  unfold execSmbusPowerRead at h; cases h; simp [smbus_keeps]

theorem execSmbusBootRead_keeps (s : State) (uu : State) (h : execSmbusBootRead s = .next uu) :
    uu.pending = s.pending ∧ uu.store.svn = s.store.svn := by
  unfold execSmbusBootRead at h; cases h; simp [smbus_keeps]

theorem execSmbusSidebandRead_keeps (s : State) (uu : State) (h : execSmbusSidebandRead s = .next uu) :
    uu.pending = s.pending ∧ uu.store.svn = s.store.svn := by
  unfold execSmbusSidebandRead at h; cases h; simp [smbus_keeps]

theorem execSmbusIdentityRead_keeps (s : State) (uu : State) (h : execSmbusIdentityRead s = .next uu) :
    uu.pending = s.pending ∧ uu.store.svn = s.store.svn := by
  unfold execSmbusIdentityRead at h; cases h; simp [smbus_keeps]

theorem execMergeAgeEvict_keeps (n : Fin 16) (c : Fin 64) (row : Nat) (cw : Fin 8) (s : State) (uu : State) (h : execMergeAgeEvict n c row cw s = .next uu) :
    uu.pending = s.pending ∧ uu.store.svn = s.store.svn := by
  grind [execMergeAgeEvict, evict_keeps, waitCycles_keeps]

theorem execSramDrain_keeps (f : Func) (n : Fin 16) (v : Word) (s : State) (uu : State) (h : execSramDrain f n v s = .next uu) :
    uu.pending = s.pending ∧ uu.store.svn = s.store.svn := by
  unfold execSramDrain at h; cases h; exact write_keeps _ _ _ _ _ fun t h => by grind [put_keeps, sramCtlOp_keeps,
      write_keeps]

theorem execSramRemap_keeps (f : Func) (n : Fin 16) (v : Word) (s : State) (uu : State) (h : execSramRemap f n v s = .next uu) :
    uu.pending = s.pending ∧ uu.store.svn = s.store.svn := by
  unfold execSramRemap at h; cases h; exact write_keeps _ _ _ _ _ fun t h => by grind [put_keeps, spRemapOp_keeps,
      write_keeps]

theorem execSramRemapCopyDone_keeps (n : Fin 16) (s : State) (uu : State) (h : execSramRemapCopyDone n s = .next uu) :
    uu.pending = s.pending ∧ uu.store.svn = s.store.svn := by
  unfold execSramRemapCopyDone at h; dsimp only at h; (repeat' split at h) <;> cases h <;> simp_all [abandonRemap_keeps, copyRow_keeps, modSpire_keeps]

theorem execFlipArm_keeps (f : Func) (n : Fin 16) (v : Word) (s : State) (uu : State) (h : execFlipArm f n v s = .next uu) :
    uu.pending = s.pending ∧ uu.store.svn = s.store.svn := by
  unfold execFlipArm at h; cases h; exact write_keeps _ _ _ _ _ fun t h => by grind [put_keeps, spFlipSelOp_keeps,
      write_keeps]

theorem execFlipDisarm_keeps (f : Func) (n : Fin 16) (v : Word) (s : State) (uu : State) (h : execFlipDisarm f n v s = .next uu) :
    uu.pending = s.pending ∧ uu.store.svn = s.store.svn := by
  unfold execFlipDisarm at h; cases h; exact write_keeps _ _ _ _ _ fun t h => by grind [put_keeps, spFlipSelOp_keeps,
      write_keeps]

theorem execBondSelfTest_keeps (n : Fin 16) (c : Fin 64) (g : Fin 37) (lanes : List (Fin 68)) (s : State) (uu : State) (h : execBondSelfTest n c g lanes s = .next uu) :
    uu.pending = s.pending ∧ uu.store.svn = s.store.svn := by
  unfold execBondSelfTest at h; (repeat' split at h) <;> cases h <;> simp [bondTest_keeps]

theorem execBondRotationOverdue_keeps (n : Fin 16) (c : Fin 64) (s : State) (uu : State) (h : execBondRotationOverdue n c s = .next uu) :
    uu.pending = s.pending ∧ uu.store.svn = s.store.svn := by
  grind [execBondRotationOverdue, rotOverdue_keeps, waitUntil_keeps]

theorem execGovernorWindow_keeps (n : Fin 16) (north south : Activity) (s : State) (uu : State) (h : execGovernorWindow n north south s = .next uu) :
    uu.pending = s.pending ∧ uu.store.svn = s.store.svn := by
  grind [execGovernorWindow, governorWindow_keeps, waitUntil_keeps]

theorem execGovernorCorrection_keeps (n : Fin 16) (measured : BitVec 10) (s : State) (uu : State) (h : execGovernorCorrection n measured s = .next uu) :
    uu.pending = s.pending ∧ uu.store.svn = s.store.svn := by
  grind [execGovernorCorrection, governorCorrect_keeps, waitUntil_keeps]

theorem execArrayPowerCycleDone_keeps (n : Fin 16) (t : SpireTest) (s : State) (uu : State) (h : execArrayPowerCycleDone n t s = .next uu) :
    uu.pending = s.pending ∧ uu.store.svn = s.store.svn := by
  grind [execArrayPowerCycleDone, arrayBack_keeps, waitUntil_keeps]

theorem execStartStepEnd_keeps (r : StepResult) (s : State) (uu : State) (h : execStartStepEnd r s = .next uu) :
    uu.pending = s.pending ∧ uu.store.svn = s.store.svn := by
  grind [execStartStepEnd, settleAll_keeps, stepEnd_keeps]

theorem execStartStepLimit_keeps (r : StepResult) (s : State) (uu : State) (h : execStartStepLimit r s = .next uu) :
    uu.pending = s.pending ∧ uu.store.svn = s.store.svn := by
  grind [execStartStepLimit, settleAll_keeps, stepLimitEnd_keeps, waitUntil_keeps]

theorem execContinue_keeps (f : Func) (v : Word) (s : State) (uu : State) (h : execContinue f v s = .next uu) :
    uu.pending = s.pending ∧ uu.store.svn = s.store.svn := by
  unfold execContinue at h; cases h; exact write_keeps _ _ _ _ _ fun t h => by grind [put_keeps, startCtlOp_keeps,
      write_keeps]

theorem execSave_keeps (f : Func) (v : Word) (s : State) (uu : State) (h : execSave f v s = .next uu) :
    uu.pending = s.pending ∧ uu.store.svn = s.store.svn := by
  unfold execSave at h; cases h; exact write_keeps _ _ _ _ _ fun t h => by grind [put_keeps, startCtlOp_keeps, write_keeps]

theorem execFabIdWrite_keeps (f : Func) (v : Word) (s : State) (uu : State) (h : execFabIdWrite f v s = .next uu) :
    uu.pending = s.pending ∧ uu.store.svn = s.store.svn := by
  unfold execFabIdWrite at h; cases h; exact write_keeps _ _ _ _ _ fun t h => by grind [fabIdOp_keeps, write_keeps]

theorem execHotSwapClose_keeps (s : State) (uu : State) (h : execHotSwapClose s = .next uu) :
    uu.pending = s.pending ∧ uu.store.svn = s.store.svn := by
  unfold execHotSwapClose at h; (repeat' split at h) <;> cases h <;> simp [modPower_keeps, startUp_keeps, ite_keeps]

theorem execTaskCommit_keeps (f : Func) (n : Fin 16) (v : Word) (s : State) (uu : State) (h : execTaskCommit f n v s = .next uu) :
    uu.pending = s.pending ∧ uu.store.svn = s.store.svn := by
  unfold execTaskCommit at h; cases h; exact write_keeps _ _ _ _ _ fun t h => by grind [tskDataOp_keeps, write_keeps]

theorem execTskLoad_keeps (f : Func) (n : Fin 16) (v : Word) (s : State) (uu : State) (h : execTskLoad f n v s = .next uu) :
    uu.pending = s.pending ∧ uu.store.svn = s.store.svn := by
  unfold execTskLoad at h; cases h; exact write_keeps _ _ _ _ _ fun t h => by grind [put_keeps, tskLoadOp_keeps, write_keeps]

theorem execTskLoadEntryCommit_keeps (n : Fin 16) (s uu : State) (h : execTskLoadEntryCommit n s = .next uu) :
    uu.pending = s.pending ∧ uu.store.svn = s.store.svn := by
  unfold execTskLoadEntryCommit at h
  split at h
  · exact next_keeps h ⟨rfl, rfl⟩
  · split at h
    · exact next_keeps h (askLoad_keeps _ _)
    · refine next_keeps h (keeps_trans (loadNext_keeps _ _ _ _) ?_)
      split
      · exact ⟨rfl, rfl⟩
      · exact settle_keeps _ _ _ _ fun t e => tskCommit_keeps _ _ _ _ _ e

theorem execTaskStart_keeps (n : Fin 16) (c : Option (Fin 64)) (s uu : State) (h : execTaskStart n c s = .next uu) :
    uu.pending = s.pending ∧ uu.store.svn = s.store.svn := by
  unfold execTaskStart at h
  split at h
  · exact next_keeps h ⟨rfl, rfl⟩
  · split at h
    · dsimp only at h
      split at h
      · split at h
        · exact next_keeps h ⟨rfl, rfl⟩
        · exact next_keeps h (modSpire_keeps _ _ _)
      · exact next_keeps h ⟨rfl, rfl⟩
    · split at h
      · exact next_keeps h ⟨rfl, rfl⟩
      · split at h
        · exact next_keeps h (keeps_trans (settleAll_keeps _) (keeps_trans (retireLost_keeps _ _ _ _) (modCell_keeps _ _ _ _)))
        · split at h
          · exact next_keeps h ⟨rfl, rfl⟩
          · split at h
            · exact next_keeps h ⟨rfl, rfl⟩
            · rename_i e
              exact next_keeps h (keeps_trans (modCell_keeps _ _ _ _) (arriving_keeps _ _ _ e))

theorem execTicket_keeps (n : Fin 16) (c : Fin 64) (s : State) (uu : State) (h : execTicket n c s = .next uu) :
    uu.pending = s.pending ∧ uu.store.svn = s.store.svn := by
  grind [execTicket, arriving_keeps, modCell_keeps, retire_keeps, settleAll_keeps]

theorem execMma_keeps (n : Fin 16) (c : Fin 64) (s : State) (uu : State) (h : execMma n c s = .next uu) :
    uu.pending = s.pending ∧ uu.store.svn = s.store.svn := by
  unfold execMma at h; dsimp only at h; (repeat' split at h) <;> cases h <;> simp_all [acted_keeps, mmaRun_keeps,
      relayOperand_keeps]

theorem execRelay_keeps (n : Fin 16) (c : Fin 64) (s : State) (uu : State) (h : execRelay n c s = .next uu) :
    uu.pending = s.pending ∧ uu.store.svn = s.store.svn := by
  unfold execRelay at h; dsimp only at h; (repeat' split at h) <;> cases h <;> simp_all [acted_keeps, forward_keeps,
      relayOperand_keeps, spotWrite_keeps, ite_fst, ite_snd]

theorem execVop_keeps (n : Fin 16) (c : Fin 64) (s : State) (uu : State) (h : execVop n c s = .next uu) :
    uu.pending = s.pending ∧ uu.store.svn = s.store.svn := by
  unfold execVop at h; dsimp only at h; (repeat' split at h) <;> cases h <;> simp_all [acted_keeps, arithEv_keeps,
      operand_keeps, padRun_keeps, spotWrite_keeps, ite_fst, ite_snd]

theorem execMove_keeps (n : Fin 16) (c : Fin 64) (s : State) (uu : State) (h : execMove n c s = .next uu) :
    uu.pending = s.pending ∧ uu.store.svn = s.store.svn := by
  unfold execMove at h; dsimp only at h; (repeat' split at h) <;> cases h <;> simp_all [acted_keeps, moveLines_keeps]

theorem execLoad_keeps (n : Fin 16) (c : Fin 64) (s : State) (uu : State) (h : execLoad n c s = .next uu) :
    uu.pending = s.pending ∧ uu.store.svn = s.store.svn := by
  unfold execLoad at h; (repeat' split at h) <;> cases h <;> simp [acted_keeps, startLines_keeps]

theorem execStore_keeps (n : Fin 16) (c : Fin 64) (s : State) (uu : State) (h : execStore n c s = .next uu) :
    uu.pending = s.pending ∧ uu.store.svn = s.store.svn := by
  unfold execStore at h; (repeat' split at h) <;> cases h <;> simp [acted_keeps, startLines_keeps]

theorem execSend_keeps (n : Fin 16) (c : Fin 64) (s : State) (uu : State) (h : execSend n c s = .next uu) :
    uu.pending = s.pending ∧ uu.store.svn = s.store.svn := by
  unfold execSend at h; dsimp only at h; (repeat' split at h) <;> cases h <;> grind [acted_keeps, modCell_keeps,
      operand_keeps, sendMsg_keeps]

theorem execFop_keeps (n : Fin 16) (c : Fin 64) (s uu : State) (h : execFop n c s = .next uu) :
    uu.pending = s.pending ∧ uu.store.svn = s.store.svn := by
  unfold execFop at h
  split at h
  · exact next_keeps h ⟨rfl, rfl⟩
  · rename_i a _
    dsimp only at h
    have ho := operand_keeps s n (spotOf a.q.cell a.q.srcB) 0 32
    generalize s.operand n (spotOf a.q.cell a.q.srcB) 0 32 = r at h ho
    split at h
    · exact next_keeps h ⟨rfl, rfl⟩
    · exact next_keeps h (keeps_trans (acted_keeps _ _ _ _ _ _) ho)
    · rename_i b _
      split at h
      · exact next_keeps h (keeps_trans (acted_keeps _ _ _ _ _ _) ho)
      · split at h
        · exact next_keeps h (keeps_trans (acted_keeps _ _ _ _ _ _) ho)
        · have hd : ∀ (p : Prop) [Decidable p] (x y : State × Got),
            (x.1.pending = s.pending ∧ x.1.store.svn = s.store.svn) →
              (y.1.pending = s.pending ∧ y.1.store.svn = s.store.svn) →
              (if p then x else y).1.pending = s.pending ∧ (if p then x else y).1.store.svn = s.store.svn := by
            intro p _ x y hx hy
            split
            · exact hx
            · exact hy
          have he := hd ((fopNeed (fopPkt r.1 n b)).2 = 0) (r.1, Got.ok [])
            (r.1.operand n (spotOf a.q.cell a.q.srcA) (fopNeed (fopPkt r.1 n b)).1 (fopNeed (fopPkt r.1 n b)).2) ho
            (keeps_trans (operand_keeps _ _ _ _ _) ho)
          generalize (if (fopNeed (fopPkt r.1 n b)).2 = 0 then (r.1, Got.ok [])
            else r.1.operand n (spotOf a.q.cell a.q.srcA) (fopNeed (fopPkt r.1 n b)).1 (fopNeed (fopPkt r.1 n b)).2) = d at h he
          split at h
          · exact next_keeps h ⟨rfl, rfl⟩
          · exact next_keeps h (keeps_trans (acted_keeps _ _ _ _ _ _) he)
          · rename_i data _
            have hc : ∀ (p : Prop) [Decidable p] (x y : Nat × State),
                (x.2.pending = s.pending ∧ x.2.store.svn = s.store.svn) →
                (y.2.pending = s.pending ∧ y.2.store.svn = s.store.svn) →
                (if p then x else y).2.pending = s.pending ∧ (if p then x else y).2.store.svn = s.store.svn := by
              intro p _ x y hx hy
              split
              · exact hx
              · exact hy
            have hn := hc ((fopFlits (fopPkt r.1 n b) data).op = 9)
              (d.1.nextLine n (65536 + (fopFlits (fopPkt r.1 n b) data).dstDev.toNat))
              ((fopFlits (fopPkt r.1 n b) data).addr.toNat / 256, d.1) (keeps_trans (nextLine_keeps _ _ _) he) he
            generalize (if (fopFlits (fopPkt r.1 n b) data).op = 9 then
              d.1.nextLine n (65536 + (fopFlits (fopPkt r.1 n b) data).dstDev.toNat)
              else ((fopFlits (fopPkt r.1 n b) data).addr.toNat / 256, d.1)) = cnt at h hn
            split at h
            · exact next_keeps h ⟨rfl, rfl⟩
            · rename_i e
              exact next_keeps h (keeps_trans (settleAll_keeps _) (keeps_trans (issue_keeps2 _ _ _ _ _ _ _ e) hn))
            · rename_i t st out e
              have hi := fun f => keeps_trans (modCell_keeps t n c f) (keeps_trans (issue_keeps1 _ _ _ _ _ _ _ _ e) hn)
              refine next_keeps h (keeps_trans (settleAll_keeps _) (keeps_trans (fopDone_keeps _ _ _ _ _ _) ?_))
              split
              · exact keeps_trans (fopLoad_keeps _ _ _ _ _) (hi _)
              · exact hi _

theorem execZclr_keeps (n : Fin 16) (c : Fin 64) (s : State) (uu : State) (h : execZclr n c s = .next uu) :
    uu.pending = s.pending ∧ uu.store.svn = s.store.svn := by
  unfold execZclr at h; (repeat' split at h) <;> cases h <;> simp [acted_keeps, zclr_keeps]

theorem execTaskRetire_keeps (n : Fin 16) (p : Place) (s uu : State) (h : execTaskRetire n p s = .next uu) :
    uu.pending = s.pending ∧ uu.store.svn = s.store.svn := by
  unfold execTaskRetire at h
  split at h
  · dsimp only at h
    split at h
    · split at h
      · exact next_keeps h (⟨rfl, rfl⟩)
      · exact next_keeps h (keeps_trans (settleAll_keeps _) (keeps_trans (retire_keeps _ _ _ _) (modCell_keeps _ _ _ _)))
    · exact next_keeps h (⟨rfl, rfl⟩)
  · split at h
    · split at h
      · exact next_keeps h (⟨rfl, rfl⟩)
      · exact next_keeps h (keeps_trans (settleAll_keeps _) (keeps_trans (retire_keeps _ _ _ _) (modSpire_keeps _ _ _)))
    · exact next_keeps h (⟨rfl, rfl⟩)

theorem execRelayStripArrival_keeps (n : Fin 16) (c : Fin 64) (d : Dir) (s : State) (uu : State) (h : execRelayStripArrival n c d s = .next uu) :
    uu.pending = s.pending ∧ uu.store.svn = s.store.svn := by
  unfold execRelayStripArrival at h; dsimp only at h; (repeat' split at h) <;> cases h <;> simp_all [modCell_keeps]

theorem execSteal_keeps (n : Fin 16) (thief : Fin 64) (s : State) (uu : State) (h : execSteal n thief s = .next uu) :
    uu.pending = s.pending ∧ uu.store.svn = s.store.svn := by
  unfold execSteal at h; dsimp only at h; (repeat' split at h) <;> cases h <;> grind [bump_keeps, crossRoom_keeps,
      crossWrite_keeps, modCell_keeps, modSpire_keeps]

theorem execStolenTaskArrival_keeps (n : Fin 16) (thief : Fin 64) (s : State) (uu : State) (h : execStolenTaskArrival n thief s = .next uu) :
    uu.pending = s.pending ∧ uu.store.svn = s.store.svn := by
  grind [execStolenTaskArrival, modCell_keeps, modSpire_keeps, retireLost_keeps, settleAll_keeps, waitCycles_keeps]

theorem execCellFail_keeps (n : Fin 16) (c : Fin 64) (s : State) (uu : State) (h : execCellFail n c s = .next uu) :
    uu.pending = s.pending ∧ uu.store.svn = s.store.svn := by
  grind [execCellFail, failCell_keeps, settleAll_keeps]

theorem execDispatch_keeps (n : Fin 16) (s : State) (uu : State) (h : execDispatch n s = .next uu) :
    uu.pending = s.pending ∧ uu.store.svn = s.store.svn := by
  grind [execDispatch, duWalk_keeps, settleAll_keeps]

theorem execReturnRows_keeps (n : Fin 16) (s : State) (uu : State) (h : execReturnRows n s = .next uu) :
    uu.pending = s.pending ∧ uu.store.svn = s.store.svn := by
  grind [execReturnRows, duReturns_keeps, settleAll_keeps]

theorem execDispatchRowRefused_keeps (n : Fin 16) (msg : Nat) (status : BitVec 8) (s : State) (uu : State) (h : execDispatchRowRefused n msg status s = .next uu) :
    uu.pending = s.pending ∧ uu.store.svn = s.store.svn := by
  grind [execDispatchRowRefused, addWrap_keeps, duDrop_keeps, modSpire_keeps, rowRefusedLog_keeps, settleAll_keeps,
      wellRead_keeps, wellWrite_keeps]

theorem execTickCutoff_keeps (s : State) (uu : State) (h : execTickCutoff s = .next uu) :
    uu.pending = s.pending ∧ uu.store.svn = s.store.svn := by
  grind [execTickCutoff, takeCutoff_keeps]

theorem execTick_keeps (o : FrameObs) (s : State) (uu : State) (h : execTick o s = .next uu) :
    uu.pending = s.pending ∧ uu.store.svn = s.store.svn := by
  grind [execTick, atTick_keeps, passTo_keeps, takeCutoff_keeps, takeDeeps_keeps]

theorem execLightDetect_keeps (port : Fin 32) (s : State) (uu : State) (h : execLightDetect port s = .next uu) :
    uu.pending = s.pending ∧ uu.store.svn = s.store.svn := by
  unfold execLightDetect at h; dsimp only at h; (repeat' split at h) <;> cases h <;> simp_all [modPort_keeps,
      setFld_keeps, setPortState_keeps]

theorem execPortTrainRetry_keeps (port : Fin 32) (s : State) (uu : State) (h : execPortTrainRetry port s = .next uu) :
    uu.pending = s.pending ∧ uu.store.svn = s.store.svn := by
  unfold execPortTrainRetry at h; dsimp only at h; (repeat' split at h) <;> cases h <;> grind [portDown_keeps,
      trainFails_keeps, waitUntil_keeps]

theorem execCodewordLockGain_keeps (w : PortWords) (s : State) (uu : State) (h : execCodewordLockGain w s = .next uu) :
    uu.pending = s.pending ∧ uu.store.svn = s.store.svn := by
  grind [execCodewordLockGain, settleAll_keeps, wordsIn_keeps]

theorem execCodewordLockLoss_keeps (w : PortWords) (s : State) (uu : State) (h : execCodewordLockLoss w s = .next uu) :
    uu.pending = s.pending ∧ uu.store.svn = s.store.svn := by
  grind [execCodewordLockLoss, settleAll_keeps, wordsIn_keeps]

theorem execTrainingFlitReceive_keeps (port : Fin 32) (words : List (BitVec 5440)) (s : State) (uu : State) (h : execTrainingFlitReceive port words s = .next uu) :
    uu.pending = s.pending ∧ uu.store.svn = s.store.svn := by
  grind [execTrainingFlitReceive, settleAll_keeps, wordsIn_keeps]

theorem execFabricBundleReceive_keeps (port : Fin 32) (words : List (BitVec 5440)) (s : State) (uu : State) (h : execFabricBundleReceive port words s = .next uu) :
    uu.pending = s.pending ∧ uu.store.svn = s.store.svn := by
  grind [execFabricBundleReceive, settleAll_keeps, wordsIn_keeps]

theorem execFabricIdleFlit_keeps (port : Fin 32) (words : List (BitVec 5440)) (s : State) (uu : State) (h : execFabricIdleFlit port words s = .next uu) :
    uu.pending = s.pending ∧ uu.store.svn = s.store.svn := by
  grind [execFabricIdleFlit, settleAll_keeps, wordsIn_keeps]

theorem execFabricRetryTimeout_keeps (port : Fin 32) (s : State) (uu : State) (h : execFabricRetryTimeout port s = .next uu) :
    uu.pending = s.pending ∧ uu.store.svn = s.store.svn := by
  grind [execFabricRetryTimeout, pump_keeps, resendAll_keeps, settleAll_keeps, waitUntil_keeps]

theorem execSymbolErrorWindow_keeps (port : Fin 32) (words : List (BitVec 5440)) (s : State) (uu : State) (h : execSymbolErrorWindow port words s = .next uu) :
    uu.pending = s.pending ∧ uu.store.svn = s.store.svn := by
  grind [execSymbolErrorWindow, errorRate_keeps, modPort_keeps, settleAll_keeps, waitUntil_keeps, wordsIn_keeps]

theorem execPortFail_keeps (port : Fin 32) (cause : Fin 3) (s : State) (uu : State) (h : execPortFail port cause s = .next uu) :
    uu.pending = s.pending ∧ uu.store.svn = s.store.svn := by
  grind [execPortFail, failPort_keeps, settleAll_keeps, waitUntil_keeps]

theorem execFlinkQuery_keeps (k : Pkt) (s : State) (uu : State) (h : execFlinkQuery k s = .next uu) :
    uu.pending = s.pending ∧ uu.store.svn = s.store.svn := by
  grind [execFlinkQuery, sendOrDrop_keeps, settleAll_keeps, takeHeld_keeps]

theorem execFlinkReply_keeps (k : Pkt) (s uu : State) (h : execFlinkReply k s = .next uu) :
    uu.pending = s.pending ∧ uu.store.svn = s.store.svn := by
  unfold execFlinkReply at h
  dsimp only at h
  split at h
  · exact next_keeps h (takeHeld_keeps _ _)
  · refine next_keeps h ?_
    exact keeps_trans (settleAll_keeps _) (keeps_trans (foldl_keeps _ _ _ fun s x => reroute_keeps _ _ _)
      (keeps_trans (modPort_keeps _ _ _) (takeHeld_keeps _ _)))

theorem execFlinkReplyTimeout_keeps (port : Fin 32) (s uu : State) (h : execFlinkReplyTimeout port s = .next uu) :
    uu.pending = s.pending ∧ uu.store.svn = s.store.svn := by
  unfold execFlinkReplyTimeout at h
  dsimp only at h
  split at h
  · exact next_keeps h (⟨rfl, rfl⟩)
  · split at h
    · exact next_keeps h (⟨rfl, rfl⟩)
    · rename_i e
      refine next_keeps h ?_
      exact keeps_trans (settleAll_keeps _) (keeps_trans (foldl_keeps _ _ _ fun s x => lostPkt_keeps _ _ _ _)
        (keeps_trans (modPort_keeps _ _ _) (waitUntil_keeps _ _ _ e)))

theorem execPortRetrain_keeps (f : Func) (e : Side) (v : Word) (s uu : State) (h : execPortRetrain f e v s = .next uu) :
    uu.pending = s.pending ∧ uu.store.svn = s.store.svn := by
  exact next_keeps h (keeps_trans (settleAll_keeps _) (write_keeps _ _ _ _ _ fun t e => portCtlOp_keeps _ _ _ _ e))

theorem execRouteLoad_keeps (f : Func) (e : Side) (v : Word) (s : State) (uu : State) (h : execRouteLoad f e v s = .next uu) :
    uu.pending = s.pending ∧ uu.store.svn = s.store.svn := by
  unfold execRouteLoad at h; cases h; exact write_keeps _ _ _ _ _ fun t h => by grind [put_keeps, routeLoadOp_keeps,
      write_keeps]

theorem execRouteLoadEntry_keeps (e : Side) (s uu : State) (h : execRouteLoadEntry e s = .next uu) :
    uu.pending = s.pending ∧ uu.store.svn = s.store.svn := by
  unfold execRouteLoadEntry at h
  dsimp only at h
  split at h
  · exact next_keeps h ⟨rfl, rfl⟩
  · split at h
    · exact next_keeps h (askLoad_keeps _ _)
    · refine next_keeps h ?_
      split
      · exact keeps_trans (loadNext_keeps _ _ _ _) (routeGot_keeps _ _ _ _)
      · exact keeps_trans (foldl_keeps _ _ _ fun s g => pendWord_keeps _ _ _ _ _) (keeps_trans (loadNext_keeps _ _ _ _) (routeGot_keeps _ _ _ _))

theorem execMcgLoad_keeps (f : Func) (e : Side) (v : Word) (s : State) (uu : State) (h : execMcgLoad f e v s = .next uu) :
    uu.pending = s.pending ∧ uu.store.svn = s.store.svn := by
  unfold execMcgLoad at h; cases h; exact write_keeps _ _ _ _ _ fun t h => by grind [mcgLoadOp_keeps, put_keeps, write_keeps]

theorem execMcgLoadEntry_keeps (e : Side) (s uu : State) (h : execMcgLoadEntry e s = .next uu) :
    uu.pending = s.pending ∧ uu.store.svn = s.store.svn := by
  unfold execMcgLoadEntry at h
  dsimp only at h
  split at h
  · exact next_keeps h ⟨rfl, rfl⟩
  · split at h
    · exact next_keeps h (askLoad_keeps _ _)
    · refine next_keeps h ?_
      split
      · exact keeps_trans (loadNext_keeps _ _ _ _) (mcgGot_keeps _ _ _ _)
      · exact keeps_trans (foldl_keeps _ _ _ fun s g => pendGroup_keeps _ _ _ _) (keeps_trans (loadNext_keeps _ _ _ _) (mcgGot_keeps _ _ _ _))

theorem execRingCtlWrite_keeps (f : Func) (e : Side) (v : Word) (s : State) (uu : State) (h : execRingCtlWrite f e v s = .next uu) :
    uu.pending = s.pending ∧ uu.store.svn = s.store.svn := by
  unfold execRingCtlWrite at h; cases h; exact write_keeps _ _ _ _ _ fun t h => by grind [ringCtlOp_keeps, write_keeps]

theorem execMapEpochEnd_keeps (s : State) (uu : State) (h : execMapEpochEnd s = .next uu) :
    uu.pending = s.pending ∧ uu.store.svn = s.store.svn := by
  unfold execMapEpochEnd at h; cases h; simp [sendMap_keeps]

theorem execCmap_keeps (k : Pkt) (s : State) (uu : State) (h : execCmap k s = .next uu) :
    uu.pending = s.pending ∧ uu.store.svn = s.store.svn := by
  unfold execCmap at h; dsimp only at h; (repeat' split at h) <;> cases h <;> grind [mgmtDrop_keeps, ocEvent_keeps,
      openMgmt_keeps, takeHeld_keeps]

theorem execWindowRead_keeps (f : Func) (offset len : Nat) (s : State) (uu : State) (h : execWindowRead f offset len s = .next uu) :
    uu.pending = s.pending ∧ uu.store.svn = s.store.svn := by
  unfold execWindowRead at h; (repeat' split at h) <;> cases h <;> simp [mailRead_keeps, windowRead_keeps]

theorem execWindowWrite_keeps (f : Func) (offset : Nat) (bytes : List Byte) (s : State) (uu : State) (h : execWindowWrite f offset bytes s = .next uu) :
    uu.pending = s.pending ∧ uu.store.svn = s.store.svn := by
  unfold execWindowWrite at h; (repeat' split at h) <;> cases h <;> simp [mailWidth_keeps, windowWrite_keeps,
      writeReg_keeps, write_keeps]

end Sys2Proof.Machine
end

