-- ==== Sys2Proof/Laws/State.lean ====
section
/-! SUPPORT. What each update of the state leaves alone and what it sets, field by field. -/

namespace Sys2Proof.Machine

/-! ### put -/

@[simp] theorem State.put_pending (s : State) (loc : Loc) (w : Word) (idx : Nat) :
    (s.put loc w idx).pending = s.pending := rfl
@[simp] theorem State.put_free (s : State) (loc : Loc) (w : Word) (idx : Nat) : (s.put loc w idx).free = s.free := rfl
@[simp] theorem State.put_clk (s : State) (loc : Loc) (w : Word) (idx : Nat) : (s.put loc w idx).clk = s.clk := rfl
@[simp] theorem State.put_time (s : State) (loc : Loc) (w : Word) (idx : Nat) : (s.put loc w idx).time = s.time := rfl
@[simp] theorem State.put_regions (s : State) (loc : Loc) (w : Word) (idx : Nat) :
    (s.put loc w idx).regions = s.regions := rfl
@[simp] theorem State.put_pend (s : State) (loc : Loc) (w : Word) (idx : Nat) : (s.put loc w idx).pend = s.pend := rfl
@[simp] theorem State.put_latched (s : State) (loc : Loc) (w : Word) (idx : Nat) :
    (s.put loc w idx).latched = s.latched := rfl
@[simp] theorem State.put_lowStage (s : State) (loc : Loc) (w : Word) (idx : Nat) :
    (s.put loc w idx).lowStage = s.lowStage := rfl
@[simp] theorem State.put_hiLatch (s : State) (loc : Loc) (w : Word) (idx : Nat) :
    (s.put loc w idx).hiLatch = s.hiLatch := rfl
@[simp] theorem State.put_resp (s : State) (loc : Loc) (w : Word) (idx : Nat) : (s.put loc w idx).resp = s.resp := rfl
@[simp] theorem State.put_evc (s : State) (loc : Loc) (w : Word) (idx : Nat) : (s.put loc w idx).evc = s.evc := rfl
@[simp] theorem State.put_recorded (s : State) (loc : Loc) (w : Word) (idx : Nat) :
    (s.put loc w idx).recorded = s.recorded := rfl
@[simp] theorem State.put_faults (s : State) (loc : Loc) (w : Word) (idx : Nat) :
    (s.put loc w idx).faults = s.faults := rfl
@[simp] theorem State.put_lay (s : State) (loc : Loc) (w : Word) (idx : Nat) : (s.put loc w idx).lay = s.lay := rfl
@[simp] theorem State.put_parts (s : State) (loc : Loc) (w : Word) (idx : Nat) :
    (s.put loc w idx).parts = s.parts := rfl
@[simp] theorem State.put_spires (s : State) (loc : Loc) (w : Word) (idx : Nat) :
    (s.put loc w idx).spires = s.spires := rfl
@[simp] theorem State.put_gates (s : State) (loc : Loc) (w : Word) (idx : Nat) :
    (s.put loc w idx).gates = s.gates := rfl
@[simp] theorem State.put_sentTo (s : State) (loc : Loc) (w : Word) (idx : Nat) :
    (s.put loc w idx).sentTo = s.sentTo := rfl
@[simp] theorem State.put_calls (s : State) (loc : Loc) (w : Word) (idx : Nat) :
    (s.put loc w idx).calls = s.calls := rfl
@[simp] theorem State.put_nextTid (s : State) (loc : Loc) (w : Word) (idx : Nat) :
    (s.put loc w idx).nextTid = s.nextTid := rfl
@[simp] theorem State.put_hostOps (s : State) (loc : Loc) (w : Word) (idx : Nat) :
    (s.put loc w idx).hostOps = s.hostOps := rfl
@[simp] theorem State.put_nextHost (s : State) (loc : Loc) (w : Word) (idx : Nat) :
    (s.put loc w idx).nextHost = s.nextHost := rfl
@[simp] theorem State.put_incs (s : State) (loc : Loc) (w : Word) (idx : Nat) : (s.put loc w idx).incs = s.incs := rfl
@[simp] theorem State.put_mem (s : State) (loc : Loc) (w : Word) (idx : Nat) : (s.put loc w idx).mem = s.mem := rfl
@[simp] theorem State.put_memKey (s : State) (loc : Loc) (w : Word) (idx : Nat) :
    (s.put loc w idx).memKey = s.memKey := rfl
@[simp] theorem State.put_memFlip (s : State) (loc : Loc) (w : Word) (idx : Nat) :
    (s.put loc w idx).memFlip = s.memFlip := rfl
@[simp] theorem State.put_keys (s : State) (loc : Loc) (w : Word) (idx : Nat) : (s.put loc w idx).keys = s.keys := rfl
@[simp] theorem State.put_nextKey (s : State) (loc : Loc) (w : Word) (idx : Nat) :
    (s.put loc w idx).nextKey = s.nextKey := rfl
@[simp] theorem State.put_dying (s : State) (loc : Loc) (w : Word) (idx : Nat) :
    (s.put loc w idx).dying = s.dying := rfl
@[simp] theorem State.put_plinths (s : State) (loc : Loc) (w : Word) (idx : Nat) :
    (s.put loc w idx).plinths = s.plinths := rfl
@[simp] theorem State.put_links (s : State) (loc : Loc) (w : Word) (idx : Nat) :
    (s.put loc w idx).links = s.links := rfl
@[simp] theorem State.put_viaBad (s : State) (loc : Loc) (w : Word) (idx : Nat) :
    (s.put loc w idx).viaBad = s.viaBad := rfl
@[simp] theorem State.put_relays (s : State) (loc : Loc) (w : Word) (idx : Nat) :
    (s.put loc w idx).relays = s.relays := rfl
@[simp] theorem State.put_swMask (s : State) (loc : Loc) (w : Word) (idx : Nat) :
    (s.put loc w idx).swMask = s.swMask := rfl
@[simp] theorem State.put_optics (s : State) (loc : Loc) (w : Word) (idx : Nat) :
    (s.put loc w idx).optics = s.optics := rfl
@[simp] theorem State.put_oculi (s : State) (loc : Loc) (w : Word) (idx : Nat) :
    (s.put loc w idx).oculi = s.oculi := rfl
@[simp] theorem State.put_dups (s : State) (loc : Loc) (w : Word) (idx : Nat) : (s.put loc w idx).dups = s.dups := rfl
@[simp] theorem State.put_pairKeys (s : State) (loc : Loc) (w : Word) (idx : Nat) :
    (s.put loc w idx).pairKeys = s.pairKeys := rfl
@[simp] theorem State.put_sec (s : State) (loc : Loc) (w : Word) (idx : Nat) : (s.put loc w idx).sec = s.sec := rfl
@[simp] theorem State.put_belfries (s : State) (loc : Loc) (w : Word) (idx : Nat) :
    (s.put loc w idx).belfries = s.belfries := rfl
@[simp] theorem State.put_mgmt (s : State) (loc : Loc) (w : Word) (idx : Nat) : (s.put loc w idx).mgmt = s.mgmt := rfl
@[simp] theorem State.put_power (s : State) (loc : Loc) (w : Word) (idx : Nat) :
    (s.put loc w idx).power = s.power := rfl
@[simp] theorem State.put_mboxes (s : State) (loc : Loc) (w : Word) (idx : Nat) :
    (s.put loc w idx).mboxes = s.mboxes := rfl
@[simp] theorem State.put_fns (s : State) (loc : Loc) (w : Word) (idx : Nat) : (s.put loc w idx).fns = s.fns := rfl
@[simp] theorem State.put_irqs (s : State) (loc : Loc) (w : Word) (idx : Nat) : (s.put loc w idx).irqs = s.irqs := rfl
@[simp] theorem State.put_start (s : State) (loc : Loc) (w : Word) (idx : Nat) :
    (s.put loc w idx).start = s.start := rfl
@[simp] theorem State.put_store (s : State) (loc : Loc) (w : Word) (idx : Nat) :
    (s.put loc w idx).store = s.store := rfl

/-! ### setFld -/

@[simp] theorem State.setFld_pending (s : State) (loc : Loc) (hi lo v : Nat) (idx : Nat) :
    (s.setFld loc hi lo v idx).pending = s.pending := rfl
@[simp] theorem State.setFld_free (s : State) (loc : Loc) (hi lo v : Nat) (idx : Nat) :
    (s.setFld loc hi lo v idx).free = s.free := rfl
@[simp] theorem State.setFld_clk (s : State) (loc : Loc) (hi lo v : Nat) (idx : Nat) :
    (s.setFld loc hi lo v idx).clk = s.clk := rfl
@[simp] theorem State.setFld_time (s : State) (loc : Loc) (hi lo v : Nat) (idx : Nat) :
    (s.setFld loc hi lo v idx).time = s.time := rfl
@[simp] theorem State.setFld_regions (s : State) (loc : Loc) (hi lo v : Nat) (idx : Nat) :
    (s.setFld loc hi lo v idx).regions = s.regions := rfl
@[simp] theorem State.setFld_pend (s : State) (loc : Loc) (hi lo v : Nat) (idx : Nat) :
    (s.setFld loc hi lo v idx).pend = s.pend := rfl
@[simp] theorem State.setFld_latched (s : State) (loc : Loc) (hi lo v : Nat) (idx : Nat) :
    (s.setFld loc hi lo v idx).latched = s.latched := rfl
@[simp] theorem State.setFld_lowStage (s : State) (loc : Loc) (hi lo v : Nat) (idx : Nat) :
    (s.setFld loc hi lo v idx).lowStage = s.lowStage := rfl
@[simp] theorem State.setFld_hiLatch (s : State) (loc : Loc) (hi lo v : Nat) (idx : Nat) :
    (s.setFld loc hi lo v idx).hiLatch = s.hiLatch := rfl
@[simp] theorem State.setFld_resp (s : State) (loc : Loc) (hi lo v : Nat) (idx : Nat) :
    (s.setFld loc hi lo v idx).resp = s.resp := rfl
@[simp] theorem State.setFld_evc (s : State) (loc : Loc) (hi lo v : Nat) (idx : Nat) :
    (s.setFld loc hi lo v idx).evc = s.evc := rfl
@[simp] theorem State.setFld_recorded (s : State) (loc : Loc) (hi lo v : Nat) (idx : Nat) :
    (s.setFld loc hi lo v idx).recorded = s.recorded := rfl
@[simp] theorem State.setFld_faults (s : State) (loc : Loc) (hi lo v : Nat) (idx : Nat) :
    (s.setFld loc hi lo v idx).faults = s.faults := rfl
@[simp] theorem State.setFld_lay (s : State) (loc : Loc) (hi lo v : Nat) (idx : Nat) :
    (s.setFld loc hi lo v idx).lay = s.lay := rfl
@[simp] theorem State.setFld_parts (s : State) (loc : Loc) (hi lo v : Nat) (idx : Nat) :
    (s.setFld loc hi lo v idx).parts = s.parts := rfl
@[simp] theorem State.setFld_spires (s : State) (loc : Loc) (hi lo v : Nat) (idx : Nat) :
    (s.setFld loc hi lo v idx).spires = s.spires := rfl
@[simp] theorem State.setFld_gates (s : State) (loc : Loc) (hi lo v : Nat) (idx : Nat) :
    (s.setFld loc hi lo v idx).gates = s.gates := rfl
@[simp] theorem State.setFld_sentTo (s : State) (loc : Loc) (hi lo v : Nat) (idx : Nat) :
    (s.setFld loc hi lo v idx).sentTo = s.sentTo := rfl
@[simp] theorem State.setFld_calls (s : State) (loc : Loc) (hi lo v : Nat) (idx : Nat) :
    (s.setFld loc hi lo v idx).calls = s.calls := rfl
@[simp] theorem State.setFld_nextTid (s : State) (loc : Loc) (hi lo v : Nat) (idx : Nat) :
    (s.setFld loc hi lo v idx).nextTid = s.nextTid := rfl
@[simp] theorem State.setFld_hostOps (s : State) (loc : Loc) (hi lo v : Nat) (idx : Nat) :
    (s.setFld loc hi lo v idx).hostOps = s.hostOps := rfl
@[simp] theorem State.setFld_nextHost (s : State) (loc : Loc) (hi lo v : Nat) (idx : Nat) :
    (s.setFld loc hi lo v idx).nextHost = s.nextHost := rfl
@[simp] theorem State.setFld_incs (s : State) (loc : Loc) (hi lo v : Nat) (idx : Nat) :
    (s.setFld loc hi lo v idx).incs = s.incs := rfl
@[simp] theorem State.setFld_mem (s : State) (loc : Loc) (hi lo v : Nat) (idx : Nat) :
    (s.setFld loc hi lo v idx).mem = s.mem := rfl
@[simp] theorem State.setFld_memKey (s : State) (loc : Loc) (hi lo v : Nat) (idx : Nat) :
    (s.setFld loc hi lo v idx).memKey = s.memKey := rfl
@[simp] theorem State.setFld_memFlip (s : State) (loc : Loc) (hi lo v : Nat) (idx : Nat) :
    (s.setFld loc hi lo v idx).memFlip = s.memFlip := rfl
@[simp] theorem State.setFld_keys (s : State) (loc : Loc) (hi lo v : Nat) (idx : Nat) :
    (s.setFld loc hi lo v idx).keys = s.keys := rfl
@[simp] theorem State.setFld_nextKey (s : State) (loc : Loc) (hi lo v : Nat) (idx : Nat) :
    (s.setFld loc hi lo v idx).nextKey = s.nextKey := rfl
@[simp] theorem State.setFld_dying (s : State) (loc : Loc) (hi lo v : Nat) (idx : Nat) :
    (s.setFld loc hi lo v idx).dying = s.dying := rfl
@[simp] theorem State.setFld_plinths (s : State) (loc : Loc) (hi lo v : Nat) (idx : Nat) :
    (s.setFld loc hi lo v idx).plinths = s.plinths := rfl
@[simp] theorem State.setFld_links (s : State) (loc : Loc) (hi lo v : Nat) (idx : Nat) :
    (s.setFld loc hi lo v idx).links = s.links := rfl
@[simp] theorem State.setFld_viaBad (s : State) (loc : Loc) (hi lo v : Nat) (idx : Nat) :
    (s.setFld loc hi lo v idx).viaBad = s.viaBad := rfl
@[simp] theorem State.setFld_relays (s : State) (loc : Loc) (hi lo v : Nat) (idx : Nat) :
    (s.setFld loc hi lo v idx).relays = s.relays := rfl
@[simp] theorem State.setFld_swMask (s : State) (loc : Loc) (hi lo v : Nat) (idx : Nat) :
    (s.setFld loc hi lo v idx).swMask = s.swMask := rfl
@[simp] theorem State.setFld_optics (s : State) (loc : Loc) (hi lo v : Nat) (idx : Nat) :
    (s.setFld loc hi lo v idx).optics = s.optics := rfl
@[simp] theorem State.setFld_oculi (s : State) (loc : Loc) (hi lo v : Nat) (idx : Nat) :
    (s.setFld loc hi lo v idx).oculi = s.oculi := rfl
@[simp] theorem State.setFld_dups (s : State) (loc : Loc) (hi lo v : Nat) (idx : Nat) :
    (s.setFld loc hi lo v idx).dups = s.dups := rfl
@[simp] theorem State.setFld_pairKeys (s : State) (loc : Loc) (hi lo v : Nat) (idx : Nat) :
    (s.setFld loc hi lo v idx).pairKeys = s.pairKeys := rfl
@[simp] theorem State.setFld_sec (s : State) (loc : Loc) (hi lo v : Nat) (idx : Nat) :
    (s.setFld loc hi lo v idx).sec = s.sec := rfl
@[simp] theorem State.setFld_belfries (s : State) (loc : Loc) (hi lo v : Nat) (idx : Nat) :
    (s.setFld loc hi lo v idx).belfries = s.belfries := rfl
@[simp] theorem State.setFld_mgmt (s : State) (loc : Loc) (hi lo v : Nat) (idx : Nat) :
    (s.setFld loc hi lo v idx).mgmt = s.mgmt := rfl
@[simp] theorem State.setFld_power (s : State) (loc : Loc) (hi lo v : Nat) (idx : Nat) :
    (s.setFld loc hi lo v idx).power = s.power := rfl
@[simp] theorem State.setFld_mboxes (s : State) (loc : Loc) (hi lo v : Nat) (idx : Nat) :
    (s.setFld loc hi lo v idx).mboxes = s.mboxes := rfl
@[simp] theorem State.setFld_fns (s : State) (loc : Loc) (hi lo v : Nat) (idx : Nat) :
    (s.setFld loc hi lo v idx).fns = s.fns := rfl
@[simp] theorem State.setFld_irqs (s : State) (loc : Loc) (hi lo v : Nat) (idx : Nat) :
    (s.setFld loc hi lo v idx).irqs = s.irqs := rfl
@[simp] theorem State.setFld_start (s : State) (loc : Loc) (hi lo v : Nat) (idx : Nat) :
    (s.setFld loc hi lo v idx).start = s.start := rfl
@[simp] theorem State.setFld_store (s : State) (loc : Loc) (hi lo v : Nat) (idx : Nat) :
    (s.setFld loc hi lo v idx).store = s.store := rfl

/-! ### setFlag -/

@[simp] theorem State.setFlag_pending (s : State) (loc : Loc) (b : Nat) (v : Bool) (idx : Nat) :
    (s.setFlag loc b v idx).pending = s.pending := rfl
@[simp] theorem State.setFlag_free (s : State) (loc : Loc) (b : Nat) (v : Bool) (idx : Nat) :
    (s.setFlag loc b v idx).free = s.free := rfl
@[simp] theorem State.setFlag_clk (s : State) (loc : Loc) (b : Nat) (v : Bool) (idx : Nat) :
    (s.setFlag loc b v idx).clk = s.clk := rfl
@[simp] theorem State.setFlag_time (s : State) (loc : Loc) (b : Nat) (v : Bool) (idx : Nat) :
    (s.setFlag loc b v idx).time = s.time := rfl
@[simp] theorem State.setFlag_regions (s : State) (loc : Loc) (b : Nat) (v : Bool) (idx : Nat) :
    (s.setFlag loc b v idx).regions = s.regions := rfl
@[simp] theorem State.setFlag_pend (s : State) (loc : Loc) (b : Nat) (v : Bool) (idx : Nat) :
    (s.setFlag loc b v idx).pend = s.pend := rfl
@[simp] theorem State.setFlag_latched (s : State) (loc : Loc) (b : Nat) (v : Bool) (idx : Nat) :
    (s.setFlag loc b v idx).latched = s.latched := rfl
@[simp] theorem State.setFlag_lowStage (s : State) (loc : Loc) (b : Nat) (v : Bool) (idx : Nat) :
    (s.setFlag loc b v idx).lowStage = s.lowStage := rfl
@[simp] theorem State.setFlag_hiLatch (s : State) (loc : Loc) (b : Nat) (v : Bool) (idx : Nat) :
    (s.setFlag loc b v idx).hiLatch = s.hiLatch := rfl
@[simp] theorem State.setFlag_resp (s : State) (loc : Loc) (b : Nat) (v : Bool) (idx : Nat) :
    (s.setFlag loc b v idx).resp = s.resp := rfl
@[simp] theorem State.setFlag_evc (s : State) (loc : Loc) (b : Nat) (v : Bool) (idx : Nat) :
    (s.setFlag loc b v idx).evc = s.evc := rfl
@[simp] theorem State.setFlag_recorded (s : State) (loc : Loc) (b : Nat) (v : Bool) (idx : Nat) :
    (s.setFlag loc b v idx).recorded = s.recorded := rfl
@[simp] theorem State.setFlag_faults (s : State) (loc : Loc) (b : Nat) (v : Bool) (idx : Nat) :
    (s.setFlag loc b v idx).faults = s.faults := rfl
@[simp] theorem State.setFlag_lay (s : State) (loc : Loc) (b : Nat) (v : Bool) (idx : Nat) :
    (s.setFlag loc b v idx).lay = s.lay := rfl
@[simp] theorem State.setFlag_parts (s : State) (loc : Loc) (b : Nat) (v : Bool) (idx : Nat) :
    (s.setFlag loc b v idx).parts = s.parts := rfl
@[simp] theorem State.setFlag_spires (s : State) (loc : Loc) (b : Nat) (v : Bool) (idx : Nat) :
    (s.setFlag loc b v idx).spires = s.spires := rfl
@[simp] theorem State.setFlag_gates (s : State) (loc : Loc) (b : Nat) (v : Bool) (idx : Nat) :
    (s.setFlag loc b v idx).gates = s.gates := rfl
@[simp] theorem State.setFlag_sentTo (s : State) (loc : Loc) (b : Nat) (v : Bool) (idx : Nat) :
    (s.setFlag loc b v idx).sentTo = s.sentTo := rfl
@[simp] theorem State.setFlag_calls (s : State) (loc : Loc) (b : Nat) (v : Bool) (idx : Nat) :
    (s.setFlag loc b v idx).calls = s.calls := rfl
@[simp] theorem State.setFlag_nextTid (s : State) (loc : Loc) (b : Nat) (v : Bool) (idx : Nat) :
    (s.setFlag loc b v idx).nextTid = s.nextTid := rfl
@[simp] theorem State.setFlag_hostOps (s : State) (loc : Loc) (b : Nat) (v : Bool) (idx : Nat) :
    (s.setFlag loc b v idx).hostOps = s.hostOps := rfl
@[simp] theorem State.setFlag_nextHost (s : State) (loc : Loc) (b : Nat) (v : Bool) (idx : Nat) :
    (s.setFlag loc b v idx).nextHost = s.nextHost := rfl
@[simp] theorem State.setFlag_incs (s : State) (loc : Loc) (b : Nat) (v : Bool) (idx : Nat) :
    (s.setFlag loc b v idx).incs = s.incs := rfl
@[simp] theorem State.setFlag_mem (s : State) (loc : Loc) (b : Nat) (v : Bool) (idx : Nat) :
    (s.setFlag loc b v idx).mem = s.mem := rfl
@[simp] theorem State.setFlag_memKey (s : State) (loc : Loc) (b : Nat) (v : Bool) (idx : Nat) :
    (s.setFlag loc b v idx).memKey = s.memKey := rfl
@[simp] theorem State.setFlag_memFlip (s : State) (loc : Loc) (b : Nat) (v : Bool) (idx : Nat) :
    (s.setFlag loc b v idx).memFlip = s.memFlip := rfl
@[simp] theorem State.setFlag_keys (s : State) (loc : Loc) (b : Nat) (v : Bool) (idx : Nat) :
    (s.setFlag loc b v idx).keys = s.keys := rfl
@[simp] theorem State.setFlag_nextKey (s : State) (loc : Loc) (b : Nat) (v : Bool) (idx : Nat) :
    (s.setFlag loc b v idx).nextKey = s.nextKey := rfl
@[simp] theorem State.setFlag_dying (s : State) (loc : Loc) (b : Nat) (v : Bool) (idx : Nat) :
    (s.setFlag loc b v idx).dying = s.dying := rfl
@[simp] theorem State.setFlag_plinths (s : State) (loc : Loc) (b : Nat) (v : Bool) (idx : Nat) :
    (s.setFlag loc b v idx).plinths = s.plinths := rfl
@[simp] theorem State.setFlag_links (s : State) (loc : Loc) (b : Nat) (v : Bool) (idx : Nat) :
    (s.setFlag loc b v idx).links = s.links := rfl
@[simp] theorem State.setFlag_viaBad (s : State) (loc : Loc) (b : Nat) (v : Bool) (idx : Nat) :
    (s.setFlag loc b v idx).viaBad = s.viaBad := rfl
@[simp] theorem State.setFlag_relays (s : State) (loc : Loc) (b : Nat) (v : Bool) (idx : Nat) :
    (s.setFlag loc b v idx).relays = s.relays := rfl
@[simp] theorem State.setFlag_swMask (s : State) (loc : Loc) (b : Nat) (v : Bool) (idx : Nat) :
    (s.setFlag loc b v idx).swMask = s.swMask := rfl
@[simp] theorem State.setFlag_optics (s : State) (loc : Loc) (b : Nat) (v : Bool) (idx : Nat) :
    (s.setFlag loc b v idx).optics = s.optics := rfl
@[simp] theorem State.setFlag_oculi (s : State) (loc : Loc) (b : Nat) (v : Bool) (idx : Nat) :
    (s.setFlag loc b v idx).oculi = s.oculi := rfl
@[simp] theorem State.setFlag_dups (s : State) (loc : Loc) (b : Nat) (v : Bool) (idx : Nat) :
    (s.setFlag loc b v idx).dups = s.dups := rfl
@[simp] theorem State.setFlag_pairKeys (s : State) (loc : Loc) (b : Nat) (v : Bool) (idx : Nat) :
    (s.setFlag loc b v idx).pairKeys = s.pairKeys := rfl
@[simp] theorem State.setFlag_sec (s : State) (loc : Loc) (b : Nat) (v : Bool) (idx : Nat) :
    (s.setFlag loc b v idx).sec = s.sec := rfl
@[simp] theorem State.setFlag_belfries (s : State) (loc : Loc) (b : Nat) (v : Bool) (idx : Nat) :
    (s.setFlag loc b v idx).belfries = s.belfries := rfl
@[simp] theorem State.setFlag_mgmt (s : State) (loc : Loc) (b : Nat) (v : Bool) (idx : Nat) :
    (s.setFlag loc b v idx).mgmt = s.mgmt := rfl
@[simp] theorem State.setFlag_power (s : State) (loc : Loc) (b : Nat) (v : Bool) (idx : Nat) :
    (s.setFlag loc b v idx).power = s.power := rfl
@[simp] theorem State.setFlag_mboxes (s : State) (loc : Loc) (b : Nat) (v : Bool) (idx : Nat) :
    (s.setFlag loc b v idx).mboxes = s.mboxes := rfl
@[simp] theorem State.setFlag_fns (s : State) (loc : Loc) (b : Nat) (v : Bool) (idx : Nat) :
    (s.setFlag loc b v idx).fns = s.fns := rfl
@[simp] theorem State.setFlag_irqs (s : State) (loc : Loc) (b : Nat) (v : Bool) (idx : Nat) :
    (s.setFlag loc b v idx).irqs = s.irqs := rfl
@[simp] theorem State.setFlag_start (s : State) (loc : Loc) (b : Nat) (v : Bool) (idx : Nat) :
    (s.setFlag loc b v idx).start = s.start := rfl
@[simp] theorem State.setFlag_store (s : State) (loc : Loc) (b : Nat) (v : Bool) (idx : Nat) :
    (s.setFlag loc b v idx).store = s.store := rfl

/-! ### put64 -/

@[simp] theorem State.put64_pending (s : State) (lo : Loc) (v : Nat) (idx : Nat) :
    (s.put64 lo v idx).pending = s.pending := rfl
@[simp] theorem State.put64_free (s : State) (lo : Loc) (v : Nat) (idx : Nat) : (s.put64 lo v idx).free = s.free := rfl
@[simp] theorem State.put64_clk (s : State) (lo : Loc) (v : Nat) (idx : Nat) : (s.put64 lo v idx).clk = s.clk := rfl
@[simp] theorem State.put64_time (s : State) (lo : Loc) (v : Nat) (idx : Nat) : (s.put64 lo v idx).time = s.time := rfl
@[simp] theorem State.put64_regions (s : State) (lo : Loc) (v : Nat) (idx : Nat) :
    (s.put64 lo v idx).regions = s.regions := rfl
@[simp] theorem State.put64_pend (s : State) (lo : Loc) (v : Nat) (idx : Nat) : (s.put64 lo v idx).pend = s.pend := rfl
@[simp] theorem State.put64_latched (s : State) (lo : Loc) (v : Nat) (idx : Nat) :
    (s.put64 lo v idx).latched = s.latched := rfl
@[simp] theorem State.put64_lowStage (s : State) (lo : Loc) (v : Nat) (idx : Nat) :
    (s.put64 lo v idx).lowStage = s.lowStage := rfl
@[simp] theorem State.put64_hiLatch (s : State) (lo : Loc) (v : Nat) (idx : Nat) :
    (s.put64 lo v idx).hiLatch = s.hiLatch := rfl
@[simp] theorem State.put64_resp (s : State) (lo : Loc) (v : Nat) (idx : Nat) : (s.put64 lo v idx).resp = s.resp := rfl
@[simp] theorem State.put64_evc (s : State) (lo : Loc) (v : Nat) (idx : Nat) : (s.put64 lo v idx).evc = s.evc := rfl
@[simp] theorem State.put64_recorded (s : State) (lo : Loc) (v : Nat) (idx : Nat) :
    (s.put64 lo v idx).recorded = s.recorded := rfl
@[simp] theorem State.put64_faults (s : State) (lo : Loc) (v : Nat) (idx : Nat) :
    (s.put64 lo v idx).faults = s.faults := rfl
@[simp] theorem State.put64_lay (s : State) (lo : Loc) (v : Nat) (idx : Nat) : (s.put64 lo v idx).lay = s.lay := rfl
@[simp] theorem State.put64_parts (s : State) (lo : Loc) (v : Nat) (idx : Nat) :
    (s.put64 lo v idx).parts = s.parts := rfl
@[simp] theorem State.put64_spires (s : State) (lo : Loc) (v : Nat) (idx : Nat) :
    (s.put64 lo v idx).spires = s.spires := rfl
@[simp] theorem State.put64_gates (s : State) (lo : Loc) (v : Nat) (idx : Nat) :
    (s.put64 lo v idx).gates = s.gates := rfl
@[simp] theorem State.put64_sentTo (s : State) (lo : Loc) (v : Nat) (idx : Nat) :
    (s.put64 lo v idx).sentTo = s.sentTo := rfl
@[simp] theorem State.put64_calls (s : State) (lo : Loc) (v : Nat) (idx : Nat) :
    (s.put64 lo v idx).calls = s.calls := rfl
@[simp] theorem State.put64_nextTid (s : State) (lo : Loc) (v : Nat) (idx : Nat) :
    (s.put64 lo v idx).nextTid = s.nextTid := rfl
@[simp] theorem State.put64_hostOps (s : State) (lo : Loc) (v : Nat) (idx : Nat) :
    (s.put64 lo v idx).hostOps = s.hostOps := rfl
@[simp] theorem State.put64_nextHost (s : State) (lo : Loc) (v : Nat) (idx : Nat) :
    (s.put64 lo v idx).nextHost = s.nextHost := rfl
@[simp] theorem State.put64_incs (s : State) (lo : Loc) (v : Nat) (idx : Nat) : (s.put64 lo v idx).incs = s.incs := rfl
@[simp] theorem State.put64_mem (s : State) (lo : Loc) (v : Nat) (idx : Nat) : (s.put64 lo v idx).mem = s.mem := rfl
@[simp] theorem State.put64_memKey (s : State) (lo : Loc) (v : Nat) (idx : Nat) :
    (s.put64 lo v idx).memKey = s.memKey := rfl
@[simp] theorem State.put64_memFlip (s : State) (lo : Loc) (v : Nat) (idx : Nat) :
    (s.put64 lo v idx).memFlip = s.memFlip := rfl
@[simp] theorem State.put64_keys (s : State) (lo : Loc) (v : Nat) (idx : Nat) : (s.put64 lo v idx).keys = s.keys := rfl
@[simp] theorem State.put64_nextKey (s : State) (lo : Loc) (v : Nat) (idx : Nat) :
    (s.put64 lo v idx).nextKey = s.nextKey := rfl
@[simp] theorem State.put64_dying (s : State) (lo : Loc) (v : Nat) (idx : Nat) :
    (s.put64 lo v idx).dying = s.dying := rfl
@[simp] theorem State.put64_plinths (s : State) (lo : Loc) (v : Nat) (idx : Nat) :
    (s.put64 lo v idx).plinths = s.plinths := rfl
@[simp] theorem State.put64_links (s : State) (lo : Loc) (v : Nat) (idx : Nat) :
    (s.put64 lo v idx).links = s.links := rfl
@[simp] theorem State.put64_viaBad (s : State) (lo : Loc) (v : Nat) (idx : Nat) :
    (s.put64 lo v idx).viaBad = s.viaBad := rfl
@[simp] theorem State.put64_relays (s : State) (lo : Loc) (v : Nat) (idx : Nat) :
    (s.put64 lo v idx).relays = s.relays := rfl
@[simp] theorem State.put64_swMask (s : State) (lo : Loc) (v : Nat) (idx : Nat) :
    (s.put64 lo v idx).swMask = s.swMask := rfl
@[simp] theorem State.put64_optics (s : State) (lo : Loc) (v : Nat) (idx : Nat) :
    (s.put64 lo v idx).optics = s.optics := rfl
@[simp] theorem State.put64_oculi (s : State) (lo : Loc) (v : Nat) (idx : Nat) :
    (s.put64 lo v idx).oculi = s.oculi := rfl
@[simp] theorem State.put64_dups (s : State) (lo : Loc) (v : Nat) (idx : Nat) : (s.put64 lo v idx).dups = s.dups := rfl
@[simp] theorem State.put64_pairKeys (s : State) (lo : Loc) (v : Nat) (idx : Nat) :
    (s.put64 lo v idx).pairKeys = s.pairKeys := rfl
@[simp] theorem State.put64_sec (s : State) (lo : Loc) (v : Nat) (idx : Nat) : (s.put64 lo v idx).sec = s.sec := rfl
@[simp] theorem State.put64_belfries (s : State) (lo : Loc) (v : Nat) (idx : Nat) :
    (s.put64 lo v idx).belfries = s.belfries := rfl
@[simp] theorem State.put64_mgmt (s : State) (lo : Loc) (v : Nat) (idx : Nat) : (s.put64 lo v idx).mgmt = s.mgmt := rfl
@[simp] theorem State.put64_power (s : State) (lo : Loc) (v : Nat) (idx : Nat) :
    (s.put64 lo v idx).power = s.power := rfl
@[simp] theorem State.put64_mboxes (s : State) (lo : Loc) (v : Nat) (idx : Nat) :
    (s.put64 lo v idx).mboxes = s.mboxes := rfl
@[simp] theorem State.put64_fns (s : State) (lo : Loc) (v : Nat) (idx : Nat) : (s.put64 lo v idx).fns = s.fns := rfl
@[simp] theorem State.put64_irqs (s : State) (lo : Loc) (v : Nat) (idx : Nat) : (s.put64 lo v idx).irqs = s.irqs := rfl
@[simp] theorem State.put64_start (s : State) (lo : Loc) (v : Nat) (idx : Nat) :
    (s.put64 lo v idx).start = s.start := rfl
@[simp] theorem State.put64_store (s : State) (lo : Loc) (v : Nat) (idx : Nat) :
    (s.put64 lo v idx).store = s.store := rfl

/-! ### modPart -/

@[simp] theorem State.modPart_pending (s : State) (p : Nat) (f : Part → Part) :
    (s.modPart p f).pending = s.pending := rfl
@[simp] theorem State.modPart_free (s : State) (p : Nat) (f : Part → Part) : (s.modPart p f).free = s.free := rfl
@[simp] theorem State.modPart_clk (s : State) (p : Nat) (f : Part → Part) : (s.modPart p f).clk = s.clk := rfl
@[simp] theorem State.modPart_time (s : State) (p : Nat) (f : Part → Part) : (s.modPart p f).time = s.time := rfl
@[simp] theorem State.modPart_regions (s : State) (p : Nat) (f : Part → Part) :
    (s.modPart p f).regions = s.regions := rfl
@[simp] theorem State.modPart_rf (s : State) (p : Nat) (f : Part → Part) : (s.modPart p f).rf = s.rf := rfl
@[simp] theorem State.modPart_pend (s : State) (p : Nat) (f : Part → Part) : (s.modPart p f).pend = s.pend := rfl
@[simp] theorem State.modPart_latched (s : State) (p : Nat) (f : Part → Part) :
    (s.modPart p f).latched = s.latched := rfl
@[simp] theorem State.modPart_lowStage (s : State) (p : Nat) (f : Part → Part) :
    (s.modPart p f).lowStage = s.lowStage := rfl
@[simp] theorem State.modPart_hiLatch (s : State) (p : Nat) (f : Part → Part) :
    (s.modPart p f).hiLatch = s.hiLatch := rfl
@[simp] theorem State.modPart_resp (s : State) (p : Nat) (f : Part → Part) : (s.modPart p f).resp = s.resp := rfl
@[simp] theorem State.modPart_evc (s : State) (p : Nat) (f : Part → Part) : (s.modPart p f).evc = s.evc := rfl
@[simp] theorem State.modPart_recorded (s : State) (p : Nat) (f : Part → Part) :
    (s.modPart p f).recorded = s.recorded := rfl
@[simp] theorem State.modPart_faults (s : State) (p : Nat) (f : Part → Part) : (s.modPart p f).faults = s.faults := rfl
@[simp] theorem State.modPart_lay (s : State) (p : Nat) (f : Part → Part) : (s.modPart p f).lay = s.lay := rfl
@[simp] theorem State.modPart_parts (s : State) (p : Nat) (f : Part → Part) :
    (s.modPart p f).parts = lmod s.parts p f := rfl
@[simp] theorem State.modPart_spires (s : State) (p : Nat) (f : Part → Part) : (s.modPart p f).spires = s.spires := rfl
@[simp] theorem State.modPart_gates (s : State) (p : Nat) (f : Part → Part) : (s.modPart p f).gates = s.gates := rfl
@[simp] theorem State.modPart_sentTo (s : State) (p : Nat) (f : Part → Part) : (s.modPart p f).sentTo = s.sentTo := rfl
@[simp] theorem State.modPart_calls (s : State) (p : Nat) (f : Part → Part) : (s.modPart p f).calls = s.calls := rfl
@[simp] theorem State.modPart_nextTid (s : State) (p : Nat) (f : Part → Part) :
    (s.modPart p f).nextTid = s.nextTid := rfl
@[simp] theorem State.modPart_hostOps (s : State) (p : Nat) (f : Part → Part) :
    (s.modPart p f).hostOps = s.hostOps := rfl
@[simp] theorem State.modPart_nextHost (s : State) (p : Nat) (f : Part → Part) :
    (s.modPart p f).nextHost = s.nextHost := rfl
@[simp] theorem State.modPart_incs (s : State) (p : Nat) (f : Part → Part) : (s.modPart p f).incs = s.incs := rfl
@[simp] theorem State.modPart_mem (s : State) (p : Nat) (f : Part → Part) : (s.modPart p f).mem = s.mem := rfl
@[simp] theorem State.modPart_memKey (s : State) (p : Nat) (f : Part → Part) : (s.modPart p f).memKey = s.memKey := rfl
@[simp] theorem State.modPart_memFlip (s : State) (p : Nat) (f : Part → Part) :
    (s.modPart p f).memFlip = s.memFlip := rfl
@[simp] theorem State.modPart_keys (s : State) (p : Nat) (f : Part → Part) : (s.modPart p f).keys = s.keys := rfl
@[simp] theorem State.modPart_nextKey (s : State) (p : Nat) (f : Part → Part) :
    (s.modPart p f).nextKey = s.nextKey := rfl
@[simp] theorem State.modPart_dying (s : State) (p : Nat) (f : Part → Part) : (s.modPart p f).dying = s.dying := rfl
@[simp] theorem State.modPart_plinths (s : State) (p : Nat) (f : Part → Part) :
    (s.modPart p f).plinths = s.plinths := rfl
@[simp] theorem State.modPart_links (s : State) (p : Nat) (f : Part → Part) : (s.modPart p f).links = s.links := rfl
@[simp] theorem State.modPart_viaBad (s : State) (p : Nat) (f : Part → Part) : (s.modPart p f).viaBad = s.viaBad := rfl
@[simp] theorem State.modPart_relays (s : State) (p : Nat) (f : Part → Part) : (s.modPart p f).relays = s.relays := rfl
@[simp] theorem State.modPart_swMask (s : State) (p : Nat) (f : Part → Part) : (s.modPart p f).swMask = s.swMask := rfl
@[simp] theorem State.modPart_optics (s : State) (p : Nat) (f : Part → Part) : (s.modPart p f).optics = s.optics := rfl
@[simp] theorem State.modPart_oculi (s : State) (p : Nat) (f : Part → Part) : (s.modPart p f).oculi = s.oculi := rfl
@[simp] theorem State.modPart_dups (s : State) (p : Nat) (f : Part → Part) : (s.modPart p f).dups = s.dups := rfl
@[simp] theorem State.modPart_pairKeys (s : State) (p : Nat) (f : Part → Part) :
    (s.modPart p f).pairKeys = s.pairKeys := rfl
@[simp] theorem State.modPart_sec (s : State) (p : Nat) (f : Part → Part) : (s.modPart p f).sec = s.sec := rfl
@[simp] theorem State.modPart_belfries (s : State) (p : Nat) (f : Part → Part) :
    (s.modPart p f).belfries = s.belfries := rfl
@[simp] theorem State.modPart_mgmt (s : State) (p : Nat) (f : Part → Part) : (s.modPart p f).mgmt = s.mgmt := rfl
@[simp] theorem State.modPart_power (s : State) (p : Nat) (f : Part → Part) : (s.modPart p f).power = s.power := rfl
@[simp] theorem State.modPart_mboxes (s : State) (p : Nat) (f : Part → Part) : (s.modPart p f).mboxes = s.mboxes := rfl
@[simp] theorem State.modPart_fns (s : State) (p : Nat) (f : Part → Part) : (s.modPart p f).fns = s.fns := rfl
@[simp] theorem State.modPart_irqs (s : State) (p : Nat) (f : Part → Part) : (s.modPart p f).irqs = s.irqs := rfl
@[simp] theorem State.modPart_start (s : State) (p : Nat) (f : Part → Part) : (s.modPart p f).start = s.start := rfl
@[simp] theorem State.modPart_store (s : State) (p : Nat) (f : Part → Part) : (s.modPart p f).store = s.store := rfl

/-! ### modSpire -/

@[simp] theorem State.modSpire_pending (s : State) (n : Nat) (f : Spire → Spire) :
    (s.modSpire n f).pending = s.pending := rfl
@[simp] theorem State.modSpire_free (s : State) (n : Nat) (f : Spire → Spire) : (s.modSpire n f).free = s.free := rfl
@[simp] theorem State.modSpire_clk (s : State) (n : Nat) (f : Spire → Spire) : (s.modSpire n f).clk = s.clk := rfl
@[simp] theorem State.modSpire_time (s : State) (n : Nat) (f : Spire → Spire) : (s.modSpire n f).time = s.time := rfl
@[simp] theorem State.modSpire_regions (s : State) (n : Nat) (f : Spire → Spire) :
    (s.modSpire n f).regions = s.regions := rfl
@[simp] theorem State.modSpire_rf (s : State) (n : Nat) (f : Spire → Spire) : (s.modSpire n f).rf = s.rf := rfl
@[simp] theorem State.modSpire_pend (s : State) (n : Nat) (f : Spire → Spire) : (s.modSpire n f).pend = s.pend := rfl
@[simp] theorem State.modSpire_latched (s : State) (n : Nat) (f : Spire → Spire) :
    (s.modSpire n f).latched = s.latched := rfl
@[simp] theorem State.modSpire_lowStage (s : State) (n : Nat) (f : Spire → Spire) :
    (s.modSpire n f).lowStage = s.lowStage := rfl
@[simp] theorem State.modSpire_hiLatch (s : State) (n : Nat) (f : Spire → Spire) :
    (s.modSpire n f).hiLatch = s.hiLatch := rfl
@[simp] theorem State.modSpire_resp (s : State) (n : Nat) (f : Spire → Spire) : (s.modSpire n f).resp = s.resp := rfl
@[simp] theorem State.modSpire_evc (s : State) (n : Nat) (f : Spire → Spire) : (s.modSpire n f).evc = s.evc := rfl
@[simp] theorem State.modSpire_recorded (s : State) (n : Nat) (f : Spire → Spire) :
    (s.modSpire n f).recorded = s.recorded := rfl
@[simp] theorem State.modSpire_faults (s : State) (n : Nat) (f : Spire → Spire) :
    (s.modSpire n f).faults = s.faults := rfl
@[simp] theorem State.modSpire_lay (s : State) (n : Nat) (f : Spire → Spire) : (s.modSpire n f).lay = s.lay := rfl
@[simp] theorem State.modSpire_parts (s : State) (n : Nat) (f : Spire → Spire) : (s.modSpire n f).parts = s.parts := rfl
@[simp] theorem State.modSpire_spires (s : State) (n : Nat) (f : Spire → Spire) :
    (s.modSpire n f).spires = lmod s.spires n f := rfl
@[simp] theorem State.modSpire_gates (s : State) (n : Nat) (f : Spire → Spire) : (s.modSpire n f).gates = s.gates := rfl
@[simp] theorem State.modSpire_sentTo (s : State) (n : Nat) (f : Spire → Spire) :
    (s.modSpire n f).sentTo = s.sentTo := rfl
@[simp] theorem State.modSpire_calls (s : State) (n : Nat) (f : Spire → Spire) : (s.modSpire n f).calls = s.calls := rfl
@[simp] theorem State.modSpire_nextTid (s : State) (n : Nat) (f : Spire → Spire) :
    (s.modSpire n f).nextTid = s.nextTid := rfl
@[simp] theorem State.modSpire_hostOps (s : State) (n : Nat) (f : Spire → Spire) :
    (s.modSpire n f).hostOps = s.hostOps := rfl
@[simp] theorem State.modSpire_nextHost (s : State) (n : Nat) (f : Spire → Spire) :
    (s.modSpire n f).nextHost = s.nextHost := rfl
@[simp] theorem State.modSpire_incs (s : State) (n : Nat) (f : Spire → Spire) : (s.modSpire n f).incs = s.incs := rfl
@[simp] theorem State.modSpire_mem (s : State) (n : Nat) (f : Spire → Spire) : (s.modSpire n f).mem = s.mem := rfl
@[simp] theorem State.modSpire_memKey (s : State) (n : Nat) (f : Spire → Spire) :
    (s.modSpire n f).memKey = s.memKey := rfl
@[simp] theorem State.modSpire_memFlip (s : State) (n : Nat) (f : Spire → Spire) :
    (s.modSpire n f).memFlip = s.memFlip := rfl
@[simp] theorem State.modSpire_keys (s : State) (n : Nat) (f : Spire → Spire) : (s.modSpire n f).keys = s.keys := rfl
@[simp] theorem State.modSpire_nextKey (s : State) (n : Nat) (f : Spire → Spire) :
    (s.modSpire n f).nextKey = s.nextKey := rfl
@[simp] theorem State.modSpire_dying (s : State) (n : Nat) (f : Spire → Spire) : (s.modSpire n f).dying = s.dying := rfl
@[simp] theorem State.modSpire_plinths (s : State) (n : Nat) (f : Spire → Spire) :
    (s.modSpire n f).plinths = s.plinths := rfl
@[simp] theorem State.modSpire_links (s : State) (n : Nat) (f : Spire → Spire) : (s.modSpire n f).links = s.links := rfl
@[simp] theorem State.modSpire_viaBad (s : State) (n : Nat) (f : Spire → Spire) :
    (s.modSpire n f).viaBad = s.viaBad := rfl
@[simp] theorem State.modSpire_relays (s : State) (n : Nat) (f : Spire → Spire) :
    (s.modSpire n f).relays = s.relays := rfl
@[simp] theorem State.modSpire_swMask (s : State) (n : Nat) (f : Spire → Spire) :
    (s.modSpire n f).swMask = s.swMask := rfl
@[simp] theorem State.modSpire_optics (s : State) (n : Nat) (f : Spire → Spire) :
    (s.modSpire n f).optics = s.optics := rfl
@[simp] theorem State.modSpire_oculi (s : State) (n : Nat) (f : Spire → Spire) : (s.modSpire n f).oculi = s.oculi := rfl
@[simp] theorem State.modSpire_dups (s : State) (n : Nat) (f : Spire → Spire) : (s.modSpire n f).dups = s.dups := rfl
@[simp] theorem State.modSpire_pairKeys (s : State) (n : Nat) (f : Spire → Spire) :
    (s.modSpire n f).pairKeys = s.pairKeys := rfl
@[simp] theorem State.modSpire_sec (s : State) (n : Nat) (f : Spire → Spire) : (s.modSpire n f).sec = s.sec := rfl
@[simp] theorem State.modSpire_belfries (s : State) (n : Nat) (f : Spire → Spire) :
    (s.modSpire n f).belfries = s.belfries := rfl
@[simp] theorem State.modSpire_mgmt (s : State) (n : Nat) (f : Spire → Spire) : (s.modSpire n f).mgmt = s.mgmt := rfl
@[simp] theorem State.modSpire_power (s : State) (n : Nat) (f : Spire → Spire) : (s.modSpire n f).power = s.power := rfl
@[simp] theorem State.modSpire_mboxes (s : State) (n : Nat) (f : Spire → Spire) :
    (s.modSpire n f).mboxes = s.mboxes := rfl
@[simp] theorem State.modSpire_fns (s : State) (n : Nat) (f : Spire → Spire) : (s.modSpire n f).fns = s.fns := rfl
@[simp] theorem State.modSpire_irqs (s : State) (n : Nat) (f : Spire → Spire) : (s.modSpire n f).irqs = s.irqs := rfl
@[simp] theorem State.modSpire_start (s : State) (n : Nat) (f : Spire → Spire) : (s.modSpire n f).start = s.start := rfl
@[simp] theorem State.modSpire_store (s : State) (n : Nat) (f : Spire → Spire) : (s.modSpire n f).store = s.store := rfl

/-! ### modGate -/

@[simp] theorem State.modGate_pending (s : State) (g : Nat) (f : Gate → Gate) :
    (s.modGate g f).pending = s.pending := rfl
@[simp] theorem State.modGate_free (s : State) (g : Nat) (f : Gate → Gate) : (s.modGate g f).free = s.free := rfl
@[simp] theorem State.modGate_clk (s : State) (g : Nat) (f : Gate → Gate) : (s.modGate g f).clk = s.clk := rfl
@[simp] theorem State.modGate_time (s : State) (g : Nat) (f : Gate → Gate) : (s.modGate g f).time = s.time := rfl
@[simp] theorem State.modGate_regions (s : State) (g : Nat) (f : Gate → Gate) :
    (s.modGate g f).regions = s.regions := rfl
@[simp] theorem State.modGate_rf (s : State) (g : Nat) (f : Gate → Gate) : (s.modGate g f).rf = s.rf := rfl
@[simp] theorem State.modGate_pend (s : State) (g : Nat) (f : Gate → Gate) : (s.modGate g f).pend = s.pend := rfl
@[simp] theorem State.modGate_latched (s : State) (g : Nat) (f : Gate → Gate) :
    (s.modGate g f).latched = s.latched := rfl
@[simp] theorem State.modGate_lowStage (s : State) (g : Nat) (f : Gate → Gate) :
    (s.modGate g f).lowStage = s.lowStage := rfl
@[simp] theorem State.modGate_hiLatch (s : State) (g : Nat) (f : Gate → Gate) :
    (s.modGate g f).hiLatch = s.hiLatch := rfl
@[simp] theorem State.modGate_resp (s : State) (g : Nat) (f : Gate → Gate) : (s.modGate g f).resp = s.resp := rfl
@[simp] theorem State.modGate_evc (s : State) (g : Nat) (f : Gate → Gate) : (s.modGate g f).evc = s.evc := rfl
@[simp] theorem State.modGate_recorded (s : State) (g : Nat) (f : Gate → Gate) :
    (s.modGate g f).recorded = s.recorded := rfl
@[simp] theorem State.modGate_faults (s : State) (g : Nat) (f : Gate → Gate) : (s.modGate g f).faults = s.faults := rfl
@[simp] theorem State.modGate_lay (s : State) (g : Nat) (f : Gate → Gate) : (s.modGate g f).lay = s.lay := rfl
@[simp] theorem State.modGate_parts (s : State) (g : Nat) (f : Gate → Gate) : (s.modGate g f).parts = s.parts := rfl
@[simp] theorem State.modGate_spires (s : State) (g : Nat) (f : Gate → Gate) : (s.modGate g f).spires = s.spires := rfl
@[simp] theorem State.modGate_gates (s : State) (g : Nat) (f : Gate → Gate) :
    (s.modGate g f).gates = lmod s.gates g f := rfl
@[simp] theorem State.modGate_sentTo (s : State) (g : Nat) (f : Gate → Gate) : (s.modGate g f).sentTo = s.sentTo := rfl
@[simp] theorem State.modGate_calls (s : State) (g : Nat) (f : Gate → Gate) : (s.modGate g f).calls = s.calls := rfl
@[simp] theorem State.modGate_nextTid (s : State) (g : Nat) (f : Gate → Gate) :
    (s.modGate g f).nextTid = s.nextTid := rfl
@[simp] theorem State.modGate_hostOps (s : State) (g : Nat) (f : Gate → Gate) :
    (s.modGate g f).hostOps = s.hostOps := rfl
@[simp] theorem State.modGate_nextHost (s : State) (g : Nat) (f : Gate → Gate) :
    (s.modGate g f).nextHost = s.nextHost := rfl
@[simp] theorem State.modGate_incs (s : State) (g : Nat) (f : Gate → Gate) : (s.modGate g f).incs = s.incs := rfl
@[simp] theorem State.modGate_mem (s : State) (g : Nat) (f : Gate → Gate) : (s.modGate g f).mem = s.mem := rfl
@[simp] theorem State.modGate_memKey (s : State) (g : Nat) (f : Gate → Gate) : (s.modGate g f).memKey = s.memKey := rfl
@[simp] theorem State.modGate_memFlip (s : State) (g : Nat) (f : Gate → Gate) :
    (s.modGate g f).memFlip = s.memFlip := rfl
@[simp] theorem State.modGate_keys (s : State) (g : Nat) (f : Gate → Gate) : (s.modGate g f).keys = s.keys := rfl
@[simp] theorem State.modGate_nextKey (s : State) (g : Nat) (f : Gate → Gate) :
    (s.modGate g f).nextKey = s.nextKey := rfl
@[simp] theorem State.modGate_dying (s : State) (g : Nat) (f : Gate → Gate) : (s.modGate g f).dying = s.dying := rfl
@[simp] theorem State.modGate_plinths (s : State) (g : Nat) (f : Gate → Gate) :
    (s.modGate g f).plinths = s.plinths := rfl
@[simp] theorem State.modGate_links (s : State) (g : Nat) (f : Gate → Gate) : (s.modGate g f).links = s.links := rfl
@[simp] theorem State.modGate_viaBad (s : State) (g : Nat) (f : Gate → Gate) : (s.modGate g f).viaBad = s.viaBad := rfl
@[simp] theorem State.modGate_relays (s : State) (g : Nat) (f : Gate → Gate) : (s.modGate g f).relays = s.relays := rfl
@[simp] theorem State.modGate_swMask (s : State) (g : Nat) (f : Gate → Gate) : (s.modGate g f).swMask = s.swMask := rfl
@[simp] theorem State.modGate_optics (s : State) (g : Nat) (f : Gate → Gate) : (s.modGate g f).optics = s.optics := rfl
@[simp] theorem State.modGate_oculi (s : State) (g : Nat) (f : Gate → Gate) : (s.modGate g f).oculi = s.oculi := rfl
@[simp] theorem State.modGate_dups (s : State) (g : Nat) (f : Gate → Gate) : (s.modGate g f).dups = s.dups := rfl
@[simp] theorem State.modGate_pairKeys (s : State) (g : Nat) (f : Gate → Gate) :
    (s.modGate g f).pairKeys = s.pairKeys := rfl
@[simp] theorem State.modGate_sec (s : State) (g : Nat) (f : Gate → Gate) : (s.modGate g f).sec = s.sec := rfl
@[simp] theorem State.modGate_belfries (s : State) (g : Nat) (f : Gate → Gate) :
    (s.modGate g f).belfries = s.belfries := rfl
@[simp] theorem State.modGate_mgmt (s : State) (g : Nat) (f : Gate → Gate) : (s.modGate g f).mgmt = s.mgmt := rfl
@[simp] theorem State.modGate_power (s : State) (g : Nat) (f : Gate → Gate) : (s.modGate g f).power = s.power := rfl
@[simp] theorem State.modGate_mboxes (s : State) (g : Nat) (f : Gate → Gate) : (s.modGate g f).mboxes = s.mboxes := rfl
@[simp] theorem State.modGate_fns (s : State) (g : Nat) (f : Gate → Gate) : (s.modGate g f).fns = s.fns := rfl
@[simp] theorem State.modGate_irqs (s : State) (g : Nat) (f : Gate → Gate) : (s.modGate g f).irqs = s.irqs := rfl
@[simp] theorem State.modGate_start (s : State) (g : Nat) (f : Gate → Gate) : (s.modGate g f).start = s.start := rfl
@[simp] theorem State.modGate_store (s : State) (g : Nat) (f : Gate → Gate) : (s.modGate g f).store = s.store := rfl

/-! ### modPlinth -/

@[simp] theorem State.modPlinth_pending (s : State) (e : Nat) (f : Plinth → Plinth) :
    (s.modPlinth e f).pending = s.pending := rfl
@[simp] theorem State.modPlinth_free (s : State) (e : Nat) (f : Plinth → Plinth) :
    (s.modPlinth e f).free = s.free := rfl
@[simp] theorem State.modPlinth_clk (s : State) (e : Nat) (f : Plinth → Plinth) : (s.modPlinth e f).clk = s.clk := rfl
@[simp] theorem State.modPlinth_time (s : State) (e : Nat) (f : Plinth → Plinth) :
    (s.modPlinth e f).time = s.time := rfl
@[simp] theorem State.modPlinth_regions (s : State) (e : Nat) (f : Plinth → Plinth) :
    (s.modPlinth e f).regions = s.regions := rfl
@[simp] theorem State.modPlinth_rf (s : State) (e : Nat) (f : Plinth → Plinth) : (s.modPlinth e f).rf = s.rf := rfl
@[simp] theorem State.modPlinth_pend (s : State) (e : Nat) (f : Plinth → Plinth) :
    (s.modPlinth e f).pend = s.pend := rfl
@[simp] theorem State.modPlinth_latched (s : State) (e : Nat) (f : Plinth → Plinth) :
    (s.modPlinth e f).latched = s.latched := rfl
@[simp] theorem State.modPlinth_lowStage (s : State) (e : Nat) (f : Plinth → Plinth) :
    (s.modPlinth e f).lowStage = s.lowStage := rfl
@[simp] theorem State.modPlinth_hiLatch (s : State) (e : Nat) (f : Plinth → Plinth) :
    (s.modPlinth e f).hiLatch = s.hiLatch := rfl
@[simp] theorem State.modPlinth_resp (s : State) (e : Nat) (f : Plinth → Plinth) :
    (s.modPlinth e f).resp = s.resp := rfl
@[simp] theorem State.modPlinth_evc (s : State) (e : Nat) (f : Plinth → Plinth) : (s.modPlinth e f).evc = s.evc := rfl
@[simp] theorem State.modPlinth_recorded (s : State) (e : Nat) (f : Plinth → Plinth) :
    (s.modPlinth e f).recorded = s.recorded := rfl
@[simp] theorem State.modPlinth_faults (s : State) (e : Nat) (f : Plinth → Plinth) :
    (s.modPlinth e f).faults = s.faults := rfl
@[simp] theorem State.modPlinth_lay (s : State) (e : Nat) (f : Plinth → Plinth) : (s.modPlinth e f).lay = s.lay := rfl
@[simp] theorem State.modPlinth_parts (s : State) (e : Nat) (f : Plinth → Plinth) :
    (s.modPlinth e f).parts = s.parts := rfl
@[simp] theorem State.modPlinth_spires (s : State) (e : Nat) (f : Plinth → Plinth) :
    (s.modPlinth e f).spires = s.spires := rfl
@[simp] theorem State.modPlinth_gates (s : State) (e : Nat) (f : Plinth → Plinth) :
    (s.modPlinth e f).gates = s.gates := rfl
@[simp] theorem State.modPlinth_sentTo (s : State) (e : Nat) (f : Plinth → Plinth) :
    (s.modPlinth e f).sentTo = s.sentTo := rfl
@[simp] theorem State.modPlinth_calls (s : State) (e : Nat) (f : Plinth → Plinth) :
    (s.modPlinth e f).calls = s.calls := rfl
@[simp] theorem State.modPlinth_nextTid (s : State) (e : Nat) (f : Plinth → Plinth) :
    (s.modPlinth e f).nextTid = s.nextTid := rfl
@[simp] theorem State.modPlinth_hostOps (s : State) (e : Nat) (f : Plinth → Plinth) :
    (s.modPlinth e f).hostOps = s.hostOps := rfl
@[simp] theorem State.modPlinth_nextHost (s : State) (e : Nat) (f : Plinth → Plinth) :
    (s.modPlinth e f).nextHost = s.nextHost := rfl
@[simp] theorem State.modPlinth_incs (s : State) (e : Nat) (f : Plinth → Plinth) :
    (s.modPlinth e f).incs = s.incs := rfl
@[simp] theorem State.modPlinth_mem (s : State) (e : Nat) (f : Plinth → Plinth) : (s.modPlinth e f).mem = s.mem := rfl
@[simp] theorem State.modPlinth_memKey (s : State) (e : Nat) (f : Plinth → Plinth) :
    (s.modPlinth e f).memKey = s.memKey := rfl
@[simp] theorem State.modPlinth_memFlip (s : State) (e : Nat) (f : Plinth → Plinth) :
    (s.modPlinth e f).memFlip = s.memFlip := rfl
@[simp] theorem State.modPlinth_keys (s : State) (e : Nat) (f : Plinth → Plinth) :
    (s.modPlinth e f).keys = s.keys := rfl
@[simp] theorem State.modPlinth_nextKey (s : State) (e : Nat) (f : Plinth → Plinth) :
    (s.modPlinth e f).nextKey = s.nextKey := rfl
@[simp] theorem State.modPlinth_dying (s : State) (e : Nat) (f : Plinth → Plinth) :
    (s.modPlinth e f).dying = s.dying := rfl
@[simp] theorem State.modPlinth_plinths (s : State) (e : Nat) (f : Plinth → Plinth) :
    (s.modPlinth e f).plinths = lmod s.plinths e f := rfl
@[simp] theorem State.modPlinth_links (s : State) (e : Nat) (f : Plinth → Plinth) :
    (s.modPlinth e f).links = s.links := rfl
@[simp] theorem State.modPlinth_viaBad (s : State) (e : Nat) (f : Plinth → Plinth) :
    (s.modPlinth e f).viaBad = s.viaBad := rfl
@[simp] theorem State.modPlinth_relays (s : State) (e : Nat) (f : Plinth → Plinth) :
    (s.modPlinth e f).relays = s.relays := rfl
@[simp] theorem State.modPlinth_swMask (s : State) (e : Nat) (f : Plinth → Plinth) :
    (s.modPlinth e f).swMask = s.swMask := rfl
@[simp] theorem State.modPlinth_optics (s : State) (e : Nat) (f : Plinth → Plinth) :
    (s.modPlinth e f).optics = s.optics := rfl
@[simp] theorem State.modPlinth_oculi (s : State) (e : Nat) (f : Plinth → Plinth) :
    (s.modPlinth e f).oculi = s.oculi := rfl
@[simp] theorem State.modPlinth_dups (s : State) (e : Nat) (f : Plinth → Plinth) :
    (s.modPlinth e f).dups = s.dups := rfl
@[simp] theorem State.modPlinth_pairKeys (s : State) (e : Nat) (f : Plinth → Plinth) :
    (s.modPlinth e f).pairKeys = s.pairKeys := rfl
@[simp] theorem State.modPlinth_sec (s : State) (e : Nat) (f : Plinth → Plinth) : (s.modPlinth e f).sec = s.sec := rfl
@[simp] theorem State.modPlinth_belfries (s : State) (e : Nat) (f : Plinth → Plinth) :
    (s.modPlinth e f).belfries = s.belfries := rfl
@[simp] theorem State.modPlinth_mgmt (s : State) (e : Nat) (f : Plinth → Plinth) :
    (s.modPlinth e f).mgmt = s.mgmt := rfl
@[simp] theorem State.modPlinth_power (s : State) (e : Nat) (f : Plinth → Plinth) :
    (s.modPlinth e f).power = s.power := rfl
@[simp] theorem State.modPlinth_mboxes (s : State) (e : Nat) (f : Plinth → Plinth) :
    (s.modPlinth e f).mboxes = s.mboxes := rfl
@[simp] theorem State.modPlinth_fns (s : State) (e : Nat) (f : Plinth → Plinth) : (s.modPlinth e f).fns = s.fns := rfl
@[simp] theorem State.modPlinth_irqs (s : State) (e : Nat) (f : Plinth → Plinth) :
    (s.modPlinth e f).irqs = s.irqs := rfl
@[simp] theorem State.modPlinth_start (s : State) (e : Nat) (f : Plinth → Plinth) :
    (s.modPlinth e f).start = s.start := rfl
@[simp] theorem State.modPlinth_store (s : State) (e : Nat) (f : Plinth → Plinth) :
    (s.modPlinth e f).store = s.store := rfl

/-! ### modOculus -/

@[simp] theorem State.modOculus_pending (s : State) (e : Nat) (f : Oculus → Oculus) :
    (s.modOculus e f).pending = s.pending := rfl
@[simp] theorem State.modOculus_free (s : State) (e : Nat) (f : Oculus → Oculus) :
    (s.modOculus e f).free = s.free := rfl
@[simp] theorem State.modOculus_clk (s : State) (e : Nat) (f : Oculus → Oculus) : (s.modOculus e f).clk = s.clk := rfl
@[simp] theorem State.modOculus_time (s : State) (e : Nat) (f : Oculus → Oculus) :
    (s.modOculus e f).time = s.time := rfl
@[simp] theorem State.modOculus_regions (s : State) (e : Nat) (f : Oculus → Oculus) :
    (s.modOculus e f).regions = s.regions := rfl
@[simp] theorem State.modOculus_rf (s : State) (e : Nat) (f : Oculus → Oculus) : (s.modOculus e f).rf = s.rf := rfl
@[simp] theorem State.modOculus_pend (s : State) (e : Nat) (f : Oculus → Oculus) :
    (s.modOculus e f).pend = s.pend := rfl
@[simp] theorem State.modOculus_latched (s : State) (e : Nat) (f : Oculus → Oculus) :
    (s.modOculus e f).latched = s.latched := rfl
@[simp] theorem State.modOculus_lowStage (s : State) (e : Nat) (f : Oculus → Oculus) :
    (s.modOculus e f).lowStage = s.lowStage := rfl
@[simp] theorem State.modOculus_hiLatch (s : State) (e : Nat) (f : Oculus → Oculus) :
    (s.modOculus e f).hiLatch = s.hiLatch := rfl
@[simp] theorem State.modOculus_resp (s : State) (e : Nat) (f : Oculus → Oculus) :
    (s.modOculus e f).resp = s.resp := rfl
@[simp] theorem State.modOculus_evc (s : State) (e : Nat) (f : Oculus → Oculus) : (s.modOculus e f).evc = s.evc := rfl
@[simp] theorem State.modOculus_recorded (s : State) (e : Nat) (f : Oculus → Oculus) :
    (s.modOculus e f).recorded = s.recorded := rfl
@[simp] theorem State.modOculus_faults (s : State) (e : Nat) (f : Oculus → Oculus) :
    (s.modOculus e f).faults = s.faults := rfl
@[simp] theorem State.modOculus_lay (s : State) (e : Nat) (f : Oculus → Oculus) : (s.modOculus e f).lay = s.lay := rfl
@[simp] theorem State.modOculus_parts (s : State) (e : Nat) (f : Oculus → Oculus) :
    (s.modOculus e f).parts = s.parts := rfl
@[simp] theorem State.modOculus_spires (s : State) (e : Nat) (f : Oculus → Oculus) :
    (s.modOculus e f).spires = s.spires := rfl
@[simp] theorem State.modOculus_gates (s : State) (e : Nat) (f : Oculus → Oculus) :
    (s.modOculus e f).gates = s.gates := rfl
@[simp] theorem State.modOculus_sentTo (s : State) (e : Nat) (f : Oculus → Oculus) :
    (s.modOculus e f).sentTo = s.sentTo := rfl
@[simp] theorem State.modOculus_calls (s : State) (e : Nat) (f : Oculus → Oculus) :
    (s.modOculus e f).calls = s.calls := rfl
@[simp] theorem State.modOculus_nextTid (s : State) (e : Nat) (f : Oculus → Oculus) :
    (s.modOculus e f).nextTid = s.nextTid := rfl
@[simp] theorem State.modOculus_hostOps (s : State) (e : Nat) (f : Oculus → Oculus) :
    (s.modOculus e f).hostOps = s.hostOps := rfl
@[simp] theorem State.modOculus_nextHost (s : State) (e : Nat) (f : Oculus → Oculus) :
    (s.modOculus e f).nextHost = s.nextHost := rfl
@[simp] theorem State.modOculus_incs (s : State) (e : Nat) (f : Oculus → Oculus) :
    (s.modOculus e f).incs = s.incs := rfl
@[simp] theorem State.modOculus_mem (s : State) (e : Nat) (f : Oculus → Oculus) : (s.modOculus e f).mem = s.mem := rfl
@[simp] theorem State.modOculus_memKey (s : State) (e : Nat) (f : Oculus → Oculus) :
    (s.modOculus e f).memKey = s.memKey := rfl
@[simp] theorem State.modOculus_memFlip (s : State) (e : Nat) (f : Oculus → Oculus) :
    (s.modOculus e f).memFlip = s.memFlip := rfl
@[simp] theorem State.modOculus_keys (s : State) (e : Nat) (f : Oculus → Oculus) :
    (s.modOculus e f).keys = s.keys := rfl
@[simp] theorem State.modOculus_nextKey (s : State) (e : Nat) (f : Oculus → Oculus) :
    (s.modOculus e f).nextKey = s.nextKey := rfl
@[simp] theorem State.modOculus_dying (s : State) (e : Nat) (f : Oculus → Oculus) :
    (s.modOculus e f).dying = s.dying := rfl
@[simp] theorem State.modOculus_plinths (s : State) (e : Nat) (f : Oculus → Oculus) :
    (s.modOculus e f).plinths = s.plinths := rfl
@[simp] theorem State.modOculus_links (s : State) (e : Nat) (f : Oculus → Oculus) :
    (s.modOculus e f).links = s.links := rfl
@[simp] theorem State.modOculus_viaBad (s : State) (e : Nat) (f : Oculus → Oculus) :
    (s.modOculus e f).viaBad = s.viaBad := rfl
@[simp] theorem State.modOculus_relays (s : State) (e : Nat) (f : Oculus → Oculus) :
    (s.modOculus e f).relays = s.relays := rfl
@[simp] theorem State.modOculus_swMask (s : State) (e : Nat) (f : Oculus → Oculus) :
    (s.modOculus e f).swMask = s.swMask := rfl
@[simp] theorem State.modOculus_optics (s : State) (e : Nat) (f : Oculus → Oculus) :
    (s.modOculus e f).optics = s.optics := rfl
@[simp] theorem State.modOculus_oculi (s : State) (e : Nat) (f : Oculus → Oculus) :
    (s.modOculus e f).oculi = lmod s.oculi e f := rfl
@[simp] theorem State.modOculus_dups (s : State) (e : Nat) (f : Oculus → Oculus) :
    (s.modOculus e f).dups = s.dups := rfl
@[simp] theorem State.modOculus_pairKeys (s : State) (e : Nat) (f : Oculus → Oculus) :
    (s.modOculus e f).pairKeys = s.pairKeys := rfl
@[simp] theorem State.modOculus_sec (s : State) (e : Nat) (f : Oculus → Oculus) : (s.modOculus e f).sec = s.sec := rfl
@[simp] theorem State.modOculus_belfries (s : State) (e : Nat) (f : Oculus → Oculus) :
    (s.modOculus e f).belfries = s.belfries := rfl
@[simp] theorem State.modOculus_mgmt (s : State) (e : Nat) (f : Oculus → Oculus) :
    (s.modOculus e f).mgmt = s.mgmt := rfl
@[simp] theorem State.modOculus_power (s : State) (e : Nat) (f : Oculus → Oculus) :
    (s.modOculus e f).power = s.power := rfl
@[simp] theorem State.modOculus_mboxes (s : State) (e : Nat) (f : Oculus → Oculus) :
    (s.modOculus e f).mboxes = s.mboxes := rfl
@[simp] theorem State.modOculus_fns (s : State) (e : Nat) (f : Oculus → Oculus) : (s.modOculus e f).fns = s.fns := rfl
@[simp] theorem State.modOculus_irqs (s : State) (e : Nat) (f : Oculus → Oculus) :
    (s.modOculus e f).irqs = s.irqs := rfl
@[simp] theorem State.modOculus_start (s : State) (e : Nat) (f : Oculus → Oculus) :
    (s.modOculus e f).start = s.start := rfl
@[simp] theorem State.modOculus_store (s : State) (e : Nat) (f : Oculus → Oculus) :
    (s.modOculus e f).store = s.store := rfl

/-! ### modBelfry -/

@[simp] theorem State.modBelfry_pending (s : State) (e : Nat) (f : Belfry → Belfry) :
    (s.modBelfry e f).pending = s.pending := rfl
@[simp] theorem State.modBelfry_free (s : State) (e : Nat) (f : Belfry → Belfry) :
    (s.modBelfry e f).free = s.free := rfl
@[simp] theorem State.modBelfry_clk (s : State) (e : Nat) (f : Belfry → Belfry) : (s.modBelfry e f).clk = s.clk := rfl
@[simp] theorem State.modBelfry_time (s : State) (e : Nat) (f : Belfry → Belfry) :
    (s.modBelfry e f).time = s.time := rfl
@[simp] theorem State.modBelfry_regions (s : State) (e : Nat) (f : Belfry → Belfry) :
    (s.modBelfry e f).regions = s.regions := rfl
@[simp] theorem State.modBelfry_rf (s : State) (e : Nat) (f : Belfry → Belfry) : (s.modBelfry e f).rf = s.rf := rfl
@[simp] theorem State.modBelfry_pend (s : State) (e : Nat) (f : Belfry → Belfry) :
    (s.modBelfry e f).pend = s.pend := rfl
@[simp] theorem State.modBelfry_latched (s : State) (e : Nat) (f : Belfry → Belfry) :
    (s.modBelfry e f).latched = s.latched := rfl
@[simp] theorem State.modBelfry_lowStage (s : State) (e : Nat) (f : Belfry → Belfry) :
    (s.modBelfry e f).lowStage = s.lowStage := rfl
@[simp] theorem State.modBelfry_hiLatch (s : State) (e : Nat) (f : Belfry → Belfry) :
    (s.modBelfry e f).hiLatch = s.hiLatch := rfl
@[simp] theorem State.modBelfry_resp (s : State) (e : Nat) (f : Belfry → Belfry) :
    (s.modBelfry e f).resp = s.resp := rfl
@[simp] theorem State.modBelfry_evc (s : State) (e : Nat) (f : Belfry → Belfry) : (s.modBelfry e f).evc = s.evc := rfl
@[simp] theorem State.modBelfry_recorded (s : State) (e : Nat) (f : Belfry → Belfry) :
    (s.modBelfry e f).recorded = s.recorded := rfl
@[simp] theorem State.modBelfry_faults (s : State) (e : Nat) (f : Belfry → Belfry) :
    (s.modBelfry e f).faults = s.faults := rfl
@[simp] theorem State.modBelfry_lay (s : State) (e : Nat) (f : Belfry → Belfry) : (s.modBelfry e f).lay = s.lay := rfl
@[simp] theorem State.modBelfry_parts (s : State) (e : Nat) (f : Belfry → Belfry) :
    (s.modBelfry e f).parts = s.parts := rfl
@[simp] theorem State.modBelfry_spires (s : State) (e : Nat) (f : Belfry → Belfry) :
    (s.modBelfry e f).spires = s.spires := rfl
@[simp] theorem State.modBelfry_gates (s : State) (e : Nat) (f : Belfry → Belfry) :
    (s.modBelfry e f).gates = s.gates := rfl
@[simp] theorem State.modBelfry_sentTo (s : State) (e : Nat) (f : Belfry → Belfry) :
    (s.modBelfry e f).sentTo = s.sentTo := rfl
@[simp] theorem State.modBelfry_calls (s : State) (e : Nat) (f : Belfry → Belfry) :
    (s.modBelfry e f).calls = s.calls := rfl
@[simp] theorem State.modBelfry_nextTid (s : State) (e : Nat) (f : Belfry → Belfry) :
    (s.modBelfry e f).nextTid = s.nextTid := rfl
@[simp] theorem State.modBelfry_hostOps (s : State) (e : Nat) (f : Belfry → Belfry) :
    (s.modBelfry e f).hostOps = s.hostOps := rfl
@[simp] theorem State.modBelfry_nextHost (s : State) (e : Nat) (f : Belfry → Belfry) :
    (s.modBelfry e f).nextHost = s.nextHost := rfl
@[simp] theorem State.modBelfry_incs (s : State) (e : Nat) (f : Belfry → Belfry) :
    (s.modBelfry e f).incs = s.incs := rfl
@[simp] theorem State.modBelfry_mem (s : State) (e : Nat) (f : Belfry → Belfry) : (s.modBelfry e f).mem = s.mem := rfl
@[simp] theorem State.modBelfry_memKey (s : State) (e : Nat) (f : Belfry → Belfry) :
    (s.modBelfry e f).memKey = s.memKey := rfl
@[simp] theorem State.modBelfry_memFlip (s : State) (e : Nat) (f : Belfry → Belfry) :
    (s.modBelfry e f).memFlip = s.memFlip := rfl
@[simp] theorem State.modBelfry_keys (s : State) (e : Nat) (f : Belfry → Belfry) :
    (s.modBelfry e f).keys = s.keys := rfl
@[simp] theorem State.modBelfry_nextKey (s : State) (e : Nat) (f : Belfry → Belfry) :
    (s.modBelfry e f).nextKey = s.nextKey := rfl
@[simp] theorem State.modBelfry_dying (s : State) (e : Nat) (f : Belfry → Belfry) :
    (s.modBelfry e f).dying = s.dying := rfl
@[simp] theorem State.modBelfry_plinths (s : State) (e : Nat) (f : Belfry → Belfry) :
    (s.modBelfry e f).plinths = s.plinths := rfl
@[simp] theorem State.modBelfry_links (s : State) (e : Nat) (f : Belfry → Belfry) :
    (s.modBelfry e f).links = s.links := rfl
@[simp] theorem State.modBelfry_viaBad (s : State) (e : Nat) (f : Belfry → Belfry) :
    (s.modBelfry e f).viaBad = s.viaBad := rfl
@[simp] theorem State.modBelfry_relays (s : State) (e : Nat) (f : Belfry → Belfry) :
    (s.modBelfry e f).relays = s.relays := rfl
@[simp] theorem State.modBelfry_swMask (s : State) (e : Nat) (f : Belfry → Belfry) :
    (s.modBelfry e f).swMask = s.swMask := rfl
@[simp] theorem State.modBelfry_optics (s : State) (e : Nat) (f : Belfry → Belfry) :
    (s.modBelfry e f).optics = s.optics := rfl
@[simp] theorem State.modBelfry_oculi (s : State) (e : Nat) (f : Belfry → Belfry) :
    (s.modBelfry e f).oculi = s.oculi := rfl
@[simp] theorem State.modBelfry_dups (s : State) (e : Nat) (f : Belfry → Belfry) :
    (s.modBelfry e f).dups = s.dups := rfl
@[simp] theorem State.modBelfry_pairKeys (s : State) (e : Nat) (f : Belfry → Belfry) :
    (s.modBelfry e f).pairKeys = s.pairKeys := rfl
@[simp] theorem State.modBelfry_sec (s : State) (e : Nat) (f : Belfry → Belfry) : (s.modBelfry e f).sec = s.sec := rfl
@[simp] theorem State.modBelfry_belfries (s : State) (e : Nat) (f : Belfry → Belfry) :
    (s.modBelfry e f).belfries = lmod s.belfries e f := rfl
@[simp] theorem State.modBelfry_mgmt (s : State) (e : Nat) (f : Belfry → Belfry) :
    (s.modBelfry e f).mgmt = s.mgmt := rfl
@[simp] theorem State.modBelfry_power (s : State) (e : Nat) (f : Belfry → Belfry) :
    (s.modBelfry e f).power = s.power := rfl
@[simp] theorem State.modBelfry_mboxes (s : State) (e : Nat) (f : Belfry → Belfry) :
    (s.modBelfry e f).mboxes = s.mboxes := rfl
@[simp] theorem State.modBelfry_fns (s : State) (e : Nat) (f : Belfry → Belfry) : (s.modBelfry e f).fns = s.fns := rfl
@[simp] theorem State.modBelfry_irqs (s : State) (e : Nat) (f : Belfry → Belfry) :
    (s.modBelfry e f).irqs = s.irqs := rfl
@[simp] theorem State.modBelfry_start (s : State) (e : Nat) (f : Belfry → Belfry) :
    (s.modBelfry e f).start = s.start := rfl
@[simp] theorem State.modBelfry_store (s : State) (e : Nat) (f : Belfry → Belfry) :
    (s.modBelfry e f).store = s.store := rfl

/-! ### modCell -/

@[simp] theorem State.modCell_pending (s : State) (n c : Nat) (f : Cell → Cell) :
    (s.modCell n c f).pending = s.pending := rfl
@[simp] theorem State.modCell_free (s : State) (n c : Nat) (f : Cell → Cell) : (s.modCell n c f).free = s.free := rfl
@[simp] theorem State.modCell_clk (s : State) (n c : Nat) (f : Cell → Cell) : (s.modCell n c f).clk = s.clk := rfl
@[simp] theorem State.modCell_time (s : State) (n c : Nat) (f : Cell → Cell) : (s.modCell n c f).time = s.time := rfl
@[simp] theorem State.modCell_regions (s : State) (n c : Nat) (f : Cell → Cell) :
    (s.modCell n c f).regions = s.regions := rfl
@[simp] theorem State.modCell_rf (s : State) (n c : Nat) (f : Cell → Cell) : (s.modCell n c f).rf = s.rf := rfl
@[simp] theorem State.modCell_pend (s : State) (n c : Nat) (f : Cell → Cell) : (s.modCell n c f).pend = s.pend := rfl
@[simp] theorem State.modCell_latched (s : State) (n c : Nat) (f : Cell → Cell) :
    (s.modCell n c f).latched = s.latched := rfl
@[simp] theorem State.modCell_lowStage (s : State) (n c : Nat) (f : Cell → Cell) :
    (s.modCell n c f).lowStage = s.lowStage := rfl
@[simp] theorem State.modCell_hiLatch (s : State) (n c : Nat) (f : Cell → Cell) :
    (s.modCell n c f).hiLatch = s.hiLatch := rfl
@[simp] theorem State.modCell_resp (s : State) (n c : Nat) (f : Cell → Cell) : (s.modCell n c f).resp = s.resp := rfl
@[simp] theorem State.modCell_evc (s : State) (n c : Nat) (f : Cell → Cell) : (s.modCell n c f).evc = s.evc := rfl
@[simp] theorem State.modCell_recorded (s : State) (n c : Nat) (f : Cell → Cell) :
    (s.modCell n c f).recorded = s.recorded := rfl
@[simp] theorem State.modCell_faults (s : State) (n c : Nat) (f : Cell → Cell) :
    (s.modCell n c f).faults = s.faults := rfl
@[simp] theorem State.modCell_lay (s : State) (n c : Nat) (f : Cell → Cell) : (s.modCell n c f).lay = s.lay := rfl
@[simp] theorem State.modCell_parts (s : State) (n c : Nat) (f : Cell → Cell) : (s.modCell n c f).parts = s.parts := rfl
@[simp] theorem State.modCell_gates (s : State) (n c : Nat) (f : Cell → Cell) : (s.modCell n c f).gates = s.gates := rfl
@[simp] theorem State.modCell_sentTo (s : State) (n c : Nat) (f : Cell → Cell) :
    (s.modCell n c f).sentTo = s.sentTo := rfl
@[simp] theorem State.modCell_calls (s : State) (n c : Nat) (f : Cell → Cell) : (s.modCell n c f).calls = s.calls := rfl
@[simp] theorem State.modCell_nextTid (s : State) (n c : Nat) (f : Cell → Cell) :
    (s.modCell n c f).nextTid = s.nextTid := rfl
@[simp] theorem State.modCell_hostOps (s : State) (n c : Nat) (f : Cell → Cell) :
    (s.modCell n c f).hostOps = s.hostOps := rfl
@[simp] theorem State.modCell_nextHost (s : State) (n c : Nat) (f : Cell → Cell) :
    (s.modCell n c f).nextHost = s.nextHost := rfl
@[simp] theorem State.modCell_incs (s : State) (n c : Nat) (f : Cell → Cell) : (s.modCell n c f).incs = s.incs := rfl
@[simp] theorem State.modCell_mem (s : State) (n c : Nat) (f : Cell → Cell) : (s.modCell n c f).mem = s.mem := rfl
@[simp] theorem State.modCell_memKey (s : State) (n c : Nat) (f : Cell → Cell) :
    (s.modCell n c f).memKey = s.memKey := rfl
@[simp] theorem State.modCell_memFlip (s : State) (n c : Nat) (f : Cell → Cell) :
    (s.modCell n c f).memFlip = s.memFlip := rfl
@[simp] theorem State.modCell_keys (s : State) (n c : Nat) (f : Cell → Cell) : (s.modCell n c f).keys = s.keys := rfl
@[simp] theorem State.modCell_nextKey (s : State) (n c : Nat) (f : Cell → Cell) :
    (s.modCell n c f).nextKey = s.nextKey := rfl
@[simp] theorem State.modCell_dying (s : State) (n c : Nat) (f : Cell → Cell) : (s.modCell n c f).dying = s.dying := rfl
@[simp] theorem State.modCell_plinths (s : State) (n c : Nat) (f : Cell → Cell) :
    (s.modCell n c f).plinths = s.plinths := rfl
@[simp] theorem State.modCell_links (s : State) (n c : Nat) (f : Cell → Cell) : (s.modCell n c f).links = s.links := rfl
@[simp] theorem State.modCell_viaBad (s : State) (n c : Nat) (f : Cell → Cell) :
    (s.modCell n c f).viaBad = s.viaBad := rfl
@[simp] theorem State.modCell_relays (s : State) (n c : Nat) (f : Cell → Cell) :
    (s.modCell n c f).relays = s.relays := rfl
@[simp] theorem State.modCell_swMask (s : State) (n c : Nat) (f : Cell → Cell) :
    (s.modCell n c f).swMask = s.swMask := rfl
@[simp] theorem State.modCell_optics (s : State) (n c : Nat) (f : Cell → Cell) :
    (s.modCell n c f).optics = s.optics := rfl
@[simp] theorem State.modCell_oculi (s : State) (n c : Nat) (f : Cell → Cell) : (s.modCell n c f).oculi = s.oculi := rfl
@[simp] theorem State.modCell_dups (s : State) (n c : Nat) (f : Cell → Cell) : (s.modCell n c f).dups = s.dups := rfl
@[simp] theorem State.modCell_pairKeys (s : State) (n c : Nat) (f : Cell → Cell) :
    (s.modCell n c f).pairKeys = s.pairKeys := rfl
@[simp] theorem State.modCell_sec (s : State) (n c : Nat) (f : Cell → Cell) : (s.modCell n c f).sec = s.sec := rfl
@[simp] theorem State.modCell_belfries (s : State) (n c : Nat) (f : Cell → Cell) :
    (s.modCell n c f).belfries = s.belfries := rfl
@[simp] theorem State.modCell_mgmt (s : State) (n c : Nat) (f : Cell → Cell) : (s.modCell n c f).mgmt = s.mgmt := rfl
@[simp] theorem State.modCell_power (s : State) (n c : Nat) (f : Cell → Cell) : (s.modCell n c f).power = s.power := rfl
@[simp] theorem State.modCell_mboxes (s : State) (n c : Nat) (f : Cell → Cell) :
    (s.modCell n c f).mboxes = s.mboxes := rfl
@[simp] theorem State.modCell_fns (s : State) (n c : Nat) (f : Cell → Cell) : (s.modCell n c f).fns = s.fns := rfl
@[simp] theorem State.modCell_irqs (s : State) (n c : Nat) (f : Cell → Cell) : (s.modCell n c f).irqs = s.irqs := rfl
@[simp] theorem State.modCell_start (s : State) (n c : Nat) (f : Cell → Cell) : (s.modCell n c f).start = s.start := rfl
@[simp] theorem State.modCell_store (s : State) (n c : Nat) (f : Cell → Cell) : (s.modCell n c f).store = s.store := rfl

/-! ### modRegion -/

@[simp] theorem State.modRegion_pending (s : State) (r : Nat) (f : Region → Region) :
    (s.modRegion r f).pending = s.pending := rfl
@[simp] theorem State.modRegion_free (s : State) (r : Nat) (f : Region → Region) :
    (s.modRegion r f).free = s.free := rfl
@[simp] theorem State.modRegion_clk (s : State) (r : Nat) (f : Region → Region) : (s.modRegion r f).clk = s.clk := rfl
@[simp] theorem State.modRegion_time (s : State) (r : Nat) (f : Region → Region) :
    (s.modRegion r f).time = s.time := rfl
@[simp] theorem State.modRegion_regions (s : State) (r : Nat) (f : Region → Region) :
    (s.modRegion r f).regions = lmod s.regions r f := rfl
@[simp] theorem State.modRegion_rf (s : State) (r : Nat) (f : Region → Region) : (s.modRegion r f).rf = s.rf := rfl
@[simp] theorem State.modRegion_pend (s : State) (r : Nat) (f : Region → Region) :
    (s.modRegion r f).pend = s.pend := rfl
@[simp] theorem State.modRegion_latched (s : State) (r : Nat) (f : Region → Region) :
    (s.modRegion r f).latched = s.latched := rfl
@[simp] theorem State.modRegion_lowStage (s : State) (r : Nat) (f : Region → Region) :
    (s.modRegion r f).lowStage = s.lowStage := rfl
@[simp] theorem State.modRegion_hiLatch (s : State) (r : Nat) (f : Region → Region) :
    (s.modRegion r f).hiLatch = s.hiLatch := rfl
@[simp] theorem State.modRegion_resp (s : State) (r : Nat) (f : Region → Region) :
    (s.modRegion r f).resp = s.resp := rfl
@[simp] theorem State.modRegion_evc (s : State) (r : Nat) (f : Region → Region) : (s.modRegion r f).evc = s.evc := rfl
@[simp] theorem State.modRegion_recorded (s : State) (r : Nat) (f : Region → Region) :
    (s.modRegion r f).recorded = s.recorded := rfl
@[simp] theorem State.modRegion_faults (s : State) (r : Nat) (f : Region → Region) :
    (s.modRegion r f).faults = s.faults := rfl
@[simp] theorem State.modRegion_lay (s : State) (r : Nat) (f : Region → Region) : (s.modRegion r f).lay = s.lay := rfl
@[simp] theorem State.modRegion_parts (s : State) (r : Nat) (f : Region → Region) :
    (s.modRegion r f).parts = s.parts := rfl
@[simp] theorem State.modRegion_spires (s : State) (r : Nat) (f : Region → Region) :
    (s.modRegion r f).spires = s.spires := rfl
@[simp] theorem State.modRegion_gates (s : State) (r : Nat) (f : Region → Region) :
    (s.modRegion r f).gates = s.gates := rfl
@[simp] theorem State.modRegion_sentTo (s : State) (r : Nat) (f : Region → Region) :
    (s.modRegion r f).sentTo = s.sentTo := rfl
@[simp] theorem State.modRegion_calls (s : State) (r : Nat) (f : Region → Region) :
    (s.modRegion r f).calls = s.calls := rfl
@[simp] theorem State.modRegion_nextTid (s : State) (r : Nat) (f : Region → Region) :
    (s.modRegion r f).nextTid = s.nextTid := rfl
@[simp] theorem State.modRegion_hostOps (s : State) (r : Nat) (f : Region → Region) :
    (s.modRegion r f).hostOps = s.hostOps := rfl
@[simp] theorem State.modRegion_nextHost (s : State) (r : Nat) (f : Region → Region) :
    (s.modRegion r f).nextHost = s.nextHost := rfl
@[simp] theorem State.modRegion_incs (s : State) (r : Nat) (f : Region → Region) :
    (s.modRegion r f).incs = s.incs := rfl
@[simp] theorem State.modRegion_mem (s : State) (r : Nat) (f : Region → Region) : (s.modRegion r f).mem = s.mem := rfl
@[simp] theorem State.modRegion_memKey (s : State) (r : Nat) (f : Region → Region) :
    (s.modRegion r f).memKey = s.memKey := rfl
@[simp] theorem State.modRegion_memFlip (s : State) (r : Nat) (f : Region → Region) :
    (s.modRegion r f).memFlip = s.memFlip := rfl
@[simp] theorem State.modRegion_keys (s : State) (r : Nat) (f : Region → Region) :
    (s.modRegion r f).keys = s.keys := rfl
@[simp] theorem State.modRegion_nextKey (s : State) (r : Nat) (f : Region → Region) :
    (s.modRegion r f).nextKey = s.nextKey := rfl
@[simp] theorem State.modRegion_dying (s : State) (r : Nat) (f : Region → Region) :
    (s.modRegion r f).dying = s.dying := rfl
@[simp] theorem State.modRegion_plinths (s : State) (r : Nat) (f : Region → Region) :
    (s.modRegion r f).plinths = s.plinths := rfl
@[simp] theorem State.modRegion_links (s : State) (r : Nat) (f : Region → Region) :
    (s.modRegion r f).links = s.links := rfl
@[simp] theorem State.modRegion_viaBad (s : State) (r : Nat) (f : Region → Region) :
    (s.modRegion r f).viaBad = s.viaBad := rfl
@[simp] theorem State.modRegion_relays (s : State) (r : Nat) (f : Region → Region) :
    (s.modRegion r f).relays = s.relays := rfl
@[simp] theorem State.modRegion_swMask (s : State) (r : Nat) (f : Region → Region) :
    (s.modRegion r f).swMask = s.swMask := rfl
@[simp] theorem State.modRegion_optics (s : State) (r : Nat) (f : Region → Region) :
    (s.modRegion r f).optics = s.optics := rfl
@[simp] theorem State.modRegion_oculi (s : State) (r : Nat) (f : Region → Region) :
    (s.modRegion r f).oculi = s.oculi := rfl
@[simp] theorem State.modRegion_dups (s : State) (r : Nat) (f : Region → Region) :
    (s.modRegion r f).dups = s.dups := rfl
@[simp] theorem State.modRegion_pairKeys (s : State) (r : Nat) (f : Region → Region) :
    (s.modRegion r f).pairKeys = s.pairKeys := rfl
@[simp] theorem State.modRegion_sec (s : State) (r : Nat) (f : Region → Region) : (s.modRegion r f).sec = s.sec := rfl
@[simp] theorem State.modRegion_belfries (s : State) (r : Nat) (f : Region → Region) :
    (s.modRegion r f).belfries = s.belfries := rfl
@[simp] theorem State.modRegion_mgmt (s : State) (r : Nat) (f : Region → Region) :
    (s.modRegion r f).mgmt = s.mgmt := rfl
@[simp] theorem State.modRegion_power (s : State) (r : Nat) (f : Region → Region) :
    (s.modRegion r f).power = s.power := rfl
@[simp] theorem State.modRegion_mboxes (s : State) (r : Nat) (f : Region → Region) :
    (s.modRegion r f).mboxes = s.mboxes := rfl
@[simp] theorem State.modRegion_fns (s : State) (r : Nat) (f : Region → Region) : (s.modRegion r f).fns = s.fns := rfl
@[simp] theorem State.modRegion_irqs (s : State) (r : Nat) (f : Region → Region) :
    (s.modRegion r f).irqs = s.irqs := rfl
@[simp] theorem State.modRegion_start (s : State) (r : Nat) (f : Region → Region) :
    (s.modRegion r f).start = s.start := rfl
@[simp] theorem State.modRegion_store (s : State) (r : Nat) (f : Region → Region) :
    (s.modRegion r f).store = s.store := rfl

/-! ### modTime -/

@[simp] theorem State.modTime_pending (s : State) (f : TimeEng → TimeEng) : (s.modTime f).pending = s.pending := rfl
@[simp] theorem State.modTime_free (s : State) (f : TimeEng → TimeEng) : (s.modTime f).free = s.free := rfl
@[simp] theorem State.modTime_clk (s : State) (f : TimeEng → TimeEng) : (s.modTime f).clk = s.clk := rfl
@[simp] theorem State.modTime_time (s : State) (f : TimeEng → TimeEng) : (s.modTime f).time = f s.time := rfl
@[simp] theorem State.modTime_regions (s : State) (f : TimeEng → TimeEng) : (s.modTime f).regions = s.regions := rfl
@[simp] theorem State.modTime_rf (s : State) (f : TimeEng → TimeEng) : (s.modTime f).rf = s.rf := rfl
@[simp] theorem State.modTime_pend (s : State) (f : TimeEng → TimeEng) : (s.modTime f).pend = s.pend := rfl
@[simp] theorem State.modTime_latched (s : State) (f : TimeEng → TimeEng) : (s.modTime f).latched = s.latched := rfl
@[simp] theorem State.modTime_lowStage (s : State) (f : TimeEng → TimeEng) : (s.modTime f).lowStage = s.lowStage := rfl
@[simp] theorem State.modTime_hiLatch (s : State) (f : TimeEng → TimeEng) : (s.modTime f).hiLatch = s.hiLatch := rfl
@[simp] theorem State.modTime_resp (s : State) (f : TimeEng → TimeEng) : (s.modTime f).resp = s.resp := rfl
@[simp] theorem State.modTime_evc (s : State) (f : TimeEng → TimeEng) : (s.modTime f).evc = s.evc := rfl
@[simp] theorem State.modTime_recorded (s : State) (f : TimeEng → TimeEng) : (s.modTime f).recorded = s.recorded := rfl
@[simp] theorem State.modTime_faults (s : State) (f : TimeEng → TimeEng) : (s.modTime f).faults = s.faults := rfl
@[simp] theorem State.modTime_lay (s : State) (f : TimeEng → TimeEng) : (s.modTime f).lay = s.lay := rfl
@[simp] theorem State.modTime_parts (s : State) (f : TimeEng → TimeEng) : (s.modTime f).parts = s.parts := rfl
@[simp] theorem State.modTime_spires (s : State) (f : TimeEng → TimeEng) : (s.modTime f).spires = s.spires := rfl
@[simp] theorem State.modTime_gates (s : State) (f : TimeEng → TimeEng) : (s.modTime f).gates = s.gates := rfl
@[simp] theorem State.modTime_sentTo (s : State) (f : TimeEng → TimeEng) : (s.modTime f).sentTo = s.sentTo := rfl
@[simp] theorem State.modTime_calls (s : State) (f : TimeEng → TimeEng) : (s.modTime f).calls = s.calls := rfl
@[simp] theorem State.modTime_nextTid (s : State) (f : TimeEng → TimeEng) : (s.modTime f).nextTid = s.nextTid := rfl
@[simp] theorem State.modTime_hostOps (s : State) (f : TimeEng → TimeEng) : (s.modTime f).hostOps = s.hostOps := rfl
@[simp] theorem State.modTime_nextHost (s : State) (f : TimeEng → TimeEng) : (s.modTime f).nextHost = s.nextHost := rfl
@[simp] theorem State.modTime_incs (s : State) (f : TimeEng → TimeEng) : (s.modTime f).incs = s.incs := rfl
@[simp] theorem State.modTime_mem (s : State) (f : TimeEng → TimeEng) : (s.modTime f).mem = s.mem := rfl
@[simp] theorem State.modTime_memKey (s : State) (f : TimeEng → TimeEng) : (s.modTime f).memKey = s.memKey := rfl
@[simp] theorem State.modTime_memFlip (s : State) (f : TimeEng → TimeEng) : (s.modTime f).memFlip = s.memFlip := rfl
@[simp] theorem State.modTime_keys (s : State) (f : TimeEng → TimeEng) : (s.modTime f).keys = s.keys := rfl
@[simp] theorem State.modTime_nextKey (s : State) (f : TimeEng → TimeEng) : (s.modTime f).nextKey = s.nextKey := rfl
@[simp] theorem State.modTime_dying (s : State) (f : TimeEng → TimeEng) : (s.modTime f).dying = s.dying := rfl
@[simp] theorem State.modTime_plinths (s : State) (f : TimeEng → TimeEng) : (s.modTime f).plinths = s.plinths := rfl
@[simp] theorem State.modTime_links (s : State) (f : TimeEng → TimeEng) : (s.modTime f).links = s.links := rfl
@[simp] theorem State.modTime_viaBad (s : State) (f : TimeEng → TimeEng) : (s.modTime f).viaBad = s.viaBad := rfl
@[simp] theorem State.modTime_relays (s : State) (f : TimeEng → TimeEng) : (s.modTime f).relays = s.relays := rfl
@[simp] theorem State.modTime_swMask (s : State) (f : TimeEng → TimeEng) : (s.modTime f).swMask = s.swMask := rfl
@[simp] theorem State.modTime_optics (s : State) (f : TimeEng → TimeEng) : (s.modTime f).optics = s.optics := rfl
@[simp] theorem State.modTime_oculi (s : State) (f : TimeEng → TimeEng) : (s.modTime f).oculi = s.oculi := rfl
@[simp] theorem State.modTime_dups (s : State) (f : TimeEng → TimeEng) : (s.modTime f).dups = s.dups := rfl
@[simp] theorem State.modTime_pairKeys (s : State) (f : TimeEng → TimeEng) : (s.modTime f).pairKeys = s.pairKeys := rfl
@[simp] theorem State.modTime_sec (s : State) (f : TimeEng → TimeEng) : (s.modTime f).sec = s.sec := rfl
@[simp] theorem State.modTime_belfries (s : State) (f : TimeEng → TimeEng) : (s.modTime f).belfries = s.belfries := rfl
@[simp] theorem State.modTime_mgmt (s : State) (f : TimeEng → TimeEng) : (s.modTime f).mgmt = s.mgmt := rfl
@[simp] theorem State.modTime_power (s : State) (f : TimeEng → TimeEng) : (s.modTime f).power = s.power := rfl
@[simp] theorem State.modTime_mboxes (s : State) (f : TimeEng → TimeEng) : (s.modTime f).mboxes = s.mboxes := rfl
@[simp] theorem State.modTime_fns (s : State) (f : TimeEng → TimeEng) : (s.modTime f).fns = s.fns := rfl
@[simp] theorem State.modTime_irqs (s : State) (f : TimeEng → TimeEng) : (s.modTime f).irqs = s.irqs := rfl
@[simp] theorem State.modTime_start (s : State) (f : TimeEng → TimeEng) : (s.modTime f).start = s.start := rfl
@[simp] theorem State.modTime_store (s : State) (f : TimeEng → TimeEng) : (s.modTime f).store = s.store := rfl

/-! ### modOptics -/

@[simp] theorem State.modOptics_pending (s : State) (f : Optics → Optics) : (s.modOptics f).pending = s.pending := rfl
@[simp] theorem State.modOptics_free (s : State) (f : Optics → Optics) : (s.modOptics f).free = s.free := rfl
@[simp] theorem State.modOptics_clk (s : State) (f : Optics → Optics) : (s.modOptics f).clk = s.clk := rfl
@[simp] theorem State.modOptics_time (s : State) (f : Optics → Optics) : (s.modOptics f).time = s.time := rfl
@[simp] theorem State.modOptics_regions (s : State) (f : Optics → Optics) : (s.modOptics f).regions = s.regions := rfl
@[simp] theorem State.modOptics_rf (s : State) (f : Optics → Optics) : (s.modOptics f).rf = s.rf := rfl
@[simp] theorem State.modOptics_pend (s : State) (f : Optics → Optics) : (s.modOptics f).pend = s.pend := rfl
@[simp] theorem State.modOptics_latched (s : State) (f : Optics → Optics) : (s.modOptics f).latched = s.latched := rfl
@[simp] theorem State.modOptics_lowStage (s : State) (f : Optics → Optics) :
    (s.modOptics f).lowStage = s.lowStage := rfl
@[simp] theorem State.modOptics_hiLatch (s : State) (f : Optics → Optics) : (s.modOptics f).hiLatch = s.hiLatch := rfl
@[simp] theorem State.modOptics_resp (s : State) (f : Optics → Optics) : (s.modOptics f).resp = s.resp := rfl
@[simp] theorem State.modOptics_evc (s : State) (f : Optics → Optics) : (s.modOptics f).evc = s.evc := rfl
@[simp] theorem State.modOptics_recorded (s : State) (f : Optics → Optics) :
    (s.modOptics f).recorded = s.recorded := rfl
@[simp] theorem State.modOptics_faults (s : State) (f : Optics → Optics) : (s.modOptics f).faults = s.faults := rfl
@[simp] theorem State.modOptics_lay (s : State) (f : Optics → Optics) : (s.modOptics f).lay = s.lay := rfl
@[simp] theorem State.modOptics_parts (s : State) (f : Optics → Optics) : (s.modOptics f).parts = s.parts := rfl
@[simp] theorem State.modOptics_spires (s : State) (f : Optics → Optics) : (s.modOptics f).spires = s.spires := rfl
@[simp] theorem State.modOptics_gates (s : State) (f : Optics → Optics) : (s.modOptics f).gates = s.gates := rfl
@[simp] theorem State.modOptics_sentTo (s : State) (f : Optics → Optics) : (s.modOptics f).sentTo = s.sentTo := rfl
@[simp] theorem State.modOptics_calls (s : State) (f : Optics → Optics) : (s.modOptics f).calls = s.calls := rfl
@[simp] theorem State.modOptics_nextTid (s : State) (f : Optics → Optics) : (s.modOptics f).nextTid = s.nextTid := rfl
@[simp] theorem State.modOptics_hostOps (s : State) (f : Optics → Optics) : (s.modOptics f).hostOps = s.hostOps := rfl
@[simp] theorem State.modOptics_nextHost (s : State) (f : Optics → Optics) :
    (s.modOptics f).nextHost = s.nextHost := rfl
@[simp] theorem State.modOptics_incs (s : State) (f : Optics → Optics) : (s.modOptics f).incs = s.incs := rfl
@[simp] theorem State.modOptics_mem (s : State) (f : Optics → Optics) : (s.modOptics f).mem = s.mem := rfl
@[simp] theorem State.modOptics_memKey (s : State) (f : Optics → Optics) : (s.modOptics f).memKey = s.memKey := rfl
@[simp] theorem State.modOptics_memFlip (s : State) (f : Optics → Optics) : (s.modOptics f).memFlip = s.memFlip := rfl
@[simp] theorem State.modOptics_keys (s : State) (f : Optics → Optics) : (s.modOptics f).keys = s.keys := rfl
@[simp] theorem State.modOptics_nextKey (s : State) (f : Optics → Optics) : (s.modOptics f).nextKey = s.nextKey := rfl
@[simp] theorem State.modOptics_dying (s : State) (f : Optics → Optics) : (s.modOptics f).dying = s.dying := rfl
@[simp] theorem State.modOptics_plinths (s : State) (f : Optics → Optics) : (s.modOptics f).plinths = s.plinths := rfl
@[simp] theorem State.modOptics_links (s : State) (f : Optics → Optics) : (s.modOptics f).links = s.links := rfl
@[simp] theorem State.modOptics_viaBad (s : State) (f : Optics → Optics) : (s.modOptics f).viaBad = s.viaBad := rfl
@[simp] theorem State.modOptics_relays (s : State) (f : Optics → Optics) : (s.modOptics f).relays = s.relays := rfl
@[simp] theorem State.modOptics_swMask (s : State) (f : Optics → Optics) : (s.modOptics f).swMask = s.swMask := rfl
@[simp] theorem State.modOptics_optics (s : State) (f : Optics → Optics) : (s.modOptics f).optics = f s.optics := rfl
@[simp] theorem State.modOptics_oculi (s : State) (f : Optics → Optics) : (s.modOptics f).oculi = s.oculi := rfl
@[simp] theorem State.modOptics_dups (s : State) (f : Optics → Optics) : (s.modOptics f).dups = s.dups := rfl
@[simp] theorem State.modOptics_pairKeys (s : State) (f : Optics → Optics) :
    (s.modOptics f).pairKeys = s.pairKeys := rfl
@[simp] theorem State.modOptics_sec (s : State) (f : Optics → Optics) : (s.modOptics f).sec = s.sec := rfl
@[simp] theorem State.modOptics_belfries (s : State) (f : Optics → Optics) :
    (s.modOptics f).belfries = s.belfries := rfl
@[simp] theorem State.modOptics_mgmt (s : State) (f : Optics → Optics) : (s.modOptics f).mgmt = s.mgmt := rfl
@[simp] theorem State.modOptics_power (s : State) (f : Optics → Optics) : (s.modOptics f).power = s.power := rfl
@[simp] theorem State.modOptics_mboxes (s : State) (f : Optics → Optics) : (s.modOptics f).mboxes = s.mboxes := rfl
@[simp] theorem State.modOptics_fns (s : State) (f : Optics → Optics) : (s.modOptics f).fns = s.fns := rfl
@[simp] theorem State.modOptics_irqs (s : State) (f : Optics → Optics) : (s.modOptics f).irqs = s.irqs := rfl
@[simp] theorem State.modOptics_start (s : State) (f : Optics → Optics) : (s.modOptics f).start = s.start := rfl
@[simp] theorem State.modOptics_store (s : State) (f : Optics → Optics) : (s.modOptics f).store = s.store := rfl

/-! ### modMgmt -/

@[simp] theorem State.modMgmt_pending (s : State) (f : Mgmt → Mgmt) : (s.modMgmt f).pending = s.pending := rfl
@[simp] theorem State.modMgmt_free (s : State) (f : Mgmt → Mgmt) : (s.modMgmt f).free = s.free := rfl
@[simp] theorem State.modMgmt_clk (s : State) (f : Mgmt → Mgmt) : (s.modMgmt f).clk = s.clk := rfl
@[simp] theorem State.modMgmt_time (s : State) (f : Mgmt → Mgmt) : (s.modMgmt f).time = s.time := rfl
@[simp] theorem State.modMgmt_regions (s : State) (f : Mgmt → Mgmt) : (s.modMgmt f).regions = s.regions := rfl
@[simp] theorem State.modMgmt_rf (s : State) (f : Mgmt → Mgmt) : (s.modMgmt f).rf = s.rf := rfl
@[simp] theorem State.modMgmt_pend (s : State) (f : Mgmt → Mgmt) : (s.modMgmt f).pend = s.pend := rfl
@[simp] theorem State.modMgmt_latched (s : State) (f : Mgmt → Mgmt) : (s.modMgmt f).latched = s.latched := rfl
@[simp] theorem State.modMgmt_lowStage (s : State) (f : Mgmt → Mgmt) : (s.modMgmt f).lowStage = s.lowStage := rfl
@[simp] theorem State.modMgmt_hiLatch (s : State) (f : Mgmt → Mgmt) : (s.modMgmt f).hiLatch = s.hiLatch := rfl
@[simp] theorem State.modMgmt_resp (s : State) (f : Mgmt → Mgmt) : (s.modMgmt f).resp = s.resp := rfl
@[simp] theorem State.modMgmt_evc (s : State) (f : Mgmt → Mgmt) : (s.modMgmt f).evc = s.evc := rfl
@[simp] theorem State.modMgmt_recorded (s : State) (f : Mgmt → Mgmt) : (s.modMgmt f).recorded = s.recorded := rfl
@[simp] theorem State.modMgmt_faults (s : State) (f : Mgmt → Mgmt) : (s.modMgmt f).faults = s.faults := rfl
@[simp] theorem State.modMgmt_lay (s : State) (f : Mgmt → Mgmt) : (s.modMgmt f).lay = s.lay := rfl
@[simp] theorem State.modMgmt_parts (s : State) (f : Mgmt → Mgmt) : (s.modMgmt f).parts = s.parts := rfl
@[simp] theorem State.modMgmt_spires (s : State) (f : Mgmt → Mgmt) : (s.modMgmt f).spires = s.spires := rfl
@[simp] theorem State.modMgmt_gates (s : State) (f : Mgmt → Mgmt) : (s.modMgmt f).gates = s.gates := rfl
@[simp] theorem State.modMgmt_sentTo (s : State) (f : Mgmt → Mgmt) : (s.modMgmt f).sentTo = s.sentTo := rfl
@[simp] theorem State.modMgmt_calls (s : State) (f : Mgmt → Mgmt) : (s.modMgmt f).calls = s.calls := rfl
@[simp] theorem State.modMgmt_nextTid (s : State) (f : Mgmt → Mgmt) : (s.modMgmt f).nextTid = s.nextTid := rfl
@[simp] theorem State.modMgmt_hostOps (s : State) (f : Mgmt → Mgmt) : (s.modMgmt f).hostOps = s.hostOps := rfl
@[simp] theorem State.modMgmt_nextHost (s : State) (f : Mgmt → Mgmt) : (s.modMgmt f).nextHost = s.nextHost := rfl
@[simp] theorem State.modMgmt_incs (s : State) (f : Mgmt → Mgmt) : (s.modMgmt f).incs = s.incs := rfl
@[simp] theorem State.modMgmt_mem (s : State) (f : Mgmt → Mgmt) : (s.modMgmt f).mem = s.mem := rfl
@[simp] theorem State.modMgmt_memKey (s : State) (f : Mgmt → Mgmt) : (s.modMgmt f).memKey = s.memKey := rfl
@[simp] theorem State.modMgmt_memFlip (s : State) (f : Mgmt → Mgmt) : (s.modMgmt f).memFlip = s.memFlip := rfl
@[simp] theorem State.modMgmt_keys (s : State) (f : Mgmt → Mgmt) : (s.modMgmt f).keys = s.keys := rfl
@[simp] theorem State.modMgmt_nextKey (s : State) (f : Mgmt → Mgmt) : (s.modMgmt f).nextKey = s.nextKey := rfl
@[simp] theorem State.modMgmt_dying (s : State) (f : Mgmt → Mgmt) : (s.modMgmt f).dying = s.dying := rfl
@[simp] theorem State.modMgmt_plinths (s : State) (f : Mgmt → Mgmt) : (s.modMgmt f).plinths = s.plinths := rfl
@[simp] theorem State.modMgmt_links (s : State) (f : Mgmt → Mgmt) : (s.modMgmt f).links = s.links := rfl
@[simp] theorem State.modMgmt_viaBad (s : State) (f : Mgmt → Mgmt) : (s.modMgmt f).viaBad = s.viaBad := rfl
@[simp] theorem State.modMgmt_relays (s : State) (f : Mgmt → Mgmt) : (s.modMgmt f).relays = s.relays := rfl
@[simp] theorem State.modMgmt_swMask (s : State) (f : Mgmt → Mgmt) : (s.modMgmt f).swMask = s.swMask := rfl
@[simp] theorem State.modMgmt_optics (s : State) (f : Mgmt → Mgmt) : (s.modMgmt f).optics = s.optics := rfl
@[simp] theorem State.modMgmt_oculi (s : State) (f : Mgmt → Mgmt) : (s.modMgmt f).oculi = s.oculi := rfl
@[simp] theorem State.modMgmt_dups (s : State) (f : Mgmt → Mgmt) : (s.modMgmt f).dups = s.dups := rfl
@[simp] theorem State.modMgmt_pairKeys (s : State) (f : Mgmt → Mgmt) : (s.modMgmt f).pairKeys = s.pairKeys := rfl
@[simp] theorem State.modMgmt_sec (s : State) (f : Mgmt → Mgmt) : (s.modMgmt f).sec = s.sec := rfl
@[simp] theorem State.modMgmt_belfries (s : State) (f : Mgmt → Mgmt) : (s.modMgmt f).belfries = s.belfries := rfl
@[simp] theorem State.modMgmt_mgmt (s : State) (f : Mgmt → Mgmt) : (s.modMgmt f).mgmt = f s.mgmt := rfl
@[simp] theorem State.modMgmt_power (s : State) (f : Mgmt → Mgmt) : (s.modMgmt f).power = s.power := rfl
@[simp] theorem State.modMgmt_mboxes (s : State) (f : Mgmt → Mgmt) : (s.modMgmt f).mboxes = s.mboxes := rfl
@[simp] theorem State.modMgmt_fns (s : State) (f : Mgmt → Mgmt) : (s.modMgmt f).fns = s.fns := rfl
@[simp] theorem State.modMgmt_irqs (s : State) (f : Mgmt → Mgmt) : (s.modMgmt f).irqs = s.irqs := rfl
@[simp] theorem State.modMgmt_start (s : State) (f : Mgmt → Mgmt) : (s.modMgmt f).start = s.start := rfl
@[simp] theorem State.modMgmt_store (s : State) (f : Mgmt → Mgmt) : (s.modMgmt f).store = s.store := rfl

/-! ### modPower -/

@[simp] theorem State.modPower_pending (s : State) (f : Power → Power) : (s.modPower f).pending = s.pending := rfl
@[simp] theorem State.modPower_free (s : State) (f : Power → Power) : (s.modPower f).free = s.free := rfl
@[simp] theorem State.modPower_clk (s : State) (f : Power → Power) : (s.modPower f).clk = s.clk := rfl
@[simp] theorem State.modPower_time (s : State) (f : Power → Power) : (s.modPower f).time = s.time := rfl
@[simp] theorem State.modPower_regions (s : State) (f : Power → Power) : (s.modPower f).regions = s.regions := rfl
@[simp] theorem State.modPower_rf (s : State) (f : Power → Power) : (s.modPower f).rf = s.rf := rfl
@[simp] theorem State.modPower_pend (s : State) (f : Power → Power) : (s.modPower f).pend = s.pend := rfl
@[simp] theorem State.modPower_latched (s : State) (f : Power → Power) : (s.modPower f).latched = s.latched := rfl
@[simp] theorem State.modPower_lowStage (s : State) (f : Power → Power) : (s.modPower f).lowStage = s.lowStage := rfl
@[simp] theorem State.modPower_hiLatch (s : State) (f : Power → Power) : (s.modPower f).hiLatch = s.hiLatch := rfl
@[simp] theorem State.modPower_resp (s : State) (f : Power → Power) : (s.modPower f).resp = s.resp := rfl
@[simp] theorem State.modPower_evc (s : State) (f : Power → Power) : (s.modPower f).evc = s.evc := rfl
@[simp] theorem State.modPower_recorded (s : State) (f : Power → Power) : (s.modPower f).recorded = s.recorded := rfl
@[simp] theorem State.modPower_faults (s : State) (f : Power → Power) : (s.modPower f).faults = s.faults := rfl
@[simp] theorem State.modPower_lay (s : State) (f : Power → Power) : (s.modPower f).lay = s.lay := rfl
@[simp] theorem State.modPower_parts (s : State) (f : Power → Power) : (s.modPower f).parts = s.parts := rfl
@[simp] theorem State.modPower_spires (s : State) (f : Power → Power) : (s.modPower f).spires = s.spires := rfl
@[simp] theorem State.modPower_gates (s : State) (f : Power → Power) : (s.modPower f).gates = s.gates := rfl
@[simp] theorem State.modPower_sentTo (s : State) (f : Power → Power) : (s.modPower f).sentTo = s.sentTo := rfl
@[simp] theorem State.modPower_calls (s : State) (f : Power → Power) : (s.modPower f).calls = s.calls := rfl
@[simp] theorem State.modPower_nextTid (s : State) (f : Power → Power) : (s.modPower f).nextTid = s.nextTid := rfl
@[simp] theorem State.modPower_hostOps (s : State) (f : Power → Power) : (s.modPower f).hostOps = s.hostOps := rfl
@[simp] theorem State.modPower_nextHost (s : State) (f : Power → Power) : (s.modPower f).nextHost = s.nextHost := rfl
@[simp] theorem State.modPower_incs (s : State) (f : Power → Power) : (s.modPower f).incs = s.incs := rfl
@[simp] theorem State.modPower_mem (s : State) (f : Power → Power) : (s.modPower f).mem = s.mem := rfl
@[simp] theorem State.modPower_memKey (s : State) (f : Power → Power) : (s.modPower f).memKey = s.memKey := rfl
@[simp] theorem State.modPower_memFlip (s : State) (f : Power → Power) : (s.modPower f).memFlip = s.memFlip := rfl
@[simp] theorem State.modPower_keys (s : State) (f : Power → Power) : (s.modPower f).keys = s.keys := rfl
@[simp] theorem State.modPower_nextKey (s : State) (f : Power → Power) : (s.modPower f).nextKey = s.nextKey := rfl
@[simp] theorem State.modPower_dying (s : State) (f : Power → Power) : (s.modPower f).dying = s.dying := rfl
@[simp] theorem State.modPower_plinths (s : State) (f : Power → Power) : (s.modPower f).plinths = s.plinths := rfl
@[simp] theorem State.modPower_links (s : State) (f : Power → Power) : (s.modPower f).links = s.links := rfl
@[simp] theorem State.modPower_viaBad (s : State) (f : Power → Power) : (s.modPower f).viaBad = s.viaBad := rfl
@[simp] theorem State.modPower_relays (s : State) (f : Power → Power) : (s.modPower f).relays = s.relays := rfl
@[simp] theorem State.modPower_swMask (s : State) (f : Power → Power) : (s.modPower f).swMask = s.swMask := rfl
@[simp] theorem State.modPower_optics (s : State) (f : Power → Power) : (s.modPower f).optics = s.optics := rfl
@[simp] theorem State.modPower_oculi (s : State) (f : Power → Power) : (s.modPower f).oculi = s.oculi := rfl
@[simp] theorem State.modPower_dups (s : State) (f : Power → Power) : (s.modPower f).dups = s.dups := rfl
@[simp] theorem State.modPower_pairKeys (s : State) (f : Power → Power) : (s.modPower f).pairKeys = s.pairKeys := rfl
@[simp] theorem State.modPower_sec (s : State) (f : Power → Power) : (s.modPower f).sec = s.sec := rfl
@[simp] theorem State.modPower_belfries (s : State) (f : Power → Power) : (s.modPower f).belfries = s.belfries := rfl
@[simp] theorem State.modPower_mgmt (s : State) (f : Power → Power) : (s.modPower f).mgmt = s.mgmt := rfl
@[simp] theorem State.modPower_power (s : State) (f : Power → Power) : (s.modPower f).power = f s.power := rfl
@[simp] theorem State.modPower_mboxes (s : State) (f : Power → Power) : (s.modPower f).mboxes = s.mboxes := rfl
@[simp] theorem State.modPower_fns (s : State) (f : Power → Power) : (s.modPower f).fns = s.fns := rfl
@[simp] theorem State.modPower_irqs (s : State) (f : Power → Power) : (s.modPower f).irqs = s.irqs := rfl
@[simp] theorem State.modPower_start (s : State) (f : Power → Power) : (s.modPower f).start = s.start := rfl
@[simp] theorem State.modPower_store (s : State) (f : Power → Power) : (s.modPower f).store = s.store := rfl

/-! ### modSec -/

@[simp] theorem State.modSec_pending (s : State) (f : Sec → Sec) : (s.modSec f).pending = s.pending := rfl
@[simp] theorem State.modSec_free (s : State) (f : Sec → Sec) : (s.modSec f).free = s.free := rfl
@[simp] theorem State.modSec_clk (s : State) (f : Sec → Sec) : (s.modSec f).clk = s.clk := rfl
@[simp] theorem State.modSec_time (s : State) (f : Sec → Sec) : (s.modSec f).time = s.time := rfl
@[simp] theorem State.modSec_regions (s : State) (f : Sec → Sec) : (s.modSec f).regions = s.regions := rfl
@[simp] theorem State.modSec_rf (s : State) (f : Sec → Sec) : (s.modSec f).rf = s.rf := rfl
@[simp] theorem State.modSec_pend (s : State) (f : Sec → Sec) : (s.modSec f).pend = s.pend := rfl
@[simp] theorem State.modSec_latched (s : State) (f : Sec → Sec) : (s.modSec f).latched = s.latched := rfl
@[simp] theorem State.modSec_lowStage (s : State) (f : Sec → Sec) : (s.modSec f).lowStage = s.lowStage := rfl
@[simp] theorem State.modSec_hiLatch (s : State) (f : Sec → Sec) : (s.modSec f).hiLatch = s.hiLatch := rfl
@[simp] theorem State.modSec_resp (s : State) (f : Sec → Sec) : (s.modSec f).resp = s.resp := rfl
@[simp] theorem State.modSec_evc (s : State) (f : Sec → Sec) : (s.modSec f).evc = s.evc := rfl
@[simp] theorem State.modSec_recorded (s : State) (f : Sec → Sec) : (s.modSec f).recorded = s.recorded := rfl
@[simp] theorem State.modSec_faults (s : State) (f : Sec → Sec) : (s.modSec f).faults = s.faults := rfl
@[simp] theorem State.modSec_lay (s : State) (f : Sec → Sec) : (s.modSec f).lay = s.lay := rfl
@[simp] theorem State.modSec_parts (s : State) (f : Sec → Sec) : (s.modSec f).parts = s.parts := rfl
@[simp] theorem State.modSec_spires (s : State) (f : Sec → Sec) : (s.modSec f).spires = s.spires := rfl
@[simp] theorem State.modSec_gates (s : State) (f : Sec → Sec) : (s.modSec f).gates = s.gates := rfl
@[simp] theorem State.modSec_sentTo (s : State) (f : Sec → Sec) : (s.modSec f).sentTo = s.sentTo := rfl
@[simp] theorem State.modSec_calls (s : State) (f : Sec → Sec) : (s.modSec f).calls = s.calls := rfl
@[simp] theorem State.modSec_nextTid (s : State) (f : Sec → Sec) : (s.modSec f).nextTid = s.nextTid := rfl
@[simp] theorem State.modSec_hostOps (s : State) (f : Sec → Sec) : (s.modSec f).hostOps = s.hostOps := rfl
@[simp] theorem State.modSec_nextHost (s : State) (f : Sec → Sec) : (s.modSec f).nextHost = s.nextHost := rfl
@[simp] theorem State.modSec_incs (s : State) (f : Sec → Sec) : (s.modSec f).incs = s.incs := rfl
@[simp] theorem State.modSec_mem (s : State) (f : Sec → Sec) : (s.modSec f).mem = s.mem := rfl
@[simp] theorem State.modSec_memKey (s : State) (f : Sec → Sec) : (s.modSec f).memKey = s.memKey := rfl
@[simp] theorem State.modSec_memFlip (s : State) (f : Sec → Sec) : (s.modSec f).memFlip = s.memFlip := rfl
@[simp] theorem State.modSec_keys (s : State) (f : Sec → Sec) : (s.modSec f).keys = s.keys := rfl
@[simp] theorem State.modSec_nextKey (s : State) (f : Sec → Sec) : (s.modSec f).nextKey = s.nextKey := rfl
@[simp] theorem State.modSec_dying (s : State) (f : Sec → Sec) : (s.modSec f).dying = s.dying := rfl
@[simp] theorem State.modSec_plinths (s : State) (f : Sec → Sec) : (s.modSec f).plinths = s.plinths := rfl
@[simp] theorem State.modSec_links (s : State) (f : Sec → Sec) : (s.modSec f).links = s.links := rfl
@[simp] theorem State.modSec_viaBad (s : State) (f : Sec → Sec) : (s.modSec f).viaBad = s.viaBad := rfl
@[simp] theorem State.modSec_relays (s : State) (f : Sec → Sec) : (s.modSec f).relays = s.relays := rfl
@[simp] theorem State.modSec_swMask (s : State) (f : Sec → Sec) : (s.modSec f).swMask = s.swMask := rfl
@[simp] theorem State.modSec_optics (s : State) (f : Sec → Sec) : (s.modSec f).optics = s.optics := rfl
@[simp] theorem State.modSec_oculi (s : State) (f : Sec → Sec) : (s.modSec f).oculi = s.oculi := rfl
@[simp] theorem State.modSec_dups (s : State) (f : Sec → Sec) : (s.modSec f).dups = s.dups := rfl
@[simp] theorem State.modSec_pairKeys (s : State) (f : Sec → Sec) : (s.modSec f).pairKeys = s.pairKeys := rfl
@[simp] theorem State.modSec_sec (s : State) (f : Sec → Sec) : (s.modSec f).sec = f s.sec := rfl
@[simp] theorem State.modSec_belfries (s : State) (f : Sec → Sec) : (s.modSec f).belfries = s.belfries := rfl
@[simp] theorem State.modSec_mgmt (s : State) (f : Sec → Sec) : (s.modSec f).mgmt = s.mgmt := rfl
@[simp] theorem State.modSec_power (s : State) (f : Sec → Sec) : (s.modSec f).power = s.power := rfl
@[simp] theorem State.modSec_mboxes (s : State) (f : Sec → Sec) : (s.modSec f).mboxes = s.mboxes := rfl
@[simp] theorem State.modSec_fns (s : State) (f : Sec → Sec) : (s.modSec f).fns = s.fns := rfl
@[simp] theorem State.modSec_irqs (s : State) (f : Sec → Sec) : (s.modSec f).irqs = s.irqs := rfl
@[simp] theorem State.modSec_start (s : State) (f : Sec → Sec) : (s.modSec f).start = s.start := rfl
@[simp] theorem State.modSec_store (s : State) (f : Sec → Sec) : (s.modSec f).store = s.store := rfl

/-! ### modFaults -/

@[simp] theorem State.modFaults_pending (s : State) (f : Faults → Faults) : (s.modFaults f).pending = s.pending := rfl
@[simp] theorem State.modFaults_free (s : State) (f : Faults → Faults) : (s.modFaults f).free = s.free := rfl
@[simp] theorem State.modFaults_clk (s : State) (f : Faults → Faults) : (s.modFaults f).clk = s.clk := rfl
@[simp] theorem State.modFaults_time (s : State) (f : Faults → Faults) : (s.modFaults f).time = s.time := rfl
@[simp] theorem State.modFaults_regions (s : State) (f : Faults → Faults) : (s.modFaults f).regions = s.regions := rfl
@[simp] theorem State.modFaults_rf (s : State) (f : Faults → Faults) : (s.modFaults f).rf = s.rf := rfl
@[simp] theorem State.modFaults_pend (s : State) (f : Faults → Faults) : (s.modFaults f).pend = s.pend := rfl
@[simp] theorem State.modFaults_latched (s : State) (f : Faults → Faults) : (s.modFaults f).latched = s.latched := rfl
@[simp] theorem State.modFaults_lowStage (s : State) (f : Faults → Faults) :
    (s.modFaults f).lowStage = s.lowStage := rfl
@[simp] theorem State.modFaults_hiLatch (s : State) (f : Faults → Faults) : (s.modFaults f).hiLatch = s.hiLatch := rfl
@[simp] theorem State.modFaults_resp (s : State) (f : Faults → Faults) : (s.modFaults f).resp = s.resp := rfl
@[simp] theorem State.modFaults_evc (s : State) (f : Faults → Faults) : (s.modFaults f).evc = s.evc := rfl
@[simp] theorem State.modFaults_recorded (s : State) (f : Faults → Faults) :
    (s.modFaults f).recorded = s.recorded := rfl
@[simp] theorem State.modFaults_faults (s : State) (f : Faults → Faults) : (s.modFaults f).faults = f s.faults := rfl
@[simp] theorem State.modFaults_lay (s : State) (f : Faults → Faults) : (s.modFaults f).lay = s.lay := rfl
@[simp] theorem State.modFaults_parts (s : State) (f : Faults → Faults) : (s.modFaults f).parts = s.parts := rfl
@[simp] theorem State.modFaults_spires (s : State) (f : Faults → Faults) : (s.modFaults f).spires = s.spires := rfl
@[simp] theorem State.modFaults_gates (s : State) (f : Faults → Faults) : (s.modFaults f).gates = s.gates := rfl
@[simp] theorem State.modFaults_sentTo (s : State) (f : Faults → Faults) : (s.modFaults f).sentTo = s.sentTo := rfl
@[simp] theorem State.modFaults_calls (s : State) (f : Faults → Faults) : (s.modFaults f).calls = s.calls := rfl
@[simp] theorem State.modFaults_nextTid (s : State) (f : Faults → Faults) : (s.modFaults f).nextTid = s.nextTid := rfl
@[simp] theorem State.modFaults_hostOps (s : State) (f : Faults → Faults) : (s.modFaults f).hostOps = s.hostOps := rfl
@[simp] theorem State.modFaults_nextHost (s : State) (f : Faults → Faults) :
    (s.modFaults f).nextHost = s.nextHost := rfl
@[simp] theorem State.modFaults_incs (s : State) (f : Faults → Faults) : (s.modFaults f).incs = s.incs := rfl
@[simp] theorem State.modFaults_mem (s : State) (f : Faults → Faults) : (s.modFaults f).mem = s.mem := rfl
@[simp] theorem State.modFaults_memKey (s : State) (f : Faults → Faults) : (s.modFaults f).memKey = s.memKey := rfl
@[simp] theorem State.modFaults_memFlip (s : State) (f : Faults → Faults) : (s.modFaults f).memFlip = s.memFlip := rfl
@[simp] theorem State.modFaults_keys (s : State) (f : Faults → Faults) : (s.modFaults f).keys = s.keys := rfl
@[simp] theorem State.modFaults_nextKey (s : State) (f : Faults → Faults) : (s.modFaults f).nextKey = s.nextKey := rfl
@[simp] theorem State.modFaults_dying (s : State) (f : Faults → Faults) : (s.modFaults f).dying = s.dying := rfl
@[simp] theorem State.modFaults_plinths (s : State) (f : Faults → Faults) : (s.modFaults f).plinths = s.plinths := rfl
@[simp] theorem State.modFaults_links (s : State) (f : Faults → Faults) : (s.modFaults f).links = s.links := rfl
@[simp] theorem State.modFaults_viaBad (s : State) (f : Faults → Faults) : (s.modFaults f).viaBad = s.viaBad := rfl
@[simp] theorem State.modFaults_relays (s : State) (f : Faults → Faults) : (s.modFaults f).relays = s.relays := rfl
@[simp] theorem State.modFaults_swMask (s : State) (f : Faults → Faults) : (s.modFaults f).swMask = s.swMask := rfl
@[simp] theorem State.modFaults_optics (s : State) (f : Faults → Faults) : (s.modFaults f).optics = s.optics := rfl
@[simp] theorem State.modFaults_oculi (s : State) (f : Faults → Faults) : (s.modFaults f).oculi = s.oculi := rfl
@[simp] theorem State.modFaults_dups (s : State) (f : Faults → Faults) : (s.modFaults f).dups = s.dups := rfl
@[simp] theorem State.modFaults_pairKeys (s : State) (f : Faults → Faults) :
    (s.modFaults f).pairKeys = s.pairKeys := rfl
@[simp] theorem State.modFaults_sec (s : State) (f : Faults → Faults) : (s.modFaults f).sec = s.sec := rfl
@[simp] theorem State.modFaults_belfries (s : State) (f : Faults → Faults) :
    (s.modFaults f).belfries = s.belfries := rfl
@[simp] theorem State.modFaults_mgmt (s : State) (f : Faults → Faults) : (s.modFaults f).mgmt = s.mgmt := rfl
@[simp] theorem State.modFaults_power (s : State) (f : Faults → Faults) : (s.modFaults f).power = s.power := rfl
@[simp] theorem State.modFaults_mboxes (s : State) (f : Faults → Faults) : (s.modFaults f).mboxes = s.mboxes := rfl
@[simp] theorem State.modFaults_fns (s : State) (f : Faults → Faults) : (s.modFaults f).fns = s.fns := rfl
@[simp] theorem State.modFaults_irqs (s : State) (f : Faults → Faults) : (s.modFaults f).irqs = s.irqs := rfl
@[simp] theorem State.modFaults_start (s : State) (f : Faults → Faults) : (s.modFaults f).start = s.start := rfl
@[simp] theorem State.modFaults_store (s : State) (f : Faults → Faults) : (s.modFaults f).store = s.store := rfl

/-! ### modMbox -/

@[simp] theorem State.modMbox_pending (s : State) (m : Nat) (f : Mbox → Mbox) :
    (s.modMbox m f).pending = s.pending := rfl
@[simp] theorem State.modMbox_free (s : State) (m : Nat) (f : Mbox → Mbox) : (s.modMbox m f).free = s.free := rfl
@[simp] theorem State.modMbox_clk (s : State) (m : Nat) (f : Mbox → Mbox) : (s.modMbox m f).clk = s.clk := rfl
@[simp] theorem State.modMbox_time (s : State) (m : Nat) (f : Mbox → Mbox) : (s.modMbox m f).time = s.time := rfl
@[simp] theorem State.modMbox_regions (s : State) (m : Nat) (f : Mbox → Mbox) :
    (s.modMbox m f).regions = s.regions := rfl
@[simp] theorem State.modMbox_rf (s : State) (m : Nat) (f : Mbox → Mbox) : (s.modMbox m f).rf = s.rf := rfl
@[simp] theorem State.modMbox_pend (s : State) (m : Nat) (f : Mbox → Mbox) : (s.modMbox m f).pend = s.pend := rfl
@[simp] theorem State.modMbox_latched (s : State) (m : Nat) (f : Mbox → Mbox) :
    (s.modMbox m f).latched = s.latched := rfl
@[simp] theorem State.modMbox_lowStage (s : State) (m : Nat) (f : Mbox → Mbox) :
    (s.modMbox m f).lowStage = s.lowStage := rfl
@[simp] theorem State.modMbox_hiLatch (s : State) (m : Nat) (f : Mbox → Mbox) :
    (s.modMbox m f).hiLatch = s.hiLatch := rfl
@[simp] theorem State.modMbox_resp (s : State) (m : Nat) (f : Mbox → Mbox) : (s.modMbox m f).resp = s.resp := rfl
@[simp] theorem State.modMbox_evc (s : State) (m : Nat) (f : Mbox → Mbox) : (s.modMbox m f).evc = s.evc := rfl
@[simp] theorem State.modMbox_recorded (s : State) (m : Nat) (f : Mbox → Mbox) :
    (s.modMbox m f).recorded = s.recorded := rfl
@[simp] theorem State.modMbox_faults (s : State) (m : Nat) (f : Mbox → Mbox) : (s.modMbox m f).faults = s.faults := rfl
@[simp] theorem State.modMbox_lay (s : State) (m : Nat) (f : Mbox → Mbox) : (s.modMbox m f).lay = s.lay := rfl
@[simp] theorem State.modMbox_parts (s : State) (m : Nat) (f : Mbox → Mbox) : (s.modMbox m f).parts = s.parts := rfl
@[simp] theorem State.modMbox_spires (s : State) (m : Nat) (f : Mbox → Mbox) : (s.modMbox m f).spires = s.spires := rfl
@[simp] theorem State.modMbox_gates (s : State) (m : Nat) (f : Mbox → Mbox) : (s.modMbox m f).gates = s.gates := rfl
@[simp] theorem State.modMbox_sentTo (s : State) (m : Nat) (f : Mbox → Mbox) : (s.modMbox m f).sentTo = s.sentTo := rfl
@[simp] theorem State.modMbox_calls (s : State) (m : Nat) (f : Mbox → Mbox) : (s.modMbox m f).calls = s.calls := rfl
@[simp] theorem State.modMbox_nextTid (s : State) (m : Nat) (f : Mbox → Mbox) :
    (s.modMbox m f).nextTid = s.nextTid := rfl
@[simp] theorem State.modMbox_hostOps (s : State) (m : Nat) (f : Mbox → Mbox) :
    (s.modMbox m f).hostOps = s.hostOps := rfl
@[simp] theorem State.modMbox_nextHost (s : State) (m : Nat) (f : Mbox → Mbox) :
    (s.modMbox m f).nextHost = s.nextHost := rfl
@[simp] theorem State.modMbox_incs (s : State) (m : Nat) (f : Mbox → Mbox) : (s.modMbox m f).incs = s.incs := rfl
@[simp] theorem State.modMbox_mem (s : State) (m : Nat) (f : Mbox → Mbox) : (s.modMbox m f).mem = s.mem := rfl
@[simp] theorem State.modMbox_memKey (s : State) (m : Nat) (f : Mbox → Mbox) : (s.modMbox m f).memKey = s.memKey := rfl
@[simp] theorem State.modMbox_memFlip (s : State) (m : Nat) (f : Mbox → Mbox) :
    (s.modMbox m f).memFlip = s.memFlip := rfl
@[simp] theorem State.modMbox_keys (s : State) (m : Nat) (f : Mbox → Mbox) : (s.modMbox m f).keys = s.keys := rfl
@[simp] theorem State.modMbox_nextKey (s : State) (m : Nat) (f : Mbox → Mbox) :
    (s.modMbox m f).nextKey = s.nextKey := rfl
@[simp] theorem State.modMbox_dying (s : State) (m : Nat) (f : Mbox → Mbox) : (s.modMbox m f).dying = s.dying := rfl
@[simp] theorem State.modMbox_plinths (s : State) (m : Nat) (f : Mbox → Mbox) :
    (s.modMbox m f).plinths = s.plinths := rfl
@[simp] theorem State.modMbox_links (s : State) (m : Nat) (f : Mbox → Mbox) : (s.modMbox m f).links = s.links := rfl
@[simp] theorem State.modMbox_viaBad (s : State) (m : Nat) (f : Mbox → Mbox) : (s.modMbox m f).viaBad = s.viaBad := rfl
@[simp] theorem State.modMbox_relays (s : State) (m : Nat) (f : Mbox → Mbox) : (s.modMbox m f).relays = s.relays := rfl
@[simp] theorem State.modMbox_swMask (s : State) (m : Nat) (f : Mbox → Mbox) : (s.modMbox m f).swMask = s.swMask := rfl
@[simp] theorem State.modMbox_optics (s : State) (m : Nat) (f : Mbox → Mbox) : (s.modMbox m f).optics = s.optics := rfl
@[simp] theorem State.modMbox_oculi (s : State) (m : Nat) (f : Mbox → Mbox) : (s.modMbox m f).oculi = s.oculi := rfl
@[simp] theorem State.modMbox_dups (s : State) (m : Nat) (f : Mbox → Mbox) : (s.modMbox m f).dups = s.dups := rfl
@[simp] theorem State.modMbox_pairKeys (s : State) (m : Nat) (f : Mbox → Mbox) :
    (s.modMbox m f).pairKeys = s.pairKeys := rfl
@[simp] theorem State.modMbox_sec (s : State) (m : Nat) (f : Mbox → Mbox) : (s.modMbox m f).sec = s.sec := rfl
@[simp] theorem State.modMbox_belfries (s : State) (m : Nat) (f : Mbox → Mbox) :
    (s.modMbox m f).belfries = s.belfries := rfl
@[simp] theorem State.modMbox_mgmt (s : State) (m : Nat) (f : Mbox → Mbox) : (s.modMbox m f).mgmt = s.mgmt := rfl
@[simp] theorem State.modMbox_power (s : State) (m : Nat) (f : Mbox → Mbox) : (s.modMbox m f).power = s.power := rfl
@[simp] theorem State.modMbox_mboxes (s : State) (m : Nat) (f : Mbox → Mbox) :
    (s.modMbox m f).mboxes = lmod s.mboxes m f := rfl
@[simp] theorem State.modMbox_fns (s : State) (m : Nat) (f : Mbox → Mbox) : (s.modMbox m f).fns = s.fns := rfl
@[simp] theorem State.modMbox_irqs (s : State) (m : Nat) (f : Mbox → Mbox) : (s.modMbox m f).irqs = s.irqs := rfl
@[simp] theorem State.modMbox_start (s : State) (m : Nat) (f : Mbox → Mbox) : (s.modMbox m f).start = s.start := rfl
@[simp] theorem State.modMbox_store (s : State) (m : Nat) (f : Mbox → Mbox) : (s.modMbox m f).store = s.store := rfl

/-! ### modFn -/

@[simp] theorem State.modFn_pending (s : State) (i : Nat) (f : HostFn → HostFn) :
    (s.modFn i f).pending = s.pending := rfl
@[simp] theorem State.modFn_free (s : State) (i : Nat) (f : HostFn → HostFn) : (s.modFn i f).free = s.free := rfl
@[simp] theorem State.modFn_clk (s : State) (i : Nat) (f : HostFn → HostFn) : (s.modFn i f).clk = s.clk := rfl
@[simp] theorem State.modFn_time (s : State) (i : Nat) (f : HostFn → HostFn) : (s.modFn i f).time = s.time := rfl
@[simp] theorem State.modFn_regions (s : State) (i : Nat) (f : HostFn → HostFn) :
    (s.modFn i f).regions = s.regions := rfl
@[simp] theorem State.modFn_rf (s : State) (i : Nat) (f : HostFn → HostFn) : (s.modFn i f).rf = s.rf := rfl
@[simp] theorem State.modFn_pend (s : State) (i : Nat) (f : HostFn → HostFn) : (s.modFn i f).pend = s.pend := rfl
@[simp] theorem State.modFn_latched (s : State) (i : Nat) (f : HostFn → HostFn) :
    (s.modFn i f).latched = s.latched := rfl
@[simp] theorem State.modFn_lowStage (s : State) (i : Nat) (f : HostFn → HostFn) :
    (s.modFn i f).lowStage = s.lowStage := rfl
@[simp] theorem State.modFn_hiLatch (s : State) (i : Nat) (f : HostFn → HostFn) :
    (s.modFn i f).hiLatch = s.hiLatch := rfl
@[simp] theorem State.modFn_resp (s : State) (i : Nat) (f : HostFn → HostFn) : (s.modFn i f).resp = s.resp := rfl
@[simp] theorem State.modFn_evc (s : State) (i : Nat) (f : HostFn → HostFn) : (s.modFn i f).evc = s.evc := rfl
@[simp] theorem State.modFn_recorded (s : State) (i : Nat) (f : HostFn → HostFn) :
    (s.modFn i f).recorded = s.recorded := rfl
@[simp] theorem State.modFn_faults (s : State) (i : Nat) (f : HostFn → HostFn) : (s.modFn i f).faults = s.faults := rfl
@[simp] theorem State.modFn_lay (s : State) (i : Nat) (f : HostFn → HostFn) : (s.modFn i f).lay = s.lay := rfl
@[simp] theorem State.modFn_parts (s : State) (i : Nat) (f : HostFn → HostFn) : (s.modFn i f).parts = s.parts := rfl
@[simp] theorem State.modFn_spires (s : State) (i : Nat) (f : HostFn → HostFn) : (s.modFn i f).spires = s.spires := rfl
@[simp] theorem State.modFn_gates (s : State) (i : Nat) (f : HostFn → HostFn) : (s.modFn i f).gates = s.gates := rfl
@[simp] theorem State.modFn_sentTo (s : State) (i : Nat) (f : HostFn → HostFn) : (s.modFn i f).sentTo = s.sentTo := rfl
@[simp] theorem State.modFn_calls (s : State) (i : Nat) (f : HostFn → HostFn) : (s.modFn i f).calls = s.calls := rfl
@[simp] theorem State.modFn_nextTid (s : State) (i : Nat) (f : HostFn → HostFn) :
    (s.modFn i f).nextTid = s.nextTid := rfl
@[simp] theorem State.modFn_hostOps (s : State) (i : Nat) (f : HostFn → HostFn) :
    (s.modFn i f).hostOps = s.hostOps := rfl
@[simp] theorem State.modFn_nextHost (s : State) (i : Nat) (f : HostFn → HostFn) :
    (s.modFn i f).nextHost = s.nextHost := rfl
@[simp] theorem State.modFn_incs (s : State) (i : Nat) (f : HostFn → HostFn) : (s.modFn i f).incs = s.incs := rfl
@[simp] theorem State.modFn_mem (s : State) (i : Nat) (f : HostFn → HostFn) : (s.modFn i f).mem = s.mem := rfl
@[simp] theorem State.modFn_memKey (s : State) (i : Nat) (f : HostFn → HostFn) : (s.modFn i f).memKey = s.memKey := rfl
@[simp] theorem State.modFn_memFlip (s : State) (i : Nat) (f : HostFn → HostFn) :
    (s.modFn i f).memFlip = s.memFlip := rfl
@[simp] theorem State.modFn_keys (s : State) (i : Nat) (f : HostFn → HostFn) : (s.modFn i f).keys = s.keys := rfl
@[simp] theorem State.modFn_nextKey (s : State) (i : Nat) (f : HostFn → HostFn) :
    (s.modFn i f).nextKey = s.nextKey := rfl
@[simp] theorem State.modFn_dying (s : State) (i : Nat) (f : HostFn → HostFn) : (s.modFn i f).dying = s.dying := rfl
@[simp] theorem State.modFn_plinths (s : State) (i : Nat) (f : HostFn → HostFn) :
    (s.modFn i f).plinths = s.plinths := rfl
@[simp] theorem State.modFn_links (s : State) (i : Nat) (f : HostFn → HostFn) : (s.modFn i f).links = s.links := rfl
@[simp] theorem State.modFn_viaBad (s : State) (i : Nat) (f : HostFn → HostFn) : (s.modFn i f).viaBad = s.viaBad := rfl
@[simp] theorem State.modFn_relays (s : State) (i : Nat) (f : HostFn → HostFn) : (s.modFn i f).relays = s.relays := rfl
@[simp] theorem State.modFn_swMask (s : State) (i : Nat) (f : HostFn → HostFn) : (s.modFn i f).swMask = s.swMask := rfl
@[simp] theorem State.modFn_optics (s : State) (i : Nat) (f : HostFn → HostFn) : (s.modFn i f).optics = s.optics := rfl
@[simp] theorem State.modFn_oculi (s : State) (i : Nat) (f : HostFn → HostFn) : (s.modFn i f).oculi = s.oculi := rfl
@[simp] theorem State.modFn_dups (s : State) (i : Nat) (f : HostFn → HostFn) : (s.modFn i f).dups = s.dups := rfl
@[simp] theorem State.modFn_pairKeys (s : State) (i : Nat) (f : HostFn → HostFn) :
    (s.modFn i f).pairKeys = s.pairKeys := rfl
@[simp] theorem State.modFn_sec (s : State) (i : Nat) (f : HostFn → HostFn) : (s.modFn i f).sec = s.sec := rfl
@[simp] theorem State.modFn_belfries (s : State) (i : Nat) (f : HostFn → HostFn) :
    (s.modFn i f).belfries = s.belfries := rfl
@[simp] theorem State.modFn_mgmt (s : State) (i : Nat) (f : HostFn → HostFn) : (s.modFn i f).mgmt = s.mgmt := rfl
@[simp] theorem State.modFn_power (s : State) (i : Nat) (f : HostFn → HostFn) : (s.modFn i f).power = s.power := rfl
@[simp] theorem State.modFn_mboxes (s : State) (i : Nat) (f : HostFn → HostFn) : (s.modFn i f).mboxes = s.mboxes := rfl
@[simp] theorem State.modFn_fns (s : State) (i : Nat) (f : HostFn → HostFn) :
    (s.modFn i f).fns = lmod s.fns i f := rfl
@[simp] theorem State.modFn_irqs (s : State) (i : Nat) (f : HostFn → HostFn) : (s.modFn i f).irqs = s.irqs := rfl
@[simp] theorem State.modFn_start (s : State) (i : Nat) (f : HostFn → HostFn) : (s.modFn i f).start = s.start := rfl
@[simp] theorem State.modFn_store (s : State) (i : Nat) (f : HostFn → HostFn) : (s.modFn i f).store = s.store := rfl

end Sys2Proof.Machine
end

