-- ==== Sys2Proof/Laws/Tab.lean ====
section
/-! SUPPORT. The sparse tables: what is read after a write, and that every write keeps the canonical form. -/

namespace Sys2Proof.Machine

theorem twfFrom_lower {α : Type} [DecidableEq α] (d : Nat → α) (lo lo' : Nat) (t : Tab α) (h : twfFrom d lo t = true)
    (hl : lo' ≤ lo) : twfFrom d lo' t = true := by
  cases t with
  | nil => rfl
  | cons e t => grind [twfFrom]

/-- A key below every listed key reads as the default. -/
theorem tget_below {α : Type} [DecidableEq α] (d : Nat → α) (x : α) (lo k : Nat) (t : Tab α) (h : twfFrom d lo t = true)
    (hk : k < lo) : tget x t k = x := by
  induction t generalizing lo with
  | nil => rfl
  | cons e t ih =>
    obtain ⟨i, v⟩ := e
    have : lo ≤ i := by grind [twfFrom]
    grind [tget]

/-- A write keeps the canonical form. -/
theorem tset_twfFrom {α : Type} [DecidableEq α] (d : Nat → α) (lo n : Nat) (v : α) (t : Tab α) (h : twfFrom d lo t = true)
    (hn : lo ≤ n) : twfFrom d lo (tset (d n) t n v) = true := by
  induction t generalizing lo with
  | nil => grind [tset, twfFrom]
  | cons e t ih =>
    obtain ⟨i, w⟩ := e
    have ht : twfFrom d (i + 1) t = true := by grind [twfFrom]
    have hl := twfFrom_lower d (i + 1) lo t ht
    grind [tset, twfFrom]

theorem tset_twf {α : Type} [DecidableEq α] (d : Nat → α) (n : Nat) (v : α) (t : Tab α) (h : twf d t = true) :
    twf d (tset (d n) t n v) = true := tset_twfFrom d 0 n v t h (Nat.zero_le n)

/-- What was written is read. -/
theorem tget_tset_same {α : Type} [DecidableEq α] (d : Nat → α) (n : Nat) (v : α) (t : Tab α) (h : twf d t = true) :
    tget (d n) (tset (d n) t n v) n = v := by
  unfold twf at h
  generalize 0 = lo at h
  induction t generalizing lo with
  | nil => grind [tset, tget]
  | cons e t ih =>
    obtain ⟨i, w⟩ := e
    have ht : twfFrom d (i + 1) t = true := by grind [twfFrom]
    have hb := tget_below d (d n) (i + 1) n t ht
    grind [tset, tget]

/-- Other keys read as before. -/
theorem tget_tset_other {α : Type} [DecidableEq α] (d : Nat → α) (n k : Nat) (x v : α) (t : Tab α) (h : twf d t = true)
    (hk : k ≠ n) : tget x (tset (d n) t n v) k = tget x t k := by
  unfold twf at h
  generalize 0 = lo at h
  induction t generalizing lo with
  | nil => grind [tset, tget]
  | cons e t ih =>
    obtain ⟨i, w⟩ := e
    have ht : twfFrom d (i + 1) t = true := by grind [twfFrom]
    have hb := tget_below d x (i + 1) k t ht
    grind [tset, tget]

/-- A run of writes keeps the canonical form. -/
theorem tputs_twf {α : Type} [DecidableEq α] (d : α) (a : Nat) (l : List α) (t : Tab α) (h : twf (fun _ => d) t = true) :
    twf (fun _ => d) (tputs d t a l) = true := by
  induction l generalizing a t with
  | nil => exact h
  | cons v l ih => exact ih _ _ (tset_twf (fun _ => d) a v t h)

/-- Entries taken out leave a table in its canonical form. -/
theorem filter_twf {α : Type} [DecidableEq α] (d : Nat → α) (p : Nat × α → Bool) (t : Tab α) (h : twf d t = true) :
    twf d (t.filter p) = true := by
  unfold twf at *
  generalize 0 = lo at *
  induction t generalizing lo with
  | nil => rfl
  | cons e t ih =>
    obtain ⟨i, w⟩ := e
    have ht : twfFrom d (i + 1) t = true := by grind [twfFrom]
    have h1 := ih (i + 1) ht
    have h2 := twfFrom_lower d (i + 1) lo (t.filter p) h1
    grind [twfFrom]

theorem tclear_twf {α : Type} [DecidableEq α] (d : Nat → α) (lo hi : Nat) (t : Tab α) (h : twf d t = true) :
    twf d (tclear t lo hi) = true := filter_twf d _ t h

end Sys2Proof.Machine
end

