-- ==== Sys2Proof/Laws/Wait.lean ====
section
/-! SUPPORT. Waiting for a moment of the duration clock: it comes unless a tick comes first. -/

namespace Sys2Proof.Machine

/-- A moment that no tick precedes is reached, and nothing but time has passed. -/
theorem waitUntil_reaches (s : State) (t : Nat) (h : s.reaches t) : s.waitUntil t = some (s.atTime t) := by
  simp only [State.reaches, State.waitUntil, State.atTime] at *
  rcases h with h | h | h
  · simp [Nat.sub_eq_zero_of_le h]
  · simp [h]
  · simp [Nat.not_le.mpr h]

/-- A moment that a tick precedes is not reached. -/
theorem waitUntil_none (s : State) (t : Nat) (h : ¬ s.reaches t) : s.waitUntil t = none := by
  simp only [State.reaches, State.waitUntil, not_or, Nat.not_le, Nat.not_lt, Bool.not_eq_false] at *
  simp [h.2.1, h.2.2]
  omega

/-- Waiting for a region's count is waiting for the moment at which it has counted so far. -/
theorem waitCycles_eq (s : State) (r : Nat) (c : Int) : s.waitCycles r c = s.waitUntil (s.cycleAt r c) := rfl

end Sys2Proof.Machine
end

