-- ==== Sys2Proof/Laws/Word.lean ====
section
/-! SUPPORT. A field put into a word reads back, and the bits beside it stay. -/

namespace Sys2Proof

/-- The number of a word without the bits that a mask of it covers. -/
theorem toNat_sub_and (v : Word) (m : Nat) : v.toNat - (v.toNat &&& m) = (v &&& ~~~(BitVec.ofNat 32 m)).toNat := by
  have hm : v.toNat &&& m = (v &&& BitVec.ofNat 32 m).toNat := by
    rw [BitVec.toNat_and, BitVec.toNat_ofNat]
    apply Nat.eq_of_testBit_eq
    intro j
    simp only [Nat.testBit_and, Nat.testBit_mod_two_pow]
    by_cases h : j < 32
    · simp [h]
    · have : v.toNat.testBit j = false :=
        Nat.testBit_lt_two_pow (lt_of_lt_of_le v.isLt (Nat.pow_le_pow_right (by norm_num) (by omega)))
      simp [this]
  have hs : (v &&& BitVec.ofNat 32 m) + (v &&& ~~~(BitVec.ofNat 32 m)) = v := by
    rw [BitVec.add_eq_or_of_and_eq_zero]
    · ext i
      simp only [BitVec.getElem_or, BitVec.getElem_and, BitVec.getElem_not]
      cases v[i] <;> simp
    · ext i
      simp only [BitVec.getElem_and, BitVec.getElem_not, BitVec.getElem_zero]
      cases v[i] <;> simp
  have hn := congrArg BitVec.toNat hs
  have hl : (v &&& BitVec.ofNat 32 m).toNat + (v &&& ~~~(BitVec.ofNat 32 m)).toNat < 2 ^ 32 := by
    have h0 : (v &&& BitVec.ofNat 32 m) &&& (v &&& ~~~(BitVec.ofNat 32 m)) = 0#32 := by
      ext i
      simp only [BitVec.getElem_and, BitVec.getElem_not, BitVec.getElem_zero]
      cases v[i] <;> simp
    have := BitVec.toNat_add_of_and_eq_zero h0
    rw [← this]
    exact BitVec.isLt _
  rw [BitVec.toNat_add, Nat.mod_eq_of_lt hl] at hn
  omega

/-- A field put into a word, bit by bit. -/
theorem Word.put_getLsbD (v : Word) (hi lo x i : Nat) (h : i < 32) :
    (v.put hi lo x).getLsbD i = if lo ≤ i ∧ i < hi + 1 then x.testBit (i - lo) else v.getLsbD i := by
  unfold Word.put
  dsimp only
  rw [toNat_sub_and, BitVec.getLsbD_ofNat]
  simp only [Nat.testBit_or, Nat.testBit_and, Nat.testBit_shiftLeft, Nat.testBit_two_pow_sub_one, BitVec.testBit_toNat,
    BitVec.getLsbD_and, BitVec.getLsbD_not, BitVec.getLsbD_ofNat, h, decide_true, Bool.true_and]
  by_cases h1 : lo ≤ i
  · by_cases h2 : i < hi + 1
    · have : i - lo < hi + 1 - lo := by omega
      simp [h1, h2, this]
    · have : ¬ i - lo < hi + 1 - lo := by omega
      simp [h1, h2, this]
  · simp [h1]

/-- A field put into a word reads back. -/
theorem Word.put_bits (v : Word) (hi lo x : Nat) (h : hi < 32) (hl : lo ≤ hi) :
    (v.put hi lo x).bits hi lo = x % 2 ^ (hi + 1 - lo) := by
  unfold Word.bits
  apply Nat.eq_of_testBit_eq
  intro j
  simp only [Nat.testBit_mod_two_pow, Nat.testBit_shiftRight, BitVec.testBit_toNat]
  by_cases hj : j < hi + 1 - lo
  · rw [Word.put_getLsbD _ _ _ _ _ (by omega)]
    simp [hj, show lo + j < hi + 1 by omega]
  · simp [hj]

/-- A bit put into a word reads back. -/
theorem Word.put_bit_one (v : Word) (i : Nat) (h : i < 32) : (v.put i i 1).bit i = true := by
  unfold Word.bit
  rw [Word.put_getLsbD _ _ _ _ _ h]
  simp

/-- A bit cleared in a word reads back. -/
theorem Word.put_bit_zero (v : Word) (i : Nat) (h : i < 32) : (v.put i i 0).bit i = false := by
  unfold Word.bit
  rw [Word.put_getLsbD _ _ _ _ _ h]
  simp

end Sys2Proof
end

