-- ==== Sys2Proof/Laws/Write.lean ====
section
/-! SUPPORT. A write of a register: taken when the checks of R486 pass and the register's own rule takes it, rejected
otherwise; device memory and the register file keep their canonical form. -/

namespace Sys2Proof.Machine

/-- A write that the checks pass and the register takes; it is a change for the state log (R382). -/
theorem write_taken (s t : State) (f : Func) (loc : Loc) (v : Word) (op : State → WR) (h : s.accepts f loc v)
    (ho : op s = .ok t) : s.write f loc v op = t.managed := by
  unfold State.write State.settle
  simp [h.1, h.2, ho]

/-- A write that the checks pass and the register rejects. -/
theorem write_refused (s : State) (f : Func) (loc : Loc) (v : Word) (op : State → WR) (c : Nat) (h : s.accepts f loc v)
    (ho : op s = .error c) : s.write f loc v op = s.reject f (loc / 4096) (loc % 4096) c := by
  unfold State.write State.settle
  simp [h.1, h.2, ho]

/-- A write that a check of R486 stops. -/
theorem write_rejected (s : State) (f : Func) (loc : Loc) (v : Word) (op : State → WR) (c : Nat)
    (hp : s.pageOpen f (loc / 4096) = true) (h : s.accessCheck f (loc / 4096) (loc % 4096) v = some c) :
    s.write f loc v op = s.reject f (loc / 4096) (loc % 4096) c := by
  unfold State.write
  simp [hp, h]

/-- The register file keeps its canonical form. -/
theorem put_canon (s : State) (loc : Loc) (w : Word) (idx : Nat) (h : s.canon = true) : (s.put loc w idx).canon = true := by
  have h1 : twf rfDefault s.rf = true ∧ memWf s.mem = true := by
    unfold State.canon at h; simpa using h
  have h2 := tset_twf rfDefault (rkey loc idx) w s.rf h1.1
  have h3 : (s.put loc w idx).canon = (twf rfDefault (tset (rfDefault (rkey loc idx)) s.rf (rkey loc idx) w) && memWf s.mem) := rfl
  rw [h3, h2, h1.2]
  rfl

/-- A word written is read. -/
theorem get_put_same (s : State) (loc : Loc) (w : Word) (idx : Nat) (h : s.canon = true) :
    (s.put loc w idx).get loc idx = w := by
  have h1 : twf rfDefault s.rf = true ∧ memWf s.mem = true := by
    unfold State.canon at h; simpa using h
  exact tget_tset_same rfDefault (rkey loc idx) w s.rf h1.1

/-- Every other place and selection reads as before. -/
theorem get_put_other (s : State) (loc loc' : Loc) (w : Word) (idx idx' : Nat) (h : s.canon = true)
    (hk : rkey loc' idx' ≠ rkey loc idx) : (s.put loc w idx).get loc' idx' = s.get loc' idx' := by
  have h1 : twf rfDefault s.rf = true ∧ memWf s.mem = true := by
    unfold State.canon at h; simpa using h
  exact tget_tset_other rfDefault (rkey loc idx) (rkey loc' idx') (rfDefault (rkey loc' idx')) w s.rf h1.1 hk

/-- A code word written to its channel leaves device memory in its canonical form. -/
theorem memCwWrite_wf (s : State) (line cw key : Nat) (b : List Byte) (h : memWf s.mem = true) :
    memWf (s.memCwWrite line cw key b).mem = true := by
  unfold State.memCwWrite
  dsimp only
  refine tputs_twf 0 _ b _ ?_
  split <;> exact h

/-- Bytes of a line written to its channel leave device memory in its canonical form. -/
theorem chanWrite_wf (s : State) (line key changed : Nat) (data : List Byte) (h : memWf s.mem = true) :
    memWf (s.chanWrite line key changed data).mem = true := by
  unfold State.chanWrite
  have h0 : memWf (s.chanUsed line).mem = true := h
  clear h
  revert h0
  generalize s.chanUsed line = s
  intro h
  generalize List.range 4 = l
  induction l generalizing s with
  | nil => exact h
  | cons a l ih =>
    refine ih _ ?_
    dsimp only
    split
    · exact h
    · exact memCwWrite_wf _ _ _ _ _ h

/-- Memory at reset has the canonical form. -/
theorem reset_memWf : memWf State.reset.mem = true := rfl

end Sys2Proof.Machine
end

