-- ==== Sys2Proof/WellFormed.lean ====
section
/-! DEFINITION. What a command must look like to stand for something that can reach the part: data of the length its
header announces, lists of the length the device has parts. -/

namespace Sys2Proof

/-- The flits after the header are those that NFLIT, MASKF and TAGF announce, 64 bytes each (R205, R280). -/
def Pkt.wf (k : Pkt) : Bool :=
  k.data.length == 64 * (k.nflit.toNat + k.maskf.toNat + k.tagf.toNat)

/-- A part carries one line (R85). -/
def MsgPart.wf (m : MsgPart) : Bool := m.data.length == 256

/-- A command is well-formed: a write has the words its bytes need, a read covers a register (R485). -/
def Instr.wf : Instr → Bool
  | .messagePartArrival _ m => m.wf
  | .flinkQuery k | .flinkReply k | .cmap k | .heartbeat k | .regWrite k | .regRead k | .admitAt k
  | .pairTakeoverQuery k | .mgmtResp k => k.wf
  | .fabLoad _ k | .fabStore _ k | .storeMasked _ k | .atomic _ k | .reduce _ k | .mcStore _ k
  | .mcStoreCopy _ k | .msg _ k | .tally _ k | .signal _ k | .comp _ k | .compData _ k => k.wf
  | .sensorSample t => t.length == 30
  | .registerWrite _ _ _ v bytes => decide (1 ≤ bytes ∧ v.length = (bytes + 3) / 4)
  | .registerRead _ _ a => decide (1 ≤ a.words)
  | .mbTxData _ _ _ _ bytes => decide (1 ≤ bytes)
  | .spdmVendorDefined _ nonce => nonce.length == 32
  | .hostLinkTrain rate width _ => decide (1 ≤ rate.toNat ∧ rate.toNat ≤ 6 ∧ 1 ≤ width.toNat ∧ width.toNat ≤ 8)
  | _ => true

end Sys2Proof
end

