-- ==== Sys2Proof/Tests/Slice0.lean ====
section
/-! SUPPORT. Tests: ill-formed commands that the check refuses, single steps whose results the spec gives, and for the
statements a concrete state that meets their hypotheses together. -/

namespace Sys2Proof.Tests

open Sys2Proof Sys2Proof.Machine

set_option Elab.async false

/-! ### Well-formed commands -/

theorem test_wf_packet_data : Instr.wf (.cmap { nflit := 1, data := [] }) = false := by decide
theorem test_wf_packet_flits : Instr.wf (.fabStore .east { op := 2, nflit := 1, data := List.replicate 64 0 }) = true := by
  decide +kernel

theorem test_wf_message_part : Instr.wf (.messagePartArrival 0 { data := [0] }) = false := by decide
theorem test_wf_sensors : Instr.wf (.sensorSample [some 0]) = false := by decide
theorem test_wf_register_write : Instr.wf (.registerWrite .pf 0 0 [0] 5) = false := by decide
theorem test_wf_register_read : Instr.wf (.registerRead .pf 6 { off := 0, words := 0 }) = false := by decide
theorem test_wf_mailbox_write : Instr.wf (.mbTxData .pf 0 true 0 0) = false := by decide
theorem test_wf_nonce : Instr.wf (.spdmVendorDefined .pf []) = false := by decide
theorem test_wf_host_rate : Instr.wf (.hostLinkTrain 7 8 true) = false := by decide
theorem test_wf_host_width : Instr.wf (.hostLinkTrain 6 0 true) = false := by decide

/-! ### Single steps -/

/-- The part in service: every unit started, the belfry East holding with West as its ready standby. -/
def up : State :=
  ({ State.reset with
      power := { closed := true }
      spires := List.replicate 16 { out := 0 }
      gates := List.replicate 8 { out := 0 }
      plinths := List.replicate 2 { out := 0, trained := true }
      oculi := List.replicate 2 { out := 0 } } : State).put Loc.glBootSts 9 |>.put (Loc.bfBfSts 0) 7 |>.put (Loc.bfBfSts 1) 6

/-- `up` with partition 1 owning spire 0 and the tags 0 to 15. -/
def owned : State :=
  { up with lay := { spires := 1 :: List.replicate 15 15, tags := (0, 0) :: (0, 16) :: List.replicate 6 (0, 0) } }

/-- `s` with line 0 of device memory written under the administrative key: its first byte b, the others 0. -/
def line0 (s : State) (b : Byte) : State :=
  { s with mem := if b = 0 then [] else [⟨0, b⟩], memKey := [(0, 1), (1, 1), (2, 1), (3, 1)] }

/-- A task of the words, started at its unit of cell 0. -/
def taskOf (w : List Nat) : ATask := { q := { words := w } }

/-- `s` with spire 0 changed, and with cell 0 of spire 0 changed. -/
def sp0 (s : State) (f : Spire → Spire) : State := s.modSpire 0 f
def cell0 (s : State) (f : Cell → Cell) : State := s.modCell 0 0 f

/-- The lowest 32 lines of device memory go to different gatehouses in turn (R162). -/
theorem test_place_first : placeLine 0 = (0, 0, 0) := by decide
theorem test_place_next : placeLine 9 = (1, 1, 0) := by decide

/-- A read of GUARD.PWR_GUARD gives its reset value, 1,760 W. -/
theorem test_guard_read : exec (.registerRead .pf 6 { off := Fin.ofNat 1024 (Loc.glPwrGuard % 4096 / 4) }) up =
    .next { up with resp := .word 1760 } := by rfl

/-- A write of an illegal form is recorded with code 1 in PAGE_REJ (R486, R487). -/
theorem test_reject_reserved :
    (match exec (.registerWrite .pf 6 (Fin.ofNat 1024 (Loc.glPwrGuard % 4096 / 4)) [0x80000000] 4) up with
    | .next t => (t.get 0x6014).bits 7 0 == 1 && (t.get 0x6014).bit 31
    | _ => false) = true := by decide +kernel

/-- A consuming await takes its threshold from the count (R35). -/
theorem test_await_wrap : awaitMet 0 0xFFFFFFFF = true ∧ awaitMet 0xFFFFFFFE 0xFFFFFFFF = false := by decide

/-- No row of the table gives bits. -/
theorem test_no_words : decodeTableWord 32 0 = none := rfl

/-! ### States that meet the hypotheses of the statements -/

theorem witness_EmptyQueueIdles : State.reset.pending = [] := rfl

theorem witness_LinesArePlacedOnce : 0 % 384 ≠ 383 ∧ 382 % 384 ≠ 383 ∧ 0 / 384 % 512 ≠ 511 ∧ 384 * 510 / 384 % 512 ≠ 511 := by
  decide

/-- The first await of slot 0 consumes one signal of tag 0, slot 0; the second looks without consuming. -/
theorem witness_AwaitsTakeTheirCounts :
    let s := ((owned.put (Loc.spEphData 0 3) 0x00300000).put (Loc.spEphData 0 4) 1).put (Loc.ocTagDir 0) 1024
    let t := (s.setCount 0 0 1).put (Loc.spEphData 0 5) 0x00100000
    (t.awaitTry 0 0 false).isSome = true ∧ bitOf (t.slotW 0 0 3) 21 = true ∧ t.slotW 0 0 4 < 2 ^ 32 ∧ t.canon = true ∧
    (t.awaitTry 0 0 true).isSome = true ∧ bitOf (t.slotW 0 0 5) 21 = false := by
  decide +kernel

theorem witness_MinimumVersionsNeverFall :
    (∀ k, (fun _ => 0 : Nat → Nat) k ≤ tget 0 State.reset.store.svn k) ∧ ∃ t, step State.reset = .next t :=
  ⟨fun _ => Nat.zero_le _, _, rfl⟩

theorem witness_PartitionCommandsPend :
    let s := owned
    let t := owned.setFld (Loc.ptPfSts 1) 2 0 3
    let v := s.get (Loc.ptPfCtl 1)
    s.defined 1 = true ∧ s.pfState 1 = 0 ∧ t.pfState 1 = 3 ∧ t.flag Loc.glFaultSts 0 = false ∧
    (∀ cmd ∈ [1, 2, 3], (s.accepts (.vf 1) (Loc.ptPfCtl 1) (v.put 1 0 cmd) ∧ t.accepts (.vf 1) (Loc.ptPfCtl 1) (v.put 1 0 cmd) ∧
      wellFormedFor (Loc.ptPfCtl 1) (v.put 1 0 cmd)) ∧
      (t.accepts .mgmt (Loc.ptPfCtl 1) (v.put 1 0 cmd) ∧ rsvCheck (locFields (Loc.ptPfCtl 1)) (v.put 1 0 cmd) = none)) := by
  simp only [State.accepts, wellFormedFor]; decide +kernel

/-- A load of one entry, and its line come with its first bytes. -/
def oneEntry (come : Option (Option (List Byte))) : BulkLoad :=
  { next := 0, left := 1, addr := 0, here := come.map fun x => (0, x.map fun l => l ++ List.replicate (256 - l.length) 0) }

theorem witness_EphemerisIsFilled :
    let s := up
    let v : Word := (0x800 : Word).put 31 31 1
    let b : BulkLoad := { next := v.bits 9 0, left := v.bits 20 10, addr := s.addrOf (Loc.spEphLoadAddrLo 0), f := .pf }
    let bad := s.put (Loc.spEphData 0 1) 0x01000000 staging
    let runs (b : BulkLoad) : State := sp0 s fun sp => { sp with ephLoad := some b }
    (s.accepts .pf (Loc.spEphData 0 15) 0 ∧ s.slotCheck (s.spireOwner 0) (s.staged (Loc.spEphData 0) 16 0) = none) ∧
    (bad.accepts .pf (Loc.spEphData 0 15) 0 ∧
      (bad.slotCheck (bad.spireOwner 0) (bad.staged (Loc.spEphData 0) 16 0)).isSome = true) ∧
    (s.accepts .pf (Loc.spEphLoad 0) v ∧ s.bulkCheck (Loc.spEphLoad 0) v b.addr b.next b.left 1024 2048 64 = none) ∧
    (((runs (oneEntry none)).spire 0).ephLoad = some (oneEntry none) ∧ (oneEntry none).entry 64 = none) ∧
    (oneEntry (some none)).entry 64 = some none ∧
    (∃ w, (oneEntry (some (some [0]))).entry 64 = some (some w) ∧
      (runs (oneEntry (some (some [0])))).slotCheck ((runs (oneEntry (some (some [0])))).spireOwner 0) w = none) ∧
    (∃ w, (oneEntry (some (some [0xFF, 0xFF, 0xFF]))).entry 64 = some (some w) ∧
      ((runs (oneEntry (some (some [0xFF, 0xFF, 0xFF])))).slotCheck ((runs (oneEntry (some (some [0xFF, 0xFF, 0xFF])))).spireOwner 0) w).isSome = true) := by
  refine ⟨?_, ?_, ?_, ?_, ?_, ⟨_, rfl, ?_⟩, ⟨_, rfl, ?_⟩⟩ <;> (try simp only [State.accepts]) <;> decide +kernel

theorem witness_DescriptorsAreCommitted :
    let s := up
    let good : State := s.put (Loc.spTskData 0 0) 9 staging
    let v : Word := (0x4000 : Word).put 31 31 1
    let b : BulkLoad := { next := v.bits 13 0, left := v.bits 28 14, addr := s.addrOf (Loc.spTskLoadAddrLo 0), f := .pf }
    let runs (b : BulkLoad) : State := sp0 s fun sp => { sp with tskLoad := some b }
    (good.accepts .pf (Loc.spTskData 0 7) 0 ∧ good.taskCheck (good.spireOwner 0) (good.staged (Loc.spTskData 0) 8 0) = none) ∧
    (s.accepts .pf (Loc.spTskData 0 7) 0 ∧ (s.taskCheck (s.spireOwner 0) (s.staged (Loc.spTskData 0) 8 0)).isSome = true) ∧
    (s.accepts .pf (Loc.spTskLoad 0) v ∧ s.bulkCheck (Loc.spTskLoad 0) v b.addr b.next b.left 16384 32768 32 = none) ∧
    (((runs (oneEntry none)).spire 0).tskLoad = some (oneEntry none) ∧ (oneEntry none).entry 32 = none) ∧
    (oneEntry (some none)).entry 32 = some none ∧
    (∃ w, (oneEntry (some (some [9]))).entry 32 = some (some w) ∧
      (runs (oneEntry (some (some [9])))).taskCheck ((runs (oneEntry (some (some [9])))).spireOwner 0) w = none) ∧
    (∃ w, (oneEntry (some (some [0]))).entry 32 = some (some w) ∧
      ((runs (oneEntry (some (some [0])))).taskCheck ((runs (oneEntry (some (some [0])))).spireOwner 0) w).isSome = true) := by
  refine ⟨?_, ?_, ?_, ?_, ?_, ⟨_, rfl, ?_⟩, ⟨_, rfl, ?_⟩⟩ <;> (try simp only [State.accepts]) <;> decide +kernel

theorem witness_SlotsRun :
    let q : Word := BitVec.ofNat 32 (2 * 2 ^ 14)
    let s := ((owned.put (Loc.spEphData 0 2) q).setFld (Loc.ptPfSts 1) 2 0 1)
    let w (e : SlotRun) : State := sp0 s fun sp => { sp with window := [e] }
    let du := (w { elig := true }).put (Loc.spTskData 0 0) 0x4010
    let south := (w { elig := true }).put (Loc.spTskData 0 0) (BitVec.ofNat 32 (32 * 2 ^ 8))
    (let t := w {}
     ((t.spire 0).window.find? (fun e => e.slot == 0 && !e.elig && !e.fading)) = some {} ∧
     t.reaches (t.clk.elapsed + t.nsTo (0 + t.slotStart 0 0))) ∧
    ((w {}).clk.count < 5 + (w {}).slotStart 0 0 ∧ 0 + (w {}).slotStart 0 0 ≤ (w {}).clk.count ∧ (w {}).mayRun 0 = true ∧
     (w {}).awaitEn 0 0 false = false ∧ (w {}).awaitEn 0 0 true = false) ∧
    (let t := w { elig := true }
     (t.spire 0).out = 0 ∧ t.slotTurn 0 { elig := true } = true ∧
     ((t.spire 0).window.find? (fun e => e.slot == 0 && (t.nextTask 0 e).isSome)) = some { elig := true } ∧
     ({ words := t.descriptor 0 (t.slotBase 0 0) } : QTask).du = false ∧ ({ words := t.descriptor 0 (t.slotBase 0 0) } : QTask).cell < 32) ∧
    (du.slotTurn 0 { elig := true } = true ∧ (du.spire 0).out = 0 ∧
     ((du.spire 0).window.find? (fun e => e.slot == 0 && (du.nextTask 0 e).isSome)) = some { elig := true } ∧
     ({ words := du.descriptor 0 (du.slotBase 0 0) } : QTask).du = true) ∧
    (south.slotTurn 0 { elig := true } = true ∧ (south.spire 0).out = 0 ∧
     ((south.spire 0).window.find? (fun e => e.slot == 0 && (south.nextTask 0 e).isSome)) = some { elig := true } ∧
     (let q : QTask := { words := south.descriptor 0 (south.slotBase 0 0) }
      q.du = false ∧ q.cell = 32 ∧ ((south.spire 0).cell 32).queue.length < 64 ∧ (south.crossRoom 0 true).isSome = true)) ∧
    (let full := south.modCell 0 32 fun c => { c with queue := List.replicate 64 { words := [] } }
     full.slotTurn 0 { elig := true } = true ∧
     ((full.spire 0).window.find? (fun e => e.slot == 0 && (full.nextTask 0 e).isSome)) = some { elig := true } ∧
     64 ≤ ((full.spire 0).cell 32).queue.length) ∧
    (let e : SlotRun := { elig := true, sent := 1 }
     let t := w e
     ((t.spire 0).window.find? (fun e => e.slot == 0 && decide (0 < e.sent) && !e.overB)) = some e ∧
     t.slotInRegion 0 0 false = true ∧ t.reaches (t.cycleAt 0 (e.cycN + inCycles (t.slotBudget 0 0)))) ∧
    (let t := sp0 (w {}) fun sp => { sp with run := some { entered := 1 } }
     (t.spire 0).run = some { entered := 1 } ∧ t.slotOpen 0 { entered := 1 } 0 = true ∧
     ({ entered := 1 } : Run).lates.contains 0 = false ∧ t.mayRun 0 = true ∧
     t.reaches (t.clk.elapsed + t.nsTo (t.deadlineAt 0 0))) := by
  simp only [State.reaches]; decide +kernel

theorem witness_TicksAreCounted :
    let s : State := { owned with clk := { joined := true } }
    s.clk.joined = true ∧ s.clk.cutoff = false ∧ (s.setFld (Loc.ptPfSts 1) 2 0 1).pfState 1 = 1 := by
  decide +kernel

theorem witness_TasksStartAndRetire :
    let c (q : QTask) : State := cell0 up fun x => { x with queue := [q] }
    (up.spire 0).out = 0 ∧
    (let q : QTask := { words := [1] }
     ((c q).cell 0 0).queue = [q] ∧ ((c q).cell 0 0).failed = false ∧ (c q).ticketOk 0 q = true ∧ q.fence = false ∧
      (c q).reaches q.due ∧ opUnit q.op < 3 ∧ ((c q).cell 0 0).unit (opUnit q.op) = none) ∧
    (let q : QTask := { words := [1] }
     let s := cell0 (c q) fun x => { x with failed := true }
     (s.cell 0 0).queue = [q] ∧ (s.cell 0 0).failed = true) ∧
    (let q : QTask := { words := [0x4010] }
     let s := sp0 up fun sp => { sp with du := { queue := [q] } }
     (s.spire 0).du.cur = none ∧ (s.spire 0).du.queue = [q] ∧ s.ticketOk 0 q = true) ∧
    (let q : QTask := { words := [0x10009] }
     ((c q).cell 0 0).queue = [q] ∧ ((c q).cell 0 0).failed = false ∧ q.op = 9 ∧ (c q).ticketOk 0 q = true ∧ q.fence = true ∧
      ((c q).cell 0 0).m = none ∧ ((c q).cell 0 0).v = none ∧ ((c q).cell 0 0).x = none ∧ (c q).reaches q.due) ∧
    (let a : ATask := { taskOf [1] with done := true }
     let s := cell0 up fun x => { x with m := some a }
     (s.cell 0 0).unit (unitNat .m) = some a ∧ a.done = true ∧ a.wait = 0 ∧ a.q.aOut = false ∧ a.q.bOut = false) ∧
    (let a : ATask := { taskOf [1, 0, 0, 0, 0, 2 ^ 18 + 2 ^ 20] with done := true }
     let s := cell0 up fun x => { x with m := some a }
     (s.cell 0 0).unit (unitNat .m) = some a ∧ a.q.aOut = true ∧ a.q.bOut = true ∧ (s.cell 0 0).outE = [] ∧ (s.cell 0 0).outS = []) ∧
    (let t : DuTask := { walked := true }
     let s := sp0 up fun sp => { sp with du := { cur := some t } }
     (s.spire 0).du.cur = some t ∧ t.walked = true ∧ (s.spire 0).duOut = 0 ∧ t.items = []) := by
  simp only [State.reaches]; decide +kernel

/-- The outcomes of a read: it comes, it waits, it fails. -/
def came : Got → Bool
  | .ok _ => true
  | _ => false
def waits : Got → Bool
  | .wait => true
  | _ => false
def spoils : Got → Bool
  | .bad _ => true
  | _ => false

/-- An address in a cell's scratchpad whose last byte but one is the memory's last: no line fits there. -/
def edge : Nat := 0xFFFFE

/-- A task of the words on unit `u` of cell 0, and on unit 1 of cell 7. -/
def on0 (u : Nat) (w : List Nat) : State := cell0 up fun x => x.setUnit u (some (taskOf w))
def on7 (u : Nat) (w : List Nat) : State := up.modCell 0 7 fun x => x.setUnit u (some (taskOf w))

theorem witness_ComputeTasksComplete :
    let well : Nat := 2 ^ 30
    -- MMA: an edge, a misfit, strips that wait, fail and come
    (let w := [1, 0, 0, 2048, 4096, 0x440001, 0, 0]
     (on7 0 w).running 0 7 1 = some (taskOf w) ∧ noNeighbour 7 (taskOf w).q = true) ∧
    (let w := [1, 0, 0, 2048, edge, 0x400001, 0, 0]
     let q := (taskOf w).q
     (on0 0 w).running 0 0 1 = some (taskOf w) ∧ noNeighbour 0 q = false ∧ 2 ≤ q.acc ∧
      (spotOf q.cell q.dst).fits 0 (elemBytes q.fmtD 1024) = false) ∧
    (let ra (s : State) (c : Nat) (q : QTask) := s.relayOperand 0 c q true (stripBytes q.fmtA q.count q.mx)
     let rb (s : State) (c : Nat) (q : QTask) := (ra s c q).1.relayOperand 0 c q false (stripBytes q.fmtB q.count q.mx)
     let ok (w : List Nat) := (on0 0 w).running 0 0 1 == some (taskOf w) && !noNeighbour 0 (taskOf w).q && (taskOf w).q.acc < 2
     (let w := [1, 0, 0, 2048, 4096, 1 + 2 ^ 17, 0, 0]
      let s := up.modCell 0 1 fun x => x.setUnit 0 (some (taskOf w))
      s.running 0 1 1 = some (taskOf w) ∧ noNeighbour 1 (taskOf w).q = false ∧ (taskOf w).q.acc < 2 ∧ waits (ra s 1 (taskOf w).q).2 = true) ∧
     (let w := [1, 0, edge, 2048, 4096, 1, 0, 0]
      ok w = true ∧ spoils (ra (on0 0 w) 0 (taskOf w).q).2 = true) ∧
     (let w := [1, 0, 0, 2048, 4096, 1 + 2 ^ 19, 0, 0]
      let s := up.modCell 0 8 fun x => x.setUnit 0 (some (taskOf w))
      s.running 0 8 1 = some (taskOf w) ∧ noNeighbour 8 (taskOf w).q = false ∧ came (ra s 8 (taskOf w).q).2 = true ∧
       waits (rb s 8 (taskOf w).q).2 = true) ∧
     (let w := [1, 0, 0, edge, 4096, 1, 0, 0]
      ok w = true ∧ came (ra (on0 0 w) 0 (taskOf w).q).2 = true ∧ spoils (rb (on0 0 w) 0 (taskOf w).q).2 = true) ∧
     (let w := [1, 0, 0, 2048, 4096, 1, 0, 0]
      ok w = true ∧ came (ra (on0 0 w) 0 (taskOf w).q).2 = true ∧ came (rb (on0 0 w) 0 (taskOf w).q).2 = true)) ∧
    -- RELAY
    (let w := [8, 0, 0, 0, well, 1 + 2 ^ 18, 0, 0]
     (on7 0 w).running 0 7 8 = some (taskOf w) ∧ noNeighbour 7 (taskOf w).q = true) ∧
    (let w := [8, 0, 0, 0, edge, 1, 0, 0]
     let q := (taskOf w).q
     (on0 0 w).running 0 0 8 = some (taskOf w) ∧ noNeighbour 0 q = false ∧ aspace q.dst ≠ 3 ∧
      (spotOf q.cell q.dst).fits 0 (256 * q.count) = false) ∧
    (let ra (s : State) (c : Nat) (q : QTask) := s.relayOperand 0 c q (!(q.bIn && !q.aIn)) (256 * q.count)
     let ok (s : State) (c : Nat) (w : List Nat) := s.running 0 c 8 == some (taskOf w) && !noNeighbour c (taskOf w).q &&
       (spotOf (taskOf w).q.cell (taskOf w).q.dst).fits 0 (256 * (taskOf w).q.count)
     (let w := [8, 0, 0, 0, well, 1 + 2 ^ 17, 0, 0]
      let s := up.modCell 0 1 fun x => x.setUnit 0 (some (taskOf w))
      ok s 1 w = true ∧ waits (ra s 1 (taskOf w).q).2 = true) ∧
     (let w := [8, 0, edge, 0, well, 1, 0, 0]
      ok (on0 0 w) 0 w = true ∧ spoils (ra (on0 0 w) 0 (taskOf w).q).2 = true) ∧
     (let w := [8, 0, 0, 0, well, 1, 0, 0]
      ok (on0 0 w) 0 w = true ∧ came (ra (on0 0 w) 0 (taskOf w).q).2 = true ∧ (taskOf w).q.aIn = false) ∧
     (let w := [8, 0, 0, 0, well, 1 + 2 ^ 17 + 2 ^ 19, 0, 0]
      let s := up.modCell 0 9 fun x => { (x.setUnit 0 (some (taskOf w))) with inW := [List.replicate 256 0] }
      ok s 9 w = true ∧ (taskOf w).q.aIn = true ∧ (taskOf w).q.bIn = true)) ∧
    -- VOP of one, two and three operands
    (let w := [2, 0, 0, 2048, edge, 64, 0, 0]
     (on0 1 w).running 0 0 2 = some (taskOf w) ∧
      (spotOf (taskOf w).q.cell (taskOf w).q.dst).fits 0 (elemBytes (taskOf w).q.fmtD (taskOf w).q.count) = false) ∧
    (let ra (s : State) (q : QTask) := s.operand 0 (spotOf q.cell q.srcA) 0 (elemBytes q.fmtA q.count)
     let rb (s : State) (q : QTask) := (ra s q).1.operand 0 (spotOf q.cell q.srcB) 0 (elemBytes q.fmtB q.count)
     let rd (s : State) (q : QTask) := (rb s q).1.operand 0 (spotOf q.cell q.dst) 0 (elemBytes q.fmtD q.count)
     let ok (w : List Nat) := (on0 1 w).running 0 0 2 == some (taskOf w) &&
       (spotOf (taskOf w).q.cell (taskOf w).q.dst).fits 0 (elemBytes (taskOf w).q.fmtD (taskOf w).q.count)
     (let w := [2, 0, edge, 2048, 4096, 64, 0, 0]
      ok w = true ∧ spoils (ra (on0 1 w) (taskOf w).q).2 = true) ∧
     (let w := [2, 0, 0, edge, 4096, 64, 0, 0]
      ok w = true ∧ (taskOf w).q.ext0 % 256 ≤ 5 ∧ came (ra (on0 1 w) (taskOf w).q).2 = true ∧ spoils (rb (on0 1 w) (taskOf w).q).2 = true) ∧
     (let w := [2, 0, 0, 2048, 4096, 1, 3, 0]
      ok w = true ∧ (taskOf w).q.ext0 % 256 = 3 ∧ came (ra (on0 1 w) (taskOf w).q).2 = true ∧
       came (rb (on0 1 w) (taskOf w).q).2 = true ∧ came (rd (on0 1 w) (taskOf w).q).2 = true)) ∧
    -- MOVE
    (let w := [3, 0, edge, 0, well, 1, 0, 0]
     (on0 2 w).running 0 0 3 = some (taskOf w) ∧ (spotOf (taskOf w).q.cell (taskOf w).q.srcA).fits 0 (256 * (taskOf w).q.count) = false) ∧
    (let w := [3, 0, 0, 0, well, 1, 0, 0]
     (on0 2 w).running 0 0 3 = some (taskOf w) ∧ (spotOf (taskOf w).q.cell (taskOf w).q.srcA).fits 0 (256 * (taskOf w).q.count) = true ∧
      (spotOf (taskOf w).q.cell (taskOf w).q.dst).fits 0 (256 * (taskOf w).q.count) = true) := by
  decide +kernel

/-- The part as device 3 of the fabric, port 0 up and the route of device 5 through it. -/
def fab : State :=
  let s := (owned.put Loc.glFabId 0x10003).put (Loc.ocRouteData 0) 0x80000020 5 |>.put (Loc.ocRouteData 1) 0x80000020 5
  ({ s with start := { s.start with fabric := true } }.setPortState 0 4).modPort 0 fun p => { p with locked := true, credit := List.replicate 12 64 }

/-- `fab` attached below device 5, which holds its pair. -/
def below5 : State := (((fab.put Loc.glMgmtUpA 0x10005).put Loc.glMgmtHolder 5).put Loc.glMgmtPair 0x10007).setFld Loc.glMgmtSts 1 0 1

/-- `below5` with a management key for device 5. -/
def keyed5 : State := { below5 with pairKeys := [(0, some { mgmt := true, peer := 5 })] }

/-- `keyed5` when it has opened its first packet under that key. -/
def opened5 : State := keyed5.setKey 0 (some { mgmt := true, peer := 5, rx := { hi0 := 1 }, due := true })

/-- What an issue comes to. -/
def isWait : Issue → Bool
  | .wait => true
  | _ => false
def isSent : Issue → Bool
  | .sent _ _ => true
  | _ => false
def isDone : Issue → Bool
  | .done _ _ _ => true
  | _ => false

theorem witness_TransferTasksComplete :
    -- LOAD and STORE, with room and without
    (∀ op ∈ [4, 5], (on0 2 [op, 0, 0, 0, 0, 1, 0, 0]).running 0 0 op = some (taskOf [op, 0, 0, 0, 0, 1, 0, 0])) ∧
    -- SEND: a source that fails, one within the part, one to a device while the oculus has a transaction free and while not
    (let w := [6, 0, edge, 0, 0, 1, 0, 0]
     (on0 2 w).running 0 0 6 = some (taskOf w) ∧
      spoils ((on0 2 w).operand 0 (spotOf (taskOf w).q.cell (taskOf w).q.srcA) 0 (256 * (taskOf w).q.count)).2 = true) ∧
    (let w := [6, 0, 0, 0, 0, 1, 0x100000, 0]
     (on0 2 w).running 0 0 6 = some (taskOf w) ∧ bitOf (taskOf w).q.ext0 20 = true ∧
      came ((on0 2 w).operand 0 (spotOf (taskOf w).q.cell (taskOf w).q.srcA) 0 (256 * (taskOf w).q.count)).2 = true) ∧
    (let m : OutMsg := { cell := 0, kind := 0, dev := some 5, parts := [{}] }
     (fab.sendMsg 0 m fun s _ => s).isSome = true) ∧
    -- FOP: a record that fails, one refused, one whose data does not fit, one whose operands come, leaving and ending at once
    (let r (s : State) (w : List Nat) := s.operand 0 (spotOf (taskOf w).q.cell (taskOf w).q.srcB) 0 32
     let bytes (s : State) (w : List Nat) : List Byte := match (r s w).2 with
       | .ok b => b
       | _ => []
     let at_ (s : State) (rec : List Byte) (w : List Nat) : State :=
       ((s.scratchWrite 0 0 0 (rec ++ List.replicate (32 - rec.length) 0)).modCell 0 0 fun x => x.setUnit 2 (some (taskOf w)))
     let fits (s : State) (w : List Nat) : Bool :=
       let k := fopPkt (r s w).1 0 (bytes s w)
       (spotOf (taskOf w).q.cell (taskOf w).q.dst).fits (fopRoom k).1 (fopRoom k).2
     let ok (s : State) (w : List Nat) : Bool := s.running 0 0 7 == some (taskOf w) && came (r s w).2
     (let w := [7, 0, 0, edge, 4096, 0, 0, 0]
      (on0 2 w).running 0 0 7 = some (taskOf w) ∧ spoils (r (on0 2 w) w).2 = true) ∧
     (let w := [7, 0, 0, 0, 4096, 0, 0, 0]
      let s := at_ fab [] w
      ok s w = true ∧ (r s w).1.fopCheck (s.spireOwner 0) (bytes s w) = false) ∧
     (let w := [7, 0, 0, 0, edge, 0, 0, 0]
      let s := at_ fab [1, 0, 5, 0, 0, 0, 0, 0, 0, 0, 0, 0, 0, 0, 0xFF] w
      ok s w = true ∧ (r s w).1.fopCheck (s.spireOwner 0) (bytes s w) = true ∧ fits s w = false) ∧
     (let w := [7, 0, edge, 0, 4096, 0, 0, 0]
      let s := at_ fab [2, 0, 5, 0, 0, 0, 0, 0, 0, 0, 0, 0, 0, 0, 0xFF] w
      let k := fopPkt (r s w).1 0 (bytes s w)
      ok s w = true ∧ (r s w).1.fopCheck (s.spireOwner 0) (bytes s w) = true ∧ fits s w = true ∧ (fopNeed k).2 ≠ 0 ∧
       spoils ((r s w).1.operand 0 (spotOf (taskOf w).q.cell (taskOf w).q.srcA) (fopNeed k).1 (fopNeed k).2).2 = true) ∧
     (let w := [7, 0, 0, 0, 4096, 0, 0, 0]
      let s := at_ fab [1, 0, 5] w
      let t := at_ up [1, 0, 5] w
      let full := at_ (fab.modOculus 0 fun o => { o with txns := List.replicate 32768 {} }) [1, 0, 5] w
      let ans (s : State) : Issue :=
        let k := fopPkt (r s w).1 0 (bytes s w)
        (r s w).1.issue (k.addr.toNat / 256) (fopFlits k []) (.fop 0 0) (bitOf ((bytes s w).getD 1 0).toNat 3)
      ok s w = true ∧ (r s w).1.fopCheck (s.spireOwner 0) (bytes s w) = true ∧ fits s w = true ∧
       (fopNeed (fopPkt (r s w).1 0 (bytes s w))).2 = 0 ∧ isSent (ans s) = true ∧ isDone (ans t) = true ∧ isWait (ans full) = true)) ∧
    (on0 2 [10, 0, 0, 0, 0, 1, 0, 0]).running 0 0 10 = some (taskOf [10, 0, 0, 0, 0, 1, 0, 0]) := by
  decide +kernel

/-- Zone 0 of spire 0 valid for tag 0, one entry of one row, counting at slot 0 of tag 0. -/
def zoned : State :=
  ((owned.put (Loc.spZoneData 0 0) 0x02000000).put (Loc.spZoneData 0 1) 0x00010001).put (Loc.spZoneData 0 2) 0x00100000

theorem witness_DispatchAndStealing :
    -- DISPATCH with its zones invalid, and valid with a table in the well and elsewhere; RETURN
    (let at_ (s : State) (w : List Nat) : State := sp0 s fun sp => { sp with du := { cur := some { a := taskOf w } } }
     let valid (s : State) (w : List Nat) : Bool := (zoneOf (s.zoneWords 0 (bitsOf (taskOf w).q.ext0 7 0))).valid &&
       (zoneOf (s.zoneWords 0 (bitsOf (taskOf w).q.ext0 15 8))).valid
     let runs (s : State) (w : List Nat) (op : Nat) : Prop := ((at_ s w).spire 0).du.cur = some { a := taskOf w } ∧
       ((at_ s w).spire 0).out = 0 ∧ ({ a := taskOf w } : DuTask).walked = false ∧ (taskOf w).q.op = op
     (runs up [0x4010] 0x10 ∧ valid (at_ up [0x4010]) [0x4010] = false) ∧
     (runs zoned [0x4010, 0, 2 ^ 30] 0x10 ∧ valid (at_ zoned [0x4010, 0, 2 ^ 30]) [0x4010, 0, 2 ^ 30] = true ∧
      spotOf (taskOf [0x4010, 0, 2 ^ 30]).q.cell (taskOf [0x4010, 0, 2 ^ 30]).q.srcA = .well 0 0) ∧
     (runs zoned [0x4010] 0x10 ∧ valid (at_ zoned [0x4010]) [0x4010] = true ∧
      spotOf (taskOf [0x4010]).q.cell (taskOf [0x4010]).q.srcA = .scratch 0 0) ∧
     runs up [0x4011] 0x11) ∧
    -- a row refused
    (let m : OutMsg := { kind := 1, cell := 64, got := [(0, 4)] }
     let s := sp0 up fun sp => { sp with msgs := [m] }
     (s.spire 0).msg 0 = some m ∧ m.kind = 1 ∧ m.n ≤ m.got.length ∧ msgStatus m.got = (4 : BitVec 8).toNat ∧ (4 : BitVec 8).toNat ≠ 0) ∧
    -- strips
    (let e : List Byte := [1]
     let s := cell0 up fun x => { x with outE := [e], outS := [e] }
     (s.cell 0 (1 - 1)).outE = [e] ∧ (s.cell 0 1).inW.length < 4 ∧ (1 : Fin 64).val % 8 ≠ 0 ∧
      (s.cell 0 (8 - 8)).outS = [e] ∧ (s.cell 0 8).inN.length < 4 ∧ 8 ≤ (8 : Fin 64).val) ∧
    -- a task that cells 1 and 8 want, which the lower number takes; one across the crossing
    (let q : QTask := { words := [0x8003, 0, 2 ^ 30, 0, 2 ^ 30, 1] }
     let at_ (c : Nat) := (up.modCell 0 c fun x => { x with queue := [q] }).setFlag (Loc.spSeqCtl 0) 0 true
     ((at_ 0).mayStealNow 0 1 = true ∧ (at_ 0).stealFrom 0 1 = some (0, q) ∧ ((at_ 0).stealRivals 0 0).any (· < 1) = false) ∧
     ((at_ 0).mayStealNow 0 8 = true ∧ (at_ 0).stealFrom 0 8 = some (0, q) ∧ ((at_ 0).stealRivals 0 0).any (· < 8) = true) ∧
     ((at_ 32).mayStealNow 0 24 = true ∧ (at_ 32).stealFrom 0 24 = some (32, q) ∧
      ((at_ 32).stealRivals 0 32).any (· < 24) = true ∧ ((at_ 32).crossRoom 0 false).isSome = true)) ∧
    -- a stolen task that comes, at a working cell and at a failed one
    (let f : Stolen := { thief := 1, due := 10 }
     let s := sp0 up fun sp => { sp with flight := [f] }
     let lost := s.modCell 0 1 fun x => { x with failed := true }
     ((s.spire 0).flight.find? fun f => f.thief == 1) = some f ∧ (s.cell 0 1).queue.length < 64 ∧
      s.reaches (s.cycleAt 0 f.due) ∧ ((s.atTime (s.cycleAt 0 f.due)).cell 0 1).failed = false ∧
      ((lost.spire 0).flight.find? fun f => f.thief == 1) = some f ∧ (lost.cell 0 1).queue.length < 64 ∧
      lost.reaches (lost.cycleAt 0 f.due) ∧ ((lost.atTime (lost.cycleAt 0 f.due)).cell 0 1).failed = true) ∧
    (up.spire 0).out = 0 := by
  refine ⟨?_, ?_, ?_, ?_, ?_, ?_⟩ <;> (try simp only [State.reaches]) <;> decide +kernel

theorem witness_ZonesAndMapsPend :
    let s := owned
    let z : State := ((s.put (Loc.spZoneData 0 0) 0x02000000 staging).put (Loc.spZoneData 0 1) 0x00010001 staging)
    let w := s.put (Loc.spZoneData 0 0) 0x80000000 staging
    let v : Word := (0x1000 : Word).put 31 31 1
    let b : BulkLoad := { next := v.bits 11 0, left := v.bits 24 12, addr := s.addrOf (Loc.spXmapLoadAddrLo 0), f := .vf 1 }
    let runs (b : BulkLoad) : State := sp0 s fun sp => { sp with xmapLoad := some b }
    (z.accepts (.vf 1) (Loc.spZoneData 0 3) 0 ∧ z.zoneCheck (z.spireOwner 0) (z.staged (Loc.spZoneData 0) 4 0) = none) ∧
    (w.accepts (.vf 1) (Loc.spZoneData 0 3) 0 ∧ (w.zoneCheck (w.spireOwner 0) (w.staged (Loc.spZoneData 0) 4 0)).isSome = true) ∧
    s.accepts (.vf 1) (Loc.spXmapData 0) 0 ∧
    (s.accepts (.vf 1) (Loc.spXmapLoad 0) v ∧ s.bulkCheck (Loc.spXmapLoad 0) v b.addr b.next b.left 4096 4096 4 = none) ∧
    (((runs (oneEntry none)).spire 0).xmapLoad = some (oneEntry none) ∧ (oneEntry none).entry 4 = none) ∧
    (oneEntry (some none)).entry 4 = some none ∧ (∃ w, (oneEntry (some (some [1]))).entry 4 = some (some w)) := by
  refine ⟨?_, ?_, ?_, ?_, ?_, ?_, ⟨_, rfl⟩⟩ <;> (try simp only [State.accepts]) <;> decide +kernel

theorem witness_LandingTakesParts :
    -- a spire out of service; parts of too many, of a bad number, that join, that meet 1,024 records, that a zone takes or refuses
    (let m : MsgPart := { data := List.replicate 256 0 }
     let r : Landing := {}
     let at_ (l : List Landing) : State := sp0 zoned fun sp => { sp with landings := l }
     State.reset.spireStatus 0 ≠ 0 ∧ zoned.spireStatus 0 = 0 ∧
      255 < ({ m with partsM1 := 255 } : MsgPart).partsM1 + 1 ∧ m.partsM1 + 1 ≤ 255 ∧ m.partsM1 + 1 ≤ ({ m with part := 1 } : MsgPart).part ∧
      m.part < m.partsM1 + 1 ∧ (at_ [r]).spireStatus 0 = 0 ∧
      (((at_ [r]).spire 0).landings.find? fun r => r.key == partKey m) = some r ∧
      ((zoned.spire 0).landings.find? fun r => r.key == partKey m) = none ∧ (zoned.spire 0).landings.length < 1024 ∧
      (let l := List.replicate 1024 { r with key := { r.key with msgId := 1 } }
       (at_ l).spireStatus 0 = 0 ∧ (((at_ l).spire 0).landings.find? fun r => r.key == partKey m) = none ∧
        1024 ≤ ((at_ l).spire 0).landings.length) ∧
      (match zoneAdmit (zoneOf (zoned.zoneWords 0 m.zone.toNat)) (zoned.fill 0 m.zone.toNat) 1 m with
       | .ok _ => true
       | .error _ => false) = true ∧
      (match zoneAdmit (zoneOf (zoned.zoneWords 0 1)) (zoned.fill 0 1) 1 { m with zone := 1 } with
       | .ok _ => false
       | .error _ => true) = true) ∧
    -- records that age, and parts sent anew
    (let k : MsgKey := {}
     let at_ (r : Landing) : State := sp0 up fun sp => { sp with landings := [r] }
     (∀ r ∈ [({} : Landing), { refused := 1 }],
       ((at_ r).spire 0).landings.find? (fun r => r.key == k) = some r ∧ r.closed = false ∧
        (at_ r).reaches (r.opened + 10000000)) ∧
      (let r : Landing := { closed := true }
       ((at_ r).spire 0).landings.find? (fun r => r.key == k) = some r ∧ (at_ r).reaches (r.opened + 2 * (at_ r).ctoFab))) ∧
    (let m : OutMsg := { again := [(0, 5)] }
     let d : OutMsg := { m with dev := some 5, parts := [{}] }
     (∀ x ∈ [m, d], let s := sp0 up fun sp => { sp with msgs := [x] }
       (s.spire 0).msg 0 = some x ∧ (x.again.find? fun g => g.1 == 0) = some (0, 5) ∧
        s.reaches (5 + (match x.dev with
          | none => 2000
          | some _ => s.fld (Loc.ocMcCtl (x.seq / 32768 % 2)) 15 8 * 100))) ∧
      m.dev = none ∧ d.dev = some 5 ∧ (d.parts.find? fun p => p.part == 0) = some {}) := by
  simp only [State.reaches]; decide +kernel

theorem witness_StackMemoryIsMaintained :
    (let e : Merge := { cw := 8, mask := 1, last := 0 }
     let s := cell0 up fun x => { x with merge := [e] }
     (up.cell 0 0).mergeOf (1 * 8 + 0) = none ∧ (s.cell 0 0).mergeOf (1 * 8 + 0) = some e ∧ s.reaches (s.cycleAt 0 (e.last + inCycles 256))) ∧
    (let w := (0 : Word).put 0 0 1
     let x := (0x10 : Word).put 0 0 1
     up.accepts .pf (Loc.spSramCtl 0) w ∧ wellFormedFor (Loc.spSramCtl 0) w ∧
      up.accepts .pf (Loc.spSramCtl 0) x ∧ (formCheck (locFields (Loc.spSramCtl 0)) x).isSome = true) ∧
    -- evictions: a full mask, a code word that reads, one that does not
    (let e : Merge := { cw := 8, mask := 1, data := List.replicate 32 0 }
     let t := sp0 up fun sp => { sp with flips := [(8, 0x101)] }
     ({ e with mask := 0xFFFFFFFF } : Merge).mask = 0xFFFFFFFF ∧ e.mask ≠ 0xFFFFFFFF ∧
      (up.cwRead 0 0 8 false).2.isSome = true ∧ (t.cwRead 0 0 8 false).2 = none) ∧
    (let w := (0 : Word).put 31 31 1
     let x := (0x40000000 : Word).put 31 31 1
     let full := up.put (Loc.spBankSpare 0) 8
     let busy := up.setFlag (Loc.spRemapSts 0) 0 true
     up.accepts .pf (Loc.spRemap 0) w ∧ wellFormedFor (Loc.spRemap 0) w ∧ up.flag (Loc.spRemapSts 0) 0 = false ∧
      up.accepts .pf (Loc.spRemap 0) x ∧ (formCheck (locFields (Loc.spRemap 0)) x).isSome = true ∧
      busy.accepts .pf (Loc.spRemap 0) w ∧ busy.flag (Loc.spRemapSts 0) 0 = true ∧
      (up.put (Loc.spRemap 0) (w.put 31 31 0)).freeSpares 0 (w.bits 5 0) (w.bits 21 6) ≠ 0 ∧
      full.accepts .pf (Loc.spRemap 0) w ∧ full.flag (Loc.spRemapSts 0) 0 = false ∧
      (full.put (Loc.spRemap 0) (w.put 31 31 0)).freeSpares 0 (w.bits 5 0) (w.bits 21 6) = 0) ∧
    (let m : Mirror := {}
     let s := sp0 up fun sp => { sp with mirror := some m }
     let t := sp0 s fun sp => { sp with flips := [(0, 0x101)] }
     (up.spire 0).mirror = none ∧ ({ m with copied := true } : Mirror).copied = true ∧
      (s.spire 0).mirror = some m ∧ m.copied = false ∧ (s.copyRow 0 m.cell m.row).2.2 = true ∧
      (t.spire 0).mirror = some m ∧ (t.copyRow 0 m.cell m.row).2.2 = false) ∧
    (let w := (0 : Word).put 16 16 1
     let x := (0 : Word).put 16 16 0
     let y := (0x80000000 : Word)
     up.accepts .pf (Loc.spFlipSel 0) w ∧ wellFormedFor (Loc.spFlipSel 0) w ∧
      up.accepts .pf (Loc.spFlipSel 0) x ∧ wellFormedFor (Loc.spFlipSel 0) x ∧
      (∀ b ∈ [0, 1], up.accepts .pf (Loc.spFlipSel 0) (y.put 16 16 b) ∧ (formCheck (locFields (Loc.spFlipSel 0)) (y.put 16 16 b)).isSome = true)) := by
  simp only [State.accepts, wellFormedFor, State.reaches]; decide +kernel

theorem witness_BondsAndPowerOfSpires :
    -- a spare left, none left in a command or power group, none left in a data group
    (let on := up.setFlag (Loc.spBondCtl 0) 8 true
     let w (s : State) (g lane : Nat) : State × Nat :=
       let u := s.modCell 0 0 fun x =>
         let m := x.rotDone ||| 2 ^ g
         if m = 2 ^ 37 - 1 then { x with rotDone := 0, rotAt := s.clk.elapsed, rotLate := false } else { x with rotDone := m }
       let w := u.setFld (Loc.spBondGrp 0) 15 8 (min (u.fld (Loc.spBondGrp 0) 15 8 (64 * g) + 1) 255) (64 * g)
       (w.bump (spPage 0 7) 3 0 1 (w.spireOwner 0), lane)
     let some_ := on.put (Loc.spBondGrp 0) 4
     let none_ (g : Nat) := on.put (Loc.spBondGrp 0) 0 (64 * g)
     on.flag (Loc.spBondCtl 0) 8 = true ∧ (on.spire 0).out = 0 ∧ (5 : Fin 68).val < groupLanes 0 ∧ (5 : Fin 68).val < groupLanes 32 ∧
      (w some_ 0 5).1.bondWaiting 0 0 0 < (w some_ 0 5).1.fld (Loc.spBondGrp 0) 2 0 0 ∧
      (w (none_ 32) 32 5).1.fld (Loc.spBondGrp 0) 2 0 (64 * 32) ≤ (w (none_ 32) 32 5).1.bondWaiting 0 0 32 ∧
      (w (none_ 0) 0 5).1.fld (Loc.spBondGrp 0) 2 0 0 ≤ (w (none_ 0) 0 5).1.bondWaiting 0 0 0 ∧
      ((((w (none_ 0) 0 5).1.spire 0).bondCov.filter fun e => decide (e.1 = 0 ∧ bondWord e.2.1 = bondWord 0)) = []) ∧
      (on.cell 0 0).rotLate = false ∧ on.reaches ((on.cell 0 0).rotAt + 4 * on.fld (Loc.spBondCtl 0) 7 0 * 100000000) ∧
      ((cell0 on fun x => { x with rotLate := true }).cell 0 0).rotLate = true) ∧
    -- windows within the budget and beyond it, and a correction
    ((up.spire 0).out = 0 ∧ up.reaches (up.nextOf (up.spire 0).gov.winAt 100) ∧
      (let u := up.atTime (up.nextOf (up.spire 0).gov.winAt 100)
       let a : Activity := { arr := 255, vec := 255, well := 255, rel := 255 }
       let low := u.put (Loc.spStackLimit 0) 0
       u.govScaled 0 {} 0 16 16 + u.govScaled 0 {} 1 16 16 ≤ u.govBudget 0 ∧
       low.govBudget 0 < low.govScaled 0 a 0 16 16 + low.govScaled 0 a 1 16 16) ∧
      up.reaches (up.nextOf (up.spire 0).gov.corrAt 10000)) ∧
    (let s := up.setFlag Loc.seSecSts 10 true
     s.flag Loc.seSecSts (10 + 0) = true ∧ s.reaches ((s.spire 0).cycleAt + 5000000)) := by
  simp only [State.reaches]; decide +kernel

/-- A word whose reserved bits are set, with a bit at `i`. -/
def illFormed (i b : Nat) : Word := (0xFFFFFFFF : Word).put i i b

theorem witness_LineBufferEntriesMove :
    (up.accepts .pf (Loc.gtMemCfg 0) (up.get (Loc.gtMemCfg 0)) ∧ wellFormedFor (Loc.gtMemCfg 0) (up.get (Loc.gtMemCfg 0)) ∧
      up.canon = true ∧ up.accepts .pf (Loc.gtMemCfg 0) 0xFFFFFFFF ∧ (formCheck (locFields (Loc.gtMemCfg 0)) 0xFFFFFFFF).isSome = true) ∧
    (let e : LEntry := { filling := true }
     let s := (line0 up 7).modGate 0 fun g => { g with lbuf := [e] }
     let t : State := { s with memFlip := [(0, 0x10101)] }
     (s.gate 0).entry 0 = some e ∧ (s.gate 0).out = 0 ∧ s.lineRetrains 0 = false ∧ e.filling = true ∧
      (((s.upset 0 []).chanRead 0 (some e.key) 0).2).isSome = true ∧
      (t.gate 0).entry 0 = some e ∧ (((t.upset 0 []).chanRead 0 (some e.key) 0).2) = none) ∧
    (∀ e ∈ [({ changed := 1 } : LEntry), {}],
     let s := up.modGate 0 fun g => { g with lbuf := [e] }
     (s.gate 0).entry 0 = some e ∧ s.lineRetrains 0 = false ∧ e.busy = false ∧ s.reaches (s.cycleAt 32 (e.last + inCycles 64))) ∧
    (let w := (0 : Word).put 0 0 1
     up.accepts .pf (Loc.gtGctl 0) w ∧ wellFormedFor (Loc.gtGctl 0) w ∧
      up.accepts .pf (Loc.gtGctl 0) (illFormed 0 1) ∧ (formCheck (locFields (Loc.gtGctl 0)) (illFormed 0 1)).isSome = true) := by
  simp only [State.accepts, wellFormedFor, State.reaches]; decide +kernel

theorem witness_ChannelsAreRefreshedAndTrained :
    (up.gate 0).out = 0 ∧ up.chFailed 0 0 = false ∧
    -- refresh in an idle segment, and forced
    (∃ at_, up.idleFrom 0 0 = some at_ ∧ up.reaches at_ ∧ (up.atTime at_).refreshOwed 0 0 > -16) ∧
    (let s := up.modGate 0 fun g => { g with refresh := [(0, { debt := 32 })], chans := [(0, { used := 1000 })] }
     (s.gate 0).out = 0 ∧ s.chFailed 0 0 = false ∧ (∀ at_, s.idleFrom 0 0 = some at_ → s.clk.elapsed < at_) ∧ s.refreshOwed 0 0 ≥ 32) ∧
    -- a readout, the end of a limit
    (let last := max (up.gate 0).since (tget 0 (up.gate 0).mr4 0)
     up.reaches (((dieRanks 0 0).map fun k => up.workAt 0 (k / 2) true (last + 4000000) (last + 8000000)).foldl max 0)) ∧
    (let s := up.modGate 0 fun g => { g with hot := [(0, 1)] }
     let mine := (s.gate 0).hot.filter fun h => h.1 / 6 == 0
     (mine.isEmpty || mine.any fun h => h.2 == 0) = false ∧ s.reaches ((mine.map (·.2)).foldl max 0 - 1 + 10000000)) ∧
    -- a measurement, a retrain that succeeds or fails, the third failure
    (((up.gate 0).chan 0).retraining = false ∧
      (let last := max (up.gate 0).since ((up.gate 0).chan 0).osc
       up.reaches (up.workAt 0 0 true (last + up.fld (Loc.gtTrainCtl 0) 7 0 * 1000000) (last + up.fld (Loc.gtTrainCtl 0) 15 8 * 1000000)))) ∧
    (let s := up.modGate 0 fun g => { g with chans := [(0, { retraining := true })] }
     let t := up.modGate 0 fun g => { g with chans := [(0, { retraining := true, fails := 2 })] }
     ((s.gate 0).chan 0).retraining = true ∧ ((s.gate 0).chan 0).fails < 2 ∧
      ((t.gate 0).chan 0).retraining = true ∧ 2 ≤ ((t.gate 0).chan 0).fails ∧
      (t.modGate 0 fun x => x.setChan 0 { (t.gate 0).chan 0 with fails := 3 }).chFailed 0 0 = false) := by
  refine ⟨?_, ?_, ⟨_, rfl, ?_, ?_⟩, ⟨?_, ?_, ?_, ?_⟩, ?_, ?_, ?_, ?_⟩ <;> (try simp only [State.reaches]) <;>
    decide +kernel

theorem witness_MemoryIsPatrolled :
    (let s := up.setFlag (Loc.gtPatrolCtl 0) 8 true
     let seen := s.modGate 0 fun g => { g with patrol := [0] }
     let late := s.modGate 0 fun g => { g with passLate := true }
     (s.gate 0).out = 0 ∧ s.flag (Loc.gtPatrolCtl 0) 8 = true ∧ (placeLine 0).1 = 0 ∧ 0 * 256 < memSize ∧
      s.chFailed 0 (placeLine 0).2.1 = false ∧ s.lineRetrains 0 = false ∧ (s.gate 0).patrol.contains 0 = false ∧
      (seen.gate 0).patrol.contains 0 = true ∧
      (match s.idleFrom 0 (placeLine 0).2.1 with
       | some a => decide (max (s.gate 0).passStart a ≤ s.clk.elapsed) || !s.clk.joined
       | none => false) = true ∧
      (late.gate 0).passLate = true ∧ (s.gate 0).passLate = false ∧
      s.reaches ((s.gate 0).passStart + 2 * s.fld (Loc.gtPatrolCtl 0) 7 0 * 3600000000000)) ∧
    (let w := (0 : Word).put 31 31 1
     up.accepts .pf (Loc.gtRemap 0) w ∧ wellFormedFor (Loc.gtRemap 0) w ∧
      up.accepts .pf (Loc.gtRemap 0) (illFormed 31 1) ∧ (formCheck (locFields (Loc.gtRemap 0)) (illFormed 31 1)).isSome = true) ∧
    -- the copy of a page whose code words hold no errors, and of one that holds an uncorrectable word
    (let m : GMirror := {}
     let s := up.modGate 0 fun g => { g with mirror := some m }
     let t : State := { s with memFlip := [(0, 0x10101)] }
     let bad (s : State) : Bool := (m.page.lines 0).1.any fun l => (List.range 4).any fun cw =>
       decide (eccRead 16 36 3 (tget 0 s.memFlip (l * 4 + cw)) = .uncorrectable)
     (up.gate 0).mirror = none ∧ ({ m with copied := true } : GMirror).copied = true ∧
      (s.gate 0).mirror = some m ∧ m.copied = false ∧ bad s = false ∧ (t.gate 0).mirror = some m ∧ bad t = true) ∧
    (∀ b ∈ [0, 1], up.accepts .pf (Loc.gtFlipSel 0) ((0 : Word).put 16 16 b) ∧ wellFormedFor (Loc.gtFlipSel 0) ((0 : Word).put 16 16 b) ∧
      up.accepts .pf (Loc.gtFlipSel 0) (illFormed 16 b) ∧ (formCheck (locFields (Loc.gtFlipSel 0)) (illFormed 16 b)).isSome = true) := by
  simp only [State.accepts, wellFormedFor, State.reaches]; decide +kernel

set_option maxRecDepth 200000 in
theorem witness_LinksDeliverAndRetry :
    -- a link down, a block within a unit, the last block of an idle flit, and of a bundle that is not whole
    (let s := up.modLink 0 1 0 fun x => { x with flight := [{ idle := true }], cut := 12, scr := some 1 }
     let t := up.modLink 0 1 0 fun x => { x with flight := [{ idle := true }], scr := some 1 }
     State.reset.linkSt 0 1 0 ≠ 2 ∧ s.linkSt 0 1 0 = 2 ∧ s.relayHolds 0 1 0 = false ∧
      (((s.moveBlock 0 1 0 0).link 0 1 0).landed).isSome = true ∧ t.linkSt 0 1 0 = 2 ∧ t.relayHolds 0 1 0 = false ∧
      ((t.moveBlock 0 1 0 0).link 0 1 0).landed = none) ∧
    -- bundles: broken, on a closed link, expected, below and above the expected number
    (let k : Bundle := { seq := 0, hdrs := [{}], ndata := 0 }
     let broken (k : Bundle) : Bool := !k.good || decide (2 ≤ k.kind) || (k.kind == 1 && k.ndata != (k.hdrs.map hdrData).sum)
     broken { k with good := false } = true ∧ broken { k with kind := 2 } = true ∧ broken { k with ndata := 1 } = true ∧ broken k = false ∧
      ((up.modLink 0 1 0 fun x => { x with closed := true }).link 0 1 0).closed = true ∧
      k.kind ≠ 0 ∧ (up.link 0 1 0).closed = false ∧ k.seq = (up.link 0 1 0).expect ∧
      ({ k with seq := 1023 } : Bundle).seq ≠ (up.link 0 1 0).expect ∧ ({ k with seq := 1 } : Bundle).seq ≠ (up.link 0 1 0).expect) ∧
    -- idle flits, the retry timer, bundles sent again and anew
    up.linkSt 0 1 0 = 2 ∧ ((up.link 0 1 0).flight.any fun u => !u.idle) = false ∧ (up.link 0 1 0).retry = [] ∧
    (let s := up.modLink 0 1 0 fun x => { x with retry := [{}] }
     s.linkSt 0 1 0 = 2 ∧ (s.link 0 1 0).retry ≠ [] ∧
      s.reaches ((s.link 0 1 0).ackAt + 100 * s.fld (Loc.plPlCtl (stPlinth 0)) 27 20)) ∧
    (let s := up.modLink 0 1 0 fun x => { x with again := [{}] }
     s.linkSt 0 1 0 = 2 ∧ (s.link 0 1 0).again = {} :: [] ∧ (up.link 0 1 0).again = []) := by
  simp only [State.reaches]; decide +kernel

theorem witness_LinksFailDetourAndExchange :
    -- failures: of a sextant's link, in training, after RETRY_MAX resends, without lock, with neither
    (isSextant 23 = true ∧ isSextant 1 = false ∧ (up.modLink 0 1 0 fun x => { x with st := some 3 }).linkSt 0 1 0 = 3 ∧
      (up.modLink 0 1 0 fun x => { x with st := some 1 }).linkSt 0 1 0 = 1) ∧
    (let s := up.modLink 0 1 0 fun x => { x with resent := 16 }
     s.linkSt 0 1 0 = 2 ∧ s.fld (Loc.plPlCtl (stPlinth 0)) 8 4 ≤ (s.link 0 1 0).resent) ∧
    (let s := up.modLink 0 1 0 fun x => { x with lost := some 0 }
     s.linkSt 0 1 0 = 2 ∧ (s.link 0 1 0).resent < s.fld (Loc.plPlCtl (stPlinth 0)) 8 4 ∧ (s.link 0 1 0).lost = some 0 ∧
      (up.link 0 1 0).lost = none ∧ s.reaches (0 + 1000 * s.fld (Loc.plPlCtl (stPlinth 1)) 19 12 + 1)) ∧
    -- queries and replies, background retraining
    (let asks (l : Tab Nat) := up.modLink 0 1 0 fun x => { x with asked := [1], heard := l }
     (up.link 0 1 0).asked = [] ∧ ((asks []).link 0 1 0).asked = [1] ∧
      ((((asks []).link 0 1 0).heard.find? fun e => e.1 % 16 == 1 % 16) = none) ∧
      ((((asks [(1, 5)]).link 0 1 0).heard.find? fun e => e.1 % 16 == 1 % 16) = some (1, 5))) ∧
    (let s := up.modLink 0 1 0 fun x => { x with st := some 3, failedAt := 4 }
     (s.link 0 1 0).st = some 3 ∧ s.reaches ((s.link 0 1 0).failedAt + 10000000)) ∧
    -- detours: no relay, one with a plane, one without, a request for the fabric
    (let h : Hdr := { det := true, final := 1 }
     let at_ (s : State) : State := s.modOculus 0 fun o => { o with detour := [(16, h)] }
     let plane (s : State) : Option Nat :=
       let c := ((at_ s).modOculus 0 fun o => { o with detour := o.detour.erase (16, h) }).hdrHash 16 1 h (hdrOnLine h)
       c.2.planeFor 16 h.final.toNat c.1
     stationOculus 0 = none ∧ stationOculus 16 = some 0 ∧ (∀ s ∈ [up, { up with plinths := [] }],
       (((at_ s).oculus 0).detour.find? fun x => x.1 == 16) = some (16, h)) ∧
      (plane up).isSome = true ∧ plane { up with plinths := [] } = none) ∧
    (let h : Hdr := { op := 1 }
     let at_ (s : State) : State := s.modOculus 0 fun o => { o with fabWait := [(16, h)] }
     let i (s : State) : Issue := ((at_ s).modOculus 0 fun o => { o with fabWait := o.fabWait.erase (16, h) }).issueAt 0
       (hdrPkt (hdrSource 16 h) h) (.link 16 (hdrSource 16 h) h) false
     ((up.oculus 0).detour.find? fun x => x.1 == 16) = none ∧ ((up.oculus 0).fabWait.find? fun x => x.1 == 16) = none ∧
      (((at_ up).oculus 0).detour.find? fun x => x.1 == 16) = none ∧
      (((at_ up).oculus 0).fabWait.find? fun x => x.1 == 16) = some (16, h) ∧ (isDone (i up) || isSent (i up)) = true ∧
      isWait (i (up.modOculus 0 fun o => { o with txns := List.replicate 32768 {} })) = true) ∧
    -- PAIR_VIA: astray, ill-formed, well-formed
    (up.accepts .pf (Loc.plPairVia 0) 0x40 ∧ (0x40 : Word).bit 6 = true ∧ stationOculus ((0x40 : Word).bits 5 0) = none ∧
      up.accepts .pf (Loc.plPairVia 0) (illFormed 6 0) ∧ (illFormed 6 0).bit 6 = false ∧
      (formCheck (locFields (Loc.plPairVia 0)) (illFormed 6 0)).isSome = true ∧
      up.accepts .pf (Loc.plPairVia 0) 80 ∧ wellFormedFor (Loc.plPairVia 0) 80 ∧ (80 : Word).bit 6 = true ∧
      (stationOculus ((80 : Word).bits 5 0)).isSome = true) ∧
    -- lane exchange
    (let s := (up.setFlag (Loc.plBunCtl 0) 8 true).modLink 0 1 0 fun x => { x with errs := 1001 }
     let u (s : State) := ((s.atTime ((s.link 0 1 0).winAt + 1000000)).setFld (Loc.plLinkBiterr 0) 31 0 1001 (linkKey 0 1 0)).modLink 0 1 0
       fun x => { x with errs := 0, winAt := (s.atTime ((s.link 0 1 0).winAt + 1000000)).clk.elapsed }
     s.linkSt 0 1 0 = 2 ∧ s.reaches ((s.link 0 1 0).winAt + 1000000) ∧ (u s).flag (Loc.plBunCtl (stPlinth 0)) 8 = true ∧
      (u (up.setFlag (Loc.plBunCtl 0) 8 false)).flag (Loc.plBunCtl (stPlinth 0)) 8 = false) := by
  simp only [State.accepts, wellFormedFor, State.reaches]; decide +kernel

theorem witness_BaysAndSidesOfLight :
    -- bays: absent, warming, ready, with a loud input, served beside L2
    (up.bay 0 = 0 ∧ (up.setBay 0 1).bay 0 = 1 ∧ up.fld Loc.glSbSts 2 1 (6 + 0) = 0 ∧ (up.setBay 0 2).bay 0 = 2 ∧
      ((up.setBay 0 1).setFld Loc.glSbSts 2 1 1 6).fld Loc.glSbSts 2 1 6 ≠ 0 ∧
      ((up.setBay 0 2).setBay 0 4).heldSide = none ∧ ((((up.setBay 2 3).setFld Loc.lnLnSts 10 9 1).setBay 2 4).heldSide).isSome = true) ∧
    -- the selector, and swaps with L2 ready and not
    ((up.setFlag Loc.lnLnSts 11 false).optics.swapTo = none ∧
      ((up.modOptics fun o => { o with swapTo := some 1 }).setFlag Loc.lnLnSts 11 false).optics.swapTo = some 1 ∧
      (up.spareReady || (up.bay 2 == 2 && up.optics.swapTo.isSome)) = false ∧ (up.setBay 2 2).spareReady = true) ∧
    (∀ k ∈ [1, 2, 3], (up.accepts .pf Loc.lnLnCtl ((0 : Word).put 3 2 k) ∧ wellFormedFor Loc.lnLnCtl ((0 : Word).put 3 2 k)) ∧
      up.accepts .pf Loc.lnLnCtl ((0xFFFFFFFF : Word).put 3 2 k) ∧
      (formCheck (locFields Loc.lnLnCtl) ((0xFFFFFFFF : Word).put 3 2 k)).isSome = true) ∧
    up.l2Side = none ∧ ((up.setBay 2 3).setFld Loc.lnLnSts 10 9 1).l2Side = some 0 := by
  simp only [State.accepts, wellFormedFor]; decide +kernel

theorem witness_RowsAndAmplitudesAreFollowed :
    (lget false up.optics.anomDue 0 = false ∧ lget false (up.modOptics fun o => { o with anomDue := [true, false] }).optics.anomDue 0 = true ∧
      twf (fun _ => 0) up.optics.anom = true) ∧
    -- the rotation
    (let on := up.setFlag (Loc.plCalCtl 0) 8 true
     on.holder ≠ none ∧ on.flag (Loc.plCalCtl 0) 8 = true ∧ (∀ w ∈ on.optics.sweeps, w.rescue = true) ∧
      on.reaches (on.optics.rotAt + on.fld (Loc.plCalCtl 0) 7 0 * 100000000 / 184)) ∧
    -- a row to empty: empty in time, not empty, none
    (let w : Sweeping := { phase := 1 }
     let s := up.modOptics fun o => { o with sweeps := [w] }
     let b := s.modLink 0 1 0 fun x => { x with retry := [{}] }
     let empty (s : State) : Bool := s.rowEmpty w.st w.plane && decide (s.clk.elapsed ≤ w.since + 20000)
     up.sweepOf 0 0 1 = none ∧ s.sweepOf 0 0 1 = some w ∧ empty s = true ∧ b.sweepOf 0 0 1 = some w ∧ empty b = false ∧
      b.reaches (w.since + 20000)) ∧
    (let w : Sweeping := { phase := 2 }
     let s := up.modOptics fun o => { o with sweeps := [w] }
     up.sweepOf 0 0 2 = none ∧ s.sweepOf 0 0 2 = some w ∧ s.reaches (lget 0 s.optics.hold (stSide 0))) ∧
    (let w := (0 : Word).put 0 0 1
     up.accepts .pf (Loc.plRecal 0) w ∧ wellFormedFor (Loc.plRecal 0) w ∧
      up.accepts .pf (Loc.plRecal 0) (illFormed 0 1) ∧ (formCheck (locFields (Loc.plRecal 0)) (illFormed 0 1)).isSome = true) ∧
    up.optics.mapDue = false ∧ (up.modOptics fun o => { o with mapDue := true }).optics.mapDue = true := by
  simp only [State.accepts, wellFormedFor, State.reaches]; decide +kernel

/-! What a fibre port hears of a code word of zeros, which the code holds, and of one that no word of the code is near. -/

theorem bchMul_zero (b : Nat) : bchMul 0 b = 0 := by
  have h : ∀ (l : List Nat), l.foldl (fun (r : Nat × Nat) i =>
    (if b.testBit i then r.1 ^^^ r.2 else r.1, if r.2.testBit 9 then (2 * r.2) ^^^ 0x409 else 2 * r.2)) (0, 0) = (0, 0) := by
    intro l; induction l with
    | nil => rfl
    | cons a l ih => simp only [List.foldl_cons]; simpa using ih
  simp [bchMul, h]

/-- A run of zero symbols leaves a syndrome's sum 0. -/
theorem syn_run (w x : Nat) (l : List Nat) (h : ∀ i ∈ l, rsSymbol w i = 0) :
    l.foldl (fun s i => bchMul s x ^^^ rsSymbol w i) 0 = 0 := by
  induction l with
  | nil => rfl
  | cons a l ih => simp [bchMul_zero, h a (by simp), ih (fun i hi => h i (by simp [hi]))]

theorem rs_zero : rsDecode 0 = some (0, 0) := by
  have h : (List.range 30).map (rsSyndrome 0) = (List.range 30).map fun _ => 0 :=
    List.map_congr_left fun j _ => syn_run 0 (bchPow j) (List.range 544) fun i _ => by simp [rsSymbol]
  unfold rsDecode
  dsimp only
  rw [h, if_pos (by decide), Nat.zero_mod]

/-- A code word whose last twenty symbols are all ones. -/
def spoilt : Nat := 2 ^ 5440 - 2 ^ 5240

theorem spoilt_low : ∀ i < 524, rsSymbol spoilt i = 0 := by decide +kernel

theorem syndrome_tail (w x : Nat) (m n : Nat) (h : ∀ i < m, rsSymbol w i = 0) :
    (List.range (m + n)).foldl (fun s i => bchMul s x ^^^ rsSymbol w i) 0 =
      (List.range n).foldl (fun s i => bchMul s x ^^^ rsSymbol w (m + i)) 0 := by
  rw [List.range_add, List.foldl_append, syn_run w _ _ (fun i hi => h i (List.mem_range.1 hi)), List.foldl_map]

theorem spoilt_syndrome (w : Nat) (h : ∀ i < 524, rsSymbol w i = 0) (j : Nat) : rsSyndrome w j =
    (List.range 20).foldl (fun s i => bchMul s (bchPow j) ^^^ rsSymbol w (524 + i)) 0 :=
  syndrome_tail w (bchPow j) 524 20 h

theorem spoilt_errors : 15 < ((List.range 30).foldl (fun x n => x.next ((List.range 30).map fun j =>
    (List.range 20).foldl (fun s i => bchMul s (bchPow j) ^^^ rsSymbol spoilt (524 + i)) 0) n) ({} : Locator)).len := by
  decide +kernel

theorem spoilt_fails : rsDecode spoilt = none := by
  have h : (List.range 30).map (rsSyndrome spoilt) = (List.range 30).map fun j =>
    (List.range 20).foldl (fun s i => bchMul s (bchPow j) ^^^ rsSymbol spoilt (524 + i)) 0 :=
    List.map_congr_left fun j _ => spoilt_syndrome spoilt spoilt_low j
  have l := spoilt_errors
  unfold rsDecode
  simp only [h]
  rw [if_neg (by decide +kernel), if_pos l]

theorem flitIn_runs (x : Port) (b : Bool) (f : Nat) : (x.flitIn b f).1.okRun = x.okRun ∧ (x.flitIn b f).1.badRun = x.badRun := by
  unfold Port.flitIn; repeat' split
  all_goals exact ⟨rfl, rfl⟩

theorem flits_run (g : Nat → Bool) (m : Nat → Nat) (l : List Nat) (r : Port × List FUnit) :
    let t := l.foldl (fun (r : Port × List FUnit) i => let y := r.1.flitIn (g i) (m i); (y.1, r.2 ++ y.2)) r
    t.1.okRun = r.1.okRun ∧ t.1.badRun = r.1.badRun := by
  induction l generalizing r with
  | nil => exact ⟨rfl, rfl⟩
  | cons a l ih => exact ⟨(ih _).1.trans (flitIn_runs ..).1, (ih _).2.trans (flitIn_runs ..).2⟩

theorem hear_none (x : Port) (t : Bool) (w : Nat) (h : rsDecode w = none) : (x.hear t w).1.badRun = x.badRun + 1 := by
  unfold Port.hear
  rw [h]

/-- The number that a word of the code gives after descrambling. -/
def wordSeq (x : Port) (t : Bool) (m : Nat) : Nat := (m ^^^ (prbsBits 5140 (if t then 2 ^ 31 - 1 else x.rxScr)).1) % 1024

theorem hear_some (x : Port) (t : Bool) (w n m : Nat) (h : rsDecode w = some (n, m)) :
    (x.hear t w).1.okRun = x.okAfter (wordSeq x t m) ∧ (x.hear t w).1.badRun = 0 := by
  unfold Port.hear wordSeq
  rw [h]
  generalize prbsBits _ _ = q
  dsimp only
  exact flits_run (fun i => (m ^^^ q.1).testBit (10 + i)) (fun i => (m ^^^ q.1) / 2 ^ (20 + 512 * i) % 2 ^ 512) (List.range 10)
    (_, [])

/-- The fourth code word in a row with matching numbers at a port without lock, one that does not match, the eighth bad one and
a good one at a port with it. -/
theorem witness_portWords (t : Bool) :
    4 ≤ (({ okRun := 3, cwSeq := some ((wordSeq {} t 0 + 1023) % 1024) } : Port).hear t 0).1.okRun ∧
    (({ okRun := 3 } : Port).hear t 0).1.okRun < 4 ∧
    8 ≤ (({ locked := true, badRun := 7 } : Port).hear t spoilt).1.badRun ∧
    (({ locked := true } : Port).hear t 0).1.badRun < 8 := by
  rw [(hear_some _ t 0 0 0 rs_zero).1, (hear_some _ t 0 0 0 rs_zero).1, hear_none _ t spoilt spoilt_fails,
    (hear_some _ t 0 0 0 rs_zero).2]
  refine ⟨?_, by simp [Port.okAfter], by decide, by decide⟩
  have : wordSeq ({ okRun := 3, cwSeq := some ((wordSeq {} t 0 + 1023) % 1024) } : Port) t 0 = wordSeq {} t 0 := rfl
  rw [this]
  unfold Port.okAfter
  rw [if_pos rfl]

theorem witness_PortsComeUp :
    (let ready (s : State) (p : Nat) : Bool := s.portLive p && !s.portCut p && decide (s.portState p = 0) && decide (s.portCtl p 0 0 ≠ 0)
     ready up 2 = true ∧ ready fab 0 = false ∧ (up.port 2).locked = false ∧ (fab.port 0).locked = true) ∧
    (let s (x : Port) : State := (up.setPortState 2 2).modPort 2 fun _ => x
     up.portState 2 = 0 ∧ ∀ x ∈ [({ okRun := 3 } : Port), { locked := true, badRun := 7 }, { locked := true }],
       (s x).port 2 = x ∧ (s x).portState 2 = 2 ∧ (s x).portLive 2 = true ∧ (s x).portCut 2 = false) ∧
    (let s := up.setPortState 2 1
     let t := s.modPort 2 fun x => { x with train := { x.train with failed := some 7 } }
     s.portState 2 = 1 ∧ s.portCtl 2 0 0 ≠ 0 ∧ (s.port 2).train.failed = none ∧
      s.reaches ((s.port 2).train.since + 1000000000) ∧ t.portState 2 = 1 ∧ (t.port 2).train.failed = some 7 ∧
      t.reaches (7 + 100000000)) ∧
    -- training flits: at a port that failed, without ACK, within a run, slow at its end, and quick
    (let f : TrainFlit := { ack := true }
     let t (n r : Nat) (fl : Option Nat) : State := (up.setPortState 2 2).modPort 2 fun x =>
       { x with locked := true, train := { run := n, rtt := r, last := some (steady f), failed := fl } }
     let run (s : State) : Nat × Nat × State :=
       let u := s.setPortState 2 3
       let x := (u.port 2).train
       let rt := (u.clk.count + 2 ^ 33 - f.echoTime.toNat - f.holdNs.toNat) % 2 ^ 32
       let v := u.modPort 2 fun y => { y with train := { x with
         run := x.run + 1, rtt := x.rtt + rt, last := some (steady f), acked := some (x.acked.getD u.clk.elapsed) } }
       (x.run + 1, x.rtt + rt, v)
     fab.portState 0 ≠ 2 ∧ fab.portState 0 ≠ 3 ∧ (t 3 0 none).portState 2 = 2 ∧ ((t 3 0 (some 7)).port 2).train.failed ≠ none ∧
      ((t 3 0 none).port 2).train.failed = none ∧ ({} : TrainFlit).ack = false ∧ f.ack = true ∧
      (((t 3 0 none).setPortState 2 3).port 2).train.last = some (steady f) ∧ (run (t 3 0 none)).1 < 16 ∧
      16 ≤ (run (t 15 200000 none)).1 ∧ 10000 < (run (t 15 200000 none)).2.1 / (run (t 15 200000 none)).1 ∧
      16 ≤ (run (t 15 0 none)).1 ∧ (run (t 15 0 none)).2.1 / (run (t 15 0 none)).1 ≤ 10000 ∧
      (run (t 15 0 none)).2.2.reaches ((((t 15 0 none).setPortState 2 3).port 2).train.acked.getD ((t 15 0 none).setPortState 2 3).clk.elapsed + 11)) := by
  simp only [State.reaches]; decide +kernel

theorem witness_FabricLinksMoveAndFail :
    (let b : FBundle := { pkts := [{}] }
     let broken (b : FBundle) : Bool := !b.good || b.kind == 3 || (b.kind == 1 && b.pkts.isEmpty)
     broken { b with good := false } = true ∧ broken { b with kind := 3 } = true ∧ broken { b with pkts := [] } = true ∧
      broken b = false ∧ b.kind = 1 ∧ broken { b with kind := 0 } = false ∧ broken { b with kind := 2 } = false) ∧
    (let s := fab.modPort 0 fun x => { x with retry := [{}] }
     fab.portState 0 = 4 ∧ (fab.port 0).retry = [] ∧ s.portState 0 = 4 ∧
      (s.port 0).retry ≠ [] ∧ s.reaches ((s.port 0).ackAt + 100 * s.portCtl 0 28 21)) ∧
    -- windows of few and of many symbols, the latter anew or within a second; failures
    (let s (n : Nat) (r : Option Nat) : State := fab.modPort 0 fun x => { x with syms := n, retrained := r }
     let at_ (s : State) : State := s.atTime ((s.port 0).winAt + 1000000)
     (∀ n ∈ [0, 8500, 85000], (s n none).reaches (((s n none).port 0).winAt + 1000000)) ∧
      ((at_ (s 8500 none)).port 0).syms < 85000 ∧ 85000 ≤ ((at_ (s 85000 none)).port 0).syms ∧
      (at_ (s 85000 none)).portState 0 = 4 ∧
      ((s 85000 none).port 0).retrained = none ∧
      ((at_ (s 85000 (some 0))).port 0).retrained.any (fun r => decide ((at_ (s 85000 (some 0))).clk.elapsed < r + 1000000000)) = true) ∧
    (let s := fab.modPort 0 fun x => { x with locked := false }
     up.portState 2 ≠ 4 ∧ (fab.port 0).locked = true ∧ s.portState 0 = 4 ∧ (s.port 0).locked = false ∧
      s.reaches ((s.port 0).lostAt + 1000 * s.portCtl 0 15 8 + 1)) := by
  simp only [State.reaches]; decide +kernel

theorem witness_FailedPortsAndMaps :
    -- a query about a link of this device and about none; a reply awaited and not; the end of the wait
    (let k : Pkt := { op := 0x2A, srcDev := 5, opt := 2 }
     let s := fab.put (Loc.ocPortPeer 0) 0x20005
     let link (s : State) : Option Nat := (List.range 32).find? fun p =>
       let w := (s.takeHeld k).get (Loc.ocPortPeer (p / 16)) (p % 16)
       w.bits 15 0 == k.srcDev.toNat && w.bits 20 16 == k.opt.toNat % 32 && w != 0
     link s = some 0 ∧ link fab = none) ∧
    (let s := fab.modPort 0 fun x => { x with askedAt := some 0 }
     ((fab.takeHeld {}).port (({} : Pkt).opt.toNat % 32)).askedAt = none ∧ (fab.port 0).askedAt = none ∧
     ((s.takeHeld {}).port (({} : Pkt).opt.toNat % 32)).askedAt ≠ none ∧ (s.port 0).askedAt = some 0 ∧
      s.reaches (0 + 200000)) ∧
    -- maps: due and not, accepted and discarded
    ((up.oculus 0).mapDue = none ∧ ((up.modOculus 0 fun o => { o with mapDue := some [] }).oculus 0).mapDue = some [] ∧
      ((fab.takeHeld { srcDev := 5 }).openMgmt { srcDev := 5 }).isSome = true ∧
      ((opened5.takeHeld { srcDev := 5 }).openMgmt { srcDev := 5 }) = none) := by
  simp only [State.reaches]; decide +kernel

theorem witness_FabricTablesLoad :
    (let w := (0 : Word).put 1 1 1
     up.accepts .pf (Loc.ocPortCtl 0) ((up.get (Loc.ocPortCtl 0)).put 1 1 1) ∧
      wellFormedFor (Loc.ocPortCtl 0) ((up.get (Loc.ocPortCtl 0)).put 1 1 1) ∧ up.accepts .pf (Loc.ocPortCtl 0) (illFormed 1 1) ∧
      (formCheck (locFields (Loc.ocPortCtl 0)) (illFormed 1 1)).isSome = true ∧ w.bit 1 = true) ∧
    (let w := (1 : Word).put 31 31 1
     let check (w : Word) := up.bulkCheck (Loc.ocRouteLoad 0) w (up.addrOf (Loc.ocRouteBaseLo 0)) (up.fld (Loc.ocRouteFirst 0) 15 0)
       (w.bits 16 0) 65536 65536 4
     up.accepts .pf (Loc.ocRouteLoad 0) w ∧ check w = none ∧ up.accepts .pf (Loc.ocRouteLoad 0) (illFormed 31 1) ∧
      (check (illFormed 31 1)).isSome = true) ∧
    (let w := (0x1000 : Word).put 31 31 1
     let check (w : Word) := up.bulkCheck (Loc.ocMcgLoad 0) w (up.addrOf (Loc.ocMcgBaseLo 0)) (w.bits 11 0) (w.bits 24 12) 4096 4096 256
     up.accepts .pf (Loc.ocMcgLoad 0) w ∧ check w = none ∧ up.accepts .pf (Loc.ocMcgLoad 0) (illFormed 31 1) ∧
      (check (illFormed 31 1)).isSome = true) ∧
    (let runs (b : BulkLoad) := up.modOculus 0 fun o => { o with routeLoad := some b, mcgLoad := some b }
     (up.oculus 0).routeLoad = none ∧ (up.oculus 0).mcgLoad = none ∧
      ∀ b ∈ [oneEntry none, oneEntry (some none), oneEntry (some (some [0])), oneEntry (some (some [0xFF]))],
        ((runs b).oculus 0).routeLoad = some b ∧ ((runs b).oculus 0).mcgLoad = some b) ∧
    ((oneEntry none).entry 4 = none ∧ (oneEntry none).entry 256 = none ∧ (oneEntry (some none)).entry 4 = some none ∧
      (oneEntry (some none)).entry 256 = some none ∧ ((oneEntry (some (some [0]))).entry 4).isSome = true ∧
      mcgCheck 0x10000 = none ∧ (mcgCheck 0xFFFFFFFF).isSome = true) ∧
    (up.accepts .pf (Loc.ocRingCtl 0) 1 ∧ wellFormedFor (Loc.ocRingCtl 0) 1 ∧
      up.accepts .pf (Loc.ocRingCtl 0) 0xFFFFFFFF ∧ (formCheck (locFields (Loc.ocRingCtl 0)) 0xFFFFFFFF).isSome = true) := by
  simp only [State.accepts, wellFormedFor]; decide +kernel

/-- `fab` with tag 0 live, of full rights and with counting slots at spire 0, and a window of 2 MiB on line 0. -/
def fabWin : State :=
  let s := ((line0 fab 7).put (Loc.ocTagDir 0) 0x411).put (Loc.ocWinData 0 0) 0x1F
  (s.put (Loc.ocWinData 0 1) 1).put (Loc.ocCombCtl 0) 0

/-- The request of an operation from device 5, with the data that its form asks for. -/
def req5 (op : Nat) : Pkt :=
  let k : Pkt := { op := BitVec.ofNat 6 op, srcDev := 5, dstDev := 3, len := 255 }
  match op with
  | 2 | 6 | 7 => { k with nflit := 4, data := List.replicate 256 0 }
  | 3 => { k with nflit := 4, maskf := true, data := List.replicate 320 0 }
  | 4 => { k with nflit := 1, len := 3, data := List.replicate 64 0 }
  | 5 => { k with nflit := 1, len := 3, opt := 0x20, data := List.replicate 64 0 }
  | 8 => { k with len := 0, opt := 1 }
  | 9 => { k with len := 0, csEn := true, opt := 1 }
  | _ => k

/-- A request of its own device reaches the check, with what the check gives. -/
def reaches5 (s : State) (op : Nat) : Bool :=
  (req5 op).op == BitVec.ofNat 6 op && (s.oculus 0).out == 0 && s.isOwn (req5 op).dstDev.toNat

/-- What the check of a request comes to: 0 failed, 1 landed, 2 passed. -/
def checked (s : State) (k : Pkt) : Nat :=
  match s.checkReq 0 k with
  | .fail _ _ => 0
  | .land _ _ => 1
  | .pass _ _ _ => 2

/-- The admission of a request that passed goes out at once. -/
def admits (s : State) (op : Nat) : Bool :=
  match (s.takeHeld (req5 op)).checkReq 0 (req5 op) with
  | .pass t q w => t.direct 0 q w && (match t.letIn 0 q w none with | some (_, none) => true | _ => false)
  | .land t q => t.direct 0 q 0 && (match t.letIn 0 q 0 none with | some (_, none) => true | _ => false)
  | _ => false

theorem witness_RequestsOfOtherDevices :
    (fabWin.oculus 0).out = 0 ∧ (∀ op ∈ [1, 2, 3, 4, 5, 7, 8, 9], reaches5 fabWin op = true) ∧
    (∀ op ∈ [1, 2, 3, 4, 5, 7, 8, 9], admits fabWin op = true) ∧
    -- another operation, another device, one that fails, one that combines
    ((req5 2).op ≠ BitVec.ofNat 6 1 ∧ fabWin.isOwn 5 = false ∧ checked fabWin { req5 1 with nflit := 1 } = 0) ∧
    (match ((fabWin.put (Loc.ocCombCtl 0) 0xFF02).takeHeld (req5 1)).checkReq 0 (req5 1) with
     | .pass t q w => !t.direct 0 q w && (t.joinComb 0 q w).isSome
     | _ => false) = true ∧
    -- the checks in their order
    (formOk { req5 1 with nflit := 1 } = false ∧ formOk (req5 1) = true ∧ (req5 1).tagf = false ∧
      (fabWin.setFlag (Loc.ocTagDir 0) 5 true).flag (Loc.ocTagDir 0) 5 (req5 1).jobTag.toNat = true ∧
      fabWin.flag (Loc.ocTagDir 0) 5 (req5 1).jobTag.toNat = false ∧ (req5 1).srcDev.toNat ≠ fabWin.ownDev) ∧
    (fab.flag (Loc.ocTagDir 0) 0 0 = false ∧ fabWin.flag (Loc.ocTagDir 0) 0 0 = true ∧ fabWin.tagSlots 0 = true ∧
      fabWin.flag (Loc.ocTagDir 0) 4 0 = true ∧ (fabWin.setFlag (Loc.ocTagDir 0) 4 false).flag (Loc.ocTagDir 0) 4 0 = false ∧
      fabWin.findWin 0 (2 ^ 22) 255 = none ∧ fabWin.findWin 0 0 255 = some 0 ∧ (fabWin.winWord 0 0 0).bit (rightBit 1) = true ∧
      ((fabWin.put (Loc.ocWinData 0 0) 0).winWord 0 0 0).bit (rightBit 1) = false ∧
      (fabWin.put (Loc.ocTagDir 0) 0x11).tagSlots 0 = false) ∧
    (fabWin.openPkt false { req5 1 with tagf := true } = none) := by
  decide +kernel

theorem witness_AdmittedRequestsAreApplied :
    -- a signal's home in reset and in service; what an ask meets
    (let home := fabWin.tagHome 0
     (fabWin.spire home).out = 0 ∧ ((fabWin.modSpire home fun sp => { sp with out := 1 }).spire home).out = 1 ∧
      ({ fabWin with plinths := [] } : State).ocStation 0 0 = none ∧ (fabWin.ocStation 0 0).isSome = true ∧
      fabWin.tidRoom 16 = true ∧ ({ fabWin with calls := List.replicate 4096 { st := 16 } } : State).tidRoom 16 = false) ∧
    (let c : Call := { st := 16, who := .req 0 (req5 1) none }
     let o : Call := { st := 16, who := .req 0 (req5 1) (some 0) }
     ({ fabWin with calls := [c] } : State).callAt 16 0 = some c ∧
      ({ fabWin with calls := [o] } : State).callAt 16 0 = some o ∧
      ((fabWin.modOculus 0 fun o => { o with txns := [{}] }).txn 0).isSome = true ∧ fabWin.txn 0 = none) ∧
    -- combining: no record, a mate, no entry left, an entry opened; closing
    (let k := req5 1
     let c : Comb := { tag := 0, line := 0, win := fabWin.window 0 0, cls := (combClass k).getD 0, pkts := [k] }
     let at_ (l : List Comb) : State := (fabWin.put (Loc.ocCombCtl 0) 0xFF02).modOculus 0 fun o => { o with comb := l }
     let mate (s : State) : Option Comb := ((s.touchLine 0 0 0).oculus 0).comb.find? fun c => c.tag == 0 && c.line == 0 &&
       c.win == s.window 0 0 && c.cls == (combClass k).getD 0 && !(s.touchLine 0 0 0).combFull 0 c && c.pkts.all fun j => joinTarget j k
     (mate (at_ [c])).isSome = true ∧ (((at_ [c]).touchLine 0 0 0).oculus 0).records < 65536 ∧ mate (at_ []) = none ∧
      (((at_ []).touchLine 0 0 0).oculus 0).comb.length < 512 ∧
      mate (at_ (List.replicate 512 { c with line := 1 })) = none ∧
      512 ≤ (((at_ (List.replicate 512 { c with line := 1 })).touchLine 0 0 0).oculus 0).comb.length ∧
      65536 ≤ (((at_ [{ c with pkts := List.replicate 65536 k }]).touchLine 0 0 0).oculus 0).records ∧
      (((at_ [c]).oculus 0).comb.find? fun c => c.tag == 0 && c.line == 0) = some c ∧ (at_ [c]).reaches (c.last + 64) ∧
      (((at_ []).oculus 0).comb.find? fun c => c.tag == 0 && c.line == 0) = none ∧
      (((at_ [c]).atTime (c.last + 64)).closeComb 0 c).isSome = true ∧ (at_ [c]).combOut 0 (combLine c) = false ∧
      (let s : State := { at_ [c] with calls := [{ st := 16, who := .comb 0 c [] }] }
       s.combOut 0 (combLine c) = true ∧ ((s.atTime (c.last + 64)).closeComb 0 c) = none)) := by
  simp only [State.reaches]; decide +kernel

theorem witness_CompletionsAndMulticast :
    let k : Pkt := req5 6
    let t : Txn := { pkt := k }
    let c : Txn := { pkt := k, copies := [{ dev := 5, again := true }] }
    let s := fab.modOculus 0 fun o => { o with txns := [t] }
    let u := fab.modOculus 0 fun o => { o with txns := [c] }
    let issued (s : State) : Option Txn := (s.oculus 0).txns.find? fun t => t.pkt.op == 6 && t.copies.isEmpty && t.pkt.addr == k.addr &&
      t.pkt.opt == k.opt && t.pkt.jobTag == k.jobTag && t.pkt.data == k.data
    k.op = 6 ∧ (req5 1).op ≠ 6 ∧ (s.oculus 0).out = 0 ∧ (fabWin.oculus 0).out = 0 ∧
    -- an MC_STORE of a FOP, one at a die behind a link, one of a wrong form
    (issued s = some t ∧ issued fab = none ∧ formOk k = true ∧ (fab.oculus 0).txns.length < 32768 ∧
      (∃ i, fab.freeSeq 0 = some i ∧
        ((fab.openTxn i { k with srcDev := BitVec.ofNat 16 fab.ownDev, seq := BitVec.ofNat 16 i } (.absorbed [])).txn i).isSome = true) ∧
      formOk { k with nflit := 1 } = false) ∧
    -- copies: for another device, refused, a duplicate, without room, accepted
    (fabWin.isOwn 5 = false ∧ fabWin.isOwn k.dstDev.toNat = true ∧ checked fabWin { k with nflit := 1 } = 0 ∧ checked fabWin k = 2 ∧
      ({ fabWin with dups := [{ src := 5, seq := 0 }] } : State).dups.any (dupOf k) = true ∧ fabWin.dups.any (dupOf k) = false ∧
      fabWin.dups.length < 16384 ∧ (fabWin.oculus 0).mcRoom k = true ∧
      ((fabWin.modOculus 0 fun o => { o with mcBuf := List.replicate 16384 (k, k, 0) }).oculus 0).mcRoom k = false) ∧
    -- resending, timeouts, the filter
    (((fab.oculus 0).txns.find? fun t => t.seq == 0) = none ∧ ((u.oculus 0).txns.find? fun t => t.seq == 0) = some c ∧
      (c.copies.filter (·.again)).map (·.sentAt) = [0] ∧ (t.copies.filter (·.again)).map (·.sentAt) = [] ∧
      u.reaches (([] : List Nat).foldl max 0 + 100 * u.fld (Loc.ocMcCtl 0) 15 8)) ∧
    (((fab.oculus 0).txns.find? fun t => t.seq == 0 && !t.copies.isEmpty) = none ∧
      ((u.oculus 0).txns.find? fun t => t.seq == 0 && !t.copies.isEmpty) = some c ∧
      u.reaches (c.opened + 1000 * u.fld (Loc.ocMcCtl 0) 7 0)) ∧
    (let v : State := { up with dups := [{}] }
     (up.dups.find? fun d => d.src == 0 && d.seq == 0) = none ∧
     (v.dups.find? fun d => d.src == 0 && d.seq == 0) = some {} ∧ v.reaches ({} : Dup).until_) ∧
    -- completions: of another operation, for another device, not authentic, for no transaction, of a copy, of another
    (let r : Pkt := { op := 0x20, srcDev := 5, dstDev := 3 }
     let w := fab.modOculus 0 fun o => { o with txns := [{ pkt := req5 1 }] }
     r.op = 0x20 ∧ (req5 1).op ≠ 0x20 ∧ fab.isOwn 5 = false ∧ fab.isOwn r.dstDev.toNat = true ∧
      (fab.takeHeld { r with tagf := true }).openComp { r with tagf := true } = none ∧ ((fab.takeHeld r).openComp r).isSome = true ∧
      (fab.txn 0) = none ∧ (s.txn 0) = some t ∧ t.pkt.op = 6 ∧ ((w.txn 0).map fun t => t.pkt.op) = some 1) ∧
    (let v := sp0 up fun sp => { sp with notes := [(0, 0, false)] }
     ((up.spire 0).notes.find? fun x => x.1 == 0 && x.2.2 == false) = none ∧
     ((v.spire 0).notes.find? fun x => x.1 == 0 && x.2.2 == false) = some (0, 0, false)) := by
  refine ⟨?_, ?_, ?_, ?_, ⟨?_, ?_, ?_, ?_, ⟨_, rfl, ?_⟩, ?_⟩, ?_, ?_, ?_, ?_, ?_, ?_⟩ <;> (try simp only [State.reaches]) <;> decide +kernel

theorem witness_WindowsAndCountsAreWritten :
    (let sel (s : State) := s.get (Loc.ocWinSel 0)
     let check (s : State) := s.winCheck ((sel s).bits 11 0) ((sel s).bits 15 12) (s.staged (Loc.ocWinData 0) 4 0)
     let bad := owned.put (Loc.ocWinData 0 0) 0xFFFFFFFF staging
     owned.accepts .pf (Loc.ocWinData 0 3) 0 ∧ check owned = none ∧ bad.accepts .pf (Loc.ocWinData 0 3) 0 ∧ (check bad).isSome = true) ∧
    (let w := (1 : Word).put 31 31 1
     let check (w : Word) := owned.bulkCheck (Loc.ocWinLoad 0) w (owned.addrOf (Loc.ocWinBaseLo 0)) (owned.fld (Loc.ocWinFirst 0) 15 0)
       (w.bits 16 0) 65536 65536 16
     owned.accepts .pf (Loc.ocWinLoad 0) w ∧ check w = none ∧ owned.accepts .pf (Loc.ocWinLoad 0) (illFormed 31 1) ∧
      (check (illFormed 31 1)).isSome = true) ∧
    (let runs (b : BulkLoad) := owned.modOculus 0 fun o => { o with winLoad := some b }
     (owned.oculus 0).winLoad = none ∧
      ∀ b ∈ [oneEntry none, oneEntry (some none), oneEntry (some (some [0])), oneEntry (some (some [0xFF, 0xFF, 0xFF, 0xFF]))],
        ((runs b).oculus 0).winLoad = some b) ∧
    ((oneEntry none).entry 16 = none ∧ (oneEntry (some none)).entry 16 = some none ∧
      (∃ w, (oneEntry (some (some [0]))).entry 16 = some (some w) ∧ owned.winCheck 0 0 w = none) ∧
      (∃ w, (oneEntry (some (some [0xFF, 0xFF, 0xFF, 0xFF]))).entry 16 = some (some w) ∧ (owned.winCheck 0 0 w).isSome = true)) ∧
    (let s := owned.put (Loc.ocTagDir 0) 0x400
     s.accepts .pf (Loc.ocCsValue 0) 5 ∧ s.tagOwner (s.fld (Loc.ocCsSel 0) 11 0) < 8 ∧
      s.pfState (s.tagOwner (s.fld (Loc.ocCsSel 0) 11 0)) = 0 ∧ s.tagSlots (s.fld (Loc.ocCsSel 0) 11 0) = true ∧
      owned.accepts .pf (Loc.ocCsValue 0) 5 ∧ owned.tagSlots (owned.fld (Loc.ocCsSel 0) 11 0) = false) := by
  refine ⟨?_, ?_, ?_, ⟨?_, ?_, ⟨_, rfl, ?_⟩, ⟨_, rfl, ?_⟩⟩, ?_⟩ <;> (try simp only [State.accepts]) <;> decide +kernel

/-- `fab` in a state of its time, a mode of TIME_CTL and as a root or not. -/
def timed (state mode root : Nat) : State :=
  ((fab.setFld Loc.glTimeSts 2 0 state).setFld Loc.glTimeCtl 1 0 mode).setFld Loc.glTimeCtl 2 2 root

theorem witness_ClocksFollowReferenceAndMode :
    (let u (s : State) : State := ({ s with time := { s.time with refIn := false, refBack := false, refLost := true } } : State).bump 0x0004 7 0
     (u up).fld Loc.glRefCtl 1 0 = 0 ∧ (u (up.put Loc.glRefCtl 1)).fld Loc.glRefCtl 1 0 = 1 ∧
      (u (up.put Loc.glRefCtl 2)).fld Loc.glRefCtl 1 0 = 2) ∧
    (up.accepts .pf Loc.glRefCtl 1 ∧ wellFormedFor Loc.glRefCtl 1 ∧ (1 : Word).bits 1 0 = 1 ∧
      up.accepts .pf Loc.glRefCtl 2 ∧ wellFormedFor Loc.glRefCtl 2 ∧ (2 : Word).bits 1 0 ≠ 1 ∧
      up.accepts .pf Loc.glRefCtl 0xFFFFFFFF ∧ (formCheck (locFields Loc.glRefCtl) 0xFFFFFFFF).isSome = true) ∧
    -- down-steps: deep before the tick and not, after a window, without one, at the floor; in the mesh
    (let t := (up.modRegion 0 fun x => { x with depth := max x.depth 4, stirred := true }).modRegion 0 fun x =>
       { x with deepU := x.deepU.orElse fun _ => some (up.cycles 0 + inCycles 16) }
     let j : State := { up with clk := { up.clk with joined := true, cutoff := true, count := 9999 } }
     let u := (j.modRegion 0 fun x => { x with depth := max x.depth 4, stirred := true }).modRegion 0 fun x =>
       { x with deepU := x.deepU.orElse fun _ => some (j.cycles 0 + inCycles 16) }
     up.meshOn = false ∧ (up.setFlag Loc.glClkSts 0 true).meshOn = true ∧ (t.region 0).deepU = some (up.cycles 0 + inCycles 16) ∧
      t.reaches (t.cycleAt 0 (up.cycles 0 + inCycles 16)) ∧ (u.region 0).deepU = some (j.cycles 0 + inCycles 16) ∧
      ¬ u.reaches (u.cycleAt 0 (j.cycles 0 + inCycles 16)) ∧
      (let s := up.modRegion 0 fun x => { x with stepU := some 5 }
       up.stepDue 0 = none ∧ s.meshOn = false ∧ s.stepDue 0 = some 5 ∧ s.reaches (s.cycleAt 0 5))) ∧
    (let s := up.setFld Loc.glClkCtl 0 0 1
     let w (v : Word) := v.put 0 0 (1 - s.fld Loc.glClkCtl 0 0)
     let runs := (owned.setFld (Loc.ptPfSts 1) 2 0 1)
     s.accepts .pf Loc.glClkCtl (w (s.get Loc.glClkCtl)) ∧ wellFormedFor Loc.glClkCtl (w (s.get Loc.glClkCtl)) ∧ s.allStopped = true ∧
      s.accepts .pf Loc.glClkCtl (w 0xFFFFFFFF) ∧ (formCheck (locFields Loc.glClkCtl) (w 0xFFFFFFFF)).isSome = true ∧
      runs.accepts .pf Loc.glClkCtl ((runs.get Loc.glClkCtl).put 0 0 (1 - runs.fld Loc.glClkCtl 0 0)) ∧ runs.allStopped = false) := by
  simp only [State.accepts, wellFormedFor, State.reaches]; decide +kernel

theorem witness_TimeIsExchanged :
    -- the transit: a plinth out, no plane, an exchange, none on the planes
    ((State.reset.plinth 0).out ≠ 0 ∧ (up.plinth 0).out = 0 ∧ (up.plinth 1).out = 0 ∧ up.time.westAt ≠ up.clk.ticks + 1 ∧
      (let t := up.modTime fun x => { x with westAt := up.clk.ticks + 1 }
       let n := (List.range 4).foldl (fun (s : State) p => s.modLink 22 25 p fun x => { x with st := some 3 }) t
       t.westPlanes ≠ [] ∧ n.westPlanes = [] ∧
       bestExchange (([{ offset := 3, delay := 4, plane := t.westPlanes.headD 0 }] : List WestExchange).filter
         (fun x => t.westPlanes.contains x.plane) |>.map fun x => (x.offset, (x.delay : Int))) = some (3, 4) ∧
       bestExchange ((([] : List WestExchange).filter fun x => t.westPlanes.contains x.plane).map fun x => (x.offset, (x.delay : Int))) = none)) ∧
    -- requests, their periods
    (let m : TimeMsg := { periodUs := 10 }
     up.portState 2 ≠ 4 ∧ ({ m with ring := true } : TimeMsg).ring = true ∧ (timed 2 2 0).portState 0 = 4 ∧ m.ring = false ∧
      m.periodUs * 1000 = (timed 2 2 0).period ∧ ({ m with periodUs := 20 } : TimeMsg).periodUs * 1000 ≠ (timed 2 2 0).period ∧
      2 ≤ ((timed 2 2 0).checkPeriod 0 10).timeState ∧ ((timed 1 2 0).checkPeriod 0 10).timeState < 2) ∧
    (let x : Exchange := {}
     let s := up.modTime fun y => { y with out := [x] }
     (up.time.out.find? fun x => x.num == 0) = none ∧ (s.time.out.find? fun x => x.num == 0) = some x ∧ s.reaches (x.at_ + 100000)) ∧
    ((timed 1 2 0).timeState ≠ 2 ∧ (timed 2 0 0).timeMode = 0 ∧ (timed 2 2 1).timeRoot = true ∧
      (timed 2 2 0).timeState = 2 ∧ (timed 2 2 0).timeMode ≠ 0 ∧ (timed 2 2 0).timeRoot = false ∧
      (timed 2 2 0).reaches ((timed 2 2 0).time.valid + 10000000)) ∧
    -- what is sent in each mode
    ((timed 0 2 0).timeState = 0 ∧ (timed 2 2 0).timeState ≠ 0 ∧ (timed 2 2 0).reaches (timed 2 2 0).syncDue ∧
      (timed 2 1 0).timeMode = 1 ∧ (timed 2 1 0).timeRoot = false ∧ ((timed 2 1 0).oculus 0).out = 0 ∧
      (((timed 2 1 0).modOculus 0 fun o => { o with out := 2 }).oculus 0).out ≠ 0 ∧ (timed 2 0 1).timeRoot = true ∧
      (timed 2 0 1).timeMode = 0) ∧
    -- answers: to no exchange, late, of a ring neighbour, in another mode, joined, joining, joining with sixteen
    (let s (st mode : Nat) (x : Exchange) (h : List (Int × Int)) : State := (timed st mode 0).modTime fun y => { y with out := [x], hist := h }
     let m : TimeMsg := { periodUs := 10, t2 := 5, t3 := 6 }
     let late : State := (s 2 2 {} []).pass 100001
     let w (s : State) : State := (((s.checkPeriod 0 10).modTime fun y => { y with out := [] }).bump 0x0004 2 0).modTime fun y =>
       { y with hist := ((0, 5) :: y.hist).take 16 }
     let y (s : State) : State := (w s).setFld Loc.glTimeDelay 23 0 (wrapNat 24 (5 / 16))
     let full : List (Int × Int) := List.replicate 15 (0, 9)
     (s 2 2 {} []).portState 0 = 4 ∧ (up.time.out.find? fun x => x.num == m.exch.toNat) = none ∧
      ((s 2 2 {} []).time.out.find? fun x => x.num == m.exch.toNat) = some {} ∧
      (late.time.out.find? fun x => x.num == m.exch.toNat) = some {} ∧ ({} : Exchange).at_ + 100000 < late.clk.elapsed ∧
      ((s 2 1 { ring := some 0 } []).time.out.find? fun x => x.num == m.exch.toNat) = some { ring := some 0 } ∧
      (s 2 2 {} []).clk.elapsed ≤ ({} : Exchange).at_ + 100000 ∧ ({} : Exchange).ring = none ∧
      (timed 2 1 0).timeMode ≠ 2 ∧ (timed 2 2 0).timeMode = 2 ∧ bestExchange (w (s 2 2 {} [])).time.hist = some (0, 5) ∧
      (y (s 2 2 {} [])).timeState ≠ 1 ∧ (y (s 1 2 {} [])).timeState = 1 ∧ (y (s 1 2 {} [])).time.hist.length < 16 ∧
      (y (s 1 2 {} full)).timeState = 1 ∧ 16 ≤ (y (s 1 2 {} full)).time.hist.length) := by
  refine ⟨?_, ?_, ?_, ?_, ?_, ?_⟩ <;> (try simp only [State.reaches]) <;> decide +kernel

theorem witness_TimeIsFollowedAndSet :
    -- messages of the ring: deaf, of too many hops; joining with and without agreement, joined
    (let m : TimeMsg := { periodUs := 10, hopsRoot := 1023 }
     let s (st : Nat) (offs : List Int) : State := (timed st 1 0).modTime fun y => { y with arcs := lmod y.arcs (b2n m.arcCcw) fun a =>
       { a with offs := offs, last := 1 } }
     let deaf (s : State) (p : Nat) := s.portState p ≠ 4 ∨ s.timeMode ≠ 1 ∨ s.timeRoot = true ∨ s.timeState = 0
     let v (s : State) : State :=
       let u := s.checkPeriod 0 10
       let off : Int := ((m.t1 + (lget {} u.time.arcs 0).delay : Nat) : Int) - (u.now256 : Nat)
       u.modTime fun x => { x with arcs := lmod x.arcs (b2n m.arcCcw) fun a => { a with offs := ((off + u.slewed256) :: a.offs).take 4, last := u.clk.elapsed + 1 } }
     let agree (s : State) := (lget {} (v s).time.arcs (b2n m.arcCcw)).offs.length = 4 ∧
       ∀ x ∈ (lget {} (v s).time.arcs (b2n m.arcCcw)).offs, ∀ y ∈ (lget {} (v s).time.arcs (b2n m.arcCcw)).offs, (x - y).natAbs ≤ 2560
     deaf up 0 ∧ ¬ deaf (s 1 []) 0 ∧ m.hopsRoot ≤ 1023 ∧ 1023 < ({ m with hopsRoot := 1024 } : TimeMsg).hopsRoot ∧
      (v (s 1 [])).timeState = 1 ∧ ¬ agree (s 1 []) ∧ (v (s 1 [0, 0, 0])).timeState = 1 ∧ agree (s 1 [0, 0, 0]) ∧
      (v (s 2 [])).timeState ≠ 1) ∧
    -- arcs: apart; the silence of one's own; the return to a shorter one
    (let s := (timed 2 1 0).modTime fun y => { y with arcs := [{ last := 1, hops := 4 }, { last := 1, hops := 2, resumed := 1 }] }
     let apart (s : State) := s.timeMode ≠ 1 ∨ s.timeRoot = true ∨ s.timeState < 2
     apart up ∧ ¬ apart s ∧ s.reaches ((lget {} s.time.arcs s.arcNow).last - 1 + 4 * s.syncNs) ∧
      (lget {} (timed 2 1 0).time.arcs (1 - (timed 2 1 0).arcNow)).last = 0 ∧ (lget {} s.time.arcs (1 - s.arcNow)).last ≠ 0 ∧
      (lget {} s.time.arcs (1 - s.arcNow)).hops < (lget {} s.time.arcs s.arcNow).hops ∧
      s.reaches ((lget {} s.time.arcs (1 - s.arcNow)).resumed - 1 + 100000000)) ∧
    ((timed 2 1 0).timeState ≠ 1 ∧ (timed 1 1 0).timeState = 1 ∧ (timed 1 1 0).time.late = false ∧
      (timed 1 1 0).reaches ((timed 1 1 0).time.joinAt + 1000000000)) ∧
    -- rejoining and setting the time
    (let w (s : State) := (s.get Loc.glTimeCtl).put 3 3 1
     let bars (s : State) := (s.timeState ≠ 0 ∧ (w s).bits 2 0 ≠ s.fld Loc.glTimeCtl 2 0) ∨ s.allStopped = false
     let runs := owned.setFld (Loc.ptPfSts 1) 2 0 1
     (∀ s ∈ [up, runs], s.accepts .pf Loc.glTimeCtl (w s) ∧ wellFormedFor Loc.glTimeCtl (w s)) ∧ ¬ bars up ∧ bars runs ∧
      up.accepts .pf Loc.glTimeCtl (illFormed 3 1) ∧ (formCheck (locFields Loc.glTimeCtl) (illFormed 3 1)).isSome = true) ∧
    ((timed 1 0 0).timeMode = 0 ∧ (timed 1 1 0).timeMode ≠ 0 ∧ (timed 1 1 0).timeRoot = false) ∧
    (up.accepts .pf (Loc.glTimeSetLo + 4) 7 ∧ up.timeState = 0 ∧ (timed 2 1 0).accepts .pf (Loc.glTimeSetLo + 4) 7 ∧
      (timed 2 1 0).timeState ≠ 0) := by
  refine ⟨?_, ?_, ?_, ?_, ?_, ?_⟩ <;> (try simp only [State.accepts, wellFormedFor, State.reaches]) <;> decide +kernel

theorem witness_SupplyAndRails :
    -- the hot-swap, the supply in and out of its range
    (let open_ : State := { up with power := {} }
     open_.power.closed = false ∧ ({ open_ with start := { resetN := true } } : State).start.resetN = true ∧ open_.start.resetN = false ∧
      up.power.closed = true ∧ up.flag Loc.glPwrSts 4 = false ∧ up.flag Loc.glPwrSts 5 = false ∧
      (up.setFlag Loc.glPwrSts 4 true).flag Loc.glPwrSts 4 = true ∧ (up.setFlag Loc.glPwrSts 5 true).flag Loc.glPwrSts 5 = true ∧
      (open_.postGlobal 3 0x18 0 0).holder.isSome = true ∧ (State.reset.postGlobal 3 0x18 0 0).holder.isSome = false ∧
      ((up.postGlobal 0 1 0 0).saveLog true).faults.saved.length ≤ 16) ∧
    -- rails: not up, up, of each unit
    (let s : State := { up with power := { closed := true, rails := 4, lnOn := [0, 1, 2] } }
     (∀ r : Fin 85, s.railUp r = true) ∧ up.power.closed = true ∧ State.reset.power.closed = false ∧
      (s.modPower fun p => { p with railFailed := [84] }).railUp 84 = false) ∧
    -- bus converters, the design power
    (up.flag Loc.glPwrSts 0 = true ∧ up.flag Loc.glPwrSts (b2n true) = true ∧
      (up.setFlag Loc.glPwrSts 1 false).flag Loc.glPwrSts (b2n true) = false ∧ up.canon = true ∧ 900 ≤ 900 ∧ 900 ≤ 1700 ∧ 1700 ≤ 1700) := by
  decide +kernel

/-- `s` after the stack of spire 0 has been counted as over its limit. -/
def overrun (s : State) : State :=
  ((s.setFlag Loc.glStackRed 8 true 0).bump 6 4 0 1 (s.spireOwner 0)).bump (spPage 0 8) 4 0 1 (s.spireOwner 0)

theorem witness_PowerAndTemperatureAct :
    -- stacks, the input monitor and its guard
    ((State.reset.spire 0).out ≠ 0 ∧ (up.spire 0).out = 0 ∧
      (0 : Fin 16).val ∉ (overrun up).power.overLog ∧
      (0 : Fin 16).val ∈ (overrun (up.modPower fun x => { x with overLog := [0] })).power.overLog) ∧
    (let at_ (s : State) := s.nextOf s.power.sampledAt 1000
     let x (s : State) (v i : Nat) : State :=
       let t := s.atTime (at_ s)
       let l := ((v, i) :: t.power.samples).take 100
       let now := (l.map fun e => e.1 * e.2).sum / (10000 * max 1 l.length)
       let u := ((t.modPower fun x => { x with samples := l, sampledAt := some t.clk.elapsed }).setFld Loc.glVin 13 0
         (meanOf (·.1) l)).setFld Loc.glIin 13 0 (meanOf (·.2) l)
       let w := (u.setFld Loc.glPin 11 0 now).setFld Loc.glPin 27 16 (max (u.fld Loc.glPin 27 16) (now % 4096))
       w.modPower fun x => { x with lowAt := w.sinceWhen (decide (now + 60 < w.fld Loc.glPwrGuard 10 0)) x.lowAt }
     let later := up.modPower fun x => { x with guard := some up.clk.elapsed }
     State.reset.power.closed = false ∧ up.power.closed = true ∧ up.reaches (at_ up) ∧
      0 ≤ (x up 4800 0).fld Loc.glPwrGuard 10 0 ∧ (x up 4800 4000).fld Loc.glPwrGuard 10 0 < 4800 * 4000 / 10000 ∧
      (x up 4800 4000).nextOf (x up 4800 4000).power.guard 100000 ≤ (x up 4800 4000).clk.elapsed ∧
      (x later 4800 4000).clk.elapsed < (x later 4800 4000).nextOf (x later 4800 4000).power.guard 100000) ∧
    (let s := (up.setFld Loc.glStackRed 6 0 5).modPower fun x => { x with lowAt := some 3 }
     up.fld Loc.glStackRed 6 0 0 = 0 ∧ s.fld Loc.glStackRed 6 0 0 ≠ 0 ∧ s.power.lowAt = some 3 ∧ s.reaches (3 + 1000000)) ∧
    -- sensors: a sample, one that failed, one that is read; the reductions
    (up.reaches (up.nextOf up.power.sensedAt 20000) ∧ up.sensorFailed 0 = false ∧ (up.setFlag Loc.glTsVal 16 true).sensorFailed 0 = true ∧
      (-2561 : Int) < -2560 ∧ (9600 : Int) < 9601 ∧ (-2560 : Int) ≤ 9600) ∧
    (let i := (feeds 0).headD 0
     let hot := up.setFld Loc.glTsSts 1 0 2 i
     let t := hot.modPower fun p => { p with cool := lmod p.cool 0 (hot.sinceWhen false), rise := [some 0] }
     ((∃ i ∈ feeds 0, (up.setFlag Loc.glTsVal 16 true i).sensorFailed i = true) ∧ ¬(∃ i ∈ feeds 0, up.sensorFailed i = true) ∧
      ¬(∃ i ∈ feeds 0, up.level i = 2) ∧ (∃ i ∈ feeds 0, hot.level i = 2) ∧ ¬(∃ i ∈ feeds 0, hot.sensorFailed i = true) ∧
      t.clk.elapsed < t.nextOf (lget none t.power.rise 0) 100000 ∧
      up.nextOf (lget none up.power.rise 0) 100000 ≤ up.clk.elapsed)) ∧
    (let s := (up.setFld Loc.glTsSts 22 16 1 0).modPower fun x => { x with cool := some 4 :: x.cool.drop 1 }
     up.fallDue = none ∧ s.fallDue = some 1000004 ∧ s.reaches 1000004 ∧ lget none up.power.cool 0 = none ∧
      lget none s.power.cool 0 = some 4 ∧ s.fld Loc.glTsSts 22 16 0 ≠ 0 ∧ ¬(∃ i ∈ feeds 0, s.sensorFailed i = true)) ∧
    -- trips of a gatehouse and of a plinth, that is still hot and that is not
    (let s := (up.modGate 0 fun x => { x with trip := true }).modPower fun p => { p with below := List.replicate 8 (some 500) }
     (up.gate 0).trip = false ∧ (s.gate 0).trip = true ∧ lget none s.power.below 0 = some 500 ∧ s.reaches (500 + 10000000)) ∧
    (let s := up.modPower fun p => { p with plTrip := [(0, 6)] }
     let t := s.setFld Loc.glTsSts 1 0 2 24
     (up.power.plTrip.find? fun x => x.1 == 0) = none ∧ (s.power.plTrip.find? fun x => x.1 == 0) = some (0, 6) ∧
      s.reaches (6 + 10000000) ∧ s.level 24 < 2 ∧ (t.power.plTrip.find? fun x => x.1 == 0) = some (0, 6) ∧
      t.reaches (6 + 10000000) ∧ 2 ≤ t.level 24) := by
  refine ⟨?_, ?_, ?_, ?_, ?_, ?_, ?_, ?_⟩ <;> (try simp only [State.reaches]) <;> decide +kernel

theorem witness_InterlockIsHeld :
    -- pulses: of a belfry that does not hold; seen, missed once and for the third time, too long
    (let at_ (s : State) := s.nextOf (s.belfry 0).drove 49000
     let low := fun (s : State) (k ns : Nat) =>
       if 5000 < ns then s.stuckHold else if 500 ≤ ns then s.modBelfry k fun b => { b with seenAt := s.clk.elapsed } else s
     let t (s : State) (w : PulseSeen) : State := low (low ((s.atTime (at_ s)).modBelfry 0 fun b => { b with drove := some (s.atTime (at_ s)).clk.elapsed }) 0 w.own) 1 w.other
     let twice := up.modBelfry 0 fun b => { b with missed := 2 }
     up.role 1 ≠ 3 ∧ up.role 0 = 3 ∧ up.reaches (at_ up) ∧ 500 ≤ ({} : PulseSeen).own ∧ ({ own := 0 } : PulseSeen).own < 500 ∧
      ((t up { own := 0 }).belfry 0).missed + 1 ≠ 3 ∧ ((t twice { own := 0 }).belfry 0).missed + 1 = 3 ∧
      500 ≤ ({ own := 6000 } : PulseSeen).own ∧ twice.reaches (at_ twice)) ∧
    -- the query: not to be asked, asked after an absence and after a refusal; heard and not
    (let at_ (s : State) := max ((s.belfry 1).seenAt + 200000) (match (s.belfry 1).refused with | some r => r + 10000000 | none => 0)
     let s := up.modBelfry 1 fun b => { b with refused := some 7 }
     up.mayTake 0 = false ∧ up.mayTake 1 = true ∧ (up.belfry 1).asked = none ∧ up.reaches (at_ up) ∧
      s.mayTake 1 = true ∧ (s.belfry 1).asked = none ∧ s.reaches (at_ s)) ∧
    (let hears (s : State) := (s.belfry 1).asked ≠ none ∧ (s.belfry 1).noPath = false ∧ s.role 0 = 3
     ¬ hears up ∧ hears (up.modBelfry 1 fun b => { b with asked := some 3 }) ∧
      (up.belfry 1).refusal = false ∧ ((up.modBelfry 1 fun b => { b with refusal := true }).belfry 1).refusal = true) ∧
    -- the takeover: refused by a holder that hears, and without a path or a holder
    (let a := up.modBelfry 1 fun b => { b with asked := some 3 }
     let n := up.modBelfry 1 fun b => { b with asked := some 3, noPath := true }
     let g := (a.setRole 0 0)
     let refused (s : State) := (s.belfry 1).noPath = false ∧ s.role 0 = 3
     (up.belfry 1).asked = none ∧
      (∀ s ∈ [a, n, g], (s.belfry 1).asked = some 3 ∧ (s.belfry 1).refusal = false ∧ s.mayTake 1 = true ∧
        s.reaches (if (s.belfry 1).noPath = true then 3 else 3 + 50000) ∧ s.reaches (3 + 10000)) ∧
      refused a ∧ ¬ refused n ∧ ¬ refused g) ∧
    -- the stuck line
    (up.mgmt.stuckAt = none ∧ ¬(up.role 0 = 0 ∧ up.role 1 = 0) ∧ (up.modMgmt fun m => { m with stuckAt := some 0 }).mgmt.stuckAt ≠ none ∧
      (let s := (up.setRole 0 0).modMgmt fun m => { m with stuckAt := some 0, stoppedAt := some 0 }
       s.mgmt.stuckAt = some 0 ∧ s.mgmt.stoppedAt = some 0 ∧ ((List.range 2).find? fun e => s.role e == 2) = some 1 ∧
        s.holder = none ∧ s.flag Loc.glFaultSts 0 = false ∧ s.reaches (max 0 0 + 10000000))) := by
  refine ⟨?_, ?_, ?_, ?_, ?_⟩ <;> simp only [State.reaches] <;> decide +kernel

theorem witness_BelfriesServe :
    -- the state log and the rotation: without a standby, without a path, with one
    ((up.setRole 0 1).canon = true ∧ (up.setRole 0 1).holder = none ∧ (up.setRole 1 0).standby = none ∧ up.standby = some 1 ∧
      up.pathStatus (bfStation 0) (bfStation 1) = 0 ∧ up.reaches (up.nextOf (up.belfry 1).rotAt 1000000000) ∧
      (let cut := (List.range 4).foldl (fun (s : State) p => s.modLink (bfStation 0) (bfStation 1) p fun x => { x with st := some 3 }) up
       cut.standby = some 1 ∧ cut.pathStatus (bfStation 0) (bfStation 1) ≠ 0)) ∧
    -- restarts: none to do, one, and the third failure in an hour
    (let s := up.setRole 1 1
     let t := s.modBelfry 1 fun b => { b with fails := [0, 0] }
     let l (s : State) : List Nat :=
       let u := (s.addSat (Loc.bfBfSts 1) 15 8 1).abortAll
       u.clk.elapsed :: (u.belfry 1).fails.filter fun x => decide (u.clk.elapsed < x + 3600000000000)
     2 ≤ up.role 1 ∧ s.role 1 < 2 ∧ (s.belfry 1).left = false ∧ s.holder ≠ none ∧
      t.role 1 < 2 ∧ (t.belfry 1).left = false ∧ t.holder ≠ none ∧ (l s).length < 3 ∧ 3 ≤ (l t).length) ∧
    -- BF_CTL: a restart of the standby and of the holder, a handover, one without a ready standby, an ill-formed word
    (let w (v : Word) := v.put 1 1 1
     (∀ i < 2, up.accepts .pf (Loc.bfBfCtl i) (w 0) ∧ wellFormedFor (Loc.bfBfCtl i) (w 0) ∧ up.accepts .pf (Loc.bfBfCtl i) (illFormed 1 1) ∧
       (formCheck (locFields (Loc.bfBfCtl i)) (illFormed 1 1)).isSome = true) ∧
      up.role 1 ≠ 3 ∧ (w 0).bit 0 = false ∧ up.role 0 = 3) ∧
    (let w := (0 : Word).put 0 0 1
     let ready (s : State) := s.role 0 = 3 ∧ s.role 1 = 2 ∧ s.flag (Loc.bfBfSts 1) 2 = true
     let s := up.setFlag (Loc.bfBfSts 1) 2 false
     up.accepts .pf (Loc.bfBfCtl 0) w ∧ wellFormedFor (Loc.bfBfCtl 0) w ∧ w.bit 1 = false ∧ ready up ∧
      s.accepts .pf (Loc.bfBfCtl 0) w ∧ ¬ ready s ∧ (formCheck (locFields (Loc.bfBfCtl 0)) (illFormed 0 1)).isSome = true) ∧
    (let s := up.modMgmt fun m => { m with kickAt := some 2 }
     up.mgmt.kickAt = none ∧ s.mgmt.kickAt = some 2 ∧ s.reaches (2 + 400000)) := by
  simp only [State.accepts, wellFormedFor, State.reaches]; decide +kernel

/-- Whole blocks combined with the blocks of a key stream, as one combination. -/
theorem stream_joined (g : Nat → List Nat) (hg : ∀ i, (g i).length = 16) (n : Nat) : ∀ (s : Nat) (b : List Nat),
    b.length = 16 * n → ((List.range n).flatMap fun i =>
      xorBytes (g (s + i)) ((b.drop (16 * i)).take 16 ++ List.replicate 16 0)) =
        xorBytes ((List.range n).flatMap fun i => g (s + i)) b := by
  induction n with
  | zero => intro s b h; have : b = [] := by simpa using h
            simp [this, xorBytes]
  | succ n ih =>
    intro s b h
    have ih := ih (s + 1) (b.drop 16) (by simp; omega)
    have hx : ∀ i, 16 + 16 * i = 16 * (i + 1) := fun i => by omega
    have hs : ∀ i, s + 1 + i = s + (i + 1) := fun i => by omega
    have ht : (b.take 16).length = 16 := by simp; omega
    have h0 : xorBytes (g s) (b.take 16 ++ List.replicate 16 0) = xorBytes (g s) (b.take 16) := by
      simpa [xorBytes] using List.zipWith_append (f := (· ^^^ ·)) (l₁ := g s) (l₁' := []) (l₂ := b.take 16)
        (l₂' := List.replicate 16 0) (by rw [hg, ht])
    simp only [List.drop_drop, hx, hs] at ih
    rw [List.range_succ_eq_map, List.flatMap_cons, List.flatMap_cons, List.flatMap_map, List.flatMap_map]
    simp only [Nat.mul_zero, List.drop_zero, Nat.add_zero, h0, Nat.succ_eq_add_one, ih]
    conv_rhs => rw [← List.take_append_drop 16 b]
    exact (List.zipWith_append (by rw [hg, ht])).symm

theorem aesEnc_length (b : List Nat) : (aesEnc (natBytes 32 0) b).length = 16 := by
  have h : ((aesKeys (natBytes 32 0)).getD 14 []).length = 16 := by decide +kernel
  simp only [aesEnc, xorBytes, List.length_zipWith, h]; simp [aesShift]

/-- Deciphering undoes enciphering, for whole blocks under the key 0. -/
theorem gcmXor_twice (ctr : Nat) (b : List Byte) (hb : b.length % 16 = 0) : gcmXor 0 ctr (gcmXor 0 ctr b) = b := by
  have hj : ∀ c : List Nat, c.length = b.length → gcmCtr 0 (gcmIv ctr) c = xorBytes
      ((List.range (b.length / 16)).flatMap fun i => aesEnc (natBytes 32 0) (bigBytes 16 (gcmIv ctr * 2 ^ 32 + i + 2))) c := by
    intro c hc
    have hn : (c.length + 15) / 16 = b.length / 16 := by omega
    have := stream_joined (fun i => aesEnc (natBytes 32 0) (bigBytes 16 (gcmIv ctr * 2 ^ 32 + i + 2)))
      (fun _ => aesEnc_length _) (b.length / 16) 0 c (by omega)
    simp only [Nat.zero_add] at this
    show List.take _ _ = _
    rw [hn, show BitVec.toNat (0 : BitVec 256) = 0 from rfl, this, List.take_of_length_le]
    simp [xorBytes]
  generalize hk : (List.range (b.length / 16)).flatMap (fun i =>
    aesEnc (natBytes 32 0) (bigBytes 16 (gcmIv ctr * 2 ^ 32 + i + 2))) = ks at hj
  have hl : ks.length = b.length := by
    rw [← hk, List.length_flatMap]; simp [aesEnc_length]; omega
  simp only [gcmXor]
  rw [hj (b.map (·.toNat)) (by simp), hj _ (by simp [xorBytes, hl])]
  apply List.ext_getElem
  · simp [xorBytes, hl]
  · intro i h1 h2
    simp only [xorBytes, List.getElem_map, List.getElem_zipWith, BitVec.toNat_ofNat]
    apply BitVec.eq_of_getLsbD_eq
    intro j hj8
    simp only [BitVec.getLsbD, BitVec.toNat_ofNat, Nat.testBit_mod_two_pow, Nat.testBit_xor, hj8, decide_true,
      Bool.true_and]
    simp

theorem leBytes_length (n x : Nat) : (leBytes n x).length = n := by
  induction n generalizing x with
  | zero => rfl
  | succ n ih => simp [leBytes, ih]

/-- What opening a packet does, in the parts of its data: ciphertext, tag, counter, padding. -/
theorem open_parts (r : RxHalf) (k : Pkt) (a b c d : List Byte) (hk : k.data = a ++ (b ++ (c ++ d))) (hb : b.length = 16)
    (hc : c.length = 8) (hd : d.length = 40) :
    r.open_ k = if b ≠ sealTag r.key (leNat c) k a then none
      else (r.mark (leNat c)).map fun q => ({ k with tagf := false, data := gcmXor q.key (leNat c) a }, q) := by
  have hl : k.data.length - 64 = a.length := by simp [hk, hb, hc, hd]
  have ha : k.data.take a.length = a := by rw [hk, List.take_left]
  have hr : k.data.drop a.length = b ++ (c ++ d) := by rw [hk, List.drop_left]
  have h1 : (b ++ (c ++ d)).take 16 = b := List.take_left' hb
  have h2 : ((b ++ (c ++ d)).drop 16).take 8 = c := by rw [List.drop_left' hb, List.take_left' hc]
  simp only [RxHalf.open_, hl, ha, hr, h1, h2]

theorem sealTag_length (ctr : Nat) (k : Pkt) (b : List Byte) : (sealTag 0 ctr k b).length = 16 := by
  simp only [sealTag, gcmTag, List.length_map, xorBytes, List.length_zipWith]
  rw [show BitVec.toNat (0 : BitVec 256) = 0 from rfl, aesEnc_length]
  simp [bigBytes, natBytes]

/-- A fresh receive half opens the first packet sealed under its key (R320, R321). -/
theorem test_sealed_opens (k : Pkt) (h : k.tagf = false) (hb : k.data.length % 16 = 0) :
    ({} : RxHalf).open_ (sealWith 0 0 k) = some (k, { hi0 := 1 }) := by
  have hm : ({} : RxHalf).mark 0 = some { hi0 := 1 } := by decide +kernel
  have h0 : leNat (leBytes 8 0) = 0 := by decide
  have hd : (sealWith 0 0 k).data = gcmXor 0 0 k.data ++ (sealTag 0 0 (sealWith 0 0 k) (gcmXor 0 0 k.data) ++
      (leBytes 8 0 ++ List.replicate 40 0)) := by
    have hs : sealTag 0 0 (sealWith 0 0 k) (gcmXor 0 0 k.data) =
      sealTag 0 0 { k with tagf := true, data := gcmXor 0 0 k.data } (gcmXor 0 0 k.data) := rfl
    rw [hs, ← List.append_assoc, ← List.append_assoc]; rfl
  rw [open_parts _ _ _ _ _ _ hd (sealTag_length _ _ _) (leBytes_length _ _) (List.length_replicate ..), h0,
    show ({} : RxHalf).key = 0 from rfl, if_neg (by simp), hm]
  simp only [Option.map_some, gcmXor_twice 0 k.data hb]
  cases k; subst h; rfl

/-- A request of device 5, sealed, reaches the service open. -/
theorem takes_sealed (k : Pkt) (h : k.tagf = false) (hb : k.data.length % 16 = 0) (hs : k.srcDev = 5) :
    keyed5.takeMgmt (sealWith 0 0 k) = (opened5, some k) := by
  have ht : ∀ j, keyed5.takeHeld j = keyed5 := fun j => by rfl
  have hh : keyed5.holder.isNone = false := by decide +kernel
  have hk : keyed5.keyEntry true (sealWith 0 0 k).jobTag.toNat (sealWith 0 0 k).srcDev.toNat =
      some (0, { mgmt := true, peer := 5 }) := by
    have : (sealWith 0 0 k).srcDev.toNat = 5 := by rw [show (sealWith 0 0 k).srcDev = k.srcDev from rfl, hs]; rfl
    simp only [State.keyEntry, keyed5, this]; rfl
  have ho : keyed5.openMgmt (sealWith 0 0 k) = some (opened5, k) := by
    have : (sealWith 0 0 k).tagf = true := rfl
    simp only [State.openMgmt, this, if_true, State.openPkt, hk, test_sealed_opens k h hb]
    rfl
  simp only [State.takeMgmt, ht, hh, ho]
  rfl

theorem witness_HeartbeatsAttach :
    -- no holder, not opened, not of the upper pair, and counted: isolating, readmitting, neither
    (let k : Pkt := { op := 0x2D, srcDev := 5, addr := 1 }
     let j : Pkt := { k with srcDev := 6 }
     let u := below5.setFld Loc.glMgmtSts 1 0 2
     (State.reset.takeHeld k).holder = none ∧ (below5.takeHeld k).holder = some 0 ∧ (keyed5.takeHeld k).holder = some 0 ∧
      (keyed5.takeHeld k).openMgmt k = none ∧ ((below5.takeHeld k).openMgmt k).isSome = true ∧
      ((below5.takeHeld j).openMgmt j).isSome = true ∧ below5.isUpper j.srcDev.toNat = false ∧
      below5.isUpper k.srcDev.toNat = true ∧ below5.admits = true ∧ (below5.setFld Loc.glBootSts 3 0 8).admits = false ∧
      below5.fld Loc.glMgmtSts 1 0 ≠ 2 ∧ u.fld Loc.glMgmtSts 1 0 = 2 ∧ ((u.takeHeld k).openMgmt k).isSome = true ∧
      k.addr.toNat % 2 = 1 ∧ ({ k with addr := 0 } : Pkt).addr.toNat % 2 ≠ 1) ∧
    -- heartbeats of a manager
    (let sends (s : State) := s.fld Loc.glMgmtCfg 1 0 ≠ 0 ∧ s.flag Loc.glMgmtSts 2 = true ∧ s.mgmt.kickAt ≠ none
     let s := ((up.setFld Loc.glMgmtCfg 1 0 1).setFlag Loc.glMgmtSts 2 true).modMgmt fun m => { m with kickAt := some 0 }
     ¬ sends up ∧ sends s ∧ s.reaches (s.nextOf s.mgmt.hbSent (1000 * s.fld Loc.glMgmtHb 7 0))) ∧
    -- their loss
    (up.fld Loc.glMgmtSts 1 0 ≠ 1 ∧ below5.fld Loc.glMgmtSts 1 0 = 1 ∧ below5.topDevice = false ∧ below5.mgmt.topOk = false ∧
      (let s := below5.modMgmt fun m => { m with topOk := true }
       s.mgmt.topOk = true ∧ s.reaches (s.mgmt.hbAt + 10000 * s.fld Loc.glMgmtHb 15 8))) := by
  simp only [State.reaches]; decide +kernel

/-- Requests of the upper holder, device 5, sealed; of device 6, and of the partner, device 7. -/
theorem witness_RequestsAreAnswered :
    (keyed5.takeMgmt { op := 0x2E, srcDev := 5 }).2 = none ∧
    (let k : Pkt := { op := 0x2E, srcDev := 5, data := leBytes 64 200000 }
     let late : Pkt := { k with data := leBytes 64 0 }
     (keyed5.takeMgmt (sealWith 0 0 k) = (opened5, some k) ∧ keyed5.takeMgmt (sealWith 0 0 late) = (opened5, some late)) ∧
      opened5.fromHolder k = true ∧ opened5.admits = true ∧ leNat (k.data.take 8) % opened5.period = 0 ∧
      opened5.clk.count + 100000 ≤ leNat (k.data.take 8) ∧ opened5.fromHolder late = true ∧
      leNat (late.data.take 8) < opened5.clk.count + 100000 ∧ opened5.fromPartner k = false) ∧
    -- the partner's query and its refusal
    (let k : Pkt := { op := 0x2E, srcDev := 6 }
     (keyed5.takeMgmt k).2 = some k ∧ (keyed5.takeMgmt k).1.fromHolder k = false ∧
      (keyed5.takeMgmt k).1.mgmtServes k false [] = false ∧ (keyed5.takeMgmt k).1.mgmtServes k true [] = false) ∧
    (let k : Pkt := { op := 0x2E, srcDev := 7 }
     let h := keyed5.setFlag Loc.glMgmtSts 2 true
     (keyed5.takeMgmt k).2 = some k ∧ (keyed5.takeMgmt k).1.fromPartner k = true ∧
      (keyed5.takeMgmt k).1.flag Loc.glMgmtSts 2 = false ∧ (h.takeMgmt k).2 = some k ∧
      (h.takeMgmt k).1.flag Loc.glMgmtSts 2 = true ∧ (keyed5.takeMgmt k).1.mgmtServes k true [] = true) ∧
    (let k : Pkt := { op := 0x2F, srcDev := 7, opt := 4, status := 1 }
     let ends (u : State) := u.mgmt.pairAsked ≠ none ∧ u.fromPartner k = true ∧ mgCmd k = 4 ∧ mgMid k = u.mgmt.mid ∧ k.status = 1
     let s := keyed5.modMgmt fun m => { m with pairAsked := some 0 }
     (s.takeMgmt k).2 = some k ∧ ends (s.takeMgmt k).1 ∧ (keyed5.takeMgmt k).2 = some k ∧ ¬ ends (keyed5.takeMgmt k).1) ∧
    -- reads and writes of the holder: served, all applied, stopped at the first rejected
    (let w (v : Nat) : Pkt := { op := 0x2E, srcDev := 5, len := 7, nflit := 1, data := leBytes 4 (Loc.ocMcCtl 0) ++ leBytes 60 v }
     let e (v : Nat) := (List.range (min 32 (pktEntries (w v) 8))).map fun i => (i, pktWord (w v) (2 * i), pktWord (w v) (2 * i + 1))
     let x (v : Word) := opened5.writeReg .mgmt (barPlace (Loc.ocMcCtl 0)).1 (barPlace (Loc.ocMcCtl 0)).2 v
     keyed5.takeMgmt (sealWith 0 0 (w 267364)) = (opened5, some (w 267364)) ∧
      keyed5.takeMgmt (sealWith 0 0 (w 0xFFFFFFFF)) = (opened5, some (w 0xFFFFFFFF)) ∧
      opened5.mgmtServes (w 267364) false ((e 267364).map fun e => (e.2.1, some e.2.2)) = true ∧
      (opened5.mgmtWrites (e 267364)).2 = none ∧ (opened5.mgmtWrites (e 0xFFFFFFFF)).2 = some (1, 0) ∧
      (x 267364).get Loc.moRejTotal = opened5.get Loc.moRejTotal ∧
      (x 0xFFFFFFFF).get Loc.moRejTotal ≠ opened5.get Loc.moRejTotal) := by
  refine ⟨?_, ⟨⟨takes_sealed _ rfl rfl rfl, takes_sealed _ rfl rfl rfl⟩, ?_⟩, ?_, ?_, ?_,
    takes_sealed _ rfl rfl rfl, takes_sealed _ rfl rfl rfl, ?_⟩ <;> decide +kernel

theorem witness_LayoutsAreCommitted :
    (let w := (0 : Word).put 0 0 1
     let runs := owned.setFld (Loc.ptPfSts 1) 2 0 1
     let mute := (up.modSec fun x => { x with spires := 1 :: x.spires.drop 1 }).setFlag Loc.seSeSts 2 false
     let waits := up.modSec fun x => { x with layPend := some {} }
     let overlaps := up.modSec fun x => { x with tags := (0, 1) :: List.replicate 7 (0, 0) }
     (∀ s ∈ [up, runs, mute, waits, overlaps], s.accepts .pf Loc.seLayCtl w) ∧ wellFormedFor Loc.seLayCtl w ∧ w.bit 1 = false ∧
      up.accepts .pf Loc.seLayCtl (illFormed 0 1) ∧ (formCheck (locFields Loc.seLayCtl) (illFormed 0 1)).isSome = true ∧
      (let b := (2 : Word).put 0 0 1
       up.accepts .pf Loc.seLayCtl b ∧ wellFormedFor Loc.seLayCtl b ∧ b.bit 1 = true) ∧
      overlaps.layoutForm = false ∧ up.layoutForm = true ∧ up.layoutTags = true ∧ up.layoutStopped = true ∧ up.layoutEntropy = true ∧
      up.sec.layPend = none ∧ runs.layoutForm = true ∧ runs.layoutTags = true ∧ runs.layoutStopped = false ∧
      mute.layoutForm = true ∧ mute.layoutTags = true ∧ mute.layoutStopped = true ∧ mute.layoutEntropy = false ∧
      waits.layoutForm = true ∧ waits.layoutTags = true ∧ waits.layoutStopped = true ∧ waits.sec.layPend ≠ none) ∧
    (let w := (0 : Word).put 1 1 1
     let b := (1 : Word).put 1 1 1
     up.accepts .pf Loc.seLayCtl w ∧ wellFormedFor Loc.seLayCtl w ∧ w.bit 0 = false ∧
      up.accepts .pf Loc.seLayCtl b ∧ wellFormedFor Loc.seLayCtl b ∧ b.bit 0 = true ∧
      up.accepts .pf Loc.seLayCtl (illFormed 1 1) ∧ (formCheck (locFields Loc.seLayCtl) (illFormed 1 1)).isSome = true) := by
  simp only [State.accepts, wellFormedFor]; decide +kernel

/-- The security engine claimed by the host's physical function. -/
def claimed : State := up.setFld Loc.seSeSts 11 8 0

theorem witness_EngineIsClaimedAndStarts :
    -- claims and releases: free, one's own, another's, ill-formed
    (let w := (0 : Word).put 0 0 1
     let r := ((0 : Word).put 1 1 1).put 0 0 0
     let t := up.setFld Loc.seSeSts 11 8 2
     let other (s : State) := s.seClaim ≠ 15 ∧ s.seClaim ≠ fcode .pf
     wellFormedFor Loc.seSeClaim w ∧ wellFormedFor Loc.seSeClaim r ∧
      (∀ s ∈ [up, t, claimed], s.accepts .pf Loc.seSeClaim w ∧ s.accepts .pf Loc.seSeClaim r) ∧
      ¬ other up ∧ ¬ other claimed ∧ other t ∧
      (let i := illFormed 0 1
       up.accepts .pf Loc.seSeClaim i ∧ up.accepts .pf Loc.seSeClaim (i.put 0 0 0) ∧
        (formCheck (locFields Loc.seSeClaim) i).isSome = true ∧ (formCheck (locFields Loc.seSeClaim) (i.put 0 0 0)).isSome = true)) ∧
    (up.seClaim = 15 ∧ claimed.seClaim ≠ 15 ∧ claimed.seBusy = false ∧ claimed.reaches (claimed.sec.cmdAt + 10000000)) ∧
    -- commands: claimed by another, ill-formed, early, running, free; too narrow
    (∀ c ∈ [1, 2, 3, 4, 5, 6],
      let w := (0 : Word).put 3 0 c
      let i := illFormed 3 3 |>.put 3 0 c
      let runs := claimed.setFlag Loc.seSeSts 0 true
      let other := up.setFld Loc.seSeSts 11 8 2
      (∀ s ∈ [up, claimed, runs, other], s.accepts .pf Loc.seSeCmd w) ∧ wellFormedFor Loc.seSeCmd w ∧
        claimed.accepts .pf Loc.seSeCmd i ∧ (formCheck (locFields Loc.seSeCmd) i).isSome = true ∧
        other.seClaim ≠ 15 ∧ other.seClaim ≠ fcode .pf ∧ up.seClaim = 15 ∧ claimed.seClaim = fcode .pf ∧
        claimed.pfState (w.bits 10 8) = 0 ∧ claimed.seBusy = false ∧ runs.seClaim = fcode .pf ∧ runs.seBusy = true) ∧
    (claimed.setFld (Loc.ptPfSts 0) 2 0 1).pfState (((0 : Word).put 3 0 6).bits 10 8) ≠ 0 ∧
    -- what a command for the tick comes to
    (let r : SeRun := { cmd := 6, tag := 1, func := 2 }
     let mine (r : SeRun) := r.func = 0 ∨ r.func = r.tag % 8 + 1
     let mute := owned.setFlag Loc.seSeSts 2 false
     ¬ mine { r with func := 3 } ∧ mine r ∧ up.defined 1 = false ∧ owned.defined 1 = true ∧ mute.defined 1 = true ∧
      mute.flag Loc.seSeSts 2 = false ∧ (owned.setFlag Loc.seSeSts 2 true).flag Loc.seSeSts 2 = true) ∧
    (let s : State := { owned with pairKeys := [(0, some { tag := 0, peer := 5 })] }
     s.keyOwner 3 false 0 = false ∧ s.keyOwner 0 false 0 = true ∧ s.keyEntry false 0 4 = none ∧
      s.keyEntry false 0 5 = some (0, { tag := 0, peer := 5 })) := by
  refine ⟨?_, ?_, ?_, ?_, ?_, ?_⟩ <;> (try simp only [State.accepts, wellFormedFor, State.reaches]) <;> decide +kernel

theorem witness_EngineEndsWithKeys :
    -- running commands: without a belfry, before the tick, over
    (let r : SeRun := { cmd := 4 }
     let s := claimed.modSec fun x => { x with run := some r }
     let over_ (s : State) (r : SeRun) := s.holder ≠ none ∧ (r.res ≠ 0 ∨ s.ticked r = true)
     up.sec.run = none ∧ s.sec.run = some r ∧ over_ s r ∧ ¬ over_ (s.setRole 0 1) r ∧
      (let e : SeRun := { cmd := 6, tag := 1 }
       let t := (claimed.modSec fun x => { x with endDue := [1], run := some e })
       t.sec.run = some e ∧ ¬ over_ t e) ∧ over_ s { r with cmd := 1, res := 2 }) ∧
    -- older keys: none, of an unused new key, to end
    (let k : PairKey := {}
     let l : PairKey := { oldEnd := some 9 }
     let s : State := { up with pairKeys := [(0, some k), (1, some l)] }
     tget none up.pairKeys (0 : Fin 4096) = none ∧ tget none s.pairKeys (0 : Fin 4096) = some k ∧ k.oldEnd = none ∧
      tget none s.pairKeys (1 : Fin 4096) = some l ∧ l.oldEnd = some 9 ∧ s.reaches 9) ∧
    -- exchanges: not the function's, without an entry, without entropy, with all; each check of a blob
    (let s := claimed.setFlag Loc.seSeSts 2 true
     let mute := claimed.setFlag Loc.seSeSts 2 false
     let full : State := { s with pairKeys := (List.range 4096).map fun i => (i, some { tag := 1, peer := i }) }
     let r : SeRun := { cmd := 1 }
     r.res = 0 ∧ s.keyOwner 3 false 0 = false ∧ s.keyOwner r.func r.mgmt r.tag = true ∧ s.keySlot false 0 r.peer = some 0 ∧
      full.keySlot false 0 r.peer = none ∧ s.flag Loc.seSeSts 2 = true ∧ mute.flag Loc.seSeSts 2 ≠ true ∧ mute.keySlot false 0 r.peer ≠ none ∧
      s.blobCheck { r with cmd := 2 } 1 2 [] ≠ 0 ∧ s.blobForm { r with cmd := 2 } 1 = false ∧
      (let b := (1 :: List.replicate 7 0) ++ leBytes 2 s.ownDev ++ List.replicate 4918 0
       s.blobForm { r with cmd := 2, input := b } 1 = true)) ∧
    -- offers: none, lost, outstanding
    (let mine := fun (o : KxOffer) => o.mgmt == false && o.tag == 0 && o.peer == 0
     let s (o : KxOffer) : State := claimed.modSec fun x => { x with offers := [o] }
     claimed.sec.offers.find? mine = none ∧ (s {}).sec.offers.find? mine = some {} ∧ ({} : KxOffer).lost = false ∧
      (s { lost := true }).sec.offers.find? mine = some { lost := true }) := by
  refine ⟨?_, ?_, ?_, ?_⟩ <;> (try simp only [State.reaches]) <;> decide +kernel

/-- A blob of a management exchange that passes all three checks, where its signature is sound. -/
theorem witness_blobPasses :
    let b : List Byte := (2 :: List.replicate 7 0) ++ leBytes 2 claimed.ownDev ++ List.replicate 4918 0
    let r : SeRun := { cmd := 2, mgmt := true, input := b }
    claimed.keyOwner r.func r.mgmt r.tag = true ∧ claimed.keySlot true 0 r.peer = some 0 ∧
    (Config.falconOk (slice b 1632 1793) (b.take 3584) (slice b 3584 1280) = true → claimed.blobCheck r 1 2 [] = 0) := by
  refine ⟨by decide +kernel, by decide +kernel, fun h => ?_⟩
  simp only [State.blobCheck, List.nil_append, h, if_true]
  decide +kernel

theorem witness_ReportsAndSessionsRun :
    (let w := (0 : Word).put 0 0 1
     let busy := up.setFlag Loc.seAttSts 16 true
     up.accepts .pf Loc.seAttCmd w ∧ busy.accepts .pf Loc.seAttCmd w ∧ wellFormedFor Loc.seAttCmd w ∧
      up.accepts .pf Loc.seAttCmd (illFormed 0 1) ∧ (formCheck (locFields Loc.seAttCmd) (illFormed 0 1)).isSome = true ∧
      up.flag Loc.seAttSts 16 = false ∧ busy.flag Loc.seAttSts 16 = true ∧ up.holder ≠ none ∧ (busy.setRole 0 1).holder = none) ∧
    (let begun := up.modFn 0 fun x => { x with spdm := 4 }
     fnIdx .mgmt = none ∧ fnIdx .pf = some 0 ∧ fnIdx (.vf 7) = some 8 ∧ up.step1Over = true ∧ State.reset.step1Over = false ∧
      (∀ k ∈ [1, 2, 3, 4], (up.fn 0).spdm < k ∧ k ≤ (begun.fn 0).spdm)) := by
  simp only [State.accepts, wellFormedFor]; decide +kernel

theorem witness_ErrorsAreLogged :
    -- the fault service: nothing to do, merging, a record of its own in a log with room and in a full one
    (let e : ErrEntry := { page := 6, code := 0x14 }
     let s := up.modFaults fun f => { f with queues := [(6, [e])] }
     let t := s.modFaults fun f => { f with log := [{ e := e, seq := 1 }] }
     let full := s.modFaults fun f => { f with log := List.replicate 256 { e := { e with code := 1 } } }
     up.nextEntry = none ∧ (s.setRole 0 1).holder = none ∧ s.holder ≠ none ∧ s.nextEntry = some e ∧ mergePlace s.faults.log e = none ∧
      s.faults.log.length < 256 ∧ e.cls ≤ 3 ∧ t.nextEntry = some e ∧ t.holder ≠ none ∧ mergePlace t.faults.log e = some 0 ∧
      full.nextEntry = some e ∧ mergePlace full.faults.log e = none ∧ 256 ≤ full.faults.log.length) ∧
    -- acknowledging and clearing
    (let w := (0 : Word).put 0 0 1
     let b := (2 : Word).put 0 0 1
     up.accepts .pf Loc.glLogAck w ∧ wellFormedFor Loc.glLogAck w ∧ w.bit 1 = false ∧ up.accepts .pf Loc.glLogAck b ∧
      wellFormedFor Loc.glLogAck b ∧ b.bit 1 = true ∧ up.accepts .pf Loc.glLogAck (illFormed 0 1) ∧
      (formCheck (locFields Loc.glLogAck) (illFormed 0 1)).isSome = true) ∧
    (let w := (0 : Word).put 1 1 1
     let b := (1 : Word).put 1 1 1
     up.accepts .pf Loc.glLogAck w ∧ wellFormedFor Loc.glLogAck w ∧ w.bit 0 = false ∧ up.accepts .pf Loc.glLogAck b ∧
      wellFormedFor Loc.glLogAck b ∧ b.bit 0 = true ∧ up.accepts .pf Loc.glLogAck (illFormed 1 1) ∧
      (formCheck (locFields Loc.glLogAck) (illFormed 1 1)).isSome = true) ∧
    -- timeouts: of the fabric, with copies and without; inside; of a spire's own message
    (let x : Txn := { seq := 65535 }
     let s (x : Txn) : State := up.modOculus 1 fun o => { o with txns := [x] }
     up.txn 65535 = none ∧ (s x).txn 65535 = some x ∧ x.copies = [] ∧
      (s x).reaches (x.opened + 1000000 * (s x).fld Loc.glFaultCtl 17 10) ∧
      (let y : Txn := { x with copies := [{}] }
       (s y).txn 65535 = some y ∧ y.copies ≠ [])) ∧
    (let c : Call := { st := 4, dst := 3, tid := 65535 }
     let s : State := { up with calls := [c] }
     up.callAt 4 65535 = none ∧ s.callAt 4 65535 = some c ∧ s.reaches (c.sent + 10000 * s.fld Loc.glFaultCtl 9 0)) ∧
    (let m : OutMsg := { id := 65535 }
     let s (m : OutMsg) : State := sp0 up fun sp => { sp with msgs := [m] }
     (up.spire 0).msg 65535 = none ∧ ((s m).spire 0).msg 65535 = some m ∧ m.dev = none ∧ m.dst = 0 ∧
      (s m).reaches (m.sent + 10000 * (s m).fld Loc.glFaultCtl 9 0) ∧
      (let y : OutMsg := { m with dst := 1 }
       ((s y).spire 0).msg 65535 = some y ∧ y.dst ≠ 0)) ∧
    (let s := (up.setFlag Loc.glFaultSts 0 true).setFlag Loc.glFaultCtl 18 true
     up.flag Loc.glFaultSts 0 = false ∧ s.flag Loc.glFaultSts 0 = true ∧ s.flag Loc.glFaultCtl 18 = true ∧
      s.reaches (s.faults.recoveryAt + 100000000)) := by
  refine ⟨?_, ?_, ?_, ?_, ?_, ?_, ?_⟩ <;> (try simp only [State.accepts, wellFormedFor, State.reaches]) <;> decide +kernel

/-- The requests of a reset that RESET_CTL's word c asks: a target out of range, barred ones, those inside a reset, and sound ones. -/
theorem witness_ResetsAreAskedAndRun :
    (∀ c ∈ [1, 2, 3, 4, 5, 6, 7],
      let w := ((8 : Word).put 31 31 1).put 2 0 c
      let i := (illFormed 31 31).put 2 0 c |>.put 31 31 1
      owned.accepts .pf Loc.glResetCtl w ∧ wellFormedFor Loc.glResetCtl w ∧ w.bits 7 3 = 1 ∧
        owned.accepts .pf Loc.glResetCtl i ∧ (formCheck (locFields Loc.glResetCtl) i).isSome = true ∧
        (c < 3 ∨ w.bits 7 3 < [2, 16, 8, 8, 32].getD (c - 3) 0) ∧ owned.defined 1 = true ∧
        (c = 3 → owned.role 1 ≠ 3) ∧ owned.halved = false ∧ owned.power.tripped.contains 1 = false ∧
        owned.insideReset c 1 = false) ∧
    (let w (c v : Nat) : Word := Word.put (Word.put (BitVec.ofNat 32 (8 * v)) 31 31 1) 2 0 c
     (∀ c ∈ [3, 4, 5, 6, 7], up.accepts .pf Loc.glResetCtl (w c 31) ∧ wellFormedFor Loc.glResetCtl (w c 31) ∧
       ([2, 16, 8, 8, 32].getD (c - 3) 0 ≤ (w c 31).bits 7 3 ∨ c = 7)) ∧ up.defined ((w 6 1).bits 7 3) = false ∧
      up.role ((w 3 0).bits 7 3) = 3 ∧ (up.modPower fun x => { x with tripped := [5] }).power.tripped.contains ((w 4 5).bits 7 3) = true ∧
      (∀ c ∈ [3, 4, 5, 7], (up.modFaults fun f => { f with resets := [{ scope := c, target := 1, phase := 2 }] }).insideReset c 1 = true)) ∧
    -- the reset of a plinth: with empty retry buffers, and with others at its limit
    (let r : Reset := { scope := 3, phase := 2 }
     let s := up.modFaults fun f => { f with resets := [r] }
     let t := s.modLink 0 1 0 fun x => { x with retry := [{}] }
     let idle (s : State) : Bool := (s.links.filter fun x => x.1 % 4 / 2 == r.target).all fun x => x.2.retry.isEmpty
     up.faults.resets.find? (fun x => x.scope == 3 && x.phase == 2) = none ∧ s.faults.resets.find? (fun x => x.scope == 3 && x.phase == 2) = some r ∧
      t.faults.resets.find? (fun x => x.scope == 3 && x.phase == 2) = some r ∧ idle s = true ∧ idle t = false ∧ t.reaches (r.since + 20000)) ∧
    -- the return of a reset: of each scope; its spires back, and not
    (up.faults.resets.find? (fun x => x.phase == 3) = none ∧
      (∀ c ∈ [3, 4, 5, 7],
        let r : Reset := { scope := c, phase := 3 }
        (up.modFaults fun f => { f with resets := [r] }).faults.resets.find? (fun x => x.phase == 3) = some r)) ∧
    (let r : Reset := { scope := 4, phase := 3 }
     let s := sp0 (up.modFaults fun f => { f with resets := [r] }) fun sp => { sp with out := 1 }
     let back (s : State) := (s.resetSpires r).foldl (fun s n => if (s.spire n).out = 1 then s.spireBack n (testOf [] n) else s) s
     (∀ n ∈ s.resetSpires r, ((back s).spire n).out = 0) ∧
      (∃ n ∈ s.resetSpires r, ((back (s.modPower fun p => { p with tripped := [0] })).spire n).out ≠ 0)) ∧
    -- RESET_N: a level that the input shows, one that it takes, one that chatters
    (let at_ (s : State) := lget 0 s.start.edgeAt 0 + 1000 * s.fld Loc.glSbCfg 7 0 0
     let u (s : State) (high : Bool) : State := (State.setFlag { s.atTime (at_ s) with start := { (s.atTime (at_ s)).start with
       edgeAt := (s.atTime (at_ s)).start.edgeAt.set 0 (s.atTime (at_ s)).clk.elapsed } } Loc.glSbSts 0 high 0).addSat Loc.glSbSts 31 16 1 0
     let same (s : State) (high : Bool) := (s.atTime (at_ s)).flag Loc.glSbSts 0 0 = high ∧ (s.atTime (at_ s)).flag Loc.glSbSts 1 0 ≠ high
     let low := (up.setFlag Loc.glSbSts 0 false 0).setFlag Loc.glSbSts 1 true 0
     let high := (up.setFlag Loc.glSbSts 0 true 0).setFlag Loc.glSbSts 1 false 0
     let wild (s : State) := s.setFlag Loc.glSbSts 2 true 0
     up.reaches (at_ up) ∧ same low false ∧ ¬ same high false ∧ same high true ∧ ¬ same low true ∧
      (u high false).chattering 0 = false ∧ (u low true).chattering 0 = false ∧ ¬ same (wild high) false ∧ (u (wild high) false).chattering 0 = true ∧
      ¬ same (wild low) true ∧ (u (wild low) true).chattering 0 = true) := by
  refine ⟨?_, ?_, ?_, ?_, ?_, ?_⟩ <;> (try simp only [State.accepts, wellFormedFor, State.reaches]) <;> decide +kernel

theorem witness_StartUpProceeds :
    -- steps: under way, held and not; each step's condition met and missed
    (let at9 := State.reset.setFld Loc.glBootSts 3 0 9
     let attached := (at9.put Loc.glMgmtUpA 0x10005).setFld Loc.glMgmtSts 1 0 1
     let apart := at9.put Loc.glMgmtUpA 0x10005
     let waits := at9.setPortState 0 2
     let dark := State.reset.setFld Loc.glBootSts 3 0 4
     let lit := (dark.setBay 0 3).setBay 1 3
     let join := State.reset.setFld Loc.glBootSts 3 0 8
     let runs (s : State) := s.stepState = 0 ∨ (s.stepState = 3 ∧ s.step_ = 4)
     ¬ runs (State.reset.setFld Loc.glBootSts 5 4 1) ∧ runs at9 ∧ runs (dark.setFld Loc.glBootSts 5 4 3) ∧
      (∀ k ∈ [0, 1, 2, 3, 4, 5, 6, 7, 8, 9, 10], (State.reset.setFld Loc.glBootSts 3 0 k).step_ = k ∧ runs (State.reset.setFld Loc.glBootSts 3 0 k)) ∧
      State.reset.imagesPass {} = true ∧ State.reset.imagesPass { imagesOk := false } = false ∧
      lit.step_ = 4 ∧ lit.bothLit = true ∧ dark.bothLit = false ∧
      (join.setFld Loc.glTimeSts 2 0 2).timeState = 2 ∧ (join.setFld Loc.glTimeSts 2 0 2).step_ = 8 ∧ join.timeState ≠ 2 ∧
      attached.hasUpper = true ∧ attached.fld Loc.glMgmtSts 1 0 = 1 ∧ apart.hasUpper = true ∧ apart.fld Loc.glMgmtSts 1 0 ≠ 1 ∧
      at9.hasUpper = false ∧ at9.portsSettled = true ∧ waits.hasUpper = false ∧ waits.portsSettled = false ∧
      waits.reaches (waits.start.stepAt + 1000000000)) ∧
    -- limits: of each step, of a join that is late already and of one that is not
    (let runs (s : State) := (s.stepState = 0 ∧ 1 ≤ s.step_ ∧ s.step_ ≤ 9) ∨ (s.stepState = 3 ∧ s.step_ = 4)
     let t (s : State) := s.atTime (s.start.stepAt + stepLimit s.step_)
     let join := (State.reset.setFld Loc.glBootSts 3 0 8).setFld Loc.glTimeSts 2 0 1
     let late := join.modTime fun x => { x with late := true }
     ¬ runs (State.reset.setFld Loc.glBootSts 3 0 0) ∧
      (∀ k ∈ [1, 2, 3, 4, 5, 6, 7, 8, 9],
        let s := State.reset.setFld Loc.glBootSts 3 0 k
        runs s ∧ s.reaches (s.start.stepAt + stepLimit s.step_) ∧ (t s).step_ = k ∧ (t s).time.late = false ∧
          ((t s).startCode 2 0xB3 (t s).step_ 0).imagesPass {} = true ∧
          ((t s).startCode 2 0xB3 (t s).step_ 0).imagesPass { imagesOk := false } = false) ∧
      runs join ∧ (t join).step_ = 8 ∧ ((t join).startCode 2 0xB3 (t join).step_ 0).timeState = 1 ∧
      ((t join).startCode 2 0xB3 (t join).step_ 0).time.late = false ∧ runs late ∧ (t late).step_ = 8 ∧ (t late).time.late = true ∧
      late.reaches (late.start.stepAt + stepLimit late.step_) ∧ join.reaches (join.start.stepAt + stepLimit join.step_)) := by
  refine ⟨?_, ?_⟩ <;> simp only [State.reaches] <;> decide +kernel

theorem witness_HostLinkAndFreshMemory :
    ({} : StepResult).chansFailed = [] ∧ up.keys.length = 9 ∧
    -- START_CTL: outside the pause and in it, with the other bit and without, ill-formed
    (let c := (0 : Word).put 0 0 1
     let v := (0 : Word).put 1 1 1
     let b := (1 : Word).put 1 1 1
     let pause := up.setFld Loc.glBootSts 5 4 1
     (∀ s ∈ [up, pause], s.accepts .pf Loc.glStartCtl c ∧ s.accepts .pf Loc.glStartCtl v ∧ s.accepts .pf Loc.glStartCtl b) ∧
      wellFormedFor Loc.glStartCtl c ∧ wellFormedFor Loc.glStartCtl v ∧ wellFormedFor Loc.glStartCtl b ∧ v.bit 0 = false ∧ b.bit 0 = true ∧
      up.stepState ≠ 1 ∧ pause.stepState = 1 ∧ up.accepts .pf Loc.glStartCtl (illFormed 0 1) ∧ up.accepts .pf Loc.glStartCtl (illFormed 1 1) ∧
      (formCheck (locFields Loc.glStartCtl) (illFormed 0 1)).isSome = true ∧ (formCheck (locFields Loc.glStartCtl) (illFormed 1 1)).isSome = true) ∧
    (let s := up.setFld Loc.glBootSts 3 0 8
     up.accepts .pf Loc.glFabId 0 ∧ wellFormedFor Loc.glFabId 0 ∧ 9 ≤ up.step_ ∧ s.accepts .pf Loc.glFabId 0 ∧ s.start.fabric = false ∧
      s.step_ < 9 ∧ up.accepts .pf Loc.glFabId 0xFFFFFFFF ∧ (formCheck (locFields Loc.glFabId) 0xFFFFFFFF).isSome = true) ∧
    -- the host link, configuration requests, a function-level reset
    (State.reset.power.closed = false ∧ up.power.closed = true ∧ up.start.resetN = false ∧ up.fld Loc.glHostSts 2 0 = 0 ∧
      (up.put Loc.glHostSts 0x46).fld Loc.glHostSts 2 0 ≠ 0) ∧
    (let s := up.put Loc.glBootSts 1
     let on (s : State) := s.power.closed = true ∧ s.start.resetN = false
     let open_ (s : State) := s.step1Over = true ∨ s.start.since + 1000000000 ≤ s.clk.elapsed
     fnIdx .mgmt = none ∧ ¬ on State.reset ∧ fnIdx .pf = some 0 ∧ on up ∧ open_ up ∧ on s ∧ ¬ open_ s ∧ ({ f := .pf } : ConfigAccess).val = none ∧
      ({ f := .pf, val := some 3 } : ConfigAccess).val = some 3) ∧
    ((up.abortMbox 0 0 false true).put (Loc.mbMbSts 0) 0).seClaim ≠ 0 ∧
    ((claimed.abortMbox 0 0 false true).put (Loc.mbMbSts 0) 0).seClaim = 0 := by
  refine ⟨?_, ?_, ?_, ?_, ?_, ?_, ?_, ?_⟩ <;> (try simp only [State.accepts, wellFormedFor]) <;> decide +kernel

theorem witness_WindowReachesMemory :
    (up.barTwo .mgmt = none ∧ owned.barTwo .pf = some 0 ∧ owned.windowOpen = true ∧
      (let s := up.setFld Loc.glBootSts 3 0 6
       s.barTwo .pf = some 0 ∧ s.windowOpen = false) ∧
      -- refused to a function and not
      owned.barTwo (.vf 0) = some 1 ∧ 0 + 4 ≤ windowSize ∧ owned.windowRefusal 1 (owned.windowAddr 1 0) 4 = some 0 ∧
      owned.windowRefusal 0 (owned.windowAddr 0 0) 4 = none) ∧
    -- the mailbox page: reads, writes of each width; other offsets
    (let mailbox (offset len : Nat) := mailOffset ≤ offset ∧ offset + len ≤ mailOffset + 4096
     let o := mailOffset + 0x40
     mailbox o 4 ∧ windowSize < o + 4 ∧ ¬ mailbox (mailOffset + 4094) 4 ∧ windowSize < mailOffset + 4094 + 4 ∧
      owned.accepts .pf ((0x180 + 0) * 4096 + (o - mailOffset)) (BitVec.ofNat 32 (leNat (([0, 0] : List Byte).take 4))) ∧
      owned.pageOpen .pf (0x180 + 0) = true ∧ fowns .pf (owned.pageOwner (0x180 + 0)) = true) ∧
    -- the last line of an access
    (∀ (r : Bool), let o : HostOp := { id := 3, read := r, left := 1 }
     (({ owned with hostOps := [o] } : State).hostOp 3 = some o ∧ o.left = 1 ∧ o.read = r)) := by
  refine ⟨?_, ?_, ?_⟩ <;> (try simp only [State.accepts]) <;> decide +kernel

theorem witness_MailboxesCarryWords :
    -- words for the belfry: aborted, skipped, with room, full; too narrow and too wide
    (let full := up.modMbox 0 fun x => { x with up := List.replicate 16 0, down := List.replicate 16 0 }
     let skips := up.modMbox 0 fun x => { x with skip := 2 }
     let aborted := (up.setRole 0 1).modMgmt fun m => { m with stoppedAt := some 0 }
     (∀ s ∈ [up, full, skips, aborted], s.accepts .pf (Loc.mbMbTxData 0) 0) ∧ aborted.mailAborted = true ∧ up.mailAborted = false ∧
      skips.mailAborted = false ∧ (skips.mbox 0).skip ≠ 0 ∧ (up.mbox 0).skip = 0 ∧ (up.mbox 0).up.length < 16 ∧ full.mailAborted = false ∧
      (full.mbox 0).skip = 0 ∧ 16 ≤ (full.mbox 0).up.length ∧ up.pageOpen .pf 0x180 = true ∧ fowns .pf (up.pageOwner 0x180) = true ∧
      State.reset.pageOpen .pf 0x180 = false ∧ fowns (.vf 0) (up.pageOwner 0x180) = false ∧ fnIdx (.vf 0) = some 1 ∧ fnIdx .mgmt = none ∧
      up.pageOpen (.vf 0) 0x180 = true ∧ up.pageOpen .mgmt 0x180 = true ∧ fowns .mgmt (up.pageOwner 0x180) = false) ∧
    -- words of a sequencer and of the belfry
    (let out := sp0 up fun sp => { sp with out := 1 }
     let full := up.modMbox 9 fun x => { x with up := List.replicate 16 0, down := List.replicate 16 0 }
     let serves (s : State) (m : Nat) := s.holder ≠ none ∧ (m < 9 ∨ s.seqMail m = true)
     out.seqMail 9 = false ∧ up.seqMail 9 = true ∧ (up.mbox 9).up.length < 16 ∧ full.seqMail 9 = true ∧ 16 ≤ (full.mbox 9).up.length ∧
      ¬ serves (up.setRole 0 1) 0 ∧ serves up 0 ∧ (up.mbox 0).down.length < 16 ∧ serves full 9 ∧ 16 ≤ (full.mbox 9).down.length) ∧
    (let w := (0 : Word).put 0 0 1
     up.accepts .pf (Loc.mbMbRxPop 0) w ∧ wellFormedFor (Loc.mbMbRxPop 0) w ∧ up.accepts .pf (Loc.mbMbRxPop 0) (illFormed 0 1) ∧
      (formCheck (locFields (Loc.mbMbRxPop 0)) (illFormed 0 1)).isSome = true) ∧
    -- doorbells and flushes
    (up.accepts .pf (Loc.mbMbCtl 0) 1 ∧ wellFormedFor (Loc.mbMbCtl 0) 1 ∧ up.accepts .pf (Loc.mbMbCtl 0) 2 ∧
      wellFormedFor (Loc.mbMbCtl 0) 2 ∧ up.accepts .pf (Loc.mbMbCtl 0) 4 ∧ wellFormedFor (Loc.mbMbCtl 0) 4 ∧
      (up.setRole 0 1).holder = none ∧ up.holder ≠ none) := by
  refine ⟨?_, ?_, ?_, ?_⟩ <;> (try simp only [State.accepts, wellFormedFor]) <;> decide +kernel

/-- `s` with a message of mailbox m at the head of its queue. -/
def sent (s : State) (m cmd : Nat) (args : List Word) : State :=
  s.modMbox m fun x => { x with up := mailHead cmd args.length 7 :: args }

/-- `sent`, when the belfry has taken the message. -/
def taken (s : State) (m cmd : Nat) (args : List Word) : State := (sent s m cmd args).mailTaken m (args.length + 1)

/-- The message heads its queue and the function may give the command. -/
def served (s : State) (m cmd : Nat) (args : List Word) : Bool :=
  (sent s m cmd args).mailHeads m cmd 7 args && ((taken s m cmd args).mailStatus m cmd).isNone

/-- What a result of a register's rule is: taken, or refused with its code. -/
def resultCode : WR → Nat
  | .ok _ => 0
  | .error k => k

theorem witness_MessagesAreAnswered :
    -- not at the head; at the head and not to be given now; the command's words
    (up.mailHeads 0 1 7 [] = false ∧ (sent (up.setFlag Loc.glBootSts 6 true) 0 6 [0, 1]).mailHeads 0 6 7 [0, 1] = true ∧
      (taken (up.setFlag Loc.glBootSts 6 true) 0 6 [0, 1]).mailStatus 0 6 = some 1 ∧ (sent up 1 4 [1, 3]).mailHeads 1 4 7 [1, 3] = true ∧
      (taken up 1 4 [1, 3]).mailStatus 1 4 = some 3) ∧
    (served up 0 1 [] = true ∧ served up 0 2 [1, 0, 5] = true ∧ imageType 1 = true ∧ served up 0 2 [5, 0, 5] = true ∧ imageType 5 = false ∧
      served up 0 3 [1, 0] = true ∧ (taken up 0 3 [1, 0]).imageOk 1 0 = false ∧ served up 0 3 [5, 0] = true ∧ served up 0 4 [1, 3] = true ∧
      tget 0 (taken up 0 4 [1, 3]).store.svn 1 ≤ 3 % 2 ^ 32 ∧ served up 0 4 [5, 3] = true ∧
      (let s : State := { up with store := { up.store with svn := [(1, 4)] } }
       served s 0 4 [1, 3] = true ∧ 3 % 2 ^ 32 < tget 0 (taken s 0 4 [1, 3]).store.svn 1)) ∧
    -- WELL_REMAP: out of range, another's spire, out of service, taken, refused
    (let w := remapWord 0 0
     served up 0 5 [16, 0, 0] = true ∧ served up 1 5 [0, 0, 0] = true ∧ (taken up 1 5 [0, 0, 0]).spireOwner 0 ≠ 1 - 1 ∧ served owned 2 5 [0, 0, 0] = true ∧
      (taken owned 2 5 [0, 0, 0]).spireOwner 0 = 2 - 1 ∧ served up 0 5 [0, 0, 0] = true ∧ ((taken up 0 5 [0, 0, 0]).spire 0).out = 0 ∧
      resultCode ((taken up 0 5 [0, 0, 0]).spRemapOp 0 w) = 0 ∧
      (let s := sp0 up fun sp => { sp with out := 1 }
       served s 0 5 [0, 0, 0] = true ∧ ((taken s 0 5 [0, 0, 0]).spire 0).out ≠ 0) ∧
      (let s := match up.spRemapOp 0 w with | .ok t => t | .error _ => up
       served s 0 5 [0, 0, 0] = true ∧ resultCode ((taken s 0 5 [0, 0, 0]).spRemapOp 0 w) ≠ 0)) ∧
    -- LOG_READ of no record and of some; SET_DEV_ID before and after step 9
    (served up 0 6 [0, 0] = true ∧ served up 0 6 [0, 31] = true ∧ served up 0 7 [3] = true ∧
      resultCode ((taken up 0 7 [3]).fabIdOp ((3 : Word).put 16 16 1)) ≠ 0 ∧
      (let s := up.setFld Loc.glBootSts 3 0 8
       served s 0 7 [3] = true ∧ resultCode ((taken s 0 7 [3]).fabIdOp ((3 : Word).put 16 16 1)) = 0)) := by
  refine ⟨?_, ?_, ?_, ?_⟩ <;> decide +kernel

theorem witness_SidebandAnswers :
    -- edges: shown already, taken, chattering
    (let at_ (s : State) := lget 0 s.start.edgeAt 5 + 1000 * s.fld Loc.glSbCfg 7 0 5
     let t (s : State) := s.atTime (at_ s)
     let shown (s : State) (high : Bool) := (t s).flag Loc.glSbSts 0 5 = high ∧ (t s).flag Loc.glSbSts 1 5 ≠ high
     let u (s : State) (high : Bool) : State := (State.setFlag { t s with start := { (t s).start with
       edgeAt := (t s).start.edgeAt.set 5 (t s).clk.elapsed } } Loc.glSbSts 0 high 5).addSat Loc.glSbSts 31 16 1 5
     let c := up.setFlag Loc.glSbSts 2 true 5
     let l := (up.setFlag Loc.glSbSts 0 false 5).setFlag Loc.glSbSts 1 true 5
     let h := (up.setFlag Loc.glSbSts 0 true 5).setFlag Loc.glSbSts 1 false 5
     up.reaches (at_ up) ∧ c.reaches (at_ c) ∧ shown l false ∧ shown h true ∧ ¬ shown h false ∧ ¬ shown l true ∧ ¬ shown c true ∧
      (u h false).chattering 5 = false ∧ (u l true).chattering 5 = false ∧ (u c true).chattering 5 = true) ∧
    -- chatter: not yet, beginning, over
    (let c (i : Nat) := up.setFlag Loc.glSbSts 2 true i
     (∀ i < 10, up.chattering i = false ∧ up.fld Loc.glSbCfg 15 8 i < 256 ∧ ¬(up.fld Loc.glSbCfg 15 8 i < 0) ∧ (c i).chattering i = true ∧
       (c i).reaches (lget 0 (c i).start.edgeAt i + 10000000))) ∧
    (let s := (up.setFld Loc.glSbCfg 23 16 1 5).setFlag Loc.glSbSts 1 true 5
     let due (s : State) := s.fld Loc.glSbCfg 23 16 5 ≠ 0 ∧ s.flag Loc.glSbSts 1 5 = true ∧ s.flag Loc.glSbSts 3 5 = false
     ¬ due (up.setFld Loc.glSbCfg 23 16 0 5) ∧ due s ∧ s.reaches (lget 0 s.start.edgeAt 5 + s.fld Loc.glSbCfg 23 16 5 * 1000000000)) ∧
    up.power.closed = true ∧ State.reset.power.closed = false := by
  refine ⟨?_, ?_, ?_, ?_⟩ <;> (try simp only [State.reaches]) <;> decide +kernel

theorem witness_RejectedWritesAreRecorded :
    up.canon = true ∧ 0 < up.fns.length ∧ (6 : Nat) < 16384 ∧ (0x44 : Nat) < 4096 ∧ (2 : Nat) < 256 ∧ Func.pf ≠ .otherBelfry ∧
    formCheck (locFields Loc.glPwrGuard) 0x80000000 = some 1 := by
  decide +kernel

theorem witness_WritesAreChecked :
    -- not open; the owner, the lock, the unit out, the register's own rule, and taken
    (let locked := up.setFlag (6 * 4096 + 0x024) 0 true
     let off := Loc.glPwrGuard % 4096
     let out := sp0 up fun sp => { sp with out := 1 }
     let loc := Loc.spEphSel 0
     State.reset.pageOpen .pf 6 = false ∧ up.pageOpen .pf 6 = true ∧ up.pageOpen (.vf 1) 6 = true ∧ up.mayWrite (.vf 1) 6 off 1 = false ∧
      locked.pageOpen .pf 6 = true ∧ locked.mayWrite .pf 6 off 1 = true ∧ locked.flag (6 * 4096 + 0x024) 0 = true ∧ lockCovers off = true ∧
      out.pageOpen .pf (loc / 4096) = true ∧ out.mayWrite .pf (loc / 4096) (loc % 4096) 1 = true ∧
      out.flag (loc / 4096 * 4096 + 0x024) 0 = false ∧ out.pageClosed (loc / 4096) = true ∧ loc % 4096 ≠ 0x014 ∧ loc % 4096 ≠ 0x018 ∧
      loc % 4096 ≠ 0x01C ∧ up.mayWrite .pf 6 off 1 = true ∧ up.flag (6 * 4096 + 0x024) 0 = false ∧ up.pageClosed 6 = false) ∧
    -- narrow writes, accepted by the checks and not
    ((pageInfo 6).isSome = true ∧ up.accepts .pf (6 * 4096 + 4 * 17) 1760 ∧ up.accessCheck (.vf 1) 6 68 1760 = some 4) ∧
    -- mailbox pages, plain registers, pairs, pages that are not listed; reads
    (pageInfo 0x180 = some (.mbox, 0, 0) ∧ (∀ m k : Nat, pageInfo 6 ≠ some (.mbox, m, k)) ∧ up.accepts .pf Loc.glPwrGuard 1760 ∧
      wellFormedFor Loc.glPwrGuard 1760 ∧ up.accepts .pf (Loc.spEphLoadAddrLo 0) 7 ∧ pageInfo 0x3000 = none ∧
      State.reset.pageOpen .pf 0x3000 = false ∧ up.pageOpen .pf 0x3000 = true ∧ pageInfo 6 ≠ none) ∧
    (let s : State := { up with hiLatch := [(latchKey .pf (6 * 4096 + 4 * 16), 9)] }
     (∃ p ∈ List.range 0x800, (pageInfo p).isSome = true ∧ up.mayRead (.vf 1) p = false) ∧ s.mayRead .pf 6 = true ∧ tget 0 s.hiLatch (latchKey .pf (6 * 4096 + 4 * 16)) = 8 + 1 ∧
      ({ off := 0, words := 1 } : RegSpan).words ≤ 1 ∧ 1 < ({ off := 0, words := 2 } : RegSpan).words) := by
  refine ⟨?_, ?_, ⟨?_, ?_, ?_⟩, ?_⟩
  case refine_4 =>
    have h : (match pageInfo 6 with | some (.mbox, _, _) => false | _ => true) = true := by decide +kernel
    intro m k e; rw [e] at h; cases h
  all_goals (try simp only [State.accepts, wellFormedFor]); decide +kernel

theorem witness_LocksAndFrozenCounters :
    -- PAGE_LOCK: not listed, another's page, a page that cannot be locked, ill-formed, and set; locked
    (let w := (0 : Word).put 0 0 1
     let loc := 6 * 4096 + 0x024
     pageInfo 0x3000 = none ∧ (pageInfo 6).isSome = true ∧ up.accepts .pf loc w ∧ wellFormedFor loc w ∧ fowns .pf (up.pageOwner 6) = true ∧
      up.lockable 6 = true ∧ up.accepts .pf loc (illFormed 0 1) ∧ (formCheck (locFields loc) (illFormed 0 1)).isSome = true ∧
      (∃ p ∈ List.range 0x500, (pageInfo p).isSome = true ∧ fowns .pf (up.pageOwner p) = true ∧ up.lockable p = false ∧
        up.pageOpen .pf p = true ∧ up.accessCheck .pf p 0x024 w = none) ∧
      (∃ p ∈ List.range 16384, (pageInfo p).isSome = true ∧ fowns .mgmt (up.pageOwner p) = false ∧
        up.pageOpen .mgmt p = true ∧ up.accessCheck .mgmt p 0x024 w = none)) ∧
    (let s := up.setFlag (6 * 4096 + 0x024) 0 true
     s.flag (6 * 4096 + 0x024) 0 = true ∧ s.pageOpen .pf 6 = true ∧ lockCovers 0x40 = true) ∧
    -- counters: counting, frozen; their clear and their two words
    (let w := (0 : Word).put 1 1 1
     let live := up.setFlag Loc.seDebugCtl 2 true
     let frozen := live.setFlag Loc.moMonCtl 0 true
     let lo := 6 * 4096 + 0xF00
     let counts := live.setFlag (lo + 8) 18 true
     hasEvc 6 = true ∧ live.accepts .pf (6 * 4096 + 0x00C) w ∧ wellFormedFor (6 * 4096 + 0x00C) w ∧
      live.accepts .pf (6 * 4096 + 0x00C) (illFormed 1 1) ∧ (formCheck (locFields (6 * 4096 + 0x00C)) (illFormed 1 1)).isSome = true ∧
      live.evcFrozen 6 0 = false ∧ frozen.accepts .pf (6 * 4096 + 0x00C) w ∧ (∀ k < 8, frozen.evcFrozen 6 k = true) ∧
      up.accepts .pf lo 0 ∧
      (let s : State := { frozen with lowStage := [(lo, 6)] }
       s.accepts .pf (lo + 4) 1 ∧ tget 0 s.lowStage lo = 5 + 1 ∧ s.evcFrozen 6 0 = true ∧ s.accepts .pf (lo + 4) 65536) ∧
      counts.accepts .pf (lo + 4) 1 ∧ counts.evcFrozen 6 0 = false ∧ counts.flag (lo + 8) 18 = true) := by
  refine ⟨?_, ?_, ?_⟩ <;> (try simp only [State.accepts, wellFormedFor]) <;> decide +kernel

theorem witness_CountsWrap :
    up.canon = true ∧ twf (fun _ => ({} : Evc)) up.evc = true ∧ (tget ({} : Evc) up.evc (6 * 8 + 0)).cnt + 1 < 2 ^ 48 ∧
    (let s : State := { up with evc := [(6 * 8 + 0, { cnt := 2 ^ 48 - 1 })] }
     s.canon = true ∧ twf (fun _ => ({} : Evc)) s.evc = true ∧ 2 ^ 48 ≤ (tget {} s.evc (6 * 8 + 0)).cnt + 1) := by
  decide +kernel

/-- FIPS 197: the substitution of 53 is ED, and back; the published column db 13 53 45 mixed is 8e 4d a1 bc. -/
theorem test_aes_steps : aesSub 0x53 = 0xED ∧ aesUnsub 0xED = 0x53 ∧
    (aesMix [2, 3, 1, 1] ([0xDB, 0x13, 0x53, 0x45] ++ List.replicate 12 0)).take 4 = [0x8E, 0x4D, 0xA1, 0xBC] := by
  decide +kernel

/-- The published digest of the empty message under SHAKE256, 64 bytes. -/
theorem test_shake_empty : digest64 [] = (bigBytes 64
    0x46B9DD2B0BA88D13233B3FEB743EEB243FCD52EA62B81B82B50C27646ED5762FD75DC4DDD8C0F200CB05019D67B592F6FC821C49479AB48640292EACB3B7C4BE).map
      (BitVec.ofNat 8) := by
  decide +kernel

end Sys2Proof.Tests
end

section
/-! PROOF. Awaits and counting slots (R35). The statement of O6 gives the consumed count without the canonical form of the
register file as a premise, and fails for a register file that lists a count twice. On canonical register files all of it
holds (`awaitTry_consumes`). -/

namespace Sys2Proof.Machine

/-- R35: the comparison of a count with a threshold is the sign of their difference modulo 2^32. -/
theorem awaitMet_iff (c t : Nat) (ht : t < 2 ^ 32) :
    awaitMet c t = true ↔ ((c : Int) - t) % 2 ^ 32 < 2 ^ 31 := by
  simp only [awaitMet, decide_eq_true_eq]
  omega

/-- An await is found satisfied only when its count meets its threshold; it takes the threshold from the count when it
consumes, and changes nothing otherwise. -/
theorem awaitTry_some (s u : State) (n slot : Nat) (second : Bool) (h : s.awaitTry n slot second = some u) :
    let w := s.slotW n slot (if second then 5 else 3)
    let thr := s.slotW n slot (if second then 6 else 4)
    let tag := bitsOf w 11 0
    let i := bitsOf w 19 12
    awaitMet (s.count tag i) thr = true ∧
      u = if bitOf w 21 then s.setCount tag i (s.count tag i + 2 ^ 32 - thr) else s := by
  unfold State.awaitTry at h
  obtain ⟨hgo, hu⟩ := Option.ite_none_left_eq_some.mp h
  simp only [Bool.or_eq_true, Bool.not_eq_true', not_or, Bool.not_eq_false] at hgo
  exact ⟨hgo.2, (Option.some.inj hu).symm⟩

/-- A bit field stays below the power of its width. -/
theorem bitsOf_lt (v hi lo : Nat) : bitsOf v hi lo < 2 ^ (hi + 1 - lo) := Nat.mod_lt _ (Nat.two_pow_pos _)

/-- A count that was set is read modulo 2^32. -/
theorem count_setCount_same (s : State) (tag i v : Nat) (h : s.canon = true) :
    (s.setCount tag i v).count tag i = v % 2 ^ 32 := by
  simp only [State.count, State.setCount, get_put_same _ _ _ _ h, BitVec.toNat_ofNat]

/-- Setting a count leaves every other count as it was. -/
theorem count_setCount_other (s : State) (tag i v x y : Nat) (h : s.canon = true) (hi : i < 256) (hy : y < 256)
    (hxy : (x, y) ≠ (tag, i)) : (s.setCount tag i v).count x y = s.count x y := by
  have hkey : rkey (Loc.ocCsValue 0) (x * 256 + y) ≠ rkey (Loc.ocCsValue 0) (tag * 256 + i) := by
    intro he
    have : x = tag ∧ y = i := by unfold rkey at he; omega
    exact hxy (by rw [this.1, this.2])
  simp only [State.count, State.setCount, get_put_other _ _ _ _ _ _ h hkey]

/-- R35 on a canonical register file: an await that consumes subtracts its threshold from its count modulo 2^32, and from
no other count. -/
theorem awaitTry_consumes (s u : State) (n slot : Nat) (second : Bool) (hc : s.canon = true)
    (h : s.awaitTry n slot second = some u) :
    let w := s.slotW n slot (if second then 5 else 3)
    let thr := s.slotW n slot (if second then 6 else 4)
    let tag := bitsOf w 11 0
    let i := bitsOf w 19 12
    bitOf w 21 = true → u.count tag i = (s.count tag i + 2 ^ 32 - thr) % 2 ^ 32 ∧
      ∀ x y, y < 256 → (x, y) ≠ (tag, i) → u.count x y = s.count x y := by
  intro w thr tag i hw
  have hu : u = s.setCount tag i (s.count tag i + 2 ^ 32 - thr) :=
    (awaitTry_some s u n slot second h).2.trans (if_pos hw)
  subst hu
  exact ⟨count_setCount_same s tag i _ hc,
    fun x y hy hxy => count_setCount_other s tag i _ x y hc (bitsOf_lt w 19 12) hy hxy⟩

/-- A state whose register file lists the count of tag 0, slot 0 twice, each time as 1. The first await of slot 0 of spire 0
consumes one signal there. -/
def doublyListed : State :=
  { State.reset with
    spires := [{ out := 0 }]
    rf := [(rkey (Loc.spEphData 0 3) 0, 0x00300000), (rkey (Loc.spEphData 0 4) 0, 1),
      (rkey (Loc.ocTagDir 0) 0, 1024), (rkey (Loc.ocCsValue 0) 0, 1), (rkey (Loc.ocCsValue 0) 0, 1)] }

/-- The register file of `doublyListed` is not in canonical form. -/
theorem doublyListed_not_canon : doublyListed.canon = false := by decide +kernel

/-- The await takes its threshold of 1, which removes the first entry of the count and uncovers the second: it still
reads 1. -/
theorem doublyListed_await :
    bitOf (doublyListed.slotW 0 0 3) 21 = true ∧ doublyListed.slotW 0 0 4 = 1 ∧
    bitsOf (doublyListed.slotW 0 0 3) 11 0 = 0 ∧ bitsOf (doublyListed.slotW 0 0 3) 19 12 = 0 ∧
    doublyListed.count 0 0 = 1 ∧ (doublyListed.awaitTry 0 0 false).map (State.count · 0 0) = some 1 := by
  decide +kernel

/-- Refutes O6: the new count is claimed of every register file, and one that lists the count twice still reads 1 after an
await took 1 from 1. The register file of the counterexample is not canonical; on canonical ones `awaitTry_consumes`. -/
theorem not_awaitsTakeTheirCounts : ¬ Obligations.AwaitsTakeTheirCounts := by
  unfold Obligations.AwaitsTakeTheirCounts
  rintro ⟨-, hconsume⟩
  obtain ⟨hcons, hthr, htag, hslot, hcount, htry⟩ := doublyListed_await
  obtain ⟨u, hu, hread⟩ := Option.map_eq_some_iff.mp htry
  obtain ⟨-, -, htaken⟩ := hconsume doublyListed u 0 0 false hu
  simp only [Bool.false_eq_true, if_false, htag, hslot, hthr, hcount, hread] at htaken
  exact absurd (htaken hcons (by decide)).1 (by decide)

end Sys2Proof.Machine
end

section
/-! PROOF. Placement of lines in gatehouses and channels (R162). Within one channel line q the fold h only rotates the 384
channels, so a place names its line (`placeLine_eq_iff`); and 384 and 8 are even, so the parity of the gatehouse is that of
the line's offset and of h, which changes from q to q + 1 (`placeHash_mod_two`). -/

namespace Sys2Proof.Machine

/-- h of R162 is a rotation of the 384 channels. -/
theorem placeHash_lt (q : Nat) : placeHash q < 384 := Nat.mod_lt _ (by decide)

/-- The parity of h is that of the lowest bits of the three fields that it folds. -/
theorem placeHash_mod_two (q : Nat) : placeHash q % 2 = (q + q / 2 ^ 9 + q / 2 ^ 18) % 2 := by
  have hfold : placeHash q % 2 = (bitsOf q 8 0 ^^^ bitsOf q 17 9 ^^^ bitsOf q 22 18) % 2 :=
    Nat.mod_mod_of_dvd _ (by decide)
  have hfields : bitsOf q 8 0 % 2 = q % 2 ∧ bitsOf q 17 9 % 2 = q / 2 ^ 9 % 2 ∧ bitsOf q 22 18 % 2 = q / 2 ^ 18 % 2 := by
    simp only [bitsOf, Nat.shiftRight_eq_div_pow]
    omega
  rw [hfold, Nat.xor_mod_two_eq, Nat.add_mod, Nat.xor_mod_two_eq]
  omega

/-- The gatehouse of a line in terms of its offset and of h. -/
theorem placeLine_gate (l : Nat) : (placeLine l).1 = (l % 384 + placeHash (l / 384)) % 8 :=
  Nat.mod_mod_of_dvd _ (by decide)

/-- Every place is the place of exactly one line, `lineAt`. -/
theorem placeLine_eq_iff (l g ch q : Nat) (hg : g < 8) (hch : ch < 48) :
    placeLine l = (g, ch, q) ↔ l = lineAt g ch q := by
  have hh := placeHash_lt q
  simp only [placeLine, lineAt, Prod.mk.injEq]
  constructor
  · rintro ⟨hgate, hchan, rfl⟩
    omega
  · intro hl
    have hq : l / 384 = q := by omega
    rw [hq]
    omega

/-- A channel line below 2^23 holds lines of device memory only. -/
theorem lineAt_lt (g ch q : Nat) (hq : q < 2 ^ 23) : lineAt g ch q < 3 * 2 ^ 30 := by
  unfold lineAt
  omega

/-- A line of device memory lies in one of 8 gatehouses, 48 local channels and 2^23 channel lines. -/
theorem placeLine_bounds (l : Nat) (hl : l < 3 * 2 ^ 30) :
    (placeLine l).1 < 8 ∧ (placeLine l).2.1 < 48 ∧ (placeLine l).2.2 < 2 ^ 23 := by
  simp only [placeLine]
  omega

/-- Consecutive lines of one channel line go to consecutive gatehouses. -/
theorem placeLine_gate_succ (l : Nat) (hl : l % 384 ≠ 383) : (placeLine (l + 1)).1 = ((placeLine l).1 + 1) % 8 := by
  have hq : (l + 1) / 384 = l / 384 := by omega
  rw [placeLine_gate, placeLine_gate, hq]
  omega

/-- A stride of 384 lines that carries into no higher field of q goes to a gatehouse of the other parity. -/
theorem placeLine_gate_stride (l : Nat) (hl : l / 384 % 512 ≠ 511) : (placeLine (l + 384)).1 ≠ (placeLine l).1 := by
  have hq : (l + 384) / 384 = l / 384 + 1 := Nat.add_div_right l (by decide)
  have hpar := placeHash_mod_two (l / 384)
  have hparNext := placeHash_mod_two (l / 384 + 1)
  rw [placeLine_gate, placeLine_gate, hq, Nat.add_mod_right]
  omega

/-- Settles O5: `lineAt` is the one line of a place, and the fold moves a stride of 384 lines to another gatehouse. -/
theorem linesArePlacedOnce : Obligations.LinesArePlacedOnce := by
  unfold Obligations.LinesArePlacedOnce
  refine ⟨fun _ => rfl, ?_, placeLine_bounds, placeLine_gate_succ, ?_⟩
  · intro g hg ch hch q hq
    exact ⟨lineAt g ch q, lineAt_lt g ch q hq, (placeLine_eq_iff _ g ch q hg hch).mpr rfl,
      fun m _ hm => (placeLine_eq_iff m g ch q hg hch).mp hm⟩
  · intro l hl hsame
    exact placeLine_gate_stride l hl (Prod.mk.inj hsame).1

end Sys2Proof.Machine
end

section
/-! PROOF. Registers and bits of the register file after a write of a bit or of a whole field, on a canonical register
file. -/

namespace Sys2Proof

/-- A field that is the whole word. -/
theorem Word.put_whole (w : Word) (v : Nat) : w.put 31 0 v = BitVec.ofNat 32 v := by
  refine BitVec.eq_of_getLsbD_eq fun i hi => ?_
  rw [Word.put_getLsbD _ _ _ _ _ hi, BitVec.getLsbD_ofNat]
  simp [hi]

/-- The field that is the whole word. -/
theorem Word.bits_whole (w : Word) : w.bits 31 0 = w.toNat := Nat.mod_eq_of_lt w.isLt

/-- A bit put into a word leaves the other bits. -/
theorem Word.put_bit_other (w : Word) (b b' x : Nat) (hb : b' < 32) (hne : b' ≠ b) : (w.put b b x).bit b' = w.bit b' := by
  unfold Word.bit
  rw [Word.put_getLsbD _ _ _ _ _ hb, if_neg (by omega)]

namespace Machine

/-- Different places have different keys. -/
theorem rkey_ne {loc loc' : Nat} (h : loc' ≠ loc) : rkey loc' 0 ≠ rkey loc 0 := by
  unfold rkey
  omega

/-- A register keeps its word when a bit of another register is written. -/
theorem get_setFlag_other (s : State) (loc loc' : Loc) (b : Nat) (v : Bool) (hc : s.canon = true) (hne : loc' ≠ loc) :
    (s.setFlag loc b v).get loc' = s.get loc' := get_put_other _ _ _ _ _ _ hc (rkey_ne hne)

/-- A bit that was set reads as set. -/
theorem flag_setFlag_true (s : State) (loc : Loc) (b : Nat) (hc : s.canon = true) (hb : b < 32) :
    (s.setFlag loc b true).flag loc b = true := by
  unfold State.flag State.setFlag State.setFld
  rw [get_put_same _ _ _ _ hc]
  exact Word.put_bit_one _ b hb

/-- A written bit leaves every other bit of every register. -/
theorem flag_setFlag_other (s : State) (loc loc' : Loc) (b b' : Nat) (v : Bool) (hc : s.canon = true) (hb : b' < 32)
    (hne : loc' = loc → b' ≠ b) : (s.setFlag loc b v).flag loc' b' = s.flag loc' b' := by
  by_cases hl : loc' = loc
  · subst hl
    unfold State.flag State.setFlag State.setFld
    rw [get_put_same _ _ _ _ hc]
    exact Word.put_bit_other _ b b' _ hb (hne rfl)
  · exact congrArg (Word.bit · b') (get_setFlag_other s loc loc' b v hc hl)

/-- A written bit leaves the register file canonical. -/
theorem setFlag_canon (s : State) (loc : Loc) (b : Nat) (v : Bool) (hc : s.canon = true) : (s.setFlag loc b v).canon = true :=
  put_canon s loc _ 0 hc

/-- A register keeps its word when a number is added to a field of another register. -/
theorem get_addWrap_other (s : State) (loc loc' : Loc) (hi lo n : Nat) (hc : s.canon = true) (hne : loc' ≠ loc) :
    (s.addWrap loc hi lo n).get loc' = s.get loc' := get_put_other _ _ _ _ _ _ hc (rkey_ne hne)

/-- A number added to a field that is the whole register. -/
theorem get_addWrap_whole (s : State) (loc : Loc) (n : Nat) (hc : s.canon = true) :
    (s.addWrap loc 31 0 n).get loc = s.get loc + BitVec.ofNat 32 n := by
  unfold State.addWrap State.setFld State.fld
  rw [get_put_same _ _ _ _ hc, Word.put_whole, Word.bits_whole, BitVec.ofNat_add, BitVec.ofNat_toNat, BitVec.setWidth_eq]

end Machine
end Sys2Proof
end

section
/-! PROOF. Counting (R493, R496): an added amount changes its own counter, and on a wrap two marks of the page; an event
on a page does so for the counters that take it, and nothing else (`KeptByCounting`). -/

namespace Sys2Proof.Machine

/-- A state that differs in the register file and in the counters only. -/
theorem frame_of_rf_evc (s : State) (r : Tab Word) (e : Tab Evc) : Frame [.regs, .evc] s { s with rf := r, evc := e } := by
  intro p _ hp
  cases p
  case regs => simp at hp
  case evc => simp at hp
  all_goals simp only [Piece.same, State.memByte, implies_true, and_self]

/-- An added amount reaches its counter modulo 2^48, and otherwise the register file at most. -/
theorem evcAdd_eq (s : State) (page k amt : Nat) : ∃ r, s.evcAdd page k amt =
    { s with
      rf := r
      evc := tset {} s.evc (page * 8 + k)
        { tget {} s.evc (page * 8 + k) with cnt := ((tget {} s.evc (page * 8 + k)).cnt + amt) % 2 ^ 48 } } := by
  unfold State.evcAdd
  dsimp only
  split <;> exact ⟨_, rfl⟩

/-- Without a wrap the register file stays. -/
theorem evcAdd_rf_of_lt (s : State) (page k amt : Nat) (h : (tget {} s.evc (page * 8 + k)).cnt + amt < 2 ^ 48) :
    (s.evcAdd page k amt).rf = s.rf := by
  unfold State.evcAdd
  dsimp only
  rw [if_pos h]

/-- R496: a wrap sets EVC_SEL.OVF of the counter and PAGE_EVT.CNT_OVF of its page. -/
theorem evcAdd_flags_of_wrap (s : State) (page k amt : Nat) (hc : s.canon = true)
    (h : 2 ^ 48 ≤ (tget {} s.evc (page * 8 + k)).cnt + amt) :
    (s.evcAdd page k amt).flag (page * 4096 + 0xF08 + 0x20 * k) 20 = true ∧
      (s.evcAdd page k amt).flag (page * 4096 + 0x018) 2 = true := by
  unfold State.evcAdd
  dsimp only
  rw [if_neg (Nat.not_lt.mpr h)]
  generalize ht : ({ s with evc := _ } : State) = t
  have hct : t.canon = true := by subst ht; exact hc
  have hsel := setFlag_canon t (page * 4096 + 0xF08 + 0x20 * k) 20 true hct
  constructor
  · rw [flag_setFlag_other _ _ _ _ _ _ hsel (by decide) fun _ => by decide]
    exact flag_setFlag_true t _ 20 hct (by decide)
  · exact flag_setFlag_true _ _ 2 hsel (by decide)

/-- A property of states that counting on a page keeps: it speaks neither of the counters nor of the marks of R496. -/
structure KeptByCounting (page : Nat) (P : State → Prop) : Prop where
  evc : ∀ s e, P s → P { s with evc := e }
  sel : ∀ s k, k < 8 → P s → P (s.setFlag (page * 4096 + 0xF08 + 0x20 * k) 20 true)
  ovf : ∀ s, P s → P (s.setFlag (page * 4096 + 0x018) 2 true)

namespace KeptByCounting

variable {page : Nat} {P : State → Prop} (h : KeptByCounting page P)
include h

/-- It holds after an amount was added to a counter. -/
theorem evcAdd {s : State} (k amt : Nat) (hk : k < 8) (hs : P s) : P (s.evcAdd page k amt) := by
  unfold State.evcAdd
  dsimp only
  split
  · exact h.evc _ _ hs
  · exact h.ovf _ (h.sel _ _ hk (h.evc _ _ hs))

/-- It holds after a counter met an event. -/
theorem evcHit (s : State) (code unit amt part k : Nat) (hk : k < 8) (hs : P s) :
    P (s.evcHit page code unit amt part k) := by
  unfold State.evcHit
  dsimp only
  split
  · exact hs
  · exact h.evcAdd _ _ hk (h.evc _ _ hs)

/-- It holds after an event of the page. -/
theorem bump (s : State) (code unit amt part : Nat) (hs : P s) : P (s.bump page code unit amt part) :=
  List.foldlRecOn (List.range 8) _ hs fun t ht k hmem => h.evcHit t code unit amt part k (List.mem_range.mp hmem) ht

end KeptByCounting

/-- An event changes the register file and the counters at most. -/
theorem bump_eq (s : State) (page code unit amt part : Nat) :
    ∃ r e, s.bump page code unit amt part = { s with rf := r, evc := e } := by
  have hkept : KeptByCounting page fun t => ∃ r e, t = { s with rf := r, evc := e } :=
    { evc := by rintro _ e ⟨r, _, rfl⟩; exact ⟨r, e, rfl⟩
      sel := by rintro _ k _ ⟨r, e, rfl⟩; exact ⟨_, e, rfl⟩
      ovf := by rintro _ ⟨r, e, rfl⟩; exact ⟨_, e, rfl⟩ }
  exact hkept.bump s code unit amt part ⟨s.rf, s.evc, rfl⟩

/-- An event leaves every register but the selections of the page's counters and PAGE_EVT. -/
theorem get_bump_other (s : State) (page code unit amt part loc : Nat) (hc : s.canon = true)
    (hovf : loc ≠ page * 4096 + 0x018) (hsel : ∀ k < 8, loc ≠ page * 4096 + 0xF08 + 0x20 * k) :
    (s.bump page code unit amt part).get loc = s.get loc := by
  have hkept : KeptByCounting page fun t => t.canon = true ∧ t.get loc = s.get loc :=
    { evc := fun _ _ ht => ht
      sel := fun t k hk ⟨ht, hg⟩ => ⟨setFlag_canon t _ _ _ ht, (get_setFlag_other t _ _ _ _ ht (hsel k hk)).trans hg⟩
      ovf := fun t ⟨ht, hg⟩ => ⟨setFlag_canon t _ _ _ ht, (get_setFlag_other t _ _ _ _ ht hovf).trans hg⟩ }
  exact (hkept.bump s code unit amt part ⟨hc, rfl⟩).2

/-- An event leaves every bit but EVC_SEL.OVF of the page's counters and PAGE_EVT.CNT_OVF. -/
theorem flag_bump_other (s : State) (page code unit amt part loc b : Nat) (hc : s.canon = true) (hb : b < 32)
    (hovf : b ≠ 2) (hsel : b ≠ 20) : (s.bump page code unit amt part).flag loc b = s.flag loc b := by
  have hkept : KeptByCounting page fun t => t.canon = true ∧ t.flag loc b = s.flag loc b :=
    { evc := fun _ _ ht => ht
      sel := fun t _ _ ⟨ht, hg⟩ =>
        ⟨setFlag_canon t _ _ _ ht, (flag_setFlag_other t _ _ _ _ _ ht hb fun _ => hsel).trans hg⟩
      ovf := fun t ⟨ht, hg⟩ =>
        ⟨setFlag_canon t _ _ _ ht, (flag_setFlag_other t _ _ _ _ _ ht hb fun _ => hovf).trans hg⟩ }
  exact (hkept.bump s code unit amt part ⟨hc, rfl⟩).2

/-- Settles O60: the counter takes the sum modulo 2^48 (`evcAdd_eq`), and only a wrap reaches the register file. -/
theorem countsWrap : Obligations.CountsWrap := by
  unfold Obligations.CountsWrap
  intro s page k amt hc _ _
  obtain ⟨r, heq⟩ := evcAdd_eq s page k amt
  refine ⟨fun hevc => ?_, evcAdd_rf_of_lt s page k amt, evcAdd_flags_of_wrap s page k amt hc, ?_⟩
  · rw [heq]
    exact ⟨congrArg Evc.cnt (tget_tset_same (fun _ => ({} : Evc)) _ _ _ hevc),
      fun key hkey => tget_tset_other (fun _ => ({} : Evc)) _ key _ _ _ hevc hkey⟩
  · rw [heq]
    exact frame_of_rf_evc s r _

end Sys2Proof.Machine
end

section
/-! PROOF. Rejected writes (R381, R461, R486, R487): the record of a page outlives the count of the rejection, since the
marks that counting sets lie in other registers or other bits. -/

namespace Sys2Proof.Machine

/-- Every function has a code of 4 bits. -/
theorem fcode_lt (f : Func) : fcode f < 16 := by
  cases f with
  | vf p => exact Nat.lt_of_le_of_lt (Nat.succ_le_of_lt p.isLt) (by decide)
  | _ => decide

/-- Table RG-2: PAGE_REJ holds CODE, OFFSET, FUNC and VALID. -/
theorem rejWord_fields (f : Func) (off code : Nat) (hoff : off < 4096) (hcode : code < 256) :
    (rejWord f off code).bits 7 0 = code ∧ (rejWord f off code).bits 19 8 = off ∧
      (rejWord f off code).bits 23 20 = fcode f ∧ (rejWord f off code).bit 31 = true := by
  have hf := fcode_lt f
  have hn : (rejWord f off code).toNat = code + off * 256 + fcode f * 2 ^ 20 + 2 ^ 31 := by
    rw [rejWord, BitVec.toNat_ofNat, Nat.mod_eq_of_lt (by omega)]
  simp only [Word.bits, Word.bit, ← BitVec.testBit_toNat, hn, Nat.shiftRight_eq_div_pow, Nat.testBit_eq_decide_div_mod_eq,
    decide_eq_true_eq]
  omega

/-- The record of a rejected write: PAGE_REJ, PAGE_EVT.REJ and REJ_TOTAL, before the event of MONITOR is counted. -/
def State.recordRej (s : State) (f : Func) (page off code : Nat) : State :=
  ((s.put (page * 4096 + 0x014) (rejWord f off code)).setFlag (page * 4096 + 0x018) 0 true).addWrap Loc.moRejTotal 31 0 1

/-- A rejection is recorded and counted, unless the belfry that does not hold wrote. -/
theorem reject_eq (s : State) (f : Func) (page off code : Nat) (hf : f ≠ .otherBelfry) :
    s.reject f page off code = (s.recordRej f page off code).bump 0x0F00 2 code := if_neg hf

/-- R381: a write of the belfry that does not hold is only counted. -/
theorem reject_otherBelfry (s : State) (page off code : Nat) :
    s.reject .otherBelfry page off code = s.bump (if s.holder = some 0 then 0x140 else 0x100) 5 0 := if_pos rfl

/-- REJ_TOTAL is neither PAGE_REJ nor PAGE_EVT of a page. -/
theorem moRejTotal_ne (page : Nat) : Loc.moRejTotal ≠ page * 4096 + 0x014 ∧ Loc.moRejTotal ≠ page * 4096 + 0x018 := by
  change (0x0F00 * 4096 + 0x04C : Nat) ≠ _ ∧ (0x0F00 * 4096 + 0x04C : Nat) ≠ _
  omega

/-- The record reads back, and it leaves the register file canonical. -/
theorem recordRej_reads (s : State) (f : Func) (page off code : Nat) (hc : s.canon = true) :
    let u := s.recordRej f page off code
    u.canon = true ∧ u.get (page * 4096 + 0x014) = rejWord f off code ∧ u.flag (page * 4096 + 0x018) 0 = true ∧
      u.get Loc.moRejTotal = s.get Loc.moRejTotal + 1 := by
  obtain ⟨hne14, hne18⟩ := moRejTotal_ne page
  have hput := put_canon s (page * 4096 + 0x014) (rejWord f off code) 0 hc
  have hset := setFlag_canon _ (page * 4096 + 0x018) 0 true hput
  unfold State.recordRej
  refine ⟨put_canon _ _ _ 0 hset, ?_, ?_, ?_⟩
  · rw [get_addWrap_other _ _ _ _ _ _ hset hne14.symm, get_setFlag_other _ _ _ _ _ hput (by simp), get_put_same s _ _ _ hc]
  · rw [State.flag, get_addWrap_other _ _ _ _ _ _ hset hne18.symm]
    exact flag_setFlag_true _ _ 0 hput (by decide)
  · rw [get_addWrap_whole _ _ 1 hset, get_setFlag_other _ _ _ _ _ hput hne18,
      get_put_other s _ _ _ _ _ hc (rkey_ne hne14)]
    rfl

/-- R487: the event that counts a rejection leaves its record. -/
theorem reject_reads (s : State) (f : Func) (page off code : Nat) (hc : s.canon = true) (hf : f ≠ .otherBelfry) :
    let t := s.reject f page off code
    t.get (page * 4096 + 0x014) = rejWord f off code ∧ t.flag (page * 4096 + 0x018) 0 = true ∧
      t.get Loc.moRejTotal = s.get Loc.moRejTotal + 1 := by
  obtain ⟨hcan, hword, hevt, htotal⟩ := recordRej_reads s f page off code hc
  rw [reject_eq s f page off code hf]
  refine ⟨?_, ?_, ?_⟩
  · exact (get_bump_other _ _ _ _ _ _ _ hcan (by omega) (by omega)).trans hword
  · exact (flag_bump_other _ _ _ _ _ _ _ _ hcan (by decide) (by decide) (by decide)).trans hevt
  · exact (get_bump_other _ _ _ _ _ _ _ hcan (by decide) (by decide)).trans htotal

/-- R487: a rejection tells the host nothing. -/
theorem reject_host (s : State) (f : Func) (page off code : Nat) (hf : f ≠ .otherBelfry) :
    let t := s.reject f page off code
    t.fns = s.fns ∧ t.irqs = s.irqs ∧ t.resp = s.resp := by
  obtain ⟨r, e, heq⟩ := bump_eq (s.recordRej f page off code) 0x0F00 2 code 1 15
  rw [reject_eq s f page off code hf, heq]
  exact ⟨rfl, rfl, rfl⟩

/-- A posted error leaves the host functions. -/
theorem post_fns (s : State) (page cls code unit info : Nat) (part : Option Nat) :
    (s.post page cls code unit info part).fns = s.fns := by
  unfold State.post
  dsimp only
  repeat' split
  all_goals rfl

/-- A notice of a mailbox leaves the host functions. -/
theorem hostNotice_fns (s : State) (m bit : Nat) : (s.hostNotice m bit).fns = s.fns := by
  unfold State.hostNotice
  dsimp only
  split <;> rfl

/-- A changed element of a table of fixed length reads back. -/
theorem lget_lmod_same {α : Type} (d : α) (l : List α) (i : Nat) (f : α → α) (h : i < l.length) :
    lget d (lmod l i f) i = f (lget d l i) := by
  simp [lget, lmod, List.getD, h]

/-- R461: AER of the function records the request at its offset, with its length. -/
theorem fn_aerAbort (s : State) (m off len : Nat) (h : m < s.fns.length) :
    (s.aerAbort m off len).fn m = { s.fn m with aer := true, aerAt := off, aerLen := len } := by
  have hfns : (s.aerAbort m off len).fns = lmod s.fns m fun x => { x with aer := true, aerAt := off, aerLen := len } :=
    post_fns _ _ _ _ _ _ _
  unfold State.fn
  rw [hfns, lget_lmod_same _ _ _ _ h]

/-- R461: a rejected write of a mailbox page reaches AER of its function. -/
theorem fn_mailReject (s : State) (m off len : Nat) (h : m < s.fns.length) :
    (s.mailReject m off len).fn m = { s.fn m with aer := true, aerAt := off, aerLen := len } := by
  have hfns : ((s.hostNotice m 2).postGlobal 1 0xB4 m 0 (some (fnPart m))).fns = s.fns :=
    (post_fns _ _ _ _ _ _ _).trans (hostNotice_fns s m 2)
  unfold State.mailReject
  rw [fn_aerAbort _ _ _ _ (hfns ▸ h)]
  unfold State.fn
  rw [hfns]

/-- R486: a register of the plain kind rejects a word with a field that is not legal, whole. -/
theorem plainWrite_illFormed (s : State) (loc idx : Nat) (v : Word) (c : Nat) (h : formCheck (locFields loc) v = some c) :
    s.plainWrite loc idx v = .error c := by
  unfold State.plainWrite
  dsimp only
  rw [h]

/-- Settles O57: the record (`reject_reads`, `rejWord_fields`) and what it withholds from the host (`reject_host`); the other
belfry, the mailbox pages and the words of wrong form have their own lemma each. -/
theorem rejectedWritesAreRecorded : Obligations.RejectedWritesAreRecorded := by
  unfold Obligations.RejectedWritesAreRecorded
  intro s f hc
  refine ⟨?_, ?_, ?_, plainWrite_illFormed s⟩
  · intro page off code _ hoff hcode hf
    obtain ⟨hword, hevt, htotal⟩ := reject_reads s f page off code hc hf
    obtain ⟨hcodeField, hoffField, hfunc, hvalid⟩ := rejWord_fields f off code hoff hcode
    exact ⟨hword, hcodeField, hoffField, hfunc, hvalid, hevt, htotal, reject_host s f page off code hf⟩
  · rintro page off code rfl
    exact reject_otherBelfry s page off code
  · intro m off len hm
    rw [fn_mailReject s m off len hm]
    exact ⟨rfl, rfl, rfl⟩

end Sys2Proof.Machine
end

section
/-! PROOF. Minimum security versions and the queue (R418). Every command but SVN_RAISE leaves both (`exec_keeps`), and
SVN_RAISE keeps every floor (`execSvnRaise_floor`). -/

namespace Sys2Proof.Machine

/-- Every command but SVN_RAISE leaves the minimum security versions, and no command takes or adds a waiting one: one arm of
the dispatch after the other, each by the lemma about its meaning. -/
theorem exec_keeps (c : Instr) (hc : ∀ m mid type svn, c ≠ .svnRaise m mid type svn) (s t : State) (h : exec c s = .next t) :
    t.pending = s.pending ∧ t.store.svn = s.store.svn := by
  cases c with
  | tick _ => exact execTick_keeps _ _ _ h
  | partitionStart _ _ _ => exact execPartitionStart_keeps _ _ _ _ _ h
  | partitionStop _ _ _ => exact execPartitionStop_keeps _ _ _ _ _ h
  | partitionResume _ _ _ => exact execPartitionResume_keeps _ _ _ _ _ h
  | ephCommit _ _ _ => exact execEphCommit_keeps _ _ _ _ _ h
  | ephLoad _ _ _ => exact execEphLoad_keeps _ _ _ _ _ h
  | ephLoadSlotCommit _ => exact execEphLoadSlotCommit_keeps _ _ _ h
  | slotStartTime _ _ => exact execSlotStartTime_keeps _ _ _ _ h
  | descriptorDispatch _ _ => exact execDescriptorDispatch_keeps _ _ _ _ h
  | slotOverBudget _ _ _ => exact execSlotOverBudget_keeps _ _ _ _ _ h
  | slotLate _ _ => exact execSlotLate_keeps _ _ _ _ h
  | taskCommit _ _ _ => exact execTaskCommit_keeps _ _ _ _ _ h
  | tskLoad _ _ _ => exact execTskLoad_keeps _ _ _ _ _ h
  | tskLoadEntryCommit _ => exact execTskLoadEntryCommit_keeps _ _ _ h
  | taskStart _ _ => exact execTaskStart_keeps _ _ _ _ h
  | mma _ _ => exact execMma_keeps _ _ _ _ h
  | vop _ _ => exact execVop_keeps _ _ _ _ h
  | move _ _ => exact execMove_keeps _ _ _ _ h
  | load _ _ => exact execLoad_keeps _ _ _ _ h
  | store _ _ => exact execStore_keeps _ _ _ _ h
  | send _ _ => exact execSend_keeps _ _ _ _ h
  | fop _ _ => exact execFop_keeps _ _ _ _ h
  | relay _ _ => exact execRelay_keeps _ _ _ _ h
  | ticket _ _ => exact execTicket_keeps _ _ _ _ h
  | zclr _ _ => exact execZclr_keeps _ _ _ _ h
  | dispatch _ => exact execDispatch_keeps _ _ _ h
  | returnRows _ => exact execReturnRows_keeps _ _ _ h
  | dispatchRowRefused _ _ _ => exact execDispatchRowRefused_keeps _ _ _ _ _ h
  | taskRetire _ _ => exact execTaskRetire_keeps _ _ _ _ h
  | relayStripArrival _ _ _ => exact execRelayStripArrival_keeps _ _ _ _ _ h
  | steal _ _ => exact execSteal_keeps _ _ _ _ h
  | stolenTaskArrival _ _ => exact execStolenTaskArrival_keeps _ _ _ _ h
  | cellFail _ _ => exact execCellFail_keeps _ _ _ _ h
  | zoneCommit _ _ _ => exact execZoneCommit_keeps _ _ _ _ _ h
  | xmapWrite _ _ _ => exact execXmapWrite_keeps _ _ _ _ _ h
  | xmapLoad _ _ _ => exact execXmapLoad_keeps _ _ _ _ _ h
  | xmapLoadEntry _ => exact execXmapLoadEntry_keeps _ _ _ h
  | messagePartArrival _ _ => exact execMessagePartArrival_keeps _ _ _ _ h
  | tallyLanding _ _ _ _ => exact execTallyLanding_keeps _ _ _ _ _ _ h
  | messageRecordTimeout _ _ => exact execMessageRecordTimeout_keeps _ _ _ _ h
  | closedRecordExpiry _ _ => exact execClosedRecordExpiry_keeps _ _ _ _ h
  | messagePartResend _ _ _ => exact execMessagePartResend_keeps _ _ _ _ _ h
  | mergeAgeEvict _ _ _ _ => exact execMergeAgeEvict_keeps _ _ _ _ _ _ h
  | sramDrain _ _ _ => exact execSramDrain_keeps _ _ _ _ _ h
  | sramRemap _ _ _ => exact execSramRemap_keeps _ _ _ _ _ h
  | sramRemapCopyDone _ => exact execSramRemapCopyDone_keeps _ _ _ h
  | flipArm _ _ _ => exact execFlipArm_keeps _ _ _ _ _ h
  | flipDisarm _ _ _ => exact execFlipDisarm_keeps _ _ _ _ _ h
  | bondSelfTest _ _ _ _ => exact execBondSelfTest_keeps _ _ _ _ _ _ h
  | bondRotationOverdue _ _ => exact execBondRotationOverdue_keeps _ _ _ _ h
  | governorWindow _ _ _ => exact execGovernorWindow_keeps _ _ _ _ _ h
  | governorCorrection _ _ => exact execGovernorCorrection_keeps _ _ _ _ h
  | arrayPowerCycleDone _ _ => exact execArrayPowerCycleDone_keeps _ _ _ _ h
  | memCfgWrite _ _ _ => exact execMemCfgWrite_keeps _ _ _ _ _ h
  | lineFillDone _ _ _ => exact execLineFillDone_keeps _ _ _ _ _ h
  | lineIdleWriteback _ _ => exact execLineIdleWriteback_keeps _ _ _ _ h
  | gatehouseDrain _ _ _ => exact execGatehouseDrain_keeps _ _ _ _ _ h
  | perBankRefresh _ _ _ _ => exact execPerBankRefresh_keeps _ _ _ _ _ _ h
  | oscillatorMeasurement _ _ _ _ => exact execOscillatorMeasurement_keeps _ _ _ _ _ _ h
  | mr4Readout _ _ _ _ _ _ => exact execMr4Readout_keeps _ _ _ _ _ _ _ _ h
  | retrainDone _ _ _ => exact execRetrainDone_keeps _ _ _ _ _ h
  | mr4LimitRelease _ _ => exact execMr4LimitRelease_keeps _ _ _ _ h
  | patrolRead _ _ _ => exact execPatrolRead_keeps _ _ _ _ _ h
  | patrolLate _ => exact execPatrolLate_keeps _ _ _ h
  | memoryRemap _ _ _ => exact execMemoryRemap_keeps _ _ _ _ _ h
  | memoryRemapCopyDone _ => exact execMemoryRemapCopyDone_keeps _ _ _ h
  | gateFlipArm _ _ _ => exact execGateFlipArm_keeps _ _ _ _ _ h
  | gateFlipDisarm _ _ _ => exact execGateFlipDisarm_keeps _ _ _ _ _ h
  | bundleReceive _ _ _ _ => exact execBundleReceive_keeps _ _ _ _ _ _ h
  | idleFlitReceive _ _ _ _ => exact execIdleFlitReceive_keeps _ _ _ _ _ _ h
  | linkRetryTimeout _ _ _ => exact execLinkRetryTimeout_keeps _ _ _ _ _ h
  | blockLockGain _ _ _ => exact execBlockLockGain_keeps _ _ _ _ _ h
  | blockLockLoss _ _ _ => exact execBlockLockLoss_keeps _ _ _ _ _ h
  | linkFail _ _ _ => exact execLinkFail_keeps _ _ _ _ _ h
  | linkQuery _ _ _ => exact execLinkQuery_keeps _ _ _ _ _ h
  | linkReply _ _ _ _ => exact execLinkReply_keeps _ _ _ _ _ _ h
  | linkBackgroundRetrain _ _ _ _ => exact execLinkBackgroundRetrain_keeps _ _ _ _ _ _ h
  | detourRelay _ => exact execDetourRelay_keeps _ _ _ h
  | pairViaWrite _ _ _ => exact execPairViaWrite_keeps _ _ _ _ _ h
  | laneErrorWindow _ _ _ _ _ => exact execLaneErrorWindow_keeps _ _ _ _ _ _ _ h
  | lanternFit _ => exact execLanternFit_keeps _ _ _ h
  | lanternLock _ => exact execLanternLock_keeps _ _ _ h
  | lanternFault _ => exact execLanternFault_keeps _ _ _ h
  | emergencySwap _ => exact execEmergencySwap_keeps _ _ _ h
  | swapEast _ _ => exact execSwapEast_keeps _ _ _ _ h
  | swapWest _ _ => exact execSwapWest_keeps _ _ _ _ h
  | lanternReturn _ _ => exact execLanternReturn_keeps _ _ _ _ h
  | anomRecord _ _ => exact execAnomRecord_keeps _ _ _ _ h
  | recalBuffersEmpty _ _ => exact execRecalBuffersEmpty_keeps _ _ _ _ h
  | recalAbandon _ _ => exact execRecalAbandon_keeps _ _ _ _ h
  | sweepDone _ _ _ => exact execSweepDone_keeps _ _ _ _ _ h
  | recalGo _ _ _ => exact execRecalGo_keeps _ _ _ _ _ h
  | lightDetect _ => exact execLightDetect_keeps _ _ _ h
  | codewordLockGain _ => exact execCodewordLockGain_keeps _ _ _ h
  | codewordLockLoss _ => exact execCodewordLockLoss_keeps _ _ _ h
  | trainingFlitReceive _ _ => exact execTrainingFlitReceive_keeps _ _ _ _ h
  | portTrainRetry _ => exact execPortTrainRetry_keeps _ _ _ h
  | fabricBundleReceive _ _ => exact execFabricBundleReceive_keeps _ _ _ _ h
  | fabricIdleFlit _ _ => exact execFabricIdleFlit_keeps _ _ _ _ h
  | fabricRetryTimeout _ => exact execFabricRetryTimeout_keeps _ _ _ h
  | symbolErrorWindow _ _ => exact execSymbolErrorWindow_keeps _ _ _ _ h
  | portFail _ _ => exact execPortFail_keeps _ _ _ _ h
  | flinkQuery _ => exact execFlinkQuery_keeps _ _ _ h
  | flinkReply _ => exact execFlinkReply_keeps _ _ _ h
  | flinkReplyTimeout _ => exact execFlinkReplyTimeout_keeps _ _ _ h
  | portRetrain _ _ _ => exact execPortRetrain_keeps _ _ _ _ _ h
  | routeLoad _ _ _ => exact execRouteLoad_keeps _ _ _ _ _ h
  | routeLoadEntry _ => exact execRouteLoadEntry_keeps _ _ _ h
  | mcgLoad _ _ _ => exact execMcgLoad_keeps _ _ _ _ _ h
  | mcgLoadEntry _ => exact execMcgLoadEntry_keeps _ _ _ h
  | ringCtlWrite _ _ _ => exact execRingCtlWrite_keeps _ _ _ _ _ h
  | cmap _ => exact execCmap_keeps _ _ _ h
  | fabLoad _ _ => exact execFabLoad_keeps _ _ _ _ h
  | fabStore _ _ => exact execFabStore_keeps _ _ _ _ h
  | storeMasked _ _ => exact execStoreMasked_keeps _ _ _ _ h
  | atomic _ _ => exact execAtomic_keeps _ _ _ _ h
  | reduce _ _ => exact execReduce_keeps _ _ _ _ h
  | mcStore _ _ => exact execMcStore_keeps _ _ _ _ h
  | mcStoreCopy _ _ => exact execMcStoreCopy_keeps _ _ _ _ h
  | msg _ _ => exact execMsg_keeps _ _ _ _ h
  | tally _ _ => exact execTally_keeps _ _ _ _ h
  | signal _ _ => exact execSignal_keeps _ _ _ _ h
  | awaitNotify _ _ _ => exact execAwaitNotify_keeps _ _ _ _ _ h
  | combEntryClose _ _ _ => exact execCombEntryClose_keeps _ _ _ _ _ h
  | comp _ _ => exact execComp_keeps _ _ _ _ h
  | compData _ _ => exact execCompData_keeps _ _ _ _ h
  | mcRetryResend _ _ => exact execMcRetryResend_keeps _ _ _ _ h
  | mcTimeout _ _ => exact execMcTimeout_keeps _ _ _ _ h
  | dupFilterExpiry _ _ => exact execDupFilterExpiry_keeps _ _ _ _ h
  | windowCommit _ _ _ => exact execWindowCommit_keeps _ _ _ _ _ h
  | winLoad _ _ _ => exact execWinLoad_keeps _ _ _ _ _ h
  | winLoadEntry e => exact execWinLoadEntry_keeps e _ _ h
  | csValueWrite _ _ _ => exact execCsValueWrite_keeps _ _ _ _ _ h
  | refCtlWrite _ _ => exact execRefCtlWrite_keeps _ _ _ _ h
  | downStep _ _ => exact execDownStep_keeps _ _ _ _ h
  | clkModeWrite _ _ => exact execClkModeWrite_keeps _ _ _ _ h
  | meshEmergency _ => exact execMeshEmergency_keeps _ _ _ h
  | westTransitExchange _ => exact execWestTransitExchange_keeps _ _ _ h
  | timeSync _ _ => exact execTimeSync_keeps _ _ _ _ h
  | timeSyncResp _ _ _ => exact execTimeSyncResp_keeps _ _ _ _ _ h
  | ringTimeMessage _ _ _ => exact execRingTimeMessage_keeps _ _ _ _ _ h
  | exchangeTimeout _ => exact execExchangeTimeout_keeps _ _ _ h
  | rejoin _ _ => exact execRejoin_keeps _ _ _ _ h
  | timeSetWrite _ _ => exact execTimeSetWrite_keeps _ _ _ _ h
  | railFail _ _ => exact execRailFail_keeps _ _ _ _ h
  | busConverterFail _ => exact execBusConverterFail_keeps _ _ _ h
  | stackOverrun _ => exact execStackOverrun_keeps _ _ _ h
  | inputMonitorSample _ _ => exact execInputMonitorSample_keeps _ _ _ _ h
  | sensorSample _ => exact execSensorSample_keeps _ _ _ h
  | gatehouseTripResume _ => exact execGatehouseTripResume_keeps _ _ _ h
  | plinthTripFence _ => exact execPlinthTripFence_keeps _ _ _ h
  | holdPulse _ _ => exact execHoldPulse_keeps _ _ _ _ h
  | pulseAbsence _ => exact execPulseAbsence_keeps _ _ _ h
  | takeoverQuery _ => exact execTakeoverQuery_keeps _ _ _ h
  | takeover _ => exact execTakeover_keeps _ _ _ h
  | belfryRestart _ _ => exact execBelfryRestart_keeps _ _ _ _ h
  | belfryRestartCmd _ _ _ => exact execBelfryRestartCmd_keeps _ _ _ _ _ h
  | handover _ _ _ => exact execHandover_keeps _ _ _ _ _ h
  | selfTestRotation _ => exact execSelfTestRotation_keeps _ _ _ h
  | heartbeat _ => exact execHeartbeat_keeps _ _ _ h
  | regWrite _ => exact execRegWrite_keeps _ _ _ h
  | regRead _ => exact execRegRead_keeps _ _ _ h
  | admitAt _ => exact execAdmit_keeps _ _ _ h
  | pairTakeoverQuery _ => exact execPairTakeoverQuery_keeps _ _ _ h
  | mgmtResp _ => exact execMgmtResp_keeps _ _ _ h
  | layoutCommit _ _ => exact execLayoutCommit_keeps _ _ _ _ h
  | layoutDiscard _ _ => exact execLayoutDiscard_keeps _ _ _ _ h
  | entropyFail _ => exact execEntropyFail_keeps _ _ _ h
  | seClaim _ _ => exact execSeClaim_keeps _ _ _ _ h
  | seRelease _ _ => exact execSeRelease_keeps _ _ _ _ h
  | kxOffer _ _ => exact execKxOffer_keeps _ _ _ _ h
  | kxAccept _ _ _ => exact execKxAccept_keeps _ _ _ _ _ h
  | kxFinish _ _ _ => exact execKxFinish_keeps _ _ _ _ _ h
  | kxActivate _ _ => exact execKxActivate_keeps _ _ _ _ h
  | keyDrop _ _ => exact execKeyDrop_keeps _ _ _ _ h
  | sessionEnd _ _ => exact execSessionEnd_keeps _ _ _ _ h
  | oldKeyExpiry _ => exact execOldKeyExpiry_keeps _ _ _ h
  | attReport _ _ => exact execAttReport_keeps _ _ _ _ h
  | spdmGetVersion _ => exact execSpdmGetVersion_keeps _ _ _ h
  | spdmGetCapabilities _ => exact execSpdmGetCapabilities_keeps _ _ _ h
  | spdmNegotiateAlgorithms _ => exact execSpdmNegotiateAlgorithms_keeps _ _ _ h
  | spdmVendorDefined _ _ => exact execSpdmVendorDefined_keeps _ _ _ _ h
  | spdmKeyExchange _ => exact execSpdmKeyExchange_keeps _ _ _ h
  | ideKm _ _ => exact execIdeKm_keeps _ _ _ _ h
  | logAck _ _ => exact execLogAck_keeps _ _ _ _ h
  | logClear _ _ => exact execLogClear_keeps _ _ _ _ h
  | completionTimeout _ => exact execCompletionTimeout_keeps _ _ _ h
  | resetCold _ _ => exact execResetCold_keeps _ _ _ _ h
  | resetModule _ _ => exact execResetModule_keeps _ _ _ _ h
  | resetPlinth _ _ => exact execResetPlinth_keeps _ _ _ _ h
  | resetSpire _ _ => exact execResetSpire_keeps _ _ _ _ h
  | resetGatehouse _ _ => exact execResetGatehouse_keeps _ _ _ _ h
  | resetPartition _ _ => exact execResetPartition_keeps _ _ _ _ h
  | resetPort _ _ => exact execResetPort_keeps _ _ _ _ h
  | resetReturn _ _ => exact execResetReturn_keeps _ _ _ _ h
  | startStepEnd _ => exact execStartStepEnd_keeps _ _ _ h
  | startStepLimit _ => exact execStartStepLimit_keeps _ _ _ h
  | continue_ _ _ => exact execContinue_keeps _ _ _ _ h
  | save _ _ => exact execSave_keeps _ _ _ _ h
  | fabIdWrite _ _ => exact execFabIdWrite_keeps _ _ _ _ h
  | hostLinkTrain _ _ _ => exact execHostLinkTrain_keeps _ _ _ _ _ h
  | configRequest _ => exact execConfigRequest_keeps _ _ _ h
  | flr _ => exact execFlr_keeps _ _ _ h
  | windowRead _ _ _ => exact execWindowRead_keeps _ _ _ _ _ h
  | windowWrite _ _ _ => exact execWindowWrite_keeps _ _ _ _ _ h
  | mbTxData _ _ _ _ _ => exact execMbTxData_keeps _ _ _ _ _ _ _ h
  | mbRxPop _ _ _ => exact execMbRxPop_keeps _ _ _ _ _ h
  | doorbell _ _ _ => exact execDoorbell_keeps _ _ _ _ _ h
  | flushTx _ _ _ => exact execFlushTx_keeps _ _ _ _ _ h
  | flushRx _ _ _ => exact execFlushRx_keeps _ _ _ _ _ h
  | status _ _ => exact execStatus_keeps _ _ _ _ h
  | imageWrite _ _ _ _ _ => exact execImageWrite_keeps _ _ _ _ _ _ _ h
  | imageCommit _ _ _ _ => exact execImageCommit_keeps _ _ _ _ _ _ h
  | svnRaise m mid type svn => exact absurd rfl (hc m mid type svn)
  | wellRemap _ _ _ _ _ => exact execWellRemap_keeps _ _ _ _ _ _ _ h
  | logRead _ _ _ _ => exact execLogRead_keeps _ _ _ _ _ _ h
  | setDevId _ _ _ => exact execSetDevId_keeps _ _ _ _ _ h
  | sidebandInputEdge _ _ => exact execSidebandInputEdge_keeps _ _ _ _ h
  | inputChatter _ _ => exact execInputChatter_keeps _ _ _ _ h
  | chatterClear _ => exact execChatterClear_keeps _ _ _ h
  | inputStuck _ => exact execInputStuck_keeps _ _ _ h
  | registerWrite _ _ _ _ _ => exact execRegisterWrite_keeps _ _ _ _ _ _ _ h
  | unmappedWrite _ _ _ _ => exact execUnmappedWrite_keeps _ _ _ _ _ _ h
  | pageLock _ _ _ => exact execPageLock_keeps _ _ _ _ _ h
  | evcClr _ _ _ => exact execEvcClr_keeps _ _ _ _ _ h
  | evcCntWrite _ _ _ _ _ => exact execEvcCntWrite_keeps _ _ _ _ _ _ _ h
  | stretch _ _ => exact execStretch_keeps _ _ _ _ h
  | takeoverRefusal _ => exact execTakeoverRefusal_keeps _ _ _ h
  | registerRead _ _ _ => exact execRegisterRead_keeps _ _ _ _ _ h
  | tickCutoff => exact execTickCutoff_keeps _ _ h
  | selectorSettled => exact execSelectorSettled_keeps _ _ h
  | rotationRowStart => exact execRotationRowStart_keeps _ _ h
  | thermalMapPublish => exact execThermalMapPublish_keeps _ _ h
  | mapEpochEnd => exact execMapEpochEnd_keeps _ _ h
  | timeRefLoss => exact execTimeRefLoss_keeps _ _ h
  | refReturn => exact execRefReturn_keeps _ _ h
  | modeChangeComplete => exact execModeChangeComplete_keeps _ _ h
  | timeSyncSend => exact execTimeSyncSend_keeps _ _ h
  | arcChange => exact execArcChange_keeps _ _ h
  | arcReturn => exact execArcReturn_keeps _ _ h
  | joinTimeout => exact execJoinTimeout_keeps _ _ h
  | holdover => exact execHoldover_keeps _ _ h
  | hotSwapClose => exact execHotSwapClose_keeps _ _ h
  | inputUndervoltage => exact execInputUndervoltage_keeps _ _ h
  | inputOvervoltageWarn => exact execInputOvervoltageWarn_keeps _ _ h
  | inputCurrentLimit => exact execInputCurrentLimit_keeps _ _ h
  | powerFail => exact execPowerFail_keeps _ _ h
  | guardRecoveryStep => exact execGuardRecoveryStep_keeps _ _ h
  | throttleRecoveryStep => exact execThrottleRecoveryStep_keeps _ _ h
  | stuckHold => exact execStuckHold_keeps _ _ h
  | stuckHolderStopped => exact execStuckHolderStopped_keeps _ _ h
  | stateLogRecord => exact execStateLogRecord_keeps _ _ h
  | heartbeatSend => exact execHeartbeatSend_keeps _ _ h
  | engineLapse => exact execEngineLapse_keeps _ _ h
  | heartbeatLoss => exact execHeartbeatLoss_keeps _ _ h
  | claimLapse => exact execClaimLapse_keeps _ _ h
  | seCommandDone => exact execSeCommandDone_keeps _ _ h
  | attReportDone => exact execAttReportDone_keeps _ _ h
  | errorHandle => exact execErrorHandle_keeps _ _ h
  | plinthResetAssert => exact execPlinthResetAssert_keeps _ _ h
  | recoveryAutoReset => exact execRecoveryAutoReset_keeps _ _ h
  | resetNAssert => exact execResetNAssert_keeps _ _ h
  | resetNRelease => exact execResetNRelease_keeps _ _ h
  | smbusSensorRead => exact execSmbusSensorRead_keeps _ _ h
  | smbusPowerRead => exact execSmbusPowerRead_keeps _ _ h
  | smbusBootRead => exact execSmbusBootRead_keeps _ _ h
  | smbusSidebandRead => exact execSmbusSidebandRead_keeps _ _ h
  | smbusIdentityRead => exact execSmbusIdentityRead_keeps _ _ h
  | inputVoltageReturn => exact execInputVoltageReturn_keeps _ _ h
  | stuckHoldRelease => exact execStuckHoldRelease_keeps _ _ h

/-- A command leaves every minimum security version above the floors that it was above, and the queue as it is. -/
theorem exec_floor (floor : Nat → Nat) (c : Instr) (s t : State) (hs : ∀ k, floor k ≤ tget 0 s.store.svn k)
    (h : exec c s = .next t) : t.pending = s.pending ∧ ∀ k, floor k ≤ tget 0 t.store.svn k := by
  by_cases hc : ∃ m mid type svn, c = .svnRaise m mid type svn
  · obtain ⟨m, mid, type, svn, rfl⟩ := hc
    exact execSvnRaise_floor floor m mid type svn s t hs h
  · obtain ⟨hpending, hsvn⟩ := exec_keeps c (fun m mid type svn hcmd => hc ⟨m, mid, type, svn, hcmd⟩) s t h
    exact ⟨hpending, hsvn ▸ hs⟩

/-- Settles O7: an idle nanosecond changes neither, and the command at the front runs on the queue's rest (`exec_floor`). -/
theorem minimumVersionsNeverFall : Obligations.MinimumVersionsNeverFall := by
  unfold Obligations.MinimumVersionsNeverFall
  intro floor s t hs h
  unfold step at h
  split at h
  case h_1 hempty =>
    obtain ⟨hpending, hsvn⟩ := next_keeps h (idle_keeps s)
    exact ⟨hsvn ▸ hs, by rw [hpending, hempty]; rfl⟩
  case h_2 c rest hfront =>
    obtain ⟨hpending, hfloor⟩ := exec_floor floor c { s with pending := rest } t hs h
    exact ⟨hfloor, by rw [hpending, hfront]; rfl⟩

end Sys2Proof.Machine
end

section
/-! PROOF. The front of the queue, the empty queue (R23, R341, R500) and the state before the start. Time that passes moves
the clock, and its count of transit nanoseconds reaches the counters and their marks only (`pass_timePassed`). -/

namespace Sys2Proof.Machine

/-- An event that one counter meets changes the register file and the counters at most. -/
theorem evcHit_eq (s : State) (page code unit amt part k : Nat) :
    ∃ r e, s.evcHit page code unit amt part k = { s with rf := r, evc := e } := by
  unfold State.evcHit
  dsimp only
  split
  · exact ⟨s.rf, s.evc, rfl⟩
  · obtain ⟨r, hadd⟩ := evcAdd_eq { s with evc := _ } page k _
    exact ⟨r, _, hadd⟩

/-- Two states that differ in the clock, by a time, in the register file and in the counters at most. -/
def TimePassed (s : State) (d : Nat) (t : State) : Prop :=
  ∃ (clk : Clock) (r : Tab Word) (e : Tab Evc), t = { s with clk := clk, rf := r, evc := e } ∧ clk.elapsed = s.clk.elapsed + d

/-- An event of a counter takes no time. -/
theorem TimePassed.evcHit {s t : State} {d : Nat} (h : TimePassed s d t) (page code unit amt part k : Nat) :
    TimePassed s d (t.evcHit page code unit amt part k) := by
  obtain ⟨clk, r, e, rfl, helapsed⟩ := h
  obtain ⟨r', e', hhit⟩ := evcHit_eq { s with clk := clk, rf := r, evc := e } page code unit amt part k
  exact ⟨clk, r', e', hhit, helapsed⟩

/-- Time that passes moves the clock, the register file and the counters at most. -/
theorem pass_timePassed (s : State) (d : Nat) : TimePassed s d (s.pass d) := by
  unfold State.pass
  split
  case isTrue hd => exact ⟨s.clk, s.rf, s.evc, rfl, by omega⟩
  case isFalse =>
    refine List.foldlRecOn _ _ ?_ fun t ht c _ => ht.evcHit c.1 1 0 _ 15 c.2
    exact ⟨_, s.rf, s.evc, rfl, rfl⟩

/-- A state that differs in the clock, the register file and the counters only. -/
theorem frame_of_clk_rf_evc (s : State) (clk : Clock) (r : Tab Word) (e : Tab Evc) :
    Frame [.clk, .evc, .regs] s { s with clk := clk, rf := r, evc := e } := by
  intro p _ hp
  cases p
  case clk => simp at hp
  case regs => simp at hp
  case evc => simp at hp
  all_goals simp only [Piece.same, State.memByte, implies_true, and_self]

/-- Settles O1: it is the second case of a step. -/
theorem stepRunsTheFrontCommand : Obligations.StepRunsTheFrontCommand := fun _ _ _ => rfl

/-- Settles O2: an idle step is one nanosecond, which moves the clock, the counters and their marks only (`pass_timePassed`). -/
theorem emptyQueueIdles : Obligations.EmptyQueueIdles := by
  unfold Obligations.EmptyQueueIdles
  intro s hempty
  have hstep : step s = .next (s.pass 1) := by
    unfold step
    rw [hempty]
    rfl
  obtain ⟨clk, r, e, hpass, helapsed⟩ := pass_timePassed s 1
  refine ⟨hstep, ?_, ?_⟩
  · rw [hpass]
    exact frame_of_clk_rf_evc s clk r e
  · rw [hpass]
    exact helapsed

/-- Settles O4: the register file and memory list nothing, so every register reads its value of the map. -/
theorem resetHoldsTheStatedValues : Obligations.ResetHoldsTheStatedValues :=
  ⟨rfl, rfl, rfl, rfl, rfl, by decide, by decide, by decide, by decide, by decide, fun _ => rfl⟩

end Sys2Proof.Machine
end

section
/-! PROOF. A write that passes the checks of R486 has the outcome of the register's own rule; a load's progress (R31). -/

namespace Sys2Proof.Machine

/-- A write that passes the checks that come before the register's own rule has the outcome of that rule. -/
theorem write_accepted {s : State} {f : Func} {loc : Loc} {v : Word} (h : s.accepts f loc v) (op : State → WR) :
    s.write f loc v op = s.settle f loc (op s) := by
  obtain ⟨hopen, haccess⟩ := h
  unfold State.write
  simp [hopen, haccess]

@[simp] theorem settle_ok (s : State) (f : Func) (loc : Loc) (t : State) : s.settle f loc (.ok t) = t.managed := rfl

@[simp] theorem settle_error (s : State) (f : Func) (loc : Loc) (c : Nat) :
    s.settle f loc (.error c) = s.reject f (loc / 4096) (loc % 4096) c := rfl

/-- The outcome of a rule that takes the write when a condition holds. -/
theorem settle_ite (s : State) (f : Func) (loc : Loc) (c : Prop) [Decidable c] (r r' : WR) :
    s.settle f loc (if c then r else r') = if c then s.settle f loc r else s.settle f loc r' := apply_ite _ _ _ _

/-- GO, written as 1, is 1. -/
@[simp] theorem Word.put_go (v : Word) : (v.put 31 31 1).bit 31 = true := Word.put_bit_one v 31 (by decide)

end Sys2Proof.Machine
end

section
/-! PROOF. PFp_CTL (R48, R49, R52): a command that its partition's state admits waits for the tick. -/

namespace Sys2Proof.Machine

/-- PFp_CTL written with a command in a word whose form is right: it waits when the partition's state admits it. -/
theorem pfCtlOp_wellFormed (s : State) (f : Func) (p cmd : Nat) (v : Word) (hcmd : v.bits 1 0 = cmd) (hne : cmd ≠ 0)
    (hmgmt : f = .mgmt → rsvCheck (locFields (Loc.ptPfCtl p)) v = none)
    (hform : f ≠ .mgmt → wellFormedFor (Loc.ptPfCtl p) v) :
    s.pfCtlOp f p v = if s.pfCmdCheck p cmd = true then
      .ok ((if f = .mgmt then s else
        s.writeFields (Loc.ptPfCtl p) 0 v.toNat (some p) (locFields (Loc.ptPfCtl p))).pendField (Loc.ptPfCtl p) 1 0 cmd)
      else .error 5 := by
  have hcheck : (if f = .mgmt then rsvCheck (locFields (Loc.ptPfCtl p)) v
      else formCheck (locFields (Loc.ptPfCtl p)) v) = none := by
    by_cases hf : f = .mgmt
    · simpa [hf] using hmgmt hf
    · simpa [hf, wellFormedFor] using hform hf
  unfold State.pfCtlOp
  simp only [hcheck, hcmd, hne, if_false, beq_iff_eq]
  cases s.pfCmdCheck p cmd <;> rfl

/-- PFp_CTL written with a command, by a write that passes the checks of its page and of its form. -/
theorem pfCmd_accepted (s : State) (f : Func) (p : Fin 8) (v : Word) (cmd : Nat) (hlt : cmd < 4) (hne : cmd ≠ 0)
    (hok : s.accepts f (Loc.ptPfCtl p) (v.put 1 0 cmd))
    (hmgmt : f = .mgmt → rsvCheck (locFields (Loc.ptPfCtl p)) (v.put 1 0 cmd) = none)
    (hform : f ≠ .mgmt → wellFormedFor (Loc.ptPfCtl p) (v.put 1 0 cmd)) :
    s.pfCmd f p v cmd = if s.pfCmdCheck p cmd = true then
      ((if f = .mgmt then s else s.writeFields (Loc.ptPfCtl p) 0 (v.put 1 0 cmd).toNat (some p.val)
        (locFields (Loc.ptPfCtl p))).pendField (Loc.ptPfCtl p) 1 0 cmd).managed
      else s.reject f (Loc.ptPfCtl p / 4096) (Loc.ptPfCtl p % 4096) 5 := by
  have hbits : (v.put 1 0 cmd).bits 1 0 = cmd := (Word.put_bits v 1 0 cmd (by decide) (by decide)).trans (Nat.mod_eq_of_lt hlt)
  unfold State.pfCmd
  rw [write_accepted hok, pfCtlOp_wellFormed s f p cmd _ hbits hne hmgmt hform, settle_ite]
  rfl

/-- R49: the states in which a start is taken. -/
theorem pfCmdCheck_start (s : State) (p : Nat) :
    s.pfCmdCheck p 1 = true ↔ s.defined p = true ∧ (s.pfState p = 0 ∨ s.pfState p = 3) := by
  simp [State.pfCmdCheck]

/-- R49: the states in which a stop is taken. -/
theorem pfCmdCheck_stop (s : State) (p : Nat) : s.pfCmdCheck p 2 = true ↔ s.defined p = true ∧ s.pfState p ≠ 0 := by
  simp [State.pfCmdCheck]

/-- R49, R450: the states in which a resume is taken. -/
theorem pfCmdCheck_resume (s : State) (p : Nat) :
    s.pfCmdCheck p 3 = true ↔
      s.defined p = true ∧ (s.pfState p = 0 ∨ s.pfState p = 3) ∧ s.flag Loc.glFaultSts 0 = false := by
  simp [State.pfCmdCheck, and_assoc]

/-- Settles O8: each command has the outcome of `pfCmd_accepted` in the states that R49 lists for it. -/
theorem partitionCommandsPend : Obligations.PartitionCommandsPend := by
  unfold Obligations.PartitionCommandsPend
  intro s f p v
  refine ⟨?_, ?_, ?_⟩ <;> rintro ⟨hok, hmgmt, hform⟩
  · simp only [← pfCmdCheck_start]
    exact congrArg _ (pfCmd_accepted s f p v 1 (by decide) (by decide) hok hmgmt hform)
  · simp only [← pfCmdCheck_stop]
    exact congrArg _ (pfCmd_accepted s f p v 2 (by decide) (by decide) hok hmgmt hform)
  · simp only [← pfCmdCheck_resume]
    exact congrArg _ (pfCmd_accepted s f p v 3 (by decide) (by decide) hok hmgmt hform)

end Sys2Proof.Machine
end

section
/-! PROOF. The ephemeris and the task store (R30 to R33, R62, R63): words that pass their check are committed whole, one by one
or by a load. -/

namespace Sys2Proof.Machine

/-- A load that has an entry left goes on with it, and the last one shows no longer busy. -/
theorem loadNext_step (t : State) (w : LoadAt) (loc : Loc) (b : BulkLoad) (size m : Nat) :
    t.loadNext w loc (b.step size m) =
      if b.left ≤ 1 then (t.setLoad w none).setFlag loc 30 false
      else t.startLoad w { b with next := (b.next + 1) % m, left := b.left - 1, addr := b.addr + size } := by
  unfold BulkLoad.step
  split <;> rfl

/-- A checked commit of a slot. -/
theorem slotCommit_of_check (s : State) (n slot : Nat) (w : List Nat) (h : s.slotCheck (s.spireOwner n) w = none) :
    s.slotCommit n slot w =
      if s.slotLocked n slot = true then .error 7 else .ok (s.putWords (Loc.spEphData n) slot w) := by
  unfold State.slotCommit
  rw [h]

/-- A commit of a slot that fails its check. -/
theorem slotCommit_of_fail (s : State) (n slot : Nat) (w : List Nat) (c : Nat)
    (h : s.slotCheck (s.spireOwner n) w = some c) : s.slotCommit n slot w = .error c := by
  unfold State.slotCommit
  rw [h]

/-- EPH_DATA15 with words that fail the commit check. -/
theorem ephDataOp_of_fail (s : State) (n : Nat) (v : Word) (c : Nat)
    (h : s.slotCheck (s.spireOwner n) (s.staged (Loc.spEphData n) 16 v) = some c) : s.ephDataOp n 15 v = .error c := by
  unfold State.ephDataOp
  simp [h]

/-- EPH_DATA15 with words that pass the commit check. -/
theorem ephDataOp_of_check (s : State) (n : Nat) (v : Word)
    (h : s.slotCheck (s.spireOwner n) (s.staged (Loc.spEphData n) 16 v) = none) :
    s.ephDataOp n 15 v = if s.flag (Loc.spEphLoad n) 30 = true then .error 6
      else if s.slotLocked n (s.fld (Loc.spEphSel n) 9 0) = true then .error 7
      else .ok ((s.putWords (Loc.spEphData n) (s.fld (Loc.spEphSel n) 9 0) (s.staged (Loc.spEphData n) 16 v)).autoInc
        (Loc.spEphSel n) 9 1024) := by
  unfold State.ephDataOp
  simp only [h, slotCommit_of_check s n _ _ h]
  simp only [Nat.lt_irrefl, if_false]
  by_cases hlocked : s.slotLocked n (s.fld (Loc.spEphSel n) 9 0) = true <;> simp [hlocked]

/-- EPH_LOAD with GO, past the bulk-load check. -/
theorem ephLoadOp_of_check (s : State) (f : Func) (n : Nat) (v : Word) (hgo : v.bit 31 = true)
    (h : s.bulkCheck (Loc.spEphLoad n) v (s.addrOf (Loc.spEphLoadAddrLo n)) (v.bits 9 0) (v.bits 20 10) 1024 2048 64 = none) :
    s.ephLoadOp f n v =
      if ((List.range (v.bits 20 10)).any fun i => s.slotLocked n ((v.bits 9 0 + i) % 1024)) = true then .error 7
      else .ok ((s.bulkStore (Loc.spEphLoad n) v true).startLoad (.eph n)
        { next := v.bits 9 0, left := v.bits 20 10, addr := s.addrOf (Loc.spEphLoadAddrLo n), f := f }) := by
  unfold State.ephLoadOp
  simp only [h, hgo, Bool.not_true, Bool.false_eq_true, if_false]

/-- The next slot of a load under way. -/
theorem exec_ephLoadSlotCommit (s : State) (n : Fin 16) (b : BulkLoad) (h : (s.spire n).ephLoad = some b) :
    exec (.ephLoadSlotCommit n) s = match b.entry 64 with
      | none => .next (s.askLoad (.eph n))
      | some none => .next (s.loadNext (.eph n) (Loc.spEphLoad n) (b.step 64 1024))
      | some (some w) => .next ((s.settle b.f (Loc.spEphLoad n) (s.slotCommit n b.next w)).loadNext (.eph n)
          (Loc.spEphLoad n) (b.step 64 1024)) := by
  change execEphLoadSlotCommit n s = _
  unfold execEphLoadSlotCommit
  rw [h]
  dsimp only
  generalize b.entry 64 = r
  rcases r with _ | _ | w <;> rfl

/-- Settles O9: the lemmas on the commit of a slot, and `loadNext_step` for a load. -/
theorem ephemerisIsFilled : Obligations.EphemerisIsFilled := by
  unfold Obligations.EphemerisIsFilled
  refine ⟨?_, ?_⟩
  · intro s f n v hacc w slot put refused
    have hexec : exec (.ephCommit f n v) s = .next (s.settle f (Loc.spEphData n 15) (s.ephDataOp n 15 v)) :=
      congrArg _ (write_accepted hacc _)
    rw [hexec]
    refine ⟨fun c hfail => ?_, fun hpass => ?_⟩
    · rw [ephDataOp_of_fail s n v c hfail]
      rfl
    · rw [ephDataOp_of_check s n v hpass, settle_ite, settle_ite]
      rfl
  · intro s f n loc
    refine ⟨?_, ?_⟩
    · intro v go hacc b hcheck
      have hexec : exec (.ephLoad f n v) s = .next (s.settle f loc (s.ephLoadOp f n go)) :=
        congrArg _ (write_accepted hacc _)
      rw [hexec, ephLoadOp_of_check s f n go (Word.put_go v) hcheck, settle_ite]
      rfl
    · intro b hload rest goOn refused
      have hgoOn : ∀ t : State, t.loadNext (.eph n) (Loc.spEphLoad n) (b.step 64 1024) = goOn t :=
        fun t => loadNext_step t (.eph n) _ b 64 1024
      rw [exec_ephLoadSlotCommit s n b hload]
      simp only [hgoOn]
      refine ⟨fun h => by rw [h], fun h => by rw [h], fun w h => ?_⟩
      rw [h]
      refine ⟨fun c hfail => ?_, fun hpass => ?_⟩
      · simp only [slotCommit_of_fail s n b.next w c hfail]
        rfl
      · simp only [slotCommit_of_check s n b.next w hpass, settle_ite, apply_ite goOn]
        rfl

end Sys2Proof.Machine
end

section
/-! PROOF. Task descriptors (R62, R63, R31). -/

namespace Sys2Proof.Machine

/-- A descriptor that fails its check is not committed. -/
theorem tskCommit_of_fail (s : State) (n i : Nat) (w : List Nat) (c : Nat)
    (h : s.taskCheck (s.spireOwner n) w = some c) : s.tskCommit n i w = .error c := by
  unfold State.tskCommit
  rw [h]

/-- A checked commit of a descriptor. -/
theorem tskCommit_of_check (s : State) (n i : Nat) (w : List Nat) (h : s.taskCheck (s.spireOwner n) w = none) :
    s.tskCommit n i w = if s.taskLocked n i = true then .error 7 else .ok (s.putWords (Loc.spTskData n) i w) := by
  unfold State.tskCommit
  rw [h]

/-- TSK_DATA7 with words that fail the commit check. -/
theorem tskDataOp_of_fail (s : State) (n : Nat) (v : Word) (c : Nat)
    (h : s.taskCheck (s.spireOwner n) (s.staged (Loc.spTskData n) 8 v) = some c) : s.tskDataOp n 7 v = .error c := by
  unfold State.tskDataOp
  simp [h]

/-- TSK_DATA7 with words that pass the commit check. -/
theorem tskDataOp_of_check (s : State) (n : Nat) (v : Word)
    (h : s.taskCheck (s.spireOwner n) (s.staged (Loc.spTskData n) 8 v) = none) :
    s.tskDataOp n 7 v = if s.flag (Loc.spTskLoad n) 30 = true then .error 6
      else if s.taskLocked n (s.fld (Loc.spTskSel n) 13 0) = true then .error 7
      else .ok ((s.putWords (Loc.spTskData n) (s.fld (Loc.spTskSel n) 13 0) (s.staged (Loc.spTskData n) 8 v)).autoInc
        (Loc.spTskSel n) 13 16384) := by
  unfold State.tskDataOp
  simp only [h, tskCommit_of_check s n _ _ h]
  by_cases hlocked : s.taskLocked n (s.fld (Loc.spTskSel n) 13 0) = true <;> simp [hlocked]

/-- TSK_LOAD with GO, past the bulk-load check. -/
theorem tskLoadOp_of_check (s : State) (f : Func) (n : Nat) (v : Word) (hgo : v.bit 31 = true)
    (h : s.bulkCheck (Loc.spTskLoad n) v (s.addrOf (Loc.spTskLoadAddrLo n)) (v.bits 13 0) (v.bits 28 14) 16384 32768 32 = none) :
    s.tskLoadOp f n v =
      if ((List.range (v.bits 28 14)).any fun i => s.taskLocked n ((v.bits 13 0 + i) % 16384)) = true then .error 7
      else .ok ((s.bulkStore (Loc.spTskLoad n) v true).startLoad (.tsk n)
        { next := v.bits 13 0, left := v.bits 28 14, addr := s.addrOf (Loc.spTskLoadAddrLo n), f := f }) := by
  unfold State.tskLoadOp
  simp only [h, hgo, Bool.not_true, Bool.false_eq_true, if_false]

/-- The next descriptor of a load under way. -/
theorem exec_tskLoadEntryCommit (s : State) (n : Fin 16) (b : BulkLoad) (h : (s.spire n).tskLoad = some b) :
    exec (.tskLoadEntryCommit n) s = match b.entry 32 with
      | none => .next (s.askLoad (.tsk n))
      | some none => .next (s.loadNext (.tsk n) (Loc.spTskLoad n) (b.step 32 16384))
      | some (some w) => .next ((s.settle b.f (Loc.spTskLoad n) (s.tskCommit n b.next w)).loadNext (.tsk n)
          (Loc.spTskLoad n) (b.step 32 16384)) := by
  change execTskLoadEntryCommit n s = _
  unfold execTskLoadEntryCommit
  rw [h]
  dsimp only
  generalize b.entry 32 = r
  rcases r with _ | _ | w <;> rfl

/-- Settles O10: the lemmas on the commit of a descriptor, and `loadNext_step` for a load. -/
theorem descriptorsAreCommitted : Obligations.DescriptorsAreCommitted := by
  unfold Obligations.DescriptorsAreCommitted
  intro s f n loc
  refine ⟨?_, ?_, ?_⟩
  · intro v hacc w i put refused
    have hexec : exec (.taskCommit f n v) s = .next (s.settle f (Loc.spTskData n 7) (s.tskDataOp n 7 v)) :=
      congrArg _ (write_accepted hacc _)
    rw [hexec]
    refine ⟨fun c hfail => ?_, fun hpass => ?_⟩
    · rw [tskDataOp_of_fail s n v c hfail]
      rfl
    · rw [tskDataOp_of_check s n v hpass, settle_ite, settle_ite]
      rfl
  · intro v go hacc b hcheck
    have hexec : exec (.tskLoad f n v) s = .next (s.settle f loc (s.tskLoadOp f n go)) :=
      congrArg _ (write_accepted hacc _)
    rw [hexec, tskLoadOp_of_check s f n go (Word.put_go v) hcheck, settle_ite]
    rfl
  · intro b hload rest goOn refused
    have hgoOn : ∀ t : State, t.loadNext (.tsk n) (Loc.spTskLoad n) (b.step 32 16384) = goOn t :=
      fun t => loadNext_step t (.tsk n) _ b 32 16384
    rw [exec_tskLoadEntryCommit s n b hload]
    simp only [hgoOn]
    refine ⟨fun h => by rw [h], fun h => by rw [h], fun w h => ?_⟩
    rw [h]
    refine ⟨fun c hfail => ?_, fun hpass => ?_⟩
    · simp only [tskCommit_of_fail s n b.next w c hfail]
      rfl
    · simp only [tskCommit_of_check s n b.next w hpass, settle_ite, apply_ite goOn]
      rfl

end Sys2Proof.Machine
end

section
/-! PROOF. The sequencer (R34, R37, R39, R43): slots become eligible at their time, move their descriptors in their turn, and
are told over budget and late. -/

namespace Sys2Proof.Machine

/-- A region's count that no tick precedes is reached, and nothing but time has passed. -/
theorem waitCycles_reaches (s : State) (r : Nat) (c : Int) (h : s.reaches (s.cycleAt r c)) :
    s.waitCycles r c = some (s.atTime (s.cycleAt r c)) := waitUntil_reaches s _ h

/-- Two changes of an element of a table are one. -/
theorem lmod_lmod {α : Type} (l : List α) (i : Nat) (f g : α → α) : lmod (lmod l i f) i g = lmod l i fun x => g (f x) := by
  unfold lmod
  rw [List.modify_modify_eq]
  rfl

/-- Two changes of a spire are one. -/
theorem modSpire_modSpire (s : State) (n : Nat) (f g : Spire → Spire) :
    (s.modSpire n f).modSpire n g = s.modSpire n fun sp => g (f sp) :=
  congrArg (fun l => ({ s with spires := l } : State)) (lmod_lmod _ _ _ _)

/-- R34: an await that is not enabled, or found satisfied, is not looked at. -/
theorem slotAwait_none (s : State) (n : Nat) (e : SlotRun) (second : Bool)
    (h : s.awaitEn n e.slot second = true → (if second = true then e.a1 else e.a0) = true) : s.slotAwait n e second = none := by
  unfold State.slotAwait
  rw [if_pos]
  cases hen : s.awaitEn n e.slot second
  · rfl
  · rw [h hen]
    rfl

/-- R34: a slot whose enabled awaits are all satisfied becomes eligible. -/
theorem slotElig_some (s : State) (n : Nat) (e : SlotRun) (h0 : s.awaitEn n e.slot false = true → e.a0 = true)
    (h1 : s.awaitEn n e.slot true = true → e.a1 = true) :
    s.slotElig n e = some (s.modSpire n fun sp => sp.setSlot
      { e with elig := true, frames := (s.get (Loc.ptPfFrames (s.spireOwner n))).toNat }) := by
  unfold State.slotElig
  rw [if_pos]
  cases hen0 : s.awaitEn n e.slot false <;> cases hen1 : s.awaitEn n e.slot true <;> simp_all

/-- R34: from START_NS on, a slot without an await to wait for becomes eligible. -/
theorem slotProgress_elig (s : State) (n : Nat) (e : SlotRun) (helig : e.elig = false) (hfading : e.fading = false)
    (htime : e.t0 + s.slotStart n e.slot ≤ s.clk.count) (hrun : s.mayRun n = true)
    (h0 : s.awaitEn n e.slot false = true → e.a0 = true) (h1 : s.awaitEn n e.slot true = true → e.a1 = true) :
    s.slotProgress n e = some (s.modSpire n fun sp => sp.setSlot
      { e with elig := true, frames := (s.get (Loc.ptPfFrames (s.spireOwner n))).toNat }) := by
  unfold State.slotProgress
  simp only [helig, hfading, hrun, Nat.not_lt.mpr htime, slotAwait_none s n e false h0, slotAwait_none s n e true h1,
    slotElig_some s n e h0 h1, Bool.false_eq_true, if_false, Bool.not_true, Bool.or_false, decide_false]

/-- R34: before START_NS a slot waits. -/
theorem slotProgress_early (s : State) (n : Nat) (e : SlotRun) (helig : e.elig = false)
    (htime : s.clk.count < e.t0 + s.slotStart n e.slot) : s.slotProgress n e = none := by
  unfold State.slotProgress
  simp [helig, htime]

/-- R37: the descriptor that the next task of a slot carries. -/
theorem nextTask_of_isSome (s : State) (n : Nat) (e : SlotRun) (h : (s.nextTask n e).isSome = true) :
    let i := s.slotBase n e.slot + e.sent
    s.nextTask n e = some { words := s.descriptor n i, slot := e.slot, desc := i, t0 := e.t0, frames := e.frames } := by
  unfold State.nextTask at h ⊢
  split at h
  case isTrue hmore => exact if_pos hmore
  case isFalse => simp at h

/-- DESCRIPTOR_DISPATCH in the turn of a slot that has a descriptor left: it moves when its queue has room, and to a south
cell when the crossing has. -/
theorem exec_descriptorDispatch (s : State) (n : Fin 16) (slot : Fin 1024) (e : SlotRun) (q : QTask)
    (hout : (s.spire n).out = 0)
    (hslot : (s.spire n).window.find? (fun e => e.slot == slot.val && (s.nextTask n e).isSome) = some e)
    (hturn : s.slotTurn n e = true) (hnext : s.nextTask n e = some q) :
    exec (.descriptorDispatch n slot) s = .next (if (s.spire n).queueRoom q = true then
      ((if q.south then s.crossRoom n true else some s).map fun t => t.dispatchOne n e q).getD s else s) := by
  change execDescriptorDispatch n slot s = _
  unfold execDescriptorDispatch
  simp only [hout, hslot, hnext, hturn, bne_self_eq_false, Bool.false_eq_true, if_false, Bool.and_true]
  split
  case isTrue =>
    generalize (if q.south = true then s.crossRoom n true else some s) = r
    cases r <;> rfl
  case isFalse => rfl

/-- A task for the dispatch unit joins its queue. -/
theorem enqueue_du (sp : Spire) (q : QTask) (h : q.du = true) :
    sp.enqueue q = { sp with du := { sp.du with queue := sp.du.queue ++ [q] } } := if_pos h

/-- A task for a cell joins its queue. -/
theorem enqueue_cell (sp : Spire) (q : QTask) (h : q.du = false) :
    sp.enqueue q = sp.modCell q.cell fun c => { c with queue := c.queue ++ [q] } := if_neg (by simp [h])

/-- A descriptor that passes no crossing. -/
theorem dispatchOne_direct (s : State) (n : Nat) (e : SlotRun) (q : QTask) (h : q.south = false) :
    s.dispatchOne n e q = s.modSpire n fun sp =>
      ((sp.turns e).setSlot (e.dispatched (s.cycles (2 * n)) (s.cycles (2 * n + 1)))).enqueue { q with due := 0 } := by
  unfold State.dispatchOne
  rw [h]
  rfl

/-- A descriptor that passes the crossing to the south. -/
theorem dispatchOne_south (s : State) (n : Nat) (e : SlotRun) (q : QTask) (h : q.south = true) :
    s.dispatchOne n e q = (s.crossWrite n true).1.modSpire n fun sp =>
      ((sp.turns e).setSlot (e.dispatched (s.cycles (2 * n)) (s.cycles (2 * n + 1)))).enqueue
        { q with due := (s.crossWrite n true).2 } := by
  unfold State.dispatchOne
  rw [h]
  rfl

/-- The dispatch unit's queue has 16 places. -/
theorem queueRoom_du (sp : Spire) (q : QTask) (h : q.du = true) : sp.queueRoom q = true ↔ ¬ 16 ≤ sp.du.queue.length := by
  simp [Spire.queueRoom, h]

/-- A cell's queue has 64 places. -/
theorem queueRoom_cell (sp : Spire) (q : QTask) (h : q.du = false) :
    sp.queueRoom q = true ↔ ¬ 64 ≤ (sp.cell q.cell).queue.length := by
  simp [Spire.queueRoom, h]

/-- Settles O11: each command waits for its moment (`waitUntil_reaches`); a slot's progress, its next task and its turn have
their own lemmas. -/
theorem slotsRun : Obligations.SlotsRun := by
  unfold Obligations.SlotsRun
  refine ⟨?_, ?_, ?_⟩
  · intro s n
    refine ⟨?_, ?_⟩
    · intro slot e hslot at_ hreach
      change execSlotStartTime n slot s = _
      unfold execSlotStartTime
      rw [hslot]
      dsimp only
      rw [waitUntil_reaches s _ hreach]
    · intro e helig hfading
      exact ⟨slotProgress_early s n e helig, slotProgress_elig s n e helig hfading⟩
  · intro s n slot e hout hslot hturn i q sent
    have hnext : s.nextTask n e = some q :=
      nextTask_of_isSome s n e (by have := List.find?_some hslot; simp_all)
    have hexec := exec_descriptorDispatch s n slot e q hout hslot hturn hnext
    refine ⟨?_, ?_, ?_, ?_⟩
    · intro hdu
      have hsouth : q.south = false := by simp [QTask.south, hdu]
      rw [hexec, hsouth]
      simp only [queueRoom_du _ q hdu, ite_not, Bool.false_eq_true, if_false, Option.map_some, Option.getD_some,
        dispatchOne_direct s n e q hsouth, enqueue_du _ { q with due := 0 } hdu]
      rfl
    · intro hdu hnorth
      have hsouth : q.south = false := by simp [QTask.south, hdu, hnorth]
      rw [hexec, hsouth]
      simp only [queueRoom_cell _ q hdu, ite_not, Bool.false_eq_true, if_false, Option.map_some, Option.getD_some,
        dispatchOne_direct s n e q hsouth, enqueue_cell _ { q with due := 0 } hdu]
      rfl
    · intro hdu hcell hfull
      have hsouth : q.south = true := by simp [QTask.south, hdu, hcell]
      rw [hexec, hsouth]
      rcases hfull with hfull | hfull
      · rw [if_neg fun h => (queueRoom_cell _ q hdu).mp h hfull]
      · rw [if_pos rfl, hfull]
        simp
    · intro hdu hcell hroom u hu r
      have hsouth : q.south = true := by simp [QTask.south, hdu, hcell]
      rw [hexec, hsouth, if_pos ((queueRoom_cell _ q hdu).mpr (Nat.not_le.mpr hroom)), if_pos rfl, hu]
      simp only [Option.map_some, Option.getD_some, dispatchOne_south u n e q hsouth,
        enqueue_cell _ { q with due := (u.crossWrite n true).2 } hdu]
      rfl
  · intro s n slot
    refine ⟨?_, ?_⟩
    · intro e south hslot hin at_ hreach u
      change execSlotOverBudget n slot south s = _
      unfold execSlotOverBudget
      rw [hslot]
      simp only [hin, Bool.not_true, Bool.false_eq_true, if_false]
      rw [waitCycles_reaches s _ _ hreach]
      rfl
    · intro r hrun hopen hlate hmay at_ hreach u p w x
      change execSlotLate n slot s = _
      unfold execSlotLate
      rw [hrun]
      simp only [hopen, hlate, hmay, Bool.not_true, Bool.or_self, Bool.false_eq_true, if_false]
      rw [waitUntil_reaches s _ hreach]
      have hw : (u.modRun n fun r => { r with lates := r.lates ++ [slot.val] }).modSpire n
          (fun sp => { sp with rec_ := { sp.rec_ with late := some (sp.rec_.late.getD slot) } }) = w := modSpire_modSpire u n _ _
      unfold State.raiseLate
      dsimp only
      rw [hw]
      rfl

end Sys2Proof.Machine
end

section
/-! PROOF. Tasks start at the head of their queue and retire (R64, R65). -/

namespace Sys2Proof.Machine

/-- A descriptor is through its crossing when no tick comes before. -/
theorem arriving_reaches (s : State) (q : QTask) (h : s.reaches q.due) : s.arriving q = some (s.atTime q.due) := by
  unfold State.arriving
  split
  case isTrue hpast => simp [State.atTime, State.pass, Nat.sub_eq_zero_of_le hpast]
  case isFalse => exact waitUntil_reaches s _ h

/-- FENCE, if set, finds every unit of the cell idle (R64). -/
def Cell.fenceHolds (x : Cell) (q : QTask) : Prop := q.fence = true → x.m = none ∧ x.v = none ∧ x.x = none

/-- FENCE as the model judges it. -/
theorem fenceHolds_iff (x : Cell) (q : QTask) :
    (!q.fence || (x.m.isNone && x.v.isNone && x.x.isNone)) = true ↔ x.fenceHolds q := by
  cases hf : q.fence <;> simp [Cell.fenceHolds, hf, and_assoc]

/-- The head of a failed cell's queue retires with cause 6 (R77). -/
theorem exec_taskStart_failed (s : State) (n : Fin 16) (c : Fin 64) (q : QTask) (rest : List QTask) (hout : (s.spire n).out = 0)
    (hqueue : (s.cell n c).queue = q :: rest) (hfailed : (s.cell n c).failed = true) :
    exec (.taskStart n (some c)) s = .next
      (((s.modCell n c fun x => { x with queue := rest }).retire n c { q := q, done := true, cause := 6 }).settleAll) := by
  change execTaskStart n (some c) s = _
  unfold execTaskStart
  simp [hout, hqueue, hfailed, State.retireLost]

/-- The head of a working cell's queue starts on the free unit of its operation. -/
theorem exec_taskStart_ready (s : State) (n : Fin 16) (c : Fin 64) (q : QTask) (rest : List QTask) (hout : (s.spire n).out = 0)
    (hqueue : (s.cell n c).queue = q :: rest) (hfailed : (s.cell n c).failed = false) (hticket : s.ticketOk n q = true)
    (hfence : (s.cell n c).fenceHolds q) (hreach : s.reaches q.due) (hop : opUnit q.op < 3)
    (hfree : (s.cell n c).unit (opUnit q.op) = none) :
    exec (.taskStart n (some c)) s = .next ((s.atTime q.due).modCell n c fun x =>
      ({ x with queue := rest }.setUnit (opUnit q.op) (some { q := q })).absorb) := by
  have hready : s.headReady n c q = true := by
    unfold State.headReady
    simp only [hticket, (fenceHolds_iff _ q).mpr hfence, hfree, Option.isNone_none, Bool.and_self]
  change execTaskStart n (some c) s = _
  unfold execTaskStart
  simp [hout, hqueue, hfailed, hready, Nat.not_le.mpr hop, arriving_reaches s q hreach]

/-- A TICKET at the head of a working cell's queue retires at once. -/
theorem exec_ticket_ready (s : State) (n : Fin 16) (c : Fin 64) (q : QTask) (rest : List QTask) (hout : (s.spire n).out = 0)
    (hqueue : (s.cell n c).queue = q :: rest) (hfailed : (s.cell n c).failed = false) (hticket : s.ticketOk n q = true)
    (hfence : (s.cell n c).fenceHolds q) (hreach : s.reaches q.due) (hop : q.op = 9) :
    exec (.ticket n c) s = .next
      ((((s.atTime q.due).modCell n c fun x => { x with queue := rest }).retire n c { q := q, done := true }).settleAll) := by
  have hblocked : ¬ (q.fence = true ∧
      (!((s.cell n c).m.isNone && (s.cell n c).v.isNone && (s.cell n c).x.isNone)) = true) := by
    rintro ⟨hf, hbusy⟩
    have := (fenceHolds_iff _ q).mpr hfence
    simp_all
  change execTicket n c s = _
  unfold execTicket
  simp only [hout, hqueue, hfailed, hticket, hop, hblocked, arriving_reaches s q hreach, ne_eq, not_true_eq_false,
    bne_self_eq_false, Bool.false_eq_true, Bool.not_true, or_self, if_false]

/-- The head of the dispatch unit's queue starts with the entries of the expert map that it names (R87). -/
theorem exec_taskStart_du (s : State) (n : Fin 16) (q : QTask) (rest : List QTask) (hout : (s.spire n).out = 0)
    (hidle : (s.spire n).du.cur = none) (hqueue : (s.spire n).du.queue = q :: rest) (hticket : s.ticketOk n q = true) :
    let map := (List.range (bitsOf q.ext1 24 12)).map fun i => (s.get (Loc.spXmapData n) (bitsOf q.ext1 11 0 + i)).toNat
    exec (.taskStart n none) s = .next
      (s.modSpire n fun sp => { sp with du := { queue := rest, cur := some { a := { q := q }, map := map } } }) := by
  change execTaskStart n none s = _
  unfold execTaskStart
  simp [hout, hidle, hqueue, hticket]

/-- What leaves the cell to its neighbours has left. -/
theorem drained_of (x : Cell) (q : QTask) (ha : q.aOut = true → x.outE = []) (hb : q.bOut = true → x.outS = []) :
    x.drained q = true := by
  cases hae : q.aOut <;> cases hbe : q.bOut <;> simp_all [Cell.drained]

/-- A cell's task whose action is complete leaves its unit and retires. -/
theorem exec_taskRetire_cell (s : State) (n : Fin 16) (c : Fin 64) (u : UnitClass) (a : ATask)
    (hunit : (s.cell n c).unit (unitNat u) = some a) (hdone : a.done = true) (hwait : a.wait = 0)
    (hdrained : (s.cell n c).drained a.q = true) :
    exec (.taskRetire n (.cell c u)) s =
      .next (((s.modCell n c fun x => x.setUnit (unitNat u) none).retire n c a).settleAll) := by
  change execTaskRetire n (.cell c u) s = _
  unfold execTaskRetire
  simp [hunit, hdone, hwait, hdrained]

/-- The dispatch unit's task that has sent all it collected retires. -/
theorem exec_taskRetire_du (s : State) (n : Fin 16) (t : DuTask) (hcur : (s.spire n).du.cur = some t)
    (hwalked : t.walked = true) (hitems : t.items = []) (hout : (s.spire n).duOut = 0) :
    exec (.taskRetire n .du) s =
      .next (((s.modSpire n fun sp => { sp with du := { sp.du with cur := none } }).retire n 64 t.a).settleAll) := by
  change execTaskRetire n .du s = _
  unfold execTaskRetire
  simp [hcur, hwalked, hitems, hout]

/-- Settles O13: a lemma for each place from which a task starts and retires; `retires` is `State.retire` written out. -/
theorem tasksStartAndRetire : Obligations.TasksStartAndRetire := by
  unfold Obligations.TasksStartAndRetire
  refine ⟨?_, ?_⟩
  · intro s n c hout
    refine ⟨fun q rest hqueue => ⟨?_, ?_⟩, ?_⟩
    · exact exec_taskStart_failed s n c q rest hout hqueue
    · intro hfailed hticket hfence hreach u
      exact ⟨exec_taskStart_ready s n c q rest hout hqueue hfailed hticket hfence hreach,
        exec_ticket_ready s n c q rest hout hqueue hfailed hticket hfence hreach⟩
    · intro q rest hidle hqueue hticket map
      exact exec_taskStart_du s n q rest hout hidle hqueue hticket
  · intro s n retires
    refine ⟨?_, ?_⟩
    · intro c u a hunit hdone hwait hA hB
      exact exec_taskRetire_cell s n c u a hunit hdone hwait (drained_of _ a.q hA hB)
    · intro t hcur hwalked hitems hduOut
      exact exec_taskRetire_du s n t hcur hwalked hitems hduOut

end Sys2Proof.Machine
end

section
/-! PROOF. MMA, RELAY, VOP and MOVE (R67, R105 to R112, R118 to R120): what ends a started task, and what it writes. Each proof
follows the operands in the order in which the task reads them. -/

namespace Sys2Proof.Machine

/-- MMA: the edge of the array, the room at DST, the A strip, the B strip. -/
theorem mma_completes (s : State) (n : Fin 16) (c : Fin 64) (a : ATask) (hrun : s.running n c 1 = some a) :
    let misfit := 2 ≤ a.q.acc ∧ (spotOf a.q.cell a.q.dst).fits 0 (elemBytes a.q.fmtD 1024) = false
    (noNeighbour c a.q = true → execMma n c s = .next (s.acted n c 1 5 0)) ∧
    (noNeighbour c a.q = false → misfit → execMma n c s = .next (s.acted n c 1 1 0)) ∧
    (noNeighbour c a.q = false → ¬ misfit →
      let ra := s.relayOperand n c a.q true (stripBytes a.q.fmtA a.q.count a.q.mx)
      let rb := ra.1.relayOperand n c a.q false (stripBytes a.q.fmtB a.q.count a.q.mx)
      (ra.2 = .wait → execMma n c s = .next s) ∧
      (∀ k, ra.2 = .bad k → execMma n c s = .next (ra.1.acted n c 1 k 0)) ∧
      (∀ sa, ra.2 = .ok sa →
        (rb.2 = .wait → execMma n c s = .next s) ∧
        (∀ k, rb.2 = .bad k → execMma n c s = .next (rb.1.acted n c 1 k 0)) ∧
        (∀ sb, rb.2 = .ok sb → execMma n c s = .next ((rb.1.mmaRun n c a.q sa sb).acted n c 1 0 0)))) := by
  unfold execMma
  rw [hrun]
  dsimp only
  refine ⟨fun hedge => if_pos hedge, fun hedge hmisfit => ?_, fun hedge hfits => ?_⟩
  · rw [if_neg (by simp [hedge]), if_pos (by simpa using hmisfit)]
  · rw [if_neg (by simp [hedge]), if_neg (by simpa using hfits)]
    refine ⟨fun ha => by rw [ha], fun k ha => by rw [ha], fun sa ha => ?_⟩
    rw [ha]
    exact ⟨fun hb => by simp only [hb], fun k hb => by simp only [hb], fun sb hb => by simp only [hb]⟩

/-- RELAY: the edge of the array, the room at DST, the strip it passes on, and with both inputs the one from the north. -/
theorem relay_completes (s : State) (n : Fin 16) (c : Fin 64) (a : ATask) (hrun : s.running n c 8 = some a) :
    let len := 256 * a.q.count
    let misfit := aspace a.q.dst ≠ 3 ∧ (spotOf a.q.cell a.q.dst).fits 0 len = false
    (noNeighbour c a.q = true → execRelay n c s = .next (s.acted n c 8 5 0)) ∧
    (noNeighbour c a.q = false → misfit → execRelay n c s = .next (s.acted n c 8 1 0)) ∧
    (noNeighbour c a.q = false → ¬ misfit →
      let ra := s.relayOperand n c a.q (!(a.q.bIn && !a.q.aIn)) len
      let rb := fun x : List Byte =>
        if (a.q.aIn && a.q.bIn) = true then ra.1.relayOperand n c a.q false len else (ra.1, .ok x)
      (ra.2 = .wait → execRelay n c s = .next s) ∧
      (∀ k, ra.2 = .bad k → execRelay n c s = .next (ra.1.acted n c 8 k 0)) ∧
      (∀ x, ra.2 = .ok x →
        ((rb x).2 = .wait → execRelay n c s = .next s) ∧
        (∀ k, (rb x).2 = .bad k → execRelay n c s = .next ((rb x).1.acted n c 8 k 0)) ∧
        (∀ y, (rb x).2 = .ok y →
          let t := (rb x).1.forward n c a.q x y
          execRelay n c s = .next ((if aspace a.q.dst = 3 then t
            else t.spotWrite n (spotOf a.q.cell a.q.dst) (taskWriter a.q) 0 x).acted n c 8 0 0)))) := by
  have hfirst : (if a.q.bIn = true ∧ (!a.q.aIn) = true then s.relayOperand n c a.q false (256 * a.q.count)
      else s.relayOperand n c a.q true (256 * a.q.count)) =
      s.relayOperand n c a.q (!(a.q.bIn && !a.q.aIn)) (256 * a.q.count) := by
    cases a.q.bIn <;> cases a.q.aIn <;> rfl
  unfold execRelay
  rw [hrun]
  dsimp only
  rw [hfirst]
  simp only [← Bool.and_eq_true]
  refine ⟨fun hedge => if_pos hedge, fun hedge hmisfit => ?_, fun hedge hfits => ?_⟩
  · rw [if_neg (by simp [hedge]), if_pos (by simpa using hmisfit)]
  · rw [if_neg (by simp [hedge]), if_neg (by simpa using hfits)]
    refine ⟨fun ha => by rw [ha], fun k ha => by rw [ha], fun x ha => ?_⟩
    rw [ha]
    refine ⟨fun hb => by simp only [hb], fun k hb => by simp only [hb], fun y hb => ?_⟩
    simp only [hb]
    by_cases hrelayOnly : aspace a.q.dst = 3 <;> simp [hrelayOnly]

/-- VOP: the room at DST, then SRC_A, SRC_B and DST as far as the function has them. -/
theorem vop_completes (s : State) (n : Fin 16) (c : Fin 64) (a : ATask) (hrun : s.running n c 2 = some a) :
    let fn := a.q.ext0 % 256
    let outN := if fn ≥ 0xC then 1 else a.q.count
    let dst := spotOf a.q.cell a.q.dst
    let ra := s.operand n (spotOf a.q.cell a.q.srcA) 0 (elemBytes a.q.fmtA a.q.count)
    let rb := if fn ≤ 5 then ra.1.operand n (spotOf a.q.cell a.q.srcB) 0 (elemBytes a.q.fmtB a.q.count) else (ra.1, .ok [])
    let rd := if fn = 3 then rb.1.operand n dst 0 (elemBytes a.q.fmtD a.q.count) else (rb.1, .ok [])
    (dst.fits 0 (elemBytes a.q.fmtD outN) = false → execVop n c s = .next (s.acted n c 2 1 0)) ∧
    (dst.fits 0 (elemBytes a.q.fmtD outN) = true →
      (∀ k, ra.2 = .bad k → execVop n c s = .next (ra.1.acted n c 2 k 0)) ∧
      (∀ xa, ra.2 = .ok xa →
        (∀ k, rb.2 = .bad k → execVop n c s = .next (rb.1.acted n c 2 k 0)) ∧
        (∀ xb, rb.2 = .ok xb →
          (∀ k, rd.2 = .bad k → execVop n c s = .next (rd.1.acted n c 2 k 0)) ∧
          (∀ xd, rd.2 = .ok xd →
            let r := rd.1.vopCodes n a.q xa xb xd
            let w := (rd.1.arithEv n c r.2).padRun (fmtBits a.q.fmtD * outN) (packBytes a.q.fmtD r.1)
            execVop n c s = .next ((w.1.spotWrite n dst (taskWriter a.q) 0 w.2).acted n c 2 0 0))))) := by
  unfold execVop
  rw [hrun]
  dsimp only
  refine ⟨fun hmisfit => if_pos (by simpa using hmisfit), fun hfits => ?_⟩
  rw [if_neg (by simpa using hfits)]
  refine ⟨fun k ha => by simp only [ha], fun xa ha => ?_⟩
  simp only [ha]
  refine ⟨fun k hb => by simp only [hb], fun xb hb => ?_⟩
  simp only [hb]
  exact ⟨fun k hd => by simp only [hd], fun xd hd => by simp only [hd]⟩

/-- MOVE: the room at both places, then its lines in order. -/
theorem move_completes (s : State) (n : Fin 16) (c : Fin 64) (a : ATask) (hrun : s.running n c 3 = some a) :
    let fit := (spotOf a.q.cell a.q.srcA).fits 0 (256 * a.q.count) && (spotOf a.q.cell a.q.dst).fits 0 (256 * a.q.count)
    (fit = false → execMove n c s = .next (s.acted n c 3 1 0)) ∧
    (fit = true → execMove n c s =
      .next ((s.moveLines n a.q).1.acted n c 3 (if (s.moveLines n a.q).2 = true then 2 else 0) 0)) := by
  unfold execMove
  rw [hrun]
  dsimp only
  rw [← Bool.not_and]
  exact ⟨fun hmisfit => if_pos (by rw [hmisfit]; rfl), fun hfits => if_neg (by rw [hfits]; decide)⟩

/-- Settles O14: one lemma for each of the four operations; `ends` is `State.acted`, and `State.mmaRun` and `State.moveLines`
are written out. -/
theorem computeTasksComplete : Obligations.ComputeTasksComplete :=
  ⟨mma_completes, relay_completes, fun s n c a => ⟨vop_completes s n c a, move_completes s n c a⟩⟩

end Sys2Proof.Machine
end

section
/-! PROOF. LOAD, STORE, SEND, ZCLR and FOP (R61, R85, R161, R303, R440): what a started task sends, or with which cause it ends. -/

namespace Sys2Proof.Machine

/-- LOAD: the room at DST, then its lines are asked for. -/
theorem load_completes (s : State) (n : Fin 16) (c : Fin 64) (a : ATask) (hrun : s.running n c 4 = some a) :
    execLoad n c s = .next (if (spotOf a.q.cell a.q.dst).fits 0 (256 * a.q.count) = true then s.startLines n c
      else s.acted n c 4 1 0) := by
  unfold execLoad
  rw [hrun]
  exact (apply_ite _ _ _ _).symm

/-- STORE: the room at SRC_A, then its lines are sent. -/
theorem store_completes (s : State) (n : Fin 16) (c : Fin 64) (a : ATask) (hrun : s.running n c 5 = some a) :
    execStore n c s = .next (if (spotOf a.q.cell a.q.srcA).fits 0 (256 * a.q.count) = true then s.startLines n c
      else s.acted n c 5 1 0) := by
  unfold execStore
  rw [hrun]
  exact (apply_ite _ _ _ _).symm

/-- R284: a message to a spire of this device waits for no transaction. -/
theorem sendMsg_inside (s : State) (n : Nat) (m : OutMsg) (own : State → Nat → State) (h : m.dev = none) :
    ∃ t, s.sendMsg n m own = some t := by
  unfold State.sendMsg
  dsimp only
  rw [h]
  exact ⟨_, rfl⟩

/-- The message of a SEND that read its source (R85). -/
def sendOut (s : State) (n : Fin 16) (c : Fin 64) (q : QTask) (b : List Byte) : OutMsg :=
  let p : MsgPart :=
    { srcDev := BitVec.ofNat 16 s.ownDev, srcSpire := n, inside := true, partsM1 := q.count - 1,
      zone := BitVec.ofNat 8 (bitsOf q.ext0 28 21), index := BitVec.ofNat 20 (bitsOf q.ext1 31 12),
      jobTag := BitVec.ofNat 12 q.ext1 }
  { cell := c, kind := 0, dev := if bitOf q.ext0 20 then none else some (bitsOf q.ext0 15 0),
    dst := bitsOf q.ext0 19 16, n := q.count,
    parts := (lines256 q.count b).zipIdx.map fun l => { p with part := l.2, data := l.1 } }

/-- SEND: its source, then its message, which may have to wait for a transaction of the fabric. -/
theorem send_completes (s : State) (n : Fin 16) (c : Fin 64) (a : ATask) (hrun : s.running n c 6 = some a) :
    let r := s.operand n (spotOf a.q.cell a.q.srcA) 0 (256 * a.q.count)
    (∀ k, r.2 = .bad k → execSend n c s = .next (r.1.acted n c 6 k 0)) ∧
    (∀ b : List Byte, r.2 = .ok b →
      let sent := r.1.sendMsg n (sendOut r.1 n c a.q b) fun s id => s.modCell n c fun x => x.setX fun a =>
        { a with wait := msgTok id + 1 }
      (∀ t, sent = some t → execSend n c s = .next t) ∧ (sent = none → execSend n c s = .next s) ∧
      (bitOf a.q.ext0 20 = true → ∃ t, sent = some t)) := by
  unfold execSend
  rw [hrun]
  dsimp only
  refine ⟨fun k hr => by simp only [hr], fun b hr => ?_⟩
  rw [hr]
  refine ⟨fun t hsent => ?_, fun hsent => ?_, fun hinside => sendMsg_inside _ _ _ _ (if_pos hinside)⟩ <;>
    unfold sendOut at hsent <;> dsimp only at hsent ⊢ <;> rw [hsent]

/-- ZCLR: FILL of its zone is 0. -/
theorem zclr_completes (s : State) (n : Fin 16) (c : Fin 64) (a : ATask) (hrun : s.running n c 10 = some a) :
    execZclr n c s = .next ((s.zclr n (a.q.ext0 % 256)).acted n c 0xA 0 0) := by
  unfold execZclr
  rw [hrun]

/-- FOP: its record, the check of it, the room for what it loads, its data, and the issue of its operation. -/
theorem fop_completes (s : State) (n : Fin 16) (c : Fin 64) (a : ATask) (hrun : s.running n c 7 = some a) :
    let r := s.operand n (spotOf a.q.cell a.q.srcB) 0 32
    (∀ k, r.2 = .bad k → execFop n c s = .next (r.1.acted n c 7 k 0)) ∧
    (∀ b : List Byte, r.2 = .ok b →
      let k := fopPkt r.1 n b
      let misfit := (fopRoom k).2 ≠ 0 ∧ (spotOf a.q.cell a.q.dst).fits (fopRoom k).1 (fopRoom k).2 = false
      let d := if (fopNeed k).2 = 0 then (r.1, .ok []) else r.1.operand n (spotOf a.q.cell a.q.srcA) (fopNeed k).1 (fopNeed k).2
      (r.1.fopCheck (s.spireOwner n) b = false → execFop n c s = .next (r.1.acted n c 7 4 0)) ∧
      (r.1.fopCheck (s.spireOwner n) b = true → misfit → execFop n c s = .next (r.1.acted n c 7 1 0)) ∧
      (r.1.fopCheck (s.spireOwner n) b = true → ¬ misfit →
        (∀ k, d.2 = .bad k → execFop n c s = .next (d.1.acted n c 7 k 0)) ∧
        (∀ data : List Byte, d.2 = .ok data →
          let x := fopFlits k data
          let cnt := if x.op = 9 then d.1.nextLine n (65536 + x.dstDev.toNat) else (x.addr.toNat / 256, d.1)
          let ans := cnt.2.issue cnt.1 x (.fop n c) (bitOf (b.getD 1 0).toNat 3)
          (ans = .wait → execFop n c s = .next s) ∧
          (∀ t seq, ans = .sent t seq → execFop n c s = .next t.settleAll) ∧
          (∀ t st out, ans = .done t st out →
            let w := t.modCell n c fun y => y.setX fun a => { a with wait := txnTok 65536 + 1 }
            execFop n c s = .next (((if st = 0 then w.fopLoad n c x out else w).fopDone n c 65536 st
              (if st = 0 ∧ x.op = 4 then out.take 8 else [])).settleAll))))) := by
  unfold execFop
  rw [hrun]
  dsimp only
  refine ⟨fun k hr => by simp only [hr], fun b hr => ?_⟩
  rw [hr]
  simp only [Bool.not_eq_true']
  refine ⟨fun hbad => if_pos hbad, fun hgood hmisfit => ?_, fun hgood hfits => ?_⟩ <;>
    simp only [hgood, Bool.true_eq_false, if_false]
  · rw [if_pos hmisfit]
  · rw [if_neg hfits]
    refine ⟨fun k hd => by rw [hd], fun data hd => ?_⟩
    rw [hd]
    dsimp only
    exact ⟨fun hans => by rw [hans], fun t seq hans => by rw [hans], fun t st out hans => by rw [hans]⟩

/-- Settles O15: one lemma for each of the five operations; `State.startLines`, `State.zclr` and `State.acted` are written
out. -/
theorem transferTasksComplete : Obligations.TransferTasksComplete :=
  ⟨fun s n c a => ⟨load_completes s n c a, store_completes s n c a⟩,
    fun s n c a => ⟨send_completes s n c a, zclr_completes s n c a⟩, fop_completes⟩

end Sys2Proof.Machine
end

section
/-! PROOF. The dispatch unit, relay strips, stealing and a failing cell (R67 to R70, R77, R86 to R91). -/

namespace Sys2Proof.Machine

/-- DISPATCH walks its table once. -/
theorem exec_dispatch (s : State) (n : Fin 16) (t : DuTask) (hcur : (s.spire n).du.cur = some t) (hout : (s.spire n).out = 0)
    (hwalked : t.walked = false) (hop : t.a.q.op = 0x10) : exec (.dispatch n) s = .next (s.duWalk n t).settleAll := by
  change execDispatch n s = _
  unfold execDispatch
  simp [hcur, hout, hwalked, hop]

/-- The zones of a DISPATCH: its own and the one that its results return to. -/
def State.duZonesValid (s : State) (t : DuTask) (n : Nat) : Bool :=
  (zoneOf (s.zoneWords n (bitsOf t.a.q.ext0 7 0))).valid && (zoneOf (s.zoneWords n (bitsOf t.a.q.ext0 15 8))).valid

/-- With an invalid zone a DISPATCH ends with cause 7. -/
theorem duWalk_invalid (s : State) (n : Nat) (t : DuTask) (h : s.duZonesValid t n = false) : s.duWalk n t = s.duStop n 7 := by
  unfold State.duWalk
  rw [if_pos (by rw [← Bool.not_and]; exact congrArg not h)]

/-- With a table in a well a DISPATCH walks it, when the table lies within the well. -/
theorem duWalk_well (s : State) (n : Nat) (t : DuTask) (h : s.duZonesValid t n = true) (cell base : Nat)
    (hplace : spotOf t.a.q.cell t.a.q.srcA = .well cell base) :
    let u : DuTask := { t with src := s.zoneWords n (bitsOf t.a.q.ext0 7 0), walked := true }
    let w := s.duEntries n u cell base
    s.duWalk n t = if (Spot.well cell base).fits 0 (32 * t.a.q.count) = true then
      w.s.duWalked n w.quota (w.items ++ duTallies u w.sent) else s.duStop n 1 := by
  unfold State.duWalk
  rw [if_neg (by rw [← Bool.not_and]; simpa [State.duZonesValid] using h)]
  simp only [hplace]
  cases (Spot.well cell base).fits 0 (32 * t.a.q.count) <;> rfl

/-- With a table that is no place of a well a DISPATCH ends with cause 1. -/
theorem duWalk_noWell (s : State) (n : Nat) (t : DuTask) (h : s.duZonesValid t n = true)
    (hplace : ∀ cell base, spotOf t.a.q.cell t.a.q.srcA ≠ .well cell base) : s.duWalk n t = s.duStop n 1 := by
  unfold State.duWalk
  rw [if_neg (by rw [← Bool.not_and]; simpa [State.duZonesValid] using h)]
  cases hp : spotOf t.a.q.cell t.a.q.srcA with
  | well cell base => exact absurd hp (hplace cell base)
  | _ => rfl

/-- RETURN reads its tags once. -/
theorem exec_returnRows (s : State) (n : Fin 16) (t : DuTask) (hcur : (s.spire n).du.cur = some t) (hout : (s.spire n).out = 0)
    (hwalked : t.walked = false) (hop : t.a.q.op = 0x11) : exec (.returnRows n) s = .next (s.duReturns n t).settleAll := by
  change execReturnRows n s = _
  unfold execReturnRows
  simp [hcur, hout, hwalked, hop]

/-- A row whose parts are all answered, with a status other than success, is dropped. -/
theorem exec_dispatchRowRefused (s : State) (n : Fin 16) (msg : Nat) (m : OutMsg) (status : BitVec 8)
    (hmsg : (s.spire n).msg msg = some m) (hkind : m.kind = 1) (hall : m.n ≤ m.got.length)
    (hst : msgStatus m.got = status.toNat) (hbad : status.toNat ≠ 0) :
    let r := s.wellRead n (m.txt / 2 ^ 24) (m.txt % 2 ^ 24) 1
    let w := match r.2 with
      | some b => r.1.wellWrite n (m.txt / 2 ^ 24) duWriter (m.txt % 2 ^ 24) [(b.getD 0 0) ||| BitVec.ofNat 8 (2 ^ m.choice)]
      | none => r.1
    let u := ((w.duDrop n m.retZone).addWrap (Loc.spDuRefused n) 31 0 1).rowRefusedLog n m status.toNat
    let it : DuItem := { kind := 3, word := m.count, count := 1 }
    exec (.dispatchRowRefused n msg status) s = .next
      (u.modSpire n fun sp => { sp.dropMsg msg with
        du := { sp.du with cur := sp.du.cur.map fun t => { t with items := t.items ++ [it] } } }).settleAll := by
  intro r w u it
  change execDispatchRowRefused n msg status s = _
  unfold execDispatchRowRefused
  simp only [hmsg, hkind, hst, hbad, Nat.not_lt.mpr hall, ne_eq, not_true_eq_false, or_self, if_false]
  rfl

/-- The next entry of the western neighbour's strip arrives. -/
theorem exec_relayStripArrival_eastward (s : State) (n : Fin 16) (c : Fin 64) (e : List Byte) (l : List (List Byte))
    (hedge : c.val % 8 ≠ 0) (hstrip : (s.cell n (c.val - 1)).outE = e :: l) (hroom : (s.cell n c).inW.length < 4) :
    exec (.relayStripArrival n c .eastward) s = .next
      ((s.modCell n (c.val - 1) fun x => { x with outE := l }).modCell n c fun x => { x with inW := x.inW ++ [e] }.absorb) := by
  change execRelayStripArrival n c .eastward s = _
  unfold execRelayStripArrival
  simp [hedge, hstrip, hroom]

/-- The next entry of the northern neighbour's strip arrives. -/
theorem exec_relayStripArrival_southward (s : State) (n : Fin 16) (c : Fin 64) (e : List Byte) (l : List (List Byte))
    (hedge : 8 ≤ c.val) (hstrip : (s.cell n (c.val - 8)).outS = e :: l) (hroom : (s.cell n c).inN.length < 4) :
    exec (.relayStripArrival n c .southward) s = .next
      ((s.modCell n (c.val - 8) fun x => { x with outS := l }).modCell n c fun x => { x with inN := x.inN ++ [e] }.absorb) := by
  change execRelayStripArrival n c .southward s = _
  unfold execRelayStripArrival
  simp [Nat.not_lt.mpr hedge, hstrip, hroom]

/-- Of the cells that try for one tail in a cycle the lowest takes it. -/
theorem exec_steal_lost (s : State) (n : Fin 16) (c : Fin 64) (v : Nat) (q : QTask) (hmay : s.mayStealNow n c = true)
    (hfrom : s.stealFrom n c = some (v, q)) (hrival : (s.stealRivals n v).any (· < c.val) = true) :
    exec (.steal n c) s = .next s := by
  change execSteal n c s = _
  unfold execSteal
  simp only [hmay, hfrom, hrival, Bool.not_true, Bool.false_eq_true, if_false, if_true]

/-- A steal without a rival of a lower number takes its task on the way. -/
theorem exec_steal_taken (s : State) (n : Fin 16) (c : Fin 64) (v : Nat) (q : QTask) (hmay : s.mayStealNow n c = true)
    (hfrom : s.stealFrom n c = some (v, q)) (hrival : (s.stealRivals n v).any (· < c.val) = false) (u : State) :
    let across := decide (v < 32) != decide (c.val < 32)
    let south := decide (32 ≤ c.val)
    (if across = true then s.crossRoom n south else some s) = some u →
    let w := if across = true then (u.crossWrite n south).1 else u
    let f : Stolen :=
      { thief := c.val, q := { q with stolen := true }, src := v, cycle := w.cellCycle n c
        losers := (s.stealRivals n v).filter (c.val < ·)
        due := w.cycles (2 * n.val + c.val / 32) + inCycles (if across = true then 10 else 6) }
    let x := (w.modCell n v fun x => { x with queue := x.queue.dropLast }).modSpire n fun sp => { sp with flight := sp.flight ++ [f] }
    exec (.steal n c) s = .next (x.bump (spPage n 0) 4 c 1 (x.spireOwner n)) := by
  intro across south hcross w f x
  change execSteal n c s = _
  unfold execSteal
  simp only [hmay, hfrom, hrival, Bool.not_true, Bool.false_eq_true, if_false]
  rw [hcross]
  rfl

/-- A stolen task reaches its thief's queue, or retires at a failed thief. -/
theorem exec_stolenTaskArrival (s : State) (n : Fin 16) (c : Fin 64) (f : Stolen)
    (hflight : ((s.spire n).flight.find? fun f => f.thief == c.val) = some f) (hroom : (s.cell n c).queue.length < 64)
    (hreach : s.reaches (s.cycleAt (2 * n.val + c.val / 32) f.due)) :
    let u := (s.atTime (s.cycleAt (2 * n.val + c.val / 32) f.due)).modSpire n fun sp => { sp with flight := sp.flight.erase f }
    exec (.stolenTaskArrival n c) s = .next (if (u.cell n c).failed = true then
      (u.retire n c { q := f.q, done := true, cause := 6 }).settleAll else u.modCell n c fun x => { x with queue := x.queue ++ [f.q] }) := by
  intro u
  change execStolenTaskArrival n c s = _
  unfold execStolenTaskArrival
  simp only [hflight, Nat.not_le.mpr hroom, waitCycles_reaches s _ _ hreach, if_false]
  exact (apply_ite _ _ _ _).symm

/-- A cell of a spire in service fails. -/
theorem exec_cellFail (s : State) (n : Fin 16) (c : Fin 64) (hout : (s.spire n).out = 0) :
    exec (.cellFail n c) s = .next ((s.failCell n c).settleAll) := by
  change execCellFail n c s = _
  unfold execCellFail
  simp [hout]

/-- Settles O16: one lemma for each command, and for DISPATCH one for each way its walk ends. -/
theorem dispatchAndStealing : Obligations.DispatchAndStealing := by
  unfold Obligations.DispatchAndStealing
  refine ⟨?_, ?_⟩
  · intro s n t
    refine ⟨fun hcur hout hwalked => ⟨fun hop => ?_, fun hop => ?_⟩, fun msg m status => exec_dispatchRowRefused s n msg m status⟩
    · have hexec := exec_dispatch s n t hcur hout hwalked hop
      refine ⟨fun hinvalid => ?_, fun hvalid cell base hplace => ?_, fun hvalid hplace => ?_⟩
      · rw [hexec, duWalk_invalid s n t hinvalid]
      · rw [hexec, duWalk_well s n t hvalid cell base hplace, apply_ite State.settleAll]
      · rw [hexec, duWalk_noWell s n t hvalid hplace]
    · rw [exec_returnRows s n t hcur hout hwalked hop]
      unfold State.duReturns
      exact congrArg _ (apply_ite _ _ _ _)
  · intro s n c
    exact ⟨exec_relayStripArrival_eastward s n c, exec_relayStripArrival_southward s n c,
      fun v q hmay hfrom => ⟨exec_steal_lost s n c v q hmay hfrom, exec_steal_taken s n c v q hmay hfrom⟩,
      exec_stolenTaskArrival s n c, exec_cellFail s n c⟩

end Sys2Proof.Machine
end

section
/-! PROOF. Zones and the expert map (R80, R81, R87): values that wait for the tick, and a load whose entries wait until its last
has come. -/

namespace Sys2Proof.Machine

/-- A load whose entries become pending when it ends: it goes on with the entries kept so far, or every entry kept is made
pending. -/
def State.loadKeeping (t : State) (w : LoadAt) (loc : Loc) (b : BulkLoad) (size m : Nat) (got : List (Nat × List Nat))
    (pend : State → Nat × List Nat → State) : State :=
  if b.left ≤ 1 then got.foldl pend ((t.setLoad w none).setFlag loc 30 false)
  else t.startLoad w { b with next := (b.next + 1) % m, left := b.left - 1, addr := b.addr + size, got := got }

/-- The end of a step of such a load, as its command makes it. -/
theorem loadNext_keeping (t : State) (w : LoadAt) (loc : Loc) (b : BulkLoad) (size m : Nat) (got : List (Nat × List Nat))
    (pend : State → Nat × List Nat → State) :
    (if (b.step size m).isSome = true then t.loadNext w loc ((b.step size m).map fun x => { x with got := got })
      else got.foldl pend (t.loadNext w loc ((b.step size m).map fun x => { x with got := got }))) =
      t.loadKeeping w loc b size m got pend := by
  unfold BulkLoad.step State.loadKeeping
  by_cases hlast : b.left ≤ 1
  · rw [if_pos hlast, if_pos hlast]
    rfl
  · rw [if_neg hlast, if_neg hlast]
    rfl

/-- A reserved bit of an entry of the expert map. -/
theorem xreserved_iff (w : Nat) : xreserved w = true ↔ bitsOf w 30 29 ≠ 0 := by
  simp [xreserved]

/-- ZONE_DATA3 with words that fail the commit check. -/
theorem zoneDataOp_of_fail (s : State) (n : Nat) (v : Word) (c : Nat)
    (h : s.zoneCheck (s.spireOwner n) (s.staged (Loc.spZoneData n) 4 v) = some c) : s.zoneDataOp n 3 v = .error c := by
  unfold State.zoneDataOp
  simp [h]

/-- ZONE_DATA3 with words that pass the commit check. -/
theorem zoneDataOp_of_check (s : State) (n : Nat) (v : Word)
    (h : s.zoneCheck (s.spireOwner n) (s.staged (Loc.spZoneData n) 4 v) = none) :
    s.zoneDataOp n 3 v = .ok ((s.staged (Loc.spZoneData n) 4 v).zipIdx.foldl (fun (t : State) e =>
      t.pendWord (Loc.spZoneData n e.2) (BitVec.ofNat 32 e.1) (s.fld (Loc.spZoneSel n) 7 0) (t.pendPart (spPage n 5))) s) := by
  unfold State.zoneDataOp
  simp [h]

/-- Settles O17: the lemmas on ZONE_DATA3, and `loadNext_keeping` for the load. -/
theorem zonesAndMapsPend : Obligations.ZonesAndMapsPend := by
  unfold Obligations.ZonesAndMapsPend
  refine ⟨?_, ?_⟩
  · intro s f n v
    refine ⟨?_, ?_⟩ <;> intro hacc
    · have hexec : exec (.zoneCommit f n v) s = .next (s.settle f (Loc.spZoneData n 3) (s.zoneDataOp n 3 v)) :=
        congrArg _ (write_accepted hacc _)
      rw [hexec]
      refine ⟨fun c hfail => ?_, fun hpass => ?_⟩
      · rw [zoneDataOp_of_fail s n v c hfail]
        rfl
      · rw [zoneDataOp_of_check s n v hpass]
        rfl
    · have hexec : exec (.xmapWrite f n v) s = .next (s.settle f (Loc.spXmapData n) (s.xmapDataOp n v)) :=
        congrArg _ (write_accepted hacc _)
      rw [hexec]
      unfold State.xmapDataOp
      simp only [xreserved_iff]
      rw [settle_ite]
      rfl
  · intro s f n loc
    refine ⟨?_, ?_⟩
    · intro v go hacc b hcheck
      have hexec : exec (.xmapLoad f n v) s = .next (s.settle f loc (s.xmapLoadOp f n go)) :=
        congrArg _ (write_accepted hacc _)
      have hop : s.xmapLoadOp f n go = .ok ((s.bulkStore loc go true).startLoad (.xmap n) b) := by
        have hcheck' : s.bulkCheck (Loc.spXmapLoad n) go (s.addrOf (Loc.spXmapLoadAddrLo n)) (go.bits 11 0) (go.bits 24 12)
          4096 4096 4 = none := hcheck
        unfold State.xmapLoadOp
        simp only [hcheck', go, Word.put_go, Bool.not_true, Bool.false_eq_true, if_false]
        rfl
      rw [hexec, hop]
      rfl
    · intro b hload goOn
      have hexec : ∀ r, b.entry 4 = some r →
          exec (.xmapLoadEntry n) s = .next (goOn (s.xmapGot n b r).1 (s.xmapGot n b r).2) := by
        intro r hr
        change execXmapLoadEntry n s = _
        unfold execXmapLoadEntry
        rw [hload]
        dsimp only
        rw [hr]
        exact congrArg _ (loadNext_keeping _ (.xmap n) loc b 4 4096 _ _)
      refine ⟨fun h => ?_, fun h => hexec none h, fun w h => ?_⟩
      · change execXmapLoadEntry n s = _
        unfold execXmapLoadEntry
        rw [hload]
        dsimp only
        rw [h]
      · rw [hexec (some w) h]
        by_cases hres : bitsOf (w.getD 0 0) 30 29 ≠ 0
        · rw [if_pos hres]
          unfold State.xmapGot
          dsimp only
          rw [if_pos ((xreserved_iff _).mpr hres)]
          rfl
        · rw [if_neg hres]
          unfold State.xmapGot
          dsimp only
          rw [if_neg (mt (xreserved_iff _).mp hres)]

end Sys2Proof.Machine
end

section
/-! PROOF. Landing (R82, R85, R88): parts, tallies, the ageing of records, and parts that leave again. -/

namespace Sys2Proof.Machine

/-- The checks of a part that come before its record, in their order. -/
theorem landPart_refusals (s : State) (n : Nat) (m : MsgPart) (oc : Nat) :
    (s.spireStatus n ≠ 0 → s.landPart n m oc = (s, s.spireStatus n)) ∧
    (s.spireStatus n = 0 →
      (255 < m.partsM1 + 1 → s.landPart n m oc = (s.landRefused n, 4)) ∧
      (m.partsM1 + 1 ≤ 255 → m.partsM1 + 1 ≤ m.part → s.landPart n m oc = (s.landRefused n, 3))) := by
  unfold State.landPart
  refine ⟨fun hout => if_pos hout, fun hin => ⟨fun hlong => ?_, fun hlen hpart => ?_⟩⟩
  · rw [if_neg (not_not.mpr hin)]
    exact if_pos hlong
  · rw [if_neg (not_not.mpr hin)]
    exact (if_neg (Nat.not_lt.mpr hlen)).trans (if_pos hpart)

/-- A part that passes these checks, whose message has a record. -/
theorem landPart_joins (s : State) (n : Nat) (m : MsgPart) (oc : Nat) (hin : s.spireStatus n = 0)
    (hlen : m.partsM1 + 1 ≤ 255) (hpart : m.part < m.partsM1 + 1) (r : Landing)
    (h : ((s.spire n).landings.find? fun r => r.key == partKey m) = some r) : s.landPart n m oc = s.landJoin n r m oc := by
  unfold State.landPart
  simp only [hin, h, Nat.not_lt.mpr hlen, Nat.not_le.mpr hpart, ne_eq, not_true_eq_false, if_false]

/-- A part that passes these checks, the first of its message. -/
theorem landPart_opens (s : State) (n : Nat) (m : MsgPart) (oc : Nat) (hin : s.spireStatus n = 0)
    (hlen : m.partsM1 + 1 ≤ 255) (hpart : m.part < m.partsM1 + 1)
    (h : ((s.spire n).landings.find? fun r => r.key == partKey m) = none) :
    let k := m.partsM1 + 1
    let zi := m.zone.toNat
    let w := s.zoneWords n zi
    let fill := s.fill n zi
    let open_ := fun (t : State) (r : Landing) =>
      (t.modSpire n fun sp => { sp with landings := sp.landings ++ [r] }).landJoin n r m oc
    (1024 ≤ (s.spire n).landings.length → s.landPart n m oc = (s, 6)) ∧
    ((s.spire n).landings.length < 1024 →
      (∀ c, zoneAdmit (zoneOf w) fill k m = .error c → s.landPart n m oc = open_ (s.landRefused n)
        { key := partKey m, n := k, zone := zi, cfg := w, opened := s.clk.elapsed, refused := c }) ∧
      (∀ e, zoneAdmit (zoneOf w) fill k m = .ok e →
        let app := m.index.toNat == 0xFFFFF
        s.landPart n m oc = open_ (if app = true then s.setFill n zi (zoneOf w) (fill + 1) else s)
          { key := partKey m, n := k, zone := zi, cfg := w, opened := s.clk.elapsed, entry := e, tag := tagWord m
            tagged := app })) := by
  intro k zi w fill open_
  unfold State.landPart
  simp only [hin, h, Nat.not_lt.mpr hlen, Nat.not_le.mpr hpart, ne_eq, not_true_eq_false, if_false, ge_iff_le]
  refine ⟨fun hfull => if_pos hfull, fun hroom => ?_⟩
  rw [if_neg (Nat.not_le.mpr hroom)]
  refine ⟨fun c hrefuse => ?_, fun e hadmit => ?_⟩
  · rw [show zoneAdmit (zoneOf (s.zoneWords n m.zone.toNat)) (s.fill n m.zone.toNat) (m.partsM1 + 1) m = .error c from hrefuse]
  · rw [show zoneAdmit (zoneOf (s.zoneWords n m.zone.toNat)) (s.fill n m.zone.toNat) (m.partsM1 + 1) m = .ok e from hadmit]

/-- A part joins its record (R85): a closed one, a refused one, an open one before and at its last part. -/
theorem landJoin_cases (s : State) (n : Nat) (m : MsgPart) (r : Landing) (e : Nat) :
    let z := zoneOf r.cfg
    let at_ := z.place r.entry m.part
    let t := s.wellWrite n at_.1 landWriter (at_.2 * 256) (m.data.take 256)
    let got := if r.got.contains m.part then r.got else r.got ++ [m.part]
    (r.closed = true → s.landJoin n r m e = (s, 3)) ∧
    (r.closed = false → r.refused ≠ 0 → s.landJoin n r m e = (s.modSpire n fun sp =>
      if r.n ≤ r.answered + 1 then sp.dropLanding r.key else sp.setLanding { r with answered := r.answered + 1 }, r.refused)) ∧
    (r.closed = false → r.refused = 0 → r.n ≤ m.part → s.landJoin n r m e = (s, 3)) ∧
    (r.closed = false → r.refused = 0 → m.part < r.n →
      (got.length < r.n → s.landJoin n r m e = (t.modSpire n fun sp => sp.setLanding { r with got := got }, 0)) ∧
      (r.n ≤ got.length →
        let t := if r.tagged = true then t.tagWrite n z (r.entry + 1) r.tag else t
        let t := if z.csEn = true then t.incr z.tag z.cslot 1 (landIssuer m e) else t
        s.landJoin n r m e = (t.modSpire n fun sp => sp.dropLanding r.key, 0))) := by
  intro z at_ t got
  unfold State.landJoin
  refine ⟨fun hclosed => if_pos hclosed, fun hclosed hrefused => ?_, fun hclosed hrefused hpart => ?_,
    fun hclosed hrefused hpart => ⟨fun hmore => ?_, fun hlast => ?_⟩⟩
  · rw [if_neg (Bool.eq_false_iff.mp hclosed)]
    exact if_pos hrefused
  · rw [if_neg (Bool.eq_false_iff.mp hclosed), if_neg (not_not.mpr hrefused)]
    exact if_pos hpart
  · rw [if_neg (Bool.eq_false_iff.mp hclosed), if_neg (not_not.mpr hrefused), if_neg (Nat.not_le.mpr hpart)]
    exact if_pos hmore
  · intro t₁ t₂
    rw [if_neg (Bool.eq_false_iff.mp hclosed), if_neg (not_not.mpr hrefused), if_neg (Nat.not_le.mpr hpart)]
    exact if_neg (Nat.not_lt.mpr hlast)

/-- The outcome of a tally: the spire's own message that waits for it, if any, is answered; then the units act. -/
def State.tallyAnswered (own : Option OutMsg) (n : Nat) (x : State × Nat) : State :=
  Option.elim own x.1.settleAll fun m => (x.1.msgAnswer n m.id 0 x.2).settleAll

/-- A tally has the outcome of `State.landTally`. -/
theorem exec_tallyLanding (s : State) (n : Fin 16) (zone : BitVec 8) (tag : BitVec 12) (count : BitVec 16) :
    let own := s.findTally n zone.toNat tag.toNat count.toNat
    exec (.tallyLanding n zone tag count) s = .next (State.tallyAnswered own n
      (s.landTally n zone.toNat tag.toNat count.toNat (if own.isSome = true then .spire n else .fabric 0))) := by
  have hexec : exec (.tallyLanding n zone tag count) s = execTallyLanding n zone tag count s := rfl
  unfold execTallyLanding at hexec
  rw [hexec]
  dsimp only
  generalize s.findTally n zone.toNat tag.toNat count.toNat = own
  cases own <;> simp [State.tallyAnswered]

/-- The checks of a tally, in their order. -/
theorem landTally_cases (s : State) (n zone tag count : Nat) (by_ : Issuer) :
    let z := zoneOf (s.zoneWords n zone)
    s.landTally n zone tag count by_ =
      if s.spireStatus n ≠ 0 then (s, s.spireStatus n)
      else if z.valid = false then (s.landRefused n, 1)
      else if tag ≠ z.tag then (s.landRefused n, 2)
      else (if z.csEn = true then s.incr z.tag z.cslot count by_ else s, 0) := by
  unfold State.landTally
  simp only [Bool.not_eq_true']

/-- A record that lacks parts 10 ms after its first goes when it was refused, and is closed otherwise. -/
theorem exec_messageRecordTimeout (s : State) (n : Fin 16) (k : MsgKey) (r : Landing)
    (hrec : ((s.spire n).landings.find? fun r => r.key == k) = some r) (hopen : r.closed = false)
    (hreach : s.reaches (r.opened + 10000000)) :
    let u := s.atTime (r.opened + 10000000)
    exec (.messageRecordTimeout n k) s = .next (if r.refused ≠ 0 then u.modSpire n fun sp => sp.dropLanding k
      else (if r.tagged then u.tagWrite n (zoneOf r.cfg) (r.entry + 1) (r.tag + 2 ^ 63) else u).modSpire n fun sp =>
        sp.setLanding { r with closed := true }) := by
  intro u
  change execMessageRecordTimeout n k s = _
  unfold execMessageRecordTimeout
  simp only [hrec, hopen, waitUntil_reaches s _ hreach, Bool.false_eq_true, if_false]
  exact (apply_ite _ _ _ _).symm

/-- A closed record goes 2 × CTO_FAB after its first part. -/
theorem exec_closedRecordExpiry (s : State) (n : Fin 16) (k : MsgKey) (r : Landing)
    (hrec : ((s.spire n).landings.find? fun r => r.key == k) = some r) (hclosed : r.closed = true)
    (hreach : s.reaches (r.opened + 2 * s.ctoFab)) :
    exec (.closedRecordExpiry n k) s = .next
      ((s.atTime (r.opened + 2 * s.ctoFab)).modSpire n fun sp => sp.dropLanding k) := by
  change execClosedRecordExpiry n k s = _
  unfold execClosedRecordExpiry
  simp only [hrec, hclosed, waitUntil_reaches s _ hreach, Bool.not_true, Bool.false_eq_true, if_false]

/-- A part answered RETRY leaves again after its interval, inside the device or through its oculus. -/
theorem exec_messagePartResend (s : State) (n : Fin 16) (msg part : Nat) (m : OutMsg) (g : Nat × Nat)
    (hmsg : (s.spire n).msg msg = some m) (hagain : (m.again.find? fun g => g.1 == part) = some g)
    (hreach : s.reaches (g.2 + s.resendNs m)) :
    let u := (s.atTime (g.2 + s.resendNs m)).modSpire n fun sp =>
      sp.setMsg { m with again := m.again.filter fun g => g.1 != part }
    (m.dev = none → exec (.messagePartResend n msg part) s = .next ((u.sendInside n m.id m.dst part).settleAll)) ∧
    (∀ dev p, m.dev = some dev → (m.parts.find? fun p => p.part == part) = some p →
      exec (.messagePartResend n msg part) s = .next
        ((u.sendPart n m.id m.seq dev m.dst (m.kind == 3) m.count p).settleAll)) := by
  intro u
  have hexec : exec (.messagePartResend n msg part) s = execMessagePartResend n msg part s := rfl
  unfold execMessagePartResend at hexec
  simp only [hmsg, hagain, waitUntil_reaches s _ hreach] at hexec
  rw [hexec]
  exact ⟨fun hdev => by simp only [hdev, u], fun dev p hdev hpart => by simp only [hdev, hpart, u]⟩

/-- Settles O18: the outcome of a part is `State.landPart`, of a tally `State.landTally`; their lemmas follow the checks. -/
theorem landingTakesParts : Obligations.LandingTakesParts := by
  unfold Obligations.LandingTakesParts
  refine ⟨?_, ?_, ?_⟩
  · intro s n m answered k
    have hexec : exec (.messagePartArrival n m) s = .next (answered (s.landPart n m 0)) := rfl
    obtain ⟨hout, hin⟩ := landPart_refusals s n m 0
    refine ⟨?_, ?_, landJoin_cases s n m⟩
    · intro h
      rw [hexec, hout h]
    · intro h
      obtain ⟨hlong, hlate⟩ := hin h
      rw [hexec]
      refine ⟨fun hk => by rw [hlong hk], fun hk hp => by rw [hlate hk hp], fun hk hp => ⟨fun r hr => ?_, fun hnone => ?_⟩⟩
      · rw [landPart_joins s n m 0 h hk hp r hr]
      · intro zi w fill open_
        obtain ⟨hfull, hroom⟩ := landPart_opens s n m 0 h hk hp hnone
        refine ⟨fun hl => by rw [hfull hl], fun hl => ?_⟩
        obtain ⟨hrefuse, hadmit⟩ := hroom hl
        exact ⟨fun c hc => by rw [hrefuse c hc], fun e he => by rw [hadmit e he]⟩
  · intro s n zone tag count z own by_ answered
    rw [exec_tallyLanding s n zone tag count]
    rw [landTally_cases]
    simp only [apply_ite (State.tallyAnswered (s.findTally n zone.toNat tag.toNat count.toNat) n)]
    rfl
  · intro s n
    refine ⟨fun k r hrec => ⟨fun hopen hreach => ?_, exec_closedRecordExpiry s n k r hrec⟩,
      fun msg part m g => exec_messagePartResend s n msg part m g⟩
    intro u
    rw [exec_messageRecordTimeout s n k r hrec hopen hreach]
    exact ⟨fun hrefused => congrArg _ (if_pos hrefused), fun hrefused => congrArg _ (if_neg (not_not.mpr hrefused))⟩

end Sys2Proof.Machine
end

section
/-! PROOF. The stack memory of a spire (R135, R137, R142, R143, R145): merge entries, field remaps, flips. -/

namespace Sys2Proof.Machine

/-- An entry that its region has counted 256 cycles without a merge is evicted. -/
theorem exec_mergeAgeEvict (s : State) (n : Fin 16) (c : Fin 64) (row : Nat) (cw : Fin 8) :
    ((s.cell n c).mergeOf (row * 8 + cw) = none → exec (.mergeAgeEvict n c row cw) s = .next s) ∧
    (∀ e : Merge, (s.cell n c).mergeOf (row * 8 + cw) = some e →
      let at_ := s.cycleAt (2 * n + c / 32) (e.last + inCycles 256)
      s.reaches at_ → exec (.mergeAgeEvict n c row cw) s = .next ((s.atTime at_).evict n c e)) := by
  have hexec : exec (.mergeAgeEvict n c row cw) s = execMergeAgeEvict n c row cw s := rfl
  unfold execMergeAgeEvict at hexec
  rw [hexec]
  refine ⟨fun h => by rw [h], fun e h => ?_⟩
  intro at_ hreach
  rw [h]
  dsimp only
  rw [waitCycles_reaches s _ _ hreach]

/-- SRAM_CTL with DRAIN. -/
theorem exec_sramDrain (s : State) (f : Func) (n : Fin 16) (v : Word) (hacc : s.accepts f (Loc.spSramCtl n) (v.put 0 0 1)) :
    let w := v.put 0 0 1
    (∀ k, formCheck (locFields (Loc.spSramCtl n)) w = some k →
      exec (.sramDrain f n v) s = .next (s.reject f (Loc.spSramCtl n / 4096) (Loc.spSramCtl n % 4096) k)) ∧
    (wellFormedFor (Loc.spSramCtl n) w → exec (.sramDrain f n v) s = .next (s.drainSpire n).managed) := by
  have hexec : exec (.sramDrain f n v) s = .next (s.settle f (Loc.spSramCtl n) (s.sramCtlOp n (v.put 0 0 1))) :=
    congrArg _ (write_accepted hacc _)
  have hdrain : (v.put 0 0 1).bit 0 = true := Word.put_bit_one v 0 (by decide)
  rw [hexec]
  unfold State.sramCtlOp wellFormedFor
  exact ⟨fun k hform => by rw [hform]; rfl, fun hform => by simp only [hform, hdrain, if_true, settle_ok]⟩

/-- An eviction (R135, R137): a full mask takes no read, a partial one lays its bytes over those read. -/
theorem evict_cases (s : State) (n c : Nat) (e : Merge) :
    let u := s.modCell n c fun x => { x with merge := x.merge.filter fun y => y.cw != e.cw }
    let t := u.bump (spPage n 6) 4 c 1 (u.spireOwner n)
    let r := t.cwRead n c e.cw false
    (e.mask = 0xFFFFFFFF → s.evict n c e = t.cwWrite n c e.cw e.data) ∧
    (e.mask ≠ 0xFFFFFFFF →
      (∀ b, r.2 = some b → s.evict n c e = r.1.cwWrite n c e.cw (overlay e.mask b e.data)) ∧
      (r.2 = none → s.evict n c e =
        (r.1.post (spPage n 6) 1 0x32 c (e.cw / 8 + 65536 * (e.cw % 8) + 2 ^ 32 * e.mask)).bump (spPage n 6) 5 c 1
          (u.spireOwner n))) := by
  unfold State.evict
  dsimp only
  refine ⟨fun hfull => if_pos hfull, fun hpart => ?_⟩
  rw [if_neg hpart]
  exact ⟨fun b hread => by rw [hread], fun hread => by rw [hread]⟩

/-- REMAP with GO. -/
theorem exec_sramRemap (s : State) (f : Func) (n : Fin 16) (v : Word) (hacc : s.accepts f (Loc.spRemap n) (v.put 31 31 1)) :
    let w := v.put 31 31 1
    let refused := fun k => s.reject f (Loc.spRemap n / 4096) (Loc.spRemap n % 4096) k
    (∀ k, formCheck (locFields (Loc.spRemap n)) w = some k → exec (.sramRemap f n v) s = .next (refused k)) ∧
    (wellFormedFor (Loc.spRemap n) w →
      (s.flag (Loc.spRemapSts n) 0 = true → exec (.sramRemap f n v) s = .next (refused 6)) ∧
      (s.flag (Loc.spRemapSts n) 0 = false → exec (.sramRemap f n v) s =
        .next ((s.put (Loc.spRemap n) (w.put 31 31 0)).startRemap n (w.bits 5 0) (w.bits 21 6)).managed)) := by
  have hexec : exec (.sramRemap f n v) s = .next (s.settle f (Loc.spRemap n) (s.spRemapOp n (v.put 31 31 1))) :=
    congrArg _ (write_accepted hacc _)
  rw [hexec]
  unfold State.spRemapOp wellFormedFor
  refine ⟨fun k hform => by rw [hform]; rfl, fun hform => ⟨fun hbusy => ?_, fun hfree => ?_⟩⟩
  · simp [hform, hbusy]
  · simp [hform, hfree]

/-- A field remap begins when its bank has a free spare row (R142). -/
theorem startRemap_cases (s : State) (n cell row : Nat) :
    (s.freeSpares n cell row ≠ 0 → s.startRemap n cell row =
      (s.setFlag (Loc.spRemapSts n) 0 true).modSpire n fun sp => { sp with mirror := some { cell := cell, row := row } }) ∧
    (s.freeSpares n cell row = 0 → s.startRemap n cell row = s.setFlag (Loc.spRemapSts n) 2 true) := by
  unfold State.startRemap
  exact ⟨fun hfree => if_neg hfree, fun hnone => if_pos hnone⟩

/-- The copier has read the row of the mirror state. -/
theorem exec_sramRemapCopyDone (s : State) (n : Fin 16) :
    ((s.spire n).mirror = none → exec (.sramRemapCopyDone n) s = .next s) ∧
    (∀ m : Mirror, (s.spire n).mirror = some m →
      let r := s.copyRow n m.cell m.row
      (m.copied = true → exec (.sramRemapCopyDone n) s = .next s) ∧
      (m.copied = false → r.2.2 = true → exec (.sramRemapCopyDone n) s = .next
        (r.1.modSpire n fun sp => { sp with mirror := some { m with copied := true, data := r.2.1, flips := [] } })) ∧
      (m.copied = false → r.2.2 = false →
        exec (.sramRemapCopyDone n) s = .next (r.1.abandonRemap n m.cell m.row))) := by
  have hexec : exec (.sramRemapCopyDone n) s = execSramRemapCopyDone n s := rfl
  unfold execSramRemapCopyDone at hexec
  rw [hexec]
  refine ⟨fun hnone => by rw [hnone], fun m hm => ?_⟩
  rw [hm]
  intro r
  refine ⟨fun hcopied => if_pos hcopied, fun hcopied hread => ?_, fun hcopied hread => ?_⟩ <;> dsimp only <;>
    rw [if_neg (Bool.eq_false_iff.mp hcopied)]
  · exact if_pos hread
  · exact if_neg (Bool.eq_false_iff.mp hread)

/-- FLIP_SEL, by a write that passes the checks of its page. -/
theorem write_flipSel (s : State) (f : Func) (n : Nat) (w : Word) (hacc : s.accepts f (Loc.spFlipSel n) w) :
    let u := s.write f (Loc.spFlipSel n) w fun s => s.spFlipSelOp n w
    let refused := fun k => s.reject f (Loc.spFlipSel n / 4096) (Loc.spFlipSel n % 4096) k
    (∀ k, formCheck (locFields (Loc.spFlipSel n)) w = some k → u = refused k) ∧
    (wellFormedFor (Loc.spFlipSel n) w →
      u = if (s.flag (Loc.spFlipSel n) 16 && w.bit 16) = true then refused 6 else (s.put (Loc.spFlipSel n) w).managed) := by
  intro u refused
  have hu : u = s.settle f (Loc.spFlipSel n) (s.spFlipSelOp n w) := write_accepted hacc _
  rw [hu]
  unfold State.spFlipSelOp wellFormedFor
  refine ⟨fun k hform => by rw [hform]; rfl, fun hform => ?_⟩
  rw [hform]
  exact settle_ite _ _ _ _ _ _

/-- Settles O19: one lemma for each command; REMAP by `startRemap_cases`, both flips by `write_flipSel`. -/
theorem stackMemoryIsMaintained : Obligations.StackMemoryIsMaintained := by
  unfold Obligations.StackMemoryIsMaintained
  refine ⟨?_, ?_, ?_⟩
  · intro s n c
    exact ⟨exec_mergeAgeEvict s n c, fun f v => exec_sramDrain s f n v, evict_cases s n c⟩
  · intro s n
    refine ⟨?_, exec_sramRemapCopyDone s n⟩
    intro f v w hacc refused u
    obtain ⟨hbad, hgood⟩ := exec_sramRemap s f n v hacc
    obtain ⟨hspare, hnone⟩ := startRemap_cases u n (w.bits 5 0) (w.bits 21 6)
    refine ⟨hbad, fun hform => ⟨(hgood hform).1, fun hfree => ?_⟩⟩
    rw [(hgood hform).2 hfree]
    exact ⟨fun h => by rw [hspare h], fun h => by rw [hnone h]⟩
  · intro s f n v loc refused
    refine ⟨?_, ?_⟩ <;> intro w hacc <;> obtain ⟨hbad, hgood⟩ := write_flipSel s f n w hacc
    · have harm : w.bit 16 = true := Word.put_bit_one v 16 (by decide)
      rw [harm, Bool.and_true] at hgood
      exact ⟨fun k hform => congrArg _ (hbad k hform), fun hform => congrArg _ (hgood hform)⟩
    · have hdisarm : w.bit 16 = false := Word.put_bit_zero v 16 (by decide)
      rw [hdisarm, Bool.and_false] at hgood
      exact ⟨fun k hform => congrArg _ (hbad k hform), fun hform => congrArg _ (hgood hform)⟩

end Sys2Proof.Machine
end

section
/-! PROOF. Bonds of a spire (R148 to R150), its governor (R151 to R153) and its power cycle (R155). -/

namespace Sys2Proof.Machine

/-- A self-test that finds no failed lane only marks its group. -/
theorem exec_bondSelfTest_none (s : State) (n : Fin 16) (c : Fin 64) (g : Fin 37) (hen : s.flag (Loc.spBondCtl n) 8 = true)
    (hout : (s.spire n).out = 0) :
    exec (.bondSelfTest n c g []) s = .next (s.modCell n c fun x => x.bondTested g s.clk.elapsed) := by
  change execBondSelfTest n c g [] s = _
  unfold execBondSelfTest
  simp [hen, hout, State.bondTest]

/-- A self-test that finds one failed lane marks its group and fails the lane. -/
theorem exec_bondSelfTest_one (s : State) (n : Fin 16) (c : Fin 64) (g : Fin 37) (lane : Fin 68)
    (hen : s.flag (Loc.spBondCtl n) 8 = true) (hout : (s.spire n).out = 0) (hlane : lane.val < groupLanes g) :
    exec (.bondSelfTest n c g [lane]) s =
      .next ((s.modCell n c fun x => x.bondTested g s.clk.elapsed).bondLaneFail n c g lane) := by
  change execBondSelfTest n c g [lane] s = _
  unfold execBondSelfTest
  simp [hen, hout, State.bondTest, hlane]

/-- A failed lane of a group waits for its spare, or the group has none left (R149, R150). -/
theorem bondLaneFail_cases (u : State) (n c g lane : Nat) :
    let w := u.addSat (Loc.spBondGrp n) 15 8 1 (bondIdx c g)
    let w := w.bump (spPage n 7) 3 c 1 (w.spireOwner n)
    u.bondLaneFail n c g lane = if w.bondWaiting n c g < w.fld (Loc.spBondGrp n) 2 0 (bondIdx c g) then
      w.modSpire n fun sp => { sp with bondPend := sp.bondPend ++ [(c, g, lane)] } else w.bondNoSpare n c g lane := rfl

/-- Without a spare a command or power group takes its cell out of service at the tick. -/
theorem bondNoSpare_command (w : State) (n c g lane : Nat) (h : 32 ≤ g) :
    w.bondNoSpare n c g lane = w.modSpire n fun sp =>
      { sp with bondOut := if sp.bondOut.contains c then sp.bondOut else sp.bondOut ++ [c] } := if_pos h

/-- Without a spare the first lane of a data group is covered. -/
theorem bondNoSpare_data (w : State) (n c g lane : Nat) (h : g < 32)
    (hfirst : ((w.spire n).bondCov.filter fun e => decide (e.1 = c ∧ bondWord e.2.1 = bondWord g)) = []) :
    w.bondNoSpare n c g lane =
      (((w.modSpire n fun sp => { sp with bondCov := sp.bondCov ++ [(c, g, lane)] }).setFlag (Loc.spBondGrp n) 3 true
        (bondIdx c g)).setFlag (Loc.spBondSts n) 2 true).post (spPage n 7) 2 0x36 c g := by
  unfold State.bondNoSpare
  rw [if_neg (Nat.not_le.mpr h)]
  dsimp only
  rw [hfirst]
  rfl

/-- A well that has not finished its rotation within four periods is overdue, once. -/
theorem exec_bondRotationOverdue (s : State) (n : Fin 16) (c : Fin 64) (hen : s.flag (Loc.spBondCtl n) 8 = true)
    (hout : (s.spire n).out = 0) :
    let at_ := (s.cell n c).rotAt + s.rotLimit n
    ((s.cell n c).rotLate = true → exec (.bondRotationOverdue n c) s = .next s) ∧
    ((s.cell n c).rotLate = false → s.reaches at_ →
      exec (.bondRotationOverdue n c) s = .next ((s.atTime at_).rotOverdue n c)) := by
  have hexec : exec (.bondRotationOverdue n c) s = execBondRotationOverdue n c s := rfl
  unfold execBondRotationOverdue at hexec
  rw [hexec]
  exact ⟨fun hlate => by simp [hlate], fun hlate hreach => by simp [hen, hout, hlate, waitUntil_reaches s _ hreach]⟩

/-- The governor's window comes 100 ns after its last. -/
theorem exec_governorWindow (s : State) (n : Fin 16) (north south : Activity) (hout : (s.spire n).out = 0)
    (hreach : s.reaches (s.nextOf (s.spire n).gov.winAt 100)) :
    exec (.governorWindow n north south) s =
      .next ((s.atTime (s.nextOf (s.spire n).gov.winAt 100)).governorWindow n north south) := by
  change execGovernorWindow n north south s = _
  unfold execGovernorWindow
  simp [hout, waitUntil_reaches s _ hreach]

/-- What a window sets: the duties shown, the holds of the vector units, and its time. -/
def State.govSet (u : State) (n : Nat) (kn ks : Nat × Nat) (vn vs : Nat) : State :=
  (u.put (Loc.spGovSts n) (BitVec.ofNat 32 (kn.1 + 256 * kn.2 + 65536 * ks.1 + 16777216 * ks.2))).modSpire n fun sp =>
    { sp with gov := { sp.gov with vecN := vn, vecS := vs, winAt := some u.clk.elapsed } }

/-- Within the budget every duty is 16, nothing is held and nothing stalls. -/
theorem governorWindow_within (u : State) (n : Nat) (north south : Activity)
    (h : u.govScaled n north 0 16 16 + u.govScaled n south 1 16 16 ≤ u.govBudget n) :
    u.governorWindow n north south = u.govSet n (16, 16) (16, 16) 16 16 := by
  unfold State.governorWindow
  simp only [h, decide_true, if_true, Bool.not_true, Bool.false_and, Bool.false_eq_true, if_false, Nat.sub_self,
    Nat.mul_zero, Nat.zero_div, ite_self]
  rfl

/-- Beyond the budget each region takes its greatest duties within its share; what they stall is counted. -/
theorem governorWindow_beyond (u : State) (n : Nat) (north south : Activity)
    (h : u.govBudget n < u.govScaled n north 0 16 16 + u.govScaled n south 1 16 16) :
    let dn := u.govScaled n north 0 16 16
    let ds := u.govScaled n south 1 16 16
    let fits := fun (a : Activity) (r d ka kw : Nat) => decide (u.govScaled n a r ka kw * (dn + ds) ≤ u.govBudget n * d)
    let kn := govDuties (u.fld (Loc.spGovCtl n) 1 0) (fits north 0 dn)
    let ks := govDuties (u.fld (Loc.spGovCtl n) 1 0) (fits south 1 ds)
    let held := fun (a : Activity) (r d : Nat) (k : Nat × Nat) => if k = (1, 1) ∧ fits a r d 1 1 = false then 1 else 16
    let t := u.govSet n kn ks (held north 0 dn kn) (held south 1 ds ks)
    let stall := fun (r act k : Nat) => if act = 0 then 0 else 5 * u.fld Loc.glRegSts 7 0 (2 * n + r) * (16 - k) / 64
    let ev := fun (x : State) (code r amt : Nat) => if amt = 0 then x else x.bump (spPage n 8) code r amt (t.spireOwner n)
    u.governorWindow n north south =
      ev (ev (ev (ev t 2 0 (stall 0 north.arr kn.1)) 3 0 (stall 0 north.well kn.2)) 2 1 (stall 1 south.arr ks.1)) 3 1
        (stall 1 south.well ks.2) := by
  unfold State.governorWindow
  simp only [Nat.not_le.mpr h, decide_false, Bool.not_false, Bool.true_and, Bool.false_eq_true, if_false,
    Bool.and_eq_true, beq_iff_eq, Bool.not_eq_true']
  rfl

/-- The governor's correction comes 10 µs after its last. -/
theorem exec_governorCorrection (s : State) (n : Fin 16) (measured : BitVec 10) (hout : (s.spire n).out = 0)
    (hreach : s.reaches (s.nextOf (s.spire n).gov.corrAt 10000)) :
    exec (.governorCorrection n measured) s =
      .next ((s.atTime (s.nextOf (s.spire n).gov.corrAt 10000)).governorCorrect n measured.toNat) := by
  change execGovernorCorrection n measured s = _
  unfold execGovernorCorrection
  simp [hout, waitUntil_reaches s _ hreach]

/-- The array comes back 5 ms after its supply went off. -/
theorem exec_arrayPowerCycleDone (s : State) (n : Fin 16) (t : SpireTest) (hoff : s.flag Loc.seSecSts (10 + n) = true)
    (hreach : s.reaches ((s.spire n).cycleAt + 5000000)) :
    exec (.arrayPowerCycleDone n t) s = .next ((s.atTime ((s.spire n).cycleAt + 5000000)).arrayBack n t) := by
  change execArrayPowerCycleDone n t s = _
  unfold execArrayPowerCycleDone
  simp [hoff, waitUntil_reaches s _ hreach]

/-- Settles O20: one lemma for each command, and for each way a failed lane and a window end. -/
theorem bondsAndPowerOfSpires : Obligations.BondsAndPowerOfSpires := by
  unfold Obligations.BondsAndPowerOfSpires
  refine ⟨?_, ?_⟩
  · intro s n c hen hout
    refine ⟨?_, exec_bondRotationOverdue s n c hen hout⟩
    intro g u
    refine ⟨exec_bondSelfTest_none s n c g hen hout, ?_⟩
    intro lane hlane grp i w₁ w
    rw [exec_bondSelfTest_one s n c g lane hen hout hlane, bondLaneFail_cases]
    refine ⟨fun hspare => congrArg _ (if_pos hspare), fun hnone => ⟨fun hcommand => ?_, fun hdata hfirst => ?_⟩⟩
    · exact congrArg _ ((if_neg (Nat.not_lt.mpr hnone)).trans (bondNoSpare_command w n c g lane hcommand))
    · exact congrArg _ ((if_neg (Nat.not_lt.mpr hnone)).trans (bondNoSpare_data w n c g lane hdata hfirst))
  · intro s n
    refine ⟨fun hout => ⟨?_, ?_⟩, ?_⟩
    · intro north south at_ u dn ds budget fits set hreach
      rw [exec_governorWindow s n north south hout hreach]
      exact ⟨fun hwithin => congrArg _ (governorWindow_within u n north south hwithin),
        fun hbeyond => congrArg _ (governorWindow_beyond u n north south hbeyond)⟩
    · intro measured at_ u hreach
      exact exec_governorCorrection s n measured hout hreach
    · intro t hoff hreach
      exact exec_arrayPowerCycleDone s n t hoff hreach

end Sys2Proof.Machine
end

section
/-! PROOF. MEM_CFG and the line buffer (R159, R174 to R179). The statement of O21 lets every other register read as before at
every selection, and a selection of 2^20 or more of one place has the key of another place. -/

namespace Sys2Proof.Machine

/-- A selection of 2^20 times a place, at place 0, is that place itself in the register file. -/
theorem get_alias (s : State) (loc : Loc) : s.get 0 (loc * 1048576) = s.get loc := by
  have hkey : rkey 0 (loc * 1048576) = rkey loc 0 := by unfold rkey; omega
  unfold State.get
  rw [hkey]

/-- A module past its start with gatehouse 0 in service. -/
def gateUpState : State :=
  ({ State.reset with power := { closed := true }, gates := [{ out := 0 }] } : State).put Loc.glBootSts 9

/-- The physical function may write MEM_CFG there, which reads 0. -/
theorem gateUpState_memCfg :
    (gateUpState.pageOpen .pf (Loc.gtMemCfg 0 / 4096) = true ∧
      gateUpState.accessCheck .pf (Loc.gtMemCfg 0 / 4096) (Loc.gtMemCfg 0 % 4096) 1 = none) ∧
    formCheck (locFields (Loc.gtMemCfg 0)) 1 = none ∧ gateUpState.canon = true ∧ gateUpState.get (Loc.gtMemCfg 0) = 0 := by
  decide +kernel

/-- Refutes O21: with 1 written to MEM_CFG of gatehouse 0, place 0 reads otherwise than before at the selection that aliases
it (`get_alias`); place 0 is none of the eight. -/
theorem not_lineBufferEntriesMove : ¬ Obligations.LineBufferEntriesMove := by
  unfold Obligations.LineBufferEntriesMove
  rintro ⟨hcfg, -⟩
  obtain ⟨hacc, hform, hcanon, hread⟩ := gateUpState_memCfg
  obtain ⟨-, hgood⟩ := hcfg gateUpState .pf 0 1 hacc
  obtain ⟨hwritten, -, hkept⟩ := (hgood hform).2 hcanon
  have hother : (0 : Loc) ∉ (List.range 8).map Loc.gtMemCfg := by decide
  have halias := hkept 0 (Loc.gtMemCfg 0 * 1048576) hother
  rw [get_alias, get_alias, hwritten 0 (by decide), hread] at halias
  exact absurd halias (by decide)

end Sys2Proof.Machine
end

section
/-! PROOF. Background work of the gatehouses' channels (Table GH-5, R180 to R183, R189, R371): refresh, mode registers, the
oscillator, retrains. -/

namespace Sys2Proof.Machine

/-- A refresh command in its channel's idle segment is issued or pulled in, up to 16 ahead. -/
theorem exec_perBankRefresh_idle (s : State) (g : Fin 8) (ch : Fin 48) (rank : Fin 2) (at_ : Nat) (idle : Bool)
    (hup : (s.gate g).out = 0) (hch : s.chFailed g ch = false) (hidle : s.idleFrom g ch = some at_)
    (hwaits : idle = true ∨ at_ ≤ s.clk.elapsed) (hreach : s.reaches at_) :
    exec (.perBankRefresh g ch rank idle) s = .next (if (s.atTime at_).refreshOwed g (ch.val * 2 + rank.val) > -16
      then (s.atTime at_).refreshed g (ch.val * 2 + rank.val) else s) := by
  have hnow : (!idle && decide (s.clk.elapsed < at_)) = false := by
    rcases hwaits with hwaits | hwaits
    · simp [hwaits]
    · simp [Nat.not_lt.mpr hwaits]
  change execPerBankRefresh g ch rank idle s = _
  unfold execPerBankRefresh State.gateUp
  simp only [hup, hch, hidle, hnow, waitUntil_reaches s _ hreach, beq_self_eq_true, Bool.not_true, Bool.or_self,
    Bool.false_eq_true, if_false]
  exact (apply_ite _ _ _ _).symm

/-- Outside an idle segment a refresh command is forced when its rank owes 32. -/
theorem exec_perBankRefresh_forced (s : State) (g : Fin 8) (ch : Fin 48) (rank : Fin 2) (hup : (s.gate g).out = 0)
    (hch : s.chFailed g ch = false) (hbusy : ∀ at_, s.idleFrom g ch = some at_ → s.clk.elapsed < at_) :
    exec (.perBankRefresh g ch rank false) s = .next (if s.refreshOwed g (ch.val * 2 + rank.val) ≥ 32 then
      ((s.refreshed g (ch.val * 2 + rank.val)).addWrap (Loc.gtRefForced g) 31 0 1).bump (gtPage g 2) 2 ch else s) := by
  change execPerBankRefresh g ch rank false s = _
  unfold execPerBankRefresh State.gateUp
  simp only [hup, hch, beq_self_eq_true, Bool.not_true, Bool.or_self, Bool.false_eq_true, if_false]
  cases hidle : s.idleFrom g ch with
  | none => exact (apply_ite _ _ _ _).symm
  | some at_ =>
    simp only [hbusy at_ hidle, decide_true, Bool.not_false, Bool.and_self, if_true]
    exact (apply_ite _ _ _ _).symm

/-- A die's mode register 4 is read at its time. -/
theorem exec_mr4Readout (s : State) (g : Fin 8) (pkg : Fin 12) (die : Fin 6) (idle : Bool) (value : BitVec 8) (r : Mr4)
    (hup : (s.gate g).out = 0) (hreach : s.reaches (s.mr4At g pkg die idle)) :
    exec (.mr4Readout g pkg die idle value r) s =
      .next ((s.atTime (s.mr4At g pkg die idle)).mr4Read g pkg die value.toNat r.double r.above) := by
  change execMr4Readout g pkg die idle value r s = _
  unfold execMr4Readout State.gateUp
  simp [hup, waitUntil_reaches s _ hreach]

/-- The limit of a package ends 10 ms after its dies came back into range. -/
theorem exec_mr4LimitRelease (s : State) (g : Fin 8) (pkg : Fin 12) :
    let mine := (s.gate g).hot.filter fun h => h.1 / 6 == pkg.val
    let at_ := (mine.map (·.2)).foldl max 0 - 1 + 10000000
    (mine.isEmpty || mine.any fun h => h.2 == 0) = false → s.reaches at_ →
    exec (.mr4LimitRelease g pkg) s = .next
      ((s.atTime at_).modGate g fun x => { x with hot := x.hot.filter fun h => h.1 / 6 != pkg.val }) := by
  intro mine at_ hrange hreach
  have hend : (s.gate g).limitEnd pkg = some at_ := if_neg (Bool.eq_false_iff.mp hrange)
  change execMr4LimitRelease g pkg s = _
  unfold execMr4LimitRelease
  rw [hend, Option.bind_some, waitUntil_reaches s _ hreach]

/-- A measurement of the oscillator at its time: a drift waits for the tick, or a full retrain begins. -/
theorem exec_oscillatorMeasurement (s : State) (g : Fin 8) (ch : Fin 48) (idle : Bool) (hup : (s.gate g).out = 0)
    (hch : s.chFailed g ch = false) (htrained : ((s.gate g).chan ch).retraining = false)
    (hreach : s.reaches (s.oscAt g ch idle)) :
    let t := s.atTime (s.oscAt g ch idle)
    let u := t.modGate g fun x => x.setChan ch { x.chan ch with osc := t.clk.elapsed }
    (∀ drift : Int, exec (.oscillatorMeasurement g ch idle (some drift)) s = .next
      (u.modGate g fun x => x.setChan ch { x.chan ch with corrPend := some drift })) ∧
    exec (.oscillatorMeasurement g ch idle none) s = .next (u.startRetrain g ch) := by
  intro t u
  have hexec : ∀ drift, exec (.oscillatorMeasurement g ch idle drift) s = execOscillatorMeasurement g ch idle drift s :=
    fun _ => rfl
  unfold execOscillatorMeasurement State.gateUp at hexec
  simp only [hup, hch, htrained, waitUntil_reaches s _ hreach, beq_self_eq_true, Bool.not_true, Bool.or_self,
    Bool.false_eq_true, if_false] at hexec
  exact ⟨fun drift => hexec (some drift), hexec none⟩

/-- R189: a channel that has not failed yet fails. -/
theorem channelFail_first (s : State) (g ch : Nat) (h : s.chFailed g ch = false) :
    let gone := (s.gate g).lbuf.filter fun e => (placeLine e.line).2.1 == ch
    let t := if ch < 32 then s.setFlag (Loc.gtChFailLo g) ch true else s.setFlag (Loc.gtChFailHi g) (ch - 32) true
    let t := t.setFld (Loc.gtMemSts g) 8 3 (t.fld (Loc.gtMemSts g) 8 3 - 1)
    let t := t.modGate g fun x => x.setChan ch { x.chan ch with retraining := false }
    let t := t.modGate g fun x => { x with lbuf := x.lbuf.filter fun e => (placeLine e.line).2.1 != ch }
    s.channelFail g ch = (gone.flatMap (·.queue)).foldl (fun s o => s.gateDone o 0x21 []) (t.post (gtPage g 0) 2 0x45 ch 0) :=
  if_neg (Bool.eq_false_iff.mp h)

/-- A retrain ends: it succeeds, is tried again, or fails its channel at the third time (R182). -/
theorem exec_retrainDone (s : State) (g : Fin 8) (ch : Fin 48) :
    let c := (s.gate g).chan ch
    (c.retraining = false → ∀ ok, exec (.retrainDone g ch ok) s = .next s) ∧
    (c.retraining = true →
      exec (.retrainDone g ch true) s = .next
        (((s.modGate g fun x => x.setChan ch { c with retraining := false, fails := 0 }).drainOn g).gateRetry g) ∧
      (c.fails < 2 → exec (.retrainDone g ch false) s = .next
        ((s.modGate g fun x => x.setChan ch { c with fails := c.fails + 1 }).startRetrain g ch)) ∧
      (2 ≤ c.fails → exec (.retrainDone g ch false) s = .next
        (((s.modGate g fun x => x.setChan ch { c with fails := 3 }).channelFail g ch).gateRetry g))) := by
  intro c
  have hexec : ∀ ok, exec (.retrainDone g ch ok) s = execRetrainDone g ch ok s := fun _ => rfl
  unfold execRetrainDone at hexec
  refine ⟨fun hidle ok => (hexec ok).trans (if_pos (by simp only [c] at hidle; rw [hidle]; rfl)), fun hrun => ?_⟩
  have hgo : ¬ (!((s.gate g).chan ch).retraining) = true := by simp only [c] at hrun; rw [hrun]; decide
  refine ⟨(hexec true).trans ((if_neg hgo).trans (if_pos rfl)), fun hagain => ?_, fun hthird => ?_⟩
  · exact (hexec false).trans ((if_neg hgo).trans ((if_neg (by decide)).trans (if_neg (by simp only [c] at hagain; omega))))
  · exact (hexec false).trans ((if_neg hgo).trans ((if_neg (by decide)).trans (if_pos (by simp only [c] at hthird; omega))))

/-- Settles O22: one lemma for each command. -/
theorem channelsAreRefreshedAndTrained : Obligations.ChannelsAreRefreshedAndTrained := by
  unfold Obligations.ChannelsAreRefreshedAndTrained
  refine ⟨?_, ?_⟩
  · intro s g
    refine ⟨?_, ?_, exec_mr4LimitRelease s g⟩
    · intro hup ch rank hch k paid
      exact ⟨fun at_ idle hidle hwaits hreach => exec_perBankRefresh_idle s g ch rank at_ idle hup hch hidle hwaits hreach,
        fun hbusy => exec_perBankRefresh_forced s g ch rank hup hch hbusy⟩
    · intro hup pkg die idle double value d last at_ u t hreach
      exact ⟨exec_mr4Readout s g pkg die idle value { double := double, above := false } hup hreach,
        exec_mr4Readout s g pkg die idle value { double := double, above := true } hup hreach⟩
  · intro s g ch c retrains
    obtain ⟨hidle, hrun⟩ := exec_retrainDone s g ch
    refine ⟨?_, hidle, ?_⟩
    · intro hup hch htrained idle drift last at_ u hreach
      obtain ⟨hdrift, hretrain⟩ := exec_oscillatorMeasurement s g ch idle hup hch htrained hreach
      exact ⟨hdrift drift, hretrain⟩
    · intro hretraining third bit fewer dropped gone
      obtain ⟨hdone, hagain, hthird⟩ := hrun hretraining
      refine ⟨hdone, hagain, fun hfails hfirst => ?_⟩
      rw [hthird hfails, channelFail_first third g ch hfirst]

end Sys2Proof.Machine
end

section
/-! PROOF. The maintenance of device memory (R169, R185, R186, R188): patrol, remaps of pages, flips. -/

namespace Sys2Proof.Machine

/-- A line that the pass has not read yet is read in an idle segment; one that it has read is not. -/
theorem exec_patrolRead (s : State) (g : Fin 8) (line : BitVec 32) (upset : List (Fin 4 × Nat)) (hup : (s.gate g).out = 0)
    (hen : s.flag (Loc.gtPatrolCtl g) 8 = true) (hgate : (placeLine line.toNat).1 = g.val)
    (hmem : line.toNat * 256 < memSize) (hch : s.chFailed g (placeLine line.toNat).2.1 = false)
    (htrained : s.lineRetrains line.toNat = false) :
    ((s.gate g).patrol.contains line.toNat = true → exec (.patrolRead g line upset) s = .next s) ∧
    ((s.gate g).patrol.contains line.toNat = false → ∀ from_, s.idleFrom g (placeLine line.toNat).2.1 = some from_ →
      s.reaches (max (s.gate g).passStart from_) →
      exec (.patrolRead g line upset) s = .next
        (((s.atTime (max (s.gate g).passStart from_)).upset line.toNat upset).patrolLine g line.toNat)) := by
  have hexec : exec (.patrolRead g line upset) s = execPatrolRead g line upset s := rfl
  unfold execPatrolRead State.gateUp at hexec
  rw [hexec]
  refine ⟨fun hread => by simp only [hread, Bool.or_true, if_true], fun hfresh from_ hidle hreach => ?_⟩
  simp only [hup, hen, hgate, hch, htrained, hfresh, hidle, Nat.not_le.mpr hmem, Option.bind_some,
    waitUntil_reaches s _ hreach, beq_self_eq_true, bne_self_eq_false, decide_false, Bool.not_true, Bool.or_self,
    Bool.false_eq_true, if_false]

/-- What a patrol read of a line counts before the pass goes on, from what its code words gave. -/
theorem patrolLine_eq (s : State) (g l : Nat) (words : State × Nat × Bool)
    (hwords : (List.range 4).foldl (fun r cw => r.1.patrolWord g (placeLine l).2.1 l cw r.2) (s, 0, false) = words) :
    let t := words.1.addWrap (Loc.gtPatrolCe g) 31 0 words.2.1
    let t := (List.range words.2.1).foldl (fun s _ => s.bump (gtPage g 2) 5 (placeLine l).2.1) t
    let t := if words.2.2 = true then t.addWrap (Loc.gtPatrolUe g) 31 0 1 else t
    s.patrolLine g l = t.patrolStep g l := by
  subst hwords
  rfl

/-- A line read in the pass: the pass goes on, or ends with its last line. -/
theorem patrolStep_cases (s : State) (g line : Nat) :
    let t := s.modGate g fun x => { x with patrol := x.patrol ++ [line] }
    let next := max t.clk.elapsed ((t.gate g).passStart + t.fld (Loc.gtPatrolCtl g) 7 0 * 3600000000000)
    (t.patrolSeen g < t.patrolAll g →
      s.patrolStep g line = t.setFld (Loc.gtPatrolSts g) 22 16 (100 * t.patrolSeen g / t.patrolAll g)) ∧
    (t.patrolAll g ≤ t.patrolSeen g → s.patrolStep g line =
      ((t.modGate g fun x => { x with patrol := [], passAt := next, passLate := false }).addWrap
        (Loc.gtPatrolSts g) 15 0 1).setFld (Loc.gtPatrolSts g) 22 16 0) :=
  ⟨fun hmore => if_pos hmore, fun hlast => if_neg (Nat.not_lt.mpr hlast)⟩

/-- A pass that has not finished in twice its period is flagged, once. -/
theorem exec_patrolLate (s : State) (g : Fin 8) (hup : (s.gate g).out = 0) (hen : s.flag (Loc.gtPatrolCtl g) 8 = true) :
    ((s.gate g).passLate = true → exec (.patrolLate g) s = .next s) ∧
    ((s.gate g).passLate = false →
      let at_ := (s.gate g).passStart + 2 * s.fld (Loc.gtPatrolCtl g) 7 0 * 3600000000000
      s.reaches at_ → exec (.patrolLate g) s = .next
        ((((s.atTime at_).modGate g fun x => { x with passLate := true }).setFlag (Loc.gtPatrolSts g) 23 true).post
          (gtPage g 2) 0 0x43 0 0)) := by
  have hexec : exec (.patrolLate g) s = execPatrolLate g s := rfl
  unfold execPatrolLate State.gateUp at hexec
  rw [hexec]
  refine ⟨fun hlate => by simp only [hlate, Bool.or_true, if_true], ?_⟩
  intro hfresh at_ hreach
  simp only [hup, hen, hfresh, beq_self_eq_true, Bool.not_true, Bool.or_self, Bool.false_eq_true, if_false]
  rw [waitUntil_reaches s _ hreach]

/-- REMAP of a gatehouse with GO. -/
theorem exec_memoryRemap (s : State) (f : Func) (g : Fin 8) (v : Word) (hacc : s.accepts f (Loc.gtRemap g) (v.put 31 31 1)) :
    let w := v.put 31 31 1
    let refused := fun k => s.reject f (Loc.gtRemap g / 4096) (Loc.gtRemap g % 4096) k
    let page : MPage := ⟨w.bits 5 0, w.bits 6 6, w.bits 10 7, w.bits 26 11⟩
    (∀ k, formCheck (locFields (Loc.gtRemap g)) w = some k → exec (.memoryRemap f g v) s = .next (refused k)) ∧
    (wellFormedFor (Loc.gtRemap g) w → exec (.memoryRemap f g v) s = .next
      (if w.bits 26 11 ≥ (if w.bit 6 = true then 24576 else 49152) then refused 2
       else if s.flag (Loc.gtRemapSts g) 0 = true then refused 6
       else ((s.put (Loc.gtRemap g) (w.put 31 31 0)).startPageRemap g page).managed)) := by
  have hexec : exec (.memoryRemap f g v) s = .next (s.settle f (Loc.gtRemap g) (s.gtRemapOp g (v.put 31 31 1))) :=
    congrArg _ (write_accepted hacc _)
  rw [hexec]
  unfold State.gtRemapOp wellFormedFor
  refine ⟨fun k hform => by rw [hform]; rfl, fun hform => ?_⟩
  simp only [hform, Word.put_go, if_true, settle_ite, settle_ok, settle_error]

/-- A remap of a page begins when the store has a free entry (R185). -/
theorem startPageRemap_managed (s : State) (g : Nat) (p : MPage) :
    (s.startPageRemap g p).managed = if 64 ≤ (s.gate g).store.length then (s.setFlag (Loc.gtRemapSts g) 2 true).managed
      else ((s.setFlag (Loc.gtRemapSts g) 0 true).modGate g fun x => { x with mirror := some { page := p } }).managed :=
  apply_ite _ _ _ _

/-- The copier has read the page of the mirror state. -/
theorem exec_memoryRemapCopyDone (s : State) (g : Fin 8) :
    ((s.gate g).mirror = none → exec (.memoryRemapCopyDone g) s = .next s) ∧
    (∀ m : GMirror, (s.gate g).mirror = some m →
      let bad := (m.page.lines g).1.any fun l => (List.range 4).any fun cw =>
        decide (eccRead 16 36 3 (tget 0 s.memFlip (l * 4 + cw)) = .uncorrectable)
      (m.copied = true → exec (.memoryRemapCopyDone g) s = .next s) ∧
      (m.copied = false → bad = false → exec (.memoryRemapCopyDone g) s = .next (s.pageCopied g m)) ∧
      (m.copied = false → bad = true → exec (.memoryRemapCopyDone g) s = .next
        ((((((s.modGate g fun x => { x with mirror := none }).setFlag (Loc.gtRemapSts g) 0 false).setFlag
          (Loc.gtRemapSts g) 3 true).post (gtPage g 0) 1 0x46 m.page.ch
          (m.page.rank * 64 + m.page.bank * 128 + m.page.row * 2048)).askPageRemap g)))) := by
  have hexec : exec (.memoryRemapCopyDone g) s = execMemoryRemapCopyDone g s := rfl
  unfold execMemoryRemapCopyDone at hexec
  rw [hexec]
  refine ⟨fun hnone => by rw [hnone], fun m hm => ?_⟩
  rw [hm]
  intro bad
  refine ⟨fun hcopied => if_pos hcopied, fun hcopied hgood => ?_, fun hcopied hbad => ?_⟩ <;> dsimp only <;>
    rw [if_neg (Bool.eq_false_iff.mp hcopied)]
  · exact if_neg (Bool.eq_false_iff.mp hgood)
  · exact if_pos hbad

/-- FLIP_SEL of a gatehouse, by a write that passes the checks of its page. -/
theorem write_gtFlipSel (s : State) (f : Func) (g : Nat) (w : Word) (hacc : s.accepts f (Loc.gtFlipSel g) w) :
    let u := s.write f (Loc.gtFlipSel g) w fun s => s.gtFlipSelOp g w
    let refused := fun k => s.reject f (Loc.gtFlipSel g / 4096) (Loc.gtFlipSel g % 4096) k
    (∀ k, formCheck (locFields (Loc.gtFlipSel g)) w = some k → u = refused k) ∧
    (wellFormedFor (Loc.gtFlipSel g) w →
      u = if (s.flag (Loc.gtFlipSel g) 16 && w.bit 16) = true then refused 6 else (s.put (Loc.gtFlipSel g) w).managed) := by
  intro u refused
  have hu : u = s.settle f (Loc.gtFlipSel g) (s.gtFlipSelOp g w) := write_accepted hacc _
  rw [hu]
  unfold State.gtFlipSelOp wellFormedFor
  refine ⟨fun k hform => by rw [hform]; rfl, fun hform => ?_⟩
  rw [hform]
  exact settle_ite _ _ _ _ _ _

/-- Settles O23: one lemma for each command; REMAP by `startPageRemap_managed`, both flips by `write_gtFlipSel`. -/
theorem memoryIsPatrolled : Obligations.MemoryIsPatrolled := by
  unfold Obligations.MemoryIsPatrolled
  refine ⟨?_, ?_⟩
  · intro s g hup hen
    refine ⟨?_, exec_patrolLate s g hup hen⟩
    intro line upset l ch hgate hmem hch htrained
    obtain ⟨hagain, hfresh⟩ := exec_patrolRead s g line upset hup hen hgate hmem hch htrained
    refine ⟨hagain, ?_⟩
    intro hnew from_ hidle at_ hreach words t₁ t₂ t₃ t n
    have hline : ((s.atTime at_).upset l upset).patrolLine g l = t₃.patrolStep g l := patrolLine_eq _ g l words rfl
    have hread : exec (.patrolRead g line upset) s = .next (t₃.patrolStep g l) :=
      (hfresh hnew from_ hidle hreach).trans (congrArg _ hline)
    rw [hread]
    obtain ⟨hmore, hlast⟩ := patrolStep_cases t₃ g l
    exact ⟨fun hn => congrArg _ (hmore hn), fun hn => congrArg _ (hlast hn)⟩
  · intro s f g v
    obtain ⟨hnone, hmirror⟩ := exec_memoryRemapCopyDone s g
    refine ⟨?_, hnone, hmirror, ?_⟩
    · intro w hacc refused u
      obtain ⟨hbad, hgood⟩ := exec_memoryRemap s f g v hacc
      refine ⟨hbad, fun hform => ?_⟩
      rw [hgood hform, startPageRemap_managed]
    · intro loc refused
      refine ⟨?_, ?_⟩ <;> intro w hacc <;> obtain ⟨hbad, hgood⟩ := write_gtFlipSel s f g w hacc
      · have harm : w.bit 16 = true := Word.put_bit_one v 16 (by decide)
        rw [harm, Bool.and_true] at hgood
        exact ⟨fun k hform => congrArg _ (hbad k hform), fun hform => congrArg _ (hgood hform)⟩
      · have hdisarm : w.bit 16 = false := Word.put_bit_zero v 16 (by decide)
        rw [hdisarm, Bool.and_false] at hgood
        exact ⟨fun k hform => congrArg _ (hbad k hform), fun hform => congrArg _ (hgood hform)⟩

end Sys2Proof.Machine
end

section
/-! PROOF. The plinth links (R198 to R210): blocks come in, units land, link words are served, bundles leave. -/

namespace Sys2Proof.Machine

/-- A block comes to a link that is up, with room at its relay; the unit that it ends lands (R200, R201). -/
theorem blockIn_cases (s : State) (a d p : Nat) (err : BitVec 560) :
    let t := s.moveBlock a d p err
    (s.linkSt a d p ≠ 2 ∨ s.relayHolds a d p = true → s.blockIn a d p err = s) ∧
    (s.linkSt a d p = 2 → s.relayHolds a d p = false →
      ((t.link a d p).landed = none → s.blockIn a d p err = t) ∧
      (∀ u k, (t.link a d p).landed = some (u, k) → s.blockIn a d p err =
        (t.modLink a d p fun x => x.landNext (decide ((s.link a d p).badRun < x.badRun))).landUnit a d p u k)) := by
  unfold State.blockIn
  refine ⟨fun hclosed => if_pos (by simpa using hclosed), fun hup hroom => ?_⟩
  rw [if_neg (by simp [hup, hroom])]
  exact ⟨fun hnone => by simp only [hnone], fun u k hsome => by simp only [hsome]⟩

/-- A unit lands: without block lock it is dropped, with an uncorrectable block it is bad, else it is taken (R201, R209). -/
theorem landUnit_cases (s : State) (a d p : Nat) (u : LUnit) :
    let free := fun (bad : Bool) =>
      s.modLink a d p fun x => { x with skip := bad || x.skip, nak := bad || x.nak, freed := x.freed + u.flits }
    (∀ k, (s.link a d p).lost.isSome = true → s.landUnit a d p u k = if u.idle = true then s else free false) ∧
    ((s.link a d p).lost = none → s.landUnit a d p u none = if u.idle = true then s else free true) ∧
    (∀ b, (s.link a d p).lost = none → s.landUnit a d p u (some b) = s.takeBundle a d p b) := by
  unfold State.landUnit
  exact ⟨fun k hlost => if_pos hlost, fun hlock => if_neg (by simp [hlock]), fun b hlock => if_neg (by simp [hlock])⟩

/-- A bundle that came whole is bad, brings its link word alone, or is delivered, dropped or asked for again (R205, R209). -/
theorem takeBundle_cases (s : State) (a d p : Nat) (k : Bundle) :
    let x := s.link a d p
    let sum := (k.hdrs.map hdrData).sum
    let flits := if k.kind = 0 then 0 else 1 + sum
    let broken := !k.good || decide (2 ≤ k.kind) || (k.kind == 1 && k.ndata != sum)
    let u := s.lineWord d a p k
    (broken = true → s.takeBundle a d p k = ((s.linkCount (Loc.plLinkCrc 0) a d p 1).plEvent 4 a 1).badUnit a d p flits) ∧
    (broken = false →
      (k.kind = 0 ∨ x.closed = true → s.takeBundle a d p k = u) ∧
      (k.kind ≠ 0 → x.closed = false →
        let w := u.modLink a d p fun x => { x with freed := x.freed + flits }
        let below := (x.expect + 1024 - k.seq) % 1024
        (k.seq = x.expect → s.takeBundle a d p k = k.hdrs.foldl (fun s h => s.deliver a d h)
          (w.modLink a d p fun x => { x with expect := (x.expect + 1) % 1024, any := true, skip := false, nak := false })) ∧
        (k.seq ≠ x.expect → s.takeBundle a d p k =
          if x.skip = true then w
          else if 1 ≤ below ∧ below ≤ 512 then w.modLink a d p fun x => { x with nak := false }
          else w.modLink a d p fun x => { x with nak := true }))) := by
  intro x sum flits broken u
  unfold State.takeBundle
  refine ⟨fun hbad => if_pos hbad, fun hgood => ?_⟩
  dsimp only
  rw [if_neg (Bool.eq_false_iff.mp hgood)]
  refine ⟨fun hword => if_pos hword, fun hkind hopen => ?_⟩
  rw [if_neg (not_or.mpr ⟨hkind, Bool.eq_false_iff.mp hopen⟩)]
  exact ⟨fun hseq => if_pos hseq, fun hseq => if_neg hseq⟩

/-- What a link that is up is told by a link word (R208 to R210). -/
theorem lineWord_up (s : State) (a d p : Nat) (w : Bundle) (hup : s.linkSt a d p = 2) :
    let x := s.link a d p
    let acked := fun q : LSent => w.ackV && decide ((w.ackSeq + 1024 - q.seq) % 1024 < 512)
    let rest := x.retry.filter fun q => !acked q
    let moved := decide (rest.length < x.retry.length)
    let again := w.nak && !rest.isEmpty
    let base := if moved = true then 0 else x.resent
    let t := s.modLink a d p fun x => { x with
      retry := rest, again := x.again.filter fun q => !acked q, credit := min 32 (x.credit + w.credit)
      ackAt := if moved = true then s.clk.elapsed else x.ackAt
      resent := if (again && x.lost.isNone) = true then base + 1 else base }
    s.lineWord a d p w = (if again = true then t.modLink a d p fun x => { x with again := x.retry } else t).pumpAll a d p := by
  unfold State.lineWord
  exact if_neg (not_not.mpr hup)

/-- A link that is up without a bundle in flight brings an idle flit. -/
theorem exec_idleFlitReceive (s : State) (a d : Fin 48) (p : Fin 4) (errs : List (BitVec 560)) (hup : s.linkSt a d p = 2)
    (hidle : ((s.link a d p).flight.any fun u => !u.idle) = false) :
    let u := if (s.link a d p).flight.isEmpty then s.sendUnit a d p true 0 [] else s
    exec (.idleFlitReceive a d p errs) s =
      .next (u.blocksIn a d p ((u.link a d p).blocksTo fun _ => true) errs).settleAll :=
  if_neg (by simp only [hup, hidle]; decide)

/-- Without progress for RETRY_TMO a link that is up resends what is not acknowledged. -/
theorem exec_linkRetryTimeout (s : State) (a d : Fin 48) (p : Fin 4) (hup : s.linkSt a d p = 2) :
    ((s.link a d p).retry = [] → exec (.linkRetryTimeout a d p) s = .next s) ∧
    ((s.link a d p).retry ≠ [] →
      let at_ := (s.link a d p).ackAt + 100 * s.fld (Loc.plPlCtl (stPlinth a)) 27 20
      let t := s.atTime at_
      s.reaches at_ → exec (.linkRetryTimeout a d p) s = .next
        (((t.modLink a d p fun x =>
          { x with ackAt := t.clk.elapsed, resent := if x.lost.isNone then x.resent + 1 else x.resent }).modLink a d p fun x =>
            { x with again := x.retry }).pumpAll a d p)) := by
  have hexec : exec (.linkRetryTimeout a d p) s = execLinkRetryTimeout a d p s := rfl
  unfold execLinkRetryTimeout at hexec
  rw [hexec]
  refine ⟨fun hnone => if_pos (by simp [hnone]), ?_⟩
  intro hsome at_ t hreach
  dsimp only
  rw [if_neg (by simp [hup, hsome]), waitUntil_reaches s _ hreach]
  rfl

/-- What a link that is up sends next: its oldest bundle to be sent again, or a bundle of the headers that wait (R207 to
R210). -/
theorem pumpLink_up (s : State) (a d p f : Nat) (hup : s.linkSt a d p = 2) :
    let x := s.link a d p
    let room := min 21 (min x.credit (48 - (x.retry.map (·.flits)).sum))
    let r := takeHdrs 4 (room - 1) x.q
    let fl := 1 + (r.1.map hdrData).sum
    (∀ q l, x.again = q :: l → s.pumpLink a d p (f + 1) =
      if x.credit < q.flits then s else (s.sendAgain a d p q).pumpLink a d p f) ∧
    (x.again = [] → s.pumpLink a d p (f + 1) = if room = 0 ∨ r.1 = [] then s else
      ((s.modLink a d p fun x => { x with
        q := r.2, credit := x.credit - fl, next := (x.next + 1) % 1024
        ackAt := if x.retry.isEmpty then s.clk.elapsed else x.ackAt
        retry := x.retry ++ [⟨x.next, r.1, fl⟩] }).sendUnit a d p false x.next r.1).pumpLink a d p f) := by
  intro x room r fl
  have hpump : s.pumpLink a d p (f + 1) = s.pumpLink a d p (f + 1) := rfl
  conv at hpump => rhs; unfold State.pumpLink
  rw [hpump]
  have hdown : ¬ s.linkSt a d p ≠ 2 := not_not.mpr hup
  refine ⟨fun q l hagain => ?_, fun hfresh => ?_⟩
  · have hx : (s.link a d p).again = q :: l := hagain
    simp only [hx, hdown, false_or]
    rfl
  · have hx : (s.link a d p).again = [] := hfresh
    simp only [hx, hdown, false_or, List.isEmpty_iff]
    by_cases hroom : room = 0
    · rw [if_pos hroom, if_pos (Or.inl hroom)]
    · rw [if_neg hroom]
      by_cases hnone : r.1 = []
      · rw [if_pos hnone, if_pos (Or.inr hnone)]
      · rw [if_neg hnone, if_neg (not_or.mpr ⟨hroom, hnone⟩)]

/-- Settles O24: how a block comes in, how a unit lands and what a link sends are lemmas about the operation; the commands
follow. -/
theorem linksDeliverAndRetry : Obligations.LinksDeliverAndRetry := by
  unfold Obligations.LinksDeliverAndRetry
  refine ⟨?_, ?_⟩
  · intro s a d p
    refine ⟨fun errs => (apply_ite _ _ _ _).symm, fun errs => ⟨rfl, rfl⟩, fun n errs => rfl, ?_, takeBundle_cases s a d p⟩
    intro err t
    obtain ⟨hclosed, hopen⟩ := blockIn_cases s a d p err
    refine ⟨hclosed, fun hup hroom => ?_⟩
    obtain ⟨hmid, hland⟩ := hopen hup hroom
    refine ⟨hmid, ?_⟩
    intro u k hlanded w free
    obtain ⟨hdrop, hbad, htake⟩ := landUnit_cases w a d p u
    rw [hland u k hlanded]
    exact ⟨hdrop k, fun hlock hk => by subst hk; exact hbad hlock, fun b hlock hk => by subst hk; exact htake b hlock⟩
  · intro s a d p hup
    obtain ⟨hnone, htimeout⟩ := exec_linkRetryTimeout s a d p hup
    exact ⟨fun errs hidle => exec_idleFlitReceive s a d p errs hup hidle, fun w => lineWord_up s a d p w hup, hnone, htimeout,
      fun f => pumpLink_up s a d p f hup⟩

end Sys2Proof.Machine
end

section
/-! PROOF. Failed plinth links (R212, R215, R217), detours (R218 to R220), the exchange of a noisy lane (R223). -/

namespace Sys2Proof.Machine

/-- The link of a sextant, and one that neither trains nor is up, does not fail. -/
theorem exec_linkFail_closed (s : State) (a d : Fin 48) (p : Fin 4)
    (h : isSextant d = true ∨ (s.linkSt a d p ≠ 1 ∧ s.linkSt a d p ≠ 2)) : exec (.linkFail a d p) s = .next s := by
  change execLinkFail a d p s = _
  unfold execLinkFail
  rcases h with hsext | ⟨hnotrain, hdown⟩
  · rw [if_pos hsext]
  · simp [hnotrain, hdown]

/-- A link fails in training, or after RETRY_MAX resends in a row. -/
theorem exec_linkFail_resent (s : State) (a d : Fin 48) (p : Fin 4) (hline : isSextant d = false)
    (h : s.linkSt a d p = 1 ∨ (s.linkSt a d p = 2 ∧ s.fld (Loc.plPlCtl (stPlinth a)) 8 4 ≤ (s.link a d p).resent)) :
    exec (.linkFail a d p) s = .next (s.linkFails a d p) := by
  change execLinkFail a d p s = _
  unfold execLinkFail
  rcases h with htrain | ⟨hup, hresent⟩
  · simp [hline, htrain]
  · simp [hline, hup, hresent]

/-- A link that is up fails when it has been without lock for longer than LOCK_LOSS_US. -/
theorem exec_linkFail_lost (s : State) (a d : Fin 48) (p : Fin 4) (hline : isSextant d = false) (hup : s.linkSt a d p = 2)
    (hresent : (s.link a d p).resent < s.fld (Loc.plPlCtl (stPlinth a)) 8 4) :
    ((s.link a d p).lost = none → exec (.linkFail a d p) s = .next s) ∧
    (∀ t0, (s.link a d p).lost = some t0 →
      s.reaches (t0 + 1000 * s.fld (Loc.plPlCtl (stPlinth d)) 19 12 + 1) → exec (.linkFail a d p) s =
        .next ((s.atTime (t0 + 1000 * s.fld (Loc.plPlCtl (stPlinth d)) 19 12 + 1)).linkFails a d p)) := by
  have hexec : exec (.linkFail a d p) s = execLinkFail a d p s := rfl
  unfold execLinkFail at hexec
  rw [hexec]
  refine ⟨fun hlock => ?_, fun t0 hlost hreach => ?_⟩
  · simp [hline, hup, hresent, hlock]
  · simp [hline, hup, hresent, hlost, waitUntil_reaches s _ hreach]

/-- The query header of a failed link carries its plane and the training that ended. -/
theorem linkQuery_arg (p t : Nat) (hp : p < 4) :
    (BitVec.ofNat 16 (p + 4 * (t % 16))).toNat % 4 = p ∧ (BitVec.ofNat 16 (p + 4 * (t % 16))).toNat / 4 % 16 = t % 16 := by
  rw [BitVec.toNat_ofNat]
  omega

/-- The query about a failed link is answered by its receiver (R217). -/
theorem exec_linkQuery (s : State) (a d : Fin 48) (p : Fin 4) (t : Nat) (l : List Nat) (hasked : (s.link a d p).asked = t :: l) :
    exec (.linkQuery a d p) s = .next (s.answerQuery d a p (t % 16)) := by
  obtain ⟨hplane, htrain⟩ := linkQuery_arg p t p.isLt
  change execLinkQuery a d p s = _
  unfold execLinkQuery State.deliver hdrSource
  simp only [hasked, hplane, htrain, Bool.false_and, Bool.false_eq_true, if_false, if_true]

/-- What the receiver of a failed link answers, once it names a training that it heard of. -/
theorem answerQuery_cases (s : State) (d src p t16 : Nat) :
    (((s.link src d p).heard.find? fun e => e.1 % 16 == t16) = none → s.answerQuery d src p t16 = s) ∧
    (∀ u v, ((s.link src d p).heard.find? fun e => e.1 % 16 == t16) = some (u, v) → s.answerQuery d src p t16 =
      ((s.modLink src d p fun x => { x with closed := x.closed || u == x.trains }).sendHdr d src
        { op := 0x31, arg := BitVec.ofNat 16 (v - 1 + 1024 * p + 4096 * t16) }).1) := by
  unfold State.answerQuery
  exact ⟨fun hnone => by simp only [hnone], fun u v hsome => by simp only [hsome]⟩

/-- The reply drops the bundles that were delivered and re-issues the transactions of the rest (R217). -/
theorem exec_linkReply (s : State) (a d : Fin 48) (p : Fin 4) (t : Nat) (l : List Nat) (hasked : (s.link a d p).asked = t :: l)
    (seq : BitVec 10) :
    let rest := (s.link a d p).doubt.filter fun q => q.1 == t && !decide ((seq.toNat + 1024 - q.2.seq) % 1024 < 512)
    exec (.linkReply a d p seq) s = .next
      (((rest.flatMap fun q => q.2.hdrs).filter fun h => !(h.op == 0x30)).foldl
        (fun (s : State) h => s.reissue a d h)
        (s.modLink a d p fun x =>
          { x with asked := x.asked.erase t, doubt := x.doubt.filter fun q => q.1 != t, heard := tset 0 x.heard t 0 })) := by
  change execLinkReply a d p seq s = _
  unfold execLinkReply State.linkAnswered
  have hfirst : (t :: l).find? (fun u => u % 16 == t % 16) = some t := List.find?_cons_of_pos (by simp)
  simp only [hasked, hfirst]

/-- A link that no query asks about: neither a query nor a reply has an effect. -/
theorem exec_linkQuery_unasked (s : State) (a d : Fin 48) (p : Fin 4) (hnone : (s.link a d p).asked = []) :
    exec (.linkQuery a d p) s = .next s ∧ ∀ seq, exec (.linkReply a d p seq) s = .next s := by
  refine ⟨?_, fun seq => ?_⟩
  · change execLinkQuery a d p s = _
    unfold execLinkQuery
    rw [hnone]
  · change execLinkReply a d p seq s = _
    unfold execLinkReply
    rw [hnone]

/-- A failed link is retrained 10 ms later, with its reverse link (R215). -/
theorem exec_linkBackgroundRetrain (s : State) (a d : Fin 48) (p : Fin 4) (hfailed : (s.link a d p).st = some 3) :
    let at_ := (s.link a d p).failedAt + 10000000
    let t := s.atTime at_
    s.reaches at_ →
    exec (.linkBackgroundRetrain a d p true) s = .next ((t.trainLink a d p).trainLink d a p) ∧
    exec (.linkBackgroundRetrain a d p false) s = .next
      ((t.modLink a d p fun x => { x with failedAt := t.clk.elapsed }).modLink d a p fun x =>
        { x with failedAt := t.clk.elapsed }) := by
  intro at_ t hreach
  have hexec : ∀ up, exec (.linkBackgroundRetrain a d p up) s = execLinkBackgroundRetrain a d p up s := fun _ => rfl
  unfold execLinkBackgroundRetrain at hexec
  rw [hexec, hexec]
  dsimp only
  rw [if_neg (not_not.mpr hfailed), if_neg (not_not.mpr hfailed), waitUntil_reaches s _ hreach]
  exact ⟨rfl, rfl⟩

/-- A station that is no oculus's relays nothing. -/
theorem exec_detourRelay_none (s : State) (r : Fin 48) (hst : stationOculus r = none) :
    exec (.detourRelay r) s = .next s := by
  change execDetourRelay r s = _
  unfold execDetourRelay
  rw [hst]

/-- The first transaction that waits at a relay goes on (R219). -/
theorem exec_detourRelay_detour (s : State) (r : Fin 48) (e : Nat) (hst : stationOculus r = some e) (x : Nat × Hdr)
    (hx : ((s.oculus e).detour.find? fun x => x.1 == r.val) = some x) :
    exec (.detourRelay r) s =
      .next (((s.modOculus e fun o => { o with detour := o.detour.erase x }).relayOn r x.2).settleAll) := by
  change execDetourRelay r s = _
  unfold execDetourRelay
  simp only [hst, hx]

/-- A relayed transaction goes over the plane that its hash and the masks give, or ends without one (R219, R220). -/
theorem relayOn_cases (s : State) (r : Nat) (h : Hdr) :
    let c := s.hdrHash r h.final.toNat h (hdrOnLine h)
    (∀ p, c.2.planeFor r h.final.toNat c.1 = some p → s.relayOn r h = c.2.sendOn r h.final.toNat p h) ∧
    (c.2.planeFor r h.final.toNat c.1 = none → s.relayOn r h = c.2.endHdr r h 0x33) := by
  unfold State.relayOn
  exact ⟨fun p hp => by simp only [hp], fun hp => by simp only [hp]⟩

/-- Where nothing is detoured, the first transaction for the fabric that waits at the station is tried again. -/
theorem exec_detourRelay_fabric (s : State) (r : Fin 48) (e : Nat) (hst : stationOculus r = some e)
    (hnone : ((s.oculus e).detour.find? fun x => x.1 == r.val) = none) :
    (((s.oculus e).fabWait.find? fun x => x.1 == r.val) = none → exec (.detourRelay r) s = .next s) ∧
    (∀ x, ((s.oculus e).fabWait.find? fun x => x.1 == r.val) = some x → exec (.detourRelay r) s = .next
      (((s.modOculus e fun o => { o with fabWait := o.fabWait.erase x }).hdrFabric e r (hdrSource r x.2) x.2).settleAll)) := by
  have hexec : exec (.detourRelay r) s = execDetourRelay r s := rfl
  unfold execDetourRelay at hexec
  simp only [hst, hnone] at hexec
  rw [hexec]
  exact ⟨fun hidle => by rw [hidle], fun x hx => by rw [hx]⟩

/-- PAIR_VIA written: astray with a VIA that is no oculus station, else by the rule of its table (R218). -/
theorem exec_pairViaWrite (s : State) (f : Func) (e : Side) (v : Word) (hacc : s.accepts f (Loc.plPairVia (sideNat e)) v) :
    let loc := Loc.plPairVia (sideNat e)
    let refused := fun k => s.reject f (loc / 4096) (loc % 4096) k
    let sel := s.get (Loc.plPairSel (sideNat e))
    let astray := v.bit 6 = true ∧ stationOculus (v.bits 5 0) = none
    (astray → exec (.pairViaWrite f e v) s = .next
      (refused (if v.toNat &&& coverMask (locFields loc) ≠ v.toNat then 1 else 2))) ∧
    (¬ astray → (∀ k, formCheck (locFields loc) v = some k → exec (.pairViaWrite f e v) s = .next (refused k)) ∧
      (wellFormedFor loc v → exec (.pairViaWrite f e v) s = .next
        (s.writeFields loc (sel.bits 4 0 * 64 + sel.bits 13 8) v.toNat (s.pendPart (loc / 4096)) (locFields loc)).managed)) := by
  intro loc refused sel astray
  have hexec : exec (.pairViaWrite f e v) s = .next (s.settle f loc (s.pairViaOp (sideNat e) v)) :=
    congrArg _ (write_accepted hacc _)
  have hastray : astray ↔ (v.bit 6 && (stationOculus (v.bits 5 0)).isNone) = true := by simp [astray]
  rw [hexec]
  unfold State.pairViaOp State.plainWrite wellFormedFor
  refine ⟨fun h => by rw [if_pos (hastray.mp h)]; rfl, fun h => ?_⟩
  rw [if_neg (fun hb => h (hastray.mpr hb))]
  exact ⟨fun k hform => by simp only [loc] at hform; simp only [hform]; rfl,
    fun hform => by simp only [loc] at hform; simp only [hform]; rfl⟩

/-- A window of a link that is up ends: the lanes are judged on a plinth that exchanges them (R223). -/
theorem exec_laneErrorWindow (s : State) (a d : Fin 48) (p : Fin 4) (rx : Bool) (test : LaneTest) (hup : s.linkSt a d p = 2)
    (t : State) (ht : s.waitUntil ((s.link a d p).winAt + 1000000) = some t) (u : State)
    (hu : (t.setFld (Loc.plLinkBiterr 0) 31 0 (t.link a d p).errs (linkKey a d p)).modLink a d p (fun x =>
      { x with errs := 0, winAt := t.clk.elapsed }) = u) :
    exec (.laneErrorWindow a d p rx test) s =
      if u.flag (Loc.plBunCtl (stPlinth (if rx = true then d else a))) 8 = true then
        .next ((u.sparesOut (laneGroup a d p rx).1 (laneGroup a d p rx).2 test.sparesBad).judgeLane a d p
          (t.link a d p).errs rx test.oldOk)
      else .next u := by
  subst hu
  change execLaneErrorWindow a d p rx test s = _
  unfold execLaneErrorWindow
  rw [if_neg (not_not.mpr hup), ht]

/-- How the window of a link judges its lanes (R223). -/
theorem judgeLane_eq (s : State) (a d p bits : Nat) (rx ok : Bool) (x : Link) (hx : s.link a d p = x) :
    let own := s.modLink a d p fun x => { x with lane := 0 }
    let old := laneGroup a d p (x.lane == 2)
    s.judgeLane a d p bits rx ok =
      if x.lanePend ≠ 0 then s
      else if bits > 1000 then
        (if x.lane = 0 then s.modLink a d p fun x => { x with lanePend := if rx = true then 2 else 1 }
        else (own.laneBack old true).wantRescue (if x.lane = 2 then d else a) p)
      else if x.lane = 0 then s else own.laneBack old ok := by
  subst hx
  rfl

/-- Settles O25: one lemma for each command; how a query is answered and where a relayed transaction goes are lemmas about the
operation. -/
theorem linksFailDetourAndExchange : Obligations.LinksFailDetourAndExchange := by
  unfold Obligations.LinksFailDetourAndExchange
  refine ⟨?_, ?_, ?_⟩
  · intro s a d p fails
    refine ⟨exec_linkFail_closed s a d p, ?_, exec_linkQuery_unasked s a d p, ?_, exec_linkBackgroundRetrain s a d p⟩
    · exact fun hline => ⟨exec_linkFail_resent s a d p hline, fun hup hresent => exec_linkFail_lost s a d p hline hup hresent⟩
    · intro t l hasked
      obtain ⟨hunheard, hheard⟩ := answerQuery_cases s d a p (t % 16)
      rw [exec_linkQuery s a d p t l hasked]
      exact ⟨fun h => congrArg _ (hunheard h), fun u v h => congrArg _ (hheard u v h),
        fun seq => exec_linkReply s a d p t l hasked seq⟩
  · intro s
    refine ⟨exec_detourRelay_none s, fun r e hst => ⟨?_, fun hnone => ?_⟩, exec_pairViaWrite s⟩
    · intro x hx u c
      rw [exec_detourRelay_detour s r e hst x hx]
      obtain ⟨hplane, hlost⟩ := relayOn_cases u r x.2
      refine ⟨fun p hp => ?_, fun hp => ?_⟩ <;> change Host.Outcome.next (u.relayOn r x.2).settleAll = _
      · rw [hplane p hp]
      · rw [hlost hp]
    · obtain ⟨hidle, hwait⟩ := exec_detourRelay_fabric s r e hst hnone
      refine ⟨hidle, ?_⟩
      intro x hx src u i
      rw [hwait x hx]
      unfold State.hdrFabric
      exact ⟨fun hi => by simp only [i] at hi; rw [hi], fun t st data hi => by simp only [i] at hi; rw [hi],
        fun t q hi => by simp only [i] at hi; rw [hi]⟩
  · intro s a d p rx ok bad hup at_ t bits u g v x own old cmd hreach
    have hexec := exec_laneErrorWindow s a d p rx { oldOk := ok, sparesBad := bad } hup t (waitUntil_reaches s _ hreach) u rfl
    have hjudge := judgeLane_eq v a d p bits rx ok x rfl
    refine ⟨fun hoff => ?_, fun hon => ?_⟩
    · rw [hexec, if_neg (Bool.eq_false_iff.mp hoff)]
    · rw [hexec, if_pos hon]
      exact congrArg _ hjudge

end Sys2Proof.Machine
end

section
/-! PROOF. The lantern bays and the sides that they light (R230 to R232, R236 to R242, R255). -/

namespace Sys2Proof.Machine

/-- A module fitted in an absent or faulted bay warms, and its rail comes on. -/
theorem exec_lanternFit (s : State) (b : Fin 3) (r : LanternRecord) :
    let t := (s.setBay b 1).modOptics fun o => { o with lanterns := tset {} o.lanterns b r }
    (s.bay b ≠ 0 → s.bay b ≠ 4 → exec (.lanternFit { bay := b, record := r }) s = .next s) ∧
    (s.bay b = 0 ∨ s.bay b = 4 → exec (.lanternFit { bay := b, record := r }) s = .next (t.lanternRail b)) :=
  ⟨fun habsent hfault => if_neg (not_or.mpr ⟨habsent, hfault⟩), fun hfree => if_pos hfree⟩

/-- A bay locks when it warms or has faulted and its LF input is quiet. -/
theorem exec_lanternLock (s : State) (b : Fin 3) :
    ((s.bay b ≠ 1 ∧ s.bay b ≠ 4) ∨ s.fld Loc.glSbSts 2 1 (6 + b) ≠ 0 → exec (.lanternLock b) s = .next s) ∧
    ((s.bay b = 1 ∨ s.bay b = 4) → s.fld Loc.glSbSts 2 1 (6 + b) = 0 →
      exec (.lanternLock b) s = .next ((s.setBay b (s.lockedAs b)).markDark)) := by
  refine ⟨fun hno => if_pos hno, fun hbay hquiet => if_neg ?_⟩
  rintro (⟨hwarm, hfault⟩ | hactive)
  · exact hbay.elim hwarm hfault
  · exact hactive hquiet

/-- A fault of a bay that is not absent is shown. -/
theorem exec_lanternFault (s : State) (b : Fin 3) :
    (s.bay b = 0 → exec (.lanternFault b) s = .next s) ∧
    (s.bay b ≠ 0 → exec (.lanternFault b) s = .next (s.loseBay b 4)) :=
  ⟨fun habsent => congrArg _ (if_pos habsent), fun hbay => congrArg _ (if_neg hbay)⟩

/-- With L2's light a side loses the primary that was locked beside it. -/
theorem loseBay_cases (s : State) (b v : Nat) :
    let t := s.setBay b v
    (t.heldSide = none → s.loseBay b v = t.markDark) ∧
    (∀ e, t.heldSide = some e → s.loseBay b v = (if b = 2 ∧ t.bay e = 2 then t.setBay e 5 else t).markDark) := by
  unfold State.loseBay
  exact ⟨fun hnone => by simp only [hnone], fun e hside => by simp only [hside]⟩

/-- The selector comes to rest. -/
theorem exec_selectorSettled (s : State) :
    let t := s.setFlag Loc.lnLnSts 11 false
    (t.optics.swapTo = none → exec .selectorSettled s = .next t) ∧
    (∀ e, t.optics.swapTo = some e →
      exec .selectorSettled s = .next ((t.setFld Loc.lnLnSts 10 9 (e + 1)).modOptics fun o => { o with settled := true })) := by
  have hexec : exec .selectorSettled s = execSelectorSettled s := rfl
  unfold execSelectorSettled at hexec
  rw [hexec]
  exact ⟨fun hnone => by simp only [hnone], fun e hside => by simp only [hside]⟩

/-- L2 takes a side at once when it is spare-ready, or locked and on its way. -/
theorem exec_emergencySwap (s : State) (e : Side) :
    let ready := s.spareReady || (s.bay 2 == 2 && s.optics.swapTo.isSome)
    (ready = false → exec (.emergencySwap e) s = .next s) ∧
    (ready = true → exec (.emergencySwap e) s = .next
      ((((s.swapSide (sideNat e)).addWrap Loc.lnLnSwaps 31 16 1).bump 0xD00 3 (sideNat e)).post 0xD00 2 0x73 (sideNat e) 0)) := by
  intro ready
  exact ⟨fun hno => if_pos ((congrArg (!·) hno).trans rfl), fun hyes => if_neg (Bool.eq_false_iff.mp ((congrArg (!·) hyes).trans rfl))⟩

/-- What a swap of LN_CTL starts: the selector moves towards the side. -/
def State.swapStarted (s : State) (w : Word) (side : Nat) : State :=
  ((s.put Loc.lnLnCtl (BitVec.ofNat 32 (w.bits 1 0))).setFlag Loc.lnLnSts 11 true).modOptics fun o =>
    { o with swapTo := some side, swapLine := 0, settled := false }

/-- LN_CTL with a command to swap to a side (R236). -/
theorem lnCtlOp_swap (s : State) (w : Word) (side : Nat) (hside : side < 2) (hcmd : w.bits 3 2 = side + 1)
    (hform : formCheck (locFields Loc.lnLnCtl) w = none) :
    s.lnCtlOp w = if s.spareReady = true then .ok (s.swapStarted w side) else .error 5 := by
  have hor : side = 0 ∨ side = 1 := by omega
  unfold State.lnCtlOp
  rcases hor with rfl | rfl <;> simp only [hform, hcmd] <;> cases s.spareReady <;> rfl

/-- LN_CTL with the command to return (R241). -/
theorem lnCtlOp_return (s : State) (w : Word) (hcmd : w.bits 3 2 = 3) (hform : formCheck (locFields Loc.lnLnCtl) w = none) :
    (s.l2Side = none → s.lnCtlOp w = .error 5) ∧
    (∀ e, s.l2Side = some e → s.lnCtlOp w = if s.bay 2 = 3 ∧ (s.bay e = 2 ∨ s.bay e = 5) then
      .ok ((s.put Loc.lnLnCtl (BitVec.ofNat 32 (w.bits 1 0))).modOptics fun o => { o with ret := true }) else .error 5) := by
  unfold State.lnCtlOp
  exact ⟨fun hnone => by simp only [hform, hcmd, hnone],
    fun e hside => by simp only [hform, hcmd, hside, Bool.and_eq_true, Bool.or_eq_true, beq_iff_eq]⟩

/-- A write of LN_CTL in a form that is wrong is rejected with its code. -/
theorem write_lnCtl_malformed {s : State} {f : Func} {w : Word} (hacc : s.accepts f Loc.lnLnCtl w) {k : Nat}
    (hform : formCheck (locFields Loc.lnLnCtl) w = some k) :
    (s.write f Loc.lnLnCtl w fun s => s.lnCtlOp w) = s.reject f (Loc.lnLnCtl / 4096) (Loc.lnLnCtl % 4096) k := by
  rw [write_accepted hacc]
  unfold State.lnCtlOp
  rw [hform]
  rfl

/-- A command to swap to a side starts the selector when L2 is spare-ready. -/
theorem write_lnCtl_swap {s : State} {f : Func} {w : Word} (hacc : s.accepts f Loc.lnLnCtl w) (side : Nat) (hside : side < 2)
    (hcmd : w.bits 3 2 = side + 1) (hform : wellFormedFor Loc.lnLnCtl w) :
    (s.write f Loc.lnLnCtl w fun s => s.lnCtlOp w) =
      if s.spareReady = true then (s.swapStarted w side).managed
      else s.reject f (Loc.lnLnCtl / 4096) (Loc.lnLnCtl % 4096) 5 := by
  rw [write_accepted hacc, lnCtlOp_swap s w side hside hcmd hform, settle_ite, settle_ok, settle_error]

/-- A command to return is taken while L2 serves a side whose primary is locked or shut. -/
theorem write_lnCtl_return {s : State} {f : Func} {w : Word} (hacc : s.accepts f Loc.lnLnCtl w) (hcmd : w.bits 3 2 = 3)
    (hform : wellFormedFor Loc.lnLnCtl w) :
    (s.l2Side = none → (s.write f Loc.lnLnCtl w fun s => s.lnCtlOp w) =
      s.reject f (Loc.lnLnCtl / 4096) (Loc.lnLnCtl % 4096) 5) ∧
    (∀ e, s.l2Side = some e → (s.write f Loc.lnLnCtl w fun s => s.lnCtlOp w) =
      if s.bay 2 = 3 ∧ (s.bay e = 2 ∨ s.bay e = 5) then
        ((s.put Loc.lnLnCtl (BitVec.ofNat 32 (w.bits 1 0))).modOptics fun o => { o with ret := true }).managed
      else s.reject f (Loc.lnLnCtl / 4096) (Loc.lnLnCtl % 4096) 5) := by
  obtain ⟨hnone, hside⟩ := lnCtlOp_return s w hcmd hform
  rw [write_accepted hacc]
  exact ⟨fun h => by rw [hnone h, settle_error], fun e h => by rw [hside e h, settle_ite, settle_ok, settle_error]⟩

/-- Settles O26: one lemma for each event of a bay; the three commands of LN_CTL by the lemmas about its write. -/
theorem baysAndSidesOfLight : Obligations.BaysAndSidesOfLight := by
  unfold Obligations.BaysAndSidesOfLight
  refine ⟨?_, ?_⟩
  · intro s b held
    obtain ⟨hidle, hlock⟩ := exec_lanternLock s b
    obtain ⟨habsent, hfault⟩ := exec_lanternFault s b
    refine ⟨exec_lanternFit s b, hidle, hlock, habsent, ?_⟩
    intro hbay t
    obtain ⟨hunheld, hheld⟩ := loseBay_cases s b 4
    rw [hfault hbay]
    exact ⟨fun h => congrArg _ (hunheld h), fun e h => congrArg _ (hheld e h)⟩
  · intro s f v
    have hbits : ∀ c < 4, (v.put 3 2 c).bits 3 2 = c := fun c hc =>
      (Word.put_bits v 3 2 c (by decide) (by decide)).trans (Nat.mod_eq_of_lt hc)
    refine ⟨exec_selectorSettled s, exec_emergencySwap s, ?_⟩
    intro refused keep
    refine ⟨?_, ?_⟩
    · intro side c hc w hacc
      simp only [List.mem_cons, Prod.mk.injEq, List.not_mem_nil, or_false] at hc
      have hexec : side < 2 ∧ exec c s = .next (s.write f Loc.lnLnCtl w fun s => s.lnCtlOp w) := by
        rcases hc with ⟨rfl, rfl⟩ | ⟨rfl, rfl⟩
        · exact ⟨by decide, rfl⟩
        · exact ⟨by decide, rfl⟩
      obtain ⟨hside, hexec⟩ := hexec
      rw [hexec]
      exact ⟨fun k hform => congrArg _ (write_lnCtl_malformed hacc hform),
        fun hform => congrArg _ (write_lnCtl_swap hacc side hside (hbits _ (by omega)) hform)⟩
    · intro w hacc
      have hexec : exec (.lanternReturn f v) s = .next (s.write f Loc.lnLnCtl w fun s => s.lnCtlOp w) := rfl
      rw [hexec]
      refine ⟨fun k hform => congrArg _ (write_lnCtl_malformed hacc hform), fun hform => ?_⟩
      obtain ⟨hnone, hside⟩ := write_lnCtl_return hacc (hbits 3 (by decide)) hform
      exact ⟨fun h => congrArg _ (hnone h), fun e h => congrArg _ (hside e h)⟩

end Sys2Proof.Machine
end

section
/-! PROOF. Rows of rings (R250 to R254), nominal amplitudes (R233), the thermal map (R257). -/

namespace Sys2Proof.Machine

/-- The amplitudes that a side's links show, recorded over those of before (R233). -/
def anomAfter (side : Nat) (amps : List (Fin 48 × Fin 48 × Fin 4 × Nat)) (t : Tab Nat) : Tab Nat :=
  amps.foldl (fun t a => if stSide a.1 = side then tset 0 t (linkKey a.1 a.2.1 a.2.2.1) a.2.2.2 else t) t

/-- Amplitudes recorded leave those of every other link. -/
theorem anomAfter_other (side key : Nat) (amps : List (Fin 48 × Fin 48 × Fin 4 × Nat)) (t : Tab Nat)
    (ht : twf (fun _ => 0) t = true)
    (hother : ∀ a ∈ amps, stSide a.1 = side → linkKey a.1 a.2.1 a.2.2.1 ≠ key) :
    tget 0 (anomAfter side amps t) key = tget 0 t key := by
  induction amps generalizing t with
  | nil => rfl
  | cons a amps ih =>
    have hrest := fun b hb => hother b (List.mem_cons_of_mem a hb)
    have hstep : anomAfter side (a :: amps) t = anomAfter side amps
      (if stSide a.1 = side then tset 0 t (linkKey a.1 a.2.1 a.2.2.1) a.2.2.2 else t) := rfl
    rw [hstep]
    by_cases hside : stSide a.1 = side
    · rw [if_pos hside, ih _ (tset_twf (fun _ => 0) _ _ t ht) hrest]
      exact tget_tset_other (fun _ => 0) _ key 0 _ t ht (hother a List.mem_cons_self hside).symm
    · rw [if_neg hside, ih t ht hrest]

/-- A flag set to false at a place reads false there. -/
theorem lget_set_false (l : List Bool) (n : Nat) : lget false (l.set n false) n = false := by
  unfold lget
  by_cases hn : n < l.length
  · simp [hn]
  · simp [Nat.not_lt.mp hn]

/-- A state that differs in the register file and in the record of the optics only. -/
theorem frame_of_rf_optics (s : State) (r : Tab Word) (o : Optics) :
    Frame [.regs, .optics] s { s with rf := r, optics := o } := by
  intro p _ hp
  cases p
  case regs => simp at hp
  case optics => simp at hp
  all_goals simp only [Piece.same, State.memByte, implies_true, and_self]

/-- A state that differs in the record of the optics only. -/
theorem frame_of_optics (s : State) (o : Optics) : Frame [.optics] s { s with optics := o } := by
  intro p _ hp
  cases p
  case optics => simp at hp
  all_goals simp only [Piece.same, State.memByte, State.get, implies_true, and_self]

/-- The nominal amplitudes of a side are recorded when they are due. -/
theorem exec_anomRecord (s : State) (e : Side) (amps : List (Fin 48 × Fin 48 × Fin 4 × Nat)) :
    (lget false s.optics.anomDue (sideNat e) = false → exec (.anomRecord e amps) s = .next s) ∧
    (lget false s.optics.anomDue (sideNat e) = true → exec (.anomRecord e amps) s = .next
      (s.modOptics fun o => { o with
        anomDue := o.anomDue.set (sideNat e) false, anom := anomAfter (sideNat e) amps o.anom })) := by
  have hexec : exec (.anomRecord e amps) s = execAnomRecord e amps s := rfl
  unfold execAnomRecord at hexec
  rw [hexec]
  refine ⟨fun hdue => ?_, fun hdue => ?_⟩ <;> dsimp only <;> rw [hdue] <;> rfl

/-- The next row of the rotation falls due: it is taken, or skipped when its station has trouble (R252). -/
theorem exec_rotationRowStart (s : State) (hholder : s.holder ≠ none) (hen : s.flag (Loc.plCalCtl 0) 8 = true)
    (hfree : ∀ w ∈ s.optics.sweeps, w.rescue = true) (t : State)
    (ht : s.waitUntil (s.optics.rotAt + s.fld (Loc.plCalCtl 0) 7 0 * 100000000 / 184) = some t) (u : State)
    (hu : ((t.modOptics fun o => { o with rotAt := t.clk.elapsed }).setFld (Loc.plCalSts 0) 7 0
      ((t.fld (Loc.plCalSts 0) 7 0 + 1) % 184)).setFld (Loc.plCalSts 1) 7 0 ((t.fld (Loc.plCalSts 0) 7 0 + 1) % 184) = u) :
    exec .rotationRowStart s = .next (if u.rowTrouble (rotRow (t.fld (Loc.plCalSts 0) 7 0)).1 = true then
        u.calSkip (rotRow (t.fld (Loc.plCalSts 0) 7 0)).1
      else u.modOptics fun o => { o with sweeps := o.sweeps ++
        [({ st := (rotRow (t.fld (Loc.plCalSts 0) 7 0)).1, plane := (rotRow (t.fld (Loc.plCalSts 0) 7 0)).2 } : Sweeping)] }) := by
  subst hu
  have hbusy : (s.optics.sweeps.any fun w => !w.rescue) = false := by simpa using hfree
  have hnone : s.holder.isNone = false := Option.isNone_eq_false_iff.mpr (Option.ne_none_iff_isSome.mp hholder)
  have hexec : exec .rotationRowStart s = execRotationRowStart s := rfl
  unfold execRotationRowStart at hexec
  rw [if_neg (by rw [hbusy, hnone, hen]; decide), ht] at hexec
  rw [hexec, apply_ite Host.Outcome.next]

/-- No row that is to empty: neither its emptying nor its time has an effect. -/
theorem exec_recal_idle (s : State) (st : Fin 48) (p : Fin 4) (hnone : s.sweepOf st p 1 = none) :
    exec (.recalBuffersEmpty st p) s = .next s ∧ exec (.recalAbandon st p) s = .next s := by
  refine ⟨?_, ?_⟩
  · change execRecalBuffersEmpty st p s = _
    unfold execRecalBuffersEmpty
    rw [hnone]
  · change execRecalAbandon st p s = _
    unfold execRecalAbandon
    rw [hnone]

/-- A row whose buffers are empty in time goes to the sextant, and is not given up (R250, R251). -/
theorem exec_recal_empty (s : State) (st : Fin 48) (p : Fin 4) (w : Sweeping) (hw : s.sweepOf st p 1 = some w)
    (hempty : s.emptied w = true) :
    exec (.recalAbandon st p) s = .next s ∧ exec (.recalBuffersEmpty st p) s = .next ((s.setSweep w 2).sendProbe st p) := by
  refine ⟨?_, ?_⟩
  · change execRecalAbandon st p s = _
    unfold execRecalAbandon
    simp only [hw, hempty, if_true]
  · change execRecalBuffersEmpty st p s = _
    unfold execRecalBuffersEmpty
    simp only [hw, hempty, if_true]

/-- A row whose buffers are not empty stays, and is given up when 20 µs have passed (R251). -/
theorem exec_recal_busy (s : State) (st : Fin 48) (p : Fin 4) (w : Sweeping) (hw : s.sweepOf st p 1 = some w)
    (hbusy : s.emptied w = false) :
    exec (.recalBuffersEmpty st p) s = .next s ∧
    (s.reaches (w.since + 20000) →
      exec (.recalAbandon st p) s = .next (((s.atTime (w.since + 20000)).setSweep w 3).calSkip st)) := by
  refine ⟨?_, fun hreach => ?_⟩
  · change execRecalBuffersEmpty st p s = _
    unfold execRecalBuffersEmpty
    simp only [hw, hbusy, Bool.false_eq_true, if_false]
  · change execRecalAbandon st p s = _
    unfold execRecalAbandon
    simp only [hw, hbusy, Bool.false_eq_true, if_false, waitUntil_reaches s _ hreach]

/-- A sweep ends once the links of its side are no longer held. -/
theorem exec_sweepDone (s : State) (st : Fin 48) (p : Fin 4) (r : Sweep) :
    (s.sweepOf st p 2 = none → exec (.sweepDone st p r) s = .next s) ∧
    (∀ w, s.sweepOf st p 2 = some w →
      let at_ := lget 0 s.optics.hold (stSide st)
      let u := ((s.atTime at_).sweptRow st p false r.tx).sweptRow st p true r.rx
      s.reaches at_ →
      exec (.sweepDone st p r) s = .next ((((u.calEvent 3 st).trainRow st p r.linksUp).setSweep w 3).settleAll)) := by
  have hexec : exec (.sweepDone st p r) s = execSweepDone st p r s := rfl
  unfold execSweepDone at hexec
  rw [hexec]
  refine ⟨fun hnone => by rw [hnone], ?_⟩
  intro w hw at_ u hreach
  rw [hw, waitUntil_reaches s _ hreach]

/-- RECAL with GO: a recalibration of the selected row is wanted, unless the row is masked for a sweep or in one (R253). -/
theorem exec_recalGo (s : State) (f : Func) (e : Side) (v : Word)
    (hacc : s.accepts f (Loc.plRecal (sideNat e)) (v.put 0 0 1)) :
    let w := v.put 0 0 1
    let loc := Loc.plRecal (sideNat e)
    let refused := fun k => s.reject f (loc / 4096) (loc % 4096) k
    let sel := s.get (Loc.plRowSel (sideNat e))
    let st := if sideNat e = 0 then sel.bits 4 0 else 47 - sel.bits 4 0
    let p := sel.bits 9 8
    (∀ k, formCheck (locFields loc) w = some k → exec (.recalGo f e v) s = .next (refused k)) ∧
    (wellFormedFor loc w → exec (.recalGo f e v) s = .next
      (if (s.optics.sweeps.any fun x => x.st == st && x.plane == p && (x.phase == 1 || x.phase == 2)) = true then refused 6
      else (s.wantRescue st p).managed)) := by
  intro w loc refused sel st p
  have hexec : exec (.recalGo f e v) s = .next (s.settle f loc (s.recalOp (sideNat e) w)) :=
    congrArg _ (write_accepted hacc _)
  have hgo : w.bit 0 = true := Word.put_bit_one v 0 (by decide)
  rw [hexec]
  unfold State.recalOp wellFormedFor
  refine ⟨fun k hform => by simp only [loc] at hform; rw [hform]; rfl, fun hform => ?_⟩
  simp only [loc] at hform
  simp only [hform, hgo, Bool.not_true, Bool.false_eq_true, if_false, settle_ite, settle_ok, settle_error]
  rfl

/-- A run of registers written changes the register file only. -/
theorem foldl_put_eq (s : State) (ws : List Nat) (loc : Nat → Loc) (val : Nat → Word) :
    ∃ r, ws.foldl (fun t w => State.put t (loc w) (val w)) s = { s with rf := r } := by
  induction ws generalizing s with
  | nil => exact ⟨s.rf, rfl⟩
  | cons w ws ih =>
    obtain ⟨r, hr⟩ := ih (s.put (loc w) (val w))
    exact ⟨r, hr⟩

/-- The map of a plinth changes its registers only. -/
theorem publishMap_eq (s : State) (e : Nat) : ∃ r, s.publishMap e = { s with rf := r } := by
  unfold State.publishMap
  dsimp only
  obtain ⟨r, hr⟩ := foldl_put_eq s (List.range 96) (Loc.plTmap e) _
  rw [hr]
  exact ⟨_, rfl⟩

/-- The record of a row when its sum starts anew (R257). -/
def Row.sumAnew (r : Row) : Row := { r with sum := 0, gap := false }

/-- The sums of the rows start anew. -/
def rowsAnew (rows : Tab Row) : Tab Row :=
  rows.filterMap fun e => if e.2.sumAnew = {} then none else some (e.1, e.2.sumAnew)

/-- A row that stays listed has its sum anew. -/
theorem rowsAnew_sum (rows : Tab Row) : ∀ e ∈ rowsAnew rows, e.2.sum = 0 ∧ e.2.gap = false := by
  intro e he
  obtain ⟨a, _, ha⟩ := List.mem_filterMap.mp he
  by_cases hnone : a.2.sumAnew = {}
  · rw [if_pos hnone] at ha
    cases ha
  · rw [if_neg hnone] at ha
    cases ha
    exact ⟨rfl, rfl⟩

/-- The thermal map is published when it is due. -/
theorem exec_thermalMapPublish (s : State) :
    (s.optics.mapDue = false → exec .thermalMapPublish s = .next s) ∧
    (s.optics.mapDue = true → exec .thermalMapPublish s = .next
      (((s.publishMap 0).publishMap 1).modOptics fun o => { o with mapDue := false, rows := rowsAnew o.rows })) := by
  have hexec : exec .thermalMapPublish s = execThermalMapPublish s := rfl
  unfold execThermalMapPublish at hexec
  rw [hexec]
  exact ⟨fun hdue => if_pos (by rw [hdue]; rfl), fun hdue => if_neg (by rw [hdue]; decide)⟩

/-- Settles O27: one lemma for each command; what stays is what the record of amplitudes and the maps do not write. -/
theorem rowsAndAmplitudesAreFollowed : Obligations.RowsAndAmplitudesAreFollowed := by
  unfold Obligations.RowsAndAmplitudesAreFollowed
  refine ⟨?_, ?_, ?_⟩
  · intro s e amps
    obtain ⟨hidle, hdue⟩ := exec_anomRecord s e amps
    refine ⟨hidle, ?_⟩
    intro h t
    exact ⟨hdue h, frame_of_optics s _, lget_set_false _ _, fun key hother ht => anomAfter_other _ key amps _ ht hother⟩
  · intro s
    refine ⟨?_, ?_, exec_sweepDone s, exec_recalGo s⟩
    · intro hholder hen hfree at_ t pos r u hreach
      exact exec_rotationRowStart s hholder hen hfree t (waitUntil_reaches s _ hreach) u rfl
    · intro st p
      refine ⟨exec_recal_idle s st p, ?_⟩
      intro w hw empty x t q u
      exact ⟨exec_recal_empty s st p w hw, exec_recal_busy s st p w hw⟩
  · intro s
    obtain ⟨hidle, hdue⟩ := exec_thermalMapPublish s
    refine ⟨hidle, ?_⟩
    intro h t
    obtain ⟨r₀, hr₀⟩ := publishMap_eq s 0
    obtain ⟨r₁, hr₁⟩ := publishMap_eq { s with rf := r₀ } 1
    have ht : t = { s with rf := r₁, optics := { s.optics with mapDue := false, rows := rowsAnew s.optics.rows } } := by
      have hmaps : (s.publishMap 0).publishMap 1 = { s with rf := r₁ } := by rw [hr₀, hr₁]
      simp only [t, hmaps]
      rfl
    refine ⟨hdue h, by rw [ht], fun e he => ?_, by rw [ht]; exact frame_of_rf_optics s _ _⟩
    rw [ht] at he
    exact rowsAnew_sum _ e he

end Sys2Proof.Machine
end

section
/-! PROOF. How a fabric port comes up (R264 to R268, R272, R273): light, code words, training flits. -/

namespace Sys2Proof.Machine

/-- A port that sees light on a whole fibre begins to train when it is off and enabled. -/
theorem exec_lightDetect (s : State) (port : Fin 32) :
    let ready := s.portLive port && !s.portCut port && decide (s.portState port = 0) && decide (s.portCtl port 0 0 ≠ 0)
    (ready = false → exec (.lightDetect port) s = .next s) ∧
    (ready = true → exec (.lightDetect port) s = .next
      (((s.setFld (Loc.ocPortSts (port / 16)) 10 3 0xFF (port % 16)).setPortState port 1).modPort port fun x =>
        { x with train := { since := s.clk.elapsed } })) := by
  intro ready
  have hready : ready = true ↔
      ¬ (s.portState port ≠ 0 ∨ s.portCtl port 0 0 = 0 ∨ !s.portLive port ∨ s.portCut port) := by
    simp only [ready, Bool.and_eq_true, decide_eq_true_eq, Bool.not_eq_true', not_or, Bool.not_eq_true, Bool.not_eq_false,
      not_not, ne_eq]
    exact ⟨fun ⟨⟨⟨hlive, hwhole⟩, hoff⟩, hen⟩ => ⟨hoff, hen, hlive, hwhole⟩,
      fun ⟨hoff, hen, hlive, hwhole⟩ => ⟨⟨⟨hlive, hwhole⟩, hoff⟩, hen⟩⟩
  exact ⟨fun hno => if_pos (not_not.mp (mt hready.mpr (Bool.eq_false_iff.mp hno))), fun hyes => if_neg (hready.mp hyes)⟩

/-- Code words come to a port without lock, or to one with lock. -/
theorem exec_codewordLock (s : State) (port : Fin 32) (words : List (BitVec 5440)) :
    let t := (s.wordsIn port words).settleAll
    exec (.codewordLockGain { port := port, words := words }) s = .next (if (s.port port).locked = true then s else t) ∧
    exec (.codewordLockLoss { port := port, words := words }) s = .next (if (s.port port).locked = true then t else s) := by
  have hgain : exec (.codewordLockGain { port := port, words := words }) s =
      execCodewordLockGain { port := port, words := words } s := rfl
  have hloss : exec (.codewordLockLoss { port := port, words := words }) s =
      execCodewordLockLoss { port := port, words := words } s := rfl
  unfold execCodewordLockGain at hgain
  unfold execCodewordLockLoss at hloss
  rw [hgain, hloss]
  cases (s.port port).locked <;>
    simp only [Bool.not_false, Bool.not_true, Bool.false_eq_true, if_true, if_false, and_self]

/-- A code word brings nothing to a deaf port; another gains or loses lock, or its flits are taken (R264 to R268). -/
theorem wordIn_cases (s : State) (port : Nat) (w : BitVec 5440) (h : Port × Option Nat × List FUnit)
    (hh : (s.port port).hear (s.portState port ≠ 4) w.toNat = h) (u : State)
    (hu : (s.modPort port fun _ => h.1).wordCount port h.2.1 = u) :
    let deaf := s.portState port = 0 ∨ s.portState port = 5 ∨ s.portLive port = false ∨ s.portCut port = true
    (deaf → s.wordIn port w = s) ∧
    (¬ deaf → (s.port port).locked = false → s.wordIn port w = if h.1.okRun < 4 then u else u.lockGained port) ∧
    (¬ deaf → (s.port port).locked = true →
      s.wordIn port w = if h.1.badRun < 8 then h.2.2.foldl (fun s x => s.unitIn port x) u else u.lockLost port) := by
  subst hu hh
  unfold State.wordIn
  simp only [Bool.not_eq_true']
  refine ⟨fun hdeaf => if_pos hdeaf, fun hdeaf hlock => ?_, fun hdeaf hlock => ?_⟩ <;> rw [if_neg hdeaf]
  · simp only [hlock, Bool.false_eq_true, if_false, ← Nat.not_lt, ite_not]
  · simp only [hlock, if_true, ← Nat.not_lt, ite_not]

/-- A port that is off, up, failed or not enabled does not train again. -/
theorem exec_portTrainRetry_idle (s : State) (port : Fin 32)
    (h : s.portState port = 0 ∨ 4 ≤ s.portState port ∨ s.portCtl port 0 0 = 0) :
    exec (.portTrainRetry port) s = .next s := if_pos h

/-- Training that has taken 1 s fails. -/
theorem exec_portTrainRetry_fails (s : State) (port : Fin 32)
    (htrains : ¬ (s.portState port = 0 ∨ 4 ≤ s.portState port ∨ s.portCtl port 0 0 = 0))
    (hgoing : (s.port port).train.failed = none) (hreach : s.reaches ((s.port port).train.since + 1000000000)) :
    exec (.portTrainRetry port) s = .next ((s.atTime ((s.port port).train.since + 1000000000)).trainFails port) := by
  change execPortTrainRetry port s = _
  unfold execPortTrainRetry
  dsimp only
  rw [if_neg htrains, hgoing]
  dsimp only
  rw [waitUntil_reaches s _ hreach]

/-- Failed training begins again 100 ms later. -/
theorem exec_portTrainRetry_again (s : State) (port : Fin 32)
    (htrains : ¬ (s.portState port = 0 ∨ 4 ≤ s.portState port ∨ s.portCtl port 0 0 = 0)) (t0 : Nat)
    (hfailed : (s.port port).train.failed = some t0) (hreach : s.reaches (t0 + 100000000)) :
    exec (.portTrainRetry port) s = .next ((s.atTime (t0 + 100000000)).portDown port
      (if ((s.atTime (t0 + 100000000)).port port).locked = true then 2 else 1)) := by
  change execPortTrainRetry port s = _
  unfold execPortTrainRetry
  dsimp only
  rw [if_neg htrains, hfailed]
  dsimp only
  rw [waitUntil_reaches s _ hreach]

/-- A unit at a port in training: a whole training flit is read, and anything else ends the run. -/
theorem unitIn_training (s : State) (port : Nat) (x : FUnit) (htrain : s.portState port ≠ 4) :
    s.unitIn port x = if x.spoiled = false ∧ x.v % 4 = 2 ∧ (readFabric x.v 1).good = true then s.trainFlit port (trainOf x.v)
      else s.modPort port fun y => { y with train := { y.train with run := 0 } } := by
  unfold State.unitIn
  simp only [htrain, if_false, Bool.and_eq_true, Bool.not_eq_true', beq_iff_eq, and_assoc]

/-- A training flit without ACK begins the run anew. -/
theorem heard_noAck (x : Train) (f : TrainFlit) (rt now : Nat) (hack : f.ack = false) :
    x.heard f rt now = { since := x.since, last := some (steady f), acked := some (x.acked.getD now) } := by
  unfold Train.heard
  simp only [hack, Bool.not_false, if_true]

/-- A training flit with ACK lengthens the run when its contents are those of the last. -/
theorem heard_ack (x : Train) (f : TrainFlit) (rt now : Nat) (hack : f.ack = true) :
    let same := decide (x.last = none ∨ x.last = some (steady f))
    x.heard f rt now = { x with
      run := if same = true then x.run + 1 else 1, rtt := if same = true then x.rtt + rt else rt
      last := some (steady f), acked := some (x.acked.getD now) } := by
  intro same
  have hsame : same = match x.last with | some l => l == steady f | none => true := by
    simp only [same]
    cases x.last with
    | none => simp
    | some l =>
      simp only [reduceCtorEq, Option.some.injEq, false_or]
      exact (beq_eq_decide l (steady f)).symm
  rw [hsame]
  unfold Train.heard
  simp only [hack, Bool.not_true, Bool.false_eq_true, if_false] <;> rfl

/-- A training flit, from the run that it gives: the sixteenth of a run ends the training, or brings the link up (R273). -/
theorem trainFlit_cases (s : State) (port : Nat) (f : TrainFlit) (u : State) (hu : s.setPortState port 3 = u) (run : Train)
    (hrun : (u.port port).train.heard f ((u.clk.count + 2 ^ 33 - f.echoTime.toNat - f.holdNs.toNat) % 2 ^ 32) u.clk.elapsed = run)
    (v : State) (hv : (u.modPort port fun y => { y with train := run }) = v) :
    ((s.port port).train.failed ≠ none → s.trainFlit port f = s) ∧
    ((s.port port).train.failed = none →
      (run.run < 16 → s.trainFlit port f = v) ∧
      (16 ≤ run.run → 10000 < run.rtt / run.run → s.trainFlit port f = v.trainFails port) ∧
      (16 ≤ run.run → run.rtt / run.run ≤ 10000 → v.reaches (run.acked.getD 0 + 11) →
        s.trainFlit port f = (v.atTime (run.acked.getD 0 + 11)).linkUp port (run.rtt / run.run) f)) := by
  subst hv hrun hu
  unfold State.trainFlit
  refine ⟨fun hfailed => if_pos (Option.ne_none_iff_isSome.mp hfailed), fun hgoing => ?_⟩
  rw [if_neg (by simp [hgoing])]
  dsimp only
  refine ⟨fun hshort => if_pos hshort, fun hlong hslow => ?_, fun hlong hquick hreach => ?_⟩ <;>
    rw [if_neg (Nat.not_lt.mpr hlong)]
  · exact if_pos hslow
  · rw [if_neg (Nat.not_lt.mpr hquick), waitUntil_reaches _ _ hreach]

/-- Settles O28: how a code word, a unit and a training flit come in are lemmas about the operation; the commands follow. -/
theorem portsComeUp : Obligations.PortsComeUp := by
  unfold Obligations.PortsComeUp
  refine ⟨?_, ?_⟩
  · intro s port
    refine ⟨exec_lightDetect s port, exec_codewordLock s port, ?_, ?_⟩
    · intro w h u deaf
      obtain ⟨hdeaf, hgain, hloss⟩ := wordIn_cases s port w h rfl u rfl
      exact ⟨hdeaf, hgain, hloss⟩
    · intro trains again
      have hnot : trains → ¬ (s.portState port = 0 ∨ 4 ≤ s.portState port ∨ s.portCtl port 0 0 = 0) := by
        rintro ⟨hstate, hen⟩ hidle
        omega
      exact ⟨exec_portTrainRetry_idle s port, fun htrains hgoing hreach =>
          exec_portTrainRetry_fails s port (hnot htrains) hgoing hreach,
        fun htrains t0 hfailed hreach => exec_portTrainRetry_again s port (hnot htrains) t0 hfailed hreach⟩
  · intro s port
    refine ⟨fun h2 h3 words => if_neg (not_or.mpr ⟨h2, h3⟩), fun htrain => ⟨fun words => if_pos htrain,
      fun x => unitIn_training s port x (by omega), ?_⟩⟩
    intro f u x rt same acked run rtt v at_
    refine ⟨(trainFlit_cases s port f u rfl _ rfl _ rfl).1, fun hgoing => ⟨fun hack => ?_, fun hack => ?_⟩⟩
    · exact ((trainFlit_cases s port f u rfl _ (heard_noAck x f rt _ hack) _ rfl).2 hgoing).1 (show (0 : Nat) < 16 by decide)
    · exact (trainFlit_cases s port f u rfl _ (heard_ack x f rt _ hack) v rfl).2 hgoing

end Sys2Proof.Machine
end

section
/-! PROOF. Fabric links (R209, R269 to R274): bundles are taken or discarded, resent, and a port fails. -/

namespace Sys2Proof.Machine

/-- Bundles and idle flits come to a port that is up. -/
theorem exec_fabricWords (s : State) (port : Fin 32) (words : List (BitVec 5440)) :
    let t := if s.portState port = 4 then (s.wordsIn port words).settleAll else s
    exec (.fabricBundleReceive port words) s = .next t ∧ exec (.fabricIdleFlit port words) s = .next t := by
  intro t
  have hbundle : exec (.fabricBundleReceive port words) s =
      if s.portState port = 4 then .next ((s.wordsIn port words).settleAll) else .next s := rfl
  have hidle : exec (.fabricIdleFlit port words) s =
      if s.portState port ≠ 4 then .next s else .next ((s.wordsIn port words).settleAll) := rfl
  rw [hbundle, hidle, ite_not]
  exact ⟨(apply_ite _ _ _ _).symm, (apply_ite _ _ _ _).symm⟩

/-- A bundle is broken, trains, brings its link word alone, or is delivered, discarded or asked for again (R209, R271, R274). -/
theorem takeFabric_cases (s : State) (p : Nat) (b : FBundle) (u : State) (hu : s.linkWord p b = u) :
    let broken := !b.good || b.kind == 3 || (b.kind == 1 && b.pkts.isEmpty)
    let x := u.port p
    (broken = true → s.takeFabric p b =
      ((((s.addWrap (Loc.ocPortCrc (p / 16)) 31 0 1 (p % 16)).ocEvent (p / 16) 5 (p % 16) 1).badFabric p).discardBundle p b)) ∧
    (broken = false →
      (b.kind = 2 → s.takeFabric p b = s) ∧ (b.kind = 0 → s.takeFabric p b = u) ∧
      (b.kind = 1 → s.takeFabric p b =
        if b.seq = x.expect then
          (b.pkts.foldl (fun s k => s.arrive p b.sh k) (u.modPort p fun x =>
            { x with expect := (x.expect + 1) % 4096, any := true, skip := false, nak := false })).freeFlits p
              (if b.sh = true then 11 else pktPool (b.pkts.headD {})) 1
        else if x.skip = true then u.discardBundle p b
        else if 1 ≤ seqDist x.expect b.seq ∧ seqDist x.expect b.seq ≤ 2048 then
          (u.modPort p fun x => { x with nak := false }).discardBundle p b
        else (u.modPort p fun x => { x with nak := true }).discardBundle p b)) := by
  subst hu
  intro broken x
  unfold State.takeFabric
  refine ⟨fun hbad => if_pos hbad, fun hgood => ?_⟩
  dsimp only
  rw [if_neg (Bool.eq_false_iff.mp hgood)]
  refine ⟨fun hkind => if_pos hkind, fun hkind => ?_, fun hkind => ?_⟩ <;> rw [if_neg (by omega)]
  · exact if_pos hkind
  · exact if_neg (by omega)

/-- Without progress for RETRY_TMO a port that is up sends its bundles again. -/
theorem exec_fabricRetryTimeout (s : State) (port : Fin 32) :
    ((s.portState port ≠ 4 ∨ (s.port port).retry = []) → exec (.fabricRetryTimeout port) s = .next s) ∧
    (s.portState port = 4 → (s.port port).retry ≠ [] →
      let at_ := (s.port port).ackAt + 100 * s.portCtl port 28 21
      s.reaches at_ → exec (.fabricRetryTimeout port) s =
        .next (((s.atTime at_).resendAll port).pump port).settleAll) := by
  have hexec : exec (.fabricRetryTimeout port) s = execFabricRetryTimeout port s := rfl
  unfold execFabricRetryTimeout at hexec
  simp only [List.isEmpty_iff] at hexec
  rw [hexec]
  refine ⟨fun hidle => if_pos hidle, ?_⟩
  intro hup hwaits at_ hreach
  rw [if_neg (not_or.mpr ⟨not_not.mpr hup, hwaits⟩), waitUntil_reaches s _ hreach]

/-- The bundles of a port are due again; RETRY_MAX such times with lock fail it (R274). -/
theorem resendAll_waiting (s : State) (p : Nat) (hwaits : (s.port p).retry ≠ []) :
    let x := s.port p
    let t := s.modPort p fun y =>
      { y with again := y.retry, ackAt := s.clk.elapsed, resent := if x.locked = true then y.resent + 1 else y.resent }
    s.resendAll p = if x.locked = true ∧ x.resent + 1 ≥ t.portCtl p 20 16 then t.failPort p 1 else t := by
  unfold State.resendAll
  exact if_neg (by simpa using hwaits)

/-- A choice made by what an optional number meets, where there is one. -/
theorem ite_match_any {α : Type} (o : Option Nat) (meets : Nat → Bool) (a b : α) :
    (if (match o with | some r => meets r | none => false) = true then a else b) = if o.any meets = true then a else b := by
  cases o <;> rfl

/-- What a window of so many corrected symbols asks for (R269). -/
theorem errorRate_cases (u : State) (p n : Nat) (v : State)
    (hv : (if n ≥ 8500 ∧ (!(u.port p).crossed) = true then u.post (ocPage (p / 16) 1) 0 0x80 (p % 16) n else u) = v) (w : State)
    (hw : (v.modPort p fun x => { x with crossed := decide (n ≥ 8500) }) = w) :
    let soon := fun r : Nat => decide (w.clk.elapsed < r + 1000000000)
    (n < 85000 ∨ w.portState p ≠ 4 → u.errorRate p n = w) ∧
    (85000 ≤ n → w.portState p = 4 →
      ((w.port p).retrained.any soon = false → u.errorRate p n =
        ((w.portDown p 3).showPorts (p / 16)).modPort p fun x => { x with retrained := some w.clk.elapsed }) ∧
      ((w.port p).retrained.any soon = true → u.errorRate p n =
        (w.modPort p fun x => { x with tooMany := true }).failPort p 2)) := by
  unfold State.errorRate
  dsimp only
  rw [hv, hw]
  refine ⟨fun hfew => if_pos hfew, fun hmany hup => ?_⟩
  rw [if_neg (by omega)]
  have hchoice := ite_match_any (w.port p).retrained (fun r => decide (w.clk.elapsed < r + 1000000000))
    ((w.modPort p fun x => { x with tooMany := true }).failPort p 2)
    (((w.portDown p 3).showPorts (p / 16)).modPort p fun x => { x with retrained := some w.clk.elapsed })
  exact ⟨fun h => hchoice.trans (if_neg (Bool.eq_false_iff.mp h)), fun h => hchoice.trans (if_pos h)⟩

/-- A window of corrected symbols ends. -/
theorem exec_symbolErrorWindow (s : State) (port : Fin 32) (words : List (BitVec 5440)) (t : State)
    (ht : s.waitUntil ((s.port port).winAt + 1000000) = some t) (w : State) (hw : t.wordsIn port words = w) :
    exec (.symbolErrorWindow port words) s = .next
      (((w.modPort port fun x => { x with syms := 0, winAt := w.clk.elapsed }).errorRate port (w.port port).syms).settleAll) := by
  subst hw
  change execSymbolErrorWindow port words s = _
  unfold execSymbolErrorWindow
  rw [ht]

/-- A port that is not up does not fail. -/
theorem exec_portFail_down (s : State) (port : Fin 32) (hdown : s.portState port ≠ 4) (cause : Fin 3) :
    exec (.portFail port cause) s = .next s := if_pos hdown

/-- A port that is up fails without lock for longer than LOCK_LOSS_US. -/
theorem exec_portFail_lock (s : State) (port : Fin 32) (hup : s.portState port = 4) :
    ((s.port port).locked = true → exec (.portFail port 0) s = .next s) ∧
    ((s.port port).locked = false →
      let at_ := (s.port port).lostAt + 1000 * s.portCtl port 15 8 + 1
      s.reaches at_ → exec (.portFail port 0) s = .next ((s.atTime at_).failPort port 0).settleAll) := by
  have hexec : exec (.portFail port 0) s = execPortFail port 0 s := rfl
  unfold execPortFail at hexec
  rw [hexec]
  dsimp only
  rw [if_neg (not_not.mpr hup), if_pos (show ((0 : Fin 3) : Nat) = 0 from rfl)]
  refine ⟨fun hlocked => if_pos hlocked, fun hlost hreach => ?_⟩
  rw [if_neg (Bool.eq_false_iff.mp hlost), waitUntil_reaches s _ hreach]

/-- A port that is up fails for RETRY_MAX resends in a row, and for its error rate. -/
theorem exec_portFail_counted (s : State) (port : Fin 32) (hup : s.portState port = 4) :
    exec (.portFail port 1) s = .next
      (if (s.port port).resent < s.portCtl port 20 16 then s else (s.failPort port 1).settleAll) ∧
    exec (.portFail port 2) s = .next (if (s.port port).tooMany = true then (s.failPort port 2).settleAll else s) := by
  have hexec : ∀ cause, exec (.portFail port cause) s = execPortFail port cause s := fun _ => rfl
  unfold execPortFail at hexec
  refine ⟨(hexec 1).trans ?_, (hexec 2).trans ?_⟩ <;> dsimp only <;> rw [if_neg (not_not.mpr hup)]
  · rw [if_neg (show ¬ ((1 : Fin 3) : Nat) = 0 by decide), if_pos (show ((1 : Fin 3) : Nat) = 1 from rfl)]
    exact (apply_ite _ _ _ _).symm
  · rw [if_neg (show ¬ ((2 : Fin 3) : Nat) = 0 by decide), if_neg (show ¬ ((2 : Fin 3) : Nat) = 1 by decide)]
    exact (apply_ite _ _ _ _).symm

/-- Settles O29: how a bundle is taken, bundles resent and a window judged are lemmas about the operation; the commands
follow. -/
theorem fabricLinksMoveAndFail : Obligations.FabricLinksMoveAndFail := by
  unfold Obligations.FabricLinksMoveAndFail
  refine ⟨?_, ?_⟩
  · intro s port
    obtain ⟨hidle, htimeout⟩ := exec_fabricRetryTimeout s port
    refine ⟨exec_fabricWords s port, ?_, hidle, htimeout, resendAll_waiting s port⟩
    intro b e i drop broken w w' u x
    exact takeFabric_cases s port b u rfl
  · intro s port
    refine ⟨?_, exec_portFail_down s port, fun hup => ?_⟩
    · intro words at_ t n e u v w soon anew hreach
      have hexec := exec_symbolErrorWindow s port words _ (waitUntil_reaches s _ hreach) t rfl
      have hpost : (if n ≥ 8500 ∧ (!(u.port port).crossed) = true then u.post (ocPage e 1) 0 0x80 (port % 16) n else u) = v :=
        if_congr (and_congr_right' (by rw [Bool.not_eq_true'])) rfl rfl
      obtain ⟨hfew, hmany⟩ := errorRate_cases u port n v hpost w rfl
      rw [hexec]
      refine ⟨fun h => ?_, fun hn hup => ⟨fun h => ?_, fun h => ?_⟩⟩ <;>
        change Host.Outcome.next (u.errorRate port n).settleAll = _
      · rw [hfew h]
      · rw [(hmany hn hup).1 h]
      · rw [(hmany hn hup).2 h]
    · obtain ⟨hlocked, hlost⟩ := exec_portFail_lock s port hup
      obtain ⟨hresent, hrate⟩ := exec_portFail_counted s port hup
      exact ⟨hlocked, hlost, hresent, hrate⟩

end Sys2Proof.Machine
end

section
/-! PROOF. A failed port asks what was delivered (R291); load maps travel (R297, R416). -/

namespace Sys2Proof.Machine

/-- The port whose link a query is about: its partner and the partner's port, as the training flits told. -/
def State.queryPort (s : State) (k : Pkt) : Option Nat :=
  (List.range 32).find? fun p =>
    let w := s.get (Loc.ocPortPeer (p / 16)) (p % 16)
    w.bits 15 0 == k.srcDev.toNat && w.bits 20 16 == k.opt.toNat % 32 && w != 0

/-- A query is answered with the last number delivered on the link, and dropped for a link to no port of the sender. -/
theorem exec_flinkQuery (s : State) (k : Pkt) :
    let u := s.takeHeld k
    (u.queryPort k = none → exec (.flinkQuery k) s = .next u) ∧
    (∀ p, u.queryPort k = some p →
      let last := if (u.port p).any = true then ((u.port p).expect + 4095) % 4096 else 4095
      exec (.flinkQuery k) s = .next ((u.sendOrDrop (s.heldAt k)
        { op := 0x2C, dstDev := k.srcDev, srcDev := BitVec.ofNat 16 u.ownDev, seq := k.seq
          opt := BitVec.ofNat 24 (k.opt.toNat % 32 + last * 32) }).settleAll)) := by
  intro u
  have hexec : exec (.flinkQuery k) s = execFlinkQuery k s := rfl
  unfold execFlinkQuery at hexec
  rw [hexec]
  unfold State.queryPort
  exact ⟨fun hnone => by simp only [u] at hnone; simp only [hnone]; rfl,
    fun p hp => by simp only [u] at hp; simp only [hp]; rfl⟩

/-- A reply that is awaited drops what was delivered and routes the rest afresh. -/
theorem exec_flinkReply (s : State) (k : Pkt) :
    let u := s.takeHeld k
    let p := k.opt.toNat % 32
    ((u.port p).askedAt = none → exec (.flinkReply k) s = .next u) ∧
    ((u.port p).askedAt ≠ none →
      let rest := (u.port p).asked.dropWhile fun b => decide (seqDist (bitsOf k.opt.toNat 16 5) b.seq < 2048)
      exec (.flinkReply k) s = .next
        (((rest.flatMap fun (b : Sent) => b.pkts).foldl (fun s k => s.reroute (p / 16) k)
          (u.modPort p fun x => { x with asked := [], askedAt := none })).settleAll)) :=
  ⟨fun hnone => if_pos (Option.isNone_iff_eq_none.mpr hnone),
    fun hasked => if_neg (fun h => hasked (Option.isNone_iff_eq_none.mp h))⟩

/-- Without a reply the packets of the bundles asked about are lost 200 µs later. -/
theorem exec_flinkReplyTimeout (s : State) (port : Fin 32) :
    ((s.port port).askedAt = none → exec (.flinkReplyTimeout port) s = .next s) ∧
    (∀ at_, (s.port port).askedAt = some at_ → s.reaches (at_ + 200000) →
      let t := s.atTime (at_ + 200000)
      exec (.flinkReplyTimeout port) s = .next
        ((((t.port port).asked.flatMap fun (b : Sent) => b.pkts).foldl (fun s k => s.lostPkt (port / 16) k 0x32)
          (t.modPort port fun x => { x with asked := [], askedAt := none })).settleAll)) := by
  have hexec : exec (.flinkReplyTimeout port) s = execFlinkReplyTimeout port s := rfl
  unfold execFlinkReplyTimeout at hexec
  rw [hexec]
  refine ⟨fun hnone => by simp only [hnone], ?_⟩
  intro at_ hasked hreach t
  simp only [hasked, waitUntil_reaches s _ hreach]
  rfl

/-- An oculus whose epoch has ended sends its map where it is enabled and has a destination (R297). -/
theorem sendMap_cases (s : State) (n : Nat) :
    ((s.oculus n).mapDue = none → s.sendMap n = s) ∧
    (∀ l, (s.oculus n).mapDue = some l →
      let t := s.modOculus n fun o => { o with mapDue := none }
      let dst := t.get (Loc.ocMapDst n)
      let data := (List.range 32).flatMap fun i => leBytes 8 (if i / 16 = n then l.getD (i % 16) 0 else 0)
      let k : Pkt := { op := 0x1B, dstDev := BitVec.ofNat 16 (dst.bits 15 0), srcDev := BitVec.ofNat 16 t.ownDev
                       opt := BitVec.ofNat 24 (t.get (Loc.ocMapEpoch n)).toNat, nflit := 4, data := data }
      s.sendMap n = if t.flag (Loc.ocMapCtl n) 8 = false ∨ dst.bit 16 = false then t
        else if t.isOwn (dst.bits 15 0) = true then t.modPort (16 * n) fun x => { x with held := x.held ++ [(k, 12)] }
        else (t.sealMap n k).1.forwardMap n (t.sealMap n k).2) := by
  unfold State.sendMap
  refine ⟨fun hnone => by simp only [hnone], ?_⟩
  intro l hdue t dst data k
  simp only [hdue, Bool.or_eq_true, Bool.not_eq_true']
  rfl

/-- A map that opens under the management key, or needs none, is accepted, and any other is discarded and counted. -/
theorem exec_cmap (s : State) (k : Pkt) :
    (∀ r, (s.takeHeld k).openMgmt k = some r → exec (.cmap k) s = .next r.1) ∧
    ((s.takeHeld k).openMgmt k = none →
      exec (.cmap k) s = .next (((s.takeHeld k).ocEvent (s.heldAt k) 0xB 0 1).mgmtDrop k)) := by
  have hexec : exec (.cmap k) s = execCmap k s := rfl
  unfold execCmap at hexec
  rw [hexec]
  exact ⟨fun r hopen => by simp only [hopen], fun hshut => by simp only [hshut]⟩

/-- Settles O30: one lemma for each command; the maps of both oculi by `sendMap_cases`. -/
theorem failedPortsAndMaps : Obligations.FailedPortsAndMaps := by
  unfold Obligations.FailedPortsAndMaps
  refine ⟨?_, ?_⟩
  · exact fun s => ⟨exec_flinkQuery s, exec_flinkReply s, exec_flinkReplyTimeout s⟩
  · exact fun s => ⟨rfl, fun e => sendMap_cases s (sideNat e), fun k => (exec_cmap s k).1, fun k => (exec_cmap s k).2⟩

end Sys2Proof.Machine
end

section
/-! PROOF. Tables of the fabric (R31, R290, R292) are loaded; PORT_CTL and RING_CTL are written (R294). -/

namespace Sys2Proof.Machine

/-- A load whose entries become pending when it ends, with the step to its next entry written out. -/
theorem loadKeeping_eq (t : State) (w : LoadAt) (loc : Loc) (b : BulkLoad) (size m : Nat) (got : List (Nat × List Nat))
    (pend : State → Nat × List Nat → State) (more : State)
    (hmore : more = if b.left ≤ 1 then (t.setLoad w none).setFlag loc 30 false
      else t.startLoad w { b with next := (b.next + 1) % m, left := b.left - 1, addr := b.addr + size, got := got }) :
    t.loadKeeping w loc b size m got pend = if b.left ≤ 1 then got.foldl pend more else more := by
  subst hmore
  unfold State.loadKeeping
  by_cases hlast : b.left ≤ 1
  · simp only [if_pos hlast]
  · simp only [if_neg hlast]

/-- A reserved bit of a route entry. -/
theorem routeReserved_iff (w : Nat) : routeReserved w = true ↔ bitsOf w 30 25 ≠ 0 := by simp [routeReserved]

/-- ROUTE_LOAD with GO: rejected with the code of the bulk-load check, else the load begins. -/
theorem exec_routeLoad (s : State) (f : Func) (e : Side) (v : Word) :
    let n := sideNat e
    let go := v.put 31 31 1
    let loc := Loc.ocRouteLoad n
    let b : BulkLoad := { next := s.fld (Loc.ocRouteFirst n) 15 0, left := go.bits 16 0, addr := s.addrOf (Loc.ocRouteBaseLo n), f := f }
    let check := s.bulkCheck loc go b.addr b.next b.left 65536 65536 4
    s.accepts f loc go → (∀ k, check = some k → exec (.routeLoad f e v) s = .next (s.reject f (loc / 4096) (loc % 4096) k)) ∧
      (check = none → exec (.routeLoad f e v) s = .next ((s.bulkStore loc go true).startLoad (.route n) b).managed) := by
  intro n go loc b check hacc
  have hexec : exec (.routeLoad f e v) s = .next (s.settle f loc (s.routeLoadOp f n go)) := congrArg _ (write_accepted hacc _)
  rw [hexec]
  unfold State.routeLoadOp
  refine ⟨fun k hcheck => ?_, fun hcheck => ?_⟩ <;> simp only [check, loc, b] at hcheck
  · simp only [hcheck]
    rfl
  · simp only [hcheck, go, Word.put_go, Bool.not_true, Bool.false_eq_true, if_false]
    rfl

/-- MCG_LOAD with GO: rejected with the code of the bulk-load check, else the load begins. -/
theorem exec_mcgLoad (s : State) (f : Func) (e : Side) (v : Word) :
    let n := sideNat e
    let go := v.put 31 31 1
    let loc := Loc.ocMcgLoad n
    let b : BulkLoad := { next := go.bits 11 0, left := go.bits 24 12, addr := s.addrOf (Loc.ocMcgBaseLo n), f := f }
    let check := s.bulkCheck loc go b.addr b.next b.left 4096 4096 256
    s.accepts f loc go → (∀ k, check = some k → exec (.mcgLoad f e v) s = .next (s.reject f (loc / 4096) (loc % 4096) k)) ∧
      (check = none → exec (.mcgLoad f e v) s = .next ((s.bulkStore loc go true).startLoad (.mcg n) b).managed) := by
  intro n go loc b check hacc
  have hexec : exec (.mcgLoad f e v) s = .next (s.settle f loc (s.mcgLoadOp f n go)) := congrArg _ (write_accepted hacc _)
  rw [hexec]
  unfold State.mcgLoadOp
  refine ⟨fun k hcheck => ?_, fun hcheck => ?_⟩ <;> simp only [check, loc, b] at hcheck
  · simp only [hcheck]
    rfl
  · simp only [hcheck, go, Word.put_go, Bool.not_true, Bool.false_eq_true, if_false]
    rfl

/-- What a load of routes makes pending when it ends. -/
def State.pendRoute (n : Nat) (s : State) (g : Nat × List Nat) : State :=
  s.pendWord (Loc.ocRouteData n) (BitVec.ofNat 32 (g.2.getD 0 0)) g.1

/-- A step of a load of routes. -/
theorem exec_routeLoadEntry (s : State) (e : Side) (b : BulkLoad) (hload : (s.oculus (sideNat e)).routeLoad = some b) :
    (b.entry 4 = none → exec (.routeLoadEntry e) s = .next (s.askLoad (.route (sideNat e)))) ∧
    (∀ r, b.entry 4 = some r → exec (.routeLoadEntry e) s = .next
      ((s.routeGot (sideNat e) b r).1.loadKeeping (.route (sideNat e)) (Loc.ocRouteLoad (sideNat e)) b 4 65536
        (s.routeGot (sideNat e) b r).2 (State.pendRoute (sideNat e)))) := by
  have hexec : exec (.routeLoadEntry e) s = execRouteLoadEntry e s := rfl
  unfold execRouteLoadEntry at hexec
  simp only [hload] at hexec
  rw [hexec]
  refine ⟨fun h => by rw [h], fun r h => ?_⟩
  rw [h]
  exact congrArg _ (loadNext_keeping _ _ _ b 4 65536 _ (State.pendRoute (sideNat e)))

/-- A step of a load of groups. -/
theorem exec_mcgLoadEntry (s : State) (e : Side) (b : BulkLoad) (hload : (s.oculus (sideNat e)).mcgLoad = some b) :
    (b.entry 256 = none → exec (.mcgLoadEntry e) s = .next (s.askLoad (.mcg (sideNat e)))) ∧
    (∀ r, b.entry 256 = some r → exec (.mcgLoadEntry e) s = .next
      ((s.mcgGot (sideNat e) b r).1.loadKeeping (.mcg (sideNat e)) (Loc.ocMcgLoad (sideNat e)) b 256 4096
        (s.mcgGot (sideNat e) b r).2 fun s g => s.pendGroup (sideNat e) g.1 g.2)) := by
  have hexec : exec (.mcgLoadEntry e) s = execMcgLoadEntry e s := rfl
  unfold execMcgLoadEntry at hexec
  simp only [hload] at hexec
  rw [hexec]
  refine ⟨fun h => by rw [h], fun r h => ?_⟩
  rw [h]
  exact congrArg _ (loadNext_keeping _ _ _ b 256 4096 _ _)

/-- What a step of a load of routes keeps: an entry of the right form. -/
theorem routeGot_some (s : State) (e : Nat) (b : BulkLoad) (w : List Nat) :
    s.routeGot e b (some w) = if bitsOf (w.getD 0 0) 30 25 ≠ 0 then
      (s.reject b.f (Loc.ocRouteLoad e / 4096) (Loc.ocRouteLoad e % 4096) 1, b.got) else (s, b.got ++ [(b.next, w)]) :=
  if_congr (routeReserved_iff _) rfl rfl

/-- PORT_CTL with RETRAIN. -/
theorem exec_portRetrain (s : State) (f : Func) (e : Side) (v : Word)
    (hacc : s.accepts f (Loc.ocPortCtl (sideNat e)) (v.put 1 1 1)) :
    let w := v.put 1 1 1
    let n := sideNat e
    let loc := Loc.ocPortCtl n
    let i := s.fld (Loc.ocPortSel n) 3 0
    let p := 16 * n + i
    let t := s.put loc (w.put 1 1 0) i
    (∀ k, formCheck (locFields loc) w = some k →
      exec (.portRetrain f e v) s = .next (s.reject f (loc / 4096) (loc % 4096) k).settleAll) ∧
    (wellFormedFor loc w → exec (.portRetrain f e v) s = .next
      ((if w.bit 0 = true then t.retrainPort p
       else if s.portCtl p 0 0 = 1 then ((t.portDown p 0).showPorts n).flinkAsk p else t).managed).settleAll) := by
  intro w n loc i p t
  have hexec : exec (.portRetrain f e v) s = .next (s.settle f loc (s.portCtlOp n w)).settleAll :=
    congrArg (fun u : State => Host.Outcome.next u.settleAll) (write_accepted hacc _)
  have hretrain : w.bit 1 = true := Word.put_bit_one v 1 (by decide)
  have hop : wellFormedFor loc w → s.portCtlOp n w = .ok (if w.bit 0 = true then t.retrainPort p
      else if s.portCtl p 0 0 = 1 then ((t.portDown p 0).showPorts n).flinkAsk p else t) := by
    intro hform
    unfold wellFormedFor at hform
    simp only [loc] at hform
    unfold State.portCtlOp
    simp only [hform, hretrain]
    cases w.bit 0
    · by_cases hwas : s.portCtl p 0 0 = 1
      · rw [if_pos ⟨hwas, rfl⟩, if_neg Bool.false_ne_true, if_pos hwas]
      · rw [if_neg (fun h => hwas h.1), if_neg (fun h => Bool.false_ne_true h.2), if_neg Bool.false_ne_true, if_neg hwas]
    · rw [if_neg (fun h => Bool.false_ne_true h.2), if_pos ⟨trivial, rfl⟩, if_pos rfl]
  rw [hexec]
  refine ⟨fun k hform => ?_, fun hform => by rw [hop hform]; rfl⟩
  unfold State.portCtlOp
  simp only [loc] at hform
  simp only [hform]
  rfl

/-- RING_CTL written: FORCE_BYPASS moves the bypass at the East, and is refused at the West. -/
theorem exec_ringCtlWrite (s : State) (f : Func) (e : Side) (v : Word) (hacc : s.accepts f (Loc.ocRingCtl (sideNat e)) v) :
    let n := sideNat e
    let loc := Loc.ocRingCtl n
    let refused := fun k => s.reject f (loc / 4096) (loc % 4096) k
    let t := s.put loc v
    (∀ k, formCheck (locFields loc) v = some k → exec (.ringCtlWrite f e v) s = .next (refused k)) ∧
    (wellFormedFor loc v → exec (.ringCtlWrite f e v) s = .next
      (if n = 1 then (if v.bit 0 = true then refused 2 else t.managed)
      else if v.bit 0 = true then (t.moveBypass true).managed
      else if s.flag loc 0 = true ∧ (t.oculus 0).out = 0 ∧ t.flag Loc.glFaultSts 0 = false then (t.moveBypass false).managed
      else t.managed)) := by
  intro n loc refused t
  have hexec : exec (.ringCtlWrite f e v) s = .next (s.settle f loc (s.ringCtlOp n v)) := congrArg _ (write_accepted hacc _)
  rw [hexec]
  unfold State.ringCtlOp wellFormedFor
  refine ⟨fun k hform => ?_, fun hform => ?_⟩ <;> simp only [loc] at hform <;> simp only [hform]
  · rfl
  · by_cases hwest : n = 1
    · simp only [hwest, true_and, if_true, settle_ite, settle_ok, settle_error]
      simp only [refused, t, loc, hwest]
    · simp only [hwest, false_and, if_false, settle_ite, settle_ok, Bool.not_eq_true']
      rfl

/-- Settles O31: one lemma for each command; both loads by `loadKeeping_eq`. -/
theorem fabricTablesLoad : Obligations.FabricTablesLoad := by
  unfold Obligations.FabricTablesLoad
  refine ⟨?_, fun s f e v => ⟨exec_portRetrain s f e v, exec_ringCtlWrite s f e v⟩⟩
  intro s f e v n go start more
  refine ⟨exec_routeLoad s f e v, exec_mcgLoad s f e v, fun hnone => ?_, fun hnone => ?_, ?_, ?_⟩
  · change execRouteLoadEntry e s = _
    unfold execRouteLoadEntry
    simp only [show (s.oculus (sideNat e)).routeLoad = none from hnone]
  · change execMcgLoadEntry e s = _
    unfold execMcgLoadEntry
    simp only [show (s.oculus (sideNat e)).mcgLoad = none from hnone]
  · intro b hload loc goOn
    obtain ⟨hwait, hentry⟩ := exec_routeLoadEntry s e b hload
    have hgoOn : ∀ (t : State) got, t.loadKeeping (.route n) loc b 4 65536 got (State.pendRoute n) = goOn t got :=
      fun t got => loadKeeping_eq t (.route n) loc b 4 65536 got (State.pendRoute n) _ rfl
    refine ⟨hwait, fun h => ?_, fun w h => ?_⟩ <;> rw [hentry _ h, hgoOn]
    · rfl
    · rw [routeGot_some]
      by_cases hbad : bitsOf (w.getD 0 0) 30 25 ≠ 0
      · rw [if_pos hbad, if_pos hbad]
      · rw [if_neg hbad, if_neg hbad]
  · intro b hload loc goOn
    obtain ⟨hwait, hentry⟩ := exec_mcgLoadEntry s e b hload
    have hgoOn : ∀ (t : State) got, t.loadKeeping (.mcg n) loc b 256 4096 got (fun s g => s.pendGroup n g.1 g.2) = goOn t got :=
      fun t got => loadKeeping_eq t (.mcg n) loc b 256 4096 got _ _ rfl
    refine ⟨hwait, fun h => ?_, fun w h => ⟨fun k hbad => ?_, fun hgood => ?_⟩⟩ <;> rw [hentry _ h, hgoOn] <;>
      unfold State.mcgGot
    · rfl
    · simp only [hbad]
      rfl
    · simp only [hgood]

end Sys2Proof.Machine
end

section
/-! PROOF. A request of another device at its target (R301, R307, R320, R321). -/

namespace Sys2Proof.Machine

/-- Each command of a request asks for its operation. -/
theorem exec_request (s : State) (e : Side) (k : Pkt) (c : Instr) (op : Nat)
    (hc : (c, op) ∈ [(Instr.fabLoad e k, 1), (.fabStore e k, 2), (.storeMasked e k, 3), (.atomic e k, 4), (.reduce e k, 5),
      (.msg e k, 7), (.tally e k, 8), (.signal e k, 9)]) : exec c s = .next (s.request (sideNat e) k op) := by
  simp only [List.mem_cons, Prod.mk.injEq, List.not_mem_nil, or_false] at hc
  rcases hc with ⟨rfl, rfl⟩ | ⟨rfl, rfl⟩ | ⟨rfl, rfl⟩ | ⟨rfl, rfl⟩ | ⟨rfl, rfl⟩ | ⟨rfl, rfl⟩ | ⟨rfl, rfl⟩ | ⟨rfl, rfl⟩ <;> rfl

/-- A request of this device whose check fails, or that lands or passes. -/
theorem request_own (s : State) (n : Nat) (k : Pkt) (op : Nat) (hop : k.op = BitVec.ofNat 6 op) (hout : (s.oculus n).out = 0)
    (hown : s.isOwn k.dstDev.toNat = true) :
    (∀ t st, (s.takeHeld k).checkReq n k = .fail t st → s.request n k op = (t.answer n k st []).settleAll) ∧
    (∀ t q w, (s.takeHeld k).checkReq n k = .pass t q w ∨ ((s.takeHeld k).checkReq n k = .land t q ∧ w = 0) →
      (t.takeReq n { q with tagf := k.tagf } w = none → s.request n k op = s) ∧
      (∀ u, t.takeReq n { q with tagf := k.tagf } w = some u → s.request n k op = u.settleAll)) := by
  unfold State.request
  rw [if_neg (by simp [hop, hout]), if_neg (by simp [hown])]
  refine ⟨fun t st h => by rw [h], fun t q w h => ?_⟩
  rcases h with h | ⟨h, rfl⟩ <;> rw [h] <;> exact ⟨fun ht => by simp only [ht], fun u ht => by simp only [ht]⟩

/-- A request that passed goes to its die where nothing combines it, and else to the combining engine. -/
theorem takeReq_cases (t : State) (n : Nat) (r : Pkt) (w : Nat) :
    (t.direct n r w = true →
      (t.letIn n r w none = none → t.takeReq n r w = none) ∧
      (∀ u, t.letIn n r w none = some (u, none) → t.takeReq n r w = some u) ∧
      (∀ u st, t.letIn n r w none = some (u, some st) → t.takeReq n r w = some (u.answer n r st []))) ∧
    (t.direct n r w = false → t.takeReq n r w = t.joinComb n r w) := by
  unfold State.takeReq
  refine ⟨fun hdirect => ?_, fun hcomb => if_neg (Bool.eq_false_iff.mp hcomb)⟩
  rw [if_pos hdirect]
  exact ⟨fun h => by rw [h]; rfl, fun u h => by rw [h]; rfl, fun u st h => by rw [h]; rfl⟩

/-- The check of a request that fails at its form or at its authentication. -/
theorem checkReq_fail (s : State) (n : Nat) (k : Pkt) :
    (formOk k = false → s.checkReq n k = .fail (s.winReject n k 0x10) 0x10) ∧
    (formOk k = true → s.authCheck k = none → s.checkReq n k = .fail (s.winReject n k 0x14) 0x14) := by
  unfold State.checkReq
  exact ⟨fun hform => by rw [hform]; rfl, fun hform hauth => by rw [hform, hauth]; rfl⟩

/-- The check of a request that is authentic: it lands, or its access is checked. -/
theorem checkReq_authentic (s : State) (n : Nat) (k : Pkt) (hform : formOk k = true) (t : State) (q : Pkt)
    (hauth : s.authCheck k = some (t, q)) :
    (q.op = 7 ∨ q.op = 8 → s.checkReq n k = .land t q) ∧
    (q.op ≠ 7 → q.op ≠ 8 →
      (∀ st, t.accessReq q = .error st → s.checkReq n k = .fail (t.winReject n q st) st) ∧
      (∀ w, t.accessReq q = .ok w → s.checkReq n k = .pass t q w)) := by
  unfold State.checkReq
  simp only [hform, hauth, Bool.not_true, Bool.false_eq_true, if_false]
  refine ⟨fun hland => if_pos hland, fun h7 h8 => ?_⟩
  rw [if_neg (not_or.mpr ⟨h7, h8⟩)]
  exact ⟨fun st h => by rw [h], fun w h => by rw [h]⟩

/-- A packet that is not sealed is read as it is, unless its tag is sealed and another device sent it. -/
theorem authCheck_plain (s : State) (k : Pkt) (hplain : k.tagf = false) :
    s.authCheck k = if s.flag (Loc.ocTagDir 0) 5 k.jobTag.toNat = true ∧ k.srcDev.toNat ≠ s.ownDev then none else some (s, k) := by
  unfold State.authCheck
  simp only [hplain, Bool.false_eq_true, if_false, Bool.and_eq_true, bne_iff_ne]

/-- A sealed packet is opened. -/
theorem authCheck_sealed (s : State) (k : Pkt) (hsealed : k.tagf = true) : s.authCheck k = s.openPkt false k := by
  unfold State.authCheck
  rw [if_pos hsealed]

/-- The access of a request whose tag has no entry. -/
theorem accessReq_noTag (t : State) (q : Pkt) (h : t.flag (Loc.ocTagDir 0) 0 q.jobTag.toNat = false) :
    t.accessReq q = .error 0x11 := by
  unfold State.accessReq
  simp only [h, Bool.not_false, if_true]

/-- The access of a SIGNAL: the right and the counting slots of its tag. -/
theorem accessReq_signal (t : State) (q : Pkt) (hop : q.op = 9) (htag : t.flag (Loc.ocTagDir 0) 0 q.jobTag.toNat = true) :
    (t.flag (Loc.ocTagDir 0) 4 q.jobTag.toNat = false ∨ t.tagSlots q.jobTag.toNat = false → t.accessReq q = .error 0x13) ∧
    (t.flag (Loc.ocTagDir 0) 4 q.jobTag.toNat = true → t.tagSlots q.jobTag.toNat = true → t.accessReq q = .ok 0) := by
  unfold State.accessReq
  have hnat : q.op.toNat = 9 := by rw [hop]; rfl
  simp only [htag, hnat, Bool.not_true, Bool.false_eq_true, if_false, if_true]
  refine ⟨fun h => ?_, fun hright hslots => by rw [hright, hslots]; rfl⟩
  cases hright : t.flag (Loc.ocTagDir 0) 4 q.jobTag.toNat with
  | false => rfl
  | true => rw [h.resolve_left (by simp [hright])]; rfl

/-- The access of any other operation: its window, the window's right, and the counting slots of its tag. -/
theorem accessReq_window (t : State) (q : Pkt) (hop : q.op ≠ 9) (htag : t.flag (Loc.ocTagDir 0) 0 q.jobTag.toNat = true) :
    (t.findWin q.jobTag.toNat q.addr.toNat q.len.toNat = none → t.accessReq q = .error 0x11) ∧
    (∀ w, t.findWin q.jobTag.toNat q.addr.toNat q.len.toNat = some w →
      let right := (t.winWord q.jobTag.toNat w 0).bit (rightBit q.op.toNat)
      (right = false → t.accessReq q = .error 0x12) ∧
      (right = true → q.csEn = true → t.tagSlots q.jobTag.toNat = false → t.accessReq q = .error 0x13) ∧
      (right = true → (q.csEn = false ∨ t.tagSlots q.jobTag.toNat = true) → t.accessReq q = .ok w)) := by
  unfold State.accessReq
  have hnat : q.op.toNat ≠ 9 := fun h => hop (BitVec.eq_of_toNat_eq h)
  simp only [htag, hnat, Bool.not_true, Bool.false_eq_true, if_false]
  refine ⟨fun hnone => by rw [hnone], fun w hw => ?_⟩
  rw [hw]
  refine ⟨fun hright => by simp [hright], fun hright hinc hslots => by simp [hright, hinc, hslots], fun hright hok => ?_⟩
  rcases hok with hinc | hslots
  · simp [hright, hinc]
  · simp [hright, hslots]

/-- Settles O32: the commands are one operation (`exec_request`); the check follows `checkReq_authentic` and the lemmas on the
access. -/
theorem requestsOfOtherDevices : Obligations.RequestsOfOtherDevices := by
  unfold Obligations.RequestsOfOtherDevices
  refine ⟨?_, ?_⟩
  · intro s e k c op hc n
    rw [exec_request s e k c op hc]
    refine ⟨fun hno => congrArg _ (if_pos hno), fun hop hout => ⟨fun hother => ?_, fun hown => ?_⟩⟩
    · unfold State.request
      rw [if_neg (by rintro (h | h); exacts [h hop, h hout]), if_pos (by rw [hother]; rfl)]
    · obtain ⟨hfail, hpass⟩ := request_own s n k op hop hout hown
      refine ⟨fun t st h => congrArg _ (hfail t st h), ?_⟩
      intro t q w h r
      obtain ⟨hdie, hcomb⟩ := takeReq_cases t n r w
      obtain ⟨hstays, htaken⟩ := hpass t q w h
      refine ⟨fun hdirect => ?_, fun hdirect => ?_⟩
      · obtain ⟨hwait, hsent, htold⟩ := hdie hdirect
        exact ⟨fun h => congrArg _ (hstays (hwait h)), fun u h => congrArg _ (htaken u (hsent u h)),
          fun u st h => congrArg _ (htaken _ (htold u st h))⟩
      · exact ⟨fun h => congrArg _ (hstays ((hcomb hdirect).trans h)), fun u h => congrArg _ (htaken u ((hcomb hdirect).trans h))⟩
  · intro s n k
    obtain ⟨hbad, hfalse⟩ := checkReq_fail s n k
    refine ⟨hbad, ?_⟩
    intro hform sealed other rest
    have hrest : ∀ t q, s.authCheck k = some (t, q) → rest t q := by
      intro t q hauth
      obtain ⟨hland, haccess⟩ := checkReq_authentic s n k hform t q hauth
      refine ⟨hland, ?_⟩
      intro h7 h8 bad
      obtain ⟨herror, hok⟩ := haccess h7 h8
      refine ⟨fun h => herror _ (accessReq_noTag t q h), fun htag => ⟨fun hop => ?_, fun hop => ?_⟩⟩
      · obtain ⟨hno, hyes⟩ := accessReq_signal t q hop htag
        exact ⟨fun h => herror _ (hno h), fun hright hslots => hok _ (hyes hright hslots)⟩
      · obtain ⟨hnone, hwin⟩ := accessReq_window t q hop htag
        refine ⟨fun h => herror _ (hnone h), ?_⟩
        intro w hw right
        obtain ⟨hright, hslots, hpass⟩ := hwin w hw
        exact ⟨fun h => herror _ (hright h), fun h hinc hno => herror _ (hslots h hinc hno), fun h hyes => hok _ (hpass h hyes)⟩
    refine ⟨fun hplain hsealed hother => ?_, fun hplain hfine => ?_, fun htagf hshut => ?_, fun htagf r hopen => ?_⟩
    · exact hfalse hform ((authCheck_plain s k hplain).trans (if_pos ⟨hsealed, hother⟩))
    · exact hrest s k ((authCheck_plain s k hplain).trans (if_neg hfine))
    · exact hfalse hform ((authCheck_sealed s k htagf).trans hshut)
    · exact hrest r.1 r.2 ((authCheck_sealed s k htagf).trans hopen)

end Sys2Proof.Machine
end

section
/-! PROOF. Admitted requests at their die (R285, R309), and the combining engine (R312 to R315). -/

namespace Sys2Proof.Machine

/-- A load, store, atomic or reduction is asked of the gatehouse of its line. -/
theorem letIn_line (s : State) (n : Nat) (k : Pkt) (w : Nat) (own : Option Nat) (hop : k.op ∈ ([1, 2, 3, 4, 5] : List (BitVec 6))) :
    let line := winDev (s.window k.jobTag.toNat w) k.addr.toNat / 256
    s.letIn n k w own = s.askInside n line (lineStation line) (s.fabLineStatus n line) (.req n k own) (reqHdr k line) := by
  intro line
  have hnat : k.op.toNat ≠ 7 ∧ k.op.toNat ≠ 8 ∧ k.op.toNat ≠ 9 := by
    simp only [List.mem_cons, List.not_mem_nil, or_false] at hop
    rcases hop with h | h | h | h | h <;> rw [h] <;> decide
  obtain ⟨h7, h8, h9⟩ := hnat
  unfold State.letIn
  split
  · exact absurd ‹_› h7
  · exact absurd ‹_› h8
  · exact absurd ‹_› h9
  · rfl

/-- A SIGNAL goes to the home of its tag, and waits while that is in reset. -/
theorem letIn_signal (s : State) (n : Nat) (k : Pkt) (w : Nat) (own : Option Nat) (hop : k.op = 9) :
    let home := s.tagHome k.jobTag.toNat
    let h : Hdr := { op := 9, jobTag := k.jobTag, cslot := k.cslot, csEn := true, arg := BitVec.ofNat 16 k.opt.toNat }
    ((s.spire home).out = 1 → s.letIn n k w own = none) ∧
    ((s.spire home).out = 0 → s.letIn n k w own =
      s.askInside n k.seq.toNat (spStation home) (s.fabSpireStatus n home k.seq.toNat) (.req n k own) h) := by
  intro home h
  have hletIn : s.letIn n k w own = s.admitSignal n k own := by
    have hnat : k.op.toNat = 9 := by rw [hop]; rfl
    unfold State.letIn
    simp only [hnat]
  rw [hletIn]
  unfold State.admitSignal
  refine ⟨fun hreset => if_pos hreset, fun hup => ?_⟩
  have hhome : (s.spire (s.tagHome k.jobTag.toNat)).out = 0 := hup
  simp only [hhome, ne_eq, not_true, if_false, zero_ne_one]
  rfl

/-- How a transaction of an oculus leaves for a station of the device. -/
theorem askInside_cases (s : State) (n l dst st : Nat) (who : Caller) (h : Hdr) :
    (st ≠ 0 → s.askInside n l dst st who h = some (s, some st)) ∧
    (s.ocStation n l = none → s.askInside n l dst 0 who h = some (s, some 0x33)) ∧
    (∀ a, s.ocStation n l = some a →
      (s.tidRoom a = false → s.askInside n l dst 0 who h = none) ∧
      (s.tidRoom a = true → s.askInside n l dst 0 who h =
        some ((s.openCall a dst who h).1, if (s.openCall a dst who h).2 = true then none else some 0x33))) := by
  unfold State.askInside
  refine ⟨fun hst => if_pos hst, fun hnone => ?_, fun a ha => ⟨fun hfull => ?_, fun hroom => ?_⟩⟩
  · simp [hnone]
  · simp [ha, hfull]
  · simp [ha, hroom]

/-- The die has answered a request. -/
theorem answerCall_request (s : State) (n : Nat) (k : Pkt) (own : Option Nat) (a tid st : Nat) (data : List Byte) (c : Call)
    (hc : s.callAt a tid = some c) (hwho : c.who = .req n k own) :
    s.answerCall a tid st data = (s.dropCall c).reqDone n k own st data := by
  unfold State.answerCall
  simp only [hc, hwho]

/-- An arrival at the combining engine keeps its line open; it waits, joins an entry or opens one (R312 to R315). -/
theorem joinComb_cases (s : State) (n : Nat) (k : Pkt) (w : Nat) :
    let tag := k.jobTag.toNat
    let line := k.addr.toNat / 256
    let win := s.window tag w
    let t := s.touchLine n tag line
    let cls := (combClass k).getD 0
    let mate := (t.oculus n).comb.find? fun c => c.tag == tag && c.line == line && c.win == win && c.cls == cls &&
      !t.combFull n c && c.pkts.all fun j => joinTarget j k
    (65536 ≤ (t.oculus n).records → s.joinComb n k w = none) ∧
    ((t.oculus n).records < 65536 →
      (∀ c, mate = some c → s.joinComb n k w = some (((t.bump (ocPage n 0xB) 4 cls 1 (t.tagOwner tag)).modOculus n fun o =>
        { o with comb := o.comb.map fun x => if x = c then { c with pkts := c.pkts ++ [k] } else x }).fillComb n
          { c with pkts := c.pkts ++ [k] })) ∧
      (mate = none →
        let c : Comb := { tag := tag, line := line, win := win, cls := cls, pkts := [k], last := t.clk.elapsed }
        (512 ≤ (t.oculus n).comb.length → s.joinComb n k w = none) ∧
        ((t.oculus n).comb.length < 512 → s.joinComb n k w =
          some ((t.modOculus n fun o => { o with comb := o.comb ++ [c] }).fillComb n c)))) := by
  intro tag line win t cls mate
  unfold State.joinComb
  refine ⟨fun hfull => if_pos hfull, fun hroom => ?_⟩
  dsimp only
  rw [if_neg (Nat.not_le.mpr hroom)]
  refine ⟨fun c hmate => ?_, fun hmate => ?_⟩ <;> simp only [mate, t, tag, line, win, cls] at hmate <;> rw [hmate]
  exact ⟨fun hfull => if_pos hfull, fun hfree => if_neg (Nat.not_le.mpr hfree)⟩

/-- An entry closes 64 ns after the last arrival for its line. -/
theorem exec_combEntryClose (s : State) (e : Side) (tag : BitVec 12) (line : Nat) :
    let n := sideNat e
    let entry := (s.oculus n).comb.find? fun c => c.tag == tag.toNat && c.line == line
    (entry = none → exec (.combEntryClose e tag line) s = .next s) ∧
    (∀ c, entry = some c → s.reaches (c.last + 64) →
      let t := s.atTime (c.last + 64)
      (t.closeComb n c = none → exec (.combEntryClose e tag line) s = .next s) ∧
      (∀ u, t.closeComb n c = some u → exec (.combEntryClose e tag line) s = .next u.settleAll)) := by
  intro n entry
  have hexec : exec (.combEntryClose e tag line) s = execCombEntryClose e tag line s := rfl
  unfold execCombEntryClose at hexec
  rw [hexec]
  refine ⟨fun hnone => ?_, ?_⟩
  · simp only [entry, n] at hnone
    simp only [hnone]
  · intro c hc hreach t
    simp only [entry, n] at hc
    simp only [hc, waitUntil_reaches s _ hreach]
    exact ⟨fun hkept => by simp only [t, n] at hkept; simp only [hkept],
      fun u hclosed => by simp only [t, n] at hclosed; simp only [hclosed]⟩

/-- A closing entry counts the stores that were discarded and sends its survivor. -/
theorem closeComb_cases (s : State) (n : Nat) (c : Comb) :
    (s.combOut n (combLine c) = true → s.closeComb n c = none) ∧
    (s.combOut n (combLine c) = false →
      let gone := if c.cls = 1 then discardedStores c.pkts else 0
      let t := if gone = 0 then s else s.bump (ocPage n 0xB) 5 0 gone (s.tagOwner c.tag)
      s.closeComb n c = (t.modOculus n fun o => { o with comb := o.comb.erase c }).combSend n c (combHdrs c (combLine c))) :=
  ⟨fun hout => if_pos hout, fun hfree => if_neg (Bool.eq_false_iff.mp hfree)⟩

/-- Settles O33: how a request leaves for its die and ends, and how an arrival combines, are lemmas about the operation; the command
is `exec_combEntryClose`. -/
theorem admittedRequestsAreApplied : Obligations.AdmittedRequestsAreApplied := by
  unfold Obligations.AdmittedRequestsAreApplied
  refine ⟨?_, ?_⟩
  · intro s n k own
    refine ⟨fun w hop => letIn_line s n k w own hop, fun w hop => letIn_signal s n k w own hop, askInside_cases s n, ?_⟩
    intro a tid st data c hc hwho t u v d
    rw [answerCall_request s n k own a tid st data c hc hwho]
    cases own with
    | none => rfl
    | some q => rfl
  · exact fun s => ⟨joinComb_cases s, exec_combEntryClose s, closeComb_cases s⟩

end Sys2Proof.Machine
end

section
/-! PROOF. Multicast stores (R292, R317 to R319), completions (R303, R314) and notices of awaits (R309). -/

namespace Sys2Proof.Machine

/-- The MC_STORE that a FOP issued and a request stands for, not yet expanded. -/
def State.issuedMc (s : State) (n : Nat) (k : Pkt) : Option Txn :=
  (s.oculus n).txns.find? fun t => t.pkt.op == 6 && t.copies.isEmpty && t.pkt.addr == k.addr &&
    t.pkt.opt == k.opt && t.pkt.jobTag == k.jobTag && t.pkt.data == k.data

/-- Packets of another operation, and an oculus that is out, change nothing. -/
theorem exec_mc_idle (s : State) (e : Side) (k : Pkt) (h : k.op ≠ 6 ∨ (s.oculus (sideNat e)).out ≠ 0) :
    exec (.mcStore e k) s = .next s ∧ exec (.mcStoreCopy e k) s = .next s := ⟨if_pos h, if_pos h⟩

/-- An MC_STORE that a FOP issued is expanded. -/
theorem exec_mcStore_issued (s : State) (e : Side) (k : Pkt) (hop : k.op = 6) (hout : (s.oculus (sideNat e)).out = 0) (t : Txn)
    (ht : s.issuedMc (sideNat e) k = some t) : exec (.mcStore e k) s = .next (s.expandMc (sideNat e) t).settleAll := by
  unfold State.issuedMc at ht
  change execMcStore e k s = _
  unfold execMcStore
  simp only [hop, hout, ht, ne_eq, not_true, or_self, if_false]

/-- Another MC_STORE is expanded when it meets the form rules and a transaction number is free. -/
theorem exec_mcStore_other (s : State) (e : Side) (k : Pkt) (hop : k.op = 6) (hout : (s.oculus (sideNat e)).out = 0)
    (hnone : s.issuedMc (sideNat e) k = none) :
    (formOk k = false ∨ 32768 ≤ (s.oculus (sideNat e)).txns.length ∨ s.freeSeq (sideNat e) = none →
      exec (.mcStore e k) s = .next s) ∧
    (∀ i t, formOk k = true → (s.oculus (sideNat e)).txns.length < 32768 → s.freeSeq (sideNat e) = some i →
      let seq := i + 32768 * sideNat e
      let u := s.openTxn seq { k with srcDev := BitVec.ofNat 16 s.ownDev, seq := BitVec.ofNat 16 seq } (.absorbed [])
      u.txn seq = some t → exec (.mcStore e k) s = .next (u.expandMc (sideNat e) t).settleAll) := by
  unfold State.issuedMc at hnone
  have hexec : exec (.mcStore e k) s = execMcStore e k s := rfl
  unfold execMcStore at hexec
  simp only [hout, hnone, ne_eq, not_true, or_false, Bool.not_eq_true'] at hexec
  rw [if_neg (not_not.mpr hop)] at hexec
  rw [hexec]
  refine ⟨fun h => ?_, ?_⟩
  · by_cases hbad : formOk k = false ∨ (s.oculus (sideNat e)).txns.length ≥ 32768
    · rw [if_pos hbad]
    · rw [if_neg hbad]
      have hfull : s.freeSeq (sideNat e) = none := by tauto
      rw [hfull]
  · intro i t hform hroom hfree seq u ht
    rw [if_neg (by rw [hform]; simpa using hroom), hfree]
    simp only [seq, u] at ht
    simp only [ht]
    rfl

/-- A copy is passed on to another device, and answered at its target unless it waits in the multicast buffer. -/
theorem exec_mcStoreCopy (s : State) (e : Side) (k : Pkt) (hop : k.op = 6) (hout : (s.oculus (sideNat e)).out = 0) :
    (s.isOwn k.dstDev.toNat = false → exec (.mcStoreCopy e k) s = .next (s.passOn (sideNat e) 0 k)) ∧
    (s.isOwn k.dstDev.toNat = true →
      let r := (s.takeHeld k).mcCopy (sideNat e) k
      (∀ st, r.2 = some st → exec (.mcStoreCopy e k) s = .next (r.1.answer (sideNat e) k st []).settleAll) ∧
      (r.2 = none → exec (.mcStoreCopy e k) s = .next r.1)) := by
  have hexec : exec (.mcStoreCopy e k) s = execMcStoreCopy e k s := rfl
  unfold execMcStoreCopy at hexec
  rw [hexec]
  dsimp only
  rw [if_neg (by rintro (h | h); exacts [h hop, h hout])]
  refine ⟨fun hother => if_pos (by rw [hother]; rfl), fun hown => ?_⟩
  rw [if_neg (by rw [hown]; decide)]
  exact ⟨fun st h => by rw [h], fun h => by rw [h]⟩

/-- What becomes of a copy at its target (R317, R318). -/
theorem mcCopy_cases (s : State) (n : Nat) (k : Pkt) :
    (∀ t st, s.checkReq n k = .fail t st → s.mcCopy n k = (t, some st)) ∧
    (∀ t q w, s.checkReq n k = .pass t q w →
      (t.dups.any (dupOf q) = true → s.mcCopy n k = (t, some 0)) ∧
      (t.dups.any (dupOf q) = false →
        (16384 ≤ t.dups.length ∨ (t.oculus n).mcRoom q = false → s.mcCopy n k = (t.retried n q, some 6)) ∧
        (t.dups.length < 16384 → (t.oculus n).mcRoom q = true →
          s.mcCopy n k = t.acceptCopy n (k, q, winDev (t.window q.jobTag.toNat w) q.addr.toNat / 256)))) := by
  unfold State.mcCopy
  refine ⟨fun t st h => by rw [h], fun t q w h => ?_⟩
  rw [h]
  refine ⟨fun hdup => if_pos hdup, fun hnew => ?_⟩
  dsimp only
  rw [if_neg (Bool.eq_false_iff.mp hnew)]
  exact ⟨fun hfull => if_pos (by simpa using hfull), fun hlen hroom => if_neg (by simp [hroom, hlen])⟩

/-- Copies answered RETRY leave again the interval after the latest such answer (R318). -/
theorem exec_mcRetryResend (s : State) (e : Side) (seq : BitVec 16) :
    let own := (s.oculus (sideNat e)).txns.find? fun t => t.seq == seq.toNat
    (own = none → exec (.mcRetryResend e seq) s = .next s) ∧
    (∀ t, own = some t →
      let due := (t.copies.filter (·.again)).map (·.sentAt)
      (due = [] → exec (.mcRetryResend e seq) s = .next s) ∧
      (∀ d ds, due = d :: ds →
        let at_ := ds.foldl max d + 100 * s.fld (Loc.ocMcCtl (sideNat e)) 15 8
        s.reaches at_ → exec (.mcRetryResend e seq) s = .next
          ((t.copies.zipIdx.foldl (fun s c => if c.1.again = true then s.sendCopy (sideNat e) t.pkt c.2 c.1.dev else s)
            ((s.atTime at_).setTxn { t with copies := t.copies.map fun c => { c with again := false } })).settleAll))) := by
  intro own
  have hexec : exec (.mcRetryResend e seq) s = execMcRetryResend e seq s := rfl
  unfold execMcRetryResend at hexec
  rw [hexec]
  refine ⟨fun hnone => ?_, ?_⟩
  · simp only [own] at hnone
    simp only [hnone]
  · intro t ht due
    simp only [own] at ht
    simp only [ht]
    refine ⟨fun hnone => ?_, ?_⟩
    · simp only [due] at hnone
      simp only [hnone]
    · intro d ds hdue hreach
      simp only [due] at hdue
      simp only [hdue, waitUntil_reaches s _ hreach]

/-- The timeout of an expanded MC_STORE completes it with its bitmap (R319). -/
theorem exec_mcTimeout (s : State) (e : Side) (seq : BitVec 16) :
    let own := (s.oculus (sideNat e)).txns.find? fun t => t.seq == seq.toNat && !t.copies.isEmpty
    (own = none → exec (.mcTimeout e seq) s = .next s) ∧
    (∀ t, own = some t →
      let at_ := t.opened + 1000 * s.fld (Loc.ocMcCtl (sideNat e)) 7 0
      let u := s.atTime at_
      s.reaches at_ → exec (.mcTimeout e seq) s = .next
        (((u.bump (ocPage (sideNat e) 0xB) 7 0 1 (u.tagOwner t.pkt.jobTag.toNat)).mcDone t).settleAll)) := by
  intro own
  have hexec : exec (.mcTimeout e seq) s = execMcTimeout e seq s := rfl
  unfold execMcTimeout at hexec
  rw [hexec]
  refine ⟨fun hnone => ?_, ?_⟩
  · simp only [own] at hnone
    simp only [hnone]
  · intro t ht at_ u hreach
    simp only [own] at ht
    simp only [ht]
    rw [waitUntil_reaches s _ hreach]

/-- An entry of the duplicate filter is released at its time (R318). -/
theorem exec_dupFilterExpiry (s : State) (src seq : BitVec 16) :
    let entry := s.dups.find? fun d => d.src == src.toNat && d.seq == seq.toNat
    (entry = none → exec (.dupFilterExpiry src seq) s = .next s) ∧
    (∀ d, entry = some d → s.reaches d.until_ →
      let u := s.atTime d.until_
      exec (.dupFilterExpiry src seq) s = .next { u with dups := u.dups.erase d }) := by
  intro entry
  have hexec : exec (.dupFilterExpiry src seq) s = execDupFilterExpiry src seq s := rfl
  unfold execDupFilterExpiry at hexec
  rw [hexec]
  refine ⟨fun hnone => ?_, ?_⟩
  · simp only [entry] at hnone
    simp only [hnone]
  · intro d hd hreach u
    simp only [entry] at hd
    simp only [hd, waitUntil_reaches s _ hreach]
    rfl

/-- A completion of the operation of its command, with or without data. -/
theorem exec_completion (s : State) (e : Side) (k : Pkt) (c : Instr) (op : BitVec 6)
    (hc : (c, op) ∈ [(Instr.comp e k, (0x20 : BitVec 6)), (.compData e k, 0x21)]) :
    exec c s = if k.op ≠ op then .next s else .next (s.completion (sideNat e) k) := by
  simp only [List.mem_cons, Prod.mk.injEq, List.not_mem_nil, or_false] at hc
  rcases hc with ⟨rfl, rfl⟩ | ⟨rfl, rfl⟩ <;> rfl

/-- A completion at its device: it ends its transaction, or a copy, or nobody's (R303, R314, R439). -/
theorem completion_own (s : State) (n : Nat) (k : Pkt) (hout : (s.oculus n).out = 0) (hown : s.isOwn k.dstDev.toNat = true) :
    let u := s.takeHeld k
    (u.openComp k = none → s.completion n k = u.bump (ocPage n 0xB) 3 0 1 (s.tagOwner k.jobTag.toNat)) ∧
    (∀ r : State × Pkt, u.openComp k = some r →
      let st := r.2.status.toNat
      (r.1.txn r.2.seq.toNat = none → s.completion n k = r.1.ocEvent n 0xB 0 1) ∧
      (∀ t, r.1.txn r.2.seq.toNat = some t →
        (t.pkt.op = 6 → s.completion n k = (r.1.mcAnswer t.seq r.2.mcTgt.toNat st).settleAll) ∧
        (t.pkt.op ≠ 6 → s.completion n k =
          (r.1.comeBack t r.2.addr.toNat st (if r.2.op = 0x21 then dataFlits r.2 else [])).settleAll))) := by
  unfold State.completion
  rw [if_neg (not_not.mpr hout), if_neg (by rw [hown]; decide)]
  refine ⟨fun hshut => by rw [hshut], ?_⟩
  rintro ⟨t, q⟩ hopen st
  rw [hopen]
  dsimp only
  refine ⟨fun hnone => by rw [hnone], fun x hx => ?_⟩
  rw [hx]
  exact ⟨fun hmc => if_pos hmc, fun hmc => if_neg hmc⟩

/-- The await of a slot, in the occurrence that asked, is satisfied. -/
theorem exec_awaitNotify (s : State) (m : Fin 16) (slot : Fin 1024) (second : Bool) :
    let told := (s.spire m).notes.find? fun x => x.1 == slot.val && x.2.2 == second
    (told = none → exec (.awaitNotify m slot second) s = .next s) ∧
    (∀ x, told = some x → exec (.awaitNotify m slot second) s = .next ((s.modSpire m fun sp =>
      { sp with
        notes := sp.notes.erase x
        window := sp.window.map fun w =>
          if w.slot = slot.val ∧ w.t0 = x.2.1 then { w with a1 := w.a1 || second, a0 := w.a0 || !second } else w }).settleAll)) := by
  intro told
  have hexec : exec (.awaitNotify m slot second) s = execAwaitNotify m slot second s := rfl
  unfold execAwaitNotify at hexec
  rw [hexec]
  refine ⟨fun hnone => by simp only [told] at hnone; simp only [hnone], fun x hx => ?_⟩
  simp only [told] at hx
  simp only [hx]
  cases second <;> simp only [Bool.or_true, Bool.or_false, Bool.not_true, Bool.not_false, Bool.false_eq_true, if_true, if_false]

/-- Settles O34: one lemma for each command; `completion_own` for both completions. -/
theorem completionsAndMulticast : Obligations.CompletionsAndMulticast := by
  unfold Obligations.CompletionsAndMulticast
  refine ⟨?_, ?_⟩
  · intro s e n
    refine ⟨fun k => ⟨exec_mc_idle s e k, fun hop hout => ?_⟩, mcCopy_cases s n, exec_mcRetryResend s e, exec_mcTimeout s e,
      exec_dupFilterExpiry s⟩
    obtain ⟨hother, hown⟩ := exec_mcStoreCopy s e k hop hout
    exact ⟨exec_mcStore_issued s e k hop hout, exec_mcStore_other s e k hop hout, hother, hown⟩
  · intro s e k c op
    refine ⟨?_, exec_awaitNotify s⟩
    intro hc n
    rw [exec_completion s e k c op hc]
    refine ⟨fun hno => ?_, fun hop hout => ?_⟩
    · by_cases hop : k.op ≠ op
      · rw [if_pos hop]
      · rw [if_neg hop]
        exact congrArg _ (if_pos (hno.resolve_left hop))
    · rw [if_neg (not_not.mpr hop)]
      refine ⟨fun hother => ?_, fun hown => ?_⟩
      · unfold State.completion
        rw [if_neg (not_not.mpr hout), if_pos (by rw [hother]; rfl)]
      · obtain ⟨hshut, hopen⟩ := completion_own s n k hout hown
        refine ⟨fun h => congrArg _ (hshut h), fun r h => ?_⟩
        obtain ⟨hnone, hsome⟩ := hopen r h
        exact ⟨fun h => congrArg _ (hnone h), fun t h => ⟨fun hmc => congrArg _ ((hsome t h).1 hmc),
          fun hmc => congrArg _ ((hsome t h).2 hmc)⟩⟩

end Sys2Proof.Machine
end

section
/-! PROOF. Windows and counts (R31, R305, R306, R309). -/

namespace Sys2Proof.Machine

/-- WIN_DATA3: the staged window waits for the tick when it passes its check. -/
theorem exec_windowCommit (s : State) (f : Func) (e : Side) (v : Word) (hacc : s.accepts f (Loc.ocWinData (sideNat e) 3) v) :
    let loc := Loc.ocWinData (sideNat e) 3
    let sel := s.get (Loc.ocWinSel 0)
    let i := sel.bits 11 0 * 16 + sel.bits 15 12
    let w := s.staged (Loc.ocWinData 0) 4 v
    let check := s.winCheck (sel.bits 11 0) (sel.bits 15 12) w
    let t := s.pendWindow i w
    let j := (i + 1) % 65536
    (∀ k, check = some k → exec (.windowCommit f e v) s = .next (s.reject f (loc / 4096) (loc % 4096) k)) ∧
    (check = none → exec (.windowCommit f e v) s = .next
      (if sel.bit 16 = true then (t.put (Loc.ocWinSel 0) ((sel.put 15 12 (j % 16)).put 11 0 (j / 16))).managed else t.managed)) := by
  intro loc sel i w check t j
  have hexec : exec (.windowCommit f e v) s = .next (s.settle f loc (s.winDataOp 3 v)) := congrArg _ (write_accepted hacc _)
  rw [hexec]
  unfold State.winDataOp
  rw [if_neg (Nat.lt_irrefl 3)]
  refine ⟨fun k hbad => ?_, fun hgood => ?_⟩
  · simp only [check, sel, w] at hbad
    simp only [hbad]
    rfl
  · simp only [check, sel, w] at hgood
    simp only [hgood, Bool.not_eq_true', settle_ite, settle_ok]
    by_cases hinc : sel.bit 16 = true
    · rw [if_pos hinc, if_neg (by simp only [sel] at hinc; rw [hinc]; decide)]
    · rw [if_neg hinc, if_pos (by simpa only [sel, Bool.not_eq_true] using hinc)]

/-- WIN_LOAD with GO: rejected with the code of the bulk-load check, else the load begins. -/
theorem exec_winLoad (s : State) (f : Func) (e : Side) (v : Word) :
    let go := v.put 31 31 1
    let loc := Loc.ocWinLoad (sideNat e)
    let b : BulkLoad := { next := s.fld (Loc.ocWinFirst 0) 15 0, left := go.bits 16 0, addr := s.addrOf (Loc.ocWinBaseLo 0), f := f }
    let check := s.bulkCheck (Loc.ocWinLoad 0) go b.addr b.next b.left 65536 65536 16
    s.accepts f loc go →
    (∀ k, check = some k → exec (.winLoad f e v) s = .next (s.reject f (loc / 4096) (loc % 4096) k)) ∧
    (check = none → exec (.winLoad f e v) s = .next ((s.bulkStore (Loc.ocWinLoad 0) go true).startLoad .win b).managed) := by
  intro go loc b check hacc
  have hexec : exec (.winLoad f e v) s = .next (s.settle f loc (s.winLoadOp f go)) := congrArg _ (write_accepted hacc _)
  rw [hexec]
  unfold State.winLoadOp
  refine ⟨fun k hcheck => ?_, fun hcheck => ?_⟩ <;> simp only [check, b] at hcheck
  · simp only [hcheck]
    rfl
  · simp only [hcheck, go, Word.put_go, Bool.not_true, Bool.false_eq_true, if_false]
    rfl

/-- A step of a load of windows. -/
theorem exec_winLoadEntry (s : State) (e : Side) (b : BulkLoad) (hload : (s.oculus 0).winLoad = some b) :
    (b.entry 16 = none → exec (.winLoadEntry e) s = .next (s.askLoad .win)) ∧
    (∀ r, b.entry 16 = some r → exec (.winLoadEntry e) s = .next
      ((s.winGot b r).1.loadKeeping .win (Loc.ocWinLoad 0) b 16 65536 (s.winGot b r).2 fun s g => s.pendWindow g.1 g.2)) := by
  have hexec : exec (.winLoadEntry e) s = execWinLoadEntry e s := rfl
  unfold execWinLoadEntry at hexec
  rw [hexec, hload]
  refine ⟨fun h => by simp only [h], fun r h => ?_⟩
  simp only [h]
  exact congrArg _ (loadNext_keeping _ _ _ b 16 65536 _ _)

/-- CS_VALUE: set in a stopped partition whose tag has counting slots (R309). -/
theorem exec_csValueWrite (s : State) (f : Func) (e : Side) (v : Word) (hacc : s.accepts f (Loc.ocCsValue (sideNat e)) v) :
    let loc := Loc.ocCsValue (sideNat e)
    let tag := s.fld (Loc.ocCsSel (sideNat e)) 11 0
    let owner := s.tagOwner tag
    let may := owner < 8 ∧ s.pfState owner = 0 ∧ s.tagSlots tag = true
    (¬may → exec (.csValueWrite f e v) s = .next (s.reject f (loc / 4096) (loc % 4096) 5).settleAll) ∧
    (may → exec (.csValueWrite f e v) s = .next
      ((s.setCount tag (s.fld (Loc.ocCsSel (sideNat e)) 19 12) v.toNat).managed).settleAll) := by
  intro loc tag owner may
  have hexec : exec (.csValueWrite f e v) s = .next (s.settle f loc (s.csValueOp (sideNat e) v)).settleAll :=
    congrArg (fun u : State => Host.Outcome.next u.settleAll) (write_accepted hacc _)
  have hmay : ¬ (owner ≥ 8 ∨ s.pfState owner ≠ 0 ∨ (!s.tagSlots tag) = true) ↔ may := by
    simp only [may, not_or, not_le, ge_iff_le, not_not, ne_eq, Bool.not_eq_true', Bool.not_eq_false]
  rw [hexec]
  unfold State.csValueOp
  refine ⟨fun hno => ?_, fun hyes => ?_⟩ <;> dsimp only
  · rw [if_pos (not_not.mp (mt hmay.mp hno))]
    rfl
  · rw [if_neg (hmay.mpr hyes)]
    rfl

/-- Settles O35: one lemma for each command; the load by `loadNext_keeping`. -/
theorem windowsAndCountsAreWritten : Obligations.WindowsAndCountsAreWritten := by
  unfold Obligations.WindowsAndCountsAreWritten
  intro s f e v n
  refine ⟨exec_windowCommit s f e v, exec_winLoad s f e v, fun hnone => ?_, ?_, exec_csValueWrite s f e v⟩
  · change execWinLoadEntry e s = _
    unfold execWinLoadEntry
    rw [hnone]
  · intro b hload loc goOn
    obtain ⟨hwait, hentry⟩ := exec_winLoadEntry s e b hload
    have hgoOn : ∀ (t : State) got, t.loadKeeping .win loc b 16 65536 got (fun s g => s.pendWindow g.1 g.2) = goOn t got :=
      fun t got => rfl
    refine ⟨hwait, fun h => ?_, fun w h => ⟨fun k hbad => ?_, fun hgood => ?_⟩⟩ <;> rw [hentry _ h, hgoOn] <;>
      unfold State.winGot
    · rfl
    · simp only [hbad]
      rfl
    · simp only [hgood]

end Sys2Proof.Machine
end

section
/-! PROOF. The clocks (R325, R328 to R332, R337 to R339): the reference, stretches and down-steps, the clock mode. -/

namespace Sys2Proof.Machine

/-- A field of one bit is its bit. -/
theorem Word.bits_bit (w : Word) (b : Nat) : w.bits b b = b2n (w.bit b) := by
  have hone : b + 1 - b = 1 := by omega
  unfold Word.bits Word.bit b2n
  rw [BitVec.getLsbD, Nat.testBit_eq_decide_div_mod_eq, Nat.shiftRight_eq_div_pow, hone, pow_one]
  rcases Nat.mod_two_eq_zero_or_one (w.toNat / 2 ^ b) with h | h <;> simp [h]

/-- A bit written with the complement of another register's bit differs from it. -/
theorem Word.put_complement (v w : Word) (b : Nat) (hb : b < 32) : (v.put b b (1 - w.bits b b)).bit b = !w.bit b := by
  rw [Word.bits_bit]
  cases w.bit b
  · exact Word.put_bit_one v b hb
  · exact Word.put_bit_zero v b hb

/-- The loss of the reference input, by the source that REF_CTL names (R325). -/
theorem exec_timeRefLoss (s : State) :
    let u := ({ s with time := { s.time with refIn := false, refBack := false, refLost := true } } : State).bump 0x0004 7 0
    let sel := u.fld Loc.glRefCtl 1 0
    (sel = 0 → exec .timeRefLoss s = .next (u.postGlobal 0 0x03 0 0)) ∧ (sel = 1 → exec .timeRefLoss s = .next u) ∧
    (2 ≤ sel → exec .timeRefLoss s = .next (u.postGlobal 2 0x03 0 0)) := by
  intro u sel
  have hexec : exec .timeRefLoss s = execTimeRefLoss s := rfl
  unfold execTimeRefLoss at hexec
  rw [hexec]
  refine ⟨fun h => ?_, fun h => ?_, fun h => ?_⟩ <;> simp only [sel, u] at h
  · simp only [h]
    rfl
  · simp only [h]
    rfl
  · dsimp only
    split
    · omega
    · omega
    · rfl

/-- REF_CTL written: the oscillator serves at once, a present input not in use at the tick (R324, R325). -/
theorem exec_refCtlWrite (s : State) (f : Func) (v : Word) (hacc : s.accepts f Loc.glRefCtl v) :
    let loc := Loc.glRefCtl
    let u := s.put loc v
    (∀ k, formCheck (locFields loc) v = some k → exec (.refCtlWrite f v) s = .next (s.reject f (loc / 4096) (loc % 4096) k)) ∧
    (wellFormedFor loc v →
      (v.bits 1 0 = 1 → exec (.refCtlWrite f v) s = .next
        (State.managed { u.setFlag Loc.glClkSts 2 false with time := { u.time with refBack := false } })) ∧
      (v.bits 1 0 ≠ 1 → exec (.refCtlWrite f v) s = .next
        (State.managed { u with time := { u.time with refBack := u.time.refIn && !u.flag Loc.glClkSts 2 } }))) := by
  intro loc u
  have hexec : exec (.refCtlWrite f v) s = .next (s.settle f loc (s.refCtlOp v)) := congrArg _ (write_accepted hacc _)
  rw [hexec]
  unfold State.refCtlOp wellFormedFor
  refine ⟨fun k hform => ?_, fun hform => ⟨fun h => ?_, fun h => ?_⟩⟩ <;> simp only [loc] at hform <;> simp only [hform]
  · rfl
  · rw [if_pos h]
    rfl
  · rw [if_neg h]
    rfl

/-- A stretch: nothing at depth 0, counted and held in native mode only (R329, R330). -/
theorem exec_stretch (s : State) (r : Fin 40) (d : Fin 5) :
    (d = 0 → exec (.stretch r d) s = .next s) ∧
    (d ≠ 0 → s.meshOn = true → exec (.stretch r d) s = .next (s.vaneDepth r d)) ∧
    (d ≠ 0 → s.meshOn = false → exec (.stretch r d) s = .next ((s.vaneDepth r d).stretchOne r d)) := by
  have hexec : exec (.stretch r d) s = execStretch r d s := rfl
  unfold execStretch at hexec
  rw [hexec]
  have hdepth : d ≠ 0 → ¬ (d.val == 0) = true := fun h h0 => h (Fin.ext (beq_iff_eq.mp h0))
  refine ⟨fun h => if_pos (by rw [h]; rfl), fun h hmesh => ?_, fun h hmesh => ?_⟩ <;> rw [if_neg (hdepth h)]
  · exact if_pos hmesh
  · exact if_neg (Bool.eq_false_iff.mp hmesh)

/-- In mesh mode no region steps down. -/
theorem exec_downStep_mesh (s : State) (r : Fin 40) (deep : Bool) (hmesh : s.meshOn = true) :
    exec (.downStep r deep) s = .next s := if_pos hmesh

/-- Depth 4 held decides a down-step, which acts 16 cycles later, or stays decided when a tick comes before (R331). -/
theorem exec_downStep_deep (s : State) (r : Fin 40) (hnative : s.meshOn = false) (c : Int)
    (hc : ((s.deepDecide r).region r).deepU = some c) :
    let t := s.deepDecide r
    (t.reaches (t.cycleAt r c) → exec (.downStep r true) s = .next ((t.atTime (t.cycleAt r c)).deepStep r)) ∧
    (¬ t.reaches (t.cycleAt r c) → exec (.downStep r true) s = .next t) := by
  intro t
  have hexec : exec (.downStep r true) s = .next (t.takeDeep r) :=
    (if_neg (Bool.eq_false_iff.mp hnative)).trans (if_pos rfl)
  rw [hexec]
  unfold State.takeDeep
  simp only [t, hc]
  refine ⟨fun hreach => ?_, fun hlate => ?_⟩
  · rw [waitCycles_reaches _ _ _ hreach]
  · have hnone : (s.deepDecide r).waitCycles r c = none := waitUntil_none _ _ hlate
    rw [hnone]

/-- A window that reached its limit decides a down-step 16 cycles after its end (R331, R332). -/
theorem exec_downStep_window (s : State) (r : Fin 40) (hnative : s.meshOn = false) :
    (s.stepDue r = none → exec (.downStep r false) s = .next s) ∧
    (∀ c, s.stepDue r = some c → s.reaches (s.cycleAt r c) →
      exec (.downStep r false) s = .next ((s.atTime (s.cycleAt r c)).windowStep r)) := by
  have hexec : exec (.downStep r false) s = execDownStep r false s := rfl
  unfold execDownStep at hexec
  rw [hexec, if_neg (Bool.eq_false_iff.mp hnative), if_neg Bool.false_ne_true]
  exact ⟨fun hnone => by rw [hnone], fun c hc hreach => by simp only [hc, waitCycles_reaches s _ _ hreach]⟩

/-- An emergency lengthens a period of the whole mesh, in mesh mode only (R339). -/
theorem exec_meshEmergency (s : State) (r : Fin 40) :
    (s.meshOn = false → exec (.meshEmergency r) s = .next s) ∧
    (s.meshOn = true →
      let w := (meshOf r).foldl (fun s q => (s.addWrap Loc.glRegStretch 31 0 1 q).holdCycles q 4) (s.vaneDepth r 4)
      let u := (w.modRegion r fun x => { x with emerg := true }).bump 0x0003 0xA r
      exec (.meshEmergency r) s = .next (if (s.region r).emerg = true then u else u.postGlobal 0 0x0A r 0)) :=
  ⟨fun hnative => if_pos (by rw [hnative]; rfl), fun hmesh => if_neg (by rw [hmesh]; decide)⟩

/-- CLK_CTL with MODE changed: refused unless every partition is stopped (R328, R337). -/
theorem exec_clkModeWrite (s : State) (f : Func) (v : Word)
    (hacc : s.accepts f Loc.glClkCtl (v.put 0 0 (1 - s.fld Loc.glClkCtl 0 0))) :
    let w := v.put 0 0 (1 - s.fld Loc.glClkCtl 0 0)
    let loc := Loc.glClkCtl
    let refused := fun k => s.reject f (loc / 4096) (loc % 4096) k
    let u := s.writeFields loc 0 w.toNat none (locFields loc)
    (∀ k, formCheck (locFields loc) w = some k → exec (.clkModeWrite f v) s = .next (refused k)) ∧
    (wellFormedFor loc w →
      (s.allStopped = false → exec (.clkModeWrite f v) s = .next (refused 5)) ∧
      (s.allStopped = true → exec (.clkModeWrite f v) s = .next
        (if u.meshOn = true then (List.range 40).foldl (fun s r => s.setRegN r (w.bits 7 1)) u else u).managed)) := by
  intro w loc refused u
  have hexec : exec (.clkModeWrite f v) s = .next (s.settle f loc (s.clkCtlOp w)) := congrArg _ (write_accepted hacc _)
  have hchanged : (w.bit 0 != s.flag Loc.glClkCtl 0) = true := by
    have hbit : w.bit 0 = !s.flag Loc.glClkCtl 0 := Word.put_complement v (s.get Loc.glClkCtl) 0 (by decide)
    rw [hbit]
    cases s.flag Loc.glClkCtl 0 <;> rfl
  rw [hexec]
  unfold State.clkCtlOp wellFormedFor
  refine ⟨fun k hform => ?_, fun hform => ⟨fun hruns => ?_, fun hstopped => ?_⟩⟩ <;> simp only [loc] at hform <;> simp only [hform]
  · rfl
  · rw [hchanged, hruns]
    rfl
  · rw [hstopped, Bool.not_true, Bool.and_false, if_neg Bool.false_ne_true]
    rfl

/-- Settles O36: one lemma for each command. -/
theorem clocksFollowReferenceAndMode : Obligations.ClocksFollowReferenceAndMode := by
  unfold Obligations.ClocksFollowReferenceAndMode
  refine ⟨fun s => ⟨exec_timeRefLoss s, rfl, fun f v => exec_refCtlWrite s f v⟩, ?_,
    fun s => ⟨fun f v => exec_clkModeWrite s f v, rfl⟩⟩
  intro s r
  obtain ⟨hnative, hmesh⟩ := exec_meshEmergency s r
  refine ⟨exec_stretch s r, exec_downStep_mesh s r, fun hoff => ?_, rfl, rfl, hnative, hmesh⟩
  obtain ⟨hnone, hwindow⟩ := exec_downStep_window s r hoff
  refine ⟨fun c hc => exec_downStep_deep s r hoff c hc, hnone, ?_⟩
  intro c hc at_ u hreach
  exact hwindow c hc hreach

end Sys2Proof.Machine
end

section
/-! PROOF. How time is exchanged (R341 to R351): requests and answers, the West, holdover, estimates of the offset. -/

namespace Sys2Proof.Machine

/-- Nothing is better than the exchange with the smallest delay. -/
theorem bestExchange_least (l : List (Int × Int)) (hl : l ≠ []) :
    ∃ x ∈ l, bestExchange l = some x ∧ ∀ y ∈ l, x.2 ≤ y.2 := by
  induction l with
  | nil => exact absurd rfl hl
  | cons a l ih =>
    by_cases hnil : l = []
    · subst hnil
      exact ⟨a, List.mem_cons_self, rfl, fun y hy => by rw [List.mem_singleton.mp hy]⟩
    · obtain ⟨b, hb, hbest, hleast⟩ := ih hnil
      have hstep : bestExchange (a :: l) = if b.2 < a.2 then some b else some a := by
        unfold bestExchange
        rw [hbest]
      by_cases hlt : b.2 < a.2
      · refine ⟨b, List.mem_cons_of_mem a hb, by rw [hstep, if_pos hlt], fun y hy => ?_⟩
        rcases List.mem_cons.mp hy with rfl | hy
        · exact hlt.le
        · exact hleast y hy
      · refine ⟨a, List.mem_cons_self, by rw [hstep, if_neg hlt], fun y hy => ?_⟩
        rcases List.mem_cons.mp hy with rfl | hy
        · exact le_refl _
        · exact (not_lt.mp hlt).trans (hleast y hy)

/-- The West follows the best exchange of its frame (R343). -/
theorem exec_westTransitExchange (s : State) (l : List WestExchange) :
    ((s.plinth 0).out ≠ 0 ∨ (s.plinth 1).out ≠ 0 ∨ s.time.westAt = s.clk.ticks + 1 →
      exec (.westTransitExchange l) s = .next s) ∧
    ((s.plinth 0).out = 0 → (s.plinth 1).out = 0 → s.time.westAt ≠ s.clk.ticks + 1 →
      let t := s.modTime fun x => { x with westAt := s.clk.ticks + 1 }
      let held := t.modTime fun x => { x with westHeld := true }
      (t.westPlanes = [] → exec (.westTransitExchange l) s = .next
        (if t.time.westHeld = true then held else held.post (plPage 1 0) 0 0x64 0 0)) ∧
      (t.westPlanes ≠ [] →
        (t.westBest l = none → exec (.westTransitExchange l) s = .next t) ∧
        (∀ th de, t.westBest l = some (th, de) → exec (.westTransitExchange l) s = .next
          (t.modTime fun x => { x with westHeld := false, westOfs := th })))) := by
  have hexec : exec (.westTransitExchange l) s = execWestTransitExchange l s := rfl
  unfold execWestTransitExchange at hexec
  rw [hexec]
  refine ⟨fun hno => if_pos hno, ?_⟩
  intro hwest heast hfresh t held
  rw [if_neg (by rintro (h | h | h); exacts [h hwest, h heast, hfresh h])]
  refine ⟨fun hnone => if_pos (List.isEmpty_iff.mpr hnone), fun hplanes => ?_⟩
  dsimp only
  rw [if_neg (mt List.isEmpty_iff.mp hplanes)]
  exact ⟨fun h => by simp only [t] at h; rw [h], fun th de h => by simp only [t] at h; rw [h]⟩

/-- A time request is answered by a joined device, on a port that is up (R347). -/
theorem exec_timeSync (s : State) (port : Fin 32) (m : TimeMsg) :
    (s.portState port ≠ 4 ∨ m.ring = true → exec (.timeSync port m) s = .next s) ∧
    (s.portState port = 4 → m.ring = false →
      let u := s.checkPeriod m.srcDev.toNat m.periodUs
      (u.timeState < 2 → exec (.timeSync port m) s = .next u) ∧
      (2 ≤ u.timeState → exec (.timeSync port m) s = .next (u.sendOrDrop (port / 16)
        (timePkt u 0x29 m.srcDev.toNat (timeFlit u m.t1 u.now256 u.now256 m.exch.toNat u.timePlace.1 u.timePlace.2 0))))) := by
  refine ⟨fun hno => if_pos hno, fun hup hask => ?_⟩
  have hexec : exec (.timeSync port m) s = execTimeSync port m s := rfl
  unfold execTimeSync at hexec
  rw [if_neg (by rintro (h | h); exacts [h hup, Bool.eq_false_iff.mp hask h])] at hexec
  rw [hexec]
  exact ⟨fun hunjoined => if_pos hunjoined, fun hjoined => if_neg (Nat.not_lt.mpr hjoined)⟩

/-- A sender's period that differs is logged once per change (R348). -/
theorem checkPeriod_cases (s : State) (dev us : Nat) :
    (us * 1000 = s.period → s.checkPeriod dev us = s.modTime fun x => { x with period := 0 }) ∧
    (us * 1000 ≠ s.period → s.checkPeriod dev us = if s.time.period = us then s
      else (s.modTime fun x => { x with period := us }).postGlobal 0 0x08 0 (dev + us % 1024 * 65536)) :=
  ⟨fun hsame => if_pos hsame, fun hother => if_neg hother⟩

/-- An exchange without an answer in 100 µs is dropped (R347). -/
theorem exec_exchangeTimeout (s : State) (exch : BitVec 16) :
    let asked := s.time.out.find? fun x => x.num == exch.toNat
    (asked = none → exec (.exchangeTimeout exch) s = .next s) ∧
    (∀ x, asked = some x → s.reaches (x.at_ + 100000) → exec (.exchangeTimeout exch) s = .next
      (((s.atTime (x.at_ + 100000)).modTime fun y => { y with out := y.out.filter fun z => z.num != x.num }).bump 0x0004 3 0)) := by
  intro asked
  have hexec : exec (.exchangeTimeout exch) s = execExchangeTimeout exch s := rfl
  unfold execExchangeTimeout at hexec
  rw [hexec]
  exact ⟨fun hnone => by simp only [asked] at hnone; simp only [hnone],
    fun x hx hreach => by simp only [asked] at hx; simp only [hx, waitUntil_reaches s _ hreach]⟩

/-- A joined device without a valid estimate for 10 ms enters holdover (R350). -/
theorem exec_holdover (s : State) :
    (s.timeState ≠ 2 ∨ s.timeMode = 0 ∨ s.timeRoot = true → exec .holdover s = .next s) ∧
    (s.timeState = 2 → s.timeMode ≠ 0 → s.timeRoot = false →
      let at_ := s.time.valid + 10000000
      s.reaches at_ → exec .holdover s = .next ((((s.atTime at_).setTimeState 3).bump 0x0004 5 0).postGlobal 0 0x04 0 0)) := by
  refine ⟨fun hno => if_pos hno, ?_⟩
  intro hjoined hmode hleaf at_ hreach
  change execHoldover s = _
  unfold execHoldover
  rw [if_neg (by rintro (h | h | h); exacts [h hjoined, hmode h, Bool.eq_false_iff.mp hleaf h]), waitUntil_reaches s _ hreach]

/-- What a device sends every SYNC_US, by its mode (R344 to R346). -/
theorem exec_timeSyncSend (s : State)
    (hsends : ¬(s.timeState = 0 ∨ (s.timeMode = 0 ∧ s.timeRoot = false) ∨ (s.timeMode = 2 ∧ s.timeRoot = true)))
    (t : State) (ht : s.waitUntil s.syncDue = some t) (u : State)
    (hu : (t.modTime fun x => { x with sentAt := some t.clk.elapsed }) = u) :
    (u.timeMode = 2 → exec .timeSyncSend s = .next (if (u.get Loc.glTimeParent).bit 16 = true then
      u.askTime ((u.get Loc.glTimeParent).bits 15 0) none else u)) ∧
    (u.timeMode ≠ 2 → (u.oculus 0).out ≠ 0 → exec .timeSyncSend s = .next u) ∧
    (u.timeMode ≠ 2 → (u.oculus 0).out = 0 →
      let v := (u.askHop 0).askHop 1
      exec .timeSyncSend s = .next (if s.timeRoot = true then (v.ringSend 1 0 v.ownDev).ringSend 0 0 v.ownDev
        else (v.ringForward 0 1).ringForward 1 0)) := by
  subst hu
  have hexec : exec .timeSyncSend s = execTimeSyncSend s := rfl
  unfold execTimeSyncSend at hexec
  simp only [Bool.not_eq_true'] at hexec
  rw [if_neg hsends, ht] at hexec
  rw [hexec]
  refine ⟨fun hcounted => if_pos hcounted, fun hring hout => ?_, fun hring hin => ?_⟩ <;> dsimp only <;> rw [if_neg hring]
  · exact if_pos hout
  · rw [if_neg (not_not.mpr hin)]
    exact (apply_ite _ _ _ _).symm

/-- An unjoined device, a free one and a counted root send nothing. -/
theorem exec_timeSyncSend_silent (s : State)
    (h : s.timeState = 0 ∨ (s.timeMode = 0 ∧ s.timeRoot = false) ∨ (s.timeMode = 2 ∧ s.timeRoot = true)) :
    exec .timeSyncSend s = .next s := if_pos (by simpa using h)

/-- An answer on a port that is not up, or to no exchange. -/
theorem exec_timeSyncResp_none (s : State) (port : Fin 32) (m : TimeMsg) (frac : Fin 256)
    (h : s.portState port ≠ 4 ∨ (s.time.out.find? fun x => x.num == m.exch.toNat) = none) :
    exec (.timeSyncResp port m frac) s = .next s := by
  change execTimeSyncResp port m frac s = _
  unfold execTimeSyncResp
  by_cases hdown : s.portState port ≠ 4
  · rw [if_pos hdown]
  · rw [if_neg hdown, h.resolve_left hdown]

/-- An answer to an exchange: too late, or of a ring neighbour, or of another mode than the counted (R345 to R347). -/
theorem exec_timeSyncResp_ring (s : State) (port : Fin 32) (m : TimeMsg) (frac : Fin 256) (x : Exchange)
    (hup : s.portState port = 4) (hx : (s.time.out.find? fun x => x.num == m.exch.toNat) = some x) (u : State)
    (hu : ((s.checkPeriod m.srcDev.toNat m.periodUs).modTime fun y =>
      { y with out := y.out.filter fun z => z.num != x.num }) = u) (delta : Int)
    (hdelta : ((m.t2 : Int) - x.t1 + (((u.now256 + frac : Nat) : Int) - m.t3)) / 2 = delta) :
    (x.at_ + 100000 < u.clk.elapsed → exec (.timeSyncResp port m frac) s = .next (u.bump 0x0004 3 0)) ∧
    (u.clk.elapsed ≤ x.at_ + 100000 →
      (∀ p, x.ring = some p → exec (.timeSyncResp port m frac) s = .next ((u.bump 0x0004 2 0).modTime fun y =>
        { y with arcs := lmod y.arcs (p % 2) fun z => { z with delay := delta.toNat } })) ∧
      (x.ring = none → (u.bump 0x0004 2 0).timeMode ≠ 2 → exec (.timeSyncResp port m frac) s = .next (u.bump 0x0004 2 0))) := by
  have hexec : exec (.timeSyncResp port m frac) s = execTimeSyncResp port m frac s := rfl
  unfold execTimeSyncResp at hexec
  rw [if_neg (not_not.mpr hup), hx] at hexec
  dsimp only at hexec
  rw [hu, hdelta] at hexec
  rw [hexec]
  refine ⟨fun hlate => if_pos hlate, fun htime => ?_⟩
  rw [if_neg (Nat.not_lt.mpr htime)]
  exact ⟨fun p hp => by rw [hp], fun hnone hmode => by simp only [hnone]; exact if_pos hmode⟩

/-- An answer in counted mode: the best of the latest sixteen exchanges is followed, or joined by (R347, R349). -/
theorem exec_timeSyncResp_counted (s : State) (port : Fin 32) (m : TimeMsg) (frac : Fin 256) (x : Exchange)
    (hup : s.portState port = 4) (hx : (s.time.out.find? fun x => x.num == m.exch.toNat) = some x) (u : State)
    (hu : ((s.checkPeriod m.srcDev.toNat m.periodUs).modTime fun y =>
      { y with out := y.out.filter fun z => z.num != x.num }) = u) (htime : u.clk.elapsed ≤ x.at_ + 100000)
    (hring : x.ring = none) (c : State) (hc : u.bump 0x0004 2 0 = c) (hmode : c.timeMode = 2) (v : State)
    (hv : (c.modTime fun y => { y with
      hist := (((m.t2 : Int) - x.t1 - (((u.now256 + frac : Nat) : Int) - m.t3)) / 2 + c.slewed256,
        ((m.t2 : Int) - x.t1 + (((u.now256 + frac : Nat) : Int) - m.t3)) / 2) :: y.hist |>.take 16
      level := m.hopsRoot + 1, root := m.rootDev.toNat }) = v)
    (th de : Int) (hbest : bestExchange v.time.hist = some (th, de)) (y : State)
    (hy : v.setFld Loc.glTimeDelay 23 0 (wrapNat 24 (de / 16)) = y) :
    (y.timeState ≠ 1 → exec (.timeSyncResp port m frac) s = .next (y.estimate (th - v.slewed256))) ∧
    (y.timeState = 1 → y.time.hist.length < 16 → exec (.timeSyncResp port m frac) s = .next y) ∧
    (y.timeState = 1 → 16 ≤ y.time.hist.length →
      let z := y.estimate (th - v.slewed256)
      exec (.timeSyncResp port m frac) s = .next (z.joinCount ((z.clk.count : Int) + (th - v.slewed256) / 256).toNat)) := by
  have hexec : exec (.timeSyncResp port m frac) s = execTimeSyncResp port m frac s := rfl
  unfold execTimeSyncResp at hexec
  rw [if_neg (not_not.mpr hup), hx] at hexec
  dsimp only at hexec
  rw [hu, if_neg (Nat.not_lt.mpr htime), hring, hc] at hexec
  dsimp only at hexec
  rw [if_neg (not_not.mpr hmode), hv, hbest] at hexec
  dsimp only at hexec
  rw [hy] at hexec
  rw [hexec]
  refine ⟨fun hjoined => if_neg hjoined, fun hjoining hfew => ?_, fun hjoining hmany => ?_⟩ <;> rw [if_pos hjoining]
  · exact if_pos hfew
  · exact if_neg (Nat.not_lt.mpr hmany)

/-- An estimate of the offset is slewed out; the eighth beyond STEP_LIMIT in a row loses the transit (R341, R350, R351). -/
theorem estimate_cases (s : State) (th : Int) (n : Nat)
    (hn : (if s.offFar th = true then s.time.bad + 1 else 0) = n) (u : State)
    (hu : (((s.drawFreq.setSlew th).put Loc.glTimeOfs (BitVec.ofNat 32 (wrapNat 32 (th / 16)))).modTime fun x =>
      { x with bad := n, valid := s.clk.elapsed }) = u) :
    (8 ≤ n → s.estimate th = if u.timeState = 4 then u
      else ((u.setTimeState 4).bump 0x0004 6 0).postGlobal 2 0x05 0 (wrapNat 64 (th / 256))) ∧
    (n < 8 → s.estimate th = if u.timeState = 3 ∨ (u.timeState = 4 ∧ n = 0) then u.setTimeState 2 else u) := by
  have hjudge : s.estimate th = u.judgeOffset th n := by
    subst hu hn
    rfl
  rw [hjudge]
  unfold State.judgeOffset
  refine ⟨fun hlost => if_pos hlost, fun hfew => ?_⟩
  dsimp only
  rw [if_neg (Nat.not_le.mpr hfew)]
  by_cases h3 : u.timeState = 3
  · rw [if_pos h3, if_pos (Or.inl h3)]
  · simp only [h3, if_false, false_or]

/-- Settles O37: one lemma for each command; `bestExchange_least` and `estimate_cases` for what they follow. -/
theorem timeIsExchanged : Obligations.TimeIsExchanged := by
  unfold Obligations.TimeIsExchanged
  refine ⟨?_, ?_, ?_⟩
  · intro s
    obtain ⟨hidle, hholdover⟩ := exec_holdover s
    exact ⟨exec_westTransitExchange s, exec_timeSync s, checkPeriod_cases s, exec_exchangeTimeout s, hidle, hholdover⟩
  · intro s
    refine ⟨exec_timeSyncSend_silent s, ?_, ?_, bestExchange_least⟩
    · intro hsends t u hreach
      exact exec_timeSyncSend s hsends t (waitUntil_reaches s _ hreach) u rfl
    · intro port m frac asked
      refine ⟨exec_timeSyncResp_none s port m frac, ?_⟩
      intro x hup hx u
      obtain ⟨hlate, hinTime⟩ := exec_timeSyncResp_ring s port m frac x hup hx u rfl _ rfl
      refine ⟨hlate, ?_⟩
      intro htime a b c
      obtain ⟨hneighbour, hother⟩ := hinTime htime
      refine ⟨hneighbour, hother, ?_⟩
      intro hring hmode v th de hbest th' y
      exact exec_timeSyncResp_counted s port m frac x hup hx u rfl htime hring c rfl hmode v rfl th de hbest y rfl
  · intro s th far n t u
    have hn : (if s.offFar th = true then s.time.bad + 1 else 0) = n := if_congr decide_eq_true_iff rfl rfl
    exact estimate_cases s th n hn u rfl

end Sys2Proof.Machine
end

section
/-! PROOF. How time is followed and set (R344, R345, R349, R351): the messages of the ring, the arcs, joining. -/

namespace Sys2Proof.Machine

/-- A message of the ring at a device that does not listen (R344). -/
theorem exec_ringTimeMessage_deaf (s : State) (port : Fin 2) (m : TimeMsg) (frac : Fin 256)
    (hdeaf : s.portState port ≠ 4 ∨ s.timeMode ≠ 1 ∨ s.timeRoot = true ∨ s.timeState = 0) :
    exec (.ringTimeMessage port m frac) s = .next s := if_pos hdeaf

/-- A message with too many hops is counted and discarded (R345). -/
theorem exec_ringTimeMessage_far (s : State) (port : Fin 2) (m : TimeMsg) (frac : Fin 256)
    (hears : ¬(s.portState port ≠ 4 ∨ s.timeMode ≠ 1 ∨ s.timeRoot = true ∨ s.timeState = 0)) (hfar : 1023 < m.hopsRoot) :
    exec (.ringTimeMessage port m frac) s = .next (s.bump 0x0004 3 0) := by
  have hexec : exec (.ringTimeMessage port m frac) s = execRingTimeMessage port m frac s := rfl
  unfold execRingTimeMessage at hexec
  rw [hexec, if_neg hears, if_pos hfar]

/-- A message that is recorded: what a joining and a joined device do with it (R344, R345, R349). -/
theorem exec_ringTimeMessage_heard (s : State) (port : Fin 2) (m : TimeMsg) (frac : Fin 256)
    (hears : ¬(s.portState port ≠ 4 ∨ s.timeMode ≠ 1 ∨ s.timeRoot = true ∨ s.timeState = 0)) (hnear : m.hopsRoot ≤ 1023)
    (u : State) (hu : s.checkPeriod m.srcDev.toNat m.periodUs = u) (arc : Nat) (harc : b2n m.arcCcw = arc)
    (off : Int) (hoff : ((m.t1 + (lget {} u.time.arcs port).delay : Nat) : Int) - (u.now256 + frac : Nat) = off)
    (silent : Arc → Bool) (hsilent : (fun a : Arc => a.last == 0 || decide (a.last - 1 + 4 * u.syncNs ≤ u.clk.elapsed)) = silent)
    (v : State) (hv : (u.modTime fun x => { x with arcs := lmod x.arcs arc fun a =>
      { a with offs := ((off + u.slewed256) :: (if silent a = true then [] else a.offs)).take 4, last := u.clk.elapsed + 1,
               fresh := true, resumed := if silent a = true then u.clk.elapsed + 1 else a.resumed, hops := m.hopsRoot + 1,
               root := m.rootDev.toNat } }) = v)
    (a : Arc) (ha : lget {} v.time.arcs arc = a)
    (alive : Nat → Bool) (halive : (fun i => !silent (lget {} v.time.arcs i)) = alive) :
    (v.timeState = 1 → (a.offs.length = 4 ∧ ∀ x ∈ a.offs, ∀ y ∈ a.offs, (x - y).natAbs ≤ 2560) →
      exec (.ringTimeMessage port m frac) s = .next
        ((v.joinCount ((v.clk.count : Int) + off / 256).toNat).showArc (v.shortArc alive arc))) ∧
    (v.timeState = 1 → ¬(a.offs.length = 4 ∧ ∀ x ∈ a.offs, ∀ y ∈ a.offs, (x - y).natAbs ≤ 2560) →
      exec (.ringTimeMessage port m frac) s = .next v) ∧
    (v.timeState ≠ 1 → exec (.ringTimeMessage port m frac) s = .next
      (if (if alive v.arcNow = true then v else (v.changeArc arc).postGlobal 0 0x07 arc 0).arcNow = arc then
        ((if alive v.arcNow = true then v else (v.changeArc arc).postGlobal 0 0x07 arc 0).estimate off).showArc arc
       else if alive v.arcNow = true then v else (v.changeArc arc).postGlobal 0 0x07 arc 0)) := by
  have hexec : exec (.ringTimeMessage port m frac) s = execRingTimeMessage port m frac s := rfl
  unfold execRingTimeMessage at hexec
  dsimp only at hexec
  subst halive
  rw [if_neg hears, if_neg (Nat.not_lt.mpr hnear), hu, harc, hoff] at hexec
  simp only [congrFun hsilent] at hexec
  rw [hv, ha] at hexec
  rw [hexec]
  have hagree : (a.offs.all fun x => a.offs.all fun y => decide ((x - y).natAbs ≤ 2560)) = true ↔
      ∀ x ∈ a.offs, ∀ y ∈ a.offs, (x - y).natAbs ≤ 2560 := by
    simp only [List.all_eq_true, decide_eq_true_eq]
  simp only [hagree]
  refine ⟨fun hjoining hall => ?_, fun hjoining hsome => ?_, fun hjoined => if_neg hjoined⟩
  · rw [if_pos hjoining, if_pos hall]
  · rw [if_pos hjoining, if_neg hsome]

/-- No arc is left outside direct mode, at a root, and before the join (R345). -/
theorem exec_arcs_apart (s : State) (h : s.timeMode ≠ 1 ∨ s.timeRoot = true ∨ s.timeState < 2) :
    exec .arcChange s = .next s ∧ exec .arcReturn s = .next s := ⟨if_pos h, if_pos h⟩

/-- The device changes from a silent arc to the other (R345). -/
theorem exec_arcChange (s : State) (h : ¬(s.timeMode ≠ 1 ∨ s.timeRoot = true ∨ s.timeState < 2)) (at_ : Nat)
    (hat : (lget {} s.time.arcs s.arcNow).last - 1 + 4 * s.syncNs = at_) (hreach : s.reaches at_) :
    exec .arcChange s = .next (((s.atTime at_).changeArc (1 - (s.atTime at_).arcNow)).postGlobal 0 0x07
      (1 - (s.atTime at_).arcNow) 0) := by
  have hexec : exec .arcChange s = execArcChange s := rfl
  unfold execArcChange at hexec
  dsimp only at hexec
  rw [if_neg h, hat, waitUntil_reaches s _ hreach] at hexec
  exact hexec

/-- The device returns to the shorter arc whose messages have resumed (R345). -/
theorem exec_arcReturn (s : State) (h : ¬(s.timeMode ≠ 1 ∨ s.timeRoot = true ∨ s.timeState < 2)) (other : Nat)
    (hother : 1 - s.arcNow = other) (b : Arc) (hb : lget {} s.time.arcs other = b) (shorter : Prop)
    (hshorter : (b.hops < (lget {} s.time.arcs s.arcNow).hops ∨
      (b.hops = (lget {} s.time.arcs s.arcNow).hops ∧ other = 0)) = shorter) :
    (b.last = 0 ∨ ¬shorter → exec .arcReturn s = .next s) ∧
    (b.last ≠ 0 → shorter → s.reaches (b.resumed - 1 + 100000000) →
      exec .arcReturn s = .next ((s.atTime (b.resumed - 1 + 100000000)).changeArc other)) := by
  subst hshorter
  have hexec : exec .arcReturn s = execArcReturn s := rfl
  unfold execArcReturn at hexec
  dsimp only at hexec
  rw [if_neg h, hother, hb] at hexec
  rw [hexec]
  refine ⟨fun hno => if_pos hno, fun hheard hless hreach => ?_⟩
  rw [if_neg (by rintro (h | h); exacts [hheard h, h hless]), waitUntil_reaches s _ hreach]

/-- A join that has taken 1 s is posted once and goes on (R349). -/
theorem exec_joinTimeout (s : State) :
    (s.timeState ≠ 1 ∨ s.time.late = true → exec .joinTimeout s = .next s) ∧
    (s.timeState = 1 → s.time.late = false → s.reaches (s.time.joinAt + 1000000000) → exec .joinTimeout s = .next
      (((s.atTime (s.time.joinAt + 1000000000)).modTime fun x => { x with late := true }).postGlobal 2 0x06 0 0)) := by
  refine ⟨fun hno => if_pos hno, fun hjoining hearly hreach => ?_⟩
  have hexec : exec .joinTimeout s = execJoinTimeout s := rfl
  unfold execJoinTimeout at hexec
  rw [if_neg (by rintro (h | h); exacts [h hjoining, Bool.eq_false_iff.mp hearly h]), waitUntil_reaches s _ hreach] at hexec
  exact hexec

/-- A write of TIME_CTL with REJOIN, by the checks of its form and of the join (R349, R351). -/
theorem timeCtlOp_rejoin (s : State) (w : Word) (hrejoin : w.bit 3 = true) :
    (∀ k, formCheck (locFields Loc.glTimeCtl) w = some k → s.timeCtlOp w = .error k) ∧
    (formCheck (locFields Loc.glTimeCtl) w = none →
      ((s.timeState ≠ 0 ∧ w.bits 2 0 ≠ s.fld Loc.glTimeCtl 2 0) ∨ s.allStopped = false → s.timeCtlOp w = .error 5) ∧
      (¬((s.timeState ≠ 0 ∧ w.bits 2 0 ≠ s.fld Loc.glTimeCtl 2 0) ∨ s.allStopped = false) → s.timeCtlOp w = .ok
        (if (s.put Loc.glTimeCtl (w.put 3 3 0)).timeState ≠ 0 then (s.put Loc.glTimeCtl (w.put 3 3 0)).startJoin
         else s.put Loc.glTimeCtl (w.put 3 3 0)))) := by
  unfold State.timeCtlOp
  refine ⟨fun k hform => by rw [hform], fun hform => ?_⟩
  rw [hform]
  simp only [hrejoin, Bool.true_and, Bool.not_eq_true', bne_iff_ne]
  refine ⟨fun hbars => ?_, fun hfree => ?_⟩
  · by_cases hchange : s.timeState ≠ 0 ∧ w.bits 2 0 ≠ s.fld Loc.glTimeCtl 2 0
    · exact if_pos hchange
    · rw [if_neg hchange, if_pos (hbars.resolve_left hchange)]
  · obtain ⟨hkeep, hstopped⟩ := not_or.mp hfree
    rw [if_neg hkeep, if_neg hstopped]

/-- How a join begins (R349). -/
theorem startJoin_cases (s : State) :
    (s.timeMode = 0 ∨ s.timeRoot = true → s.startJoin = s.joinCount (s.get64 Loc.glTimeSetLo)) ∧
    (s.timeMode ≠ 0 → s.timeRoot = false → s.startJoin = (s.setTimeState 1).modTime fun x =>
      { x with joinAt := s.clk.elapsed, late := false, hist := [], bad := 0,
               arcs := x.arcs.map fun a => { a with offs := [] } }) :=
  ⟨fun hown => if_pos hown,
   fun hmode hleaf => if_neg (by rintro (h | h); exacts [hmode h, Bool.eq_false_iff.mp hleaf h])⟩

/-- A write of a high word that reaches its register and is taken (R488). -/
theorem writeHigh_ok {s : State} {f : Func} {lo : Loc} {v : Word} (hacc : s.accepts f (lo + 4) v) (op : State → WR)
    (t : State) (hop : op s = .ok t) : s.writeHigh f lo v op = t.managed := by
  unfold State.writeHigh
  simp only [hacc.2, hop, Bool.not_true, Bool.and_false, Bool.false_eq_true, if_false]
  rw [write_accepted hacc op, hop, settle_ok]

/-- A write of a high word that its register rejects discards the staged low word (R488). -/
theorem writeHigh_error {s : State} {f : Func} {lo : Loc} {v : Word} (hacc : s.accepts f (lo + 4) v) (op : State → WR)
    (k : Nat) (hop : op s = .error k) :
    s.writeHigh f lo v op = (s.reject f ((lo + 4) / 4096) ((lo + 4) % 4096) k).dropLow lo := by
  unfold State.writeHigh
  simp only [hacc.1, hacc.2, hop, Bool.not_false, Bool.and_true, if_true]
  rw [write_accepted hacc op, hop, settle_error]

/-- TIME_CTL written with REJOIN (R349, R351). -/
theorem exec_rejoin (s : State) (f : Func) (v : Word) (w : Word) (hw : v.put 3 3 1 = w)
    (hacc : s.accepts f Loc.glTimeCtl w) :
    exec (.rejoin f v) s = .next (s.settle f Loc.glTimeCtl (s.timeCtlOp w)) := by
  subst hw
  exact congrArg Host.Outcome.next (write_accepted hacc _)

/-- TIME_SET_HI written (R351, R488). -/
theorem exec_timeSetWrite (s : State) (f : Func) (v : Word) (hacc : s.accepts f (Loc.glTimeSetLo + 4) v) :
    (s.timeState = 0 → exec (.timeSetWrite f v) s = .next
      (s.put64 Loc.glTimeSetLo (s.stagedLow Loc.glTimeSetLo + v.toNat * 2 ^ 32)).managed) ∧
    (s.timeState ≠ 0 → exec (.timeSetWrite f v) s = .next ((s.reject f ((Loc.glTimeSetLo + 4) / 4096)
      ((Loc.glTimeSetLo + 4) % 4096) 5).dropLow Loc.glTimeSetLo)) :=
  ⟨fun hfree => congrArg Host.Outcome.next (writeHigh_ok hacc _ _ (if_neg (not_not.mpr hfree))),
   fun hjoined => congrArg Host.Outcome.next (writeHigh_error hacc _ _ (if_pos hjoined))⟩

/-- Settles O38: messages of the ring, the arcs and the join, each by its own lemma; then the writes of TIME_CTL and
TIME_SET. -/
theorem timeIsFollowedAndSet : Obligations.TimeIsFollowedAndSet := by
  unfold Obligations.TimeIsFollowedAndSet
  refine ⟨fun s => ⟨fun port m frac => ?_, ?_, (exec_joinTimeout s).1, (exec_joinTimeout s).2⟩, fun s f v => ⟨?_, ?_, ?_⟩⟩
  · refine ⟨exec_ringTimeMessage_deaf s port m frac, exec_ringTimeMessage_far s port m frac, fun hears hnear => ?_⟩
    exact exec_ringTimeMessage_heard s port m frac hears hnear _ rfl _ rfl _ rfl _ rfl _ rfl _ rfl _ rfl
  · exact ⟨exec_arcs_apart s, fun h => ⟨exec_arcChange s h _ rfl, exec_arcReturn s h _ rfl _ rfl _ rfl⟩⟩
  · intro w loc hacc refused
    have hexec := exec_rejoin s f v w rfl hacc
    obtain ⟨hbad, hgood⟩ := timeCtlOp_rejoin s w (Word.put_bit_one v 3 (by decide))
    rw [hexec]
    refine ⟨fun k hform => by rw [hbad k hform]; rfl, fun hform => ⟨fun hbars => ?_, fun hfree => ?_⟩⟩
    · rw [(hgood hform).1 hbars]
      rfl
    · rw [(hgood hform).2 hfree]
      rfl
  · exact startJoin_cases s
  · exact exec_timeSetWrite s f v

end Sys2Proof.Machine
end

section
/-! PROOF. The supply, its rails, and the caps that a design power gives (R356 to R363). -/

namespace Sys2Proof.Machine

/-- A fold establishes what one of its steps sets and no step takes away. -/
theorem foldl_establishes {σ ι : Type} (step : σ → ι → σ) (Inv P : σ → Prop) (n : ι)
    (hinv : ∀ t i, Inv t → Inv (step t i)) (hset : ∀ t, Inv t → P (step t n))
    (hkeep : ∀ t i, Inv t → P t → P (step t i)) (l : List ι) (t : σ) (ht : Inv t) (h : n ∈ l ∨ P t) :
    P (l.foldl step t) := by
  induction l generalizing t with
  | nil => exact h.resolve_left List.not_mem_nil
  | cons i l ih =>
    refine ih (step t i) (hinv t i ht) ?_
    rcases h with h | h
    · rcases List.mem_cons.mp h with rfl | h
      · exact Or.inr (hset t ht)
      · exact Or.inl h
    · exact Or.inr (hkeep t i ht h)

/-- A field written reads back, cut to its width. -/
theorem fld_setFld_same (s : State) (loc : Loc) (hi lo v idx : Nat) (hc : s.canon = true) (hhi : hi < 32) (hlo : lo ≤ hi) :
    (s.setFld loc hi lo v idx).fld loc hi lo idx = v % 2 ^ (hi + 1 - lo) := by
  unfold State.fld State.setFld
  rw [get_put_same _ _ _ _ hc, Word.put_bits _ _ _ _ hhi hlo]

/-- A selection below 2^20 keeps the keys of two registers apart. -/
theorem rkey_ne_of_loc {loc loc' idx idx' : Nat} (hne : loc' ≠ loc) (h : idx < 1048576) (h' : idx' < 1048576) :
    rkey loc' idx' ≠ rkey loc idx := by
  unfold rkey
  omega

/-- Two selections of a register have different keys. -/
theorem rkey_ne_of_idx {loc idx idx' : Nat} (hne : idx' ≠ idx) : rkey loc idx' ≠ rkey loc idx := by
  unfold rkey
  omega

/-- An open hot-swap closes (R357). -/
theorem exec_hotSwapClose (s : State) :
    (s.power.closed = true → exec .hotSwapClose s = .next s) ∧
    (s.power.closed = false → exec .hotSwapClose s = .next
      (if s.start.resetN = true then s.modPower fun x => { x with closed := true, rails := 1 }
       else (s.modPower fun x => { x with closed := true, rails := 1 }).startUp)) :=
  ⟨fun h => if_pos h, fun h => if_neg (Bool.eq_false_iff.mp h)⟩

/-- The two voltage warnings, once per crossing while the hot-swap is closed (R356). -/
theorem exec_inputVoltages (s : State) :
    (s.power.closed = false ∨ s.flag Loc.glPwrSts 4 = true → exec .inputUndervoltage s = .next s) ∧
    (s.power.closed = false ∨ s.flag Loc.glPwrSts 5 = true → exec .inputOvervoltageWarn s = .next s) ∧
    (s.power.closed = true → s.flag Loc.glPwrSts 4 = false → exec .inputUndervoltage s = .next
      (((s.setFlag Loc.glPwrSts 4 true).setFlag Loc.glPwrSts 5 false).postGlobal 2 0x16 0 (s.get Loc.glVin).toNat)) ∧
    (s.power.closed = true → s.flag Loc.glPwrSts 5 = false → exec .inputOvervoltageWarn s = .next
      (((s.setFlag Loc.glPwrSts 5 true).setFlag Loc.glPwrSts 4 false).postGlobal 0 0x17 0 (s.get Loc.glVin).toNat)) := by
  have hquiet : ∀ b, s.power.closed = false ∨ s.flag Loc.glPwrSts b = true →
      (!s.power.closed || s.flag Loc.glPwrSts b) = true := fun b h => by
    rcases h with h | h <;> simp only [h, Bool.not_false, Bool.true_or, Bool.or_true]
  have hcrosses : ∀ b, s.power.closed = true → s.flag Loc.glPwrSts b = false →
      ¬(!s.power.closed || s.flag Loc.glPwrSts b) = true := fun b hclosed h => by
    simp only [hclosed, h, Bool.not_true, Bool.or_self, Bool.false_eq_true, not_false_iff]
  exact ⟨fun h => if_pos (hquiet 4 h), fun h => if_pos (hquiet 5 h), fun hclosed h => if_neg (hcrosses 4 hclosed h),
    fun hclosed h => if_neg (hcrosses 5 hclosed h)⟩

/-- The hot-swap opens at a power fail and at the current limit (R357, R358). -/
theorem exec_powerFail (s : State) (u : State)
    (hu : s.postGlobal 3 0x18 0 ((s.get Loc.glVin).toNat + 2 ^ 32 * (s.get Loc.glIin).toNat) = u) (v : State)
    (hv : (if u.holder.isSome = true then u.saveLog true else u) = v) :
    (s.power.closed = false → exec .powerFail s = .next s ∧ exec .inputCurrentLimit s = .next s) ∧
    (s.power.closed = true →
      exec .powerFail s = .next (v.keepPins v.bare) ∧ exec .inputCurrentLimit s = .next (v.keepPins v.bare)) := by
  have hopen : s.power.closed = false → s.powerFail = s := fun h => if_pos (by rw [h]; rfl)
  have hcloses : s.power.closed = true → s.powerFail = v.keepPins v.bare := fun h => by
    unfold State.powerFail
    rw [h, hu]
    dsimp only
    rw [hv]
    rfl
  exact ⟨fun h => ⟨congrArg Host.Outcome.next (hopen h), congrArg Host.Outcome.next (hopen h)⟩,
    fun h => ⟨congrArg Host.Outcome.next (hcloses h), congrArg Host.Outcome.next (hcloses h)⟩⟩

/-- Words put under several selections change the register file only. -/
theorem foldl_put_rf (loc : Loc) (f : Nat → Word) (l : List Nat) (t : State) :
    ∃ r, l.foldl (fun u i => u.put loc (f i) i) t = { t with rf := r } := by
  induction l generalizing t with
  | nil => exact ⟨t.rf, rfl⟩
  | cons i l ih =>
    obtain ⟨r, hr⟩ := ih (t.put loc (f i) i)
    exact ⟨r, hr⟩

/-- Words put under several selections read back. -/
theorem foldl_put_get (loc : Loc) (f : Nat → Word) (l : List Nat) (t : State) (hc : t.canon = true) (i : Nat) (hi : i ∈ l) :
    (l.foldl (fun u j => u.put loc (f j) j) t).get loc i = f i := by
  refine foldl_establishes (fun u j => u.put loc (f j) j) (fun u => u.canon = true) (fun u => u.get loc i = f i) i
    (fun u j hu => put_canon u _ _ _ hu) (fun u hu => get_put_same u _ _ _ hu) (fun u j hu h => ?_) l t hc (Or.inl hi)
  by_cases hij : i = j
  · subst hij
    exact get_put_same u _ _ _ hu
  · rw [get_put_other u _ _ _ _ _ hu (rkey_ne_of_idx hij), h]

/-- The pins are kept in the register file only. -/
theorem keepPins_rf (s t : State) : ∃ r, s.keepPins t = { t with rf := r } := by
  unfold State.keepPins
  dsimp only
  split
  · obtain ⟨r, hr⟩ := foldl_put_rf Loc.glSbSts (fun i => s.get Loc.glSbSts i &&& 3) (List.range 10)
      (t.put Loc.glPwrCfg (s.get Loc.glPwrCfg))
    exact ⟨r, hr⟩
  · exact foldl_put_rf Loc.glSbSts (fun i => s.get Loc.glSbSts i &&& 3) (List.range 10) t

/-- The filtered level of an input is kept (R358, Table HS-10). -/
theorem keepPins_level (s t : State) (i : Nat) (hi : i < 10) (hc : t.canon = true) :
    (s.keepPins t).fld Loc.glSbSts 1 0 i = s.fld Loc.glSbSts 1 0 i := by
  have hword : (s.keepPins t).get Loc.glSbSts i = s.get Loc.glSbSts i &&& 3 := by
    unfold State.keepPins
    dsimp only
    refine foldl_put_get Loc.glSbSts (fun j => s.get Loc.glSbSts j &&& 3) (List.range 10) _ ?_ i (List.mem_range.mpr hi)
    split
    · exact put_canon t _ _ _ hc
    · exact hc
  unfold State.fld
  rw [hword]
  generalize s.get Loc.glSbSts i = w
  unfold Word.bits
  rw [BitVec.toNat_and, show BitVec.toNat (3 : Word) = 2 ^ 2 - 1 from rfl, Nat.and_two_pow_sub_one_eq_mod]
  exact Nat.mod_mod _ _

/-- At most 16 records are saved (R451). -/
theorem saveLog_length (s : State) (waits : Bool) : (s.saveLog waits).faults.saved.length ≤ 16 := by
  unfold State.saveLog
  dsimp only [State.modFaults]
  rw [List.length_drop]
  omega

/-- A rail that is not up, or with the hot-swap open, cannot fail (R360). -/
theorem exec_railFail_none (s : State) (r : Fin 85) (mv : BitVec 32) (h : s.power.closed = false ∨ s.railUp r = false) :
    exec (.railFail r mv) s = .next s :=
  if_pos (by rcases h with h | h <;> simp only [h, Bool.not_false, Bool.true_or, Bool.or_true])

theorem sideNat_le_one (e : Side) : sideNat e ≤ 1 := by cases e <;> decide

/-- What a failed rail supplies stops (R360). -/
theorem exec_railFail (s : State) (r : Fin 85) (mv : BitVec 32) (hclosed : s.power.closed = true) (hup : s.railUp r = true)
    (u : State) (hu : ((s.postGlobal (if 4 ≤ r.val ∧ r.val ≤ 9 then 3 else 2) 0x14 r mv.toNat).bump 6 5 0).modPower (fun p =>
      { p with railFailed := p.railFailed ++ [r.val] }) = u) :
    (r.val = 0 ∨ r.val = 3 → exec (.railFail r mv) s = .next u.powerFail) ∧
    (∀ e : Side, r.val = 1 + sideNat e → exec (.railFail r mv) s = .next (u.belfryStop (sideNat e) 0x14)) ∧
    (∀ e : Side, r.val = 4 + sideNat e → exec (.railFail r mv) s = .next (u.oculusFatal (sideNat e) 0x14).settleAll) ∧
    (∀ e : Side, (r.val = 6 + sideNat e ∨ r.val = 8 + sideNat e) →
      exec (.railFail r mv) s = .next (u.wantHalve (sideNat e) 0x14)) ∧
    (10 ≤ r.val ∧ r.val ≤ 12 → exec (.railFail r mv) s = .next u) ∧
    (∀ (g : Fin 8) (k : Fin 5), r.val = 13 + 8 * k + g → exec (.railFail r mv) s = .next
      ((((List.range 48).foldl (fun v ch => v.channelFail g ch) u).gateRetry g).settleAll)) ∧
    (∀ n : Fin 16, r.val = 53 + n → exec (.railFail r mv) s = .next (u.spireDown n).settleAll) ∧
    (∀ n : Fin 16, r.val = 69 + n → exec (.railFail r mv) s = .next ((u.spireDown n).spireBlank n).settleAll) := by
  have hexec : exec (.railFail r mv) s = execRailFail r mv s := rfl
  unfold execRailFail State.railLog at hexec
  dsimp only at hexec
  rw [hu, if_neg (by simp only [hclosed, hup, Bool.not_true, Bool.or_self, Bool.false_eq_true, not_false_iff])] at hexec
  rw [hexec]
  refine ⟨fun h => if_pos h, fun e h => ?_, fun e h => ?_, fun e h => ?_, fun h => ?_, fun g k h => ?_, fun n h => ?_,
    fun n h => ?_⟩
  · have he := sideNat_le_one e
    rw [if_neg (by omega), if_pos (by omega), show r.val - 1 = sideNat e by omega]
  · have he := sideNat_le_one e
    rw [if_neg (by omega), if_neg (by omega), if_pos (by omega), show r.val - 4 = sideNat e by omega]
  · have he := sideNat_le_one e
    rw [if_neg (by omega), if_neg (by omega), if_neg (by omega), if_pos (by omega), show r.val % 2 = sideNat e by omega]
  · rw [if_neg (by omega), if_neg (by omega), if_neg (by omega), if_neg (by omega), if_pos (by omega)]
  · have hg := g.isLt
    have hk := k.isLt
    rw [if_neg (by omega), if_neg (by omega), if_neg (by omega), if_neg (by omega), if_neg (by omega), if_pos (by omega),
      show (r.val - 13) % 8 = g.val by omega]
  · have hn := n.isLt
    rw [if_neg (by omega), if_neg (by omega), if_neg (by omega), if_neg (by omega), if_neg (by omega), if_neg (by omega),
      if_pos (by omega), show r.val - 53 = n.val by omega]
  · rw [if_neg (by omega), if_neg (by omega), if_neg (by omega), if_neg (by omega), if_neg (by omega), if_neg (by omega),
      if_neg (by omega), show r.val - 69 = n.val by omega]

/-- A failed bus converter leaves the other (R361). -/
theorem exec_busConverterFail (s : State) (b : Bool) :
    (s.power.closed = false ∨ s.flag Loc.glPwrSts (b2n b) = false → exec (.busConverterFail b) s = .next s) ∧
    (s.power.closed = true → s.flag Loc.glPwrSts (b2n b) = true → exec (.busConverterFail b) s = .next
      ((((s.setFlag Loc.glPwrSts (b2n b) false).setFlag Loc.glPwrSts 2 true).setCaps 900).postGlobal 2 0x15 (b2n b) 0)) :=
  ⟨fun h => if_pos (by rcases h with h | h <;> simp only [h, Bool.not_false, Bool.true_or, Bool.or_true]),
   fun hclosed hup => if_neg (by simp only [hclosed, hup, Bool.not_true, Bool.or_self, Bool.false_eq_true, not_false_iff])⟩

/-- The cap of a design power (R362). -/
theorem capOf_eq_floor (w : Nat) (h : 900 ≤ w) : (capOf w : Int) = ⌊4 * ((0.8875 : Rat) * w - 540) / 16⌋ := by
  have hquot : 4 * ((0.8875 : Rat) * w - 540) / 16 = (((71 * w - 43200 : Nat) : Int) : Rat) / ((320 : Nat) : Rat) := by
    rw [Int.cast_natCast, Nat.cast_sub (by omega)]
    push_cast
    ring
  rw [hquot, Rat.floor_intCast_div_natCast]
  rfl

/-- The cap of a design power fits its field. -/
theorem capOf_lt (w : Nat) (h : w ≤ 1700) : capOf w < 1024 := by
  unfold capOf
  omega

/-- The limit of a stack is written into the register file only. -/
theorem setLimit_canon (s : State) (n : Nat) (hc : s.canon = true) : (s.setLimit n).canon = true := put_canon s _ _ _ hc

/-- Every other register reads as before a limit is set. -/
theorem get_setLimit_other (s : State) (n : Nat) (hc : s.canon = true) (loc : Loc) (idx : Nat)
    (hloc : loc ≠ Loc.spStackLimit n) (hidx : idx < 1048576) : (s.setLimit n).get loc idx = s.get loc idx :=
  get_put_other s _ _ _ _ _ hc (rkey_ne_of_loc hloc (by decide) hidx)

/-- The limit of a stack: the larger of 56 and of its cap less the larger of its reductions (R363). -/
theorem fld_setLimit (s : State) (n : Nat) (hc : s.canon = true) :
    (s.setLimit n).fld (Loc.spStackLimit n) 9 0 = max (s.fld (Loc.spStackCap n) 9 0 *
      (100 - max (s.fld Loc.glTsSts 22 16 n) (s.fld Loc.glStackRed 6 0 n)) / 100) 56 := by
  unfold State.setLimit
  dsimp only
  rw [fld_setFld_same _ _ _ _ _ _ hc (by decide) (by decide)]
  have hcap : s.fld (Loc.spStackCap n) 9 0 < 1024 := Nat.mod_lt _ (by decide)
  have hless : s.fld (Loc.spStackCap n) 9 0 * (100 - max (s.fld Loc.glTsSts 22 16 n) (s.fld Loc.glStackRed 6 0 n)) ≤
      1023 * 100 := Nat.mul_le_mul (by omega) (Nat.sub_le _ _)
  exact Nat.mod_eq_of_lt (by omega)

/-- The register of a cap is that of no limit. -/
theorem spStackCap_ne_limit (n m : Nat) : Loc.spStackCap n ≠ Loc.spStackLimit m := by
  change (1032 + 64 * n) * 4096 + 64 ≠ (1032 + 64 * m) * 4096 + 68
  omega

/-- The caps of two stacks are two registers. -/
theorem spStackCap_ne {n m : Nat} (h : n ≠ m) : Loc.spStackCap n ≠ Loc.spStackCap m := by
  change (1032 + 64 * n) * 4096 + 64 ≠ (1032 + 64 * m) * 4096 + 64
  omega

/-- A design power gives every stack its cap (R362). -/
theorem fld_setCaps (s : State) (w n : Nat) (hn : n < 16) (hc : s.canon = true) (hw : w ≤ 1700) :
    (s.setCaps w).fld (Loc.spStackCap n) 9 0 = capOf w := by
  have hset : ∀ u : State, u.canon = true → ∀ i,
      ((u.setFld (Loc.spStackCap i) 9 0 (capOf w)).setLimit i).fld (Loc.spStackCap i) 9 0 = capOf w := by
    intro u hu i
    have hcap := fld_setFld_same u (Loc.spStackCap i) 9 0 (capOf w) 0 hu (by decide) (by decide)
    have hkept : ((u.setFld (Loc.spStackCap i) 9 0 (capOf w)).setLimit i).fld (Loc.spStackCap i) 9 0 =
        (u.setFld (Loc.spStackCap i) 9 0 (capOf w)).fld (Loc.spStackCap i) 9 0 :=
      congrArg (fun v : Word => v.bits 9 0) (get_setLimit_other _ i (put_canon u _ _ _ hu) (Loc.spStackCap i) 0
        (spStackCap_ne_limit _ _) (by decide))
    exact hkept.trans (hcap.trans (Nat.mod_eq_of_lt (capOf_lt w hw)))
  unfold State.setCaps
  refine foldl_establishes (fun u i => (u.setFld (Loc.spStackCap i) 9 0 (capOf w)).setLimit i) (fun u => u.canon = true)
    (fun u => u.fld (Loc.spStackCap n) 9 0 = capOf w) n
    (fun u i hu => setLimit_canon _ _ (put_canon u _ _ _ hu)) (fun u hu => hset u hu n) (fun u i hu h => ?_) _ _ hc
    (Or.inl (List.mem_range.mpr hn))
  by_cases hni : n = i
  · subst hni
    exact hset u hu n
  · rw [← h]
    exact congrArg (fun v : Word => v.bits 9 0)
      ((get_setLimit_other _ i (put_canon u _ _ _ hu) (Loc.spStackCap n) 0
        (spStackCap_ne_limit _ _) (by decide)).trans
        (get_put_other u _ _ _ _ _ hu (rkey_ne_of_loc (spStackCap_ne hni) (by decide) (by decide))))

/-- A state that differs in the register file only. -/
theorem frame_of_rf (s : State) (r : Tab Word) : Frame [.regs] s { s with rf := r } := by
  intro p _ hp
  cases p
  case regs => simp at hp
  all_goals simp only [Piece.same, State.memByte, implies_true, and_self]

/-- Settles O39: the supply, the rails and the caps, each by its own lemma. -/
theorem supplyAndRails : Obligations.SupplyAndRails := by
  unfold Obligations.SupplyAndRails
  refine ⟨fun s => ?_, fun s => ⟨fun r mv => ⟨exec_railFail_none s r mv, fun hclosed hup => ?_⟩, exec_busConverterFail s⟩, ?_⟩
  · obtain ⟨hunder, hover, hunders, hovers⟩ := exec_inputVoltages s
    obtain ⟨hopen, hcloses⟩ := exec_powerFail s _ rfl _ rfl
    refine ⟨(exec_hotSwapClose s).1, (exec_hotSwapClose s).2, rfl, hunder, hover, hopen,
      fun hclosed => ⟨hunders hclosed, hovers hclosed, hcloses hclosed⟩, ?_, saveLog_length s⟩
    have hlevel := fun i : Fin 10 => keepPins_level s s.bare i i.isLt (by rfl)
    obtain ⟨r, hr⟩ := keepPins_rf s s.bare
    rw [hr] at hlevel ⊢
    exact ⟨rfl, rfl, rfl, rfl, rfl, rfl, rfl, rfl, rfl, rfl, rfl, rfl, rfl, hlevel⟩
  · exact exec_railFail s r mv hclosed hup _ rfl
  · exact ⟨fun w hw _ => capOf_eq_floor w hw, fun s w n hc _ hw => fld_setCaps s w n n.isLt hc hw,
      fun s n hc => ⟨fld_setLimit s n hc, get_setLimit_other s n hc, frame_of_rf s _⟩⟩

end Sys2Proof.Machine
end

section
/-! PROOF. Power and temperature (R364 to R370, R502): the guard of the module, the sensors, the reductions. -/

namespace Sys2Proof.Machine

/-- A stack over its limit (R364). -/
theorem exec_stackOverrun (s : State) (n : Fin 16) :
    ((s.spire n).out ≠ 0 → exec (.stackOverrun n) s = .next s) ∧
    ((s.spire n).out = 0 →
      let o := s.spireOwner n
      let u := ((s.setFlag Loc.glStackRed 8 true n).bump 6 4 n 1 o).bump (spPage n 8) 4 0 1 o
      (n.val ∈ u.power.overLog → exec (.stackOverrun n) s = .next u) ∧
      (n.val ∉ u.power.overLog → exec (.stackOverrun n) s = .next
        ((u.modPower fun x => { x with overLog := n.val :: x.overLog }).postGlobal 0 0x19 n 0 (some o)))) := by
  have hexec : exec (.stackOverrun n) s = execStackOverrun n s := rfl
  unfold execStackOverrun at hexec
  dsimp only at hexec
  rw [hexec]
  refine ⟨fun hout => if_pos (bne_iff_ne.mpr hout), fun hin => ?_⟩
  intro o u
  rw [if_neg (by rw [hin]; decide)]
  exact ⟨fun h => if_pos (List.contains_iff_mem.mpr h), fun h => if_neg (mt List.contains_iff_mem.mp h)⟩

/-- How the guard judges a sample (R365). -/
theorem judgeGuard_cases (w : State) (now g : Nat) (hg : w.fld Loc.glPwrGuard 10 0 = g) (x : State)
    (hx : (w.modPower fun x => { x with lowAt := w.sinceWhen (decide (now + 60 < g)) x.lowAt }) = x) :
    (now ≤ g → w.judgeGuard now = x.modPower fun x => { x with guard := none }) ∧
    (g < now → x.nextOf x.power.guard 100000 ≤ x.clk.elapsed → w.judgeGuard now =
      (x.modPower fun y => { y with guard := some x.clk.elapsed }).setGuard (min 75 (x.fld Loc.glStackRed 6 0 0 + 5))) ∧
    (g < now → x.clk.elapsed < x.nextOf x.power.guard 100000 → w.judgeGuard now = x) := by
  unfold State.judgeGuard
  dsimp only
  rw [hg, hx]
  refine ⟨fun h => if_pos h, fun h hdue => ?_, fun h hearly => ?_⟩
  · rw [if_neg (Nat.not_le.mpr h), if_pos hdue]
  · rw [if_neg (Nat.not_le.mpr h), if_neg (Nat.not_le.mpr hearly)]

/-- A sample of the input while the hot-swap is closed is taken at its time (R502). -/
theorem exec_inputMonitorSample (s : State) (v i : Nat) :
    (s.power.closed = false → exec (.inputMonitorSample v i) s = .next s) ∧
    (s.power.closed = true → ∀ t, s.waitUntil (s.nextOf s.power.sampledAt 1000) = some t →
      exec (.inputMonitorSample v i) s = .next (t.inputSample v i)) := by
  have hexec : exec (.inputMonitorSample v i) s = execInputMonitorSample v i s := rfl
  unfold execInputMonitorSample at hexec
  rw [hexec]
  exact ⟨fun h => if_pos (by rw [h]; rfl), fun h t ht => by rw [h, ht]; rfl⟩

/-- What a sample of the input shows before the guard judges it (R502). -/
theorem inputSample_judges (t : State) (v i : Nat) (l : List (Nat × Nat)) (hl : ((v, i) :: t.power.samples).take 100 = l)
    (now : Nat) (hnow : (l.map fun e => e.1 * e.2).sum / (10000 * max 1 l.length) = now) (u : State)
    (hu : ((t.modPower fun x => { x with samples := l, sampledAt := some t.clk.elapsed }).setFld Loc.glVin 13 0
      (meanOf (·.1) l)).setFld Loc.glIin 13 0 (meanOf (·.2) l) = u) (w : State)
    (hw : (u.setFld Loc.glPin 11 0 now).setFld Loc.glPin 27 16 (max (u.fld Loc.glPin 27 16) (now % 4096)) = w) :
    t.inputSample v i = w.judgeGuard now := by
  unfold State.inputSample
  dsimp only
  rw [hl, hnow, hu, hw]

/-- The guard gives back a point, or nothing is due (R365). -/
theorem exec_guardRecoveryStep (s : State) :
    (s.fld Loc.glStackRed 6 0 0 = 0 ∨ s.power.lowAt = none → exec .guardRecoveryStep s = .next s) ∧
    (s.fld Loc.glStackRed 6 0 0 ≠ 0 → ∀ t0 : Nat, s.power.lowAt = some t0 → s.reaches (t0 + 1000000) →
      let t := s.atTime (t0 + 1000000)
      exec .guardRecoveryStep s = .next
        ((t.modPower fun x => { x with lowAt := some t.clk.elapsed }).setGuard (t.fld Loc.glStackRed 6 0 0 - 1))) := by
  have hexec : exec .guardRecoveryStep s = execGuardRecoveryStep s := rfl
  unfold execGuardRecoveryStep at hexec
  rw [hexec]
  refine ⟨fun h => ?_, fun hred t0 hlow hreach => ?_⟩
  · rcases h with h | h
    · rcases hlow : s.power.lowAt with _ | t0
      · rfl
      · exact if_pos h
    · rw [h]
  · rw [hlow]
    dsimp only
    rw [if_neg hred, waitUntil_reaches s _ hreach]

/-- A sample of the sensors while the hot-swap is closed (R366). -/
theorem exec_sensorSample (s : State) (t : List (Option Int)) :
    (s.power.closed = false → exec (.sensorSample t) s = .next s) ∧
    (s.power.closed = true → ∀ v, s.waitUntil (s.nextOf s.power.sensedAt 20000) = some v → ∀ u,
      (v.modPower fun p => { p with sensedAt := some v.clk.elapsed }) = u → exec (.sensorSample t) s = .next
        ((List.range 24).foldl (fun (v : State) u => v.redRise u)
          ((t.take 30).zipIdx.foldl (fun (v : State) e => v.senseOne e.2 e.1) u)).coolDown.settleAll) := by
  have hexec : exec (.sensorSample t) s = execSensorSample t s := rfl
  unfold execSensorSample at hexec
  rw [hexec]
  refine ⟨fun h => if_pos (by rw [h]; rfl), fun h v hv u hu => ?_⟩
  rw [if_neg (by rw [h]; decide), hv]
  dsimp only
  rw [hu]

/-- A sensor that fails is logged and holds its reductions at 25% (R367). -/
theorem failSensor_eq (s : State) (i : Nat) : s.failSensor i =
    (List.range 24).foldl (fun (s : State) u => if i ∈ feeds u then s.setRed u 25 else s)
      (((s.setFlag Loc.glTsVal 16 true i).setFld Loc.glTsSts 3 0 0 i).postGlobal 2 0x13 i 0) := by
  unfold State.failSensor
  simp only [List.contains_iff_mem]

/-- A sensor's part of a sample (R367). -/
theorem senseOne_cases (s : State) (i : Nat) :
    (s.sensorFailed i = true → ∀ x, s.senseOne i x = s) ∧
    (s.sensorFailed i = false → s.senseOne i none = s.failSensor i ∧
      (∀ x : Int, (x < -2560 ∨ 9600 < x) → s.senseOne i (some x) = s.failSensor i) ∧
      (∀ x : Int, -2560 ≤ x → x ≤ 9600 → s.senseOne i (some x) = s.sampleSensor i x)) := by
  unfold State.senseOne
  refine ⟨fun h x => if_pos h, fun h => ?_⟩
  simp only [h, Bool.false_eq_true, if_false, true_and]
  exact ⟨fun x hx => if_pos hx, fun x hlow hhigh => if_neg (by omega)⟩

/-- Some sensor that feeds a reduction has failed. -/
theorem feeds_failed_iff (s : State) (u : Nat) :
    (feeds u).any (fun i => s.sensorFailed i) = true ↔ ∃ i ∈ feeds u, s.sensorFailed i = true := List.any_eq_true

/-- The rise of a reduction at a sample (R370). -/
theorem redRise_cases (s : State) (u : Nat) (t : State)
    (ht : (s.modPower fun p =>
      { p with cool := lmod p.cool u (s.sinceWhen (decide (∀ i ∈ feeds u, s.level i = 0))) }) = t) :
    ((∃ i ∈ feeds u, s.sensorFailed i = true) → s.redRise u = s) ∧
    ((¬∃ i ∈ feeds u, s.sensorFailed i = true) → (¬∃ i ∈ feeds u, s.level i = 2) →
      s.redRise u = t.modPower fun p => { p with rise := p.rise.set u none }) ∧
    ((¬∃ i ∈ feeds u, s.sensorFailed i = true) → (∃ i ∈ feeds u, s.level i = 2) →
      t.clk.elapsed < t.nextOf (lget none t.power.rise u) 100000 → s.redRise u = t) ∧
    ((¬∃ i ∈ feeds u, s.sensorFailed i = true) → (∃ i ∈ feeds u, s.level i = 2) →
      t.nextOf (lget none t.power.rise u) 100000 ≤ t.clk.elapsed → s.redRise u =
        (t.modPower fun p => { p with rise := p.rise.set u (some t.clk.elapsed) }).setRed u
          (min 75 (t.fld Loc.glTsSts 22 16 u + 5))) := by
  have hact : (feeds u).any (fun i => s.level i == 2) = true ↔ ∃ i ∈ feeds u, s.level i = 2 := by
    simp only [List.any_eq_true, beq_iff_eq]
  have hbelow : (feeds u).all (fun i => s.level i == 0) = decide (∀ i ∈ feeds u, s.level i = 0) := by
    rw [Bool.eq_iff_iff, decide_eq_true_iff, List.all_eq_true]
    simp only [beq_iff_eq]
  unfold State.redRise
  dsimp only
  rw [hbelow]
  refine ⟨fun hbad => if_pos ((feeds_failed_iff s u).mpr hbad), fun hgood hcalm => ?_, fun hgood hhot hearly => ?_,
    fun hgood hhot hdue => ?_⟩ <;> rw [if_neg (mt (feeds_failed_iff s u).mp hgood)]
  · subst ht
    rw [Bool.eq_false_iff.mpr (mt hact.mp hcalm)]
    rfl
  · rw [hact.mpr hhot]
    simp only [if_true, Bool.true_and, decide_eq_true_eq]
    rw [ht, if_neg (Nat.not_le.mpr hearly)]
  · rw [hact.mpr hhot]
    simp only [if_true, Bool.true_and, decide_eq_true_eq]
    rw [ht, if_pos hdue]

/-- The fall of a reduction (R370). -/
theorem redFall_cases (s : State) (u : Nat) :
    (lget none s.power.cool u = none ∨ s.fld Loc.glTsSts 22 16 u = 0 ∨ (∃ i ∈ feeds u, s.sensorFailed i = true) →
      s.redFall u = s) ∧
    (∀ t0, lget none s.power.cool u = some t0 → s.fld Loc.glTsSts 22 16 u ≠ 0 →
      (¬∃ i ∈ feeds u, s.sensorFailed i = true) → s.redFall u = if s.clk.elapsed < t0 + 1000000 then s
        else (s.modPower fun p => { p with cool := p.cool.set u (some s.clk.elapsed) }).setRed u
          (s.fld Loc.glTsSts 22 16 u - 1)) := by
  unfold State.redFall
  refine ⟨fun h => ?_, fun t0 ht0 hred hgood => ?_⟩
  · rcases hcool : lget none s.power.cool u with _ | t0
    · rfl
    · rw [hcool] at h
      refine if_pos ?_
      rcases h with h | h | h
      · cases h
      · exact Or.inl h
      · exact Or.inr (Or.inl ((feeds_failed_iff s u).mpr h))
  · rw [ht0]
    dsimp only
    by_cases hearly : s.clk.elapsed < t0 + 1000000
    · rw [if_pos (Or.inr (Or.inr hearly)), if_pos hearly]
    · rw [if_neg hearly, if_neg (by rintro (h | h | h); exacts [hred h, hgood ((feeds_failed_iff s u).mp h), hearly h])]

/-- Reductions fall when the next one is due (R370). -/
theorem exec_throttleRecoveryStep (s : State) :
    (s.fallDue = none → exec .throttleRecoveryStep s = .next s) ∧
    (∀ at_ : Nat, s.fallDue = some at_ → s.reaches at_ → exec .throttleRecoveryStep s = .next
      ((List.range 24).foldl (fun (v : State) u => v.redFall u) (s.atTime at_))) := by
  have hexec : exec .throttleRecoveryStep s = execThrottleRecoveryStep s := rfl
  unfold execThrottleRecoveryStep at hexec
  rw [hexec]
  refine ⟨fun h => by rw [h]; rfl, fun at_ h hreach => ?_⟩
  rw [h, Option.bind_some, waitUntil_reaches s _ hreach]

/-- A tripped gatehouse resumes after 10 ms below act. -/
theorem exec_gatehouseTripResume (s : State) (g : Fin 8) :
    ((s.gate g).trip = false ∨ lget none s.power.below g = none → exec (.gatehouseTripResume g) s = .next s) ∧
    (∀ t0 : Nat, (s.gate g).trip = true → lget none s.power.below g = some t0 → s.reaches (t0 + 10000000) →
      exec (.gatehouseTripResume g) s = .next
        (((s.atTime (t0 + 10000000)).modGate g fun x => { x with trip := false }).gateRetry g)) := by
  have hexec : exec (.gatehouseTripResume g) s = execGatehouseTripResume g s := rfl
  unfold execGatehouseTripResume at hexec
  rw [hexec]
  refine ⟨fun h => ?_, fun t0 htrip hbelow hreach => ?_⟩
  · by_cases htrip : (s.gate g).trip = false
    · rw [htrip]
      rfl
    · rw [h.resolve_left htrip]
      exact ite_self _
  · rw [htrip, hbelow, Option.bind_some, waitUntil_reaches s _ hreach]
    rfl

/-- A tripped plinth is judged again 10 ms after its trip (Table PW-5). -/
theorem exec_plinthTripFence (s : State) (e : Side) (i : Nat) (hi : sideNat e = i) (trip : Option (Nat × Nat))
    (htrip : (s.power.plTrip.find? fun x => x.1 == i) = trip) :
    (trip = none → exec (.plinthTripFence e) s = .next s) ∧
    (∀ x, trip = some x → ∀ t, s.waitUntil (x.2 + 10000000) = some t → ∀ u,
      (t.modPower fun p => { p with plTrip := p.plTrip.filter fun x => x.1 != i }) = u →
      exec (.plinthTripFence e) s = .next (if 2 ≤ u.level (24 + i) then u.wantHalve i 0x12 else u)) := by
  have hexec : exec (.plinthTripFence e) s = execPlinthTripFence e s := rfl
  unfold execPlinthTripFence at hexec
  dsimp only at hexec
  rw [hi, htrip] at hexec
  rw [hexec]
  refine ⟨fun h => by rw [h]; rfl, fun x h t ht u hu => ?_⟩
  rw [h, Option.bind_some, ht]
  dsimp only
  rw [hu]
  exact (apply_ite _ _ _ _).symm

/-- Settles O40: the guard, the sensors, the reductions and the trips, each by its own lemma. -/
theorem powerAndTemperatureAct : Obligations.PowerAndTemperatureAct := by
  unfold Obligations.PowerAndTemperatureAct
  refine ⟨fun s => ⟨exec_stackOverrun s, fun h v i => (exec_inputMonitorSample s v i).1 h, fun hclosed v i => ?_,
      (exec_guardRecoveryStep s).1, (exec_guardRecoveryStep s).2, fun _ => rfl⟩,
    fun s => ⟨fun h t => (exec_sensorSample s t).1 h, fun hclosed t => ?_, fun i => (senseOne_cases s i).1, fun i hi => ?_,
      fun u => redRise_cases s u _ rfl, (exec_throttleRecoveryStep s).1, (exec_throttleRecoveryStep s).2,
      redFall_cases s, exec_gatehouseTripResume s, fun e => ?_⟩⟩
  · intro at_ t l now u w g x hreach
    have hexec := (exec_inputMonitorSample s v i).2 hclosed t (waitUntil_reaches s _ hreach)
    rw [inputSample_judges t v i l rfl now rfl u rfl w rfl] at hexec
    obtain ⟨hlow, hhigh, hearly⟩ := judgeGuard_cases w now g rfl x rfl
    rw [hexec]
    exact ⟨fun h => congrArg _ (hlow h), fun h hdue => congrArg _ (hhigh h hdue), fun h h' => congrArg _ (hearly h h')⟩
  · intro at_ u hreach
    exact (exec_sensorSample s t).2 hclosed _ (waitUntil_reaches s _ hreach) u rfl
  · obtain ⟨hopen, hout, hread⟩ := (senseOne_cases s i).2 hi
    rw [← failSensor_eq]
    exact ⟨hopen, hout, hread⟩
  · obtain ⟨hnone, hsome⟩ := exec_plinthTripFence s e _ rfl _ rfl
    exact ⟨hnone, fun x hx hreach => hsome x hx _ (waitUntil_reaches s _ hreach) _ rfl⟩

end Sys2Proof.Machine
end

section
/-! PROOF. The interlock line between the belfries (R377 to R380). -/

namespace Sys2Proof.Machine

/-- The holder drives a pulse, when it is due (R377). -/
theorem exec_holdPulse (s : State) (e : Side) (i : Nat) (hi : sideNat e = i) (w : PulseSeen) :
    (s.role i ≠ 3 → exec (.holdPulse e w) s = .next s) ∧
    (s.role i = 3 → ∀ t, s.waitUntil (s.nextOf (s.belfry i).drove 49000) = some t →
      exec (.holdPulse e w) s = .next (t.drivePulse i w)) := by
  have hexec : exec (.holdPulse e w) s = execHoldPulse e w s := rfl
  unfold execHoldPulse at hexec
  dsimp only at hexec
  rw [hexec, hi]
  exact ⟨fun h => if_pos h, fun h t ht => by rw [if_neg (not_not.mpr h), ht]⟩

/-- What the holder's own pin shows of its pulse (R377, R379). -/
theorem drivePulse_cases (s : State) (i : Nat) (w : PulseSeen) (t : State)
    (ht : ((s.modBelfry i fun b => { b with drove := some s.clk.elapsed }).lineLow i w.own).lineLow (1 - i) w.other = t)
    (n : Nat) (hn : (t.belfry i).missed + 1 = n) (u : State)
    (hu : (t.modBelfry i fun b => { b with missed := n }).bump (bfPage i) 6 0 = u) :
    (500 ≤ w.own → s.drivePulse i w = t.modBelfry i fun b => { b with missed := 0 }) ∧
    (w.own < 500 → n ≠ 3 → s.drivePulse i w = u) ∧
    (w.own < 500 → n = 3 → s.drivePulse i w = (u.setFlag (Loc.bfBfSts i) 5 true).post (bfPage i) 2 0xA1 0 0) := by
  unfold State.drivePulse
  dsimp only
  rw [ht, hn, hu]
  refine ⟨fun h => if_pos h, fun h hfew => ?_, fun h hthird => ?_⟩
  · rw [if_neg (Nat.not_le.mpr h), if_neg hfew]
  · rw [if_neg (Nat.not_le.mpr h), if_pos hthird]

/-- A standby that hears no pulse sends its query (R378, R379). -/
theorem exec_pulseAbsence (s : State) (e : Side) (i : Nat) (hi : sideNat e = i) :
    (s.mayTake i = false ∨ (s.belfry i).asked ≠ none → exec (.pulseAbsence e) s = .next s) ∧
    (s.mayTake i = true → (s.belfry i).asked = none → ∀ at_ : Nat,
      max ((s.belfry i).seenAt + 200000) (match (s.belfry i).refused with | some r => r + 10000000 | none => 0) = at_ →
      ∀ t, s.waitUntil at_ = some t → exec (.pulseAbsence e) s = .next (t.modBelfry i fun b =>
        { b with asked := some t.clk.elapsed, noPath := !(t.pathStatus (bfStation i) (bfStation (1 - i)) == 0),
                 refusal := false })) := by
  have hexec : exec (.pulseAbsence e) s = execPulseAbsence e s := rfl
  unfold execPulseAbsence at hexec
  dsimp only at hexec
  rw [hexec, hi]
  refine ⟨fun h => if_pos ?_, fun htakes hquiet at_ hat t ht => ?_⟩
  · rcases h with h | h
    · rw [h]
      rfl
    · rw [Option.isSome_iff_ne_none.mpr h, Bool.or_true]
  · rw [htakes, hquiet]
    rcases hrefused : (s.belfry i).refused with _ | r <;> simp only [hrefused] at hat ⊢ <;>
      simp only [hat, ht, Option.isSome_none, Bool.not_true, Bool.or_self, Bool.false_eq_true, if_false]

/-- The holder refuses a query that reaches it (R378). -/
theorem exec_takeoverQuery (s : State) (e : Side) (i : Nat) (hi : sideNat e = i) (o : Belfry) (ho : s.belfry (1 - i) = o) :
    (¬(o.asked ≠ none ∧ o.noPath = false ∧ s.role i = 3) → exec (.takeoverQuery e) s = .next s) ∧
    (o.asked ≠ none ∧ o.noPath = false ∧ s.role i = 3 → exec (.takeoverQuery e) s = .next
      ((s.modBelfry (1 - i) fun b => { b with refusal := true }).bump (bfPage i) 4 0)) := by
  have hexec : exec (.takeoverQuery e) s = execTakeoverQuery e s := rfl
  unfold execTakeoverQuery at hexec
  dsimp only at hexec
  have hdeaf : (o.asked.isNone || o.noPath || decide (s.role i ≠ 3)) = true ↔
      ¬(o.asked ≠ none ∧ o.noPath = false ∧ s.role i = 3) := by
    simp only [Bool.or_eq_true, Option.isNone_iff_eq_none, decide_eq_true_eq, not_and_or, not_not, Bool.not_eq_false,
      or_assoc, ne_eq]
  rw [hexec, hi, ho]
  simp only [Bool.or_eq_true, decide_eq_true_eq] at hdeaf ⊢
  exact ⟨fun h => if_pos (hdeaf.mpr h), fun h => if_neg fun hd => hdeaf.mp hd h⟩

/-- A refused standby asks no more for 10 ms (R379). -/
theorem exec_takeoverRefusal (s : State) (e : Side) (i : Nat) (hi : sideNat e = i) :
    ((s.belfry i).refusal = false → exec (.takeoverRefusal e) s = .next s) ∧
    ((s.belfry i).refusal = true → exec (.takeoverRefusal e) s = .next
      (s.modBelfry i fun b => { b with asked := none, refusal := false, refused := some s.clk.elapsed })) := by
  have hexec : exec (.takeoverRefusal e) s = execTakeoverRefusal e s := rfl
  unfold execTakeoverRefusal at hexec
  dsimp only at hexec
  rw [hexec, hi]
  exact ⟨fun h => if_pos (by rw [h]; rfl), fun h => if_neg (by rw [h]; decide)⟩

/-- A standby that has not asked, was refused, or may not take over (R378). -/
theorem exec_takeover_none (s : State) (e : Side) (i : Nat) (hi : sideNat e = i)
    (h : (s.belfry i).asked = none ∨ (s.belfry i).refusal = true ∨ s.mayTake i = false) :
    exec (.takeover e) s = .next s := by
  have hexec : exec (.takeover e) s = execTakeover e s := rfl
  unfold execTakeover at hexec
  dsimp only at hexec
  rw [hexec, hi]
  rcases hasked : (s.belfry i).asked with _ | a
  · rfl
  · rw [hasked] at h
    refine if_pos ?_
    rcases h with h | h | h
    · cases h
    · rw [h, Bool.true_or]
    · rw [h, Bool.not_false, Bool.or_true]

/-- A standby that asked takes over, unless a holder that its query reaches refuses it (R378). -/
theorem exec_takeover (s : State) (e : Side) (i : Nat) (hi : sideNat e = i) (a : Nat) (hasked : (s.belfry i).asked = some a)
    (hunrefused : (s.belfry i).refusal = false) (htakes : s.mayTake i = true) :
    ((s.belfry i).noPath = false ∧ s.role (1 - i) = 3 → ∀ t, s.waitUntil (a + 10000) = some t →
      exec (.takeover e) s = .next
        ((t.modBelfry i fun b => { b with asked := none, refused := some t.clk.elapsed }).bump (bfPage (1 - i)) 4 0)) ∧
    (¬((s.belfry i).noPath = false ∧ s.role (1 - i) = 3) → ∀ t,
      s.waitUntil (if (s.belfry i).noPath = true then a else a + 50000) = some t →
      exec (.takeover e) s = .next (t.takeOver i)) := by
  have hexec : exec (.takeover e) s = execTakeover e s := rfl
  unfold execTakeover at hexec
  dsimp only at hexec
  rw [hi, hasked] at hexec
  simp only [hunrefused, htakes, Bool.not_true, Bool.or_self, Bool.false_eq_true, if_false, Bool.not_eq_true'] at hexec
  rw [hexec]
  exact ⟨fun h t ht => by rw [if_pos h, ht], fun h t ht => by rw [if_neg h, ht]⟩

/-- A stuck line is sensed once, by a belfry that is on (R380). -/
theorem exec_stuckHold (s : State) :
    (s.mgmt.stuckAt ≠ none ∨ (s.role 0 = 0 ∧ s.role 1 = 0) → exec .stuckHold s = .next s) ∧
    (s.mgmt.stuckAt = none → ¬(s.role 0 = 0 ∧ s.role 1 = 0) →
      let u := s.modMgmt fun m => { m with stuckAt := some s.clk.elapsed }
      let v := (u.setFlag (Loc.bfBfSts 0) 4 true).post (bfPage 0) 2 0xA2 0 0
      exec .stuckHold s = .next ((v.setFlag (Loc.bfBfSts 1) 4 true).post (bfPage 1) 2 0xA2 0 0)) := by
  have hexec : exec .stuckHold s = execStuckHold s := rfl
  unfold execStuckHold at hexec
  rw [hexec]
  refine ⟨fun h => ?_, fun hfree hon => ?_⟩
  · by_cases hoff : s.role 0 = 0 ∧ s.role 1 = 0
    · exact if_pos hoff
    · rw [if_neg hoff]
      exact congrArg Host.Outcome.next (if_pos (Option.isSome_iff_ne_none.mpr (h.resolve_right hoff)))
  · intro u v
    rw [if_neg hon]
    exact congrArg Host.Outcome.next (if_neg (by rw [State.stuck, hfree]; decide))

/-- The release of a stuck line (R380). -/
theorem exec_stuckHoldRelease (s : State) :
    (s.mgmt.stuckAt = none → exec .stuckHoldRelease s = .next s) ∧
    (s.mgmt.stuckAt ≠ none →
      let u := s.modMgmt fun m => { m with stuckAt := none }
      let seen := fun (s : State) (e : Nat) => s.modBelfry e fun b => { b with seenAt := s.clk.elapsed }
      exec .stuckHoldRelease s = .next
        (((seen (seen u 0) 1).setFlag (Loc.bfBfSts 0) 4 false).setFlag (Loc.bfBfSts 1) 4 false)) := by
  have hexec : exec .stuckHoldRelease s = execStuckHoldRelease s := rfl
  unfold execStuckHoldRelease State.stuck at hexec
  rw [hexec]
  exact ⟨fun h => if_pos (by rw [h]; rfl),
    fun h => if_neg (by rw [Option.isSome_iff_ne_none.mpr h]; decide)⟩

/-- A stuck line beside a stopped holder (Table BF-7, R450). -/
theorem exec_stuckHolderStopped (s : State) (standby : Option Nat)
    (hstandby : ((List.range 2).find? fun e => s.role e == 2) = standby) :
    (s.mgmt.stuckAt = none ∨ s.mgmt.stoppedAt = none ∨ standby = none ∨ s.holder ≠ none ∨ s.flag Loc.glFaultSts 0 = true →
      exec .stuckHolderStopped s = .next s) ∧
    (∀ a b e, s.mgmt.stuckAt = some a → s.mgmt.stoppedAt = some b → standby = some e →
      s.holder = none → s.flag Loc.glFaultSts 0 = false → s.reaches (max a b + 10000000) →
      exec .stuckHolderStopped s = .next (((s.atTime (max a b + 10000000)).post (bfPage e) 3 0xA5 0 0).recovery 0xA5)) := by
  have hexec : exec .stuckHolderStopped s = execStuckHolderStopped s := rfl
  unfold execStuckHolderStopped at hexec
  rw [hstandby] at hexec
  rw [hexec]
  refine ⟨fun h => ?_, fun a b e ha hb he hholder hrecovery hreach => ?_⟩
  · rcases ha : s.mgmt.stuckAt with _ | a
    · rfl
    rcases hb : s.mgmt.stoppedAt with _ | b
    · rfl
    rcases standby with _ | e
    · rfl
    rw [ha, hb] at h
    refine if_pos ?_
    rcases h with h | h | h | h | h
    · cases h
    · cases h
    · cases h
    · rw [Option.isSome_iff_ne_none.mpr h, Bool.true_or]
    · rw [h, Bool.or_true]
  · rw [ha, hb, he]
    simp only [hholder, hrecovery, Option.isSome_none, Bool.or_self, Bool.false_eq_true, if_false,
      waitUntil_reaches s _ hreach]

/-- Settles O41: the pulses, the query, the takeover and the stuck line, each by its own lemma. -/
theorem interlockIsHeld : Obligations.InterlockIsHeld := by
  unfold Obligations.InterlockIsHeld
  refine ⟨fun s e => ?_, fun s => ?_⟩
  · intro i
    obtain ⟨hquiet, hpulse⟩ := forall_and.mp fun w => exec_holdPulse s e i rfl w
    obtain ⟨hheard, hasks⟩ := exec_pulseAbsence s e i rfl
    obtain ⟨hdeaf, hhears⟩ := exec_takeoverQuery s e i rfl _ rfl
    obtain ⟨hno, hrefused⟩ := exec_takeoverRefusal s e i rfl
    refine ⟨fun w => ⟨hquiet w, fun hrole => ?_⟩, hheard,
      fun htakes hfree => fun hreach => hasks htakes hfree _ rfl _ (waitUntil_reaches s _ hreach), ⟨hdeaf, hhears⟩, hno,
      hrefused, exec_takeover_none s e i rfl, fun a ha hr ht => ?_⟩
    · intro at_ low t n u hreach
      rw [hpulse w hrole _ (waitUntil_reaches s _ hreach)]
      obtain ⟨hseen, hmissed, hthird⟩ := drivePulse_cases (s.atTime at_) i w t rfl n rfl u rfl
      exact ⟨fun h => congrArg _ (hseen h), fun h hn => congrArg _ (hmissed h hn), fun h hn => congrArg _ (hthird h hn)⟩
    · obtain ⟨hrefuses, htakes⟩ := exec_takeover s e i rfl a ha hr ht
      exact ⟨fun h hreach => hrefuses h _ (waitUntil_reaches s _ hreach),
        fun h hreach => htakes h _ (waitUntil_reaches s _ hreach)⟩
  · obtain ⟨hstuck, hsensed⟩ := exec_stuckHold s
    obtain ⟨hfree, hreleased⟩ := exec_stuckHoldRelease s
    exact ⟨hstuck, hsensed, hfree, hreleased, exec_stuckHolderStopped s _ rfl⟩

end Sys2Proof.Machine
end

section
/-! PROOF. How belfries serve (R378 to R394): a takeover, the state log, restarts, the handover, the self-test. -/

namespace Sys2Proof

/-- A field put into a word leaves a field beside it. -/
theorem Word.put_bits_other (v : Word) (hi lo x hi' lo' : Nat) (h : hi' < 32) (hne : hi' < lo ∨ hi < lo') :
    (v.put hi lo x).bits hi' lo' = v.bits hi' lo' := by
  unfold Word.bits
  apply Nat.eq_of_testBit_eq
  intro j
  simp only [Nat.testBit_mod_two_pow, Nat.testBit_shiftRight, BitVec.testBit_toNat]
  by_cases hj : j < hi' + 1 - lo'
  · rw [Word.put_getLsbD _ _ _ _ _ (by omega), if_neg (by omega)]
  · simp [hj]

namespace Machine

/-- The managing state and the roles of the belfries stay as they are, and the register file keeps its form. -/
def RolesStay (s t : State) : Prop := t.canon = true ∧ (∀ e, t.role e = s.role e) ∧ t.mgmt = s.mgmt

/-- A register at another offset than BF_STS is no role of a belfry. -/
theorem RolesStay.put {s t : State} (h : RolesStay s t) (loc : Loc) (w : Word) (idx : Nat) (hloc : loc % 4096 ≠ 64)
    (hidx : idx < 1048576) : RolesStay s (t.put loc w idx) := by
  obtain ⟨hc, hrole, hmgmt⟩ := h
  refine ⟨put_canon t _ _ _ hc, fun e => ?_, hmgmt⟩
  rw [← hrole e]
  refine congrArg (fun v : Word => v.bits 1 0) (get_put_other t _ _ _ _ _ hc (rkey_ne_of_loc ?_ hidx (by decide)))
  rintro rfl
  exact hloc (by change ((256 + 64 * e) * 4096 + 64) % 4096 = 64; omega)

/-- Pieces other than the registers, the memory and the managing state are no matter. -/
theorem RolesStay.of_eq {s t u : State} (h : RolesStay s t) (hrf : u.rf = t.rf) (hmem : u.mem = t.mem)
    (hmgmt : u.mgmt = t.mgmt) : RolesStay s u := by
  obtain ⟨hc, hrole, hm⟩ := h
  refine ⟨?_, fun e => ?_, hmgmt.trans hm⟩
  · unfold State.canon at hc ⊢
    rw [hrf, hmem]
    exact hc
  · rw [← hrole e]
    unfold State.role State.fld State.get
    rw [hrf]

/-- Counting keeps the roles. -/
theorem rolesStay_keptByCounting (s : State) (page : Nat) : KeptByCounting page (RolesStay s) :=
  { evc := fun _ _ h => h.of_eq rfl rfl rfl
    sel := fun _ k hk h => h.put _ _ 0 (by change (page * 4096 + 3848 + 32 * k) % 4096 ≠ 64; omega) (by decide)
    ovf := fun _ h => h.put _ _ 0 (by change (page * 4096 + 24) % 4096 ≠ 64; omega) (by decide) }

/-- What posting an error can do: the queue of its page changes, and PAGE_ERR or its drops show it. -/
theorem post_cases (s : State) (page cls code unit info : Nat) (part : Option Nat) :
    (∃ q, s.post page cls code unit info part = s.setQueue page q) ∨
    (∃ q, s.post page cls code unit info part = (s.setQueue page q).setFlag (page * 4096 + 0x018) 1 true) ∨
    (∃ q, s.post page cls code unit info part =
      ((s.addSat (page * 4096 + 0xE80) 15 8 1).setQueue page q).setFlag (page * 4096 + 0x018) 1 true) ∨
    s.post page cls code unit info part = s.addSat (page * 4096 + 0xE80) 15 8 1 := by
  unfold State.post
  extract_lets p time e q keep rest c u
  by_cases hsame : (q.any fun x => x.same e) = true
  · exact Or.inl ⟨_, if_pos hsame⟩
  rw [if_neg hsame]
  by_cases hroom : q.length < 8
  · exact Or.inr (Or.inl ⟨_, if_pos hroom⟩)
  rw [if_neg hroom]
  by_cases hlow : c ≤ cls
  · exact Or.inr (Or.inr (Or.inl ⟨_, if_pos hlow⟩))
  · exact Or.inr (Or.inr (Or.inr (if_neg hlow)))

/-- Posting an error keeps the roles. -/
theorem RolesStay.post {s t : State} (h : RolesStay s t) (page cls code unit info : Nat) (part : Option Nat) :
    RolesStay s (t.post page cls code unit info part) := by
  have hmark : ∀ {u : State}, RolesStay s u → RolesStay s (u.setFlag (page * 4096 + 0x018) 1 true) := fun hu =>
    hu.put _ _ 0 (by change (page * 4096 + 24) % 4096 ≠ 64; omega) (by decide)
  have hdrop : RolesStay s (t.addSat (page * 4096 + 0xE80) 15 8 1) :=
    h.put _ _ 0 (by change (page * 4096 + 3712) % 4096 ≠ 64; omega) (by decide)
  rcases post_cases t page cls code unit info part with ⟨q, hpost⟩ | ⟨q, hpost⟩ | ⟨q, hpost⟩ | hpost <;> rw [hpost]
  · exact h.of_eq rfl rfl rfl
  · exact hmark (h.of_eq rfl rfl rfl)
  · exact hmark (hdrop.of_eq rfl rfl rfl)
  · exact hdrop

/-- The mailboxes stay while an error is posted. -/
theorem post_mboxes (s : State) (page cls code unit info : Nat) (part : Option Nat) :
    (s.post page cls code unit info part).mboxes = s.mboxes := by
  rcases post_cases s page cls code unit info part with ⟨q, hpost⟩ | ⟨q, hpost⟩ | ⟨q, hpost⟩ | hpost <;> rw [hpost] <;> rfl

/-- A cleared mailbox keeps the roles. -/
theorem RolesStay.abortMbox {s t : State} (h : RolesStay s t) (m scope : Nat) (atHost atBelfry : Bool) :
    RolesStay s (t.abortMbox m scope atHost atBelfry) := by
  unfold State.abortMbox
  refine RolesStay.post ?_ _ _ _ _ _ _
  split
  · have hsts : (Loc.mbMbSts m) % 4096 ≠ 64 := by
      change ((384 + m) * 4096 + 88) % 4096 ≠ 64
      omega
    refine RolesStay.of_eq (RolesStay.put (RolesStay.of_eq h rfl rfl rfl) (Loc.mbMbSts m) _ 0 hsts (by decide)) rfl rfl rfl
  · exact h.of_eq rfl rfl rfl

/-- Every mailbox cleared keeps the roles. -/
theorem RolesStay.abortAll {s t : State} (h : RolesStay s t) : RolesStay s t.abortAll := by
  unfold State.abortAll
  exact List.foldlRecOn (List.range 25) _ h fun u hu m _ => hu.abortMbox m 0 true false

/-- The engine's command lost keeps the roles. -/
theorem RolesStay.engineLost {s t : State} (h : RolesStay s t) : RolesStay s t.engineLost := by
  have hundo : ∀ {u : State}, RolesStay s u → RolesStay s u.undoTick := fun {u} hu => by
    unfold State.undoTick
    split
    · exact hu
    · exact hu.of_eq rfl rfl rfl
  unfold State.engineLost
  dsimp only
  refine RolesStay.put ?_ _ _ 0 (by decide) (by decide)
  split
  · exact hundo (h.put _ _ 0 (by decide) (by decide))
  · exact h

/-- Both directions of a mailbox are empty. -/
def State.MboxEmpty (s : State) (m : Nat) : Prop := (s.mbox m).up = [] ∧ (s.mbox m).down = []

/-- Both directions of a cleared mailbox are empty, and another mailbox stays empty. -/
theorem mboxEmpty_abortMbox (s : State) (i m scope : Nat) (atHost atBelfry : Bool) (h : i = m ∨ s.MboxEmpty m) :
    (s.abortMbox i scope atHost atBelfry).MboxEmpty m := by
  have hboxes : (s.abortMbox i scope atHost atBelfry).mboxes = lmod s.mboxes i fun x =>
      { x with up := [], part := [], down := [], skip := 0, bellUp := false, bellDown := false, flushUp := false,
               flushDown := false, abortUp := x.abortUp || atBelfry, abortDown := x.abortDown || (atHost && decide (9 ≤ i)) } := by
    unfold State.abortMbox
    refine (post_mboxes _ _ _ _ _ _ _).trans ?_
    split <;> rfl
  unfold State.MboxEmpty State.mbox lget at h ⊢
  rw [hboxes, List.getD_eq_getElem?_getD, lmod, List.getElem?_modify]
  rw [List.getD_eq_getElem?_getD] at h
  rcases hm : s.mboxes[m]? with _ | x
  · exact ⟨rfl, rfl⟩
  · rw [hm] at h
    by_cases him : i = m
    · simp [him]
    · simpa [him] using h

/-- Every mailbox cleared is every mailbox empty. -/
theorem mboxEmpty_abortAll (s : State) (m : Nat) (hm : m < 25) : s.abortAll.MboxEmpty m := by
  unfold State.abortAll
  exact foldl_establishes (fun u i => State.abortMbox u i 0 true false) (fun _ => True) (fun u => u.MboxEmpty m) m
    (fun _ _ _ => trivial) (fun u _ => mboxEmpty_abortMbox u m m 0 true false (Or.inl rfl))
    (fun u i _ h => mboxEmpty_abortMbox u i m 0 true false (Or.inr h)) _ _ trivial (Or.inl (List.mem_range.mpr hm))

/-- The engine's command lost leaves the mailboxes. -/
theorem engineLost_mboxes (s : State) : s.engineLost.mboxes = s.mboxes := by
  have hundo : ∀ u : State, u.undoTick.mboxes = u.mboxes := fun u => by
    unfold State.undoTick
    split <;> rfl
  unfold State.engineLost
  dsimp only
  split
  · exact hundo _
  · rfl

/-- The status registers of the two belfries are two registers. -/
theorem bfBfSts_ne {e o : Nat} (h : o ≠ e) : Loc.bfBfSts o ≠ Loc.bfBfSts e := by
  change (256 + 64 * o) * 4096 + 64 ≠ (256 + 64 * e) * 4096 + 64
  omega

/-- The roles stand in the register file. -/
theorem role_of_rf {s t : State} (h : s.rf = t.rf) (e : Nat) : s.role e = t.role e := by
  unfold State.role State.fld State.get
  rw [h]

/-- A field of BF_STS above the role written: every role stays. -/
theorem role_setFld_above (s : State) (e hi lo v : Nat) (hc : s.canon = true) (hlo : 1 < lo) (o : Nat) :
    (s.setFld (Loc.bfBfSts e) hi lo v).role o = s.role o := by
  unfold State.role State.fld State.setFld
  by_cases ho : o = e
  · subst ho
    rw [get_put_same s _ _ _ hc, Word.put_bits_other _ _ _ _ _ _ (by decide) (Or.inl hlo)]
  · rw [get_put_other s _ _ _ _ _ hc (rkey_ne (bfBfSts_ne ho))]

/-- A role written. -/
theorem role_setRole (s : State) (e r : Nat) (hr : r < 4) (hc : s.canon = true) (o : Nat) :
    (s.setRole e r).role o = if o = e then r else s.role o := by
  unfold State.role State.setRole
  by_cases ho : o = e
  · subst ho
    rw [if_pos rfl, fld_setFld_same s _ 1 0 r 0 hc (by decide) (by decide)]
    exact Nat.mod_eq_of_lt hr
  · unfold State.fld State.setFld
    rw [if_neg ho, get_put_other s _ _ _ _ _ hc (rkey_ne (bfBfSts_ne ho))]

/-- A belfry that enters the holding state holds, and the other keeps its role (R378, R381). -/
theorem enterHold_roles (s : State) (e : Nat) (hc : s.canon = true) :
    (s.enterHold e).canon = true ∧ ∀ o, (s.enterHold e).role o = if o = e then 3 else s.role o := by
  obtain ⟨a, ha⟩ : ∃ a, s.setRole e 3 = a := ⟨_, rfl⟩
  obtain ⟨b, hb⟩ : ∃ b, a.setFld (Loc.bfBfSts e) 2 2 (b2n false) = b := ⟨_, rfl⟩
  obtain ⟨c, hc'⟩ : ∃ c, b.setFld (Loc.bfBfSts e) 31 16 0 = c := ⟨_, rfl⟩
  obtain ⟨d, hd⟩ : ∃ d, c.setFld Loc.glHostSts 8 8 e = d := ⟨_, rfl⟩
  have ca : a.canon = true := ha ▸ put_canon s _ _ _ hc
  have cb : b.canon = true := hb ▸ put_canon a _ _ _ ca
  have cc : c.canon = true := hc' ▸ put_canon b _ _ _ cb
  have hcd : RolesStay c d := hd ▸ RolesStay.put ⟨cc, fun _ => rfl, rfl⟩ _ _ 0 (by decide) (by decide)
  obtain ⟨cd, hroles, -⟩ := hcd
  have hend : (s.enterHold e).rf = d.rf ∧ (s.enterHold e).mem = d.mem := by
    unfold State.enterHold State.setFlag
    dsimp only
    rw [ha, hb, hc', hd]
    exact ⟨rfl, rfl⟩
  refine ⟨?_, fun o => ?_⟩
  · unfold State.canon at cd ⊢
    rw [hend.1, hend.2]
    exact cd
  · calc (s.enterHold e).role o
      _ = d.role o := role_of_rf hend.1 o
      _ = c.role o := hroles o
      _ = b.role o := by rw [← hc', role_setFld_above b e _ _ _ cb (by decide)]
      _ = a.role o := by rw [← hb, role_setFld_above a e _ _ _ ca (by decide)]
      _ = if o = e then 3 else s.role o := by rw [← ha]; exact role_setRole s e 3 (by decide) hc o

/-- Work that starts anew keeps the roles. -/
theorem RolesStay.restartWork {s t : State} (h : RolesStay s t) : RolesStay s t.restartWork := h.of_eq rfl rfl rfl

/-- Work that starts anew leaves the mailboxes. -/
theorem restartWork_mboxes (s : State) : s.restartWork.mboxes = s.mboxes := rfl

/-- What a takeover does after the belfry holds keeps the roles and the managing state. -/
theorem takeOver_rolesStay (s : State) (e : Nat) (hc : s.canon = true) : RolesStay (s.enterHold e) (s.takeOver e) := by
  have hheld : RolesStay (s.enterHold e) (s.enterHold e) := ⟨(enterHold_roles s e hc).1, fun _ => rfl, rfl⟩
  have hfailovers : RolesStay (s.enterHold e) ((s.enterHold e).addSat (Loc.bfBfFailovers e) 15 0 1) :=
    hheld.put (Loc.bfBfFailovers e) _ 0 (by change ((256 + 64 * e) * 4096 + 72) % 4096 ≠ 64; omega) (by decide)
  have hcounted := (rolesStay_keptByCounting (s.enterHold e) (bfPage e)).bump _ 2 0 1 15 hfailovers
  unfold State.takeOver
  dsimp only
  refine (RolesStay.abortAll ?_).restartWork.engineLost
  split
  · exact hcounted.post _ _ _ _ _ _
  · exact (hcounted.post _ _ _ _ _ _).post _ _ _ _ _ _

/-- A takeover leaves every mailbox empty (R464). -/
theorem takeOver_mboxEmpty (s : State) (e m : Nat) (hm : m < 25) : (s.takeOver e).MboxEmpty m := by
  have hempty : ∀ u v : State, u.mboxes = v.mboxes → v.MboxEmpty m → u.MboxEmpty m := fun u v huv hv => by
    unfold State.MboxEmpty State.mbox at hv ⊢
    rw [huv]
    exact hv
  unfold State.takeOver
  dsimp only
  exact hempty _ _ (engineLost_mboxes _) (hempty _ _ (restartWork_mboxes _) (mboxEmpty_abortAll _ m hm))

/-- A belfry holds when its role says so and that of the other does not. -/
theorem holder_eq_some (s : State) (e : Side) (h : s.role (sideNat e) = 3) (ho : s.role (1 - sideNat e) ≠ 3) :
    s.holder = some (sideNat e) := by
  change ([0, 1].find? fun i => s.role i == 3) = _
  cases e
  · change s.role 0 = 3 at h
    simp [h, sideNat]
  · change s.role 1 = 3 at h
    change s.role 0 ≠ 3 at ho
    simp [h, ho, sideNat]

/-- No belfry holds when none has the role. -/
theorem role_ne_of_holder_none (s : State) (h : s.holder = none) (e : Nat) (he : e < 2) : s.role e ≠ 3 := by
  have hnone := List.find?_eq_none.mp h e (List.mem_range.mpr he)
  exact fun hrole => hnone (beq_iff_eq.mpr hrole)

/-- What a takeover leaves (R378, R381). -/
theorem takeOver_holds (s : State) (e : Side) (hc : s.canon = true) (hfree : s.holder = none) :
    (s.takeOver (sideNat e)).holder = some (sideNat e) ∧
      (s.takeOver (sideNat e)).role (1 - sideNat e) = s.role (1 - sideNat e) ∧
      (s.takeOver (sideNat e)).mgmt =
        { s.mgmt with logHeld := [], logWait := [], stoppedAt := none, kickAt := some s.clk.elapsed } := by
  have hone : 1 - sideNat e ≠ sideNat e ∧ 1 - sideNat e < 2 := by cases e <;> decide
  obtain ⟨hne, hlt⟩ := hone
  obtain ⟨-, hroles, hmgmt⟩ := takeOver_rolesStay s (sideNat e) hc
  have hrole := (enterHold_roles s (sideNat e) hc).2
  have hself := (hroles (sideNat e)).trans ((hrole (sideNat e)).trans (if_pos rfl))
  have hother := (hroles (1 - sideNat e)).trans ((hrole (1 - sideNat e)).trans (if_neg hne))
  exact ⟨holder_eq_some _ e hself (by rw [hother]; exact role_ne_of_holder_none s hfree _ hlt), hother, hmgmt⟩

/-- The oldest record of the state log reaches the standby (R382). -/
theorem exec_stateLogRecord (s : State) :
    (s.standby = none → exec .stateLogRecord s = .next s) ∧
    (∀ e, s.standby = some e →
      (s.pathStatus (bfStation (1 - e)) (bfStation e) ≠ 0 → exec .stateLogRecord s = .next s) ∧
      (s.pathStatus (bfStation (1 - e)) (bfStation e) = 0 →
        let l := s.mgmt.logHeld.take 1
        let t := s.modMgmt fun m => { m with logHeld := m.logHeld.drop 1, logWait := m.logWait ++ l }
        exec .stateLogRecord s = .next
          ((t.setFld (Loc.bfBfSts e) 31 16 (min 65535 t.mgmt.logWait.length)).bump (bfPage e) 7 0 l.length))) := by
  have hexec : exec .stateLogRecord s = execStateLogRecord s := rfl
  unfold execStateLogRecord at hexec
  rw [hexec]
  refine ⟨fun h => by rw [h], fun e h => ?_⟩
  rw [h]
  exact ⟨fun hcut => congrArg Host.Outcome.next (if_pos hcut),
    fun hpath => congrArg Host.Outcome.next (if_neg (not_not.mpr hpath))⟩

/-- A belfry that does not restart (R383). -/
theorem exec_belfryRestart_none (s : State) (e : Side) (ok : Bool)
    (h : 2 ≤ s.role (sideNat e) ∨ (s.belfry (sideNat e)).left = true ∨ s.holder = none) :
    exec (.belfryRestart e ok) s = .next s := if_pos (by rwa [Option.isNone_iff_eq_none])

/-- A stopped belfry restarts, or its restart fails (R383). -/
theorem exec_belfryRestart (s : State) (e : Side) (ok : Bool) (i : Nat) (hi : sideNat e = i) (hstopped : s.role i < 2)
    (hleft : (s.belfry i).left = false) (hholder : s.holder ≠ none) (u : State)
    (hu : (s.addSat (Loc.bfBfSts i) 15 8 1).abortAll = u) (l : List Nat)
    (hl : (u.clk.elapsed :: (u.belfry i).fails.filter fun x => decide (u.clk.elapsed < x + 3600000000000)) = l) (v : State)
    (hv : ((u.setRole i 0).modBelfry i fun b => { b with fails := l, left := decide (3 ≤ l.length) }) = v) :
    (ok = true → exec (.belfryRestart e ok) s = .next
      (((((u.modBelfry i fun b =>
        { left := b.left, fails := b.fails, failCount := b.failCount, lastFail := b.lastFail,
          rotAt := some u.clk.elapsed }).setRole i 2).setFlag (Loc.bfBfSts i) 2 true).setFld (Loc.bfBfSts i) 31 16 0).modMgmt
        fun m => { m with logHeld := [], logWait := [] })) ∧
    (ok = false → l.length < 3 → exec (.belfryRestart e ok) s = .next v) ∧
    (ok = false → 3 ≤ l.length → exec (.belfryRestart e ok) s = .next (v.post (bfPage i) 2 0xA3 0 (v.fld (Loc.bfBfSts i) 15 8))) := by
  have hgo : ¬(2 ≤ s.role i ∨ (s.belfry i).left = true ∨ s.holder.isNone = true) := by
    rintro (h | h | h)
    · omega
    · exact Bool.eq_false_iff.mp hleft h
    · exact hholder (Option.isNone_iff_eq_none.mp h)
  have hexec : exec (.belfryRestart e ok) s = execBelfryRestart e ok s := rfl
  unfold execBelfryRestart at hexec
  dsimp only at hexec
  rw [hi, if_neg hgo, hu, hl, hv] at hexec
  rw [hexec]
  refine ⟨fun hok => if_pos hok, fun hbad h => ?_, fun hbad h => ?_⟩ <;> rw [if_neg (Bool.eq_false_iff.mp hbad)]
  · exact if_neg (Nat.not_le.mpr h)
  · exact if_pos h

/-- What a write of BF_CTL does, by its two commands (R383, R386). -/
theorem bfCtlOp_cases (s : State) (i : Nat) (w : Word) :
    (∀ k, formCheck (locFields (Loc.bfBfCtl i)) w = some k → s.bfCtlOp i w = .error k) ∧
    (formCheck (locFields (Loc.bfBfCtl i)) w = none →
      (w.bit 1 = true → (s.role i = 3 ∨ w.bit 0 = true → s.bfCtlOp i w = .error 5) ∧
        (s.role i ≠ 3 → w.bit 0 = false → s.bfCtlOp i w = .ok
          (if (s.belfry i).left = true then s else (s.belfryStop i 0).setRole i 1))) ∧
      (w.bit 0 = true →
        (¬(s.role i = 3 ∧ s.role (1 - i) = 2 ∧ s.flag (Loc.bfBfSts (1 - i)) 2 = true) ∨ w.bit 1 = true →
          s.bfCtlOp i w = .error 5) ∧
        ((s.role i = 3 ∧ s.role (1 - i) = 2 ∧ s.flag (Loc.bfBfSts (1 - i)) 2 = true) → w.bit 1 = false →
          s.bfCtlOp i w = .ok (s.modBelfry i fun b => { b with handDue := true })))) := by
  unfold State.bfCtlOp
  refine ⟨fun k h => by rw [h], fun hform => ?_⟩
  rw [hform]
  dsimp only
  have hready : (s.role i == 3 && s.role (1 - i) == 2 && s.flag (Loc.bfBfSts (1 - i)) 2) = true ↔
      s.role i = 3 ∧ s.role (1 - i) = 2 ∧ s.flag (Loc.bfBfSts (1 - i)) 2 = true := by
    simp only [Bool.and_eq_true, beq_iff_eq, and_assoc]
  refine ⟨fun h1 => ⟨fun h => if_pos ?_, fun hrole h0 => ?_⟩, fun h0 => ⟨fun h => if_pos ?_, fun h h1 => ?_⟩⟩
  · by_cases hrole : s.role i = 3
    · rw [h1, hrole]
      exact Bool.or_true _
    · rw [h.resolve_left hrole, beq_eq_false_iff_ne.mpr hrole]
      rfl
  · rw [h0, h1, beq_eq_false_iff_ne.mpr hrole]
    simp only [Bool.false_and, Bool.and_false, Bool.or_self, Bool.false_eq_true, if_false, Bool.true_and,
      Bool.not_eq_true', ← Bool.not_eq_true, ite_not]
  · by_cases hr : s.role i = 3 ∧ s.role (1 - i) = 2 ∧ s.flag (Loc.bfBfSts (1 - i)) 2 = true
    · rw [h.resolve_left (not_not.mpr hr), hr.1]
      exact Bool.or_true _
    · rw [h0, Bool.eq_false_iff.mpr (mt hready.mp hr)]
      rfl
  · rw [h0, h1, hready.mpr h]
    simp only [Bool.not_true, Bool.and_false, Bool.false_and, Bool.or_self, Bool.false_eq_true, if_false, if_true]

/-- A rotation of the standby's self-test ends (R387). -/
theorem exec_selfTestRotation (s : State) (x : BitVec 8) :
    (s.standby = none → exec (.selfTestRotation x) s = .next s) ∧
    (∀ e, s.standby = some e → ∀ t, s.waitUntil (s.nextOf (s.belfry e).rotAt 1000000000) = some t →
      exec (.selfTestRotation x) s = .next (t.modBelfry e fun b => b.rotated t.clk.elapsed x.toNat)) := by
  have hexec : exec (.selfTestRotation x) s = execSelfTestRotation x s := rfl
  unfold execSelfTestRotation at hexec
  rw [hexec]
  exact ⟨fun h => by rw [h], fun e h t ht => by rw [h]; dsimp only; rw [ht]⟩

/-- 400 µs after the latest kick the engines stop (R394). -/
theorem exec_engineLapse (s : State) :
    (s.mgmt.kickAt = none → exec .engineLapse s = .next s) ∧
    (∀ k : Nat, s.mgmt.kickAt = some k → s.reaches (k + 400000) → exec .engineLapse s = .next
      (((s.atTime (k + 400000)).setFlag Loc.glMgmtSts 2 false).modMgmt fun m => { m with kickAt := none })) := by
  have hexec : exec .engineLapse s = execEngineLapse s := rfl
  unfold execEngineLapse at hexec
  rw [hexec]
  exact ⟨fun h => by rw [h], fun k h hreach => by rw [h]; dsimp only; rw [waitUntil_reaches s _ hreach]⟩

/-- A write of BF_CTL (R383, R386). -/
theorem exec_bfCtl (s : State) (f : Func) (e : Side) (v : Word) :
    (s.accepts f (Loc.bfBfCtl (sideNat e)) (v.put 1 1 1) → exec (.belfryRestartCmd f e v) s = .next
      (s.settle f (Loc.bfBfCtl (sideNat e)) (s.bfCtlOp (sideNat e) (v.put 1 1 1)))) ∧
    (s.accepts f (Loc.bfBfCtl (sideNat e)) (v.put 0 0 1) → exec (.handover f e v) s = .next
      (s.settle f (Loc.bfBfCtl (sideNat e)) (s.bfCtlOp (sideNat e) (v.put 0 0 1)))) :=
  ⟨fun hacc => congrArg Host.Outcome.next (write_accepted hacc _),
   fun hacc => congrArg Host.Outcome.next (write_accepted hacc _)⟩

/-- Settles O42: a takeover by what its parts leave (`RolesStay`), then each command by its own lemma. -/
theorem belfriesServe : Obligations.BelfriesServe := by
  unfold Obligations.BelfriesServe
  refine ⟨fun s e hc hfree => ?_, fun s => ⟨fun h => ⟨(exec_stateLogRecord s).1 h, fun x => (exec_selfTestRotation s x).1 h⟩,
    (exec_stateLogRecord s).2, fun e ok => ⟨exec_belfryRestart_none s e ok, ?_⟩, fun f e v => ⟨?_, ?_⟩, fun e he => ?_,
    (exec_engineLapse s).1, (exec_engineLapse s).2⟩⟩
  · intro t
    obtain ⟨hholder, hrole, hmgmt⟩ := takeOver_holds s e hc hfree
    refine ⟨hholder, hrole, ?_, ?_, ?_, ?_, takeOver_mboxEmpty s (sideNat e)⟩ <;> exact (congrArg _ hmgmt).trans rfl
  · intro hstopped hleft hholder u l v fresh
    exact exec_belfryRestart s e ok (sideNat e) rfl hstopped hleft hholder u rfl l rfl v rfl
  · intro w hacc
    obtain ⟨hbad, hgood⟩ := bfCtlOp_cases s (sideNat e) w
    rw [(exec_bfCtl s f e v).1 hacc]
    refine ⟨fun k hform => by rw [hbad k hform]; rfl, fun hform => ?_⟩
    obtain ⟨hbars, hgoes⟩ := (hgood hform).1 (Word.put_bit_one v 1 (by decide))
    exact ⟨fun h => by rw [hbars h]; rfl, fun hrole h0 => by rw [hgoes hrole h0]; rfl⟩
  · intro w hacc
    obtain ⟨hbad, hgood⟩ := bfCtlOp_cases s (sideNat e) w
    rw [(exec_bfCtl s f e v).2 hacc]
    refine ⟨fun k hform => by rw [hbad k hform]; rfl, fun hform => ?_⟩
    obtain ⟨hbars, hgoes⟩ := (hgood hform).2 (Word.put_bit_one v 0 (by decide))
    exact ⟨fun h => by rw [hbars h]; rfl, fun hr h1 => by rw [hgoes hr h1]; rfl⟩
  · intro at_ t hreach
    have hexec := fun x => (exec_selfTestRotation s x).2 e he t (waitUntil_reaches s _ hreach)
    refine ⟨hexec 0, fun x hx => ?_⟩
    rw [hexec x]
    have hcode : x.toNat ≠ 0 := fun h => hx (BitVec.eq_of_toNat_eq h)
    unfold Belfry.rotated
    simp only [if_neg hcode]

end Machine
end Sys2Proof
end

section
/-! PROOF. Heartbeats and the requests of the management service (R390 to R399, R416, R476). -/

namespace Sys2Proof.Machine

/-- A heartbeat without a holder, one that does not open, and one of a device that does not manage this one (R393). -/
theorem exec_heartbeat_refused (s : State) (k : Pkt) (r : State) (hr : s.takeHeld k = r) :
    (r.holder = none → exec (.heartbeat k) s = .next r) ∧
    (∀ h, r.holder = some h →
      (r.openMgmt k = none → exec (.heartbeat k) s = .next (r.mgmtDrop k)) ∧
      (∀ u j, r.openMgmt k = some (u, j) → (u.isUpper j.srcDev.toNat = false ∨ u.admits = false) →
        exec (.heartbeat k) s = .next (u.bump (bfPage h) 9 0))) := by
  have hexec : exec (.heartbeat k) s = execHeartbeat k s := rfl
  unfold execHeartbeat at hexec
  dsimp only at hexec
  rw [hr] at hexec
  rw [hexec]
  refine ⟨fun h => by rw [h], fun h hholder => ?_⟩
  rw [hholder]
  refine ⟨fun hshut => by rw [hshut], fun u j hopen hno => ?_⟩
  rw [hopen]
  refine if_pos ?_
  rcases hno with hno | hno
  · rw [hno]
    rfl
  · rw [hno]
    exact Bool.or_true _

/-- A heartbeat that is taken (R393, R396, Table BF-6). -/
theorem exec_heartbeat_taken (s : State) (k : Pkt) (r : State) (hr : s.takeHeld k = r) (h : Nat) (hholder : r.holder = some h)
    (u : State) (j : Pkt) (hopen : r.openMgmt k = some (u, j)) (hupper : u.isUpper j.srcDev.toNat = true)
    (hadmits : u.admits = true) (top : Bool) (htop : (j.addr.toNat % 2 == 1) = top) (due : Bool)
    (hdue : (u.fld Loc.glMgmtSts 1 0 == 1 && !u.topDevice && (!top || decide (u.mgmt.hbAt + u.lossNs ≤ u.clk.elapsed))) = due)
    (v : State) (hv : (u.setFld Loc.glMgmtHolder 15 0 j.srcDev.toNat).bump (bfPage h) 8 0 = v) (w : State)
    (hw : (v.modMgmt fun m => { m with hbAt := v.clk.elapsed, topOk := top, isolateDue := m.isolateDue || due }) = w) :
    exec (.heartbeat k) s = .next
      (if u.fld Loc.glMgmtSts 1 0 = 2 ∧ j.addr.toNat % 2 = 1 then w.setFld Loc.glMgmtSts 1 0 3 else w) := by
  have hexec : exec (.heartbeat k) s = execHeartbeat k s := rfl
  unfold execHeartbeat at hexec
  dsimp only at hexec
  rw [hr, hholder] at hexec
  dsimp only at hexec
  rw [hopen] at hexec
  dsimp only at hexec
  rw [htop, hdue, hv, hw, if_neg (by rw [hupper, hadmits]; decide)] at hexec
  rw [hexec, ← htop]
  simp only [beq_iff_eq]

/-- A manager that holds its pair and whose engine runs sends heartbeats (R393). -/
theorem exec_heartbeatSend (s : State) (sends : Prop)
    (hsends : (s.fld Loc.glMgmtCfg 1 0 ≠ 0 ∧ s.flag Loc.glMgmtSts 2 = true ∧ s.mgmt.kickAt ≠ none) = sends) :
    (¬sends → exec .heartbeatSend s = .next s) ∧
    (sends → ∀ t, s.waitUntil (s.nextOf s.mgmt.hbSent (1000 * s.fld Loc.glMgmtHb 7 0)) = some t →
      exec .heartbeatSend s = .next t.sendBeats) := by
  subst hsends
  have hexec : exec .heartbeatSend s = execHeartbeatSend s := rfl
  unfold execHeartbeatSend at hexec
  have hquiet : (s.fld Loc.glMgmtCfg 1 0 = 0 ∨ (!s.flag Loc.glMgmtSts 2) = true ∨ s.mgmt.kickAt.isNone = true) ↔
      ¬(s.fld Loc.glMgmtCfg 1 0 ≠ 0 ∧ s.flag Loc.glMgmtSts 2 = true ∧ s.mgmt.kickAt ≠ none) := by
    rw [Bool.not_eq_true', Option.isNone_iff_eq_none, not_and_or, not_and_or, not_not, not_not, Bool.not_eq_true]
  rw [hexec]
  exact ⟨fun h => if_pos (hquiet.mpr h), fun h t ht => by rw [if_neg fun hq => hquiet.mp hq h, ht]⟩

/-- An attached device that has lost its heartbeats isolates at the next tick (R396). -/
theorem exec_heartbeatLoss (s : State) :
    (s.fld Loc.glMgmtSts 1 0 ≠ 1 ∨ s.topDevice = true → exec .heartbeatLoss s = .next s) ∧
    (s.fld Loc.glMgmtSts 1 0 = 1 → s.topDevice = false →
      (s.mgmt.topOk = false → exec .heartbeatLoss s = .next (s.modMgmt fun m => { m with isolateDue := true })) ∧
      (let at_ := s.mgmt.hbAt + 10000 * s.fld Loc.glMgmtHb 15 8
       s.mgmt.topOk = true → s.reaches at_ →
        exec .heartbeatLoss s = .next ((s.atTime at_).modMgmt fun m => { m with isolateDue := true }))) := by
  have hexec : exec .heartbeatLoss s = execHeartbeatLoss s := rfl
  unfold execHeartbeatLoss State.lossNs at hexec
  rw [hexec]
  refine ⟨fun h => if_pos h, fun hattached hbelow => ?_⟩
  rw [if_neg (by rintro (h | h); exacts [h hattached, Bool.eq_false_iff.mp hbelow h])]
  refine ⟨fun h => if_pos (by rw [h]; rfl), ?_⟩
  intro at_ h hreach
  rw [if_neg (by rw [h]; decide), waitUntil_reaches s _ hreach]

/-- Settles O43: each of the three commands by its own lemma. -/
theorem heartbeatsAttach : Obligations.HeartbeatsAttach := by
  unfold Obligations.HeartbeatsAttach
  refine fun s => ⟨fun k => ?_, ?_, (exec_heartbeatLoss s).1, (exec_heartbeatLoss s).2⟩
  · intro r
    obtain ⟨hnone, hrefused⟩ := exec_heartbeat_refused s k r rfl
    refine ⟨hnone, fun h hholder => ⟨(hrefused h hholder).1, fun u j hopen => ⟨(hrefused h hholder).2 u j hopen, ?_⟩⟩⟩
    intro hupper hadmits top due v w
    exact exec_heartbeat_taken s k r rfl h hholder u j hopen hupper hadmits top rfl due rfl v rfl w rfl
  · obtain ⟨hquiet, hbeats⟩ := exec_heartbeatSend s _ rfl
    exact ⟨hquiet, fun h => fun hreach => hbeats h _ (waitUntil_reaches s _ hreach)⟩

end Sys2Proof.Machine
end

section
/-! PROOF. Requests of the management service are answered (R390, R395, R399, R416, R476). -/

namespace Sys2Proof.Machine

/-- A request that the service does not take leaves its port, or is counted, and that is all. -/
theorem exec_mgmt_untaken (s u : State) (k : Pkt) (hk : s.takeMgmt k = (u, none)) :
    ∀ c ∈ [Instr.admitAt k, .pairTakeoverQuery k, .mgmtResp k, .regWrite k, .regRead k], exec c s = .next u := by
  have hadmit : exec (.admitAt k) s = execAdmit k s := rfl
  have hquery : exec (.pairTakeoverQuery k) s = execPairTakeoverQuery k s := rfl
  have hresp : exec (.mgmtResp k) s = execMgmtResp k s := rfl
  have hwrite : exec (.regWrite k) s = execRegWrite k s := rfl
  have hread : exec (.regRead k) s = execRegRead k s := rfl
  unfold execAdmit at hadmit
  unfold execPairTakeoverQuery at hquery
  unfold execMgmtResp at hresp
  unfold execRegWrite at hwrite
  unfold execRegRead at hread
  rw [hk] at hadmit hquery hresp hwrite hread
  intro c hc
  simp only [List.mem_cons, List.not_mem_nil, or_false] at hc
  rcases hc with rfl | rfl | rfl | rfl | rfl
  · exact hadmit
  · exact hquery
  · exact hresp
  · exact hwrite
  · exact hread

section Taken

variable (s u : State) (k j : Pkt) (hk : s.takeMgmt k = (u, some j))
include hk

/-- ADMIT (R399): of the upper holder, of anyone else, and too early. -/
theorem exec_admitAt (c : Nat) (hc : leNat (j.data.take 8) = c) :
    (u.fromHolder j = true → u.admits = true →
      (c % u.period = 0 → u.clk.count + 100000 ≤ c →
        exec (.admitAt k) s = .next ((u.modMgmt fun m => { m with admitAt := some c }).mgmtReply j 0 [])) ∧
      ((c % u.period ≠ 0 ∨ c < u.clk.count + 100000) → exec (.admitAt k) s = .next (u.mgmtReply j 2 []))) ∧
    ((u.fromHolder j = false ∨ u.admits = false) → exec (.admitAt k) s = .next (u.mgmtReply j 3 [])) := by
  have hexec : exec (.admitAt k) s = execAdmit k s := rfl
  unfold execAdmit at hexec
  rw [hk] at hexec
  dsimp only at hexec
  rw [hc] at hexec
  rw [hexec]
  refine ⟨fun hholder hadmits => ?_, fun h => if_pos ?_⟩
  · rw [if_neg (by rw [hholder, hadmits]; decide)]
    exact ⟨fun htick hahead => if_neg (by rintro (h | h); exacts [h htick, Nat.not_le.mpr h hahead]), fun h => if_pos h⟩
  · rcases h with h | h
    · rw [h]
      rfl
    · rw [h]
      exact Bool.or_true _

/-- The query of the pair (R390). -/
theorem exec_pairTakeoverQuery :
    (u.fromPartner j = false → exec (.pairTakeoverQuery k) s = .next (u.mgmtReply j 3 [])) ∧
    (u.fromPartner j = true → exec (.pairTakeoverQuery k) s = .next
      (if u.flag Loc.glMgmtSts 2 = true then u.mgmtReply j 1 [] else u)) := by
  have hexec : exec (.pairTakeoverQuery k) s = execPairTakeoverQuery k s := rfl
  unfold execPairTakeoverQuery at hexec
  rw [hk] at hexec
  dsimp only at hexec
  rw [hexec]
  refine ⟨fun h => if_pos (by rw [h]; rfl), fun h => ?_⟩
  rw [if_neg (by rw [h]; decide)]
  exact (apply_ite _ _ _ _).symm

/-- The partner's refusal ends the takeover of the pair (R390). -/
theorem exec_mgmtResp : exec (.mgmtResp k) s = .next
    (if u.mgmt.pairAsked ≠ none ∧ u.fromPartner j = true ∧ mgCmd j = 4 ∧ mgMid j = u.mgmt.mid ∧ j.status = 1 then
      u.modMgmt fun m => { m with pairAsked := none, pairRefused := some u.clk.elapsed } else u) := by
  have hexec : exec (.mgmtResp k) s = execMgmtResp k s := rfl
  unfold execMgmtResp at hexec
  rw [hk] at hexec
  dsimp only at hexec
  rw [hexec]
  simp only [Option.isSome_iff_ne_none]
  exact (apply_ite _ _ _ _).symm

/-- REG_WRITE (R395). -/
theorem exec_regWrite (l : List (Nat × Nat × Nat))
    (hl : ((List.range (min 32 (pktEntries j 8))).map fun i => (i, pktWord j (2 * i), pktWord j (2 * i + 1))) = l) :
    (u.mgmtServes j false (l.map fun e => (e.2.1, some e.2.2)) = false →
      exec (.regWrite k) s = .next (u.mgmtReply j 3 [])) ∧
    (u.mgmtServes j false (l.map fun e => (e.2.1, some e.2.2)) = true → (u.mgmtWrites l).2 = none →
      exec (.regWrite k) s = .next ((u.mgmtWrites l).1.mgmtReply j 0 [])) ∧
    (∀ c i : Nat, u.mgmtServes j false (l.map fun e => (e.2.1, some e.2.2)) = true → (u.mgmtWrites l).2 = some (c, i) →
      exec (.regWrite k) s = .next ((u.mgmtWrites l).1.mgmtReply j 2 [BitVec.ofNat 8 c, BitVec.ofNat 8 i])) := by
  have hexec : exec (.regWrite k) s = execRegWrite k s := rfl
  unfold execRegWrite at hexec
  rw [hk] at hexec
  dsimp only at hexec
  rw [hl] at hexec
  rw [hexec]
  obtain ⟨t, o⟩ := u.mgmtWrites l
  refine ⟨fun h => if_pos (by rw [h]; rfl), fun h ho => ?_, fun c i h ho => ?_⟩ <;> rw [if_neg (by rw [h]; decide)] <;>
    dsimp only at ho ⊢ <;> rw [ho]

/-- REG_READ (R395). -/
theorem exec_regRead (l : List Nat) (hl : ((List.range (min 64 (pktEntries j 4))).map fun i => pktWord j i) = l)
    (r : State × List Byte) (hr : l.foldl (fun (x : State × List Byte) o =>
      ((x.1.readReg .mgmt (barPlace o).1 (barPlace o).2).1,
        x.2 ++ leBytes 4 (x.1.readReg .mgmt (barPlace o).1 (barPlace o).2).2.toNat)) (u, []) = r) :
    (u.mgmtServes j true (l.map fun o => (o, none)) = false → exec (.regRead k) s = .next (u.mgmtReply j 3 [])) ∧
    (u.mgmtServes j true (l.map fun o => (o, none)) = true → exec (.regRead k) s = .next (r.1.mgmtReply j 0 r.2)) := by
  have hexec : exec (.regRead k) s = execRegRead k s := rfl
  unfold execRegRead at hexec
  rw [hk] at hexec
  dsimp only at hexec
  rw [hl, hr] at hexec
  rw [hexec]
  exact ⟨fun h => if_pos (by rw [h]; rfl), fun h => if_neg (by rw [h]; decide)⟩

end Taken

/-- Entries of a REG_WRITE apply in order, up to the first rejected one (R395). -/
theorem mgmtWrites_cons (t : State) (i o v : Nat) (l : List (Nat × Nat × Nat)) (x : State)
    (hx : t.writeReg .mgmt (barPlace o).1 (barPlace o).2 (BitVec.ofNat 32 v) = x) :
    (¬x.get Loc.moRejTotal ≠ t.get Loc.moRejTotal → t.mgmtWrites ((i, o, v) :: l) = x.mgmtWrites l) ∧
    (x.get Loc.moRejTotal ≠ t.get Loc.moRejTotal →
      t.mgmtWrites ((i, o, v) :: l) = (x, some (x.fld ((barPlace o).1 * 4096 + 0x014) 7 0, i))) := by
  have hstep : t.mgmtWrites ((i, o, v) :: l) = if x.get Loc.moRejTotal = t.get Loc.moRejTotal then x.mgmtWrites l
      else (x, some (x.fld ((barPlace o).1 * 4096 + 0x014) 7 0, i)) := by
    rw [← hx]
    rfl
  rw [hstep]
  exact ⟨fun h => if_pos (not_not.mp h), fun h => if_neg h⟩

/-- Settles O44: each command by its own lemma, for the packet that the service takes. -/
theorem requestsAreAnswered : Obligations.RequestsAreAnswered := by
  unfold Obligations.RequestsAreAnswered
  intro s k u
  refine ⟨fun c hc hnone => exec_mgmt_untaken s u k (Prod.ext rfl hnone) c hc, fun j hj => ?_, fun t => ⟨rfl, ?_⟩⟩
  · have hk : s.takeMgmt k = (u, some j) := Prod.ext rfl hj
    obtain ⟨hadmit, hearly⟩ := exec_admitAt s u k j hk _ rfl
    obtain ⟨hstranger, hpartner⟩ := exec_pairTakeoverQuery s u k j hk
    exact ⟨hadmit, hearly, hstranger, hpartner, exec_mgmtResp s u k j hk, exec_regWrite s u k j hk _ rfl,
      exec_regRead s u k j hk _ rfl _ rfl⟩
  · intro i o v l x
    exact mgmtWrites_cons t i o v l x rfl

end Sys2Proof.Machine
end

section
/-! PROOF. The layout is committed or taken back; the security engine is claimed and its commands start (R405 to R424). -/

namespace Sys2Proof.Machine

/-- The first applicable code of Table SE-1 for a staged layout (R405). -/
theorem layoutCheck_cases (s : State) :
    (s.layoutForm = false ∨ s.layoutTags = false → s.layoutCheck = some 2) ∧
    (s.layoutForm = true → s.layoutTags = true → s.layoutStopped = false → s.layoutCheck = some 5) ∧
    (s.layoutForm = true → s.layoutTags = true → s.layoutStopped = true →
      (s.layoutEntropy = false ∨ s.sec.layPend ≠ none) → s.layoutCheck = some 6) ∧
    (s.layoutForm = true → s.layoutTags = true → s.layoutStopped = true → s.layoutEntropy = true →
      s.sec.layPend = none → s.layoutCheck = none) := by
  unfold State.layoutCheck
  refine ⟨fun h => if_pos ?_, fun hf ht hs => ?_, fun hf ht hs h => ?_, fun hf ht hs he hp => ?_⟩
  · rcases h with h | h <;> simp only [h, Bool.not_false, Bool.true_or, Bool.or_true]
  · rw [hf, ht, hs]
    rfl
  · rw [if_neg (by rw [hf, ht]; decide), if_neg (by rw [hs]; decide)]
    refine if_pos ?_
    rcases h with h | h
    · rw [h]
      rfl
    · rw [Option.isSome_iff_ne_none.mpr h]
      exact Bool.or_true _
  · rw [hf, ht, hs, he, hp]
    rfl

/-- LAY_CTL written with COMMIT, with DISCARD, or with both (R405). -/
theorem layCtlOp_cases (s : State) (w : Word) :
    (∀ k, formCheck (locFields Loc.seLayCtl) w = some k → s.layCtlOp w = .error k) ∧
    (formCheck (locFields Loc.seLayCtl) w = none →
      (w.bit 0 = true → w.bit 1 = true → s.layCtlOp w = .error 2) ∧
      (w.bit 0 = false → w.bit 1 = true → s.layCtlOp w = .ok s.layDiscard) ∧
      (w.bit 0 = true → w.bit 1 = false →
        (∀ k, s.layoutCheck = some k → s.layCtlOp w = .error k) ∧
        (s.layoutCheck = none → s.layCtlOp w =
          .ok ((s.modSec fun x => { x with layPend := some s.stagedLayout }).bump 0x0E00 6 0)))) := by
  unfold State.layCtlOp
  refine ⟨fun k h => by rw [h], fun hform => ?_⟩
  rw [hform]
  refine ⟨fun h0 h1 => ?_, fun h0 h1 => ?_, fun h0 h1 => ?_⟩ <;>
    simp only [h0, h1, and_self, and_true, and_false, Bool.false_eq_true, Bool.not_true, if_true, if_false]
  exact ⟨fun k hk => by rw [hk], fun hk => by rw [hk]⟩

/-- A write of LAY_CTL reaches it. -/
theorem exec_layCtl (s : State) (f : Func) (v : Word) :
    (s.accepts f Loc.seLayCtl (v.put 0 0 1) → exec (.layoutCommit f v) s = .next
      (s.settle f Loc.seLayCtl (s.layCtlOp (v.put 0 0 1)))) ∧
    (s.accepts f Loc.seLayCtl (v.put 1 1 1) → exec (.layoutDiscard f v) s = .next
      (s.settle f Loc.seLayCtl (s.layCtlOp (v.put 1 1 1)))) :=
  ⟨fun hacc => congrArg Host.Outcome.next (write_accepted hacc _),
   fun hacc => congrArg Host.Outcome.next (write_accepted hacc _)⟩

/-- Settles O45: the checks of a write of LAY_CTL in their order, then those of Table SE-1. -/
theorem layoutsAreCommitted : Obligations.LayoutsAreCommitted := by
  unfold Obligations.LayoutsAreCommitted
  intro s f v loc refused
  obtain ⟨hconflict, hrunning, hwaits, hsound⟩ := layoutCheck_cases s
  refine ⟨?_, ?_⟩
  · intro w hacc
    obtain ⟨hbad, hgood⟩ := layCtlOp_cases s w
    rw [(exec_layCtl s f v).1 hacc]
    refine ⟨fun k hform => by rw [hbad k hform]; rfl, fun hform => ?_⟩
    obtain ⟨hboth, -, hcommit⟩ := hgood hform
    have h0 : w.bit 0 = true := Word.put_bit_one v 0 (by decide)
    refine ⟨fun h1 => by rw [hboth h0 h1]; rfl, fun h1 => ?_⟩
    obtain ⟨hcode, htaken⟩ := hcommit h0 h1
    refine ⟨fun h => ?_, fun hf ht hs => ?_, fun hf ht hs h => ?_, fun hf ht hs he hp => ?_⟩
    · rw [hcode 2 (hconflict h)]
      rfl
    · rw [hcode 5 (hrunning hf ht hs)]
      rfl
    · rw [hcode 6 (hwaits hf ht hs h)]
      rfl
    · rw [htaken (hsound hf ht hs he hp)]
      rfl
  · intro w hacc
    obtain ⟨hbad, hgood⟩ := layCtlOp_cases s w
    rw [(exec_layCtl s f v).2 hacc]
    refine ⟨fun k hform => by rw [hbad k hform]; rfl, fun hform => ?_⟩
    obtain ⟨hboth, hdiscard, -⟩ := hgood hform
    have h1 : w.bit 1 = true := Word.put_bit_one v 1 (by decide)
    exact ⟨fun h0 => by rw [hboth h0 h1]; rfl, fun h0 => by rw [hdiscard h0 h1]; rfl⟩

/-- SE_CLAIM written with CLAIM, or with RELEASE alone (R424). -/
theorem seClaimOp_cases (s : State) (f : Func) (w : Word) :
    (∀ k, formCheck (locFields Loc.seSeClaim) w = some k → s.seClaimOp f w = .error k) ∧
    (formCheck (locFields Loc.seSeClaim) w = none →
      (w.bit 0 = true ∨ w.bit 1 = true → s.seClaim ≠ 15 ∧ s.seClaim ≠ fcode f → s.seClaimOp f w = .error 3) ∧
      (w.bit 0 = true → ¬(s.seClaim ≠ 15 ∧ s.seClaim ≠ fcode f) → s.seClaimOp f w = .ok
        ((s.setFld Loc.seSeSts 11 8 (fcode f)).modSec fun x =>
          { x with cmdAt := s.clk.elapsed, claimDone := s.seClaim == fcode f && x.claimDone })) ∧
      (w.bit 0 = false → w.bit 1 = true → ¬(s.seClaim ≠ 15 ∧ s.seClaim ≠ fcode f) →
        s.seClaimOp f w = .ok (s.setFld Loc.seSeSts 11 8 15))) := by
  have hother : (s.seClaim != 15 && s.seClaim != fcode f) = true ↔ s.seClaim ≠ 15 ∧ s.seClaim ≠ fcode f := by
    rw [Bool.and_eq_true, bne_iff_ne, bne_iff_ne]
  unfold State.seClaimOp
  refine ⟨fun k h => by rw [h], fun hform => ?_⟩
  rw [hform]
  dsimp only
  refine ⟨fun h hclaimed => if_pos ?_, fun h0 hfree => ?_, fun h0 h1 hfree => ?_⟩
  · rw [hother.mpr hclaimed]
    rcases h with h | h <;> simp only [h, Bool.true_or, Bool.or_true, Bool.and_self]
  · rw [Bool.eq_false_iff.mpr (mt hother.mp hfree), Bool.and_false, if_neg Bool.false_ne_true, if_pos h0]
  · rw [Bool.eq_false_iff.mpr (mt hother.mp hfree), Bool.and_false, if_neg Bool.false_ne_true,
      if_neg (Bool.eq_false_iff.mp h0), if_pos h1]

/-- A write of SE_CLAIM reaches it. -/
theorem exec_seClaims (s : State) (f : Func) (v : Word) :
    (s.accepts f Loc.seSeClaim (v.put 0 0 1) → exec (.seClaim f v) s = .next
      (s.settle f Loc.seSeClaim (s.seClaimOp f (v.put 0 0 1)))) ∧
    (s.accepts f Loc.seSeClaim ((v.put 1 1 1).put 0 0 0) → exec (.seRelease f v) s = .next
      (s.settle f Loc.seSeClaim (s.seClaimOp f ((v.put 1 1 1).put 0 0 0)))) :=
  ⟨fun hacc => congrArg Host.Outcome.next (write_accepted hacc _),
   fun hacc => congrArg Host.Outcome.next (write_accepted hacc _)⟩

/-- A claim lapses 10 ms after its latest command (R424). -/
theorem exec_claimLapse (s : State) :
    (s.seClaim = 15 ∨ s.seBusy = true → exec .claimLapse s = .next s) ∧
    (s.seClaim ≠ 15 → s.seBusy = false → s.reaches (s.sec.cmdAt + 10000000) →
      exec .claimLapse s = .next ((s.atTime (s.sec.cmdAt + 10000000)).setFld Loc.seSeSts 11 8 15)) := by
  refine ⟨fun h => if_pos h, fun hclaimed hidle hreach => ?_⟩
  have hexec : exec .claimLapse s = execClaimLapse s := rfl
  unfold execClaimLapse at hexec
  rw [hexec, if_neg (by rintro (h | h); exacts [hclaimed h, Bool.eq_false_iff.mp hidle h]), waitUntil_reaches s _ hreach]

/-- The six commands of the engine are writes of SE_CMD. -/
theorem exec_seCmds (s : State) (f : Func) (v : Word) (n : Nat) (hn : 4 ≤ n) :
    ∀ x ∈ [(1, Instr.kxOffer f v), (2, .kxAccept f v n), (3, .kxFinish f v n), (4, .kxActivate f v), (5, .keyDrop f v),
        (6, .sessionEnd f v)], (1 ≤ x.1 ∧ x.1 ≤ 6) ∧ exec x.2 s = .next (s.seCmd f v x.1) := by
  have hwhole : ∀ c, s.seBytes f v c n = s.seCmd f v c := fun c => if_neg (Nat.not_lt.mpr hn)
  have haccept : exec (.kxAccept f v n) s = .next (s.seBytes f v 2 n) := rfl
  have hfinish : exec (.kxFinish f v n) s = .next (s.seBytes f v 3 n) := rfl
  rw [hwhole] at haccept hfinish
  intro x hx
  simp only [List.mem_cons, List.not_mem_nil, or_false] at hx
  rcases hx with rfl | rfl | rfl | rfl | rfl | rfl
  · exact ⟨by norm_num, rfl⟩
  · exact ⟨by norm_num, haccept⟩
  · exact ⟨by norm_num, hfinish⟩
  · exact ⟨by norm_num, rfl⟩
  · exact ⟨by norm_num, rfl⟩
  · exact ⟨by norm_num, rfl⟩

/-- A write of SE_CMD of fewer than four bytes is rejected (R485). -/
theorem exec_seBytes_short (s : State) (f : Func) (v : Word) (n : Nat) (hn : n < 4) :
    (s.accepts f Loc.seSeCmd (v.put 3 0 2) → exec (.kxAccept f v n) s = .next
      (s.reject f (Loc.seSeCmd / 4096) (Loc.seSeCmd % 4096) 2)) ∧
    (s.accepts f Loc.seSeCmd (v.put 3 0 3) → exec (.kxFinish f v n) s = .next
      (s.reject f (Loc.seSeCmd / 4096) (Loc.seSeCmd % 4096) 2)) :=
  ⟨fun hacc => congrArg Host.Outcome.next ((if_pos hn).trans (write_accepted hacc _)),
   fun hacc => congrArg Host.Outcome.next ((if_pos hn).trans (write_accepted hacc _))⟩

/-- SE_CMD written with a known command: the checks in their order (R424). -/
theorem seCmdOp_rejects (s : State) (f : Func) (w : Word) (cmd : Nat) (hcmd : w.bits 3 0 = cmd) (h1 : 1 ≤ cmd ∧ cmd ≤ 6) :
    (s.seClaim ≠ 15 → s.seClaim ≠ fcode f → s.seCmdOp f w = .error 3) ∧
    (s.seClaim = 15 ∨ s.seClaim = fcode f →
      (∀ k, formCheck (locFields Loc.seSeCmd) w = some k → s.seCmdOp f w = .error k) ∧
      (formCheck (locFields Loc.seSeCmd) w = none →
        (s.seClaim = 15 ∨ (cmd = 6 ∧ s.pfState (w.bits 10 8) ≠ 0) → s.seCmdOp f w = .error 5) ∧
        (¬(s.seClaim = 15 ∨ (cmd = 6 ∧ s.pfState (w.bits 10 8) ≠ 0)) → s.seBusy = true →
          s.seCmdOp f w = .error 6))) := by
  unfold State.seCmdOp
  dsimp only
  rw [hcmd]
  refine ⟨fun hclaimed hother => if_pos ⟨hclaimed, hother⟩, fun hmine => ?_⟩
  rw [if_neg fun h : s.seClaim ≠ 15 ∧ s.seClaim ≠ fcode f => hmine.elim h.1 h.2]
  refine ⟨fun k h => by rw [h], fun hform => ?_⟩
  rw [hform]
  dsimp only
  rw [if_neg (by omega)]
  exact ⟨fun h => if_pos h, fun h hbusy => by rw [if_neg h, if_pos hbusy]⟩

/-- SE_CMD written with a known command runs it (R424). -/
theorem seCmdOp_runs (s : State) (f : Func) (w : Word) (cmd : Nat) (hcmd : w.bits 3 0 = cmd) (h1 : 1 ≤ cmd ∧ cmd ≤ 6)
    (hmine : s.seClaim = 15 ∨ s.seClaim = fcode f) (hform : formCheck (locFields Loc.seSeCmd) w = none)
    (hready : ¬(s.seClaim = 15 ∨ (cmd = 6 ∧ s.pfState (w.bits 10 8) ≠ 0))) (hidle : s.seBusy = false) (r : SeRun)
    (hr : ({ cmd := cmd, mgmt := w.bit 4, tag := w.bits 19 8, peer := s.fld Loc.seSeArg 15 0, func := fcode f
             input := if cmd = 2 ∨ cmd = 3 then s.kxBytes else []
             wasDue := match s.keyEntry (w.bit 4) (w.bits 19 8) (s.fld Loc.seSeArg 15 0) with
               | some (_, k) => k.due
               | none => false } : SeRun) = r)
    (q : Nat × State) (hq : (if cmd ≤ 3 then (0, s) else s.tickCommand r) = q) (u : State)
    (hu : (q.2.setFlag Loc.seSeSts 0 true).bump 0x0E00 2 0 = u) :
    s.seCmdOp f w = .ok (u.modSec fun y =>
      { y with run := some { r with res := q.1 }, cmdAt := u.clk.elapsed, claimDone := false }) := by
  unfold State.seCmdOp
  dsimp only
  rw [hcmd, if_neg fun h : s.seClaim ≠ 15 ∧ s.seClaim ≠ fcode f => hmine.elim h.1 h.2, hform]
  dsimp only
  rw [if_neg (by omega), if_neg hready, if_neg (Bool.eq_false_iff.mp hidle)]
  subst hr hq hu
  rfl

/-- A command for the tick is judged at once (R413, R415). -/
theorem tickCommand_cases (s : State) (r : SeRun) :
    (r.cmd = 6 → ∀ p, r.tag % 8 = p →
      (¬(r.func = 0 ∨ r.func = p + 1) → s.tickCommand r = (5, s)) ∧
      (r.func = 0 ∨ r.func = p + 1 →
        (s.defined p = false → s.tickCommand r = (8, s)) ∧
        (s.defined p = true → s.flag Loc.seSeSts 2 = false → s.tickCommand r = (7, s)) ∧
        (s.defined p = true → s.flag Loc.seSeSts 2 = true →
          s.tickCommand r = (0, s.modSec fun x => { x with endDue := x.endDue ++ [p] })))) ∧
    (r.cmd ≠ 6 →
      (s.keyOwner r.func r.mgmt r.tag = false → s.tickCommand r = (5, s)) ∧
      (s.keyOwner r.func r.mgmt r.tag = true →
        (s.keyEntry r.mgmt r.tag r.peer = none → s.tickCommand r = (8, s)) ∧
        (∀ i k, s.keyEntry r.mgmt r.tag r.peer = some (i, k) → s.tickCommand r =
          (0, s.setKey i (some (if r.cmd = 4 then { k with due := k.due || !k.sealing } else { k with drop := true })))))) := by
  unfold State.tickCommand
  refine ⟨fun hend p hp => ?_, fun hkey => ?_⟩
  · rw [if_pos hend, hp]
    dsimp only
    refine ⟨fun h => if_pos (not_or.mp h), fun h => ?_⟩
    rw [if_neg fun hno : r.func ≠ 0 ∧ r.func ≠ p + 1 => h.elim hno.1 hno.2]
    refine ⟨fun hd => if_pos (by rw [hd]; rfl), fun hd he => ?_, fun hd he => ?_⟩ <;> rw [hd, he] <;> rfl
  · rw [if_neg hkey]
    refine ⟨fun h => if_pos (by rw [h]; rfl), fun h => ?_⟩
    rw [if_neg (by rw [h]; decide)]
    exact ⟨fun hnone => by rw [hnone], fun i k hsome => by rw [hsome]⟩

/-- Settles O46: the claims, the lapse, and the commands of the engine, each by the lemma on its write. -/
theorem engineIsClaimedAndStarts : Obligations.EngineIsClaimedAndStarts := by
  unfold Obligations.EngineIsClaimedAndStarts
  refine ⟨fun s f v => ?_, fun s f v n => ?_⟩
  · intro loc refused other
    refine ⟨?_, ?_, (exec_claimLapse s).1, (exec_claimLapse s).2, fun _ => rfl⟩
    · intro w hacc
      obtain ⟨hbad, hgood⟩ := seClaimOp_cases s f w
      rw [(exec_seClaims s f v).1 hacc]
      refine ⟨fun k hform => by rw [hbad k hform]; rfl, fun hform => ?_⟩
      obtain ⟨hother, hclaim, -⟩ := hgood hform
      have h0 : w.bit 0 = true := Word.put_bit_one v 0 (by decide)
      exact ⟨fun h => by rw [hother (Or.inl h0) h]; rfl, fun h => by rw [hclaim h0 h]; rfl⟩
    · intro w hacc
      obtain ⟨hbad, hgood⟩ := seClaimOp_cases s f w
      rw [(exec_seClaims s f v).2 hacc]
      refine ⟨fun k hform => by rw [hbad k hform]; rfl, fun hform => ?_⟩
      obtain ⟨hother, -, hrelease⟩ := hgood hform
      have h0 : w.bit 0 = false := Word.put_bit_zero _ 0 (by decide)
      have h1 : w.bit 1 = true :=
        (Word.put_bit_other _ 0 1 0 (by decide) (by decide)).trans (Word.put_bit_one v 1 (by decide))
      exact ⟨fun h => by rw [hother (Or.inr h1) h]; rfl, fun h => by rw [hrelease h0 h1 h]; rfl⟩
  · intro loc refused
    refine ⟨exec_seBytes_short s f v n, fun hn x hx => ?_, fun r => ?_⟩
    · intro w entry r q hacc
      obtain ⟨hrange, hexec⟩ := exec_seCmds s f v n hn x hx
      have hsettles : s.seCmd f v x.1 = s.settle f Loc.seSeCmd (s.seCmdOp f w) :=
        write_accepted hacc fun s => s.seCmdOp f w
      have hcmd : w.bits 3 0 = x.1 :=
        (Word.put_bits v 3 0 x.1 (by decide) (by decide)).trans (Nat.mod_eq_of_lt (by omega))
      rw [hexec, hsettles]
      obtain ⟨hother, hmine⟩ := seCmdOp_rejects s f w x.1 hcmd hrange
      refine ⟨fun h15 hf => by rw [hother h15 hf]; rfl, fun hm => ?_⟩
      obtain ⟨hbad, hgood⟩ := hmine hm
      refine ⟨fun k hform => by rw [hbad k hform]; rfl, fun hform => ?_⟩
      intro early
      obtain ⟨hearly, hbusy⟩ := hgood hform
      refine ⟨fun h => by rw [hearly h]; rfl, fun h hb => by rw [hbusy h hb]; rfl, fun h hidle => ?_⟩
      rw [seCmdOp_runs s f w x.1 hcmd hrange hm hform h hidle r rfl q rfl _ rfl]
      rfl
    · obtain ⟨hend, hkey⟩ := tickCommand_cases s r
      refine ⟨fun h6 => ?_, hkey⟩
      obtain ⟨hother, hmine⟩ := hend h6 _ rfl
      exact ⟨hother, fun hm => (hmine hm).1, fun hm => (hmine hm).2.1, fun hm => (hmine hm).2.2⟩

end Sys2Proof.Machine
end

section
/-! PROOF. How the security engine ends its commands, and how an exchange ends (R411 to R416, R424, Table SE-4). -/

namespace Sys2Proof.Machine

/-- A running command ends while a belfry is active, one for the tick once it has acted (R424). -/
theorem exec_seCommandDone (s : State) :
    (s.sec.run = none → exec .seCommandDone s = .next s) ∧
    (∀ r : SeRun, s.sec.run = some r →
      (¬(s.holder ≠ none ∧ (r.res ≠ 0 ∨ s.ticked r = true)) → exec .seCommandDone s = .next s) ∧
      (s.holder ≠ none ∧ (r.res ≠ 0 ∨ s.ticked r = true) → ∀ q : Nat × State,
        (if r.cmd ≤ 3 then s.kxDone r else (r.res, s)) = q → ∀ u,
        (q.2.modSec fun x => { x with run := none, claimDone := true }) = u → ∀ t,
        (if q.1 ≠ 0 ∧ r.cmd ≤ 3 then u.bump 0x0E00 3 0 else u) = t → exec .seCommandDone s = .next
          (((t.setFlag Loc.seSeSts 0 false).setFlag Loc.seSeSts 1 true).setFld Loc.seSeSts 7 4 q.1).doneIrq)) := by
  have hexec : exec .seCommandDone s = execSeCommandDone s := rfl
  unfold execSeCommandDone at hexec
  rw [hexec]
  refine ⟨fun h => by rw [h], fun r hrun => ?_⟩
  have hgoes : (s.holder.isNone || (r.res == 0 && !s.ticked r)) = true ↔
      ¬(s.holder ≠ none ∧ (r.res ≠ 0 ∨ s.ticked r = true)) := by
    rw [Bool.or_eq_true, Bool.and_eq_true, Option.isNone_iff_eq_none, beq_iff_eq, Bool.not_eq_true', not_and_or, not_or,
      not_not, not_not, Bool.not_eq_true]
  rw [hrun]
  dsimp only
  refine ⟨fun h => if_pos (hgoes.mpr h), fun h q hq u hu t ht => ?_⟩
  rw [if_neg fun hno => hgoes.mp hno h, hq, hu, ht]

/-- The older receive key of an entry ends at its moment (R413). -/
theorem exec_oldKeyExpiry (s : State) (i : Fin 4096) :
    (tget none s.pairKeys i = none → exec (.oldKeyExpiry i) s = .next s) ∧
    (∀ k : PairKey, tget none s.pairKeys i = some k →
      (k.oldEnd = none → exec (.oldKeyExpiry i) s = .next (s.setKey i (some { k with oldRx := none, oldEnd := none }))) ∧
      (∀ x : Nat, k.oldEnd = some x → s.reaches x →
        exec (.oldKeyExpiry i) s = .next ((s.atTime x).setKey i (some { k with oldRx := none, oldEnd := none })))) := by
  have hexec : exec (.oldKeyExpiry i) s = execOldKeyExpiry i s := rfl
  unfold execOldKeyExpiry at hexec
  rw [hexec]
  refine ⟨fun h => by rw [h], fun k hk => ?_⟩
  rw [hk]
  dsimp only
  exact ⟨fun h => by rw [h], fun x hx hreach => by rw [hx]; dsimp only; rw [waitUntil_reaches s _ hreach]⟩

section Exchange

variable (s : State) (r : SeRun) (tag : Nat) (htag : (if r.mgmt = true then 0 else r.tag) = tag)

/-- An exchange that has failed, or is for a key that is not the function's (R415). -/
theorem kxDone_refused :
    (r.res ≠ 0 → s.kxDone r = (r.res, s)) ∧
    (r.res = 0 → s.keyOwner r.func r.mgmt r.tag = false → s.kxDone r = (5, s)) := by
  unfold State.kxDone
  dsimp only
  exact ⟨fun h => if_pos h, fun h howner => by rw [if_neg (not_not.mpr h), if_pos (by rw [howner]; rfl)]⟩

include htag

variable (slot : Option Nat) (hslot : s.keySlot r.mgmt tag r.peer = slot) (hres : r.res = 0)
  (howner : s.keyOwner r.func r.mgmt r.tag = true)
include hslot hres howner

/-- How an offer ends (R411). -/
theorem kxDone_offer (hcmd : r.cmd = 1) :
    (slot = none → s.kxDone r = (6, s)) ∧
    (slot ≠ none → ¬s.flag Loc.seSeSts 2 = true → s.kxDone r = (7, s)) ∧
    (slot ≠ none → s.flag Loc.seSeSts 2 = true → s.kxDone r = (0, s.kxOffer r tag)) := by
  unfold State.kxDone
  dsimp only
  rw [htag, hslot, if_neg (not_not.mpr hres), if_neg (by rw [howner]; decide)]
  simp only [hcmd]
  refine ⟨fun h => if_pos (by rw [h]; rfl), fun h hs => ?_, fun h hs => ?_⟩ <;>
    rw [if_neg (mt Option.isNone_iff_eq_none.mp h)]
  · exact if_pos (by rw [Bool.eq_false_iff.mpr hs]; rfl)
  · exact if_neg (by rw [hs]; decide)

/-- How an acceptance ends (R411, R412). -/
theorem kxDone_accept (hcmd : r.cmd = 2) (c : Nat) (hc : s.blobCheck r 1 2 [] = c) :
    (c ≠ 0 → s.kxDone r = (c, s)) ∧
    (c = 0 → slot = none → s.kxDone r = (6, s)) ∧
    (c = 0 → slot ≠ none → ¬s.flag Loc.seSeSts 2 = true → s.kxDone r = (7, s)) ∧
    (∀ i, c = 0 → slot = some i → s.flag Loc.seSeSts 2 = true → s.kxDone r = (0, s.kxAnswer r tag i)) := by
  unfold State.kxDone
  dsimp only
  rw [htag, hslot, if_neg (not_not.mpr hres), if_neg (by rw [howner]; decide)]
  simp only [hcmd]
  rw [hc]
  refine ⟨fun h => if_pos h, fun h hs => ?_, fun h hs he => ?_, fun i h hs he => ?_⟩ <;> rw [if_neg (not_not.mpr h)]
  · rw [hs]
  · obtain ⟨i, rfl⟩ := Option.ne_none_iff_exists'.mp hs
    exact if_pos (by rw [Bool.eq_false_iff.mpr he]; rfl)
  · rw [hs]
    exact if_neg (by rw [he]; decide)

/-- How a finish ends (R411, R412). -/
theorem kxDone_finish (hcmd : r.cmd = 3) (mine : KxOffer → Bool)
    (hmine : (fun o : KxOffer => o.mgmt == r.mgmt && o.tag == tag && o.peer == r.peer) = mine) :
    (s.sec.offers.find? mine = none → s.kxDone r = (8, s)) ∧
    (∀ o, s.sec.offers.find? mine = some o → ∀ u,
      (s.modSec fun x => { x with offers := x.offers.filter fun o => !mine o }) = u → ∀ c,
      u.blobCheck r 0x11 0x12 (digest64 o.blob) = c →
      (o.lost = true → s.kxDone r = (5, u)) ∧
      (o.lost = false → c ≠ 0 → s.kxDone r = (c, u)) ∧
      (o.lost = false → c = 0 → slot = none → s.kxDone r = (6, u)) ∧
      (∀ i, o.lost = false → c = 0 → slot = some i → s.kxDone r = (0, u.kxInstall r o tag i))) := by
  subst hmine
  unfold State.kxDone
  dsimp only
  rw [htag, hslot, if_neg (not_not.mpr hres), if_neg (by rw [howner]; decide)]
  simp only [hcmd]
  refine ⟨fun h => by rw [h], fun o ho u hu c hc => ?_⟩
  rw [ho]
  dsimp only
  rw [hu, hc]
  refine ⟨fun h => if_pos h, fun h hbad => ?_, fun h hgood hs => ?_, fun i h hgood hs => ?_⟩ <;>
    rw [if_neg (Bool.eq_false_iff.mp h)]
  · exact if_pos hbad
  · rw [if_neg (not_not.mpr hgood), hs]
  · rw [if_neg (not_not.mpr hgood), hs]

end Exchange

/-- So many bytes of a number. -/
theorem length_leBytes (n v : Nat) : (leBytes n v).length = n := by
  induction n generalizing v with
  | zero => rfl
  | succ n ih => exact congrArg (· + 1) (ih (v / 256))

/-- A blob is 4,864 bytes long (Table SE-2). -/
theorem makeBlob_length (s : State) (kind tag peer seed : Nat) (kem offer : List Byte) (h : kem.length = 1568) :
    (s.makeBlob kind tag peer seed kem offer).length = 4864 := by
  have hnonce : ((List.range 4).flatMap fun i => leBytes 8 (Config.freeNat (seed + 1 + i)).toNat).length = 32 := by
    rw [List.length_flatMap]
    simp only [length_leBytes]
    rfl
  have hkey : falconKey.length = 1793 := by rw [falconKey, List.length_map, List.length_range]
  have hsign : ∀ b seed, (falconSign b seed).length = 1280 := fun b seed => by
    rw [falconSign, List.length_map, List.length_range]
  unfold State.makeBlob
  simp only [List.length_append, hsign, hkey, hnonce, h, length_leBytes, List.length_replicate]

/-- A state that differs in the engine and in the free values only. -/
theorem frame_of_sec_free (s : State) (x : Sec) (n : Nat) : Frame [.sec, .free] s { s with sec := x, free := n } := by
  intro p _ hp
  cases p
  case sec => simp at hp
  case free => simp at hp
  all_goals simp only [Piece.same, State.memByte, State.get, implies_true, and_self]

/-- An offer stands in the KX_OUT window and is outstanding (R411). -/
theorem kxOffer_stands (s : State) (r : SeRun) (tag : Nat) :
    let t := s.kxOffer r tag
    t.sec.kxOut.length = 4864 ∧ Frame [.sec, .free] s t ∧
      ∃ o ∈ t.sec.offers, o.mgmt = r.mgmt ∧ o.tag = tag ∧ o.peer = r.peer ∧ o.lost = false ∧ o.blob = t.sec.kxOut := by
  intro t
  refine ⟨makeBlob_length _ _ _ _ _ _ _ (by rw [List.length_map, List.length_range]), frame_of_sec_free s _ _, ?_⟩
  exact ⟨_, List.mem_append_right _ (List.mem_singleton.mpr rfl), rfl, rfl, rfl, rfl, rfl⟩

/-- A value that is not the default reads back where it was written, in any table. -/
theorem tget_tset_of_ne {α : Type} [DecidableEq α] (d v : α) (t : Tab α) (n : Nat) (hv : v ≠ d) :
    tget d (tset d t n v) n = v := by
  induction t with
  | nil => simp [tset, tget, hv]
  | cons e t ih =>
    obtain ⟨k, w⟩ := e
    unfold tset
    by_cases hlt : n < k
    · simp [hlt, hv, tget]
    · by_cases heq : n = k
      · subst heq
        simp [hv, tget]
      · rw [if_neg hlt, if_neg heq]
        unfold tget
        rw [if_neg heq, if_neg hlt, ih]

/-- The state log is part of the managing state. -/
theorem managed_mgmt (s : State) : ∃ m, s.managed = { s with mgmt := m } := by
  unfold State.managed
  split
  · exact ⟨s.mgmt, rfl⟩
  · exact ⟨_, rfl⟩

/-- Installing a key changes the keys, the register file and the managing state. -/
theorem installKey_pieces (s : State) (i : Nat) (mgmt : Bool) (tag peer : Nat) (tx rx : BitVec 256) (due : Bool) :
    ∃ keys w m, s.installKey i mgmt tag peer tx rx due = { s with pairKeys := keys, rf := w, mgmt := m } := by
  unfold State.installKey
  dsimp only
  generalize ({ mgmt := mgmt, tag := tag, peer := peer, tx := tx, rx := _, due := due, sent0 := _, sent1 := _,
                oldRx := _, oldTx := _ } : PairKey) = k
  obtain ⟨m, hm⟩ := managed_mgmt (s.setKey i (some k))
  exact ⟨_, _, m, hm⟩

/-- The installed key stands in its entry, and does not seal yet (R413). -/
theorem installKey_entry (s : State) (i : Nat) (mgmt : Bool) (tag peer : Nat) (tx rx : BitVec 256) (due : Bool) :
    ∃ k, tget none (s.installKey i mgmt tag peer tx rx due).pairKeys i = some k ∧
      k.mgmt = mgmt ∧ k.tag = tag ∧ k.peer = peer ∧ k.due = due ∧ k.sealing = false := by
  have hkeys : ∀ u : State, u.managed.pairKeys = u.pairKeys := fun u => by
    obtain ⟨m, hm⟩ := managed_mgmt u
    rw [hm]
  unfold State.installKey
  dsimp only
  rw [hkeys]
  exact ⟨_, tget_tset_of_ne _ _ _ _ (Option.some_ne_none _), rfl, rfl, rfl, rfl, rfl⟩

/-- A state that differs in the keys, the register file and the managing state, and in the engine and the free values. -/
theorem frame_of_keys (s : State) (x : Sec) (n : Nat) (keys : Tab (Option PairKey)) (w : Tab Word) (m : Mgmt) :
    Frame [.sec, .free, .pairKeys, .regs, .mgmt] s
      { s with sec := x, free := n, pairKeys := keys, rf := w, mgmt := m } := by
  intro p _ hp
  cases p
  case sec => simp at hp
  case free => simp at hp
  case pairKeys => simp at hp
  case regs => simp at hp
  case mgmt => simp at hp
  all_goals simp only [Piece.same, State.memByte, implies_true, and_self]

/-- A state that differs in the keys, the register file and the managing state only. -/
theorem frame_of_installed (s : State) (keys : Tab (Option PairKey)) (w : Tab Word) (m : Mgmt) :
    Frame [.pairKeys, .regs, .mgmt] s { s with pairKeys := keys, rf := w, mgmt := m } := by
  intro p _ hp
  cases p
  case pairKeys => simp at hp
  case regs => simp at hp
  case mgmt => simp at hp
  all_goals simp only [Piece.same, State.memByte, implies_true, and_self]

/-- An accepted offer of a job key installs its entry, to seal with once the peer does (R411, R413). -/
theorem kxAnswer_installs (s : State) (r : SeRun) (tag i : Nat) (hjob : r.mgmt = false) :
    let t := s.kxAnswer r tag i
    Frame [.sec, .free, .pairKeys, .regs, .mgmt] s t ∧
      (tget none t.pairKeys i).any (fun k => !k.mgmt && !k.due && !k.sealing && k.tag == tag && k.peer == r.peer) = true := by
  have hinstalls : ∀ (x : Sec) (n : Nat) (tx rx : BitVec 256),
      let t := ({ s with sec := x, free := n } : State).installKey i false tag r.peer tx rx false
      Frame [.sec, .free, .pairKeys, .regs, .mgmt] s t ∧ (tget none t.pairKeys i).any
        (fun k => !k.mgmt && !k.due && !k.sealing && k.tag == tag && k.peer == r.peer) = true := fun x n tx rx => by
    obtain ⟨k, hk, hmgmt, htag, hpeer, hdue, hseal⟩ :=
      installKey_entry ({ s with sec := x, free := n } : State) i false tag r.peer tx rx false
    obtain ⟨keys, w, m, ht⟩ := installKey_pieces ({ s with sec := x, free := n } : State) i false tag r.peer tx rx false
    refine ⟨by rw [ht]; exact frame_of_keys s x n keys w m, ?_⟩
    rw [hk]
    simp [hmgmt, htag, hpeer, hdue, hseal]
  unfold State.kxAnswer
  simp only [hjob, Bool.false_eq_true, if_false]
  exact hinstalls _ _ _ _

/-- A finished exchange of a job key installs the initiator's entry (R411, R413). -/
theorem kxInstall_installs (s : State) (r : SeRun) (o : KxOffer) (tag i : Nat) (hjob : r.mgmt = false) :
    let t := s.kxInstall r o tag i
    Frame [.pairKeys, .regs, .mgmt] s t ∧
      (tget none t.pairKeys i).any (fun k => !k.mgmt && k.due && !k.sealing && k.tag == tag && k.peer == r.peer) = true := by
  unfold State.kxInstall
  simp only [hjob, Bool.false_eq_true, if_false]
  generalize kxKeys _ _ _ = keyPair
  obtain ⟨k, hk, hmgmt, htag, hpeer, hdue, hseal⟩ := installKey_entry s i false tag r.peer keyPair.1 keyPair.2 true
  obtain ⟨keys, w, m, ht⟩ := installKey_pieces s i false tag r.peer keyPair.1 keyPair.2 true
  refine ⟨by rw [ht]; exact frame_of_installed s keys w m, ?_⟩
  rw [hk]
  simp [hmgmt, htag, hpeer, hdue, hseal]

/-- The checks of a blob in their order: form, signature, identity (R412). -/
theorem blobCheck_eq (s : State) (r : SeRun) (job mgmt : Nat) (offer : List Byte) :
    s.blobCheck r job mgmt offer =
      if s.blobForm r (if r.mgmt = true then mgmt else job) = false then 2
      else if Config.falconOk (slice r.input 1632 1793) (offer ++ r.input.take 3584) (slice r.input 3584 1280) = false then 3
      else if s.identOk r.mgmt r.input = false then 4 else 0 := by
  unfold State.blobCheck
  simp only [Bool.not_eq_true']

/-- Settles O47: the ends of the engine's commands and of an exchange, each by its own lemma. -/
theorem engineEndsWithKeys : Obligations.EngineEndsWithKeys := by
  unfold Obligations.EngineEndsWithKeys
  refine ⟨fun s => ⟨(exec_seCommandDone s).1, fun r hr => ?_, exec_oldKeyExpiry s⟩, fun s r => ?_⟩
  · obtain ⟨hgoes, hends⟩ := (exec_seCommandDone s).2 r hr
    exact ⟨hgoes, fun h => hends h _ rfl _ rfl _ rfl⟩
  · intro tag slot sound
    obtain ⟨hfailed, hother⟩ := kxDone_refused s r
    refine ⟨hfailed, hother, fun hres howner => ⟨fun hcmd => ?_, fun hcmd => ?_, fun hcmd => ?_⟩, kxOffer_stands s r tag,
      kxAnswer_installs s r tag, fun i o => kxInstall_installs s r o tag i, blobCheck_eq s r⟩
    · exact kxDone_offer s r tag rfl slot rfl hres howner hcmd
    · exact kxDone_accept s r tag rfl slot rfl hres howner hcmd _ rfl
    · obtain ⟨hnone, hfinds⟩ := kxDone_finish s r tag rfl slot rfl hres howner hcmd _ rfl
      exact ⟨hnone, fun o ho => hfinds o ho _ rfl _ rfl⟩

end Sys2Proof.Machine
end

section
/-! PROOF. Reports stand signed, SPDM requests and IDE keys are answered (R419 to R422, R479). -/

namespace Sys2Proof.Machine

/-- A write of ATT_CMD with GO (R420). -/
theorem attCmdOp_cases (s : State) (f : Func) (w : Word) (hgo : w.bit 0 = true) :
    (∀ k, formCheck (locFields Loc.seAttCmd) w = some k → s.attCmdOp f w = .error k) ∧
    (formCheck (locFields Loc.seAttCmd) w = none →
      (s.flag Loc.seAttSts 16 = true → s.attCmdOp f w = .error 6) ∧
      (s.flag Loc.seAttSts 16 = false → s.attCmdOp f w = .ok
        ((s.setFlag Loc.seAttSts 16 true).modSec fun x => { x with attBy := fcode f }))) := by
  unfold State.attCmdOp
  refine ⟨fun k h => by rw [h], fun hform => ?_⟩
  rw [hform]
  dsimp only
  rw [if_neg (by rw [hgo]; decide)]
  exact ⟨fun h => if_pos h, fun h => if_neg (Bool.eq_false_iff.mp h)⟩

/-- A report ends while a belfry is active (R420). -/
theorem exec_attReportDone (s : State) :
    (s.flag Loc.seAttSts 16 = false ∨ s.holder = none → exec .attReportDone s = .next s) ∧
    (s.flag Loc.seAttSts 16 = true → s.holder ≠ none → ∀ r : List Byte × State,
      s.reportAll (if s.sec.attBy = 9 then 0xFE else s.sec.attBy)
        (wordBytes ((List.range 8).map fun k => s.get (Loc.seAttNonce k))) = r →
      exec .attReportDone s = .next
        ((r.2.setFlag Loc.seAttSts 16 false).modSec fun x => { x with report := bytesWords r.1 1473 }).reportCount) := by
  have hexec : exec .attReportDone s = execAttReportDone s := rfl
  unfold execAttReportDone at hexec
  dsimp only at hexec
  rw [hexec]
  refine ⟨fun h => if_pos ?_, fun hbusy hholder r hr => ?_⟩
  · rcases h with h | h
    · rw [h]
      rfl
    · rw [h]
      exact Bool.or_true _
  · rw [if_neg (by rw [hbusy, Option.isNone_eq_false_iff.mpr (Option.isSome_iff_ne_none.mpr hholder)]; decide), hr]

/-- How a DOE request is answered (R421, R479). -/
theorem doe_cases (s : State) (f : Func) (need : Nat) (ok : State → Nat → State) :
    (fnIdx f = none → s.doe f need ok = s) ∧
    (∀ i, fnIdx f = some i →
      (s.step1Over = false ∨ s.holder = none → s.doe f need ok = { s with resp := .retry }) ∧
      (s.step1Over = true → s.holder ≠ none →
        ((s.fn i).spdm < need → s.doe f need ok = { s with resp := .none }) ∧
        (need ≤ (s.fn i).spdm → s.doe f need ok = ok s i))) := by
  unfold State.doe
  refine ⟨fun h => by rw [h], fun i hi => ?_⟩
  rw [hi]
  dsimp only
  refine ⟨fun h => if_pos ?_, fun hover hholder => ?_⟩
  · rcases h with h | h
    · rw [h]
      rfl
    · rw [h]
      exact Bool.or_true _
  · rw [if_neg (by rw [hover, Option.isNone_eq_false_iff.mpr (Option.isSome_iff_ne_none.mpr hholder)]; decide)]
    exact ⟨fun h => if_pos h, fun h => if_neg (Nat.not_lt.mpr h)⟩

/-- The five SPDM requests and the IDE key are DOE requests. -/
theorem exec_doe (s : State) (f : Func) (nonce : List Byte) (key : BitVec 256) :
    ∀ x ∈ [(0, Instr.spdmGetVersion f), (1, .spdmGetCapabilities f), (2, .spdmNegotiateAlgorithms f),
      (3, .spdmVendorDefined f nonce), (3, .spdmKeyExchange f), (4, .ideKm f key)],
      ∃ ok, exec x.2 s = .next (s.doe f x.1 ok) := by
  intro x hx
  simp only [List.mem_cons, List.not_mem_nil, or_false] at hx
  rcases hx with rfl | rfl | rfl | rfl | rfl | rfl <;> exact ⟨_, rfl⟩

/-- Settles O48: the report by its write and its end, the DOE requests by `doe_cases`. -/
theorem reportsAndSessionsRun : Obligations.ReportsAndSessionsRun := by
  unfold Obligations.ReportsAndSessionsRun
  refine fun s => ⟨fun f v => ?_, (exec_attReportDone s).1, fun hbusy hholder => ?_, fun _ _ => rfl, fun f nonce key => ?_⟩
  · intro w loc refused hacc
    have hexec : exec (.attReport f v) s = .next (s.settle f loc (s.attCmdOp f w)) :=
      congrArg Host.Outcome.next (write_accepted hacc fun s => s.attCmdOp f w)
    obtain ⟨hbad, hgood⟩ := attCmdOp_cases s f w (Word.put_bit_one v 0 (by decide))
    rw [hexec]
    refine ⟨fun k hform => by rw [hbad k hform]; rfl, fun hform => ?_⟩
    obtain ⟨hbusy, hfree⟩ := hgood hform
    exact ⟨fun h => by rw [hbusy h]; rfl, fun h => by rw [hfree h]; rfl⟩
  · exact (exec_attReportDone s).2 hbusy hholder _ rfl
  · intro asks
    have hdoe := exec_doe s f nonce key
    refine ⟨fun hnone x hx => ?_, fun i hi => ⟨fun hbusy x hx => ?_, fun hover hholder => ⟨fun x hx hearly => ?_, ?_⟩⟩⟩
    · obtain ⟨ok, hok⟩ := hdoe x hx
      rw [hok, (doe_cases s f x.1 ok).1 hnone]
    · obtain ⟨ok, hok⟩ := hdoe x hx
      rw [hok, ((doe_cases s f x.1 ok).2 i hi).1 hbusy]
    · obtain ⟨ok, hok⟩ := hdoe x hx
      rw [hok, (((doe_cases s f x.1 ok).2 i hi).2 hover hholder).1 hearly]
    · intro at_ ok r d sig
      have hserved : ∀ (need : Nat) (op : State → Nat → State), need ≤ at_ → s.doe f need op = op s i := fun need op =>
        (((doe_cases s f need op).2 i hi).2 hover hholder).2
      exact ⟨congrArg Host.Outcome.next (hserved 0 _ (Nat.zero_le _)), fun h => congrArg Host.Outcome.next (hserved 1 _ h),
        fun h => congrArg Host.Outcome.next (hserved 2 _ h), fun h => congrArg Host.Outcome.next (hserved 3 _ h),
        fun h => congrArg Host.Outcome.next (hserved 3 _ h), fun h => congrArg Host.Outcome.next (hserved 4 _ h)⟩

end Sys2Proof.Machine
end

section
/-! PROOF. Errors reach the log and are acknowledged; timeouts end transactions and recovery (R432 to R439, R450). -/

namespace Sys2Proof.Machine

/-- An entry is handled no later than another: no other is fatal alone, and among those of one kind none is older. -/
def ErrEntry.Heads (e x : ErrEntry) : Prop := (x.cls = 3 → e.cls = 3) ∧ ((x.cls = 3 ↔ e.cls = 3) → e.time ≤ x.time)

theorem ErrEntry.Heads.refl (e : ErrEntry) : e.Heads e := ⟨id, fun _ => le_refl _⟩

theorem ErrEntry.Heads.trans {e x y : ErrEntry} (h : e.Heads x) (h' : x.Heads y) : e.Heads y := by
  obtain ⟨hfatal, htime⟩ := h
  obtain ⟨hfatal', htime'⟩ := h'
  refine ⟨fun hy => hfatal (hfatal' hy), fun hye => ?_⟩
  by_cases hy : y.cls = 3
  · have hx := hfatal' hy
    exact (htime ⟨fun _ => hfatal hx, fun _ => hx⟩).trans (htime' ⟨fun _ => hx, fun _ => hy⟩)
  · have he : ¬e.cls = 3 := fun he => hy (hye.mpr he)
    have hx : ¬x.cls = 3 := fun hx => he (hfatal hx)
    exact (htime ⟨fun h => absurd h hx, fun h => absurd h he⟩).trans (htime' ⟨fun h => absurd h hy, fun h => absurd h hx⟩)

/-- Of two entries, the one that `before` chooses heads the other (R432, R435). -/
theorem ErrEntry.heads_of_before (a b : ErrEntry) :
    (a.before b = true → a.Heads b) ∧ (a.before b = false → b.Heads a) := by
  unfold ErrEntry.before ErrEntry.Heads
  by_cases ha : a.cls = 3 <;> by_cases hb : b.cls = 3 <;> simp [ha, hb] <;> omega

/-- A fold that keeps the entry that comes before leaves one that heads all. -/
theorem foldl_heads (step : Option ErrEntry → ErrEntry → Option ErrEntry)
    (hstep : ∀ x e, step (some x) e = if e.before x = true then some e else some x) (l : List ErrEntry) (a e : ErrEntry)
    (h : l.foldl step (some a) = some e) : (e = a ∨ e ∈ l) ∧ e.Heads a ∧ ∀ x ∈ l, e.Heads x := by
  induction l generalizing a with
  | nil =>
    obtain rfl := Option.some.inj h
    exact ⟨Or.inl rfl, .refl _, fun x hx => absurd hx List.not_mem_nil⟩
  | cons b l ih =>
    rw [List.foldl_cons, hstep] at h
    obtain ⟨hbefore, hafter⟩ := ErrEntry.heads_of_before b a
    by_cases hb : b.before a = true
    · rw [if_pos hb] at h
      obtain ⟨hmem, hhead, hrest⟩ := ih b h
      refine ⟨Or.inr (List.mem_cons.mpr hmem), hhead.trans (hbefore hb), fun x hx => ?_⟩
      rcases List.mem_cons.mp hx with rfl | hx
      · exact hhead
      · exact hrest x hx
    · rw [if_neg hb] at h
      obtain ⟨hmem, hhead, hrest⟩ := ih a h
      refine ⟨hmem.imp_right (List.mem_cons_of_mem b), hhead, fun x hx => ?_⟩
      rcases List.mem_cons.mp hx with rfl | hx
      · exact hhead.trans (hafter (Bool.eq_false_iff.mpr hb))
      · exact hrest x hx

/-- The entry handled next heads a queue, and heads the heads of all (R432, R435). -/
theorem nextEntry_heads (s : State) (e : ErrEntry) (h : s.nextEntry = some e) :
    (∃ q ∈ s.faults.queues, q.2.head? = some e) ∧
      ∀ q ∈ s.faults.queues, ∀ x, q.2.head? = some x → e.Heads x := by
  unfold State.nextEntry at h
  have hmem : ∀ x, x ∈ s.faults.queues.filterMap (fun q => q.2.head?) ↔ ∃ q ∈ s.faults.queues, q.2.head? = some x :=
    fun x => List.mem_filterMap
  generalize s.faults.queues.filterMap (fun q => q.2.head?) = heads at h hmem
  rcases heads with _ | ⟨a, l⟩
  · cases h
  · obtain ⟨hin, hhead, hrest⟩ := foldl_heads _ (fun _ _ => rfl) l a e h
    refine ⟨(hmem e).mp (List.mem_cons.mpr hin), fun q hq x hx => ?_⟩
    rcases List.mem_cons.mp ((hmem x).mpr ⟨q, hq, hx⟩) with rfl | hx
    · exact hhead
    · exact hrest x hx

/-- The fault service takes the next entry out of its queue and logs it (R432). -/
theorem exec_errorHandle (s : State) :
    (s.holder = none ∨ s.nextEntry = none → exec .errorHandle s = .next s) ∧
    (∀ e, s.holder ≠ none → s.nextEntry = some e → exec .errorHandle s = .next
      ((s.setQueue e.page ((s.queue e.page).drop 1)).logEntry e)) := by
  have hexec : exec .errorHandle s = execErrorHandle s := rfl
  unfold execErrorHandle at hexec
  rw [hexec]
  refine ⟨fun h => ?_, fun e hholder he => ?_⟩
  · by_cases hnone : s.holder = none
    · exact if_pos (Option.isNone_iff_eq_none.mpr hnone)
    · rw [h.resolve_left hnone]
      exact ite_self _
  · rw [if_neg (mt Option.isNone_iff_eq_none.mp hholder), he]

/-- An entry merges, or becomes a record (R430, R434). -/
theorem logEntry_cases (s : State) (e : ErrEntry) :
    (∀ i, mergePlace s.faults.log e = some i → s.logEntry e = s.modFaults fun f => { f with
      log := lmod f.log i fun r => { r with e := { r.e with rep := min 255 (r.e.rep + e.rep + 1), last := e.last } } }) ∧
    (mergePlace s.faults.log e = none → s.logEntry e = (s.logAppend e).managed) := by
  unfold State.logEntry
  exact ⟨fun i h => by rw [h], fun h => by rw [h]⟩

/-- Counting a dropped record leaves the log. -/
theorem logDrop_faults (s : State) (cls : Nat) : (s.logDrop cls).faults = s.faults := by
  unfold State.logDrop
  split <;> rfl

/-- What a new record does to the log (R436). -/
theorem logAppend_log (s : State) (e : ErrEntry) (l : List LogRec) (hl : s.faults.log = l) (c : Nat)
    (hc : lowestClass (l.map (·.e.cls)) = c) (seq : Nat) (hseq : s.faults.nextSeq = seq) : (s.logAppend e).faults.log =
      if 256 ≤ l.length ∧ e.cls < c then l
      else (if 256 ≤ l.length then dropClass (fun (r : LogRec) => r.e.cls) c l else l) ++ [{ e := e, seq := seq }] := by
  have hirq : ∀ (u : State) (b : Prop) [Decidable b], (if b then u.irq 0 0 else u).faults = u.faults := fun u b _ => by
    split <;> rfl
  have hpend : ∀ (u : State) (b : Prop) [Decidable b],
      (if b then u.pendField Loc.moMonCtl 0 0 1 else u).faults = u.faults := fun u b _ => by split <;> rfl
  have hfull : (decide (256 ≤ l.length) && decide (e.cls < c)) = true ↔ 256 ≤ l.length ∧ e.cls < c := by
    rw [Bool.and_eq_true, decide_eq_true_iff, decide_eq_true_iff]
  unfold State.logAppend
  dsimp only
  rw [hl, hc]
  by_cases h : 256 ≤ l.length ∧ e.cls < c
  · rw [if_pos (hfull.mpr h), if_pos h, logDrop_faults, hl]
  · rw [if_neg (mt hfull.mp h), if_neg h, hpend, hirq]
    have hkept : (if 256 ≤ l.length then s.logDrop c else s).faults = s.faults := by
      split
      · exact logDrop_faults s c
      · rfl
    simp only [State.modFaults, hkept, hseq, decide_eq_true_eq]

/-- A class below 4 that is the lowest is present. -/
theorem lowestClass_mem (l : List Nat) (h : lowestClass l < 4) : lowestClass l ∈ l := by
  have hfold : ∀ (l : List Nat) (a : Nat), l.foldl min a = a ∨ l.foldl min a ∈ l := by
    intro l
    induction l with
    | nil => exact fun a => Or.inl rfl
    | cons b l ih =>
      intro a
      rw [List.foldl_cons]
      rcases ih (min a b) with heq | hmem
      · rcases min_choice a b with hmin | hmin
        · exact Or.inl (heq.trans hmin)
        · exact Or.inr (by rw [heq, hmin]; exact List.mem_cons_self)
      · exact Or.inr (List.mem_cons_of_mem b hmem)
  rcases hfold l 4 with heq | hmem
  · exact absurd heq h.ne
  · exact hmem

/-- Dropping an element of a class that is present shortens the list by one. -/
theorem length_dropClass {α : Type} (cls : α → Nat) (c : Nat) (l : List α) (h : c ∈ l.map cls) :
    (dropClass cls c l).length + 1 = l.length := by
  induction l with
  | nil => cases h
  | cons a l ih =>
    unfold dropClass
    by_cases ha : cls a = c
    · rw [if_pos ha, List.length_cons]
    · rw [if_neg ha, List.length_cons, List.length_cons, ih]
      exact (List.mem_cons.mp h).resolve_left fun hc => ha hc.symm

/-- A log with room takes the record behind the others, and a full log never grows (R436). -/
theorem logAppend_bounds (s : State) (e : ErrEntry) :
    (s.faults.log.length < 256 → (s.logAppend e).faults.log = s.faults.log ++ [{ e := e, seq := s.faults.nextSeq }]) ∧
    (e.cls ≤ 3 → (s.logAppend e).faults.log.length ≤ max 256 s.faults.log.length) := by
  rw [logAppend_log s e _ rfl _ rfl _ rfl]
  generalize s.faults.log = l
  refine ⟨fun hroom => ?_, fun hcls => ?_⟩
  · rw [if_neg fun h => absurd h.1 (Nat.not_le.mpr hroom), if_neg (Nat.not_le.mpr hroom)]
  · by_cases hfull : 256 ≤ l.length
    · by_cases hlow : e.cls < lowestClass (l.map (·.e.cls))
      · rw [if_pos ⟨hfull, hlow⟩]
        exact le_max_right _ _
      · rw [if_neg fun h => hlow h.2, if_pos hfull, List.length_append, List.length_singleton,
          length_dropClass _ _ _ (lowestClass_mem _ (by omega))]
        exact le_max_right _ _
    · rw [if_neg fun h => hfull h.1, if_neg hfull, List.length_append, List.length_singleton]
      exact le_max_of_le_left (by omega)

/-- The acknowledged records removed, and with the last restored one the mark and the copy (R438). -/
def State.logCleared (s : State) : State :=
  let u := s.modFaults fun x => { x with log := x.log.filter fun r => !r.ack }
  if u.faults.log.any (·.prior) = true ∨ s.flag Loc.glFaultSts 1 = false then u
  else (u.setFlag Loc.glFaultSts 1 false).modFaults fun x => { x with saved := [] }

/-- LOG_ACK written, by its two bits (R438). -/
theorem logAckOp_cases (s : State) (w : Word) (acked : State)
    (hacked : (s.modFaults fun x => { x with log := lmod x.log (s.fld Loc.glLogSel 7 0) fun r => { r with ack := true } }) = acked) :
    (∀ k, formCheck (locFields Loc.glLogAck) w = some k → s.logAckOp w = .error k) ∧
    (formCheck (locFields Loc.glLogAck) w = none →
      (w.bit 0 = true → w.bit 1 = false → s.logAckOp w = .ok acked) ∧
      (w.bit 0 = true → w.bit 1 = true → s.logAckOp w = .ok acked.logCleared) ∧
      (w.bit 0 = false → w.bit 1 = true → s.logAckOp w = .ok s.logCleared)) := by
  have hclears : ∀ t u : State, (t.modFaults fun x => { x with log := x.log.filter fun r => !r.ack }) = u →
      u.flag Loc.glFaultSts 1 = t.flag Loc.glFaultSts 1 →
      (if (u.faults.log.any (·.prior) || !u.flag Loc.glFaultSts 1) = true then (Except.ok u : WR)
        else .ok ((u.setFlag Loc.glFaultSts 1 false).modFaults fun x => { x with saved := [] })) = .ok t.logCleared := by
    intro t u hu hflag
    unfold State.logCleared
    rw [hu, hflag]
    simp only [Bool.or_eq_true, Bool.not_eq_true']
    exact (apply_ite _ _ _ _).symm
  unfold State.logAckOp
  refine ⟨fun k h => by rw [h], fun hform => ?_⟩
  rw [hform]
  dsimp only
  rw [hacked]
  refine ⟨fun h0 h1 => ?_, fun h0 h1 => ?_, fun h0 h1 => ?_⟩ <;> rw [h0, h1]
  · rfl
  · exact hclears acked _ rfl rfl
  · exact hclears s _ rfl rfl

/-- A write of LOG_ACK reaches it. -/
theorem exec_logAcks (s : State) (f : Func) (v : Word) :
    (s.accepts f Loc.glLogAck (v.put 0 0 1) → exec (.logAck f v) s = .next
      (s.settle f Loc.glLogAck (s.logAckOp (v.put 0 0 1)))) ∧
    (s.accepts f Loc.glLogAck (v.put 1 1 1) → exec (.logClear f v) s = .next
      (s.settle f Loc.glLogAck (s.logAckOp (v.put 1 1 1)))) :=
  ⟨fun hacc => congrArg Host.Outcome.next (write_accepted hacc fun s => s.logAckOp _),
   fun hacc => congrArg Host.Outcome.next (write_accepted hacc fun s => s.logAckOp _)⟩

/-- The timeout of a transaction of the fabric (R439). -/
theorem exec_completionTimeout_txn (s : State) (n : Nat) (hn : n < 65536) :
    (s.txn n = none → exec (.completionTimeout n) s = .next s) ∧
    (∀ x : Txn, s.txn n = some x →
      (x.copies ≠ [] → exec (.completionTimeout n) s = .next s) ∧
      (x.copies = [] → ∀ t, s.waitUntil (x.opened + 1000000 * s.fld Loc.glFaultCtl 17 10) = some t →
        exec (.completionTimeout n) s = .next (t.txnTimeout x).settleAll)) := by
  have hexec : exec (.completionTimeout n) s = execCompletionTimeout n s := rfl
  unfold execCompletionTimeout at hexec
  rw [if_pos hn] at hexec
  rw [hexec]
  refine ⟨fun h => by rw [h], fun x hx => ?_⟩
  rw [hx]
  dsimp only
  refine ⟨fun h => if_pos ?_, fun h t ht => ?_⟩
  · rw [Bool.not_eq_true', Bool.eq_false_iff]
    exact mt List.isEmpty_iff.mp h
  · rw [h, ht]
    rfl

/-- The timeout of a transaction inside the device (R439). -/
theorem exec_completionTimeout_call (s : State) (a tid n : Nat) (htid : tid < 65536) (hn : 65536 * (a + 32) + tid = n) :
    (s.callAt a tid = none → exec (.completionTimeout n) s = .next s) ∧
    (∀ c : Call, s.callAt a tid = some c → ∀ t, s.waitUntil (c.sent + 10000 * s.fld Loc.glFaultCtl 9 0) = some t →
      exec (.completionTimeout n) s = .next (t.callTimeout c).settleAll) := by
  have hexec : exec (.completionTimeout n) s = execCompletionTimeout n s := rfl
  unfold execCompletionTimeout at hexec
  rw [if_neg (by omega), if_pos (by omega), show n / 65536 - 32 = a by omega, show n % 65536 = tid by omega] at hexec
  rw [hexec]
  refine ⟨fun h => by rw [h], fun c hc t ht => ?_⟩
  rw [hc]
  dsimp only
  rw [ht]

/-- The timeout of a message of a spire to itself (R439). -/
theorem exec_completionTimeout_msg (s : State) (n : Fin 16) (id k : Nat) (hid : id < 65536) (hk : 65536 * (n + 1) + id = k) :
    ((s.spire n).msg id = none → exec (.completionTimeout k) s = .next s) ∧
    (∀ m : OutMsg, (s.spire n).msg id = some m →
      (m.dev ≠ none ∨ m.dst ≠ n → exec (.completionTimeout k) s = .next s) ∧
      (m.dev = none → m.dst = n → ∀ t, s.waitUntil (m.sent + 10000 * s.fld Loc.glFaultCtl 9 0) = some t →
        exec (.completionTimeout k) s = .next (t.msgTimeout n id m).settleAll)) := by
  have hlt := n.isLt
  have hexec : exec (.completionTimeout k) s = execCompletionTimeout k s := rfl
  unfold execCompletionTimeout at hexec
  dsimp only at hexec
  rw [if_neg (by omega), if_neg (by omega), show k / 65536 - 1 = n.val by omega, show k % 65536 = id by omega] at hexec
  rw [hexec]
  refine ⟨fun h => by rw [h], fun m hm => ?_⟩
  rw [hm]
  dsimp only
  refine ⟨fun h => if_pos (h.imp_left Option.isSome_iff_ne_none.mpr), fun hdev hdst t ht => ?_⟩
  rw [if_neg (by rintro (h | h); exacts [Option.isSome_iff_ne_none.mp h hdev, h hdst]), ht]

/-- Recovery with AUTO_RESET resets the module after 100 ms (R450). -/
theorem exec_recoveryAutoReset (s : State) :
    (s.flag Loc.glFaultSts 0 = false ∨ s.flag Loc.glFaultCtl 18 = false → exec .recoveryAutoReset s = .next s) ∧
    (s.flag Loc.glFaultSts 0 = true → s.flag Loc.glFaultCtl 18 = true → s.reaches (s.faults.recoveryAt + 100000000) →
      exec .recoveryAutoReset s = .next (s.atTime (s.faults.recoveryAt + 100000000)).moduleReset) := by
  have hexec : exec .recoveryAutoReset s = execRecoveryAutoReset s := rfl
  unfold execRecoveryAutoReset at hexec
  rw [hexec]
  refine ⟨fun h => if_pos ?_, fun hrec hauto hreach => ?_⟩
  · rcases h with h | h
    · rw [h]
      rfl
    · rw [h]
      exact Bool.or_true _
  · rw [if_neg (by rw [hrec, hauto]; decide), waitUntil_reaches s _ hreach]

/-- Settles O49: the fault service by the order of the heads and the room of the log, then each command by its own lemma. -/
theorem errorsAreLogged : Obligations.ErrorsAreLogged := by
  unfold Obligations.ErrorsAreLogged
  refine ⟨fun s => ⟨(exec_errorHandle s).1, fun e hholder he => ?_⟩, fun s f v => ?_, fun s => ?_⟩
  · intro u
    obtain ⟨hhead, hheads⟩ := nextEntry_heads s e he
    obtain ⟨hmerge, hrecord⟩ := logEntry_cases u e
    have hexec := (exec_errorHandle s).2 e hholder he
    obtain ⟨hroom, hfull⟩ := logAppend_bounds u e
    rw [hexec]
    exact ⟨hhead, fun q hq x hx => (hheads q hq x hx).1, fun q hq x hx => (hheads q hq x hx).2,
      fun i hi => congrArg _ (hmerge i hi), fun hnone => ⟨congrArg _ (hrecord hnone), hroom, hfull⟩⟩
  · intro loc refused acked cleared
    refine ⟨?_, ?_⟩
    · intro w hacc
      obtain ⟨hbad, hgood⟩ := logAckOp_cases s w acked rfl
      rw [(exec_logAcks s f v).1 hacc]
      refine ⟨fun k hform => by rw [hbad k hform]; rfl, fun hform => ?_⟩
      obtain ⟨hack, hboth, -⟩ := hgood hform
      have h0 : w.bit 0 = true := Word.put_bit_one v 0 (by decide)
      exact ⟨fun h1 => by rw [hack h0 h1]; rfl, fun h1 => by rw [hboth h0 h1]; rfl⟩
    · intro w hacc
      obtain ⟨hbad, hgood⟩ := logAckOp_cases s w acked rfl
      rw [(exec_logAcks s f v).2 hacc]
      refine ⟨fun k hform => by rw [hbad k hform]; rfl, fun hform => ?_⟩
      obtain ⟨-, hboth, hclear⟩ := hgood hform
      have h1 : w.bit 1 = true := Word.put_bit_one v 1 (by decide)
      exact ⟨fun h0 => by rw [hclear h0 h1]; rfl, fun h0 => by rw [hboth h0 h1]; rfl⟩
  · refine ⟨fun n hn => ?_, fun a tid htid => ?_, fun n id hid => ?_, fun _ => rfl, (exec_recoveryAutoReset s).1,
      (exec_recoveryAutoReset s).2⟩
    · obtain ⟨hnone, hsome⟩ := exec_completionTimeout_txn s n hn
      exact ⟨hnone, fun x hx => ⟨(hsome x hx).1,
        fun hcopies hreach => (hsome x hx).2 hcopies _ (waitUntil_reaches s _ hreach)⟩⟩
    · obtain ⟨hnone, hsome⟩ := exec_completionTimeout_call s a tid _ htid rfl
      exact ⟨hnone, fun c hc hreach => hsome c hc _ (waitUntil_reaches s _ hreach)⟩
    · obtain ⟨hnone, hsome⟩ := exec_completionTimeout_msg s n id _ hid rfl
      exact ⟨hnone, fun m hm => ⟨(hsome m hm).1,
        fun hdev hdst hreach => (hsome m hm).2 hdev hdst _ (waitUntil_reaches s _ hreach)⟩⟩

end Sys2Proof.Machine
end

section
/-! PROOF. Resets are asked, asserted and returned from; RESET_N holds and starts the module (R445 to R449, R471 to R475). -/

namespace Sys2Proof.Machine

/-- A target is out of its range, or an undefined partition (R446). -/
theorem badTarget_iff (s : State) (scope g : Nat) (hscope : scope ≤ 7) (hg : g < 32) : s.badTarget scope g = true ↔
    (3 ≤ scope ∧ [2, 16, 8, 8, 32].getD (scope - 3) 0 ≤ g) ∨ (scope = 6 ∧ s.defined g = false) := by
  unfold State.badTarget
  interval_cases scope <;> simp
  omega

/-- The check of a request of RESET_CTL, code by code (R446). -/
theorem resetCheck_cases (s : State) (scope g : Nat) (hscope : scope ≤ 7) (hg : g < 32) (bad barred : Prop)
    (hbad : ((3 ≤ scope ∧ [2, 16, 8, 8, 32].getD (scope - 3) 0 ≤ g) ∨ (scope = 6 ∧ s.defined g = false)) = bad)
    (hbarred : ((scope = 3 ∧ (s.role g = 3 ∨ s.halved = true)) ∨ (scope = 4 ∧ s.power.tripped.contains g = true)) = barred) :
    (bad → s.resetCheck scope g = some 2) ∧
    (¬bad → barred → s.resetCheck scope g = some 5) ∧
    (¬bad → ¬barred → s.insideReset scope g = true → s.resetCheck scope g = some 6) ∧
    (¬bad → ¬barred → s.insideReset scope g = false → s.resetCheck scope g = none) := by
  subst hbad hbarred
  have hbad := badTarget_iff s scope g hscope hg
  unfold State.resetCheck
  refine ⟨fun h => if_pos (hbad.mpr h), fun h hbarred => ?_, fun h hfree hin => ?_, fun h hfree hout => ?_⟩ <;>
    rw [if_neg (mt hbad.mp h)]
  · by_cases h3 : scope = 3 ∧ (s.role g = 3 ∨ s.halved = true)
    · exact if_pos h3
    · rw [if_neg h3, if_pos (hbarred.resolve_left h3)]
  · obtain ⟨h3, h4⟩ := not_or.mp hfree
    rw [if_neg h3, if_neg h4, if_pos hin]
  · obtain ⟨h3, h4⟩ := not_or.mp hfree
    rw [if_neg h3, if_neg h4, if_neg (Bool.eq_false_iff.mp hout)]

/-- RESET_CTL written with GO and a scope (R445, R446). -/
theorem resetCtlOp_cases (s : State) (w : Word) (scope g : Nat) (hgo : w.bit 31 = true) (hscope : w.bits 2 0 = scope)
    (hnone : scope ≠ 0) (hg : w.bits 7 3 = g) :
    (∀ k, formCheck (locFields Loc.glResetCtl) w = some k → s.resetCtlOp w = .error k) ∧
    (formCheck (locFields Loc.glResetCtl) w = none →
      (∀ k, s.resetCheck scope g = some k → s.resetCtlOp w = .error k) ∧
      (s.resetCheck scope g = none →
        (scope = 1 → s.resetCtlOp w = .ok s.coldReset) ∧
        (scope = 2 → s.resetCtlOp w = .ok s.moduleReset) ∧
        (3 ≤ scope → s.resetCtlOp w = .ok ((s.put Loc.glResetSts (BitVec.ofNat 32 (scope * 2 + g * 16))).modFaults fun y =>
          { y with resets := y.resets ++ [{ scope := scope, target := g }] })))) := by
  unfold State.resetCtlOp
  refine ⟨fun k h => by rw [h], fun hform => ?_⟩
  rw [hform]
  dsimp only
  rw [hscope, hg, if_neg (by rw [hgo]; rintro (h | h); exacts [absurd h (by decide), hnone h])]
  refine ⟨fun k h => by rw [h], fun h => ?_⟩
  rw [h]
  dsimp only
  refine ⟨fun h1 => if_pos h1, fun h2 => ?_, fun h3 => ?_⟩
  · rw [if_neg (by omega), if_pos h2]
  · rw [if_neg (by omega), if_neg (by omega)]

/-- The seven requests are writes of RESET_CTL. -/
theorem exec_resetCmds (s : State) (f : Func) (v : Word) :
    ∀ x ∈ [(1, Instr.resetCold f v), (2, .resetModule f v), (3, .resetPlinth f v), (4, .resetSpire f v),
        (5, .resetGatehouse f v), (6, .resetPartition f v), (7, .resetPort f v)],
      (1 ≤ x.1 ∧ x.1 ≤ 7) ∧ exec x.2 s = .next (s.resetCmd f v x.1) := by
  intro x hx
  simp only [List.mem_cons, List.not_mem_nil, or_false] at hx
  rcases hx with rfl | rfl | rfl | rfl | rfl | rfl | rfl <;> exact ⟨by norm_num, rfl⟩

/-- The reset of a plinth is asserted when its links are idle, or 20 µs after its tick (R449). -/
theorem exec_plinthResetAssert (s : State) (waiting : Option Reset)
    (hwaiting : (s.faults.resets.find? fun x => x.scope == 3 && x.phase == 2) = waiting) :
    (waiting = none → exec .plinthResetAssert s = .next s) ∧
    (∀ r : Reset, waiting = some r → ∀ idle : Bool,
      ((s.links.filter fun x => x.1 % 4 / 2 == r.target).all fun x => x.2.retry.isEmpty) = idle →
      (idle = true → exec .plinthResetAssert s = .next (s.plinthAssert r.target).settleAll) ∧
      (idle = false → s.reaches (r.since + 20000) →
        exec .plinthResetAssert s = .next ((s.atTime (r.since + 20000)).plinthAssert r.target).settleAll)) := by
  have hexec : exec .plinthResetAssert s = execPlinthResetAssert s := rfl
  unfold execPlinthResetAssert at hexec
  rw [hwaiting] at hexec
  rw [hexec]
  refine ⟨fun h => by rw [h], fun r hr idle hidle => ?_⟩
  rw [hr]
  dsimp only
  rw [hidle]
  exact ⟨fun h => if_pos h, fun h hreach => by rw [if_neg (Bool.eq_false_iff.mp h), waitUntil_reaches s _ hreach]⟩

/-- A finished reset goes, once the requests held for it are applied (R448). -/
def State.resetEnds (u : State) (r : Reset) : State :=
  (u.applyHeld.modFaults fun f =>
    { f with resets := f.resets.filter fun x => !(x.scope == r.scope && x.target == r.target) }).settleAll

section Return

variable (s : State) (tests : List (Fin 16 × SpireTest)) (r : Reset)
  (hr : (s.faults.resets.find? fun x => x.phase == 3) = some r) (spires : List Nat) (hspires : s.resetSpires r = spires)
include hr hspires

/-- The parts of a reset that do not return stay out (R448). -/
theorem exec_resetReturn_fails (lost : State)
    (hlost : spires.foldl (fun s n => s.modSpire n fun x => { x with out := if x.out = 1 then 2 else x.out }) s = lost) :
    exec (.resetReturn tests false) s = .next (State.resetEnds (State.resetFailed
      (if r.scope = 5 then lost.modGate r.target fun g => { g with out := 2 }
       else if r.scope = 3 then lost.modPlinth r.target fun x => { x with out := 2 } else lost)) r) := by
  have hexec : exec (.resetReturn tests false) s = execResetReturn tests false s := rfl
  unfold execResetReturn at hexec
  rw [hr] at hexec
  dsimp only at hexec
  rw [hspires, hlost, if_pos (by decide)] at hexec
  rw [hexec]
  by_cases h5 : r.scope = 5
  · rw [if_pos h5, if_pos h5, if_neg (by omega)]
    rfl
  · rw [if_neg h5, if_neg h5]
    rfl

/-- The parts of a reset that return (R448, R449). -/
theorem exec_resetReturn_returns (back : State)
    (hback : spires.foldl (fun s n => if (s.spire n).out = 1 then s.spireBack n (testOf tests n) else s) s = back)
    (gated : State) (hgated : (if r.scope = 5 then back.modGate r.target fun g => { g with out := if g.out = 1 then 0 else g.out }
      else back) = gated) :
    (r.scope = 3 → exec (.resetReturn tests true) s = .next ((spires.foldl (fun s n =>
        s.modSpire n fun x => { x with out := if x.out = 0 then 1 else x.out }) back).modFaults fun f =>
      { f with resets := f.resets.map fun x => if x.scope = 3 ∧ x.target = r.target then { x with phase := 4, up := true } else x })) ∧
    (r.scope ≠ 3 → (∀ n ∈ spires, (gated.spire n).out = 0) → exec (.resetReturn tests true) s = .next (gated.resetEnds r)) ∧
    (r.scope ≠ 3 → (∃ n ∈ spires, (gated.spire n).out ≠ 0) →
      exec (.resetReturn tests true) s = .next (gated.resetFailed.resetEnds r)) := by
  have hexec : exec (.resetReturn tests true) s = execResetReturn tests true s := rfl
  unfold execResetReturn at hexec
  rw [hr] at hexec
  dsimp only at hexec
  rw [hspires, hback, hgated, if_neg (by decide)] at hexec
  rw [hexec]
  have hout : (spires.any fun n => (gated.spire n).out != 0) = true ↔ ∃ n ∈ spires, (gated.spire n).out ≠ 0 := by
    simp only [List.any_eq_true, bne_iff_ne]
  refine ⟨fun h => if_pos h, fun h hall => ?_, fun h hsome => ?_⟩ <;> rw [if_neg h]
  · rw [if_neg (mt hout.mp fun ⟨n, hn, hne⟩ => hne (hall n hn))]
    rfl
  · rw [if_pos (hout.mpr hsome)]
    rfl

end Return

/-- Without an asserted reset nothing returns. -/
theorem exec_resetReturn_none (s : State) (tests : List (Fin 16 × SpireTest)) (ok : Bool)
    (h : (s.faults.resets.find? fun x => x.phase == 3) = none) : exec (.resetReturn tests ok) s = .next s := by
  have hexec : exec (.resetReturn tests ok) s = execResetReturn tests ok s := rfl
  unfold execResetReturn at hexec
  rw [h] at hexec
  exact hexec

/-- A new level of an input, at the time that it has held (R471). -/
theorem inputEdge_cases (t : State) (i : Nat) (high : Bool) (u : State)
    (hu : (State.setFlag { t with start := { t.start with edgeAt := t.start.edgeAt.set i t.clk.elapsed } } Loc.glSbSts 0 high i).addSat
      Loc.glSbSts 31 16 1 i = u) :
    (t.flag Loc.glSbSts 0 i = high ∧ t.flag Loc.glSbSts 1 i ≠ high → t.inputEdge i high = t) ∧
    (¬(t.flag Loc.glSbSts 0 i = high ∧ t.flag Loc.glSbSts 1 i ≠ high) →
      (u.chattering i = true → t.inputEdge i high = u) ∧
      (u.chattering i = false → t.inputEdge i high = u.takeInput i high)) := by
  unfold State.inputEdge
  dsimp only
  rw [hu]
  refine ⟨fun h => if_pos h, fun h => ?_⟩
  rw [if_neg h]
  exact ⟨fun hc => if_pos hc, fun hc => if_neg (Bool.eq_false_iff.mp hc)⟩

/-- A level of an input that has held for its filter time (R471). -/
theorem filteredEdge_reaches (s : State) (i : Nat) (high : Bool) (t : State)
    (ht : s.waitUntil (lget 0 s.start.edgeAt i + 1000 * s.fld Loc.glSbCfg 7 0 i) = some t) :
    s.filteredEdge i high = t.inputEdge i high := by
  unfold State.filteredEdge
  rw [ht]

/-- Settles O50: the requests by the checks of RESET_CTL, the assertion, the return and RESET_N, each by its own lemma. -/
theorem resetsAreAskedAndRun : Obligations.ResetsAreAskedAndRun := by
  unfold Obligations.ResetsAreAskedAndRun
  refine ⟨fun s f v => ?_, fun s => ⟨?_, fun tests => ?_⟩, fun s => ?_⟩
  · intro loc refused x hx w g bad barred hacc
    obtain ⟨hrange, hexec⟩ := exec_resetCmds s f v x hx
    have hsettles : s.resetCmd f v x.1 = s.settle f loc (s.resetCtlOp w) := write_accepted hacc fun s => s.resetCtlOp w
    have hgo : w.bit 31 = true := by
      unfold Word.bit
      rw [Word.put_getLsbD _ _ _ _ _ (by decide), if_neg (by decide)]
      exact Word.put_go v
    have hscope : w.bits 2 0 = x.1 :=
      (Word.put_bits _ 2 0 x.1 (by decide) (by decide)).trans (Nat.mod_eq_of_lt (by omega))
    obtain ⟨hbad, hgood⟩ := resetCtlOp_cases s w x.1 g hgo hscope (by omega) rfl
    obtain ⟨htarget, hbars, hinside, hclear⟩ :=
      resetCheck_cases s x.1 g hrange.2 (Nat.mod_lt _ (by decide)) bad barred rfl rfl
    rw [hexec, hsettles]
    refine ⟨fun k hform => by rw [hbad k hform]; rfl, fun hform => ?_⟩
    obtain ⟨hcode, htaken⟩ := hgood hform
    refine ⟨fun h => by rw [hcode 2 (htarget h)]; rfl, fun h hb => by rw [hcode 5 (hbars h hb)]; rfl,
      fun h hb hi => by rw [hcode 6 (hinside h hb hi)]; rfl, fun h hb hi => ?_⟩
    obtain ⟨hcold, hmodule, hrest⟩ := htaken (hclear h hb hi)
    exact ⟨fun h1 => by rw [hcold h1]; rfl, fun h2 => by rw [hmodule h2]; rfl, fun h3 => by rw [hrest h3]; rfl⟩
  · obtain ⟨hnone, hasserts⟩ := exec_plinthResetAssert s _ rfl
    exact ⟨hnone, fun r hr => hasserts r hr _ rfl⟩
  · intro asserted
    refine ⟨fun ok h => exec_resetReturn_none s tests ok h, fun r hr => ?_⟩
    intro ends spires lost back gated
    exact ⟨exec_resetReturn_fails s tests r hr spires rfl lost rfl, exec_resetReturn_returns s tests r hr spires rfl back rfl gated rfl⟩
  · intro at_ t u hreach
    have hedge := fun high => filteredEdge_reaches s 0 high t (waitUntil_reaches s _ hreach)
    obtain ⟨hsame, hnew⟩ := forall_and.mp fun high => inputEdge_cases t 0 high (u high) rfl
    refine ⟨fun x hx => ?_, fun h hc => ?_, fun h hc => ?_⟩
    · have hexec : exec x.2 s = .next (s.filteredEdge 0 x.1) := by
        simp only [List.mem_cons, List.not_mem_nil, or_false] at hx
        rcases hx with rfl | rfl <;> rfl
      rw [hexec, hedge x.1]
      exact ⟨fun h => congrArg _ (hsame x.1 h), fun h hc => congrArg _ ((hnew x.1 h).1 hc)⟩
    · exact congrArg Host.Outcome.next ((hedge false).trans ((hnew false h).2 hc))
    · exact congrArg Host.Outcome.next ((hedge true).trans ((hnew true h).2 hc))

end Sys2Proof.Machine
end

section
/-! PROOF. The steps of the start end or reach their limits (R475, R478, Table HS-11). -/

namespace Sys2Proof.Machine

/-- The end of the steps 1 to 8 (R475). -/
theorem stepEnd_cases (s : State) (r : StepResult) :
    (s.step_ = 1 →
      (r.eastPass = true → s.imagesPass r = true → s.stepEnd r = s.bootEast r.westPass) ∧
      (r.eastPass = false ∨ s.imagesPass r = false → s.stepEnd r = s)) ∧
    (s.step_ = 2 → (r.pass = true → s.stepEnd r = s.beginStep 3) ∧ (r.pass = false → s.stepEnd r = s.fuseFail r.fuseBlock)) ∧
    (s.step_ = 3 → s.stepEnd r = s.lanesStep r) ∧
    (s.step_ = 4 → (s.bothLit = true → s.stepEnd r = s.beginStep 5) ∧ (s.bothLit = false → s.stepEnd r = s)) ∧
    (s.step_ = 5 → s.stepEnd r = s.trainStep r) ∧
    (s.step_ = 6 → s.stepEnd r = s.memoryStep r) ∧
    (s.step_ = 7 → s.stepEnd r = s.mapStep) ∧
    (s.step_ = 8 → (s.timeState = 2 → s.stepEnd r = (s.beginStep 9).openFabric) ∧ (s.timeState ≠ 2 → s.stepEnd r = s)) := by
  unfold State.stepEnd
  refine ⟨fun h => ?_, fun h => ?_, fun h => ?_, fun h => ?_, fun h => ?_, fun h => ?_, fun h => ?_, fun h => ?_⟩ <;>
    simp only [h]
  · refine ⟨fun he hi => if_pos (by rw [he, hi]; rfl), fun hno => if_neg ?_⟩
    rcases hno with hno | hno <;> simp only [hno, Bool.false_and, Bool.and_false, Bool.false_eq_true, not_false_iff]
  · exact ⟨fun hp => if_pos hp, fun hp => if_neg (Bool.eq_false_iff.mp hp)⟩
  · exact ⟨fun hl => if_pos hl, fun hl => if_neg (Bool.eq_false_iff.mp hl)⟩
  · exact ⟨fun ht => if_pos ht, fun ht => if_neg ht⟩

/-- The end of step 9 (R475). -/
theorem stepEnd_nine (s : State) (r : StepResult) (h : s.step_ = 9) :
    (s.hasUpper = true → (s.fld Loc.glMgmtSts 1 0 = 1 → s.stepEnd r = s.startDone) ∧
      (s.fld Loc.glMgmtSts 1 0 ≠ 1 → s.stepEnd r = s)) ∧
    (s.hasUpper = false → (s.portsSettled = true → s.stepEnd r = s.startDone) ∧
      (s.portsSettled = false → ∀ t, s.waitUntil (s.start.stepAt + 1000000000) = some t → s.stepEnd r = t.startDone)) := by
  unfold State.stepEnd
  simp only [h]
  refine ⟨fun hupper => ?_, fun halone => ?_⟩
  · rw [if_pos hupper]
    exact ⟨fun ha => if_pos ha, fun ha => if_neg ha⟩
  · rw [if_neg (Bool.eq_false_iff.mp halone)]
    refine ⟨fun hs => if_pos hs, fun hs t ht => ?_⟩
    rw [if_neg (Bool.eq_false_iff.mp hs), ht]

/-- No step ends outside 1 to 9. -/
theorem stepEnd_none (s : State) (r : StepResult) (h : s.step_ = 0 ∨ 9 < s.step_) : s.stepEnd r = s := by
  unfold State.stepEnd
  rcases h with h | h
  · simp only [h]
  · obtain ⟨k, hk⟩ := Nat.exists_eq_add_of_lt h
    have hten : s.step_ = k + 10 := by omega
    simp only [hten]

/-- A step that runs, or a halted step 4, ends (R475). -/
theorem exec_startStepEnd (s : State) (r : StepResult) (runs : Prop)
    (hruns : (s.stepState = 0 ∨ (s.stepState = 3 ∧ s.step_ = 4)) = runs) :
    (¬runs → exec (.startStepEnd r) s = .next s) ∧ (runs → exec (.startStepEnd r) s = .next (s.stepEnd r).settleAll) := by
  subst hruns
  exact ⟨fun h => if_neg h, fun h => if_pos h⟩

/-- The outcome of a step at its limit (R475, R478). -/
theorem stepLimitEnd_cases (t : State) (r : StepResult) (u : State)
    (hu : (if t.step_ = 8 ∧ t.time.late = true then t else t.startCode 2 0xB3 t.step_ 0) = u) :
    (t.step_ = 1 →
      ((u.imagesPass r = false ∨ (r.eastPass = false ∧ r.westPass = false)) → t.stepLimitEnd r = u.noImage r) ∧
      (u.imagesPass r = true → r.eastPass = true → t.stepLimitEnd r = u.bootEast r.westPass) ∧
      (u.imagesPass r = true → r.eastPass = false → r.westPass = true → t.stepLimitEnd r = u.bootWest)) ∧
    (t.step_ = 2 → t.stepLimitEnd r = u.fuseFail r.fuseBlock) ∧
    (t.step_ = 3 → t.stepLimitEnd r = u.lanesStep r) ∧
    (t.step_ = 4 → t.stepLimitEnd r = u.lightLimit) ∧
    (t.step_ = 5 → t.stepLimitEnd r = u.trainStep r) ∧
    (t.step_ = 6 → t.stepLimitEnd r = u.memoryStep r) ∧
    (t.step_ = 7 → t.stepLimitEnd r = u.mapStep) ∧
    (t.step_ = 8 →
      (u.timeState ≠ 1 ∨ u.time.late = true → t.stepLimitEnd r = u) ∧
      (u.timeState = 1 → u.time.late = false →
        t.stepLimitEnd r = (u.modTime fun x => { x with late := true }).postGlobal 2 0x06 0 0)) ∧
    (t.step_ = 9 → t.stepLimitEnd r = u.startDone) := by
  unfold State.stepLimitEnd
  dsimp only
  rw [hu]
  refine ⟨fun h => ?_, fun h => ?_, fun h => ?_, fun h => ?_, fun h => ?_, fun h => ?_, fun h => ?_, fun h => ?_, fun h => ?_⟩ <;>
    simp only [h]
  · refine ⟨fun hno => if_pos ?_, fun hi he => ?_, fun hi he hw => ?_⟩
    · rcases hno with hno | ⟨he, hw⟩
      · rw [hno]
        rfl
      · rw [he, hw]
        exact Bool.or_true _
    · rw [if_neg (by simp only [hi, he, Bool.not_true, Bool.false_and, Bool.or_self, Bool.false_eq_true, not_false_iff]),
        if_pos he]
    · rw [if_neg (by rw [hi, hw, he]; decide), if_neg (Bool.eq_false_iff.mp he)]
  · exact ⟨fun hno => if_pos hno,
      fun hj hl => if_neg (by rintro (hno | hno); exacts [hno hj, Bool.eq_false_iff.mp hl hno])⟩

/-- A step reaches its limit (R475). -/
theorem exec_startStepLimit (s : State) (r : StepResult) (runs : Prop)
    (hruns : ((s.stepState = 0 ∧ 1 ≤ s.step_ ∧ s.step_ ≤ 9) ∨ (s.stepState = 3 ∧ s.step_ = 4)) = runs) :
    (¬runs → exec (.startStepLimit r) s = .next s) ∧
    (runs → ∀ t, s.waitUntil (s.start.stepAt + stepLimit s.step_) = some t →
      exec (.startStepLimit r) s = .next (t.stepLimitEnd r).settleAll) := by
  subst hruns
  have hexec : exec (.startStepLimit r) s = execStartStepLimit r s := rfl
  unfold execStartStepLimit at hexec
  have hiff : ((s.stepState == 0 && decide (1 ≤ s.step_ ∧ s.step_ ≤ 9)) || (s.stepState == 3 && s.step_ == 4)) = true ↔
      (s.stepState = 0 ∧ 1 ≤ s.step_ ∧ s.step_ ≤ 9) ∨ (s.stepState = 3 ∧ s.step_ = 4) := by
    simp only [Bool.or_eq_true, Bool.and_eq_true, beq_iff_eq, decide_eq_true_eq]
  rw [hexec]
  refine ⟨fun h => if_pos (by rw [Bool.eq_false_iff.mpr (mt hiff.mp h)]; rfl), fun h t ht => ?_⟩
  rw [if_neg (by rw [hiff.mpr h]; decide), ht]

/-- Settles O51: a step by its number, at its end and at its limit. -/
theorem startUpProceeds : Obligations.StartUpProceeds := by
  unfold Obligations.StartUpProceeds
  have hnext : ∀ {a b : State}, a = b → (Host.Outcome.next a.settleAll : Host.Outcome State Fault Refusal) = .next b.settleAll :=
    fun h => by rw [h]
  refine ⟨fun s r => ?_, fun s r => ?_⟩
  · intro runs ends
    obtain ⟨hidle, hrun⟩ := exec_startStepEnd s r runs rfl
    refine ⟨hidle, fun h => ?_⟩
    obtain ⟨h1, h2, h3, h4, h5, h6, h7, h8⟩ := stepEnd_cases s r
    have hends : ∀ t, s.stepEnd r = t → ends t := fun t ht => (hrun h).trans (hnext ht)
    refine ⟨fun n => ⟨fun he hi => hends _ ((h1 n).1 he hi), fun hno => hends _ ((h1 n).2 hno)⟩,
      fun n => ⟨fun hp => hends _ ((h2 n).1 hp), fun hp => hends _ ((h2 n).2 hp)⟩, fun n => hends _ (h3 n),
      fun n => ⟨fun hl => hends _ ((h4 n).1 hl), fun hl => hends _ ((h4 n).2 hl)⟩, fun n => hends _ (h5 n),
      fun n => hends _ (h6 n), fun n => hends _ (h7 n),
      fun n => ⟨fun ht => hends _ ((h8 n).1 ht), fun ht => hends _ ((h8 n).2 ht)⟩, fun n => ?_,
      fun n => hends _ (stepEnd_none s r n)⟩
    obtain ⟨hupper, halone⟩ := stepEnd_nine s r n
    exact ⟨fun hu => ⟨fun ha => hends _ ((hupper hu).1 ha), fun ha => hends _ ((hupper hu).2 ha)⟩,
      fun hu => ⟨fun hp => hends _ ((halone hu).1 hp),
        fun hp hreach => hends _ ((halone hu).2 hp _ (waitUntil_reaches s _ hreach))⟩⟩
  · intro runs t u ends
    obtain ⟨hidle, hrun⟩ := exec_startStepLimit s r runs rfl
    refine ⟨hidle, fun h hreach => ?_⟩
    obtain ⟨h1, h2, h3, h4, h5, h6, h7, h8, h9⟩ := stepLimitEnd_cases t r u rfl
    have hends : ∀ v, t.stepLimitEnd r = v → ends v := fun v hv => (hrun h t (waitUntil_reaches s _ hreach)).trans (hnext hv)
    exact ⟨fun n => ⟨fun hno => hends _ ((h1 n).1 hno), fun hi he => hends _ ((h1 n).2.1 hi he),
        fun hi he hw => hends _ ((h1 n).2.2 hi he hw)⟩, fun n => hends _ (h2 n), fun n => hends _ (h3 n),
      fun n => hends _ (h4 n), fun n => hends _ (h5 n), fun n => hends _ (h6 n), fun n => hends _ (h7 n),
      fun n => ⟨fun hno => hends _ ((h8 n).1 hno), fun hj hl => hends _ ((h8 n).2 hj hl)⟩, fun n => hends _ (h9 n)⟩

end Sys2Proof.Machine
end

section
/-! PROOF. Memory after step 6, the registers of the start, the host link, configuration requests, FLR (R170, R173, R453 to
R455, R465, R476 to R479). -/

namespace Sys2Proof.Machine

/-- Device memory is fresh: no byte stored, no key and no error of a code word; these keys are in force. -/
structure FreshMemory (keys : List Nat) (next : Nat) (s : State) : Prop where
  mem : s.mem = []
  memKey : s.memKey = []
  memFlip : s.memFlip = []
  keys : s.keys = keys
  nextKey : s.nextKey = next

/-- The pieces of memory alone decide whether it is fresh. -/
theorem FreshMemory.of_eq {keys : List Nat} {next : Nat} {s t : State} (h : FreshMemory keys next s) (hmem : t.mem = s.mem)
    (hkey : t.memKey = s.memKey) (hflip : t.memFlip = s.memFlip) (hkeys : t.keys = s.keys) (hnext : t.nextKey = s.nextKey) :
    FreshMemory keys next t :=
  ⟨hmem.trans h.mem, hkey.trans h.memKey, hflip.trans h.memFlip, hkeys.trans h.keys, hnext.trans h.nextKey⟩

/-- The beginning of a step leaves memory fresh. -/
theorem FreshMemory.beginStep {keys : List Nat} {next : Nat} {s : State} (h : FreshMemory keys next s) (n : Nat) :
    FreshMemory keys next (s.beginStep n) := by
  unfold State.beginStep State.setBoot
  dsimp only
  split <;> exact h.of_eq rfl rfl rfl rfl rfl

/-- Step 6 with no failed channel leaves memory fresh (R170, R173). -/
theorem memoryStep_fresh (s : State) (r : StepResult) (h : r.chansFailed = []) :
    FreshMemory (lmod s.keys 8 fun _ => s.nextKey) (s.nextKey + 1) (s.memoryStep r) := by
  unfold State.memoryStep
  dsimp only
  rw [h, List.foldl_nil]
  refine FreshMemory.beginStep (List.foldlRecOn (motive := FreshMemory (lmod s.keys 8 fun _ => s.nextKey) (s.nextKey + 1))
    (List.range 8) _ ⟨rfl, rfl, rfl, rfl, rfl⟩ fun t ht g _ => ?_) 7
  split
  · exact ht
  · exact ht.of_eq rfl rfl rfl rfl rfl

/-- START_CTL written, by its two bits (R476, R477). -/
theorem startCtlOp_cases (s : State) (w : Word) :
    (∀ k, formCheck (locFields Loc.glStartCtl) w = some k → s.startCtlOp w = .error k) ∧
    (formCheck (locFields Loc.glStartCtl) w = none →
      (w.bit 0 = true → s.stepState ≠ 1 → s.startCtlOp w = .error 5) ∧
      (w.bit 0 = true → s.stepState = 1 → s.startCtlOp w = .ok (if w.bit 1 = true then s.saveJoin else s).beginJoin) ∧
      (w.bit 0 = false → w.bit 1 = true → s.startCtlOp w = .ok s.saveJoin)) := by
  unfold State.startCtlOp
  refine ⟨fun k h => by rw [h], fun hform => ?_⟩
  rw [hform]
  dsimp only
  refine ⟨fun h0 h => if_pos (by rw [h0, bne_iff_ne.mpr h]; rfl), fun h0 h => ?_, fun h0 h1 => ?_⟩
  · rw [h0, h]
    rfl
  · rw [h0, h1]
    rfl

/-- FAB_ID written (R476). -/
theorem fabIdOp_cases (s : State) (v : Word) :
    (∀ k, formCheck (locFields Loc.glFabId) v = some k → s.fabIdOp v = .error k) ∧
    (formCheck (locFields Loc.glFabId) v = none →
      (s.start.fabric = true ∨ 9 ≤ s.step_ → s.fabIdOp v = .error 5) ∧
      (s.start.fabric = false → s.step_ < 9 → s.fabIdOp v = .ok (s.put Loc.glFabId v))) := by
  have hlate : (s.start.fabric || decide (9 ≤ s.step_)) = true ↔ s.start.fabric = true ∨ 9 ≤ s.step_ := by
    rw [Bool.or_eq_true, decide_eq_true_iff]
  unfold State.fabIdOp
  refine ⟨fun k h => by rw [h], fun hform => ?_⟩
  rw [hform]
  exact ⟨fun h => if_pos (hlate.mpr h), fun hf hs =>
    if_neg fun h => (hlate.mp h).elim (Bool.eq_false_iff.mp hf) (Nat.not_le.mpr hs)⟩

/-- The three writes of the start reach their registers. -/
theorem exec_startWrites (s : State) (f : Func) (v : Word) :
    (s.accepts f Loc.glStartCtl (v.put 0 0 1) → exec (.continue_ f v) s = .next
      (s.settle f Loc.glStartCtl (s.startCtlOp (v.put 0 0 1)))) ∧
    (s.accepts f Loc.glStartCtl (v.put 1 1 1) → exec (.save f v) s = .next
      (s.settle f Loc.glStartCtl (s.startCtlOp (v.put 1 1 1)))) ∧
    (s.accepts f Loc.glFabId v → exec (.fabIdWrite f v) s = .next (s.settle f Loc.glFabId (s.fabIdOp v))) :=
  ⟨fun hacc => congrArg Host.Outcome.next (write_accepted hacc fun s => s.startCtlOp _),
   fun hacc => congrArg Host.Outcome.next (write_accepted hacc fun s => s.startCtlOp _),
   fun hacc => congrArg Host.Outcome.next (write_accepted hacc fun s => s.fabIdOp v)⟩

/-- The host link trains (R454). -/
theorem exec_hostLinkTrain (s : State) (rate : BitVec 3) (width : BitVec 4) (flit : Bool) (down : Bool)
    (hdown : (!(rate == 6 && width == 8 && flit)) = down) (sts : Nat)
    (hsts : rate.toNat + 8 * width.toNat + 128 * b2n flit + 256 * s.fld Loc.glHostSts 8 8 + 512 * b2n down = sts) (lower : State)
    (hlower : (if down = true then (s.put Loc.glHostSts (BitVec.ofNat 32 sts)).postGlobal 0 0xB8 0 sts
      else s.put Loc.glHostSts (BitVec.ofNat 32 sts)) = lower) :
    (s.power.closed = false ∨ s.start.resetN = true → exec (.hostLinkTrain rate width flit) s = .next s) ∧
    (s.power.closed = true → s.start.resetN = false →
      (s.fld Loc.glHostSts 2 0 = 0 → exec (.hostLinkTrain rate width flit) s = .next lower) ∧
      (s.fld Loc.glHostSts 2 0 ≠ 0 → exec (.hostLinkTrain rate width flit) s = .next (lower.postGlobal 0 0xB9 0 sts))) := by
  have hexec : exec (.hostLinkTrain rate width flit) s = execHostLinkTrain rate width flit s := rfl
  unfold execHostLinkTrain at hexec
  dsimp only at hexec
  rw [hdown, hsts, hlower] at hexec
  rw [hexec]
  refine ⟨fun h => if_pos (h.imp_left fun hc => by rw [hc]; rfl), fun hclosed hreset => ?_⟩
  rw [if_neg (by rw [hclosed, hreset]; decide)]
  exact ⟨fun h => congrArg Host.Outcome.next (if_neg fun hne => bne_iff_ne.mp hne h),
    fun h => congrArg Host.Outcome.next (if_pos (bne_iff_ne.mpr h))⟩

/-- A configuration request (R453, R479). -/
theorem exec_configRequest (s : State) (a : ConfigAccess) (on up : Prop)
    (hon : (s.power.closed = true ∧ s.start.resetN = false) = on)
    (hup : (s.step1Over = true ∨ s.start.since + 1000000000 ≤ s.clk.elapsed) = up) :
    (fnIdx a.f = none ∨ ¬on → exec (.configRequest a) s = .next { s with resp := .none }) ∧
    (∀ i, fnIdx a.f = some i → on →
      (¬up → exec (.configRequest a) s = .next { s with resp := .retry }) ∧
      (up → a.val = none → exec (.configRequest a) s = .next { s with resp := .word (s.cfgRead i a.reg) }) ∧
      (∀ v, up → a.val = some v → exec (.configRequest a) s = .next { s.cfgWrite i v a.reg with resp := .done })) := by
  subst hon hup
  have hoff : (!s.power.closed || s.start.resetN) = true ↔ ¬(s.power.closed = true ∧ s.start.resetN = false) := by
    rw [Bool.or_eq_true, Bool.not_eq_true', not_and_or, Bool.not_eq_true, Bool.not_eq_false]
  have hopen : (s.step1Over || decide (s.start.since + 1000000000 ≤ s.clk.elapsed)) = true ↔
      s.step1Over = true ∨ s.start.since + 1000000000 ≤ s.clk.elapsed := by
    rw [Bool.or_eq_true, decide_eq_true_iff]
  have hexec : exec (.configRequest a) s = execConfigRequest a s := rfl
  unfold execConfigRequest at hexec
  dsimp only at hexec
  rw [hexec]
  refine ⟨fun h => ?_, fun i hi hon => ?_⟩
  · rcases hi : fnIdx a.f with _ | i
    · rfl
    · rw [hi] at h
      exact if_pos (hoff.mpr (h.resolve_left (by simp)))
  · rw [hi]
    dsimp only
    rw [if_neg fun h => hoff.mp h hon]
    refine ⟨fun h => if_pos (by rw [Bool.eq_false_iff.mpr (mt hopen.mp h)]; rfl), fun h hv => ?_, fun v h hv => ?_⟩ <;>
      rw [hopen.mpr h, hv] <;> rfl

/-- A function-level reset (R465). -/
theorem exec_flr (s : State) (f : Func) :
    (fnIdx f = none → exec (.flr f) s = .next s) ∧
    (∀ i, fnIdx f = some i →
      let u := (s.abortMbox i 0 false true).put (Loc.mbMbSts i) 0
      let freed := if u.seClaim = i then u.setFld Loc.seSeSts 11 8 15 else u
      exec (.flr f) s = .next ((freed.modFn i fun x => { ide := x.ide }).put (Loc.mbWin2Base i) 0)) := by
  have hexec : exec (.flr f) s = execFlr f s := rfl
  unfold execFlr at hexec
  rw [hexec]
  exact ⟨fun h => by rw [h], fun i hi => by rw [hi]⟩

/-- Settles O52: memory after step 6 by what no repair touches, then each command by its own lemma. -/
theorem hostLinkAndFreshMemory : Obligations.HostLinkAndFreshMemory := by
  unfold Obligations.HostLinkAndFreshMemory
  refine ⟨fun s r h => ?_, fun s f v => ?_, fun s => ⟨fun rate width flit => ?_, fun a => ?_, exec_flr s⟩⟩
  · obtain ⟨hmem, hkey, hflip, hkeys, hnext⟩ := memoryStep_fresh s r h
    refine ⟨fun a => ?_, hkey, hflip, fun hlen => ?_, hnext⟩
    · rw [State.memByte, hmem]
      rfl
    · rw [hkeys]
      exact lget_lmod_same 0 s.keys 8 _ (by omega)
  · intro loc refused
    obtain ⟨hcontinue, hsave, hfab⟩ := exec_startWrites s f v
    refine ⟨?_, ?_, fun hacc => ?_⟩
    · intro w hacc
      obtain ⟨hbad, hgood⟩ := startCtlOp_cases s w
      rw [hcontinue hacc]
      refine ⟨fun k hform => by rw [hbad k hform]; rfl, fun hform => ?_⟩
      obtain ⟨hbars, hgoes, -⟩ := hgood hform
      have h0 : w.bit 0 = true := Word.put_bit_one v 0 (by decide)
      exact ⟨fun h => by rw [hbars h0 h]; rfl, fun h => by rw [hgoes h0 h]; rfl⟩
    · intro w hacc
      obtain ⟨hbad, hgood⟩ := startCtlOp_cases s w
      rw [hsave hacc]
      refine ⟨fun k hform => by rw [hbad k hform]; rfl, fun hform => ?_⟩
      obtain ⟨hbars, hgoes, hsaves⟩ := hgood hform
      have h1 : w.bit 1 = true := Word.put_bit_one v 1 (by decide)
      refine ⟨fun h0 => by rw [hsaves h0 h1]; rfl, fun h0 h => by rw [hbars h0 h]; rfl, fun h0 h => ?_⟩
      rw [hgoes h0 h, if_pos h1]
      rfl
    · obtain ⟨hbad, hgood⟩ := fabIdOp_cases s v
      rw [hfab hacc]
      refine ⟨fun k hform => by rw [hbad k hform]; rfl, fun hform => ?_⟩
      obtain ⟨hbars, htaken⟩ := hgood hform
      exact ⟨fun h => by rw [hbars h]; rfl, fun hf hs => by rw [htaken hf hs]; rfl⟩
  · exact exec_hostLinkTrain s rate width flit _ rfl _ rfl _ rfl
  · exact exec_configRequest s a _ _ rfl rfl

end Sys2Proof.Machine
end

section
/-! PROOF. What the window of BAR 2 sends to device memory and answers (R455 to R458, R461). -/

namespace Sys2Proof.Machine

/-- BAR 2 of a function that has none, and before step 6 has completed (R455). -/
theorem exec_window_shut (s : State) (f : Func) (offset len : Nat) (b : List Byte) :
    (s.barTwo f = none → exec (.windowRead f offset len) s = .next { s with resp := .none } ∧
      exec (.windowWrite f offset b) s = .next s) ∧
    (∀ i, s.barTwo f = some i → s.windowOpen = false →
      exec (.windowRead f offset len) s = .next { s with resp := .abort } ∧ exec (.windowWrite f offset b) s = .next s) := by
  have hread : exec (.windowRead f offset len) s = execWindowRead f offset len s := rfl
  have hwrite : exec (.windowWrite f offset b) s = execWindowWrite f offset b s := rfl
  unfold execWindowRead at hread
  unfold execWindowWrite at hwrite
  rw [hread, hwrite]
  refine ⟨fun h => ?_, fun i h hshut => ?_⟩
  · rw [h]
    exact ⟨rfl, rfl⟩
  · rw [h, hshut]
    exact ⟨rfl, rfl⟩

/-- A read through BAR 2 (R455, R457). -/
theorem exec_windowRead (s : State) (f : Func) (offset i : Nat) (hi : s.barTwo f = some i) (hopen : s.windowOpen = true)
    (len : Nat) (mailbox : Prop) (hmailbox : (mailOffset ≤ offset ∧ offset + len ≤ mailOffset + 4096) = mailbox)
    (r : State × List Byte) (hr : s.mailRead f i (offset - mailOffset) len = r) :
    (offset + len ≤ windowSize →
      exec (.windowRead f offset len) s = .next (s.windowReadAt i (s.windowAddr i offset) offset len)) ∧
    (windowSize < offset + len →
      (mailbox → exec (.windowRead f offset len) s = .next { r.1 with resp := .bytes (r.2.take len) }) ∧
      (¬mailbox → exec (.windowRead f offset len) s = .next { s with resp := .bytes (List.replicate len 0) })) := by
  subst hmailbox
  have hread : exec (.windowRead f offset len) s = execWindowRead f offset len s := rfl
  unfold execWindowRead at hread
  rw [hi] at hread
  dsimp only at hread
  rw [if_neg (by rw [hopen]; decide), hr] at hread
  rw [hread]
  refine ⟨fun h => if_pos h, fun h => ?_⟩
  rw [if_neg (Nat.not_le.mpr h)]
  exact ⟨fun hm => if_pos hm, fun hm => if_neg hm⟩

/-- A write through BAR 2 (R455, R457, R461). -/
theorem exec_windowWrite (s : State) (f : Func) (offset i : Nat) (hi : s.barTwo f = some i) (hopen : s.windowOpen = true)
    (b : List Byte) (mailbox : Prop) (hmailbox : (mailOffset ≤ offset ∧ offset + b.length ≤ mailOffset + 4096) = mailbox)
    (o : Nat) (ho : offset - mailOffset = o) (w : Word) (hw : BitVec.ofNat 32 (leNat (b.take 4)) = w) :
    (offset + b.length ≤ windowSize →
      exec (.windowWrite f offset b) s = .next (s.windowWriteAt i (s.windowAddr i offset) b)) ∧
    (windowSize < offset + b.length →
      (mailbox → b.length < 4 → s.accepts f ((0x180 + i) * 4096 + o) w → exec (.windowWrite f offset b) s = .next
        (s.reject f (((0x180 + i) * 4096 + o) / 4096) (((0x180 + i) * 4096 + o) % 4096) 2)) ∧
      (mailbox → b.length = 4 → exec (.windowWrite f offset b) s = .next (s.writeReg f (0x180 + i) o w)) ∧
      (mailbox → 4 < b.length → s.pageOpen f (0x180 + i) = true → fowns f (s.pageOwner (0x180 + i)) = true →
        exec (.windowWrite f offset b) s = .next (s.mailReject i o b.length)) ∧
      (¬mailbox → exec (.windowWrite f offset b) s = .next s)) := by
  subst hmailbox
  have hwrite : exec (.windowWrite f offset b) s = execWindowWrite f offset b s := rfl
  unfold execWindowWrite at hwrite
  rw [hi] at hwrite
  dsimp only at hwrite
  rw [if_neg (by rw [hopen]; decide), ho, hw] at hwrite
  rw [hwrite]
  refine ⟨fun h => if_pos h, fun h => ?_⟩
  rw [if_neg (Nat.not_le.mpr h)]
  refine ⟨fun hm hshort hacc => ?_, fun hm hword => ?_, fun hm hlong hpage howns => ?_, fun hm => if_neg hm⟩ <;>
    rw [if_pos hm]
  · rw [if_pos hshort]
    exact congrArg Host.Outcome.next (write_accepted hacc fun _ => .error 2)
  · rw [if_neg (by omega)]
    exact congrArg Host.Outcome.next (if_pos (by omega))
  · rw [if_neg (by omega)]
    unfold State.mailWidth
    rw [if_neg (by omega), if_neg (by rw [hpage]; decide), if_pos howns]

/-- A read of device memory is refused whole, or asks for its lines (R457, R458). -/
theorem windowReadAt_cases (s : State) (i a offset len : Nat) :
    (∀ l, s.windowRefusal i a len = some l →
      s.windowReadAt i a offset len = { s.granRefused i (l * 256) with resp := .abort }) ∧
    (s.windowRefusal i a len = none →
      s.windowReadAt i a offset len = ({ s with resp := .none } : State).hostBegin
        { read := true, m := i, offset := offset, skip := a % 256, len := len }
        ((rangeLines a len).zipIdx.map fun x => (x.2, s.windowLoad i x.1))) := by
  unfold State.windowReadAt
  exact ⟨fun l h => by rw [h], fun h => by rw [h]⟩

/-- The last line of an access completes it (R457). -/
theorem hostLine_last (s : State) (o : HostOp) (i st : Nat) (data : List Byte) (ho : s.hostOp o.id = some o)
    (hleft : o.left = 1) (last : HostOp)
    (hlast : { o with left := 0, got := tset [] o.got i data, status := if o.status = 0 then st else o.status } = last)
    (u : State) (hu : { s with hostOps := s.hostOps.filter fun x => x.id != o.id } = u) :
    (o.read = false → s.hostLine o.id i st data = u) ∧
    (o.read = true →
      (last.status = 0 → s.hostLine o.id i st data = { u with resp := .bytes last.bytes }) ∧
      (last.status = 0x20 → s.hostLine o.id i st data = { u.aerAbort o.m o.offset with resp := .abort }) ∧
      (last.status ≠ 0 → last.status ≠ 0x20 → s.hostLine o.id i st data = { u with resp := .abort })) := by
  have hover : s.hostLine o.id i st data = s.hostOver last := by
    unfold State.hostLine
    rw [ho]
    dsimp only
    rw [hleft, if_pos rfl, ← hlast]
  subst hu
  have hid : last.id = o.id := by rw [← hlast]
  have hread : last.read = o.read := by rw [← hlast]
  have hm : last.m = o.m := by rw [← hlast]
  have hoffset : last.offset = o.offset := by rw [← hlast]
  rw [hover]
  unfold State.hostOver
  rw [hid, hread, hm, hoffset]
  refine ⟨fun h => if_pos (by rw [h]; rfl), fun h => ?_⟩
  rw [if_neg (by rw [h]; decide)]
  refine ⟨fun h0 => if_pos h0, fun h20 => ?_, fun h0 h20 => ?_⟩
  · rw [if_neg (by rw [h20]; decide), if_pos h20]
  · rw [if_neg h0, if_neg h20]

/-- Settles O53: the two accesses by where they fall, then what a read and a write of the window send, and the last line. -/
theorem windowReachesMemory : Obligations.WindowReachesMemory := by
  unfold Obligations.WindowReachesMemory
  refine fun s f offset => ⟨fun h len b => (exec_window_shut s f offset len b).1 h, fun i hi =>
    ⟨fun hshut len b => (exec_window_shut s f offset len b).2 i hi hshut, fun hopen => ?_⟩,
    fun i a len => ⟨rfl, (windowReadAt_cases s i a offset len).1, (windowReadAt_cases s i a offset len).2⟩,
    fun _ _ _ => rfl, fun o i st data ho hleft => ?_⟩
  · intro mailbox
    exact ⟨fun len => exec_windowRead s f offset i hi hopen len _ rfl _ rfl,
      fun b => exec_windowWrite s f offset i hi hopen b _ rfl _ rfl _ rfl⟩
  · exact hostLine_last s o i st data ho hleft _ rfl _ rfl

end Sys2Proof.Machine
end

section
/-! PROOF. Mailboxes carry words, ring and flush (R460 to R464). -/

namespace Sys2Proof.Machine

/-- The words of MB_CTL that ring, flush the outgoing queue and flush the incoming one have the form of the register. -/
theorem mbCtl_form (m : Nat) (h : m < 9) :
    formCheck (locFields (Loc.mbMbCtl m)) 1 = none ∧ formCheck (locFields (Loc.mbMbCtl m)) 2 = none ∧
      formCheck (locFields (Loc.mbMbCtl m)) 4 = none := by
  revert m
  decide +kernel

/-- MB_CTL written with one of its three commands. -/
theorem mbCtlOp_single (s : State) (m : Nat) (h : m < 9) :
    s.mbCtlOp m 1 = .ok ((s.modMbox m fun x => { x with bellUp := true }).refuseUnknown m) ∧
      s.mbCtlOp m 2 = .ok (s.flushUp m) ∧ s.mbCtlOp m 4 = .ok (s.dropDown m) := by
  obtain ⟨h1, h2, h4⟩ := mbCtl_form m h
  unfold State.mbCtlOp
  rw [h1, h2, h4]
  exact ⟨rfl, rfl, rfl⟩

/-- A flush by the belfry of the queue towards a host empties it and gives the host its notice; towards a sequencer it marks it (R463). -/
theorem flushDown_cases (s : State) (m : Nat) :
    (m < 9 → s.flushDown m = (s.modMbox m fun x => { x with down := [] }).hostNotice m 3) ∧
    (9 ≤ m → s.flushDown m = s.modMbox m fun x => { x with down := [], flushDown := true }) := by
  unfold State.flushDown
  refine ⟨fun h => ?_, fun h => ?_⟩
  · rw [decide_eq_false (Nat.not_le.mpr h)]
    exact if_pos h
  · rw [decide_eq_true h]
    exact if_neg (Nat.not_lt.mpr h)

/-- MB_TX_DATA written by a host with a word: while the mailbox is aborted, in the rest of a refused message, and by the room (R461). -/
theorem mbTxOp_cases (s : State) (m : Nat) (w : Word) :
    (s.mailAborted = true → s.mbTxOp m w = .ok s) ∧
    (s.mailAborted = false → (s.mbox m).skip ≠ 0 → s.mbTxOp m w = .ok (s.modMbox m fun x => { x with skip := x.skip - 1 })) ∧
    (s.mailAborted = false → (s.mbox m).skip = 0 → (s.mbox m).up.length < 16 →
      s.mbTxOp m w = .ok (s.modMbox m fun x => { x with up := x.up ++ [w] }.flow (s.mailLive m))) ∧
    (s.mailAborted = false → (s.mbox m).skip = 0 → 16 ≤ (s.mbox m).up.length → s.mbTxOp m w = .ok (s.mailReject m 0x40)) := by
  unfold State.mbTxOp
  refine ⟨fun h => ?_, fun h hskip => ?_, fun h hskip hroom => ?_, fun h hskip hfull => ?_⟩
  · rw [if_pos h]
  · rw [if_neg (Bool.eq_false_iff.mp h), if_pos hskip]
  · rw [if_neg (Bool.eq_false_iff.mp h), if_neg (not_not.mpr hskip), if_pos hroom]
  · rw [if_neg (Bool.eq_false_iff.mp h), if_neg (not_not.mpr hskip), if_neg (Nat.not_lt.mpr hfull)]

/-- A host write to a mailbox page wider than a word: at a closed page, by the page's owner, and by another function (R461). -/
theorem mailWidth_wide (s : State) (f : Func) (m off bytes : Nat) (op : State → State) (h : 4 < bytes) (u : State)
    (hu : (s.reject f (0x180 + m) off 4).postGlobal 1 0xB4 m 0 (some (fnPart m)) = u) :
    (s.pageOpen f (0x180 + m) = false → s.mailWidth f m off bytes op = s) ∧
    (s.pageOpen f (0x180 + m) = true →
      (fowns f (s.pageOwner (0x180 + m)) = true → s.mailWidth f m off bytes op = s.mailReject m off bytes) ∧
      (fowns f (s.pageOwner (0x180 + m)) = false →
        (fnIdx f = none → s.mailWidth f m off bytes op = u) ∧
        (∀ i, fnIdx f = some i → s.mailWidth f m off bytes op = u.aerAbort i off bytes))) := by
  unfold State.mailWidth
  rw [if_neg (Nat.not_le.mpr h)]
  dsimp only
  rw [hu]
  refine ⟨fun hshut => if_pos (by rw [hshut]; rfl), fun hopen => ?_⟩
  rw [if_neg (by rw [hopen]; decide)]
  refine ⟨fun howns => if_pos howns, fun howns => ?_⟩
  rw [if_neg (Bool.eq_false_iff.mp howns)]
  exact ⟨fun hi => by rw [hi], fun i hi => by rw [hi]⟩

/-- MB_TX_DATA of a host is a write of its mailbox page, judged by its width. -/
theorem exec_mbTxData_host (s : State) (f : Func) (m : Fin 25) (w : Word) (n : Nat) (hm : m.val < 9) :
    exec (.mbTxData f m true w n) s = .next (s.mailWidth f m 0x40 n fun s =>
      if n < 4 then s.write f (Loc.mbMbTxData m) w fun _ => .error 2
      else s.write f (Loc.mbMbTxData m) w fun s => s.mbTxOp m w) :=
  if_pos ⟨rfl, hm⟩

/-- MB_TX_DATA of a host with four bytes or fewer, at a page that takes the write. -/
theorem exec_mbTxData_host_narrow (s : State) (f : Func) (m : Fin 25) (w : Word) (n : Nat) (hm : m.val < 9)
    (hacc : s.accepts f (Loc.mbMbTxData m) w) :
    (n < 4 → exec (.mbTxData f m true w n) s =
      .next (s.reject f (Loc.mbMbTxData m / 4096) (Loc.mbMbTxData m % 4096) 2)) ∧
    (n = 4 → exec (.mbTxData f m true w n) s = .next (s.settle f (Loc.mbMbTxData m) (s.mbTxOp m w))) := by
  rw [exec_mbTxData_host s f m w n hm]
  unfold State.mailWidth
  dsimp only
  refine ⟨fun h => ?_, fun h => ?_⟩
  · rw [if_pos (Nat.le_of_lt h), if_pos h, write_accepted hacc]
    rfl
  · rw [if_pos (Nat.le_of_eq h), if_neg (Nat.not_lt.mpr (Nat.le_of_eq h.symm)), write_accepted hacc]

/-- MB_TX_DATA of the sequencer of a spire (R460, R464). -/
theorem exec_mbTxData_seq (s : State) (f : Func) (m : Fin 25) (w : Word) (n : Nat) (hm : 9 ≤ m.val) :
    (s.seqMail m = false → exec (.mbTxData f m true w n) s = .next s) ∧
    (s.seqMail m = true →
      ((s.mbox m).up.length < 16 → exec (.mbTxData f m true w n) s =
        .next (s.modMbox m fun x => { x with up := x.up ++ [w] })) ∧
      (16 ≤ (s.mbox m).up.length → exec (.mbTxData f m true w n) s = .next { s with resp := .abort })) := by
  have hexec : exec (.mbTxData f m true w n) s = if !s.seqMail m then .next s
      else if 16 ≤ (s.mbox m).up.length then .next { s with resp := .abort }
      else .next (s.modMbox m fun x => { x with up := x.up ++ [w] }) :=
    if_neg fun h => Nat.not_lt.mpr hm h.2
  rw [hexec]
  refine ⟨fun h => if_pos (by rw [h]; rfl), fun h => ?_⟩
  rw [if_neg (by rw [h]; decide)]
  exact ⟨fun hroom => if_neg (Nat.not_le.mpr hroom), fun hfull => if_pos hfull⟩

/-- MB_TX_DATA of the active belfry (R460, R464). -/
theorem exec_mbTxData_belfry (s : State) (f : Func) (m : Fin 25) (w : Word) (n : Nat) :
    (¬(s.holder ≠ none ∧ (m.val < 9 ∨ s.seqMail m = true)) → exec (.mbTxData f m false w n) s = .next s) ∧
    (s.holder ≠ none ∧ (m.val < 9 ∨ s.seqMail m = true) →
      ((s.mbox m).down.length < 16 → exec (.mbTxData f m false w n) s =
        .next (s.modMbox m fun x => { x with down := x.down ++ [w] })) ∧
      (16 ≤ (s.mbox m).down.length → exec (.mbTxData f m false w n) s = .next { s with resp := .abort })) := by
  have hexec : exec (.mbTxData f m false w n) s = if !(s.holder.isSome && (decide (m.val < 9) || s.seqMail m)) then .next s
      else if 16 ≤ (s.mbox m).down.length then .next { s with resp := .abort }
      else .next (s.modMbox m fun x => { x with down := x.down ++ [w] }) := by
    change execMbTxData f m false w n s = _
    unfold execMbTxData
    rw [if_neg fun h => Bool.false_ne_true h.1]
    rfl
  have hserves : (s.holder.isSome && (decide (m.val < 9) || s.seqMail m)) = true ↔
      s.holder ≠ none ∧ (m.val < 9 ∨ s.seqMail m = true) := by
    rw [Bool.and_eq_true, Bool.or_eq_true, decide_eq_true_iff, Option.isSome_iff_ne_none]
  rw [hexec, ← hserves]
  refine ⟨fun h => if_pos (by rw [Bool.eq_false_iff.mpr h]; rfl), fun h => ?_⟩
  rw [if_neg (by rw [h]; decide)]
  exact ⟨fun hroom => if_neg (Nat.not_le.mpr hroom), fun hfull => if_pos hfull⟩

/-- MB_RX_POP with POP = 1 takes the head word, when the word has the register's form. -/
theorem mbPopOp_cases (s : State) (m : Nat) (w : Word) (hpop : w.bit 0 = true) :
    (∀ k, formCheck (locFields (Loc.mbMbRxPop m)) w = some k → s.mbPopOp m w = .error k) ∧
    (wellFormedFor (Loc.mbMbRxPop m) w → s.mbPopOp m w = .ok (s.modMbox m fun x => { x with down := x.down.drop 1 })) := by
  unfold State.mbPopOp
  refine ⟨fun k h => by rw [h], fun h => ?_⟩
  rw [show formCheck (locFields (Loc.mbMbRxPop m)) w = none from h]
  dsimp only
  rw [if_pos hpop]

/-- The bell and the flushes of a host are writes of MB_CTL. -/
theorem exec_mbCtl_host (s : State) (f : Func) (m : Fin 25) (hm : m.val < 9) :
    (s.accepts f (Loc.mbMbCtl m) 1 → exec (.doorbell f m true) s =
      .next ((s.modMbox m fun x => { x with bellUp := true }).refuseUnknown m).managed) ∧
    (s.accepts f (Loc.mbMbCtl m) 2 → exec (.flushTx f m false) s = .next (s.flushUp m).managed) ∧
    (s.accepts f (Loc.mbMbCtl m) 4 → exec (.flushRx f m false) s = .next (s.dropDown m).managed) := by
  obtain ⟨hbell, htx, hrx⟩ := mbCtlOp_single s m hm
  have hd : exec (.doorbell f m true) s = .next (s.write f (Loc.mbMbCtl m) 1 fun s => s.mbCtlOp m 1) := if_pos hm
  have ht : exec (.flushTx f m false) s = .next (s.write f (Loc.mbMbCtl m) 2 fun s => s.mbCtlOp m 2) := if_pos hm
  have hr : exec (.flushRx f m false) s = .next (s.write f (Loc.mbMbCtl m) 4 fun s => s.mbCtlOp m 4) := if_pos hm
  refine ⟨fun hacc => ?_, fun hacc => ?_, fun hacc => ?_⟩
  · rw [hd, write_accepted hacc, hbell, settle_ok]
  · rw [ht, write_accepted hacc, htx, settle_ok]
  · rw [hr, write_accepted hacc, hrx, settle_ok]

/-- The bell and the flushes of a sequencer that can reach its mailbox, and of one that cannot (R462 to R464). -/
theorem exec_mbCtl_seq (s : State) (f : Func) (m : Fin 25) (hm : 9 ≤ m.val) :
    exec (.doorbell f m true) s = .next (if s.seqMail m then s.modMbox m fun x => { x with bellUp := true } else s) ∧
    exec (.flushTx f m false) s = .next (if s.seqMail m then s.flushUp m else s) ∧
    exec (.flushRx f m false) s = .next (if s.seqMail m then s.modMbox m fun x => { x with down := [] } else s) :=
  ⟨if_neg (Nat.not_lt.mpr hm), if_neg (Nat.not_lt.mpr hm), if_neg (Nat.not_lt.mpr hm)⟩

/-- The bell and the flushes of the belfry while none is active (R462, R463). -/
theorem exec_mbCtl_no_holder (s : State) (f : Func) (m : Fin 25) (h : s.holder = none) :
    exec (.doorbell f m false) s = .next s ∧ exec (.flushTx f m true) s = .next s ∧ exec (.flushRx f m true) s = .next s := by
  have hnone : s.holder.isNone = true := by rw [h]; rfl
  have hsome : ¬s.holder.isSome = true := by rw [h]; decide
  exact ⟨if_pos hnone, congrArg _ (if_neg hsome), congrArg _ (if_neg hsome)⟩

/-- The bell and the flushes of the active belfry (R462, R463). -/
theorem exec_mbCtl_holder (s : State) (f : Func) (m : Fin 25) (h : s.holder ≠ none) :
    (m.val < 9 → exec (.doorbell f m false) s = .next (s.hostNotice m 0)) ∧
    (9 ≤ m.val → exec (.doorbell f m false) s = .next (s.modMbox m fun x => { x with bellDown := true })) ∧
    exec (.flushTx f m true) s = .next (s.flushDown m) ∧ exec (.flushRx f m true) s = .next (s.dropUp m) := by
  have hsome : s.holder.isSome = true := Option.isSome_iff_ne_none.mpr h
  have hbell : exec (.doorbell f m false) s = if m.val < 9 then .next (s.hostNotice m 0)
      else .next (s.modMbox m fun x => { x with bellDown := true }) :=
    if_neg (by rw [Option.isNone_iff_eq_none]; exact h)
  rw [hbell]
  exact ⟨fun hm => if_pos hm, fun hm => if_neg (Nat.not_lt.mpr hm), congrArg _ (if_pos hsome), congrArg _ (if_pos hsome)⟩

/-- Settles O54: the words by their writer and the room of the queue, then the bell and the flushes by who gives them. -/
theorem mailboxesCarryWords : Obligations.MailboxesCarryWords := by
  unfold Obligations.MailboxesCarryWords
  refine ⟨fun s f => ⟨fun m w n hm => ?_, fun m w n => ⟨exec_mbTxData_seq s f m w n, exec_mbTxData_belfry s f m w n⟩,
    fun m v => ?_⟩, fun s f m => ?_⟩
  · refine ⟨fun hn hacc => (exec_mbTxData_host_narrow s f m w n hm hacc).1 hn, fun hn hacc => ?_, fun hn => ?_⟩
    · obtain ⟨habort, hskips, hroom, hfull⟩ := mbTxOp_cases s m w
      rw [(exec_mbTxData_host_narrow s f m w n hm hacc).2 hn]
      exact ⟨fun h => by rw [habort h]; rfl, fun h hs => by rw [hskips h hs]; rfl, fun h hs hl => by rw [hroom h hs hl]; rfl,
        fun h hs hl => by rw [hfull h hs hl]; rfl⟩
    · obtain ⟨hshut, hopen⟩ := mailWidth_wide s f m 0x40 n (fun s =>
        if n < 4 then s.write f (Loc.mbMbTxData m) w fun _ => .error 2
        else s.write f (Loc.mbMbTxData m) w fun s => s.mbTxOp m w) hn _ rfl
      rw [exec_mbTxData_host s f m w n hm]
      exact ⟨fun h => congrArg _ (hshut h), fun h => ⟨fun ho => congrArg _ ((hopen h).1 ho), fun ho =>
        ⟨fun hi => congrArg _ (((hopen h).2 ho).1 hi), fun i hi => congrArg _ (((hopen h).2 ho).2 i hi)⟩⟩⟩
  · intro loc w hacc
    obtain ⟨hbad, hgood⟩ := mbPopOp_cases s m w (Word.put_bit_one v 0 (by decide))
    have hexec : exec (.mbRxPop f m v) s = .next (s.settle f loc (s.mbPopOp m w)) :=
      congrArg Host.Outcome.next (write_accepted hacc fun s => s.mbPopOp m w)
    rw [hexec]
    exact ⟨fun k h => by rw [hbad k h]; rfl, fun h => by rw [hgood h]; rfl⟩
  · obtain ⟨hhost, hspire⟩ := flushDown_cases s m
    refine ⟨fun hm => exec_mbCtl_host s f m hm, fun hm => ?_, exec_mbCtl_no_holder s f m, fun h => ?_⟩
    · obtain ⟨hd, ht, hr⟩ := exec_mbCtl_seq s f m hm
      rw [hd, ht, hr]
      exact ⟨fun h => by rw [h]; exact ⟨rfl, rfl, rfl⟩, fun h => by rw [h]; exact ⟨rfl, rfl, rfl⟩⟩
    · obtain ⟨hd, hd', ht, hr⟩ := exec_mbCtl_holder s f m h
      refine ⟨fun hm => ⟨hd hm, ?_⟩, fun hm => ⟨hd' hm, ?_⟩, hr⟩
      · rw [ht, hhost hm]
        rfl
      · rw [ht, hspire hm]

end Sys2Proof.Machine
end

section
/-! PROOF. The belfry serves the message that heads a mailbox, and answers it (R466, R467). -/

namespace Sys2Proof.Machine

/-- A message is served only at the head of its queue; then its words are taken, and a command that the function may not give now
is answered with the refusing status, any other as it runs. -/
theorem mailServe_cases (s : State) (m : Nat) (mid : BitVec 16) (cmd : Nat) (args : List Word)
    (run : State → Nat × List Word × State) :
    (s.mailHeads m cmd mid args = false → s.mailServe m mid cmd args run = s) ∧
    (s.mailHeads m cmd mid args = true →
      (∀ c, (s.mailTaken m (args.length + 1)).mailStatus m cmd = some c →
        s.mailServe m mid cmd args run = (s.mailTaken m (args.length + 1)).mailAnswer m cmd mid c []) ∧
      ((s.mailTaken m (args.length + 1)).mailStatus m cmd = none → ∀ k data t,
        run (s.mailTaken m (args.length + 1)) = (k, data, t) →
        s.mailServe m mid cmd args run = t.mailAnswer m cmd mid k data)) := by
  unfold State.mailServe
  refine ⟨fun h => if_pos (by rw [h]; rfl), fun h => ?_⟩
  rw [if_neg (by rw [h]; decide)]
  dsimp only
  refine ⟨fun c hc => by rw [hc], fun hnone k data t hrun => ?_⟩
  rw [hnone]
  dsimp only
  rw [hrun]

/-- A command that runs is answered with the status, the words and the state that it gives. -/
theorem mailServe_runs {s : State} {m : Nat} {mid : BitVec 16} {cmd : Nat} {args : List Word} {k : Nat} {data : List Word} {t : State}
    (run : State → Nat × List Word × State) (hheads : s.mailHeads m cmd mid args = true)
    (hstatus : (s.mailTaken m (args.length + 1)).mailStatus m cmd = none)
    (hrun : run (s.mailTaken m (args.length + 1)) = (k, data, t)) :
    Host.Outcome.next (s.mailServe m mid cmd args run) = (.next (t.mailAnswer m cmd mid k data) : Host.Outcome State Fault Refusal) :=
  congrArg _ (((mailServe_cases s m mid cmd args run).2 hheads).2 hstatus k data t hrun)

/-- Each of the seven commands is a message with its number and words. -/
theorem exec_messages (s : State) (m : Fin 9) (mid : BitVec 16) (type offset length svn count spire cell row : Nat) (seq id : Word)
    (words : List Word) :
    ∀ x ∈ [(1, ([] : List Word), Instr.status m mid),
        (2, BitVec.ofNat 32 type :: BitVec.ofNat 32 offset :: words, .imageWrite m mid type offset words),
        (3, [BitVec.ofNat 32 type, BitVec.ofNat 32 length], .imageCommit m mid type length),
        (4, [BitVec.ofNat 32 type, BitVec.ofNat 32 svn], .svnRaise m mid type svn),
        (5, [BitVec.ofNat 32 spire, BitVec.ofNat 32 cell, BitVec.ofNat 32 row], .wellRemap m mid spire cell row),
        (6, [seq, BitVec.ofNat 32 count], .logRead m mid seq count), (7, [id], .setDevId m mid id)],
      ∃ run, exec x.2.2 s = .next (s.mailServe m mid x.1 x.2.1 run) := by
  intro x hx
  simp only [List.mem_cons, List.not_mem_nil, or_false] at hx
  rcases hx with rfl | rfl | rfl | rfl | rfl | rfl | rfl <;> exact ⟨_, rfl⟩

/-- WELL_REMAP: the refusals in their order, then the outcome of the write of REMAP (R142). -/
theorem exec_wellRemap (s : State) (m : Fin 9) (mid : BitVec 16) (n c row : Nat) (args : List Word)
    (hargs : [BitVec.ofNat 32 n, BitVec.ofNat 32 c, BitVec.ofNat 32 row] = args) (u : State)
    (hu : s.mailTaken m (args.length + 1) = u) (w : Word) (hw : remapWord c row = w)
    (hheads : s.mailHeads m 5 mid args = true) (hstatus : u.mailStatus m 5 = none) :
    (16 ≤ n ∨ 64 ≤ c ∨ 49152 ≤ row → exec (.wellRemap m mid n c row) s = .next (u.mailAnswer m 5 mid 2 [])) ∧
    (n < 16 → c < 64 → row < 49152 →
      (m.val ≠ 0 → u.spireOwner n ≠ m.val - 1 → exec (.wellRemap m mid n c row) s = .next (u.mailAnswer m 5 mid 3 [])) ∧
      (m.val = 0 ∨ u.spireOwner n = m.val - 1 →
        ((u.spire n).out ≠ 0 → exec (.wellRemap m mid n c row) s = .next (u.mailAnswer m 5 mid 4 [])) ∧
        ((u.spire n).out = 0 →
          (∀ t, u.spRemapOp n w = .ok t → exec (.wellRemap m mid n c row) s = .next (t.mailAnswer m 5 mid 0 [])) ∧
          (∀ k, u.spRemapOp n w = .error k →
            exec (.wellRemap m mid n c row) s = .next (u.mailAnswer m 5 mid (if k = 6 then 4 else 2) []))))) := by
  have hexec : exec (.wellRemap m mid n c row) s = execWellRemap m mid n c row s := rfl
  unfold execWellRemap at hexec
  rw [hargs, hw] at hexec
  subst hu
  rw [hexec]
  refine ⟨fun h => mailServe_runs _ hheads hstatus ?_, fun hn hc hrow => ?_⟩
  · rw [if_pos h]
  have hin : ¬(16 ≤ n ∨ 64 ≤ c ∨ 49152 ≤ row) := by omega
  refine ⟨fun hm howner => mailServe_runs _ hheads hstatus ?_, fun hmay => ?_⟩
  · rw [if_neg hin, if_pos ⟨hm, howner⟩]
  have hmine : ¬(m.val ≠ 0 ∧ (s.mailTaken m (args.length + 1)).spireOwner n ≠ m.val - 1) := fun h => hmay.elim h.1 h.2
  refine ⟨fun hout => mailServe_runs _ hheads hstatus ?_, fun hout =>
    ⟨fun t ht => mailServe_runs _ hheads hstatus ?_, fun k hk => mailServe_runs _ hheads hstatus ?_⟩⟩
  · rw [if_neg hin, if_neg hmine, if_pos hout]
  · rw [if_neg hin, if_neg hmine, if_neg (not_not.mpr hout), ht]
  · rw [if_neg hin, if_neg hmine, if_neg (not_not.mpr hout), hk]
    rfl

/-- IMAGE_WRITE of a known image stages its words, and is refused for another type. -/
theorem exec_imageWrite (s : State) (m : Fin 9) (mid : BitVec 16) (type offset : Nat) (words : List Word) (args : List Word)
    (hargs : BitVec.ofNat 32 type :: BitVec.ofNat 32 offset :: words = args) (u : State) (hu : s.mailTaken m (args.length + 1) = u)
    (hheads : s.mailHeads m 2 mid args = true) (hstatus : u.mailStatus m 2 = none) :
    (imageType type = true → exec (.imageWrite m mid type offset words) s = .next (State.mailAnswer
      { u with store := { u.store with
        staged := tset [] u.store.staged type (stageWords (tget [] u.store.staged type) offset words) } } m 2 mid 0 [])) ∧
    (imageType type = false → exec (.imageWrite m mid type offset words) s = .next (u.mailAnswer m 2 mid 2 [])) := by
  subst hargs
  subst hu
  exact ⟨fun h => mailServe_runs _ hheads hstatus (if_neg (by rw [h]; decide)),
    fun h => mailServe_runs _ hheads hstatus (if_pos (by rw [h]; rfl))⟩

/-- IMAGE_COMMIT of a known and sound image keeps it; the refusals of another. -/
theorem exec_imageCommit (s : State) (m : Fin 9) (mid : BitVec 16) (type length : Nat) (args : List Word)
    (hargs : [BitVec.ofNat 32 type, BitVec.ofNat 32 length] = args) (u : State) (hu : s.mailTaken m (args.length + 1) = u)
    (hheads : s.mailHeads m 3 mid args = true) (hstatus : u.mailStatus m 3 = none) :
    (imageType type = false → exec (.imageCommit m mid type length) s = .next (u.mailAnswer m 3 mid 2 [])) ∧
    (imageType type = true → u.imageOk type length = true →
      exec (.imageCommit m mid type length) s = .next (State.mailAnswer { u with store := { u.store with
        staged := tset [] u.store.staged type []
        images := tset [] u.store.images (type + 16) (tget [] u.store.staged type) } } m 3 mid 0 [])) ∧
    (imageType type = true → u.imageOk type length = false →
      exec (.imageCommit m mid type length) s = .next (u.mailAnswer m 3 mid 5 [])) := by
  subst hargs
  subst hu
  exact ⟨fun h => mailServe_runs _ hheads hstatus (if_pos (by rw [h]; rfl)),
    fun h hok => mailServe_runs _ hheads hstatus ((if_neg (by rw [h]; decide)).trans (if_neg (by rw [hok]; decide))),
    fun h hok => mailServe_runs _ hheads hstatus ((if_neg (by rw [h]; decide)).trans (if_pos (by rw [hok]; rfl)))⟩

/-- SVN_RAISE of a known image to its minimum or above; the refusal of another and of a lower one. -/
theorem exec_svnRaise (s : State) (m : Fin 9) (mid : BitVec 16) (type svn : Nat) (args : List Word)
    (hargs : [BitVec.ofNat 32 type, BitVec.ofNat 32 svn] = args) (u : State) (hu : s.mailTaken m (args.length + 1) = u)
    (hheads : s.mailHeads m 4 mid args = true) (hstatus : u.mailStatus m 4 = none) :
    (imageType type = true → tget 0 u.store.svn type ≤ svn % 2 ^ 32 → exec (.svnRaise m mid type svn) s = .next (State.mailAnswer
      { u with store := { u.store with svn := tset 0 u.store.svn type (svn % 2 ^ 32) } } m 4 mid 0 [])) ∧
    (imageType type = false ∨ svn % 2 ^ 32 < tget 0 u.store.svn type →
      exec (.svnRaise m mid type svn) s = .next (u.mailAnswer m 4 mid 2 [])) := by
  subst hargs
  subst hu
  refine ⟨fun h hle => mailServe_runs _ hheads hstatus (if_neg ?_), fun h => mailServe_runs _ hheads hstatus (if_pos ?_)⟩
  · rintro (hbad | hlt)
    · exact absurd h (by simpa using hbad)
    · exact absurd hle (Nat.not_le.mpr hlt)
  · exact h.imp_left fun hbad => by rw [hbad]; rfl

/-- LOG_READ of a count from 1 to 31, and the refusal of another. -/
theorem exec_logRead (s : State) (m : Fin 9) (mid : BitVec 16) (seq : Word) (count : Nat) (args : List Word)
    (hargs : [seq, BitVec.ofNat 32 count] = args) (u : State) (hu : s.mailTaken m (args.length + 1) = u)
    (hheads : s.mailHeads m 6 mid args = true) (hstatus : u.mailStatus m 6 = none) (l : List LogRec)
    (hl : (u.faults.log.filter fun r => decide (seq.toNat ≤ r.seq) && (m.val == 0 || r.e.part == m.val - 1)) = l) :
    (count = 0 ∨ 31 < count → exec (.logRead m mid seq count) s = .next (u.mailAnswer m 6 mid 2 [])) ∧
    (1 ≤ count → count ≤ 31 → exec (.logRead m mid seq count) s = .next
      (u.mailAnswer m 6 mid 0 ((l.take count).flatMap fun r => r.words.map fun w => BitVec.ofNat 32 w))) := by
  subst hargs
  subst hl
  subst hu
  exact ⟨fun h => mailServe_runs _ hheads hstatus (if_pos h), fun hlo hhi => mailServe_runs _ hheads hstatus (if_neg (by omega))⟩

/-- SET_DEV_ID has the outcome of the write of FAB_ID with VALID = 1. -/
theorem exec_setDevId (s : State) (m : Fin 9) (mid : BitVec 16) (id : Word) (args : List Word) (hargs : [id] = args)
    (u : State) (hu : s.mailTaken m (args.length + 1) = u)
    (hheads : s.mailHeads m 7 mid args = true) (hstatus : u.mailStatus m 7 = none) :
    (∀ t, u.fabIdOp (id.put 16 16 1) = .ok t → exec (.setDevId m mid id) s = .next (t.mailAnswer m 7 mid 0 [])) ∧
    (∀ k, u.fabIdOp (id.put 16 16 1) = .error k →
      exec (.setDevId m mid id) s = .next (u.mailAnswer m 7 mid (if k = 6 then 4 else 2) [])) := by
  subst hargs
  have hexec : exec (.setDevId m mid id) s = execSetDevId m mid id s := rfl
  unfold execSetDevId at hexec
  rw [hexec]
  refine ⟨fun t ht => mailServe_runs _ hheads (hu ▸ hstatus) ?_, fun k hk => mailServe_runs _ hheads (hu ▸ hstatus) ?_⟩
  · rw [hu, ht]
  · rw [hu, hk]
    rfl

/-- Settles O55: the head of the queue and the refusing status by `mailServe_cases`, then each command as it runs. -/
theorem messagesAreAnswered : Obligations.MessagesAreAnswered := by
  unfold Obligations.MessagesAreAnswered
  refine fun s m mid => ⟨fun type offset length svn count spire cell row seq id words x hx => ?_,
    fun hheads hstatus => mailServe_runs _ hheads hstatus rfl,
    fun type offset words hheads hstatus => exec_imageWrite s m mid type offset words _ rfl _ rfl hheads hstatus,
    fun type length hheads hstatus => exec_imageCommit s m mid type length _ rfl _ rfl hheads hstatus,
    fun type svn hheads hstatus => exec_svnRaise s m mid type svn _ rfl _ rfl hheads hstatus,
    fun n c row hheads hstatus => exec_wellRemap s m mid n c row _ rfl _ rfl _ rfl hheads hstatus,
    fun seq count hheads hstatus => exec_logRead s m mid seq count _ rfl _ rfl hheads hstatus _ rfl,
    fun id hheads hstatus => exec_setDevId s m mid id _ rfl _ rfl hheads hstatus⟩
  · obtain ⟨run, hexec⟩ := exec_messages s m mid type offset length svn count spire cell row seq id words x hx
    obtain ⟨hother, hserved⟩ := mailServe_cases s m mid x.1 x.2.1 run
    rw [hexec]
    exact ⟨fun h => congrArg _ (hother h), fun h c hc => congrArg _ ((hserved h).1 c hc)⟩

end Sys2Proof.Machine
end

section
/-! PROOF. Sideband inputs are filtered, chatter and stick; the SMBus answers its five reads (R470 to R474). -/

namespace Sys2Proof.Machine

/-- More edges in a millisecond than CHATTER make an input chatter, with what is taken of INTLK_B and of a lantern's fault line (R472). -/
theorem exec_inputChatter (s : State) (i : Fin 10) (n : Nat) (u : State)
    (hu : (State.setFlag { s with start := { s.start with edgeAt := s.start.edgeAt.set i s.clk.elapsed } } Loc.glSbSts 2 true
      i).postGlobal 2 0xB6 i n = u) :
    (¬(s.chattering i = false ∧ s.fld Loc.glSbCfg 15 8 i < n) → exec (.inputChatter i n) s = .next s) ∧
    (s.chattering i = false ∧ s.fld Loc.glSbCfg 15 8 i < n →
      (i.val = 2 → exec (.inputChatter i n) s = .next ((u.setFlag Loc.glSbSts 1 true i).intlkStuck true)) ∧
      (6 ≤ i.val → i.val ≤ 8 → exec (.inputChatter i n) s = .next ((u.setFlag Loc.glSbSts 1 true i).bayFault (i - 6))) ∧
      (i.val ≠ 2 → (i.val < 6 ∨ i.val = 9) → exec (.inputChatter i n) s = .next u)) := by
  have hexec : exec (.inputChatter i n) s = execInputChatter i n s := rfl
  unfold execInputChatter at hexec
  dsimp only at hexec
  rw [hu] at hexec
  have hbegins : (s.chattering i = true ∨ n ≤ s.fld Loc.glSbCfg 15 8 i) ↔
      ¬(s.chattering i = false ∧ s.fld Loc.glSbCfg 15 8 i < n) := by
    rw [not_and_or, Bool.not_eq_false, Nat.not_lt]
  rw [hexec]
  refine ⟨fun h => if_pos (hbegins.mpr h), fun h => ?_⟩
  rw [if_neg fun hno => hbegins.mp hno h]
  refine ⟨fun h2 => congrArg _ (if_pos h2), fun hlo hhi => ?_, fun h2 hrest => ?_⟩
  · rw [if_neg (by omega), if_pos ⟨hlo, hhi⟩]
  · rw [if_neg h2, if_neg (by omega)]

/-- The chatter of an input ends 10 ms after its latest edge (R472). -/
theorem exec_chatterClear (s : State) (i : Fin 10) (t : State)
    (ht : s.atTime (lget 0 s.start.edgeAt i + 10000000) = t) :
    (s.chattering i = false → exec (.chatterClear i) s = .next s) ∧
    (s.chattering i = true → s.reaches (lget 0 s.start.edgeAt i + 10000000) →
      exec (.chatterClear i) s = .next ((t.setFlag Loc.glSbSts 2 false i).takeInput i (t.flag Loc.glSbSts 0 i))) := by
  have hexec : exec (.chatterClear i) s = execChatterClear i s := rfl
  unfold execChatterClear at hexec
  rw [hexec]
  refine ⟨fun h => if_pos (by rw [h]; rfl), fun h hreach => ?_⟩
  rw [if_neg (by rw [h]; decide), waitUntil_reaches s _ hreach, ht]

/-- An active input is stuck STUCK_S after its latest edge, where that is not 0 and it is not shown stuck (R473). -/
theorem exec_inputStuck (s : State) (i : Fin 10) (sec : Nat) (hsec : s.fld Loc.glSbCfg 23 16 i = sec) :
    (¬(sec ≠ 0 ∧ s.flag Loc.glSbSts 1 i = true ∧ s.flag Loc.glSbSts 3 i = false) → exec (.inputStuck i) s = .next s) ∧
    (sec ≠ 0 ∧ s.flag Loc.glSbSts 1 i = true ∧ s.flag Loc.glSbSts 3 i = false →
      s.reaches (lget 0 s.start.edgeAt i + sec * 1000000000) →
      exec (.inputStuck i) s = .next
        (((s.atTime (lget 0 s.start.edgeAt i + sec * 1000000000)).setFlag Loc.glSbSts 3 true i).postGlobal 2 0xB7 i 0)) := by
  have hexec : exec (.inputStuck i) s = execInputStuck i s := rfl
  unfold execInputStuck at hexec
  dsimp only at hexec
  rw [hsec] at hexec
  have hdue : (sec = 0 ∨ (!s.flag Loc.glSbSts 1 i) = true ∨ s.flag Loc.glSbSts 3 i = true) ↔
      ¬(sec ≠ 0 ∧ s.flag Loc.glSbSts 1 i = true ∧ s.flag Loc.glSbSts 3 i = false) := by
    rw [not_and_or, not_and_or, not_not, Bool.not_eq_true', Bool.not_eq_true, Bool.not_eq_false]
  rw [hexec]
  refine ⟨fun h => if_pos (hdue.mpr h), fun h hreach => ?_⟩
  rw [if_neg fun hno => hdue.mp hno h, waitUntil_reaches s _ hreach]

/-- An answer on the SMBus needs power (R470). -/
theorem smbus_cases (s : State) (b : List Byte) :
    (s.power.closed = false → s.smbus b = { s with resp := .none }) ∧
    (s.power.closed = true → s.smbus b = { s with resp := .bytes b }) := by
  unfold State.smbus
  exact ⟨fun h => by rw [h]; rfl, fun h => by rw [h]; rfl⟩

/-- Each of the five reads answers on the SMBus. -/
theorem exec_smbusReads (s : State) :
    ∀ x ∈ [Instr.smbusSensorRead, .smbusPowerRead, .smbusBootRead, .smbusSidebandRead, .smbusIdentityRead],
      ∃ b, exec x s = .next (s.smbus b) := by
  intro x hx
  simp only [List.mem_cons, List.not_mem_nil, or_false] at hx
  rcases hx with rfl | rfl | rfl | rfl | rfl <;> exact ⟨_, rfl⟩

/-- Settles O56: the inputs by `inputEdge_cases` and the three lemmas on chatter and stuck lines, the reads by `smbus_cases`. -/
theorem sidebandAnswers : Obligations.SidebandAnswers := by
  unfold Obligations.SidebandAnswers
  refine ⟨fun s i => ⟨fun high => ?_, fun n => exec_inputChatter s i n _ rfl, (exec_chatterClear s i _ rfl).1,
    (exec_chatterClear s i _ rfl).2, exec_inputStuck s i _ rfl⟩, fun s => ⟨fun x hx h => ?_, fun h => ?_⟩⟩
  · intro at_ t shown hreach
    have hedge : exec (.sidebandInputEdge i high) s = .next (t.inputEdge i high) :=
      congrArg Host.Outcome.next (filteredEdge_reaches s i high t (waitUntil_reaches s _ hreach))
    obtain ⟨hsame, hnew⟩ := inputEdge_cases t i high _ rfl
    rw [hedge]
    exact ⟨fun h => congrArg _ (hsame h), fun h => ⟨fun hc => congrArg _ ((hnew h).2 hc), fun hc => congrArg _ ((hnew h).1 hc)⟩⟩
  · obtain ⟨b, hb⟩ := exec_smbusReads s x hx
    rw [hb, (smbus_cases s b).1 h]
  · have hans := fun b => congrArg (Host.Outcome.next (φ := Fault) (ρ := Refusal)) ((smbus_cases s b).2 h)
    exact ⟨hans _, hans _, hans _, hans _, hans _⟩

end Sys2Proof.Machine
end
